-- ==== Sys2Proof/Word.lean ====
section
/-!
DEFINITION. The word types of the Loroon 5 and the sparse tables that hold everything keyed by a number.
-/
namespace Sys2Proof

/-- A byte. -/
abbrev Byte := BitVec 8
/-- The 64-bit word of a general register and of a full/empty word (R3, R295). -/
abbrev Word := BitVec 64
/-- A 32-bit instruction or literal word, or a vector lane (R100, R180). -/
abbrev Half := BitVec 32

/-- A sparse table: entries in strictly rising key order. -/
abbrev Tab (α : Type) := List (Nat × α)

/-- A sparse store of `w`-bit cells; an unlisted cell reads zero. -/
abbrev Store (w : Nat) := Tab (BitVec w)

end Sys2Proof
end

