-- ==== Sys2Proof/Event.lean ====
section
/-!
DEFINITION. What instructions and device steps carry, and the device steps that can be pending: one constructor for each
device-step row of the opcode table. A pending step is executed as the instruction of the same name (Syntax.lean).
-/
namespace Sys2Proof

/-- Source B of a T-format word: a register or port number below 30, or the literal words that follow (R107). -/
inductive Src where
  /-- g0-g27, i0 or i1. -/
  | reg (n : BitVec 5)
  /-- B = 31: one literal word, sign-extended. -/
  | lit32 (v : BitVec 32)
  /-- B = 30: two literal words, low word first. -/
  | lit64 (v : BitVec 64)
  deriving DecidableEq, Repr

/-- The three engines of a core (R15). -/
inductive Engine where
  | vector | matrix | copy
  deriving DecidableEq, Repr

/-- The atomics of R163. -/
inductive AtomOp where
  | add | minS | minN | maxS | maxN | and | or | xor | swp | cas | fadd
  deriving DecidableEq, Repr

/-- The kinds of access that travel to a word's home. -/
inductive AccessKind where
  /-- A load from a remote window or another device. -/
  | load
  /-- LDE, LDF, STF, STS and CLRE (R159). -/
  | lde | ldf | stf | sts | clre
  /-- An atomic (R163). -/
  | atomic (op : AtomOp)
  /-- PST and PST.F (R165). -/
  | pst | pstf
  /-- A store to another device, sent at its chunk's commit. -/
  | store
  /-- An RFILL and a message from another device (R419): `va` holds the operand that names the target. -/
  | rfill
  | message (words : List Word)
  deriving DecidableEq, Repr

/-- One access in flight: the thread it answers, the register it fills, the word it reaches. -/
structure Access where
  kind : AccessKind
  uid  : Nat
  reg  : BitVec 5
  ctx  : Nat
  core : Nat
  va   : Nat
  loc  : Nat
  size : Nat
  fmt  : Nat
  data : Word
  expd : Word
  pc   : Nat
  deriving DecidableEq, Repr

/-- A message: its context, its sender word (R43) and its 1 to 8 words (R41). -/
structure Message where
  ctx    : Nat
  sender : Word
  words  : List Word
  deriving DecidableEq, Repr

/-- What a thread takes from its launch and its kernel header (R34, R343). -/
structure Attr where
  ctx      : Nat
  header   : Nat
  handler  : Nat
  mask     : BitVec 28
  seq      : Nat
  tid      : BitVec 32
  count    : Nat
  prio     : Nat
  isSealed : Bool
  restart  : Bool
  deriving DecidableEq, Repr

/-- The packet of SPAWN (R36, R170). -/
structure SpawnPacket where
  parent : Nat
  core   : Nat
  start  : Nat
  attr   : Attr
  tvec   : Word
  run    : List (Nat × Word × Bool)
  held   : Bool
  pc     : Nat
  deriving DecidableEq, Repr

/-- A record on its way to the Bed (R345): from the host, with its words, or from LAUNCH, with its address. -/
structure LaunchReq where
  ctx   : Nat
  words : List Word
  dev   : Bool
  uid   : Nat
  reg   : BitVec 5
  core  : Nat
  addr  : Nat
  pc    : Nat
  held  : Bool
  deriving DecidableEq, Repr

/-- The commands that reach the handle table (R262-R271, R155). -/
inductive HandleOp where
  | alloc | free | widen | pin | unpin
  | stageA | stageB | stageNc | stageNr
  | info | own | sync
  | rowsum | colsum | scale | addh | mulh | axpy | fill | fillImg | transpose | copyin | copyout
  | grows | srows
  | elemRead | elemWrite
  deriving DecidableEq, Repr

/-- A command on its way to the handle table: its operands A and B, the result register, an element's index and data. -/
structure HandleCmd where
  op    : HandleOp
  uid   : Nat
  ctx   : Nat
  core  : Nat
  reg   : BitVec 5
  a     : Word
  b     : Word
  index : Nat
  size  : Nat
  data  : Word
  pc    : Nat
  held  : Bool
  /-- Launch sequence number and TID of its issuer, for the records of its faults (R394). -/
  seq   : Nat
  tid   : Nat
  deriving DecidableEq, Repr

/-- What a check of a line finds, or of the SRAM that holds a thread's registers, its stockpile entry or its engine state (R422). -/
inductive ScrubOutcome where
  | clean | corrected | uncorrectable
  /-- No check: a line's HBM copy takes an uncorrectable error that its next reader will meet (R422, R444). DEDUCED: log 129. -/
  | latent
  /-- An uncorrectable error in what is held of a thread. -/
  | thread (uid : Nat)
  deriving DecidableEq, Repr

/-- The source of a row activation (R386). -/
inductive ActSource where
  | controller | settCore | sequencer
  deriving DecidableEq, Repr

/-- A device step that is pending. -/
inductive Event where
  /-- HOST_LAUNCH_WRITE (R345). A 64-byte host write to a launch window pushes one record. -/
  | hostLaunchWrite (page off : Nat) (words : List Word)
  /-- LAUNCH_ADMISSION (R345). The Bed reads, checks and admits or refuses a launch record. -/
  | launchAdmission (req : LaunchReq)
  /-- THREAD_PLACEMENT (R348). The dispatcher places a thread of the chosen record on a fitting core. -/
  | threadPlacement
  /-- LOCAL_CONTEXT_EXCHANGE (R308). A core saves and loads local memory and engine state for a new context. -/
  | localContextExchange (core ctx : Nat)
  /-- ENGINE_CONTEXT_EXCHANGE (R299). A command of another context swaps the engine state after the old commands complete. -/
  | engineContextExchange (core ctx : Nat)
  /-- LAUNCH_AGEING (R350). Each 10 ms of eligible waiting raises a launch's priority by one. -/
  | launchAgeing (key : Nat)
  /-- DISPATCH_PREEMPTION (R351). A record with no fitting core pre-empts a thread 8 levels lower. -/
  | dispatchPreemption
  /-- THREAD_PREEMPTION (R396). A thread is taken from its slot at its next turn and saved to the stockpile. -/
  | threadPreemption (uid : Nat)
  /-- SLOT_FILL (R353). A freed general slot is filled from the stockpile or the dispatcher. -/
  | slotFill (core : Nat)
  /-- LOAD_BALANCE (R354). Every 1,024 cycles a busy core moves one ready thread to the idlest core. -/
  | loadBalance (core : Nat)
  /-- SPAWN_PACKET_ACCEPT (R36). The target cluster accepts a spawn packet and the child is placed or stockpiled. -/
  | spawnPacketAccept (p : SpawnPacket)
  /-- MIGRATION_DEPARTURE (R45). After pending results fill, the thread leaves as one packet. -/
  | migrationDeparture (uid owner : Nat) (mask : BitVec 28)
  /-- MIGRATION_ARRIVAL (R45). A migration packet arrives at the owner and waits for a slot. -/
  | migrationArrival (uid owner : Nat)
  /-- REPLY_ARRIVAL (R32). A load, atomic, RFILL, handle or other reply fills its register and returns the thread. -/
  | replyArrival (uid : Nat) (reg : BitVec 5) (value : Word)
  /-- PORT_WORD_DELIVERY (R356). A pushed word enters the target upstream queue; `entry` is the queue plus 32 times the side that the word
  comes from. -/
  | portWordDelivery (core entry : Nat) (value : Word) (ctl : Bool)
  /-- MESSAGE_ARRIVAL (R41). A message is queued at the receiving core. -/
  | messageArrival (core : Nat) (msg : Message)
  /-- MESSAGE_HANDLER_START (R41). The empty handler slot starts the oldest pending message. -/
  | messageHandlerStart (core : Nat)
  /-- LIGHT_HANDLER_START (R357). The empty handler slot starts a pending light handler. -/
  | lightHandlerStart (core : Nat)
  /-- CHUNK_COMMIT (R327). A chunk is checked at the arbiters and commits or is squashed. -/
  | chunkCommit (uid : Nat)
  /-- WAITA_TIMEOUT (R167). A timed WAITA's limit passes and it writes 0. -/
  | waitaTimeout (uid stamp : Nat)
  /-- IDLE_TIMEOUT (R289). An IDLE.t limit passes. -/
  | idleTimeout (uid stamp : Nat)
  /-- BARRIER_RELEASE (R40). A member is released at its staggered time after the round completes. -/
  | barrierRelease (uid stamp : Nat)
  /-- FULL_EMPTY_HOME_ACCESS (R160). A synchronising access is served at the word's home, waking waiters in order. -/
  | fullEmptyHomeAccess (acc : Access)
  /-- REMOTE_ACCESS_ARRIVAL (R305). A remote-window access is served at the target core. -/
  | remoteAccessArrival (acc : Access)
  /-- ATOMIC_APPLY (R163). An atomic is applied at the word's home. -/
  | atomicApply (acc : Access)
  /-- RFILL_DELIVERY (R162). An RFILL reaches its target register and returns a status. -/
  | rfillDelivery (uid : Nat) (reg : BitVec 5) (target value : Word)
  /-- POSTED_STORE_APPLY (R165). The destination applies a posted store. -/
  | postedStoreApply (core entry : Nat)
  /-- POSTED_STORE_ACK (R165). The acknowledgement frees the journal entry. -/
  | postedStoreAck (core entry : Nat)
  /-- POSTED_STORE_REFUSAL (R166). A refused posted store frees its entry and raises the posted-store trap. -/
  | postedStoreRefusal (core entry : Nat)
  /-- FAULT_QUEUE_RESOLUTION (R316). The BCP or host resolves a fault-queue entry and wakes or faults its waiters. -/
  | faultQueueResolution (ctx page : Nat) (ok : Bool)
  /-- FENCE_COMPLETION (R168). A FENCE completes when its drain ends. -/
  | fenceCompletion (uid scope : Nat)
  /-- XFENCE_COMPLETION (R169). XFENCE completes once write-back and near-memory drain and invalidation are done. -/
  | xfenceCompletion (uid ctx base len stamp : Nat)
  /-- ENGINE_COMMAND_START (R184). A queued engine command begins executing after the one before. -/
  | engineCommandStart (core : Nat) (eng : Engine)
  /-- VECTOR_COMMAND_COMPLETION (R197). A vector command completes and a store commits as one event. -/
  | vectorCommandCompletion (core : Nat)
  /-- MATRIX_COMMAND_COMPLETION (R213). A matrix command completes and the thread returns. -/
  | matrixCommandCompletion (core : Nat)
  /-- MRING_STEP_START (R222). A ring step starts once its tile and outgoing buffer conditions hold. -/
  | mringStepStart (core : Nat)
  /-- TILE_DELIVERY (R223). An outgoing tile is delivered to the downstream core or discarded. -/
  | tileDelivery (core : Nat)
  /-- COPY_COMMAND_COMPLETION (R258). A copy command completes, sets ce.done and writes its completion word. -/
  | copyCommandCompletion (core : Nat)
  /-- HANDLE_COMMAND_ADMISSION (R262). The handle table checks a command and admits it into handle order. -/
  | handleCommandAdmission (cmd : HandleCmd)
  /-- HANDLE_OPERATION_COMPLETION (R335). A handle operation takes effect in handle order and commits its destination. -/
  | handleOperationCompletion (ctx hnum : Nat)
  /-- DRESSER_REDRESS (R368). The Dresser starts a pressure or usage re-dress by itself. -/
  | dresserRedress (ctx hnum : Nat)
  /-- REDRESS_START (R335). A queued re-dress starts when all operations before it complete. -/
  | redressStart (ctx hnum : Nat)
  /-- REDRESS_COMPLETE (R364). A re-dress completes and the generation rises by one. -/
  | redressComplete (ctx hnum : Nat)
  /-- TLOAD_BUILD_COMPLETE (R290). The encode order is built and waiting conversions proceed. -/
  | tloadBuildComplete (core table : Nat)
  /-- NM_PROGRAM_START (R274). A sett core starts an admitted command's program after those before it. -/
  | nmProgramStart (sett : Nat)
  /-- NM_PROGRAM_STOP (R275). A near-memory program stops and the Bed writes its status record. -/
  | nmProgramStop (sett state : Nat) (info : Word)
  /-- NMROW_STOP (R276). A row-sequencer command ends, invalidates destinations and writes status. -/
  | nmrowStop (sett : Nat)
  /-- WATCHDOG_EXPIRY (R390). The no-progress count reaches WDOG and waits are ended. -/
  | watchdogExpiry (ctx : Nat)
  /-- CONTEXT_START (R411). A host write of 1 to CMD starts a context. -/
  | contextStart (page : Nat)
  /-- CONTEXT_STOP_DISPATCH (R411). A host write of 2 to CMD stops dispatch. -/
  | contextStopDispatch (page : Nat)
  /-- CONTEXT_END (R412). A host write of 3 to CMD ends the context. -/
  | contextEnd (page : Nat)
  /-- HOST_WDOG_WRITE (R411). A host write of WDOG clamps the period and resets the count. -/
  | hostWdogWrite (page : Nat) (value : Word)
  /-- HOST_ERR_CLEAR (R411). A host write of 1 to STATE.ERR clears it. -/
  | hostErrClear (page : Nat)
  /-- HOST_MESSAGE_PUSH (R416). A 64-byte write to MSGW pushes a host message. -/
  | hostMessagePush (page off : Nat) (words : List Word)
  /-- HOST_REGISTER_WRITE (R411). A host write to a device or context register without a row of its own. -/
  | hostRegisterWrite (off : Nat) (value : Word)
  /-- TRANSLATION_INVALIDATION (R414). A write of 1 to TGO removes translations of a range and squashes users. -/
  | translationInvalidation (page : Nat)
  /-- TRANSLATION_INVALIDATION_COMPLETE (R414). Translated accesses drain and TGO returns to 0. -/
  | translationInvalidationComplete (page : Nat)
  /-- DEBUG_HALT (R285). A write to HALT halts one or all threads of the context. -/
  | debugHalt (page : Nat) (value : Word)
  /-- DEBUG_VIEW (R287). The view is written when commands complete or 10 µs pass. -/
  | debugView (page uid : Nat)
  /-- DEBUG_RESUME (R288). A write to RESUME resumes a halted thread. -/
  | debugResume (page : Nat) (value : Word)
  /-- DEBUG_DETACH (R415). Clearing DBG resumes every halted thread. -/
  | debugDetach (page : Nat)
  /-- FACE_FENCE (R400). A host write to FENCE fences Faces and discards their working state. -/
  | faceFence (mask : BitVec 8)
  /-- FACE_FAILURE (R400). The BCP detects an uncorrectable Face failure and fences it. -/
  | faceFailure (face : Nat)
  /-- FACE_RESET (R417). A write to FRESET returns fenced Faces at reset state. -/
  | faceReset (mask : BitVec 8)
  /-- FREEZE_REQUEST (R404). A write of 1 to FZCTL starts a freeze of the device to host memory. -/
  | freezeRequest
  /-- FREEZE_FACE_TIMEOUT (R405). A Face not stopped within 1 ms is fenced and the freeze goes on. -/
  | freezeFaceTimeout (face : Nat)
  /-- FREEZE_COMPLETE (R418). Every image is sealed and FZCTL reads 2. -/
  | freezeComplete
  /-- FREEZE_RESUME (R407). A write of 4 to FZCTL restores the device and context images. -/
  | freezeResume (bad : List Nat)
  /-- ATTESTATION_REQUEST (R420). The host starts an attestation report with a nonce. -/
  | attestationRequest
  /-- HOST_CXL_WRITE (R409). A host write through CXL.mem commits at its line's LLC slice. -/
  | hostCxlWrite (off : Nat) (bytes : List Byte)
  /-- HOST_CXL_READ (R409). A host read through CXL.mem, with poison reported as CXL poison. -/
  | hostCxlRead (off n : Nat)
  /-- REMOTE_DEVICE_ACCESS (R419). An access from another device arrives over Helven and is served under isolation. -/
  | remoteDeviceAccess (dev rctx : Nat) (acc : Access)
  /-- HELVEN_LINK_LOSS (R26). A link is lost and traffic reroutes. -/
  | helvenLinkLoss (link : Nat)
  /-- LINK_LOSS_TIMEOUT (R419). After 10 ms with every link to a device lost, accesses to it fault. -/
  | linkLossTimeout (dev : Nat)
  /-- STACK_LOSS (R26). An uncorrectable base-die failure loses a stack. -/
  | stackLoss (stack : Nat)
  /-- HOST_PORT_LOSS (R26). A host port is lost with its traffic in flight. -/
  | hostPortLoss (port : Nat)
  /-- THERMAL_TRIP (R423). A junction, coolant or supply trip stops the clocks and resets the module. -/
  | thermalTrip (cause : BitVec 4) (face : BitVec 3)
  /-- MODULE_RESET (R424). The module leaves reset and runs bring-up. -/
  | moduleReset
  /-- THROTTLE_INTERVAL (R423). Each 1 ms interval of limiting advances THROT. -/
  | throttleInterval (limits : Bool)
  /-- ACTIVE_BANK_LIMIT_CHANGE (R21). Thermal control changes the permitted-active-banks limit. -/
  | activeBankLimitChange (stack limit : Nat)
  /-- AGEING_UPDATE (R391). Every 10 minutes the BCP updates the ageing records. -/
  | ageingUpdate (records : List Word)
  /-- SCRUB_READ (R422). The scrubber reads a line and corrects or poisons it. -/
  | scrubRead (line : Nat) (outcome : ScrubOutcome)
  /-- ROW_DISTURBANCE_ALERT (R386). A row's activation count reaches the threshold and its neighbours are refreshed. -/
  | rowDisturbanceAlert (sett row : Nat) (source : ActSource)
  /-- REFRESH_WINDOW_END (R386). The 32 ms refresh window over which activations are counted ends. -/
  | refreshWindowEnd (stack : Nat)
  /-- CORE_CYCLE (R359). Each core cycle the core applies arrivals, makes the issue choice, and advances CYC and, when no slot is ready, NOREADY. -/
  | coreCycle (core : Nat)
  /-- OVERLAY_LOAD_COMPLETE (R273). An overlay finishes loading into a sett core, returning the NMLOAD thread or the waiting migrated thread. -/
  | overlayLoadComplete (sett base : Nat)
  /-- DEBUGGER_REGISTER_WRITE (R296). A debugger writes a register or the PC of a halted thread. -/
  | debuggerRegisterWrite (page uid : Nat) (reg : BitVec 6) (value : Word)
  /-- BED_LOSS (R26). Loss of the Bed stops the device, and contexts resume only from a verified freeze image. -/
  | bedLoss
  deriving DecidableEq, Repr

end Sys2Proof
end

