-- ==== Sys2Proof/Syntax.lean ====
section
/-!
DEFINITION. The instructions of the Loroon 5 and the device's own steps, one constructor for each row of the opcode table.
An instruction's fields are those of its format (R101); a device step carries what it acts on.
-/
namespace Sys2Proof

/-- The rows of the opcode table: 300 instructions, then 88 device steps. -/
inductive Instr where
  /-- ADD (R130). Adds two registers modulo 2^64. -/
  | add (d a : BitVec 5) (b : Src) (g : BitVec 5)
  /-- SUB (R130). Subtracts B from A modulo 2^64. -/
  | sub (d a : BitVec 5) (b : Src) (g : BitVec 5)
  /-- MUL (R130). Writes the low 64 bits of the product. -/
  | mul (d a : BitVec 5) (b : Src) (g : BitVec 5)
  /-- MULH_S (R130). Writes the high 64 bits of the signed 128-bit product. -/
  | mulhS (d a : BitVec 5) (b : Src) (g : BitVec 5)
  /-- MULH_N (R130). Writes the high 64 bits of the unsigned 128-bit product. -/
  | mulhN (d a : BitVec 5) (b : Src) (g : BitVec 5)
  /-- DIV_S (R130). Divides signed values, truncating toward zero, with the R89 edge cases. -/
  | divS (d a : BitVec 5) (b : Src) (g : BitVec 5)
  /-- DIV_N (R130). Divides unsigned values; division by zero gives all ones. -/
  | divN (d a : BitVec 5) (b : Src) (g : BitVec 5)
  /-- REM_S (R130). Writes the signed remainder; by zero it gives the dividend. -/
  | remS (d a : BitVec 5) (b : Src) (g : BitVec 5)
  /-- REM_N (R130). Writes the unsigned remainder; by zero it gives the dividend. -/
  | remN (d a : BitVec 5) (b : Src) (g : BitVec 5)
  /-- MIN_S (R130). Writes the signed minimum. -/
  | minS (d a : BitVec 5) (b : Src) (g : BitVec 5)
  /-- MIN_N (R130). Writes the unsigned minimum. -/
  | minN (d a : BitVec 5) (b : Src) (g : BitVec 5)
  /-- MAX_S (R130). Writes the signed maximum. -/
  | maxS (d a : BitVec 5) (b : Src) (g : BitVec 5)
  /-- MAX_N (R130). Writes the unsigned maximum. -/
  | maxN (d a : BitVec 5) (b : Src) (g : BitVec 5)
  /-- AND (R130). Writes the bitwise AND. -/
  | and (d a : BitVec 5) (b : Src) (g : BitVec 5)
  /-- OR (R130). Writes the bitwise OR. -/
  | or (d a : BitVec 5) (b : Src) (g : BitVec 5)
  /-- XOR (R130). Writes the bitwise exclusive OR. -/
  | xor (d a : BitVec 5) (b : Src) (g : BitVec 5)
  /-- ANDN (R130). Writes A AND NOT B. -/
  | andn (d a : BitVec 5) (b : Src) (g : BitVec 5)
  /-- SHL (R130). Shifts left by the low 6 bits of B. -/
  | shl (d a : BitVec 5) (b : Src) (g : BitVec 5)
  /-- SHR (R130). Shifts right logically by the low 6 bits of B. -/
  | shr (d a : BitVec 5) (b : Src) (g : BitVec 5)
  /-- SAR (R130). Shifts right arithmetically by the low 6 bits of B. -/
  | sar (d a : BitVec 5) (b : Src) (g : BitVec 5)
  /-- ROL (R130). Rotates left by B mod 64. -/
  | rol (d a : BitVec 5) (b : Src) (g : BitVec 5)
  /-- ADD_IMM (R131). Adds a sign-extended 10-bit immediate. -/
  | addImm (d a : BitVec 5) (i : BitVec 10) (g : BitVec 5)
  /-- AND_IMM (R131). ANDs with a sign-extended immediate. -/
  | andImm (d a : BitVec 5) (i : BitVec 10) (g : BitVec 5)
  /-- OR_IMM (R131). ORs with a sign-extended immediate. -/
  | orImm (d a : BitVec 5) (i : BitVec 10) (g : BitVec 5)
  /-- XOR_IMM (R131). Exclusive-ORs with a sign-extended immediate. -/
  | xorImm (d a : BitVec 5) (i : BitVec 10) (g : BitVec 5)
  /-- SHL_IMM (R131). Shifts left by an immediate amount. -/
  | shlImm (d a : BitVec 5) (i : BitVec 10) (g : BitVec 5)
  /-- SHR_IMM (R131). Shifts right logically by an immediate amount. -/
  | shrImm (d a : BitVec 5) (i : BitVec 10) (g : BitVec 5)
  /-- SAR_IMM (R131). Shifts right arithmetically by an immediate amount. -/
  | sarImm (d a : BitVec 5) (i : BitVec 10) (g : BitVec 5)
  /-- ROL_IMM (R131). Rotates left by an immediate amount. -/
  | rolImm (d a : BitVec 5) (i : BitVec 10) (g : BitVec 5)
  /-- MUL_IMM (R131). Multiplies by a sign-extended immediate. -/
  | mulImm (d a : BitVec 5) (i : BitVec 10) (g : BitVec 5)
  /-- MOV_IMM (R132). Sets D to a sign-extended immediate. -/
  | movImm (d : BitVec 5) (i : BitVec 10) (g : BitVec 5)
  /-- MOV (R133). Copies source B to D. -/
  | mov (d : BitVec 5) (b : Src) (g : BitVec 5)
  /-- NEG (R133). Writes 0 minus B. -/
  | neg (d : BitVec 5) (b : Src) (g : BitVec 5)
  /-- ABS (R133). Writes the absolute value of B. -/
  | abs (d : BitVec 5) (b : Src) (g : BitVec 5)
  /-- CLZ (R133). Counts leading zero bits. -/
  | clz (d : BitVec 5) (b : Src) (g : BitVec 5)
  /-- CTZ (R133). Counts trailing zero bits. -/
  | ctz (d : BitVec 5) (b : Src) (g : BitVec 5)
  /-- POPC (R133). Counts set bits. -/
  | popc (d : BitVec 5) (b : Src) (g : BitVec 5)
  /-- BREV (R133). Reverses the bit order of B. -/
  | brev (d : BitVec 5) (b : Src) (g : BitVec 5)
  /-- MOV_CTL (R133). Pushes B to a downstream port with the control bit set. -/
  | movCtl (d : BitVec 1) (b : Src) (g : BitVec 5)
  /-- EXT (R134). Extracts a bit field, zero-extended. -/
  | ext (d a : BitVec 5) (b : Src) (g : BitVec 5)
  /-- EXT_S (R134). Extracts a bit field, sign-extended. -/
  | extS (d a : BitVec 5) (b : Src) (g : BitVec 5)
  /-- INS (R134). Inserts the low bits of A into a field of D. -/
  | ins (d a : BitVec 5) (b : Src) (g : BitVec 5)
  /-- SEL (R135). Selects A or B by a predicate named in FN. -/
  | sel (d a : BitVec 5) (b : Src) (k : BitVec 4) (n : BitVec 1) (g : BitVec 5)
  /-- CMP_EQ (R136). Sets a predicate when A equals B. -/
  | cmpEq (d : BitVec 4) (a : BitVec 5) (b : Src) (g : BitVec 5)
  /-- CMP_NE (R136). Sets a predicate when A differs from B. -/
  | cmpNe (d : BitVec 4) (a : BitVec 5) (b : Src) (g : BitVec 5)
  /-- CMP_LT (R136). Sets a predicate on signed less-than. -/
  | cmpLt (d : BitVec 4) (a : BitVec 5) (b : Src) (g : BitVec 5)
  /-- CMP_GE (R136). Sets a predicate on signed greater-or-equal. -/
  | cmpGe (d : BitVec 4) (a : BitVec 5) (b : Src) (g : BitVec 5)
  /-- CMP_LE (R136). Sets a predicate on signed less-or-equal. -/
  | cmpLe (d : BitVec 4) (a : BitVec 5) (b : Src) (g : BitVec 5)
  /-- CMP_GT (R136). Sets a predicate on signed greater-than. -/
  | cmpGt (d : BitVec 4) (a : BitVec 5) (b : Src) (g : BitVec 5)
  /-- CMP_LO (R136). Sets a predicate on unsigned lower. -/
  | cmpLo (d : BitVec 4) (a : BitVec 5) (b : Src) (g : BitVec 5)
  /-- CMP_HS (R136). Sets a predicate on unsigned higher-or-same. -/
  | cmpHs (d : BitVec 4) (a : BitVec 5) (b : Src) (g : BitVec 5)
  /-- CMP_LS (R136). Sets a predicate on unsigned lower-or-same. -/
  | cmpLs (d : BitVec 4) (a : BitVec 5) (b : Src) (g : BitVec 5)
  /-- CMP_HI (R136). Sets a predicate on unsigned higher. -/
  | cmpHi (d : BitVec 4) (a : BitVec 5) (b : Src) (g : BitVec 5)
  /-- CMP_EQ_IMM (R136). Compares A with an immediate for equality. -/
  | cmpEqImm (d : BitVec 4) (a : BitVec 5) (i : BitVec 10) (g : BitVec 5)
  /-- CMP_NE_IMM (R136). Compares A with an immediate for inequality. -/
  | cmpNeImm (d : BitVec 4) (a : BitVec 5) (i : BitVec 10) (g : BitVec 5)
  /-- CMP_LT_IMM (R136). Signed less-than against an immediate. -/
  | cmpLtImm (d : BitVec 4) (a : BitVec 5) (i : BitVec 10) (g : BitVec 5)
  /-- CMP_GE_IMM (R136). Signed greater-or-equal against an immediate. -/
  | cmpGeImm (d : BitVec 4) (a : BitVec 5) (i : BitVec 10) (g : BitVec 5)
  /-- CMP_LE_IMM (R136). Signed less-or-equal against an immediate. -/
  | cmpLeImm (d : BitVec 4) (a : BitVec 5) (i : BitVec 10) (g : BitVec 5)
  /-- CMP_GT_IMM (R136). Signed greater-than against an immediate. -/
  | cmpGtImm (d : BitVec 4) (a : BitVec 5) (i : BitVec 10) (g : BitVec 5)
  /-- CMP_LO_IMM (R136). Unsigned lower against an immediate. -/
  | cmpLoImm (d : BitVec 4) (a : BitVec 5) (i : BitVec 10) (g : BitVec 5)
  /-- CMP_HS_IMM (R136). Unsigned higher-or-same against an immediate. -/
  | cmpHsImm (d : BitVec 4) (a : BitVec 5) (i : BitVec 10) (g : BitVec 5)
  /-- CONST (R137). Reads word c of the constant window. -/
  | const (d : BitVec 5) (c : BitVec 8) (g : BitVec 5)
  /-- ADDA (R138). Steps a pointer or handle reference forward by a register offset. -/
  | adda (d a : BitVec 5) (b : Src) (g : BitVec 5)
  /-- SUBA (R138). Steps a pointer or handle reference backward by a register offset. -/
  | suba (d a : BitVec 5) (b : Src) (g : BitVec 5)
  /-- ADDA_IMM (R138). Steps a pointer forward by an immediate. -/
  | addaImm (d a : BitVec 5) (i : BitVec 10) (g : BitVec 5)
  /-- SUBA_IMM (R138). Steps a pointer backward by an immediate. -/
  | subaImm (d a : BitVec 5) (i : BitVec 10) (g : BitVec 5)
  /-- PTAG (R139). Builds a pointer with a format code and block length. -/
  | ptag (d a : BitVec 5) (b : Src) (g : BitVec 5)
  /-- PFMT (R139). Reads a pointer's tag fields. -/
  | pfmt (d a g : BitVec 5)
  /-- HREF (R140). Builds a handle reference from a handle number and an index. -/
  | href (d a : BitVec 5) (b : Src) (g : BitVec 5)
  /-- LWIN (R141). Builds a remote-window address of a core's local memory. -/
  | lwin (d a : BitVec 5) (b : Src) (g : BitVec 5)
  /-- LWIN_OWN (R141). Builds an own-local window address. -/
  | lwinOwn (d : BitVec 5) (b : Src) (g : BitVec 5)
  /-- FADD (R145). Adds two F32 values with one rounding. -/
  | fadd (d a : BitVec 5) (b : Src) (g : BitVec 5)
  /-- FSUB (R145). Subtracts two F32 values. -/
  | fsub (d a : BitVec 5) (b : Src) (g : BitVec 5)
  /-- FMUL (R145). Multiplies two F32 values. -/
  | fmul (d a : BitVec 5) (b : Src) (g : BitVec 5)
  /-- FMIN (R145). Writes the smaller F32 operand. -/
  | fmin (d a : BitVec 5) (b : Src) (g : BitVec 5)
  /-- FMAX (R145). Writes the larger F32 operand. -/
  | fmax (d a : BitVec 5) (b : Src) (g : BitVec 5)
  /-- FFMA (R146). Fused multiply-add A times B plus D with one rounding. -/
  | ffma (d a : BitVec 5) (b : Src) (g : BitVec 5)
  /-- FCMP_EQ (R147). Sets a predicate when F32 operands are ordered and equal. -/
  | fcmpEq (d : BitVec 4) (a : BitVec 5) (b : Src) (g : BitVec 5)
  /-- FCMP_NE (R147). Sets a predicate when unordered or unequal. -/
  | fcmpNe (d : BitVec 4) (a : BitVec 5) (b : Src) (g : BitVec 5)
  /-- FCMP_LT (R147). Sets a predicate when ordered and less. -/
  | fcmpLt (d : BitVec 4) (a : BitVec 5) (b : Src) (g : BitVec 5)
  /-- FCMP_LE (R147). Sets a predicate when ordered and less or equal. -/
  | fcmpLe (d : BitVec 4) (a : BitVec 5) (b : Src) (g : BitVec 5)
  /-- FCMP_GT (R147). Sets a predicate when ordered and greater. -/
  | fcmpGt (d : BitVec 4) (a : BitVec 5) (b : Src) (g : BitVec 5)
  /-- FCMP_GE (R147). Sets a predicate when ordered and greater or equal. -/
  | fcmpGe (d : BitVec 4) (a : BitVec 5) (b : Src) (g : BitVec 5)
  /-- FCMP_UN (R147). Sets a predicate when unordered. -/
  | fcmpUn (d : BitVec 4) (a : BitVec 5) (b : Src) (g : BitVec 5)
  /-- FCMP_OR (R147). Sets a predicate when ordered. -/
  | fcmpOr (d : BitVec 4) (a : BitVec 5) (b : Src) (g : BitVec 5)
  /-- FCVT_F2I (R148). Converts F32 to signed 64-bit integer in a given rounding mode. -/
  | fcvtF2i (d : BitVec 5) (b : Src) (m : BitVec 2) (g : BitVec 5)
  /-- FCVT_F2N (R148). Converts F32 to unsigned 64-bit integer in a given rounding mode. -/
  | fcvtF2n (d : BitVec 5) (b : Src) (m : BitVec 2) (g : BitVec 5)
  /-- FCVT_FINT (R148). Rounds F32 to an integral F32 value. -/
  | fcvtFint (d : BitVec 5) (b : Src) (m : BitVec 2) (g : BitVec 5)
  /-- FCVT_I2F (R148). Converts a signed integer to F32. -/
  | fcvtI2f (d : BitVec 5) (b : Src) (g : BitVec 5)
  /-- FCVT_N2F (R148). Converts an unsigned integer to F32. -/
  | fcvtN2f (d : BitVec 5) (b : Src) (g : BitVec 5)
  /-- FCVT_F2H (R148). Converts F32 to F16. -/
  | fcvtF2h (d : BitVec 5) (b : Src) (g : BitVec 5)
  /-- FCVT_H2F (R148). Converts F16 to F32 exactly. -/
  | fcvtH2f (d : BitVec 5) (b : Src) (g : BitVec 5)
  /-- FCVT_F2B (R148). Converts F32 to BF16. -/
  | fcvtF2b (d : BitVec 5) (b : Src) (g : BitVec 5)
  /-- FCVT_B2F (R148). Converts BF16 to F32 exactly. -/
  | fcvtB2f (d : BitVec 5) (b : Src) (g : BitVec 5)
  /-- FCVT_F2W (R148). Converts F32 to W19. -/
  | fcvtF2w (d : BitVec 5) (b : Src) (g : BitVec 5)
  /-- FCVT_W2F (R148). Converts W19 to F32 exactly. -/
  | fcvtW2f (d : BitVec 5) (b : Src) (g : BitVec 5)
  /-- PAND (R142). ANDs two predicates. -/
  | pand (d a b : BitVec 4) (g : BitVec 5)
  /-- POR (R142). ORs two predicates. -/
  | por (d a b : BitVec 4) (g : BitVec 5)
  /-- PXOR (R142). Exclusive-ORs two predicates. -/
  | pxor (d a b : BitVec 4) (g : BitVec 5)
  /-- PNOT (R142). Negates a predicate. -/
  | pnot (d a : BitVec 4) (g : BitVec 5)
  /-- PMOV (R142). Copies a predicate. -/
  | pmov (d a : BitVec 4) (g : BitVec 5)
  /-- BR (R144). Branches by a signed word offset when the guard holds. -/
  | br (o : BitVec 20) (g : BitVec 5)
  /-- CALL (R144). Branches by an offset and writes the return address to g1. -/
  | call (o : BitVec 20) (g : BitVec 5)
  /-- JMP (R144). Transfers control to the address in B. -/
  | jmp (b : Src) (g : BitVec 5)
  /-- CALLR (R144). Transfers to the address in B and writes the link to D. -/
  | callr (d : BitVec 5) (b : Src) (g : BitVec 5)
  /-- LOOP (R144). Decrements D and branches while it is nonzero. -/
  | loop (d : BitVec 5) (i : BitVec 10) (g : BitVec 5)
  /-- LD_B (R153). Loads one byte, converting under the pointer's format. -/
  | ldB (d a : BitVec 5) (i : BitVec 10) (g : BitVec 5)
  /-- LD_H (R153). Loads two bytes, converting under the pointer's format. -/
  | ldH (d a : BitVec 5) (i : BitVec 10) (g : BitVec 5)
  /-- LD_W (R153). Loads four bytes. -/
  | ldW (d a : BitVec 5) (i : BitVec 10) (g : BitVec 5)
  /-- LD_D (R153). Loads eight bytes. -/
  | ldD (d a : BitVec 5) (i : BitVec 10) (g : BitVec 5)
  /-- ST_B (R153). Stores one byte into the chunk, converting under the format. -/
  | stB (d a : BitVec 5) (i : BitVec 10) (g : BitVec 5)
  /-- ST_H (R153). Stores two bytes. -/
  | stH (d a : BitVec 5) (i : BitVec 10) (g : BitVec 5)
  /-- ST_W (R153). Stores four bytes. -/
  | stW (d a : BitVec 5) (i : BitVec 10) (g : BitVec 5)
  /-- ST_D (R153). Stores eight bytes. -/
  | stD (d a : BitVec 5) (i : BitVec 10) (g : BitVec 5)
  /-- LD_B_MIG (R156). Loads a byte at the address's owner, migrating the thread there. -/
  | ldBMig (d a : BitVec 5) (i : BitVec 10) (g : BitVec 5)
  /-- LD_H_MIG (R156). Migrating two-byte load. -/
  | ldHMig (d a : BitVec 5) (i : BitVec 10) (g : BitVec 5)
  /-- LD_W_MIG (R156). Migrating four-byte load. -/
  | ldWMig (d a : BitVec 5) (i : BitVec 10) (g : BitVec 5)
  /-- LD_D_MIG (R156). Migrating eight-byte load. -/
  | ldDMig (d a : BitVec 5) (i : BitVec 10) (g : BitVec 5)
  /-- ST_B_MIG (R156). Migrating one-byte store. -/
  | stBMig (d a : BitVec 5) (i : BitVec 10) (g : BitVec 5)
  /-- ST_H_MIG (R156). Migrating two-byte store. -/
  | stHMig (d a : BitVec 5) (i : BitVec 10) (g : BitVec 5)
  /-- ST_W_MIG (R156). Migrating four-byte store. -/
  | stWMig (d a : BitVec 5) (i : BitVec 10) (g : BitVec 5)
  /-- ST_D_MIG (R156). Migrating eight-byte store. -/
  | stDMig (d a : BitVec 5) (i : BitVec 10) (g : BitVec 5)
  /-- PREF (R158). Asks the core cache to fetch a line, with no visible effect. -/
  | pref (a : BitVec 5) (i : BitVec 10) (g : BitVec 5)
  /-- LDE (R159). Waits while a word is empty, then reads it and sets it empty. -/
  | lde (d a : BitVec 5) (i : BitVec 10) (g : BitVec 5)
  /-- LDF (R159). Waits while a word is empty, then reads it and leaves it full. -/
  | ldf (d a : BitVec 5) (i : BitVec 10) (g : BitVec 5)
  /-- STF (R159). Writes a word and sets it full. -/
  | stf (d a : BitVec 5) (i : BitVec 10) (g : BitVec 5)
  /-- STS (R159). Waits while a word is full, then writes it and sets it full. -/
  | sts (d a : BitVec 5) (i : BitVec 10) (g : BitVec 5)
  /-- CLRE (R159). Sets a word empty and keeps its value. -/
  | clre (a : BitVec 5) (i : BitVec 10) (g : BitVec 5)
  /-- ARM (R161). Sets a register empty and armed. -/
  | arm (d g : BitVec 5)
  /-- RFILL (R162). Sends a value to an armed register of another thread and awaits a status. -/
  | rfill (d a : BitVec 5) (b : Src) (g : BitVec 5)
  /-- AADD (R163). Atomically adds to a word and returns the old value. -/
  | aadd (d a : BitVec 5) (b : Src) (g : BitVec 5)
  /-- AMIN_S (R163). Atomic signed minimum. -/
  | aminS (d a : BitVec 5) (b : Src) (g : BitVec 5)
  /-- AMIN_N (R163). Atomic unsigned minimum. -/
  | aminN (d a : BitVec 5) (b : Src) (g : BitVec 5)
  /-- AMAX_S (R163). Atomic signed maximum. -/
  | amaxS (d a : BitVec 5) (b : Src) (g : BitVec 5)
  /-- AMAX_N (R163). Atomic unsigned maximum. -/
  | amaxN (d a : BitVec 5) (b : Src) (g : BitVec 5)
  /-- AAND (R163). Atomic AND. -/
  | aand (d a : BitVec 5) (b : Src) (g : BitVec 5)
  /-- AOR (R163). Atomic OR. -/
  | aor (d a : BitVec 5) (b : Src) (g : BitVec 5)
  /-- AXOR (R163). Atomic exclusive OR. -/
  | axor (d a : BitVec 5) (b : Src) (g : BitVec 5)
  /-- ASWP (R163). Atomic swap. -/
  | aswp (d a : BitVec 5) (b : Src) (g : BitVec 5)
  /-- ACAS (R163). Atomic compare-and-swap against D. -/
  | acas (d a : BitVec 5) (b : Src) (g : BitVec 5)
  /-- AFADD (R163). Atomic F32 add, combinable and unordered. -/
  | afadd (d a : BitVec 5) (b : Src) (g : BitVec 5)
  /-- PST (R165). Posts a store through the journal and goes on. -/
  | pst (a : BitVec 5) (b : Src) (g : BitVec 5)
  /-- PST_F (R165). Posts a store that also sets the word full. -/
  | pstF (a : BitVec 5) (b : Src) (g : BitVec 5)
  /-- WAITA_EQ (R167). Waits until a committed word equals B. -/
  | waitaEq (a : BitVec 5) (b : Src) (g : BitVec 5)
  /-- WAITA_NE (R167). Waits until a committed word differs from B. -/
  | waitaNe (a : BitVec 5) (b : Src) (g : BitVec 5)
  /-- WAITA_HS (R167). Waits until a committed word is unsigned at or above B. -/
  | waitaHs (a : BitVec 5) (b : Src) (g : BitVec 5)
  /-- WAITA_EQ_T (R167). Timed wait for equality, writing whether it held. -/
  | waitaEqT (d a : BitVec 5) (b : Src) (g : BitVec 5)
  /-- WAITA_NE_T (R167). Timed wait for inequality. -/
  | waitaNeT (d a : BitVec 5) (b : Src) (g : BitVec 5)
  /-- WAITA_HS_T (R167). Timed wait for unsigned higher-or-same. -/
  | waitaHsT (d a : BitVec 5) (b : Src) (g : BitVec 5)
  /-- FENCE_CORE (R168). Waits until the thread's earlier chunks have committed. -/
  | fenceCore (g : BitVec 5)
  /-- FENCE_DEV (R168). Also waits for earlier posted stores and RFILLs within the device. -/
  | fenceDev (g : BitVec 5)
  /-- FENCE_SYS (R168). Also orders across devices and to the host under CXL. -/
  | fenceSys (g : BitVec 5)
  /-- XFENCE (R169). Orders ordinary and near-memory accesses to a global range. -/
  | xfence (a : BitVec 5) (b : Src) (g : BitVec 5)
  /-- CHEND (R168). Ends the current chunk at once. -/
  | chend (g : BitVec 5)
  /-- SPAWN (R170). Creates a thread on a named core with a copied register run. -/
  | spawn (d a : BitVec 5) (b : Src) (n g : BitVec 5)
  /-- QUIT (R171). Ends the chunk or publishes, and frees the slot. -/
  | quit (g : BitVec 5)
  /-- YIELD (R171). Swaps with a ready stockpile thread of equal or higher priority. -/
  | yield (g : BitVec 5)
  /-- HEND (R171). Ends a handler run and empties the handler slot. -/
  | hend (g : BitVec 5)
  /-- PUBL (R171). Publishes a sealed thread's footprint early. -/
  | publ (g : BitVec 5)
  /-- SDROP (R171). Discards a sealed thread's footprint and quits. -/
  | sdrop (g : BitVec 5)
  /-- JOIN (R172). Joins or creates a group set. -/
  | join (a : BitVec 5) (b : Src) (g : BitVec 5)
  /-- LEAVE (R172). Leaves a group set. -/
  | leave (a g : BitVec 5)
  /-- GBAR (R173). Arrives at a group barrier and waits for its release. -/
  | gbar (a g : BitVec 5)
  /-- MIGR (R174). Moves the thread to the owner of an address with a given live mask. -/
  | migr (a : BitVec 5) (b : Src) (g : BitVec 5)
  /-- SEND (R175). Sends a message of 1 to 8 words to a core. -/
  | send (d a n g : BitVec 5)
  /-- WATCH (R176). Registers a watchpoint descriptor at the homing slice. -/
  | watch (d a g : BitVec 5)
  /-- UNWATCH (R176). Removes a watchpoint. -/
  | unwatch (a g : BitVec 5)
  /-- LAUNCH (R178). Pushes a launch record to the Bed work queues and awaits its status. -/
  | launch (d a g : BitVec 5)
  /-- MZERO (R218). Clears an accumulator and its divisor. -/
  | mzero (x : BitVec 1) (g : BitVec 5)
  /-- MMA (R219). Multiplies A and B tiles into an accumulator. -/
  | mma (x : BitVec 1) (a b g : BitVec 5)
  /-- MRING (R222). Performs one ring step of a ring product. -/
  | mring (x : BitVec 1) (a g : BitVec 5)
  /-- MLDB (R220). Loads the current operand latch buffer with a B tile. -/
  | mldb (a g : BitVec 5)
  /-- MSTORE (R225). Converts and writes back accumulator entries. -/
  | mstore (x : BitVec 1) (a g : BitVec 5)
  /-- MACC_LD (R227). Loads an accumulator from A96 images. -/
  | maccLd (x : BitVec 1) (a g : BitVec 5)
  /-- MACC_ADD (R227). Adds A96 images into an accumulator. -/
  | maccAdd (x : BitVec 1) (a g : BitVec 5)
  /-- MCFG (R212). Writes a matrix-engine configuration register at once. -/
  | mcfg (r : BitVec 6) (a g : BitVec 5)
  /-- MGET (R212). Reads a matrix-engine configuration register. -/
  | mget (r : BitVec 6) (a g : BitVec 5)
  /-- SNORM_CLR (R237). Clears the norm state. -/
  | snormClr (g : BitVec 5)
  /-- SNORM_A (R237). Adds squared column magnitudes of an A tile to qa. -/
  | snormA (a b g : BitVec 5)
  /-- SNORM_B (R237). Adds squared row magnitudes of a B tile to qb. -/
  | snormB (a b g : BitVec 5)
  /-- SNGET_A (R238). Writes qa entries to memory. -/
  | sngetA (a g : BitVec 5)
  /-- SNGET_B (R238). Writes qb entries to memory. -/
  | sngetB (a g : BitVec 5)
  /-- SNPUT_A (R238). Reads qa entries from memory. -/
  | snputA (a g : BitVec 5)
  /-- SNPUT_B (R238). Reads qb entries from memory. -/
  | snputB (a g : BitVec 5)
  /-- SALIAS (R239). Builds and installs an alias table from the norm state. -/
  | salias (g : BitVec 5)
  /-- SSEED (R240). Sets the sampling seed and clears the counter and status. -/
  | sseed (a g : BitVec 5)
  /-- SRUN (R241). Runs a sampled contraction until variance or SMAX stops it. -/
  | srun (x : BitVec 1) (a b g : BitVec 5)
  /-- SVAR (R242). Computes the variance check for an accumulator. -/
  | svar (x : BitVec 1) (a g : BitVec 5)
  /-- PLOAD (R243). Loads the low-rank predictor factors. -/
  | pload (a b g : BitVec 5)
  /-- PSCORE (R244). Scores every neuron for an input. -/
  | pscore (a g : BitVec 5)
  /-- PSEL (R245). Classifies neurons and writes the selection mask and doubtful list. -/
  | psel (a g : BitVec 5)
  /-- ASSAY (R247). Checks doubtful neurons until the output is within the bound. -/
  | assay (x : BitVec 1) (a b g : BitVec 5)
  /-- AREAD (R246). Reads one doubtful-list entry. -/
  | aread (a b g : BitVec 5)
  /-- VADD (R199). Adds F32 lanes. -/
  | vadd (d a b : BitVec 4) (m : BitVec 2) (g : BitVec 5)
  /-- VSUB (R199). Subtracts F32 lanes. -/
  | vsub (d a b : BitVec 4) (m : BitVec 2) (g : BitVec 5)
  /-- VMUL (R199). Multiplies F32 lanes. -/
  | vmul (d a b : BitVec 4) (m : BitVec 2) (g : BitVec 5)
  /-- VFMA (R199). Fused multiply-add into the destination lanes. -/
  | vfma (d a b : BitVec 4) (m : BitVec 2) (g : BitVec 5)
  /-- VMIN (R199). Lane-wise F32 minimum. -/
  | vmin (d a b : BitVec 4) (m : BitVec 2) (g : BitVec 5)
  /-- VMAX (R199). Lane-wise F32 maximum. -/
  | vmax (d a b : BitVec 4) (m : BitVec 2) (g : BitVec 5)
  /-- VABS (R200). Clears each lane's sign bit. -/
  | vabs (d a : BitVec 4) (m : BitVec 2) (g : BitVec 5)
  /-- VNEG (R200). Inverts each lane's sign bit. -/
  | vneg (d a : BitVec 4) (m : BitVec 2) (g : BitVec 5)
  /-- VRND_RNE (R201). Rounds lanes to integral values, ties to even. -/
  | vrndRne (d a : BitVec 4) (m : BitVec 2) (g : BitVec 5)
  /-- VRND_RZ (R201). Rounds lanes toward zero. -/
  | vrndRz (d a : BitVec 4) (m : BitVec 2) (g : BitVec 5)
  /-- VRND_RD (R201). Rounds lanes toward minus infinity. -/
  | vrndRd (d a : BitVec 4) (m : BitVec 2) (g : BitVec 5)
  /-- VRND_RU (R201). Rounds lanes toward plus infinity. -/
  | vrndRu (d a : BitVec 4) (m : BitVec 2) (g : BitVec 5)
  /-- VFEXP2 (R201). Computes 2^x for lanes in [-1, 1]. -/
  | vfexp2 (d a : BitVec 4) (m : BitVec 2) (g : BitVec 5)
  /-- VSCALE (R201). Multiplies lanes by 2 to an integer power. -/
  | vscale (d a b : BitVec 4) (m : BitVec 2) (g : BitVec 5)
  /-- VRCP (R201). Computes lane reciprocals. -/
  | vrcp (d a : BitVec 4) (m : BitVec 2) (g : BitVec 5)
  /-- VRSQ (R201). Computes lane reciprocal square roots. -/
  | vrsq (d a : BitVec 4) (m : BitVec 2) (g : BitVec 5)
  /-- VCMP_EQ (R202). Writes a mask of lanes that are ordered and equal. -/
  | vcmpEq (d : BitVec 2) (a b : BitVec 4) (m : BitVec 2) (g : BitVec 5)
  /-- VCMP_NE (R202). Writes a mask of lanes unordered or unequal. -/
  | vcmpNe (d : BitVec 2) (a b : BitVec 4) (m : BitVec 2) (g : BitVec 5)
  /-- VCMP_LT (R202). Writes a mask of lanes ordered and less. -/
  | vcmpLt (d : BitVec 2) (a b : BitVec 4) (m : BitVec 2) (g : BitVec 5)
  /-- VCMP_LE (R202). Writes a mask of lanes ordered and less or equal. -/
  | vcmpLe (d : BitVec 2) (a b : BitVec 4) (m : BitVec 2) (g : BitVec 5)
  /-- VCMP_GT (R202). Writes a mask of lanes ordered and greater. -/
  | vcmpGt (d : BitVec 2) (a b : BitVec 4) (m : BitVec 2) (g : BitVec 5)
  /-- VCMP_GE (R202). Writes a mask of lanes ordered and greater or equal. -/
  | vcmpGe (d : BitVec 2) (a b : BitVec 4) (m : BitVec 2) (g : BitVec 5)
  /-- VCMP_UN (R202). Writes a mask of unordered lanes. -/
  | vcmpUn (d : BitVec 2) (a b : BitVec 4) (m : BitVec 2) (g : BitVec 5)
  /-- VCMP_OR (R202). Writes a mask of ordered lanes. -/
  | vcmpOr (d : BitVec 2) (a b : BitVec 4) (m : BitVec 2) (g : BitVec 5)
  /-- VSEL (R203). Selects lanes of VA or VB by a mask. -/
  | vsel (d a b : BitVec 4) (m : BitVec 2) (g : BitVec 5)
  /-- VIADD (R204). Adds 32-bit integer lanes. -/
  | viadd (d a b : BitVec 4) (m : BitVec 2) (g : BitVec 5)
  /-- VISUB (R204). Subtracts 32-bit integer lanes. -/
  | visub (d a b : BitVec 4) (m : BitVec 2) (g : BitVec 5)
  /-- VIMUL (R204). Multiplies 32-bit integer lanes, low bits. -/
  | vimul (d a b : BitVec 4) (m : BitVec 2) (g : BitVec 5)
  /-- VAND (R204). ANDs lanes. -/
  | vand (d a b : BitVec 4) (m : BitVec 2) (g : BitVec 5)
  /-- VOR (R204). ORs lanes. -/
  | vor (d a b : BitVec 4) (m : BitVec 2) (g : BitVec 5)
  /-- VXOR (R204). Exclusive-ORs lanes. -/
  | vxor (d a b : BitVec 4) (m : BitVec 2) (g : BitVec 5)
  /-- VSHL (R204). Shifts lanes left. -/
  | vshl (d a b : BitVec 4) (m : BitVec 2) (g : BitVec 5)
  /-- VSHR (R204). Shifts lanes right logically. -/
  | vshr (d a b : BitVec 4) (m : BitVec 2) (g : BitVec 5)
  /-- VSHR_S (R204). Shifts lanes right arithmetically. -/
  | vshrS (d a b : BitVec 4) (m : BitVec 2) (g : BitVec 5)
  /-- VRSUM (R206). Sums lanes in a fixed tree into lane 0. -/
  | vrsum (d a : BitVec 4) (m : BitVec 2) (g : BitVec 5)
  /-- VNZC (R206). Counts nonzero packed codes. -/
  | vnzc (d a : BitVec 4) (m : BitVec 2) (g : BitVec 5)
  /-- VNZB (R206). Writes a bitmap of nonzero packed codes. -/
  | vnzb (d a : BitVec 4) (m : BitVec 2) (g : BitVec 5)
  /-- VPERM (R207). Permutes lanes of VA by indices in VB. -/
  | vperm (d a b : BitVec 4) (m : BitVec 2) (g : BitVec 5)
  /-- VSLIDE (R207). Slides lanes of VA and VB by k, with k given by EOP minus 38. -/
  | vslide (k d a b : BitVec 4) (m : BitVec 2) (g : BitVec 5)
  /-- VCVT_F2I (R205). Converts lanes to 32-bit integers, ties to even. -/
  | vcvtF2i (d a : BitVec 4) (m : BitVec 2) (g : BitVec 5)
  /-- VCVT_F2I_RZ (R205). Converts lanes to 32-bit integers toward zero. -/
  | vcvtF2iRz (d a : BitVec 4) (m : BitVec 2) (g : BitVec 5)
  /-- VCVT_I2F (R205). Converts signed integer lanes to F32. -/
  | vcvtI2f (d a : BitVec 4) (m : BitVec 2) (g : BitVec 5)
  /-- VCVT_F2B (R205). Converts lanes to BF16. -/
  | vcvtF2b (d a : BitVec 4) (m : BitVec 2) (g : BitVec 5)
  /-- VCVT_B2F (R205). Converts BF16 lanes to F32. -/
  | vcvtB2f (d a : BitVec 4) (m : BitVec 2) (g : BitVec 5)
  /-- VCVT_F2H (R205). Converts lanes to F16. -/
  | vcvtF2h (d a : BitVec 4) (m : BitVec 2) (g : BitVec 5)
  /-- VCVT_H2F (R205). Converts F16 lanes to F32. -/
  | vcvtH2f (d a : BitVec 4) (m : BitVec 2) (g : BitVec 5)
  /-- VLD (R191). Loads 16 elements into a vector register. -/
  | vld (v : BitVec 4) (a g : BitVec 5)
  /-- VST (R193). Stores 16 lanes contiguously. -/
  | vst (v : BitVec 4) (a g : BitVec 5)
  /-- VLDS (R190). Loads elements at a byte stride. -/
  | vlds (v : BitVec 4) (a b g : BitVec 5)
  /-- VLDX (R192). Gathers elements at indices held in the vector register. -/
  | vldx (v : BitVec 4) (a g : BitVec 5)
  /-- VLDB (R194). Loads block-scaled elements with a scale run. -/
  | vldb (v : BitVec 4) (a b g : BitVec 5)
  /-- VSTB (R195). Stores block-scaled elements and rewrites the scale run. -/
  | vstb (v : BitVec 4) (a b g : BitVec 5)
  /-- VPUTS (R196). Encodes lane bytes as a scale run. -/
  | vputs (v : BitVec 4) (a g : BitVec 5)
  /-- VGETS (R196). Decodes a scale run into lanes. -/
  | vgets (v : BitVec 4) (a g : BitVec 5)
  /-- VCFG (R208). Writes a vector-engine configuration register when executed. -/
  | vcfg (r : BitVec 6) (a g : BitVec 5)
  /-- VGET (R186). Reads a vector-engine register into a scalar register when executed. -/
  | vget (r : BitVec 6) (a g : BitVec 5)
  /-- CCOPY (R256). Copies ce.len bytes from source to destination. -/
  | ccopy (a b g : BitVec 5)
  /-- CFILL (R256). Fills bytes with the fill pattern. -/
  | cfill (a g : BitVec 5)
  /-- CTCOPY (R256). Copies a strided four-dimensional tensor. -/
  | ctcopy (a b g : BitVec 5)
  /-- CGATHER (R256). Gathers selected strided rows into packed rows. -/
  | cgather (a b g : BitVec 5)
  /-- CSCATTER (R256). Scatters packed rows into selected strided rows. -/
  | cscatter (a b g : BitVec 5)
  /-- CCOPY_F (R256). Copies bytes and sets every destination word full. -/
  | ccopyF (a b g : BitVec 5)
  /-- CCFG (R252). Writes a copy-engine register at once. -/
  | ccfg (r : BitVec 6) (a g : BitVec 5)
  /-- CGET (R252). Reads a copy-engine register as a queued command. -/
  | cget (r : BitVec 6) (a g : BitVec 5)
  /-- HALLOC (R266). Allocates a handle from a descriptor. -/
  | halloc (a b g : BitVec 5)
  /-- HFREE (R267). Frees a handle after the operations before it. -/
  | hfree (a g : BitVec 5)
  /-- HWIDEN (R267). Adds operation classes, re-dressing when a class is new. -/
  | hwiden (a b g : BitVec 5)
  /-- HPIN (R267). Asks for a handle to be pinned in the LLC. -/
  | hpin (a b g : BitVec 5)
  /-- HUNPIN (R267). Releases a handle's pin. -/
  | hunpin (a g : BitVec 5)
  /-- HSTAGE_A (R271). Stages this core's A slice of a handle into local memory. -/
  | hstageA (a b g : BitVec 5)
  /-- HSTAGE_B (R271). Stages this core's B slice of a handle. -/
  | hstageB (a b g : BitVec 5)
  /-- HSTAGE_NC (R271). Writes a handle's column norms. -/
  | hstageNc (a b g : BitVec 5)
  /-- HSTAGE_NR (R271). Writes a handle's row norms. -/
  | hstageNr (a b g : BitVec 5)
  /-- HINFO (R268). Returns a handle attribute by selector. -/
  | hinfo (a b g : BitVec 5)
  /-- HOWN (R268). Returns the owner device of a SHARD element. -/
  | hown (a b g : BitVec 5)
  /-- HSYNC (R268). Completes when the thread's admitted handle commands complete. -/
  | hsync (a g : BitVec 5)
  /-- HOP_ROWSUM (R269). Writes a handle's row sums. -/
  | hopRowsum (a b g : BitVec 5)
  /-- HOP_COLSUM (R269). Writes a handle's column sums. -/
  | hopColsum (a b g : BitVec 5)
  /-- HOP_SCALE (R269). Scales a handle in place. -/
  | hopScale (a b g : BitVec 5)
  /-- HOP_ADDH (R269). Adds handle x into handle y. -/
  | hopAddh (a b g : BitVec 5)
  /-- HOP_MULH (R269). Multiplies handle y by handle x elementwise. -/
  | hopMulh (a b g : BitVec 5)
  /-- HOP_AXPY (R269). Computes alpha times x plus y into y. -/
  | hopAxpy (a b g : BitVec 5)
  /-- HOP_FILL (R269). Fills a handle with one value. -/
  | hopFill (a b g : BitVec 5)
  /-- HOP_FILL_IMG (R269). Fills a handle with codes from an image. -/
  | hopFillImg (a b g : BitVec 5)
  /-- HOP_TRANSPOSE (R269). Transposes the last two dimensions into a destination handle. -/
  | hopTranspose (a b g : BitVec 5)
  /-- HOP_COPYIN (R269). Copies and converts memory into a handle. -/
  | hopCopyin (a b g : BitVec 5)
  /-- HOP_COPYOUT (R269). Copies and converts a handle into memory. -/
  | hopCopyout (a b g : BitVec 5)
  /-- HOP_GROWS (R271). Gathers selected handle rows packed into memory. -/
  | hopGrows (a b g : BitVec 5)
  /-- HOP_SROWS (R271). Scatters packed rows into selected handle rows. -/
  | hopSrows (a b g : BitVec 5)
  /-- NMC (R274). Issues a near-memory overlay command to the sett core holding a range. -/
  | nmc (a b g : BitVec 5)
  /-- NMLOAD (R273). Loads an overlay into a sett core and becomes its owning core. -/
  | nmload (a b g : BitVec 5)
  /-- NMROW (R276). Issues a row copy or zero command to the row sequencer. -/
  | nmrow (a b g : BitVec 5)
  /-- NMSTAT (R277). Waits while a status record reads running, then returns word 0. -/
  | nmstat (a b g : BitVec 5)
  /-- TRAP (R283). Enters the trap handler with the software-trap cause. -/
  | trap (a g : BitVec 5)
  /-- TRET (R284). Returns from the trap handler to FPC. -/
  | tret (g : BitVec 5)
  /-- MFS (R281). Reads a system register. -/
  | mfs (r : BitVec 8) (a g : BitVec 5)
  /-- MTS (R281). Writes a system register, dropping reserved bits. -/
  | mts (r : BitVec 8) (a g : BitVec 5)
  /-- MTS_WDOG (R281). Writes the context's watchdog period, clamped, as a single-operation event. -/
  | mtsWdog (a g : BitVec 5)
  /-- BKPT (R285). Halts under a debugger or takes the breakpoint trap. -/
  | bkpt (g : BitVec 5)
  /-- IDLE (R289). Waits until a message or light handler is queued at the core. -/
  | idle (g : BitVec 5)
  /-- IDLE_T (R289). Idles with a cycle limit. -/
  | idleT (a g : BitVec 5)
  /-- TLOAD (R290). Loads a decode table and builds its encode order. -/
  | tload (a b g : BitVec 5)
  /-- SYNCI (R291). Makes instruction fetch see committed writes to a range. -/
  | synci (a b g : BitVec 5)
  /-- HARVEST (R292). Sets dirty and accessed bits in page entries from recorded grants. -/
  | harvest (a b g : BitVec 5)
  /-- CTXSWAP (R293). Exchanges the thread with a stockpiled context. -/
  | ctxswap (a b g : BitVec 5)
  /-- NOP (R112). Does nothing. -/
  | nop
  /-- ILL (R112). The defined-illegal word, which raises the illegal-instruction fault. -/
  | ill
  /-- HOST_LAUNCH_WRITE (R345). A 64-byte host write to a launch window pushes one record. -/
  | hostLaunchWrite (page off : Nat) (words : List Word)
  /-- LAUNCH_ADMISSION (R345). The Bed reads, checks and admits or refuses a launch record. -/
  | launchAdmission (req : LaunchReq)
  /-- THREAD_PLACEMENT (R348). The dispatcher places a thread of the chosen record on a fitting core. -/
  | threadPlacement
  /-- LOCAL_CONTEXT_EXCHANGE (R308). A core saves and loads local memory and engine state for a new context. -/
  | localContextExchange (core ctx : Nat)
  /-- ENGINE_CONTEXT_EXCHANGE (R299). A command of another context swaps the engine state after the old commands complete. -/
  | engineContextExchange (core ctx : Nat)
  /-- LAUNCH_AGEING (R350). Each 10 ms of eligible waiting raises a launch's priority by one. -/
  | launchAgeing (key : Nat)
  /-- DISPATCH_PREEMPTION (R351). A record with no fitting core pre-empts a thread 8 levels lower. -/
  | dispatchPreemption
  /-- THREAD_PREEMPTION (R396). A thread is taken from its slot at its next turn and saved to the stockpile. -/
  | threadPreemption (uid : Nat)
  /-- SLOT_FILL (R353). A freed general slot is filled from the stockpile or the dispatcher. -/
  | slotFill (core : Nat)
  /-- LOAD_BALANCE (R354). Every 1,024 cycles a busy core moves one ready thread to the idlest core. -/
  | loadBalance (core : Nat)
  /-- SPAWN_PACKET_ACCEPT (R36). The target cluster accepts a spawn packet and the child is placed or stockpiled. -/
  | spawnPacketAccept (p : SpawnPacket)
  /-- MIGRATION_DEPARTURE (R45). After pending results fill, the thread leaves as one packet. -/
  | migrationDeparture (uid owner : Nat) (mask : BitVec 28)
  /-- MIGRATION_ARRIVAL (R45). A migration packet arrives at the owner and waits for a slot. -/
  | migrationArrival (uid owner : Nat)
  /-- REPLY_ARRIVAL (R32). A load, atomic, RFILL, handle or other reply fills its register and returns the thread. -/
  | replyArrival (uid : Nat) (reg : BitVec 5) (value : Word)
  /-- PORT_WORD_DELIVERY (R356). A pushed word enters the target upstream queue; `entry` is the queue plus 32 times the side that the word
  comes from. -/
  | portWordDelivery (core entry : Nat) (value : Word) (ctl : Bool)
  /-- MESSAGE_ARRIVAL (R41). A message is queued at the receiving core. -/
  | messageArrival (core : Nat) (msg : Message)
  /-- MESSAGE_HANDLER_START (R41). The empty handler slot starts the oldest pending message. -/
  | messageHandlerStart (core : Nat)
  /-- LIGHT_HANDLER_START (R357). The empty handler slot starts a pending light handler. -/
  | lightHandlerStart (core : Nat)
  /-- CHUNK_COMMIT (R327). A chunk is checked at the arbiters and commits or is squashed. -/
  | chunkCommit (uid : Nat)
  /-- WAITA_TIMEOUT (R167). A timed WAITA's limit passes and it writes 0. -/
  | waitaTimeout (uid stamp : Nat)
  /-- IDLE_TIMEOUT (R289). An IDLE.t limit passes. -/
  | idleTimeout (uid stamp : Nat)
  /-- BARRIER_RELEASE (R40). A member is released at its staggered time after the round completes. -/
  | barrierRelease (uid stamp : Nat)
  /-- FULL_EMPTY_HOME_ACCESS (R160). A synchronising access is served at the word's home, waking waiters in order. -/
  | fullEmptyHomeAccess (acc : Access)
  /-- REMOTE_ACCESS_ARRIVAL (R305). A remote-window access is served at the target core. -/
  | remoteAccessArrival (acc : Access)
  /-- ATOMIC_APPLY (R163). An atomic is applied at the word's home. -/
  | atomicApply (acc : Access)
  /-- RFILL_DELIVERY (R162). An RFILL reaches its target register and returns a status. -/
  | rfillDelivery (uid : Nat) (reg : BitVec 5) (target value : Word)
  /-- POSTED_STORE_APPLY (R165). The destination applies a posted store. -/
  | postedStoreApply (core entry : Nat)
  /-- POSTED_STORE_ACK (R165). The acknowledgement frees the journal entry. -/
  | postedStoreAck (core entry : Nat)
  /-- POSTED_STORE_REFUSAL (R166). A refused posted store frees its entry and raises the posted-store trap. -/
  | postedStoreRefusal (core entry : Nat)
  /-- FAULT_QUEUE_RESOLUTION (R316). The BCP or host resolves a fault-queue entry and wakes or faults its waiters. -/
  | faultQueueResolution (ctx page : Nat) (ok : Bool)
  /-- FENCE_COMPLETION (R168). A FENCE completes when its drain ends. -/
  | fenceCompletion (uid scope : Nat)
  /-- XFENCE_COMPLETION (R169). XFENCE completes once write-back and near-memory drain and invalidation are done. -/
  | xfenceCompletion (uid ctx base len stamp : Nat)
  /-- ENGINE_COMMAND_START (R184). A queued engine command begins executing after the one before. -/
  | engineCommandStart (core : Nat) (eng : Engine)
  /-- VECTOR_COMMAND_COMPLETION (R197). A vector command completes and a store commits as one event. -/
  | vectorCommandCompletion (core : Nat)
  /-- MATRIX_COMMAND_COMPLETION (R213). A matrix command completes and the thread returns. -/
  | matrixCommandCompletion (core : Nat)
  /-- MRING_STEP_START (R222). A ring step starts once its tile and outgoing buffer conditions hold. -/
  | mringStepStart (core : Nat)
  /-- TILE_DELIVERY (R223). An outgoing tile is delivered to the downstream core or discarded. -/
  | tileDelivery (core : Nat)
  /-- COPY_COMMAND_COMPLETION (R258). A copy command completes, sets ce.done and writes its completion word. -/
  | copyCommandCompletion (core : Nat)
  /-- HANDLE_COMMAND_ADMISSION (R262). The handle table checks a command and admits it into handle order. -/
  | handleCommandAdmission (cmd : HandleCmd)
  /-- HANDLE_OPERATION_COMPLETION (R335). A handle operation takes effect in handle order and commits its destination. -/
  | handleOperationCompletion (ctx hnum : Nat)
  /-- DRESSER_REDRESS (R368). The Dresser starts a pressure or usage re-dress by itself. -/
  | dresserRedress (ctx hnum : Nat)
  /-- REDRESS_START (R335). A queued re-dress starts when all operations before it complete. -/
  | redressStart (ctx hnum : Nat)
  /-- REDRESS_COMPLETE (R364). A re-dress completes and the generation rises by one. -/
  | redressComplete (ctx hnum : Nat)
  /-- TLOAD_BUILD_COMPLETE (R290). The encode order is built and waiting conversions proceed. -/
  | tloadBuildComplete (core table : Nat)
  /-- NM_PROGRAM_START (R274). A sett core starts an admitted command's program after those before it. -/
  | nmProgramStart (sett : Nat)
  /-- NM_PROGRAM_STOP (R275). A near-memory program stops and the Bed writes its status record. -/
  | nmProgramStop (sett state : Nat) (info : Word)
  /-- NMROW_STOP (R276). A row-sequencer command ends, invalidates destinations and writes status. -/
  | nmrowStop (sett : Nat)
  /-- WATCHDOG_EXPIRY (R390). The no-progress count reaches WDOG and waits are ended. -/
  | watchdogExpiry (ctx : Nat)
  /-- CONTEXT_START (R411). A host write of 1 to CMD starts a context. -/
  | contextStart (page : Nat)
  /-- CONTEXT_STOP_DISPATCH (R411). A host write of 2 to CMD stops dispatch. -/
  | contextStopDispatch (page : Nat)
  /-- CONTEXT_END (R412). A host write of 3 to CMD ends the context. -/
  | contextEnd (page : Nat)
  /-- HOST_WDOG_WRITE (R411). A host write of WDOG clamps the period and resets the count. -/
  | hostWdogWrite (page : Nat) (value : Word)
  /-- HOST_ERR_CLEAR (R411). A host write of 1 to STATE.ERR clears it. -/
  | hostErrClear (page : Nat)
  /-- HOST_MESSAGE_PUSH (R416). A 64-byte write to MSGW pushes a host message. -/
  | hostMessagePush (page off : Nat) (words : List Word)
  /-- HOST_REGISTER_WRITE (R411). A host write to a device or context register without a row of its own. -/
  | hostRegisterWrite (off : Nat) (value : Word)
  /-- TRANSLATION_INVALIDATION (R414). A write of 1 to TGO removes translations of a range and squashes users. -/
  | translationInvalidation (page : Nat)
  /-- TRANSLATION_INVALIDATION_COMPLETE (R414). Translated accesses drain and TGO returns to 0. -/
  | translationInvalidationComplete (page : Nat)
  /-- DEBUG_HALT (R285). A write to HALT halts one or all threads of the context. -/
  | debugHalt (page : Nat) (value : Word)
  /-- DEBUG_VIEW (R287). The view is written when commands complete or 10 µs pass. -/
  | debugView (page uid : Nat)
  /-- DEBUG_RESUME (R288). A write to RESUME resumes a halted thread. -/
  | debugResume (page : Nat) (value : Word)
  /-- DEBUG_DETACH (R415). Clearing DBG resumes every halted thread. -/
  | debugDetach (page : Nat)
  /-- FACE_FENCE (R400). A host write to FENCE fences Faces and discards their working state. -/
  | faceFence (mask : BitVec 8)
  /-- FACE_FAILURE (R400). The BCP detects an uncorrectable Face failure and fences it. -/
  | faceFailure (face : Nat)
  /-- FACE_RESET (R417). A write to FRESET returns fenced Faces at reset state. -/
  | faceReset (mask : BitVec 8)
  /-- FREEZE_REQUEST (R404). A write of 1 to FZCTL starts a freeze of the device to host memory. -/
  | freezeRequest
  /-- FREEZE_FACE_TIMEOUT (R405). A Face not stopped within 1 ms is fenced and the freeze goes on. -/
  | freezeFaceTimeout (face : Nat)
  /-- FREEZE_COMPLETE (R418). Every image is sealed and FZCTL reads 2. -/
  | freezeComplete
  /-- FREEZE_RESUME (R407). A write of 4 to FZCTL restores the device and context images. -/
  | freezeResume (bad : List Nat)
  /-- ATTESTATION_REQUEST (R420). The host starts an attestation report with a nonce. -/
  | attestationRequest
  /-- HOST_CXL_WRITE (R409). A host write through CXL.mem commits at its line's LLC slice. -/
  | hostCxlWrite (off : Nat) (bytes : List Byte)
  /-- HOST_CXL_READ (R409). A host read through CXL.mem, with poison reported as CXL poison. -/
  | hostCxlRead (off n : Nat)
  /-- REMOTE_DEVICE_ACCESS (R419). An access from another device arrives over Helven and is served under isolation. -/
  | remoteDeviceAccess (dev rctx : Nat) (acc : Access)
  /-- HELVEN_LINK_LOSS (R26). A link is lost and traffic reroutes. -/
  | helvenLinkLoss (link : Nat)
  /-- LINK_LOSS_TIMEOUT (R419). After 10 ms with every link to a device lost, accesses to it fault. -/
  | linkLossTimeout (dev : Nat)
  /-- STACK_LOSS (R26). An uncorrectable base-die failure loses a stack. -/
  | stackLoss (stack : Nat)
  /-- HOST_PORT_LOSS (R26). A host port is lost with its traffic in flight. -/
  | hostPortLoss (port : Nat)
  /-- THERMAL_TRIP (R423). A junction, coolant or supply trip stops the clocks and resets the module. -/
  | thermalTrip (cause : BitVec 4) (face : BitVec 3)
  /-- MODULE_RESET (R424). The module leaves reset and runs bring-up. -/
  | moduleReset
  /-- THROTTLE_INTERVAL (R423). Each 1 ms interval of limiting advances THROT. -/
  | throttleInterval (limits : Bool)
  /-- ACTIVE_BANK_LIMIT_CHANGE (R21). Thermal control changes the permitted-active-banks limit. -/
  | activeBankLimitChange (stack limit : Nat)
  /-- AGEING_UPDATE (R391). Every 10 minutes the BCP updates the ageing records. -/
  | ageingUpdate (records : List Word)
  /-- SCRUB_READ (R422). The scrubber reads a line and corrects or poisons it. -/
  | scrubRead (line : Nat) (outcome : ScrubOutcome)
  /-- ROW_DISTURBANCE_ALERT (R386). A row's activation count reaches the threshold and its neighbours are refreshed. -/
  | rowDisturbanceAlert (sett row : Nat) (source : ActSource)
  /-- REFRESH_WINDOW_END (R386). The 32 ms refresh window over which activations are counted ends. -/
  | refreshWindowEnd (stack : Nat)
  /-- CORE_CYCLE (R359). Each core cycle the core applies arrivals, makes the issue choice, and advances CYC and, when no slot is ready, NOREADY. -/
  | coreCycle (core : Nat)
  /-- OVERLAY_LOAD_COMPLETE (R273). An overlay finishes loading into a sett core, returning the NMLOAD thread or the waiting migrated thread. -/
  | overlayLoadComplete (sett base : Nat)
  /-- DEBUGGER_REGISTER_WRITE (R296). A debugger writes a register or the PC of a halted thread. -/
  | debuggerRegisterWrite (page uid : Nat) (reg : BitVec 6) (value : Word)
  /-- BED_LOSS (R26). Loss of the Bed stops the device, and contexts resume only from a verified freeze image. -/
  | bedLoss
  deriving DecidableEq, Repr

/-- The row of the opcode table of a pending device step. -/
noncomputable def Event.instr : Event → Instr
  | .hostLaunchWrite page off words => .hostLaunchWrite page off words
  | .launchAdmission req => .launchAdmission req
  | .threadPlacement => .threadPlacement
  | .localContextExchange core ctx => .localContextExchange core ctx
  | .engineContextExchange core ctx => .engineContextExchange core ctx
  | .launchAgeing key => .launchAgeing key
  | .dispatchPreemption => .dispatchPreemption
  | .threadPreemption uid => .threadPreemption uid
  | .slotFill core => .slotFill core
  | .loadBalance core => .loadBalance core
  | .spawnPacketAccept p => .spawnPacketAccept p
  | .migrationDeparture uid owner mask => .migrationDeparture uid owner mask
  | .migrationArrival uid owner => .migrationArrival uid owner
  | .replyArrival uid reg value => .replyArrival uid reg value
  | .portWordDelivery core entry value ctl => .portWordDelivery core entry value ctl
  | .messageArrival core msg => .messageArrival core msg
  | .messageHandlerStart core => .messageHandlerStart core
  | .lightHandlerStart core => .lightHandlerStart core
  | .chunkCommit uid => .chunkCommit uid
  | .waitaTimeout uid stamp => .waitaTimeout uid stamp
  | .idleTimeout uid stamp => .idleTimeout uid stamp
  | .barrierRelease uid stamp => .barrierRelease uid stamp
  | .fullEmptyHomeAccess acc => .fullEmptyHomeAccess acc
  | .remoteAccessArrival acc => .remoteAccessArrival acc
  | .atomicApply acc => .atomicApply acc
  | .rfillDelivery uid reg target value => .rfillDelivery uid reg target value
  | .postedStoreApply core entry => .postedStoreApply core entry
  | .postedStoreAck core entry => .postedStoreAck core entry
  | .postedStoreRefusal core entry => .postedStoreRefusal core entry
  | .faultQueueResolution ctx page ok => .faultQueueResolution ctx page ok
  | .fenceCompletion uid scope => .fenceCompletion uid scope
  | .xfenceCompletion uid ctx base len stamp => .xfenceCompletion uid ctx base len stamp
  | .engineCommandStart core eng => .engineCommandStart core eng
  | .vectorCommandCompletion core => .vectorCommandCompletion core
  | .matrixCommandCompletion core => .matrixCommandCompletion core
  | .mringStepStart core => .mringStepStart core
  | .tileDelivery core => .tileDelivery core
  | .copyCommandCompletion core => .copyCommandCompletion core
  | .handleCommandAdmission cmd => .handleCommandAdmission cmd
  | .handleOperationCompletion ctx hnum => .handleOperationCompletion ctx hnum
  | .dresserRedress ctx hnum => .dresserRedress ctx hnum
  | .redressStart ctx hnum => .redressStart ctx hnum
  | .redressComplete ctx hnum => .redressComplete ctx hnum
  | .tloadBuildComplete core table => .tloadBuildComplete core table
  | .nmProgramStart sett => .nmProgramStart sett
  | .nmProgramStop sett state info => .nmProgramStop sett state info
  | .nmrowStop sett => .nmrowStop sett
  | .watchdogExpiry ctx => .watchdogExpiry ctx
  | .contextStart page => .contextStart page
  | .contextStopDispatch page => .contextStopDispatch page
  | .contextEnd page => .contextEnd page
  | .hostWdogWrite page value => .hostWdogWrite page value
  | .hostErrClear page => .hostErrClear page
  | .hostMessagePush page off words => .hostMessagePush page off words
  | .hostRegisterWrite off value => .hostRegisterWrite off value
  | .translationInvalidation page => .translationInvalidation page
  | .translationInvalidationComplete page => .translationInvalidationComplete page
  | .debugHalt page value => .debugHalt page value
  | .debugView page uid => .debugView page uid
  | .debugResume page value => .debugResume page value
  | .debugDetach page => .debugDetach page
  | .faceFence mask => .faceFence mask
  | .faceFailure face => .faceFailure face
  | .faceReset mask => .faceReset mask
  | .freezeRequest => .freezeRequest
  | .freezeFaceTimeout face => .freezeFaceTimeout face
  | .freezeComplete => .freezeComplete
  | .freezeResume bad => .freezeResume bad
  | .attestationRequest => .attestationRequest
  | .hostCxlWrite off bytes => .hostCxlWrite off bytes
  | .hostCxlRead off n => .hostCxlRead off n
  | .remoteDeviceAccess dev rctx acc => .remoteDeviceAccess dev rctx acc
  | .helvenLinkLoss link => .helvenLinkLoss link
  | .linkLossTimeout dev => .linkLossTimeout dev
  | .stackLoss stack => .stackLoss stack
  | .hostPortLoss port => .hostPortLoss port
  | .thermalTrip cause face => .thermalTrip cause face
  | .moduleReset => .moduleReset
  | .throttleInterval limits => .throttleInterval limits
  | .activeBankLimitChange stack limit => .activeBankLimitChange stack limit
  | .ageingUpdate records => .ageingUpdate records
  | .scrubRead line outcome => .scrubRead line outcome
  | .rowDisturbanceAlert sett row source => .rowDisturbanceAlert sett row source
  | .refreshWindowEnd stack => .refreshWindowEnd stack
  | .coreCycle core => .coreCycle core
  | .overlayLoadComplete sett base => .overlayLoadComplete sett base
  | .debuggerRegisterWrite page uid reg value => .debuggerRegisterWrite page uid reg value
  | .bedLoss => .bedLoss

end Sys2Proof
end

