-- ==== Sys2Proof/WellFormed.lean ====
section
/-!
DEFINITION. The decode checks that a word meets before its guard is looked at (R102, R103, R105-R107, R110): a legal
guard, registers and ports where R106 allows them, assigned engine and system registers. The count of the thread's
registers (R105) is checked at issue, where the thread is known.
-/
namespace Sys2Proof

/-- G = 0b00001 ("not p0") is reserved (R103). -/
def guardOk (g : BitVec 5) : Bool := decide (g ≠ 1#5)
/-- A field that must name g0-g27 (R106). -/
def gReg (r : BitVec 5) : Bool := decide (r.toNat < 28)
/-- A field that is read: g0-g27, i0 or i1 (R106). -/
def srcReg (r : BitVec 5) : Bool := decide (r.toNat < 30)
/-- A fixed-latency destination: g0-g27, o0 or o1 (R106). -/
def dstReg (r : BitVec 5) : Bool := decide (r ≠ 28#5) && decide (r ≠ 29#5)
/-- A B source names a register or port below 30; 30 and 31 are the literal codes (R107). -/
def Src.ok : Src → Bool
  | .reg n => decide (n.toNat < 30)
  | .lit32 _ => true
  | .lit64 _ => true
/-- The assigned matrix-engine registers: 0-7 (R210) and 16-36 (R230). -/
def meReg (r : BitVec 6) : Bool := decide (r.toNat ≤ 7) || (decide (16 ≤ r.toNat) && decide (r.toNat ≤ 36))

/-- The decode checks of each instruction. ILL is the one word of opcode 0 (R112), which always faults; a device step is no word at all. -/
def Instr.wf : Instr → Bool
  | .add d a b g => guardOk g && dstReg d && srcReg a && b.ok
  | .sub d a b g => guardOk g && dstReg d && srcReg a && b.ok
  | .mul d a b g => guardOk g && dstReg d && srcReg a && b.ok
  | .mulhS d a b g => guardOk g && dstReg d && srcReg a && b.ok
  | .mulhN d a b g => guardOk g && dstReg d && srcReg a && b.ok
  | .divS d a b g => guardOk g && dstReg d && srcReg a && b.ok
  | .divN d a b g => guardOk g && dstReg d && srcReg a && b.ok
  | .remS d a b g => guardOk g && dstReg d && srcReg a && b.ok
  | .remN d a b g => guardOk g && dstReg d && srcReg a && b.ok
  | .minS d a b g => guardOk g && dstReg d && srcReg a && b.ok
  | .minN d a b g => guardOk g && dstReg d && srcReg a && b.ok
  | .maxS d a b g => guardOk g && dstReg d && srcReg a && b.ok
  | .maxN d a b g => guardOk g && dstReg d && srcReg a && b.ok
  | .and d a b g => guardOk g && dstReg d && srcReg a && b.ok
  | .or d a b g => guardOk g && dstReg d && srcReg a && b.ok
  | .xor d a b g => guardOk g && dstReg d && srcReg a && b.ok
  | .andn d a b g => guardOk g && dstReg d && srcReg a && b.ok
  | .shl d a b g => guardOk g && dstReg d && srcReg a && b.ok
  | .shr d a b g => guardOk g && dstReg d && srcReg a && b.ok
  | .sar d a b g => guardOk g && dstReg d && srcReg a && b.ok
  | .rol d a b g => guardOk g && dstReg d && srcReg a && b.ok
  | .addImm d a _ g => guardOk g && dstReg d && srcReg a
  | .andImm d a _ g => guardOk g && dstReg d && srcReg a
  | .orImm d a _ g => guardOk g && dstReg d && srcReg a
  | .xorImm d a _ g => guardOk g && dstReg d && srcReg a
  | .shlImm d a _ g => guardOk g && dstReg d && srcReg a
  | .shrImm d a _ g => guardOk g && dstReg d && srcReg a
  | .sarImm d a _ g => guardOk g && dstReg d && srcReg a
  | .rolImm d a _ g => guardOk g && dstReg d && srcReg a
  | .mulImm d a _ g => guardOk g && dstReg d && srcReg a
  | .movImm d _ g => guardOk g && dstReg d
  | .mov d b g => guardOk g && dstReg d && b.ok
  | .neg d b g => guardOk g && dstReg d && b.ok
  | .abs d b g => guardOk g && dstReg d && b.ok
  | .clz d b g => guardOk g && dstReg d && b.ok
  | .ctz d b g => guardOk g && dstReg d && b.ok
  | .popc d b g => guardOk g && dstReg d && b.ok
  | .brev d b g => guardOk g && dstReg d && b.ok
  | .movCtl _ b g => guardOk g && b.ok
  | .ext d a b g => guardOk g && dstReg d && srcReg a && b.ok
  | .extS d a b g => guardOk g && dstReg d && srcReg a && b.ok
  | .ins d a b g => guardOk g && gReg d && srcReg a && b.ok
  | .sel d a b k n g => guardOk g && dstReg d && srcReg a && b.ok && decide (k ++ n ≠ 1#5)
  | .cmpEq d a b g => guardOk g && srcReg a && b.ok && decide (d ≠ 0#4)
  | .cmpNe d a b g => guardOk g && srcReg a && b.ok && decide (d ≠ 0#4)
  | .cmpLt d a b g => guardOk g && srcReg a && b.ok && decide (d ≠ 0#4)
  | .cmpGe d a b g => guardOk g && srcReg a && b.ok && decide (d ≠ 0#4)
  | .cmpLe d a b g => guardOk g && srcReg a && b.ok && decide (d ≠ 0#4)
  | .cmpGt d a b g => guardOk g && srcReg a && b.ok && decide (d ≠ 0#4)
  | .cmpLo d a b g => guardOk g && srcReg a && b.ok && decide (d ≠ 0#4)
  | .cmpHs d a b g => guardOk g && srcReg a && b.ok && decide (d ≠ 0#4)
  | .cmpLs d a b g => guardOk g && srcReg a && b.ok && decide (d ≠ 0#4)
  | .cmpHi d a b g => guardOk g && srcReg a && b.ok && decide (d ≠ 0#4)
  | .cmpEqImm d a _ g => guardOk g && srcReg a && decide (d ≠ 0#4)
  | .cmpNeImm d a _ g => guardOk g && srcReg a && decide (d ≠ 0#4)
  | .cmpLtImm d a _ g => guardOk g && srcReg a && decide (d ≠ 0#4)
  | .cmpGeImm d a _ g => guardOk g && srcReg a && decide (d ≠ 0#4)
  | .cmpLeImm d a _ g => guardOk g && srcReg a && decide (d ≠ 0#4)
  | .cmpGtImm d a _ g => guardOk g && srcReg a && decide (d ≠ 0#4)
  | .cmpLoImm d a _ g => guardOk g && srcReg a && decide (d ≠ 0#4)
  | .cmpHsImm d a _ g => guardOk g && srcReg a && decide (d ≠ 0#4)
  | .const d _ g => guardOk g && gReg d
  | .adda d a b g => guardOk g && dstReg d && srcReg a && b.ok
  | .suba d a b g => guardOk g && dstReg d && srcReg a && b.ok
  | .addaImm d a _ g => guardOk g && dstReg d && srcReg a
  | .subaImm d a _ g => guardOk g && dstReg d && srcReg a
  | .ptag d a b g => guardOk g && dstReg d && srcReg a && b.ok
  | .pfmt d a g => guardOk g && dstReg d && srcReg a
  | .href d a b g => guardOk g && dstReg d && srcReg a && b.ok
  | .lwin d a b g => guardOk g && dstReg d && srcReg a && b.ok
  | .lwinOwn d b g => guardOk g && dstReg d && b.ok
  | .fadd d a b g => guardOk g && dstReg d && srcReg a && b.ok
  | .fsub d a b g => guardOk g && dstReg d && srcReg a && b.ok
  | .fmul d a b g => guardOk g && dstReg d && srcReg a && b.ok
  | .fmin d a b g => guardOk g && dstReg d && srcReg a && b.ok
  | .fmax d a b g => guardOk g && dstReg d && srcReg a && b.ok
  | .ffma d a b g => guardOk g && gReg d && srcReg a && b.ok
  | .fcmpEq d a b g => guardOk g && srcReg a && b.ok && decide (d ≠ 0#4)
  | .fcmpNe d a b g => guardOk g && srcReg a && b.ok && decide (d ≠ 0#4)
  | .fcmpLt d a b g => guardOk g && srcReg a && b.ok && decide (d ≠ 0#4)
  | .fcmpLe d a b g => guardOk g && srcReg a && b.ok && decide (d ≠ 0#4)
  | .fcmpGt d a b g => guardOk g && srcReg a && b.ok && decide (d ≠ 0#4)
  | .fcmpGe d a b g => guardOk g && srcReg a && b.ok && decide (d ≠ 0#4)
  | .fcmpUn d a b g => guardOk g && srcReg a && b.ok && decide (d ≠ 0#4)
  | .fcmpOr d a b g => guardOk g && srcReg a && b.ok && decide (d ≠ 0#4)
  | .fcvtF2i d b _ g => guardOk g && dstReg d && b.ok
  | .fcvtF2n d b _ g => guardOk g && dstReg d && b.ok
  | .fcvtFint d b _ g => guardOk g && dstReg d && b.ok
  | .fcvtI2f d b g => guardOk g && dstReg d && b.ok
  | .fcvtN2f d b g => guardOk g && dstReg d && b.ok
  | .fcvtF2h d b g => guardOk g && dstReg d && b.ok
  | .fcvtH2f d b g => guardOk g && dstReg d && b.ok
  | .fcvtF2b d b g => guardOk g && dstReg d && b.ok
  | .fcvtB2f d b g => guardOk g && dstReg d && b.ok
  | .fcvtF2w d b g => guardOk g && dstReg d && b.ok
  | .fcvtW2f d b g => guardOk g && dstReg d && b.ok
  | .pand d _ _ g => guardOk g && decide (d ≠ 0#4)
  | .por d _ _ g => guardOk g && decide (d ≠ 0#4)
  | .pxor d _ _ g => guardOk g && decide (d ≠ 0#4)
  | .pnot d _ g => guardOk g && decide (d ≠ 0#4)
  | .pmov d _ g => guardOk g && decide (d ≠ 0#4)
  | .br _ g => guardOk g
  | .call _ g => guardOk g
  | .jmp b g => guardOk g && b.ok
  | .callr d b g => guardOk g && gReg d && b.ok
  | .loop d _ g => guardOk g && gReg d
  | .ldB d a _ g => guardOk g && gReg d && srcReg a
  | .ldH d a _ g => guardOk g && gReg d && srcReg a
  | .ldW d a _ g => guardOk g && gReg d && srcReg a
  | .ldD d a _ g => guardOk g && gReg d && srcReg a
  | .stB d a _ g => guardOk g && srcReg d && srcReg a
  | .stH d a _ g => guardOk g && srcReg d && srcReg a
  | .stW d a _ g => guardOk g && srcReg d && srcReg a
  | .stD d a _ g => guardOk g && srcReg d && srcReg a
  | .ldBMig d a _ g => guardOk g && gReg d && srcReg a
  | .ldHMig d a _ g => guardOk g && gReg d && srcReg a
  | .ldWMig d a _ g => guardOk g && gReg d && srcReg a
  | .ldDMig d a _ g => guardOk g && gReg d && srcReg a
  | .stBMig d a _ g => guardOk g && gReg d && srcReg a
  | .stHMig d a _ g => guardOk g && gReg d && srcReg a
  | .stWMig d a _ g => guardOk g && gReg d && srcReg a
  | .stDMig d a _ g => guardOk g && gReg d && srcReg a
  | .pref a _ g => guardOk g && srcReg a
  | .lde d a _ g => guardOk g && gReg d && srcReg a
  | .ldf d a _ g => guardOk g && gReg d && srcReg a
  | .stf d a _ g => guardOk g && srcReg d && srcReg a
  | .sts d a _ g => guardOk g && srcReg d && srcReg a
  | .clre a _ g => guardOk g && srcReg a
  | .arm d g => guardOk g && gReg d
  | .rfill d a b g => guardOk g && gReg d && srcReg a && b.ok
  | .aadd d a b g => guardOk g && gReg d && srcReg a && b.ok
  | .aminS d a b g => guardOk g && gReg d && srcReg a && b.ok
  | .aminN d a b g => guardOk g && gReg d && srcReg a && b.ok
  | .amaxS d a b g => guardOk g && gReg d && srcReg a && b.ok
  | .amaxN d a b g => guardOk g && gReg d && srcReg a && b.ok
  | .aand d a b g => guardOk g && gReg d && srcReg a && b.ok
  | .aor d a b g => guardOk g && gReg d && srcReg a && b.ok
  | .axor d a b g => guardOk g && gReg d && srcReg a && b.ok
  | .aswp d a b g => guardOk g && gReg d && srcReg a && b.ok
  | .acas d a b g => guardOk g && gReg d && srcReg a && b.ok
  | .afadd d a b g => guardOk g && gReg d && srcReg a && b.ok
  | .pst a b g => guardOk g && srcReg a && b.ok
  | .pstF a b g => guardOk g && srcReg a && b.ok
  | .waitaEq a b g => guardOk g && srcReg a && b.ok
  | .waitaNe a b g => guardOk g && srcReg a && b.ok
  | .waitaHs a b g => guardOk g && srcReg a && b.ok
  | .waitaEqT d a b g => guardOk g && gReg d && srcReg a && b.ok
  | .waitaNeT d a b g => guardOk g && gReg d && srcReg a && b.ok
  | .waitaHsT d a b g => guardOk g && gReg d && srcReg a && b.ok
  | .fenceCore g => guardOk g
  | .fenceDev g => guardOk g
  | .fenceSys g => guardOk g
  | .xfence a b g => guardOk g && srcReg a && b.ok
  | .chend g => guardOk g
  | .spawn d a b n g => guardOk g && gReg d && srcReg a && b.ok && decide (n.toNat ≤ 10) && (decide (n ≠ 0#5) || decide (d = 0#5))
  | .quit g => guardOk g
  | .yield g => guardOk g
  | .hend g => guardOk g
  | .publ g => guardOk g
  | .sdrop g => guardOk g
  | .join a b g => guardOk g && srcReg a && b.ok
  | .leave a g => guardOk g && srcReg a
  | .gbar a g => guardOk g && srcReg a
  | .migr a b g => guardOk g && srcReg a && b.ok
  | .send d a n g => guardOk g && gReg d && srcReg a && decide (1 ≤ n.toNat) && decide (n.toNat ≤ 8)
  | .watch d a g => guardOk g && gReg d && srcReg a
  | .unwatch a g => guardOk g && srcReg a
  | .launch d a g => guardOk g && gReg d && srcReg a
  | .mzero _ g => guardOk g
  | .mma _ a b g => guardOk g && gReg a && gReg b
  | .mring _ a g => guardOk g && gReg a
  | .mldb a g => guardOk g && gReg a
  | .mstore _ a g => guardOk g && gReg a
  | .maccLd _ a g => guardOk g && gReg a
  | .maccAdd _ a g => guardOk g && gReg a
  | .mcfg r a g => guardOk g && gReg a && meReg r
  | .mget r a g => guardOk g && gReg a && meReg r
  | .snormClr g => guardOk g
  | .snormA a b g => guardOk g && gReg a && gReg b
  | .snormB a b g => guardOk g && gReg a && gReg b
  | .sngetA a g => guardOk g && gReg a
  | .sngetB a g => guardOk g && gReg a
  | .snputA a g => guardOk g && gReg a
  | .snputB a g => guardOk g && gReg a
  | .salias g => guardOk g
  | .sseed a g => guardOk g && gReg a
  | .srun _ a b g => guardOk g && gReg a && gReg b
  | .svar _ a g => guardOk g && gReg a
  | .pload a b g => guardOk g && gReg a && gReg b
  | .pscore a g => guardOk g && gReg a
  | .psel a g => guardOk g && gReg a
  | .assay _ a b g => guardOk g && gReg a && gReg b
  | .aread a b g => guardOk g && gReg a && gReg b
  | .vadd _ _ _ _ g => guardOk g
  | .vsub _ _ _ _ g => guardOk g
  | .vmul _ _ _ _ g => guardOk g
  | .vfma _ _ _ _ g => guardOk g
  | .vmin _ _ _ _ g => guardOk g
  | .vmax _ _ _ _ g => guardOk g
  | .vabs _ _ _ g => guardOk g
  | .vneg _ _ _ g => guardOk g
  | .vrndRne _ _ _ g => guardOk g
  | .vrndRz _ _ _ g => guardOk g
  | .vrndRd _ _ _ g => guardOk g
  | .vrndRu _ _ _ g => guardOk g
  | .vfexp2 _ _ _ g => guardOk g
  | .vscale _ _ _ _ g => guardOk g
  | .vrcp _ _ _ g => guardOk g
  | .vrsq _ _ _ g => guardOk g
  | .vcmpEq _ _ _ _ g => guardOk g
  | .vcmpNe _ _ _ _ g => guardOk g
  | .vcmpLt _ _ _ _ g => guardOk g
  | .vcmpLe _ _ _ _ g => guardOk g
  | .vcmpGt _ _ _ _ g => guardOk g
  | .vcmpGe _ _ _ _ g => guardOk g
  | .vcmpUn _ _ _ _ g => guardOk g
  | .vcmpOr _ _ _ _ g => guardOk g
  | .vsel _ _ _ _ g => guardOk g
  | .viadd _ _ _ _ g => guardOk g
  | .visub _ _ _ _ g => guardOk g
  | .vimul _ _ _ _ g => guardOk g
  | .vand _ _ _ _ g => guardOk g
  | .vor _ _ _ _ g => guardOk g
  | .vxor _ _ _ _ g => guardOk g
  | .vshl _ _ _ _ g => guardOk g
  | .vshr _ _ _ _ g => guardOk g
  | .vshrS _ _ _ _ g => guardOk g
  | .vrsum _ _ _ g => guardOk g
  | .vnzc _ _ _ g => guardOk g
  | .vnzb _ _ _ g => guardOk g
  | .vperm _ _ _ _ g => guardOk g
  | .vslide _ _ _ _ _ g => guardOk g
  | .vcvtF2i _ _ _ g => guardOk g
  | .vcvtF2iRz _ _ _ g => guardOk g
  | .vcvtI2f _ _ _ g => guardOk g
  | .vcvtF2b _ _ _ g => guardOk g
  | .vcvtB2f _ _ _ g => guardOk g
  | .vcvtF2h _ _ _ g => guardOk g
  | .vcvtH2f _ _ _ g => guardOk g
  | .vld _ a g => guardOk g && gReg a
  | .vst _ a g => guardOk g && gReg a
  | .vlds _ a b g => guardOk g && gReg a && gReg b
  | .vldx _ a g => guardOk g && gReg a
  | .vldb _ a b g => guardOk g && gReg a && gReg b
  | .vstb _ a b g => guardOk g && gReg a && gReg b
  | .vputs _ a g => guardOk g && gReg a
  | .vgets _ a g => guardOk g && gReg a
  | .vcfg r a g => guardOk g && gReg a && decide (r.toNat ≤ 3)
  | .vget r a g => guardOk g && gReg a && decide (r.toNat ≤ 4)
  | .ccopy a b g => guardOk g && gReg a && gReg b
  | .cfill a g => guardOk g && gReg a
  | .ctcopy a b g => guardOk g && gReg a && gReg b
  | .cgather a b g => guardOk g && gReg a && gReg b
  | .cscatter a b g => guardOk g && gReg a && gReg b
  | .ccopyF a b g => guardOk g && gReg a && gReg b
  | .ccfg r a g => guardOk g && gReg a && decide (r.toNat ≤ 12)
  | .cget r a g => guardOk g && gReg a && decide (r.toNat ≤ 13)
  | .halloc a b g => guardOk g && gReg a && gReg b
  | .hfree a g => guardOk g && gReg a
  | .hwiden a b g => guardOk g && gReg a && gReg b
  | .hpin a b g => guardOk g && gReg a && gReg b
  | .hunpin a g => guardOk g && gReg a
  | .hstageA a b g => guardOk g && gReg a && gReg b
  | .hstageB a b g => guardOk g && gReg a && gReg b
  | .hstageNc a b g => guardOk g && gReg a && gReg b
  | .hstageNr a b g => guardOk g && gReg a && gReg b
  | .hinfo a b g => guardOk g && gReg a && gReg b
  | .hown a b g => guardOk g && gReg a && gReg b
  | .hsync a g => guardOk g && gReg a
  | .hopRowsum a b g => guardOk g && gReg a && gReg b
  | .hopColsum a b g => guardOk g && gReg a && gReg b
  | .hopScale a b g => guardOk g && gReg a && gReg b
  | .hopAddh a b g => guardOk g && gReg a && gReg b
  | .hopMulh a b g => guardOk g && gReg a && gReg b
  | .hopAxpy a b g => guardOk g && gReg a && gReg b
  | .hopFill a b g => guardOk g && gReg a && gReg b
  | .hopFillImg a b g => guardOk g && gReg a && gReg b
  | .hopTranspose a b g => guardOk g && gReg a && gReg b
  | .hopCopyin a b g => guardOk g && gReg a && gReg b
  | .hopCopyout a b g => guardOk g && gReg a && gReg b
  | .hopGrows a b g => guardOk g && gReg a && gReg b
  | .hopSrows a b g => guardOk g && gReg a && gReg b
  | .nmc a b g => guardOk g && gReg a && gReg b
  | .nmload a b g => guardOk g && gReg a && gReg b
  | .nmrow a b g => guardOk g && gReg a && gReg b
  | .nmstat a b g => guardOk g && gReg a && gReg b
  | .trap a g => guardOk g && gReg a
  | .tret g => guardOk g
  | .mfs r a g => guardOk g && gReg a && decide (r.toNat ≤ 15)
  | .mts r a g => guardOk g && gReg a && decide (10 ≤ r.toNat) && decide (r.toNat ≤ 14)
  | .mtsWdog a g => guardOk g && gReg a
  | .bkpt g => guardOk g
  | .idle g => guardOk g
  | .idleT a g => guardOk g && gReg a
  | .tload a b g => guardOk g && gReg a && gReg b
  | .synci a b g => guardOk g && gReg a && gReg b
  | .harvest a b g => guardOk g && gReg a && gReg b
  | .ctxswap a b g => guardOk g && gReg a && gReg b
  | .nop => true
  | .ill => true
  | .hostLaunchWrite _ _ _ => false
  | .launchAdmission _ => false
  | .threadPlacement => false
  | .localContextExchange _ _ => false
  | .engineContextExchange _ _ => false
  | .launchAgeing _ => false
  | .dispatchPreemption => false
  | .threadPreemption _ => false
  | .slotFill _ => false
  | .loadBalance _ => false
  | .spawnPacketAccept _ => false
  | .migrationDeparture _ _ _ => false
  | .migrationArrival _ _ => false
  | .replyArrival _ _ _ => false
  | .portWordDelivery _ _ _ _ => false
  | .messageArrival _ _ => false
  | .messageHandlerStart _ => false
  | .lightHandlerStart _ => false
  | .chunkCommit _ => false
  | .waitaTimeout _ _ => false
  | .idleTimeout _ _ => false
  | .barrierRelease _ _ => false
  | .fullEmptyHomeAccess _ => false
  | .remoteAccessArrival _ => false
  | .atomicApply _ => false
  | .rfillDelivery _ _ _ _ => false
  | .postedStoreApply _ _ => false
  | .postedStoreAck _ _ => false
  | .postedStoreRefusal _ _ => false
  | .faultQueueResolution _ _ _ => false
  | .fenceCompletion _ _ => false
  | .xfenceCompletion _ _ _ _ _ => false
  | .engineCommandStart _ _ => false
  | .vectorCommandCompletion _ => false
  | .matrixCommandCompletion _ => false
  | .mringStepStart _ => false
  | .tileDelivery _ => false
  | .copyCommandCompletion _ => false
  | .handleCommandAdmission _ => false
  | .handleOperationCompletion _ _ => false
  | .dresserRedress _ _ => false
  | .redressStart _ _ => false
  | .redressComplete _ _ => false
  | .tloadBuildComplete _ _ => false
  | .nmProgramStart _ => false
  | .nmProgramStop _ _ _ => false
  | .nmrowStop _ => false
  | .watchdogExpiry _ => false
  | .contextStart _ => false
  | .contextStopDispatch _ => false
  | .contextEnd _ => false
  | .hostWdogWrite _ _ => false
  | .hostErrClear _ => false
  | .hostMessagePush _ _ _ => false
  | .hostRegisterWrite _ _ => false
  | .translationInvalidation _ => false
  | .translationInvalidationComplete _ => false
  | .debugHalt _ _ => false
  | .debugView _ _ => false
  | .debugResume _ _ => false
  | .debugDetach _ => false
  | .faceFence _ => false
  | .faceFailure _ => false
  | .faceReset _ => false
  | .freezeRequest => false
  | .freezeFaceTimeout _ => false
  | .freezeComplete => false
  | .freezeResume _ => false
  | .attestationRequest => false
  | .hostCxlWrite _ _ => false
  | .hostCxlRead _ _ => false
  | .remoteDeviceAccess _ _ _ => false
  | .helvenLinkLoss _ => false
  | .linkLossTimeout _ => false
  | .stackLoss _ => false
  | .hostPortLoss _ => false
  | .thermalTrip _ _ => false
  | .moduleReset => false
  | .throttleInterval _ => false
  | .activeBankLimitChange _ _ => false
  | .ageingUpdate _ => false
  | .scrubRead _ _ => false
  | .rowDisturbanceAlert _ _ _ => false
  | .refreshWindowEnd _ => false
  | .coreCycle _ => false
  | .overlayLoadComplete _ _ => false
  | .debuggerRegisterWrite _ _ _ _ => false
  | .bedLoss => false

end Sys2Proof
end

