-- ==== Sys2Proof/Decode.lean ====
section
/-!
DEFINITION. The eight formats of an instruction word (R101), the encoder, and the decoder. The decoder picks the row of the
opcode map (R108, R109) and reads its fields; it then accepts the word only if the row's own encoding gives the word
back, so that a nonzero reserved, unused, X or Q field is refused (R102, R110), and only if the decode checks hold.
-/
namespace Sys2Proof

/-- The code of source B in its field (R107). -/
def Src.code : Src → BitVec 5
  | .reg n => n
  | .lit32 _ => 31#5
  | .lit64 _ => 30#5
/-- The literal words that follow, low word first (R107). -/
def Src.words : Src → List Half
  | .reg _ => []
  | .lit32 v => [v]
  | .lit64 v => [v.extractLsb' 0 32, v.extractLsb' 32 32]
/-- The length in bytes of an instruction with this source B (R100). -/
def Src.len : Src → Nat
  | .reg _ => 4
  | .lit32 _ => 8
  | .lit64 _ => 12

/-- The registers a B source names. -/
def Src.fields : Src → List (BitVec 5)
  | .reg n => [n]
  | _ => []

/-- T: OP D A B FN G. -/
def encT (op : BitVec 7) (d a b fn g : BitVec 5) : Half := op ++ d ++ a ++ b ++ fn ++ g
/-- I and M: OP D A IMM G. -/
def encI (op : BitVec 7) (d a : BitVec 5) (imm : BitVec 10) (g : BitVec 5) : Half := op ++ d ++ a ++ imm ++ g
/-- K: OP D C X G, X zero. -/
def encK (op : BitVec 7) (d : BitVec 5) (c : BitVec 8) (g : BitVec 5) : Half := op ++ d ++ c ++ 0#7 ++ g
/-- B: OP OFF G. -/
def encB (op : BitVec 7) (off : BitVec 20) (g : BitVec 5) : Half := op ++ off ++ g
/-- E and S: OP EOP A B Q G, Q zero. -/
def encE (op : BitVec 7) (eop : BitVec 8) (a b g : BitVec 5) : Half := op ++ eop ++ a ++ b ++ 0#2 ++ g
/-- V: OP EOP VD VA VB MS G. -/
def encV (op : BitVec 7) (eop : BitVec 6) (d a b : BitVec 4) (m : BitVec 2) (g : BitVec 5) : Half :=
  op ++ eop ++ d ++ a ++ b ++ m ++ g

/-- The words of an instruction; a device step has none. -/
def encode : Instr → List Half
  | .add d a b g => encT 0x01 d a b.code 0#5 g :: b.words
  | .sub d a b g => encT 0x01 d a b.code 1#5 g :: b.words
  | .mul d a b g => encT 0x01 d a b.code 2#5 g :: b.words
  | .mulhS d a b g => encT 0x01 d a b.code 3#5 g :: b.words
  | .mulhN d a b g => encT 0x01 d a b.code 4#5 g :: b.words
  | .divS d a b g => encT 0x01 d a b.code 5#5 g :: b.words
  | .divN d a b g => encT 0x01 d a b.code 6#5 g :: b.words
  | .remS d a b g => encT 0x01 d a b.code 7#5 g :: b.words
  | .remN d a b g => encT 0x01 d a b.code 8#5 g :: b.words
  | .minS d a b g => encT 0x01 d a b.code 9#5 g :: b.words
  | .minN d a b g => encT 0x01 d a b.code 10#5 g :: b.words
  | .maxS d a b g => encT 0x01 d a b.code 11#5 g :: b.words
  | .maxN d a b g => encT 0x01 d a b.code 12#5 g :: b.words
  | .and d a b g => encT 0x01 d a b.code 13#5 g :: b.words
  | .or d a b g => encT 0x01 d a b.code 14#5 g :: b.words
  | .xor d a b g => encT 0x01 d a b.code 15#5 g :: b.words
  | .andn d a b g => encT 0x01 d a b.code 16#5 g :: b.words
  | .shl d a b g => encT 0x01 d a b.code 17#5 g :: b.words
  | .shr d a b g => encT 0x01 d a b.code 18#5 g :: b.words
  | .sar d a b g => encT 0x01 d a b.code 19#5 g :: b.words
  | .rol d a b g => encT 0x01 d a b.code 20#5 g :: b.words
  | .addImm d a i g => [encI 0x03 d a i g]
  | .andImm d a i g => [encI 0x04 d a i g]
  | .orImm d a i g => [encI 0x05 d a i g]
  | .xorImm d a i g => [encI 0x06 d a i g]
  | .shlImm d a i g => [encI 0x07 d a i g]
  | .shrImm d a i g => [encI 0x08 d a i g]
  | .sarImm d a i g => [encI 0x09 d a i g]
  | .rolImm d a i g => [encI 0x0A d a i g]
  | .mulImm d a i g => [encI 0x0B d a i g]
  | .movImm d i g => [encI 0x0C d 0#5 i g]
  | .mov d b g => encT 0x02 d 0#5 b.code 0#5 g :: b.words
  | .neg d b g => encT 0x02 d 0#5 b.code 1#5 g :: b.words
  | .abs d b g => encT 0x02 d 0#5 b.code 2#5 g :: b.words
  | .clz d b g => encT 0x02 d 0#5 b.code 3#5 g :: b.words
  | .ctz d b g => encT 0x02 d 0#5 b.code 4#5 g :: b.words
  | .popc d b g => encT 0x02 d 0#5 b.code 5#5 g :: b.words
  | .brev d b g => encT 0x02 d 0#5 b.code 6#5 g :: b.words
  | .movCtl d b g => encT 0x02 (15#4 ++ d) 0#5 b.code 7#5 g :: b.words
  | .ext d a b g => encT 0x0D d a b.code 0#5 g :: b.words
  | .extS d a b g => encT 0x0D d a b.code 1#5 g :: b.words
  | .ins d a b g => encT 0x0D d a b.code 2#5 g :: b.words
  | .sel d a b k n g => encT 0x0E d a b.code (k ++ n) g :: b.words
  | .cmpEq d a b g => encT 0x0F (0#1 ++ d) a b.code 0#5 g :: b.words
  | .cmpNe d a b g => encT 0x0F (0#1 ++ d) a b.code 1#5 g :: b.words
  | .cmpLt d a b g => encT 0x0F (0#1 ++ d) a b.code 2#5 g :: b.words
  | .cmpGe d a b g => encT 0x0F (0#1 ++ d) a b.code 3#5 g :: b.words
  | .cmpLe d a b g => encT 0x0F (0#1 ++ d) a b.code 4#5 g :: b.words
  | .cmpGt d a b g => encT 0x0F (0#1 ++ d) a b.code 5#5 g :: b.words
  | .cmpLo d a b g => encT 0x0F (0#1 ++ d) a b.code 6#5 g :: b.words
  | .cmpHs d a b g => encT 0x0F (0#1 ++ d) a b.code 7#5 g :: b.words
  | .cmpLs d a b g => encT 0x0F (0#1 ++ d) a b.code 8#5 g :: b.words
  | .cmpHi d a b g => encT 0x0F (0#1 ++ d) a b.code 9#5 g :: b.words
  | .cmpEqImm d a i g => [encI 0x10 (0#1 ++ d) a i g]
  | .cmpNeImm d a i g => [encI 0x11 (0#1 ++ d) a i g]
  | .cmpLtImm d a i g => [encI 0x12 (0#1 ++ d) a i g]
  | .cmpGeImm d a i g => [encI 0x13 (0#1 ++ d) a i g]
  | .cmpLeImm d a i g => [encI 0x14 (0#1 ++ d) a i g]
  | .cmpGtImm d a i g => [encI 0x15 (0#1 ++ d) a i g]
  | .cmpLoImm d a i g => [encI 0x16 (0#1 ++ d) a i g]
  | .cmpHsImm d a i g => [encI 0x17 (0#1 ++ d) a i g]
  | .const d c g => [encK 0x18 d c g]
  | .adda d a b g => encT 0x19 d a b.code 0#5 g :: b.words
  | .suba d a b g => encT 0x19 d a b.code 1#5 g :: b.words
  | .addaImm d a i g => [encI 0x1A d a i g]
  | .subaImm d a i g => [encI 0x1B d a i g]
  | .ptag d a b g => encT 0x1C d a b.code 0#5 g :: b.words
  | .pfmt d a g => [encT 0x1C d a 0#5 1#5 g]
  | .href d a b g => encT 0x1D d a b.code 0#5 g :: b.words
  | .lwin d a b g => encT 0x1E d a b.code 0#5 g :: b.words
  | .lwinOwn d b g => encT 0x1E d 0#5 b.code 1#5 g :: b.words
  | .fadd d a b g => encT 0x20 d a b.code 0#5 g :: b.words
  | .fsub d a b g => encT 0x20 d a b.code 1#5 g :: b.words
  | .fmul d a b g => encT 0x20 d a b.code 2#5 g :: b.words
  | .fmin d a b g => encT 0x20 d a b.code 3#5 g :: b.words
  | .fmax d a b g => encT 0x20 d a b.code 4#5 g :: b.words
  | .ffma d a b g => encT 0x21 d a b.code 0#5 g :: b.words
  | .fcmpEq d a b g => encT 0x22 (0#1 ++ d) a b.code 0#5 g :: b.words
  | .fcmpNe d a b g => encT 0x22 (0#1 ++ d) a b.code 1#5 g :: b.words
  | .fcmpLt d a b g => encT 0x22 (0#1 ++ d) a b.code 2#5 g :: b.words
  | .fcmpLe d a b g => encT 0x22 (0#1 ++ d) a b.code 3#5 g :: b.words
  | .fcmpGt d a b g => encT 0x22 (0#1 ++ d) a b.code 4#5 g :: b.words
  | .fcmpGe d a b g => encT 0x22 (0#1 ++ d) a b.code 5#5 g :: b.words
  | .fcmpUn d a b g => encT 0x22 (0#1 ++ d) a b.code 6#5 g :: b.words
  | .fcmpOr d a b g => encT 0x22 (0#1 ++ d) a b.code 7#5 g :: b.words
  | .fcvtF2i d b m g => encT 0x23 d 0#5 b.code (0#3 ++ m) g :: b.words
  | .fcvtF2n d b m g => encT 0x23 d 0#5 b.code (1#3 ++ m) g :: b.words
  | .fcvtFint d b m g => encT 0x23 d 0#5 b.code (2#3 ++ m) g :: b.words
  | .fcvtI2f d b g => encT 0x23 d 0#5 b.code 12#5 g :: b.words
  | .fcvtN2f d b g => encT 0x23 d 0#5 b.code 13#5 g :: b.words
  | .fcvtF2h d b g => encT 0x23 d 0#5 b.code 14#5 g :: b.words
  | .fcvtH2f d b g => encT 0x23 d 0#5 b.code 15#5 g :: b.words
  | .fcvtF2b d b g => encT 0x23 d 0#5 b.code 16#5 g :: b.words
  | .fcvtB2f d b g => encT 0x23 d 0#5 b.code 17#5 g :: b.words
  | .fcvtF2w d b g => encT 0x23 d 0#5 b.code 18#5 g :: b.words
  | .fcvtW2f d b g => encT 0x23 d 0#5 b.code 19#5 g :: b.words
  | .pand d a b g => [encT 0x2C (0#1 ++ d) (0#1 ++ a) (0#1 ++ b) 0#5 g]
  | .por d a b g => [encT 0x2C (0#1 ++ d) (0#1 ++ a) (0#1 ++ b) 1#5 g]
  | .pxor d a b g => [encT 0x2C (0#1 ++ d) (0#1 ++ a) (0#1 ++ b) 2#5 g]
  | .pnot d a g => [encT 0x2C (0#1 ++ d) (0#1 ++ a) 0#5 3#5 g]
  | .pmov d a g => [encT 0x2C (0#1 ++ d) (0#1 ++ a) 0#5 4#5 g]
  | .br o g => [encB 0x2D o g]
  | .call o g => [encB 0x2E o g]
  | .jmp b g => encT 0x2F 0#5 0#5 b.code 0#5 g :: b.words
  | .callr d b g => encT 0x30 d 0#5 b.code 0#5 g :: b.words
  | .loop d i g => [encI 0x31 d 0#5 i g]
  | .ldB d a i g => [encI 0x3C d a i g]
  | .ldH d a i g => [encI 0x3D d a i g]
  | .ldW d a i g => [encI 0x3E d a i g]
  | .ldD d a i g => [encI 0x3F d a i g]
  | .stB d a i g => [encI 0x40 d a i g]
  | .stH d a i g => [encI 0x41 d a i g]
  | .stW d a i g => [encI 0x42 d a i g]
  | .stD d a i g => [encI 0x43 d a i g]
  | .ldBMig d a i g => [encI 0x44 d a i g]
  | .ldHMig d a i g => [encI 0x45 d a i g]
  | .ldWMig d a i g => [encI 0x46 d a i g]
  | .ldDMig d a i g => [encI 0x47 d a i g]
  | .stBMig d a i g => [encI 0x48 d a i g]
  | .stHMig d a i g => [encI 0x49 d a i g]
  | .stWMig d a i g => [encI 0x4A d a i g]
  | .stDMig d a i g => [encI 0x4B d a i g]
  | .pref a i g => [encI 0x4C 0#5 a i g]
  | .lde d a i g => [encI 0x4D d a i g]
  | .ldf d a i g => [encI 0x4E d a i g]
  | .stf d a i g => [encI 0x4F d a i g]
  | .sts d a i g => [encI 0x50 d a i g]
  | .clre a i g => [encI 0x51 0#5 a i g]
  | .arm d g => [encT 0x52 d 0#5 0#5 0#5 g]
  | .rfill d a b g => encT 0x52 d a b.code 1#5 g :: b.words
  | .aadd d a b g => encT 0x53 d a b.code 0#5 g :: b.words
  | .aminS d a b g => encT 0x53 d a b.code 1#5 g :: b.words
  | .aminN d a b g => encT 0x53 d a b.code 2#5 g :: b.words
  | .amaxS d a b g => encT 0x53 d a b.code 3#5 g :: b.words
  | .amaxN d a b g => encT 0x53 d a b.code 4#5 g :: b.words
  | .aand d a b g => encT 0x53 d a b.code 5#5 g :: b.words
  | .aor d a b g => encT 0x53 d a b.code 6#5 g :: b.words
  | .axor d a b g => encT 0x53 d a b.code 7#5 g :: b.words
  | .aswp d a b g => encT 0x53 d a b.code 8#5 g :: b.words
  | .acas d a b g => encT 0x53 d a b.code 9#5 g :: b.words
  | .afadd d a b g => encT 0x53 d a b.code 10#5 g :: b.words
  | .pst a b g => encT 0x54 0#5 a b.code 0#5 g :: b.words
  | .pstF a b g => encT 0x54 0#5 a b.code 1#5 g :: b.words
  | .waitaEq a b g => encT 0x55 0#5 a b.code 0#5 g :: b.words
  | .waitaNe a b g => encT 0x55 0#5 a b.code 1#5 g :: b.words
  | .waitaHs a b g => encT 0x55 0#5 a b.code 2#5 g :: b.words
  | .waitaEqT d a b g => encT 0x55 d a b.code 16#5 g :: b.words
  | .waitaNeT d a b g => encT 0x55 d a b.code 17#5 g :: b.words
  | .waitaHsT d a b g => encT 0x55 d a b.code 18#5 g :: b.words
  | .fenceCore g => [encT 0x56 0#5 0#5 0#5 0#5 g]
  | .fenceDev g => [encT 0x56 0#5 0#5 0#5 1#5 g]
  | .fenceSys g => [encT 0x56 0#5 0#5 0#5 2#5 g]
  | .xfence a b g => encT 0x56 0#5 a b.code 3#5 g :: b.words
  | .chend g => [encT 0x56 0#5 0#5 0#5 4#5 g]
  | .spawn d a b n g => encT 0x58 d a b.code n g :: b.words
  | .quit g => [encT 0x59 0#5 0#5 0#5 0#5 g]
  | .yield g => [encT 0x59 0#5 0#5 0#5 1#5 g]
  | .hend g => [encT 0x59 0#5 0#5 0#5 2#5 g]
  | .publ g => [encT 0x59 0#5 0#5 0#5 3#5 g]
  | .sdrop g => [encT 0x59 0#5 0#5 0#5 4#5 g]
  | .join a b g => encT 0x5A 0#5 a b.code 0#5 g :: b.words
  | .leave a g => [encT 0x5A 0#5 a 0#5 1#5 g]
  | .gbar a g => [encT 0x5A 0#5 a 0#5 2#5 g]
  | .migr a b g => encT 0x5B 0#5 a b.code 0#5 g :: b.words
  | .send d a n g => [encT 0x5C d a 0#5 n g]
  | .watch d a g => [encT 0x5D d a 0#5 0#5 g]
  | .unwatch a g => [encT 0x5D 0#5 a 0#5 1#5 g]
  | .launch d a g => [encT 0x5E d a 0#5 0#5 g]
  | .mzero x g => [encE 0x60 (0#7 ++ x) 0#5 0#5 g]
  | .mma x a b g => [encE 0x60 (1#7 ++ x) a b g]
  | .mring x a g => [encE 0x60 (2#7 ++ x) a 0#5 g]
  | .mldb a g => [encE 0x60 6#8 a 0#5 g]
  | .mstore x a g => [encE 0x60 (4#7 ++ x) a 0#5 g]
  | .maccLd x a g => [encE 0x60 (5#7 ++ x) a 0#5 g]
  | .maccAdd x a g => [encE 0x60 (6#7 ++ x) a 0#5 g]
  | .mcfg r a g => [encE 0x60 (2#2 ++ r) a 0#5 g]
  | .mget r a g => [encE 0x60 (3#2 ++ r) a 0#5 g]
  | .snormClr g => [encE 0x61 0#8 0#5 0#5 g]
  | .snormA a b g => [encE 0x61 2#8 a b g]
  | .snormB a b g => [encE 0x61 3#8 a b g]
  | .sngetA a g => [encE 0x61 4#8 a 0#5 g]
  | .sngetB a g => [encE 0x61 5#8 a 0#5 g]
  | .snputA a g => [encE 0x61 6#8 a 0#5 g]
  | .snputB a g => [encE 0x61 7#8 a 0#5 g]
  | .salias g => [encE 0x61 8#8 0#5 0#5 g]
  | .sseed a g => [encE 0x61 9#8 a 0#5 g]
  | .srun x a b g => [encE 0x61 (5#7 ++ x) a b g]
  | .svar x a g => [encE 0x61 (6#7 ++ x) a 0#5 g]
  | .pload a b g => [encE 0x61 16#8 a b g]
  | .pscore a g => [encE 0x61 17#8 a 0#5 g]
  | .psel a g => [encE 0x61 18#8 a 0#5 g]
  | .assay x a b g => [encE 0x61 (10#7 ++ x) a b g]
  | .aread a b g => [encE 0x61 22#8 a b g]
  | .vadd d a b m g => [encV 0x62 0#6 d a b m g]
  | .vsub d a b m g => [encV 0x62 1#6 d a b m g]
  | .vmul d a b m g => [encV 0x62 2#6 d a b m g]
  | .vfma d a b m g => [encV 0x62 3#6 d a b m g]
  | .vmin d a b m g => [encV 0x62 4#6 d a b m g]
  | .vmax d a b m g => [encV 0x62 5#6 d a b m g]
  | .vabs d a m g => [encV 0x62 6#6 d a 0#4 m g]
  | .vneg d a m g => [encV 0x62 7#6 d a 0#4 m g]
  | .vrndRne d a m g => [encV 0x62 8#6 d a 0#4 m g]
  | .vrndRz d a m g => [encV 0x62 9#6 d a 0#4 m g]
  | .vrndRd d a m g => [encV 0x62 10#6 d a 0#4 m g]
  | .vrndRu d a m g => [encV 0x62 11#6 d a 0#4 m g]
  | .vfexp2 d a m g => [encV 0x62 12#6 d a 0#4 m g]
  | .vscale d a b m g => [encV 0x62 13#6 d a b m g]
  | .vrcp d a m g => [encV 0x62 14#6 d a 0#4 m g]
  | .vrsq d a m g => [encV 0x62 15#6 d a 0#4 m g]
  | .vcmpEq d a b m g => [encV 0x62 16#6 (0#2 ++ d) a b m g]
  | .vcmpNe d a b m g => [encV 0x62 17#6 (0#2 ++ d) a b m g]
  | .vcmpLt d a b m g => [encV 0x62 18#6 (0#2 ++ d) a b m g]
  | .vcmpLe d a b m g => [encV 0x62 19#6 (0#2 ++ d) a b m g]
  | .vcmpGt d a b m g => [encV 0x62 20#6 (0#2 ++ d) a b m g]
  | .vcmpGe d a b m g => [encV 0x62 21#6 (0#2 ++ d) a b m g]
  | .vcmpUn d a b m g => [encV 0x62 22#6 (0#2 ++ d) a b m g]
  | .vcmpOr d a b m g => [encV 0x62 23#6 (0#2 ++ d) a b m g]
  | .vsel d a b m g => [encV 0x62 24#6 d a b m g]
  | .viadd d a b m g => [encV 0x62 25#6 d a b m g]
  | .visub d a b m g => [encV 0x62 26#6 d a b m g]
  | .vimul d a b m g => [encV 0x62 27#6 d a b m g]
  | .vand d a b m g => [encV 0x62 28#6 d a b m g]
  | .vor d a b m g => [encV 0x62 29#6 d a b m g]
  | .vxor d a b m g => [encV 0x62 30#6 d a b m g]
  | .vshl d a b m g => [encV 0x62 31#6 d a b m g]
  | .vshr d a b m g => [encV 0x62 32#6 d a b m g]
  | .vshrS d a b m g => [encV 0x62 33#6 d a b m g]
  | .vrsum d a m g => [encV 0x62 34#6 d a 0#4 m g]
  | .vnzc d a m g => [encV 0x62 35#6 d a 0#4 m g]
  | .vnzb d a m g => [encV 0x62 36#6 d a 0#4 m g]
  | .vperm d a b m g => [encV 0x62 37#6 d a b m g]
  | .vslide k d a b m g => [encV 0x62 (38#6 + k.setWidth 6) d a b m g]
  | .vcvtF2i d a m g => [encV 0x62 54#6 d a 0#4 m g]
  | .vcvtF2iRz d a m g => [encV 0x62 55#6 d a 0#4 m g]
  | .vcvtI2f d a m g => [encV 0x62 56#6 d a 0#4 m g]
  | .vcvtF2b d a m g => [encV 0x62 57#6 d a 0#4 m g]
  | .vcvtB2f d a m g => [encV 0x62 58#6 d a 0#4 m g]
  | .vcvtF2h d a m g => [encV 0x62 59#6 d a 0#4 m g]
  | .vcvtH2f d a m g => [encV 0x62 60#6 d a 0#4 m g]
  | .vld v a g => [encE 0x63 (0#4 ++ v) a 0#5 g]
  | .vst v a g => [encE 0x63 (1#4 ++ v) a 0#5 g]
  | .vlds v a b g => [encE 0x63 (2#4 ++ v) a b g]
  | .vldx v a g => [encE 0x63 (3#4 ++ v) a 0#5 g]
  | .vldb v a b g => [encE 0x63 (4#4 ++ v) a b g]
  | .vstb v a b g => [encE 0x63 (5#4 ++ v) a b g]
  | .vputs v a g => [encE 0x63 (6#4 ++ v) a 0#5 g]
  | .vgets v a g => [encE 0x63 (7#4 ++ v) a 0#5 g]
  | .vcfg r a g => [encE 0x63 (2#2 ++ r) a 0#5 g]
  | .vget r a g => [encE 0x63 (3#2 ++ r) a 0#5 g]
  | .ccopy a b g => [encE 0x64 0#8 a b g]
  | .cfill a g => [encE 0x64 1#8 a 0#5 g]
  | .ctcopy a b g => [encE 0x64 2#8 a b g]
  | .cgather a b g => [encE 0x64 3#8 a b g]
  | .cscatter a b g => [encE 0x64 4#8 a b g]
  | .ccopyF a b g => [encE 0x64 5#8 a b g]
  | .ccfg r a g => [encE 0x64 (2#2 ++ r) a 0#5 g]
  | .cget r a g => [encE 0x64 (3#2 ++ r) a 0#5 g]
  | .halloc a b g => [encE 0x65 0#8 a b g]
  | .hfree a g => [encE 0x65 1#8 a 0#5 g]
  | .hwiden a b g => [encE 0x65 2#8 a b g]
  | .hpin a b g => [encE 0x65 3#8 a b g]
  | .hunpin a g => [encE 0x65 4#8 a 0#5 g]
  | .hstageA a b g => [encE 0x65 5#8 a b g]
  | .hstageB a b g => [encE 0x65 6#8 a b g]
  | .hstageNc a b g => [encE 0x65 7#8 a b g]
  | .hstageNr a b g => [encE 0x65 8#8 a b g]
  | .hinfo a b g => [encE 0x65 9#8 a b g]
  | .hown a b g => [encE 0x65 10#8 a b g]
  | .hsync a g => [encE 0x65 11#8 a 0#5 g]
  | .hopRowsum a b g => [encE 0x65 16#8 a b g]
  | .hopColsum a b g => [encE 0x65 17#8 a b g]
  | .hopScale a b g => [encE 0x65 18#8 a b g]
  | .hopAddh a b g => [encE 0x65 19#8 a b g]
  | .hopMulh a b g => [encE 0x65 20#8 a b g]
  | .hopAxpy a b g => [encE 0x65 21#8 a b g]
  | .hopFill a b g => [encE 0x65 22#8 a b g]
  | .hopFillImg a b g => [encE 0x65 23#8 a b g]
  | .hopTranspose a b g => [encE 0x65 24#8 a b g]
  | .hopCopyin a b g => [encE 0x65 25#8 a b g]
  | .hopCopyout a b g => [encE 0x65 26#8 a b g]
  | .hopGrows a b g => [encE 0x65 27#8 a b g]
  | .hopSrows a b g => [encE 0x65 28#8 a b g]
  | .nmc a b g => [encE 0x66 0#8 a b g]
  | .nmload a b g => [encE 0x66 1#8 a b g]
  | .nmrow a b g => [encE 0x66 2#8 a b g]
  | .nmstat a b g => [encE 0x66 3#8 a b g]
  | .trap a g => [encE 0x70 0#8 a 0#5 g]
  | .tret g => [encE 0x70 1#8 0#5 0#5 g]
  | .mfs r a g => [encE 0x71 r a 0#5 g]
  | .mts r a g => [encE 0x72 r a 0#5 g]
  | .mtsWdog a g => [encE 0x72 15#8 a 0#5 g]
  | .bkpt g => [encE 0x73 0#8 0#5 0#5 g]
  | .idle g => [encE 0x74 0#8 0#5 0#5 g]
  | .idleT a g => [encE 0x74 1#8 a 0#5 g]
  | .tload a b g => [encE 0x75 0#8 a b g]
  | .synci a b g => [encE 0x76 0#8 a b g]
  | .harvest a b g => [encE 0x77 0#8 a b g]
  | .ctxswap a b g => [encE 0x78 0#8 a b g]
  | .nop => [0xF2000000#32]
  | .ill => [0x00000000#32]
  | .hostLaunchWrite _ _ _ => []
  | .launchAdmission _ => []
  | .threadPlacement => []
  | .localContextExchange _ _ => []
  | .engineContextExchange _ _ => []
  | .launchAgeing _ => []
  | .dispatchPreemption => []
  | .threadPreemption _ => []
  | .slotFill _ => []
  | .loadBalance _ => []
  | .spawnPacketAccept _ => []
  | .migrationDeparture _ _ _ => []
  | .migrationArrival _ _ => []
  | .replyArrival _ _ _ => []
  | .portWordDelivery _ _ _ _ => []
  | .messageArrival _ _ => []
  | .messageHandlerStart _ => []
  | .lightHandlerStart _ => []
  | .chunkCommit _ => []
  | .waitaTimeout _ _ => []
  | .idleTimeout _ _ => []
  | .barrierRelease _ _ => []
  | .fullEmptyHomeAccess _ => []
  | .remoteAccessArrival _ => []
  | .atomicApply _ => []
  | .rfillDelivery _ _ _ _ => []
  | .postedStoreApply _ _ => []
  | .postedStoreAck _ _ => []
  | .postedStoreRefusal _ _ => []
  | .faultQueueResolution _ _ _ => []
  | .fenceCompletion _ _ => []
  | .xfenceCompletion _ _ _ _ _ => []
  | .engineCommandStart _ _ => []
  | .vectorCommandCompletion _ => []
  | .matrixCommandCompletion _ => []
  | .mringStepStart _ => []
  | .tileDelivery _ => []
  | .copyCommandCompletion _ => []
  | .handleCommandAdmission _ => []
  | .handleOperationCompletion _ _ => []
  | .dresserRedress _ _ => []
  | .redressStart _ _ => []
  | .redressComplete _ _ => []
  | .tloadBuildComplete _ _ => []
  | .nmProgramStart _ => []
  | .nmProgramStop _ _ _ => []
  | .nmrowStop _ => []
  | .watchdogExpiry _ => []
  | .contextStart _ => []
  | .contextStopDispatch _ => []
  | .contextEnd _ => []
  | .hostWdogWrite _ _ => []
  | .hostErrClear _ => []
  | .hostMessagePush _ _ _ => []
  | .hostRegisterWrite _ _ => []
  | .translationInvalidation _ => []
  | .translationInvalidationComplete _ => []
  | .debugHalt _ _ => []
  | .debugView _ _ => []
  | .debugResume _ _ => []
  | .debugDetach _ => []
  | .faceFence _ => []
  | .faceFailure _ => []
  | .faceReset _ => []
  | .freezeRequest => []
  | .freezeFaceTimeout _ => []
  | .freezeComplete => []
  | .freezeResume _ => []
  | .attestationRequest => []
  | .hostCxlWrite _ _ => []
  | .hostCxlRead _ _ => []
  | .remoteDeviceAccess _ _ _ => []
  | .helvenLinkLoss _ => []
  | .linkLossTimeout _ => []
  | .stackLoss _ => []
  | .hostPortLoss _ => []
  | .thermalTrip _ _ => []
  | .moduleReset => []
  | .throttleInterval _ => []
  | .activeBankLimitChange _ _ => []
  | .ageingUpdate _ => []
  | .scrubRead _ _ => []
  | .rowDisturbanceAlert _ _ _ => []
  | .refreshWindowEnd _ => []
  | .coreCycle _ => []
  | .overlayLoadComplete _ _ => []
  | .debuggerRegisterWrite _ _ _ _ => []
  | .bedLoss => []

/-- Source B from its field and the two words that follow (R107). -/
def srcOf (b : BitVec 5) (l1 l2 : Half) : Src :=
  if b = 31#5 then .lit32 l1 else if b = 30#5 then .lit64 (l2 ++ l1) else .reg b

/-- OP. -/
def fOp (w : Half) : BitVec 7 := w.extractLsb' 25 7
/-- D. -/
def fD (w : Half) : BitVec 5 := w.extractLsb' 20 5
/-- A of T, I and M. -/
def fA (w : Half) : BitVec 5 := w.extractLsb' 15 5
/-- B of T. -/
def fB (w : Half) : BitVec 5 := w.extractLsb' 10 5
/-- FN of T. -/
def fFn (w : Half) : BitVec 5 := w.extractLsb' 5 5
/-- G. -/
def fG (w : Half) : BitVec 5 := w.extractLsb' 0 5
/-- IMM of I and M. -/
def fImm (w : Half) : BitVec 10 := w.extractLsb' 5 10
/-- C of K. -/
def fC (w : Half) : BitVec 8 := w.extractLsb' 12 8
/-- OFF of B. -/
def fOff (w : Half) : BitVec 20 := w.extractLsb' 5 20
/-- EOP of E and S. -/
def fEop (w : Half) : BitVec 8 := w.extractLsb' 17 8
/-- A of E and S. -/
def fEa (w : Half) : BitVec 5 := w.extractLsb' 12 5
/-- B of E and S. -/
def fEb (w : Half) : BitVec 5 := w.extractLsb' 7 5
/-- EOP of V. -/
def fVop (w : Half) : BitVec 6 := w.extractLsb' 19 6
/-- VD. -/
def fVd (w : Half) : BitVec 4 := w.extractLsb' 15 4
/-- VA. -/
def fVa (w : Half) : BitVec 4 := w.extractLsb' 11 4
/-- VB. -/
def fVb (w : Half) : BitVec 4 := w.extractLsb' 7 4
/-- MS. -/
def fVm (w : Half) : BitVec 2 := w.extractLsb' 5 2

/-- The forms of opcode 0x01. -/
def decode01 (w l1 l2 : Half) : Option Instr :=
  match (fFn w).toNat with
  | 0 => some (.add (fD w) (fA w) (srcOf (fB w) l1 l2) (fG w))
  | 1 => some (.sub (fD w) (fA w) (srcOf (fB w) l1 l2) (fG w))
  | 2 => some (.mul (fD w) (fA w) (srcOf (fB w) l1 l2) (fG w))
  | 3 => some (.mulhS (fD w) (fA w) (srcOf (fB w) l1 l2) (fG w))
  | 4 => some (.mulhN (fD w) (fA w) (srcOf (fB w) l1 l2) (fG w))
  | 5 => some (.divS (fD w) (fA w) (srcOf (fB w) l1 l2) (fG w))
  | 6 => some (.divN (fD w) (fA w) (srcOf (fB w) l1 l2) (fG w))
  | 7 => some (.remS (fD w) (fA w) (srcOf (fB w) l1 l2) (fG w))
  | 8 => some (.remN (fD w) (fA w) (srcOf (fB w) l1 l2) (fG w))
  | 9 => some (.minS (fD w) (fA w) (srcOf (fB w) l1 l2) (fG w))
  | 10 => some (.minN (fD w) (fA w) (srcOf (fB w) l1 l2) (fG w))
  | 11 => some (.maxS (fD w) (fA w) (srcOf (fB w) l1 l2) (fG w))
  | 12 => some (.maxN (fD w) (fA w) (srcOf (fB w) l1 l2) (fG w))
  | 13 => some (.and (fD w) (fA w) (srcOf (fB w) l1 l2) (fG w))
  | 14 => some (.or (fD w) (fA w) (srcOf (fB w) l1 l2) (fG w))
  | 15 => some (.xor (fD w) (fA w) (srcOf (fB w) l1 l2) (fG w))
  | 16 => some (.andn (fD w) (fA w) (srcOf (fB w) l1 l2) (fG w))
  | 17 => some (.shl (fD w) (fA w) (srcOf (fB w) l1 l2) (fG w))
  | 18 => some (.shr (fD w) (fA w) (srcOf (fB w) l1 l2) (fG w))
  | 19 => some (.sar (fD w) (fA w) (srcOf (fB w) l1 l2) (fG w))
  | 20 => some (.rol (fD w) (fA w) (srcOf (fB w) l1 l2) (fG w))
  | _ => none

/-- The forms of opcode 0x02. -/
def decode02 (w l1 l2 : Half) : Option Instr :=
  match (fFn w).toNat with
  | 0 => some (.mov (fD w) (srcOf (fB w) l1 l2) (fG w))
  | 1 => some (.neg (fD w) (srcOf (fB w) l1 l2) (fG w))
  | 2 => some (.abs (fD w) (srcOf (fB w) l1 l2) (fG w))
  | 3 => some (.clz (fD w) (srcOf (fB w) l1 l2) (fG w))
  | 4 => some (.ctz (fD w) (srcOf (fB w) l1 l2) (fG w))
  | 5 => some (.popc (fD w) (srcOf (fB w) l1 l2) (fG w))
  | 6 => some (.brev (fD w) (srcOf (fB w) l1 l2) (fG w))
  | 7 => some (.movCtl ((fD w).extractLsb' 0 1) (srcOf (fB w) l1 l2) (fG w))
  | _ => none

/-- The forms of opcode 0x0D. -/
def decode0D (w l1 l2 : Half) : Option Instr :=
  match (fFn w).toNat with
  | 0 => some (.ext (fD w) (fA w) (srcOf (fB w) l1 l2) (fG w))
  | 1 => some (.extS (fD w) (fA w) (srcOf (fB w) l1 l2) (fG w))
  | 2 => some (.ins (fD w) (fA w) (srcOf (fB w) l1 l2) (fG w))
  | _ => none

/-- The forms of opcode 0x0F. -/
def decode0F (w l1 l2 : Half) : Option Instr :=
  match (fFn w).toNat with
  | 0 => some (.cmpEq ((fD w).extractLsb' 0 4) (fA w) (srcOf (fB w) l1 l2) (fG w))
  | 1 => some (.cmpNe ((fD w).extractLsb' 0 4) (fA w) (srcOf (fB w) l1 l2) (fG w))
  | 2 => some (.cmpLt ((fD w).extractLsb' 0 4) (fA w) (srcOf (fB w) l1 l2) (fG w))
  | 3 => some (.cmpGe ((fD w).extractLsb' 0 4) (fA w) (srcOf (fB w) l1 l2) (fG w))
  | 4 => some (.cmpLe ((fD w).extractLsb' 0 4) (fA w) (srcOf (fB w) l1 l2) (fG w))
  | 5 => some (.cmpGt ((fD w).extractLsb' 0 4) (fA w) (srcOf (fB w) l1 l2) (fG w))
  | 6 => some (.cmpLo ((fD w).extractLsb' 0 4) (fA w) (srcOf (fB w) l1 l2) (fG w))
  | 7 => some (.cmpHs ((fD w).extractLsb' 0 4) (fA w) (srcOf (fB w) l1 l2) (fG w))
  | 8 => some (.cmpLs ((fD w).extractLsb' 0 4) (fA w) (srcOf (fB w) l1 l2) (fG w))
  | 9 => some (.cmpHi ((fD w).extractLsb' 0 4) (fA w) (srcOf (fB w) l1 l2) (fG w))
  | _ => none

/-- The forms of opcode 0x19. -/
def decode19 (w l1 l2 : Half) : Option Instr :=
  match (fFn w).toNat with
  | 0 => some (.adda (fD w) (fA w) (srcOf (fB w) l1 l2) (fG w))
  | 1 => some (.suba (fD w) (fA w) (srcOf (fB w) l1 l2) (fG w))
  | _ => none

/-- The forms of opcode 0x1C. -/
def decode1C (w l1 l2 : Half) : Option Instr :=
  match (fFn w).toNat with
  | 0 => some (.ptag (fD w) (fA w) (srcOf (fB w) l1 l2) (fG w))
  | 1 => some (.pfmt (fD w) (fA w) (fG w))
  | _ => none

/-- The forms of opcode 0x1E. -/
def decode1E (w l1 l2 : Half) : Option Instr :=
  match (fFn w).toNat with
  | 0 => some (.lwin (fD w) (fA w) (srcOf (fB w) l1 l2) (fG w))
  | 1 => some (.lwinOwn (fD w) (srcOf (fB w) l1 l2) (fG w))
  | _ => none

/-- The forms of opcode 0x20. -/
def decode20 (w l1 l2 : Half) : Option Instr :=
  match (fFn w).toNat with
  | 0 => some (.fadd (fD w) (fA w) (srcOf (fB w) l1 l2) (fG w))
  | 1 => some (.fsub (fD w) (fA w) (srcOf (fB w) l1 l2) (fG w))
  | 2 => some (.fmul (fD w) (fA w) (srcOf (fB w) l1 l2) (fG w))
  | 3 => some (.fmin (fD w) (fA w) (srcOf (fB w) l1 l2) (fG w))
  | 4 => some (.fmax (fD w) (fA w) (srcOf (fB w) l1 l2) (fG w))
  | _ => none

/-- The forms of opcode 0x22. -/
def decode22 (w l1 l2 : Half) : Option Instr :=
  match (fFn w).toNat with
  | 0 => some (.fcmpEq ((fD w).extractLsb' 0 4) (fA w) (srcOf (fB w) l1 l2) (fG w))
  | 1 => some (.fcmpNe ((fD w).extractLsb' 0 4) (fA w) (srcOf (fB w) l1 l2) (fG w))
  | 2 => some (.fcmpLt ((fD w).extractLsb' 0 4) (fA w) (srcOf (fB w) l1 l2) (fG w))
  | 3 => some (.fcmpLe ((fD w).extractLsb' 0 4) (fA w) (srcOf (fB w) l1 l2) (fG w))
  | 4 => some (.fcmpGt ((fD w).extractLsb' 0 4) (fA w) (srcOf (fB w) l1 l2) (fG w))
  | 5 => some (.fcmpGe ((fD w).extractLsb' 0 4) (fA w) (srcOf (fB w) l1 l2) (fG w))
  | 6 => some (.fcmpUn ((fD w).extractLsb' 0 4) (fA w) (srcOf (fB w) l1 l2) (fG w))
  | 7 => some (.fcmpOr ((fD w).extractLsb' 0 4) (fA w) (srcOf (fB w) l1 l2) (fG w))
  | _ => none

/-- The forms of opcode 0x23. -/
def decode23 (w l1 l2 : Half) : Option Instr :=
  match ((fFn w).extractLsb' 2 3).toNat with
  | 0 => some (.fcvtF2i (fD w) (srcOf (fB w) l1 l2) ((fFn w).extractLsb' 0 2) (fG w))
  | 1 => some (.fcvtF2n (fD w) (srcOf (fB w) l1 l2) ((fFn w).extractLsb' 0 2) (fG w))
  | 2 => some (.fcvtFint (fD w) (srcOf (fB w) l1 l2) ((fFn w).extractLsb' 0 2) (fG w))
  | 3 =>
    match ((fFn w).extractLsb' 0 2).toNat with
    | 0 => some (.fcvtI2f (fD w) (srcOf (fB w) l1 l2) (fG w))
    | 1 => some (.fcvtN2f (fD w) (srcOf (fB w) l1 l2) (fG w))
    | 2 => some (.fcvtF2h (fD w) (srcOf (fB w) l1 l2) (fG w))
    | _ => some (.fcvtH2f (fD w) (srcOf (fB w) l1 l2) (fG w))
  | 4 =>
    match ((fFn w).extractLsb' 0 2).toNat with
    | 0 => some (.fcvtF2b (fD w) (srcOf (fB w) l1 l2) (fG w))
    | 1 => some (.fcvtB2f (fD w) (srcOf (fB w) l1 l2) (fG w))
    | 2 => some (.fcvtF2w (fD w) (srcOf (fB w) l1 l2) (fG w))
    | _ => some (.fcvtW2f (fD w) (srcOf (fB w) l1 l2) (fG w))
  | _ => none

/-- The forms of opcode 0x2C. -/
def decode2C (w : Half) : Option Instr :=
  match (fFn w).toNat with
  | 0 => some (.pand ((fD w).extractLsb' 0 4) ((fA w).extractLsb' 0 4) ((fB w).extractLsb' 0 4) (fG w))
  | 1 => some (.por ((fD w).extractLsb' 0 4) ((fA w).extractLsb' 0 4) ((fB w).extractLsb' 0 4) (fG w))
  | 2 => some (.pxor ((fD w).extractLsb' 0 4) ((fA w).extractLsb' 0 4) ((fB w).extractLsb' 0 4) (fG w))
  | 3 => some (.pnot ((fD w).extractLsb' 0 4) ((fA w).extractLsb' 0 4) (fG w))
  | 4 => some (.pmov ((fD w).extractLsb' 0 4) ((fA w).extractLsb' 0 4) (fG w))
  | _ => none

/-- The forms of opcode 0x52. -/
def decode52 (w l1 l2 : Half) : Option Instr :=
  match (fFn w).toNat with
  | 0 => some (.arm (fD w) (fG w))
  | 1 => some (.rfill (fD w) (fA w) (srcOf (fB w) l1 l2) (fG w))
  | _ => none

/-- The forms of opcode 0x53. -/
def decode53 (w l1 l2 : Half) : Option Instr :=
  match (fFn w).toNat with
  | 0 => some (.aadd (fD w) (fA w) (srcOf (fB w) l1 l2) (fG w))
  | 1 => some (.aminS (fD w) (fA w) (srcOf (fB w) l1 l2) (fG w))
  | 2 => some (.aminN (fD w) (fA w) (srcOf (fB w) l1 l2) (fG w))
  | 3 => some (.amaxS (fD w) (fA w) (srcOf (fB w) l1 l2) (fG w))
  | 4 => some (.amaxN (fD w) (fA w) (srcOf (fB w) l1 l2) (fG w))
  | 5 => some (.aand (fD w) (fA w) (srcOf (fB w) l1 l2) (fG w))
  | 6 => some (.aor (fD w) (fA w) (srcOf (fB w) l1 l2) (fG w))
  | 7 => some (.axor (fD w) (fA w) (srcOf (fB w) l1 l2) (fG w))
  | 8 => some (.aswp (fD w) (fA w) (srcOf (fB w) l1 l2) (fG w))
  | 9 => some (.acas (fD w) (fA w) (srcOf (fB w) l1 l2) (fG w))
  | 10 => some (.afadd (fD w) (fA w) (srcOf (fB w) l1 l2) (fG w))
  | _ => none

/-- The forms of opcode 0x54. -/
def decode54 (w l1 l2 : Half) : Option Instr :=
  match (fFn w).toNat with
  | 0 => some (.pst (fA w) (srcOf (fB w) l1 l2) (fG w))
  | 1 => some (.pstF (fA w) (srcOf (fB w) l1 l2) (fG w))
  | _ => none

/-- The forms of opcode 0x55. -/
def decode55 (w l1 l2 : Half) : Option Instr :=
  match (fFn w).toNat with
  | 0 => some (.waitaEq (fA w) (srcOf (fB w) l1 l2) (fG w))
  | 1 => some (.waitaNe (fA w) (srcOf (fB w) l1 l2) (fG w))
  | 2 => some (.waitaHs (fA w) (srcOf (fB w) l1 l2) (fG w))
  | 16 => some (.waitaEqT (fD w) (fA w) (srcOf (fB w) l1 l2) (fG w))
  | 17 => some (.waitaNeT (fD w) (fA w) (srcOf (fB w) l1 l2) (fG w))
  | 18 => some (.waitaHsT (fD w) (fA w) (srcOf (fB w) l1 l2) (fG w))
  | _ => none

/-- The forms of opcode 0x56. -/
def decode56 (w l1 l2 : Half) : Option Instr :=
  match (fFn w).toNat with
  | 0 => some (.fenceCore (fG w))
  | 1 => some (.fenceDev (fG w))
  | 2 => some (.fenceSys (fG w))
  | 3 => some (.xfence (fA w) (srcOf (fB w) l1 l2) (fG w))
  | 4 => some (.chend (fG w))
  | _ => none

/-- The forms of opcode 0x59. -/
def decode59 (w : Half) : Option Instr :=
  match (fFn w).toNat with
  | 0 => some (.quit (fG w))
  | 1 => some (.yield (fG w))
  | 2 => some (.hend (fG w))
  | 3 => some (.publ (fG w))
  | 4 => some (.sdrop (fG w))
  | _ => none

/-- The forms of opcode 0x5A. -/
def decode5A (w l1 l2 : Half) : Option Instr :=
  match (fFn w).toNat with
  | 0 => some (.join (fA w) (srcOf (fB w) l1 l2) (fG w))
  | 1 => some (.leave (fA w) (fG w))
  | 2 => some (.gbar (fA w) (fG w))
  | _ => none

/-- The forms of opcode 0x5D. -/
def decode5D (w : Half) : Option Instr :=
  match (fFn w).toNat with
  | 0 => some (.watch (fD w) (fA w) (fG w))
  | 1 => some (.unwatch (fA w) (fG w))
  | _ => none

/-- The forms of opcode 0x60. -/
def decode60 (w : Half) : Option Instr :=
  if (fEop w).extractLsb' 6 2 = 2#2 then some (.mcfg ((fEop w).extractLsb' 0 6) (fEa w) (fG w))
  else if (fEop w).extractLsb' 6 2 = 3#2 then some (.mget ((fEop w).extractLsb' 0 6) (fEa w) (fG w))
  else match ((fEop w).extractLsb' 1 7).toNat with
  | 0 => some (.mzero ((fEop w).extractLsb' 0 1) (fG w))
  | 1 => some (.mma ((fEop w).extractLsb' 0 1) (fEa w) (fEb w) (fG w))
  | 2 => some (.mring ((fEop w).extractLsb' 0 1) (fEa w) (fG w))
  | 3 => some (.mldb (fEa w) (fG w))
  | 4 => some (.mstore ((fEop w).extractLsb' 0 1) (fEa w) (fG w))
  | 5 => some (.maccLd ((fEop w).extractLsb' 0 1) (fEa w) (fG w))
  | 6 => some (.maccAdd ((fEop w).extractLsb' 0 1) (fEa w) (fG w))
  | _ => none

/-- The forms of opcode 0x61. -/
def decode61 (w : Half) : Option Instr :=
  match ((fEop w).extractLsb' 1 7).toNat with
  | 0 => some (.snormClr (fG w))
  | 1 => if (fEop w).extractLsb' 0 1 = 0#1 then some (.snormA (fEa w) (fEb w) (fG w)) else some (.snormB (fEa w) (fEb w) (fG w))
  | 2 => if (fEop w).extractLsb' 0 1 = 0#1 then some (.sngetA (fEa w) (fG w)) else some (.sngetB (fEa w) (fG w))
  | 3 => if (fEop w).extractLsb' 0 1 = 0#1 then some (.snputA (fEa w) (fG w)) else some (.snputB (fEa w) (fG w))
  | 4 => if (fEop w).extractLsb' 0 1 = 0#1 then some (.salias (fG w)) else some (.sseed (fEa w) (fG w))
  | 5 => some (.srun ((fEop w).extractLsb' 0 1) (fEa w) (fEb w) (fG w))
  | 6 => some (.svar ((fEop w).extractLsb' 0 1) (fEa w) (fG w))
  | 8 => if (fEop w).extractLsb' 0 1 = 0#1 then some (.pload (fEa w) (fEb w) (fG w)) else some (.pscore (fEa w) (fG w))
  | 9 => some (.psel (fEa w) (fG w))
  | 10 => some (.assay ((fEop w).extractLsb' 0 1) (fEa w) (fEb w) (fG w))
  | 11 => some (.aread (fEa w) (fEb w) (fG w))
  | _ => none

/-- The forms of opcode 0x62. -/
def decode62 (w : Half) : Option Instr :=
  if 38 ≤ (fVop w).toNat ∧ (fVop w).toNat ≤ 53 then some (.vslide ((fVop w - 38#6).setWidth 4) (fVd w) (fVa w) (fVb w) (fVm w) (fG w))
  else match (fVop w).toNat with
  | 0 => some (.vadd (fVd w) (fVa w) (fVb w) (fVm w) (fG w))
  | 1 => some (.vsub (fVd w) (fVa w) (fVb w) (fVm w) (fG w))
  | 2 => some (.vmul (fVd w) (fVa w) (fVb w) (fVm w) (fG w))
  | 3 => some (.vfma (fVd w) (fVa w) (fVb w) (fVm w) (fG w))
  | 4 => some (.vmin (fVd w) (fVa w) (fVb w) (fVm w) (fG w))
  | 5 => some (.vmax (fVd w) (fVa w) (fVb w) (fVm w) (fG w))
  | 6 => some (.vabs (fVd w) (fVa w) (fVm w) (fG w))
  | 7 => some (.vneg (fVd w) (fVa w) (fVm w) (fG w))
  | 8 => some (.vrndRne (fVd w) (fVa w) (fVm w) (fG w))
  | 9 => some (.vrndRz (fVd w) (fVa w) (fVm w) (fG w))
  | 10 => some (.vrndRd (fVd w) (fVa w) (fVm w) (fG w))
  | 11 => some (.vrndRu (fVd w) (fVa w) (fVm w) (fG w))
  | 12 => some (.vfexp2 (fVd w) (fVa w) (fVm w) (fG w))
  | 13 => some (.vscale (fVd w) (fVa w) (fVb w) (fVm w) (fG w))
  | 14 => some (.vrcp (fVd w) (fVa w) (fVm w) (fG w))
  | 15 => some (.vrsq (fVd w) (fVa w) (fVm w) (fG w))
  | 16 => some (.vcmpEq ((fVd w).extractLsb' 0 2) (fVa w) (fVb w) (fVm w) (fG w))
  | 17 => some (.vcmpNe ((fVd w).extractLsb' 0 2) (fVa w) (fVb w) (fVm w) (fG w))
  | 18 => some (.vcmpLt ((fVd w).extractLsb' 0 2) (fVa w) (fVb w) (fVm w) (fG w))
  | 19 => some (.vcmpLe ((fVd w).extractLsb' 0 2) (fVa w) (fVb w) (fVm w) (fG w))
  | 20 => some (.vcmpGt ((fVd w).extractLsb' 0 2) (fVa w) (fVb w) (fVm w) (fG w))
  | 21 => some (.vcmpGe ((fVd w).extractLsb' 0 2) (fVa w) (fVb w) (fVm w) (fG w))
  | 22 => some (.vcmpUn ((fVd w).extractLsb' 0 2) (fVa w) (fVb w) (fVm w) (fG w))
  | 23 => some (.vcmpOr ((fVd w).extractLsb' 0 2) (fVa w) (fVb w) (fVm w) (fG w))
  | 24 => some (.vsel (fVd w) (fVa w) (fVb w) (fVm w) (fG w))
  | 25 => some (.viadd (fVd w) (fVa w) (fVb w) (fVm w) (fG w))
  | 26 => some (.visub (fVd w) (fVa w) (fVb w) (fVm w) (fG w))
  | 27 => some (.vimul (fVd w) (fVa w) (fVb w) (fVm w) (fG w))
  | 28 => some (.vand (fVd w) (fVa w) (fVb w) (fVm w) (fG w))
  | 29 => some (.vor (fVd w) (fVa w) (fVb w) (fVm w) (fG w))
  | 30 => some (.vxor (fVd w) (fVa w) (fVb w) (fVm w) (fG w))
  | 31 => some (.vshl (fVd w) (fVa w) (fVb w) (fVm w) (fG w))
  | 32 => some (.vshr (fVd w) (fVa w) (fVb w) (fVm w) (fG w))
  | 33 => some (.vshrS (fVd w) (fVa w) (fVb w) (fVm w) (fG w))
  | 34 => some (.vrsum (fVd w) (fVa w) (fVm w) (fG w))
  | 35 => some (.vnzc (fVd w) (fVa w) (fVm w) (fG w))
  | 36 => some (.vnzb (fVd w) (fVa w) (fVm w) (fG w))
  | 37 => some (.vperm (fVd w) (fVa w) (fVb w) (fVm w) (fG w))
  | 54 => some (.vcvtF2i (fVd w) (fVa w) (fVm w) (fG w))
  | 55 => some (.vcvtF2iRz (fVd w) (fVa w) (fVm w) (fG w))
  | 56 => some (.vcvtI2f (fVd w) (fVa w) (fVm w) (fG w))
  | 57 => some (.vcvtF2b (fVd w) (fVa w) (fVm w) (fG w))
  | 58 => some (.vcvtB2f (fVd w) (fVa w) (fVm w) (fG w))
  | 59 => some (.vcvtF2h (fVd w) (fVa w) (fVm w) (fG w))
  | 60 => some (.vcvtH2f (fVd w) (fVa w) (fVm w) (fG w))
  | _ => none

/-- The forms of opcode 0x63. -/
noncomputable def decode63 (w : Half) : Option Instr :=
  if (fEop w).extractLsb' 6 2 = 2#2 then some (.vcfg ((fEop w).extractLsb' 0 6) (fEa w) (fG w))
  else if (fEop w).extractLsb' 6 2 = 3#2 then some (.vget ((fEop w).extractLsb' 0 6) (fEa w) (fG w))
  else match ((fEop w).extractLsb' 4 4).toNat with
  | 0 => some (.vld ((fEop w).extractLsb' 0 4) (fEa w) (fG w))
  | 1 => some (.vst ((fEop w).extractLsb' 0 4) (fEa w) (fG w))
  | 2 => some (.vlds ((fEop w).extractLsb' 0 4) (fEa w) (fEb w) (fG w))
  | 3 => some (.vldx ((fEop w).extractLsb' 0 4) (fEa w) (fG w))
  | 4 => some (.vldb ((fEop w).extractLsb' 0 4) (fEa w) (fEb w) (fG w))
  | 5 => some (.vstb ((fEop w).extractLsb' 0 4) (fEa w) (fEb w) (fG w))
  | 6 => some (.vputs ((fEop w).extractLsb' 0 4) (fEa w) (fG w))
  | 7 => some (.vgets ((fEop w).extractLsb' 0 4) (fEa w) (fG w))
  | _ => none

/-- The forms of opcode 0x64. -/
noncomputable def decode64 (w : Half) : Option Instr :=
  if (fEop w).extractLsb' 6 2 = 2#2 then some (.ccfg ((fEop w).extractLsb' 0 6) (fEa w) (fG w))
  else if (fEop w).extractLsb' 6 2 = 3#2 then some (.cget ((fEop w).extractLsb' 0 6) (fEa w) (fG w))
  else match (fEop w).toNat with
  | 0 => some (.ccopy (fEa w) (fEb w) (fG w))
  | 1 => some (.cfill (fEa w) (fG w))
  | 2 => some (.ctcopy (fEa w) (fEb w) (fG w))
  | 3 => some (.cgather (fEa w) (fEb w) (fG w))
  | 4 => some (.cscatter (fEa w) (fEb w) (fG w))
  | 5 => some (.ccopyF (fEa w) (fEb w) (fG w))
  | _ => none

/-- The forms of opcode 0x65. -/
noncomputable def decode65 (w : Half) : Option Instr :=
  match (fEop w).toNat with
  | 0 => some (.halloc (fEa w) (fEb w) (fG w))
  | 1 => some (.hfree (fEa w) (fG w))
  | 2 => some (.hwiden (fEa w) (fEb w) (fG w))
  | 3 => some (.hpin (fEa w) (fEb w) (fG w))
  | 4 => some (.hunpin (fEa w) (fG w))
  | 5 => some (.hstageA (fEa w) (fEb w) (fG w))
  | 6 => some (.hstageB (fEa w) (fEb w) (fG w))
  | 7 => some (.hstageNc (fEa w) (fEb w) (fG w))
  | 8 => some (.hstageNr (fEa w) (fEb w) (fG w))
  | 9 => some (.hinfo (fEa w) (fEb w) (fG w))
  | 10 => some (.hown (fEa w) (fEb w) (fG w))
  | 11 => some (.hsync (fEa w) (fG w))
  | 16 => some (.hopRowsum (fEa w) (fEb w) (fG w))
  | 17 => some (.hopColsum (fEa w) (fEb w) (fG w))
  | 18 => some (.hopScale (fEa w) (fEb w) (fG w))
  | 19 => some (.hopAddh (fEa w) (fEb w) (fG w))
  | 20 => some (.hopMulh (fEa w) (fEb w) (fG w))
  | 21 => some (.hopAxpy (fEa w) (fEb w) (fG w))
  | 22 => some (.hopFill (fEa w) (fEb w) (fG w))
  | 23 => some (.hopFillImg (fEa w) (fEb w) (fG w))
  | 24 => some (.hopTranspose (fEa w) (fEb w) (fG w))
  | 25 => some (.hopCopyin (fEa w) (fEb w) (fG w))
  | 26 => some (.hopCopyout (fEa w) (fEb w) (fG w))
  | 27 => some (.hopGrows (fEa w) (fEb w) (fG w))
  | 28 => some (.hopSrows (fEa w) (fEb w) (fG w))
  | _ => none

/-- The forms of opcode 0x66. -/
noncomputable def decode66 (w : Half) : Option Instr :=
  match (fEop w).toNat with
  | 0 => some (.nmc (fEa w) (fEb w) (fG w))
  | 1 => some (.nmload (fEa w) (fEb w) (fG w))
  | 2 => some (.nmrow (fEa w) (fEb w) (fG w))
  | 3 => some (.nmstat (fEa w) (fEb w) (fG w))
  | _ => none

/-- The forms of opcode 0x70. -/
noncomputable def decode70 (w : Half) : Option Instr :=
  match (fEop w).toNat with
  | 0 => some (.trap (fEa w) (fG w))
  | 1 => some (.tret (fG w))
  | _ => none

/-- The forms of opcode 0x72. -/
noncomputable def decode72 (w : Half) : Option Instr :=
  if fEop w = 15#8 then some (.mtsWdog (fEa w) (fG w))
  else some (.mts (fEop w) (fEa w) (fG w))

/-- The forms of opcode 0x74. -/
noncomputable def decode74 (w : Half) : Option Instr :=
  match (fEop w).toNat with
  | 0 => some (.idle (fG w))
  | 1 => some (.idleT (fEa w) (fG w))
  | _ => none

/-- The row of the opcode map that a word selects, with its fields (R108, R109). -/
noncomputable def candidate (w l1 l2 : Half) : Option Instr :=
  match (fOp w).toNat with
  | 0x00 => some .ill
  | 0x01 => decode01 w l1 l2
  | 0x02 => decode02 w l1 l2
  | 0x03 => some (.addImm (fD w) (fA w) (fImm w) (fG w))
  | 0x04 => some (.andImm (fD w) (fA w) (fImm w) (fG w))
  | 0x05 => some (.orImm (fD w) (fA w) (fImm w) (fG w))
  | 0x06 => some (.xorImm (fD w) (fA w) (fImm w) (fG w))
  | 0x07 => some (.shlImm (fD w) (fA w) (fImm w) (fG w))
  | 0x08 => some (.shrImm (fD w) (fA w) (fImm w) (fG w))
  | 0x09 => some (.sarImm (fD w) (fA w) (fImm w) (fG w))
  | 0x0A => some (.rolImm (fD w) (fA w) (fImm w) (fG w))
  | 0x0B => some (.mulImm (fD w) (fA w) (fImm w) (fG w))
  | 0x0C => some (.movImm (fD w) (fImm w) (fG w))
  | 0x0D => decode0D w l1 l2
  | 0x0E => some (.sel (fD w) (fA w) (srcOf (fB w) l1 l2) ((fFn w).extractLsb' 1 4) ((fFn w).extractLsb' 0 1) (fG w))
  | 0x0F => decode0F w l1 l2
  | 0x10 => some (.cmpEqImm ((fD w).extractLsb' 0 4) (fA w) (fImm w) (fG w))
  | 0x11 => some (.cmpNeImm ((fD w).extractLsb' 0 4) (fA w) (fImm w) (fG w))
  | 0x12 => some (.cmpLtImm ((fD w).extractLsb' 0 4) (fA w) (fImm w) (fG w))
  | 0x13 => some (.cmpGeImm ((fD w).extractLsb' 0 4) (fA w) (fImm w) (fG w))
  | 0x14 => some (.cmpLeImm ((fD w).extractLsb' 0 4) (fA w) (fImm w) (fG w))
  | 0x15 => some (.cmpGtImm ((fD w).extractLsb' 0 4) (fA w) (fImm w) (fG w))
  | 0x16 => some (.cmpLoImm ((fD w).extractLsb' 0 4) (fA w) (fImm w) (fG w))
  | 0x17 => some (.cmpHsImm ((fD w).extractLsb' 0 4) (fA w) (fImm w) (fG w))
  | 0x18 => some (.const (fD w) (fC w) (fG w))
  | 0x19 => decode19 w l1 l2
  | 0x1A => some (.addaImm (fD w) (fA w) (fImm w) (fG w))
  | 0x1B => some (.subaImm (fD w) (fA w) (fImm w) (fG w))
  | 0x1C => decode1C w l1 l2
  | 0x1D => some (.href (fD w) (fA w) (srcOf (fB w) l1 l2) (fG w))
  | 0x1E => decode1E w l1 l2
  | 0x20 => decode20 w l1 l2
  | 0x21 => some (.ffma (fD w) (fA w) (srcOf (fB w) l1 l2) (fG w))
  | 0x22 => decode22 w l1 l2
  | 0x23 => decode23 w l1 l2
  | 0x2C => decode2C w
  | 0x2D => some (.br (fOff w) (fG w))
  | 0x2E => some (.call (fOff w) (fG w))
  | 0x2F => some (.jmp (srcOf (fB w) l1 l2) (fG w))
  | 0x30 => some (.callr (fD w) (srcOf (fB w) l1 l2) (fG w))
  | 0x31 => some (.loop (fD w) (fImm w) (fG w))
  | 0x3C => some (.ldB (fD w) (fA w) (fImm w) (fG w))
  | 0x3D => some (.ldH (fD w) (fA w) (fImm w) (fG w))
  | 0x3E => some (.ldW (fD w) (fA w) (fImm w) (fG w))
  | 0x3F => some (.ldD (fD w) (fA w) (fImm w) (fG w))
  | 0x40 => some (.stB (fD w) (fA w) (fImm w) (fG w))
  | 0x41 => some (.stH (fD w) (fA w) (fImm w) (fG w))
  | 0x42 => some (.stW (fD w) (fA w) (fImm w) (fG w))
  | 0x43 => some (.stD (fD w) (fA w) (fImm w) (fG w))
  | 0x44 => some (.ldBMig (fD w) (fA w) (fImm w) (fG w))
  | 0x45 => some (.ldHMig (fD w) (fA w) (fImm w) (fG w))
  | 0x46 => some (.ldWMig (fD w) (fA w) (fImm w) (fG w))
  | 0x47 => some (.ldDMig (fD w) (fA w) (fImm w) (fG w))
  | 0x48 => some (.stBMig (fD w) (fA w) (fImm w) (fG w))
  | 0x49 => some (.stHMig (fD w) (fA w) (fImm w) (fG w))
  | 0x4A => some (.stWMig (fD w) (fA w) (fImm w) (fG w))
  | 0x4B => some (.stDMig (fD w) (fA w) (fImm w) (fG w))
  | 0x4C => some (.pref (fA w) (fImm w) (fG w))
  | 0x4D => some (.lde (fD w) (fA w) (fImm w) (fG w))
  | 0x4E => some (.ldf (fD w) (fA w) (fImm w) (fG w))
  | 0x4F => some (.stf (fD w) (fA w) (fImm w) (fG w))
  | 0x50 => some (.sts (fD w) (fA w) (fImm w) (fG w))
  | 0x51 => some (.clre (fA w) (fImm w) (fG w))
  | 0x52 => decode52 w l1 l2
  | 0x53 => decode53 w l1 l2
  | 0x54 => decode54 w l1 l2
  | 0x55 => decode55 w l1 l2
  | 0x56 => decode56 w l1 l2
  | 0x58 => some (.spawn (fD w) (fA w) (srcOf (fB w) l1 l2) (fFn w) (fG w))
  | 0x59 => decode59 w
  | 0x5A => decode5A w l1 l2
  | 0x5B => some (.migr (fA w) (srcOf (fB w) l1 l2) (fG w))
  | 0x5C => some (.send (fD w) (fA w) (fFn w) (fG w))
  | 0x5D => decode5D w
  | 0x5E => some (.launch (fD w) (fA w) (fG w))
  | 0x60 => decode60 w
  | 0x61 => decode61 w
  | 0x62 => decode62 w
  | 0x63 => decode63 w
  | 0x64 => decode64 w
  | 0x65 => decode65 w
  | 0x66 => decode66 w
  | 0x70 => decode70 w
  | 0x71 => some (.mfs (fEop w) (fEa w) (fG w))
  | 0x72 => decode72 w
  | 0x73 => some (.bkpt (fG w))
  | 0x74 => decode74 w
  | 0x75 => some (.tload (fEa w) (fEb w) (fG w))
  | 0x76 => some (.synci (fEa w) (fEb w) (fG w))
  | 0x77 => some (.harvest (fEa w) (fEb w) (fG w))
  | 0x78 => some (.ctxswap (fEa w) (fEb w) (fG w))
  | 0x79 => some .nop
  | _ => none

/-- The instruction of a word and the two words after it, or none: an illegal word (R110). -/
noncomputable def decode (w l1 l2 : Half) : Option Instr :=
  match candidate w l1 l2 with
  | none => none
  | some i => if (encode i).headD 0#32 = w && i.wf then some i else none

/-- The words an instruction takes, its literal words included (R100, R107); 1 for an illegal word. -/
noncomputable def wordCount (w : Half) : Nat :=
  match decode w 0#32 0#32 with
  | none => 1
  | some i => (encode i).length

/-- The instruction of a row of the opcode table: its bits numbered from bit 0 of the first word, literal words zero. -/
noncomputable def decodeTableWord (nbits w : Nat) : Option Instr :=
  let v := w % 2 ^ nbits
  decode (BitVec.ofNat 32 v) (BitVec.ofNat 32 (v / 2 ^ 32)) (BitVec.ofNat 32 (v / 2 ^ 64))

end Sys2Proof
end

