-- ==== Sys2Proof/Machine/Numbers.lean ====
section
/-!
DEFINITION. Numbers to the bit (R57-R67, R75): exact values, the one rounding helper, conversion to integers, exact square root
and power of two up to the rounding.
-/
namespace Sys2Proof

/-- The sticky flags (R68): NX 1, UF 2, OF 4, DZ 8, NV 16, SC 32. -/
abbrev Flags := BitVec 6
/-- Inexact. -/
def flagNX : Flags := 1#6
/-- Underflow. -/
def flagUF : Flags := 2#6
/-- Overflow. -/
def flagOF : Flags := 4#6
/-- Reciprocal of zero. -/
def flagDZ : Flags := 8#6
/-- Invalid operation. -/
def flagNV : Flags := 16#6
/-- Scale clamp. -/
def flagSC : Flags := 32#6

/-- An exact rational: num × 2^exp ÷ den. -/
structure Q where
  num : Int
  exp : Int
  den : Nat
  deriving DecidableEq, Repr

/-- A value (R58): a NaN, signalling or quiet, a signed infinity, a signed zero, or a nonzero number. As the result of an
operation, `nan true` says that the operation was invalid (R61). -/
inductive FV where
  | nan (sig : Bool)
  | inf (neg : Bool)
  | zero (neg : Bool)
  | num (x : Q)
  deriving DecidableEq, Repr

/-- A binary format (R57): exponent and fraction widths, and whether its NaNs can signal (R58). -/
structure Fmt where
  ebits : Nat
  fbits : Nat
  signals : Bool
  deriving DecidableEq, Repr

/-- F32. -/
def F32 : Fmt := ⟨8, 23, true⟩
/-- F16. -/
def F16 : Fmt := ⟨5, 10, true⟩
/-- BF16. -/
def BF16 : Fmt := ⟨8, 7, true⟩
/-- W19. -/
def W19 : Fmt := ⟨8, 10, false⟩
/-- A96. -/
def A96 : Fmt := ⟨15, 80, false⟩

/-- The exponent bias; emax is equal to it and emin is 1 − bias. -/
def Fmt.bias (f : Fmt) : Nat := 2 ^ (f.ebits - 1) - 1
/-- The weight exponent of the last bit of a subnormal: emin − (p − 1). -/
def Fmt.qmin (f : Fmt) : Int := 1 - (f.bias : Int) - (f.fbits : Int)
/-- The bits of +∞. -/
def Fmt.infBits (f : Fmt) : Nat := (2 ^ f.ebits - 1) * 2 ^ f.fbits
/-- The sign bit. -/
def Fmt.signBit (f : Fmt) : Nat := 2 ^ (f.ebits + f.fbits)
/-- The canonical quiet NaN (R60). -/
def Fmt.nanBits (f : Fmt) : Nat := f.infBits + 2 ^ (f.fbits - 1)

/-- Puts the sign to a magnitude's bits. -/
def Fmt.signed (f : Fmt) (neg : Bool) (b : Nat) : Nat := if neg then f.signBit + b else b

/-- value(bits, F) (R58). -/
def value (f : Fmt) (b : Nat) : FV :=
  let neg := decide (b / f.signBit % 2 = 1)
  let e := b / 2 ^ f.fbits % 2 ^ f.ebits
  let m := b % 2 ^ f.fbits
  let sg (n : Nat) : Int := if neg then -(n : Int) else (n : Int)
  if e = 2 ^ f.ebits - 1 then
    if m = 0 then .inf neg else .nan (f.signals && decide (m < 2 ^ (f.fbits - 1)))
  else if e = 0 then
    if m = 0 then .zero neg else .num ⟨sg m, f.qmin, 1⟩
  else .num ⟨sg (2 ^ f.fbits + m), f.qmin + e - 1, 1⟩

/-- floor(log2 |x|) of a nonzero number. -/
def Q.log2 (x : Q) : Int :=
  let n := x.num.natAbs
  let l : Int := (Nat.log2 n : Int) - (Nat.log2 x.den : Int)
  let ge := if 0 ≤ l then decide (x.den * 2 ^ l.toNat ≤ n) else decide (x.den ≤ n * 2 ^ (-l).toNat)
  x.exp + (if ge then l else l - 1)

/-- |x| ÷ 2^q as a quotient of naturals. -/
def Q.scaled (x : Q) (q : Int) : Nat × Nat :=
  let s := x.exp - q
  if 0 ≤ s then (x.num.natAbs * 2 ^ s.toNat, x.den) else (x.num.natAbs, x.den * 2 ^ (-s).toNat)

/-- n ÷ d rounded to the nearest integer, ties to the even one, and whether it was exact. -/
def nearestEven (n d : Nat) : Nat × Bool :=
  let k := n / d
  let r := n % d
  let up := decide (d < 2 * r) || (decide (2 * r = d) && decide (k % 2 = 1))
  (if up then k + 1 else k, decide (r = 0))

/-- round(x, F, fz, sat) (R63): the bits of the result and the flags it sets. -/
def round (f : Fmt) (fz sat : Bool) : FV → Nat × Flags
  | .nan sig => (f.nanBits, if sig then flagNV else 0#6)
  | .inf neg => (f.signed neg f.infBits, 0#6)
  | .zero neg => (f.signed neg 0, 0#6)
  | .num x =>
    let neg := decide (x.num < 0)
    let q := max (x.log2 - f.fbits) f.qmin
    let (n, exact) := let (a, d) := x.scaled q; nearestEven a d
    let bits := (q - f.qmin).toNat * 2 ^ f.fbits + n
    let nx : Flags := if exact then 0#6 else flagNX
    if f.infBits ≤ bits then
      (f.signed neg (if sat then f.infBits - 1 else f.infBits), flagOF ||| flagNX)
    else if bits < 2 ^ f.fbits then
      if fz then (f.signed neg 0, flagUF ||| flagNX)
      else (f.signed neg bits, nx ||| (if exact then 0#6 else flagUF))
    else (f.signed neg bits, nx)

/-- A number from an exact rational; an exact zero is +0. -/
def FV.ofQ (x : Q) : FV := if x.num = 0 then .zero false else .num x
/-- A number from an integer. -/
def FV.ofInt (n : Int) : FV := FV.ofQ ⟨n, 0, 1⟩

/-- Exact sum of two rationals. -/
def Q.add (x y : Q) : Q :=
  let m := min x.exp y.exp
  ⟨x.num * (2 ^ (x.exp - m).toNat : Nat) * (y.den : Int) + y.num * (2 ^ (y.exp - m).toNat : Nat) * (x.den : Int), m,
   x.den * y.den⟩
/-- Exact product. -/
def Q.mul (x y : Q) : Q := ⟨x.num * y.num, x.exp + y.exp, x.den * y.den⟩
/-- Exact reciprocal of a nonzero number. -/
def Q.inv (x : Q) : Q := ⟨if x.num < 0 then -(x.den : Int) else (x.den : Int), -x.exp, x.num.natAbs⟩
/-- x < y. -/
def Q.lt (x y : Q) : Bool := decide ((Q.add x ⟨-y.num, y.exp, y.den⟩).num < 0)

/-- Whether the value is negative, a zero by its sign; a NaN is not. -/
def FV.neg : FV → Bool
  | .nan _ => false
  | .inf n => n
  | .zero n => n
  | .num x => decide (x.num < 0)
/-- Sign change. -/
def FV.negate : FV → FV
  | .nan s => .nan s
  | .inf n => .inf (!n)
  | .zero n => .zero (!n)
  | .num x => .num ⟨-x.num, x.exp, x.den⟩
/-- Whether it is a NaN. -/
def FV.isNan : FV → Bool
  | .nan _ => true
  | _ => false
/-- Whether it is a zero or a nonzero number. -/
def FV.isFinite : FV → Bool
  | .zero _ => true
  | .num _ => true
  | _ => false
/-- Whether it is a zero. -/
def FV.isZero : FV → Bool
  | .zero _ => true
  | _ => false

/-- The NaN that an operation on a NaN returns: invalid if an operand signals (R61). -/
def FV.nan2 (x y : FV) : FV := .nan (decide (x = .nan true) || decide (y = .nan true))

/-- Exact sum (R61, R62). -/
def FV.add (x y : FV) : FV :=
  match x, y with
  | .nan _, _ => nan2 x y
  | _, .nan _ => nan2 x y
  | .inf a, .inf b => if a = b then .inf a else .nan true
  | .inf a, _ => .inf a
  | _, .inf b => .inf b
  | .zero a, .zero b => .zero (a && b)
  | .zero _, .num y => .num y
  | .num x, .zero _ => .num x
  | .num x, .num y => FV.ofQ (x.add y)

/-- Exact product (R61, R62). -/
def FV.mul (x y : FV) : FV :=
  let s := x.neg != y.neg
  match x, y with
  | .nan _, _ => nan2 x y
  | _, .nan _ => nan2 x y
  | .inf _, .zero _ => .nan true
  | .zero _, .inf _ => .nan true
  | .inf _, _ => .inf s
  | _, .inf _ => .inf s
  | .zero _, _ => .zero s
  | _, .zero _ => .zero s
  | .num x, .num y => .num (x.mul y)

/-- Exact quotient; by zero it is an infinity (R201). -/
def FV.div (x y : FV) : FV :=
  let s := x.neg != y.neg
  match x, y with
  | .nan _, _ => nan2 x y
  | _, .nan _ => nan2 x y
  | .inf _, .inf _ => .nan true
  | .zero _, .zero _ => .nan true
  | .inf _, _ => .inf s
  | _, .inf _ => .zero s
  | .zero _, _ => .zero s
  | _, .zero _ => .inf s
  | .num x, .num y => .num (x.mul y.inv)

/-- x × 2^k. -/
def FV.scale (x : FV) (k : Int) : FV :=
  match x with
  | .num q => .num ⟨q.num, q.exp + k, q.den⟩
  | v => v

/-- x < y, unordered with a NaN; −0 equals +0 (R147). -/
def FV.lt : FV → FV → Bool
  | .nan _, _ => false
  | _, .nan _ => false
  | .inf a, .inf b => a && !b
  | .inf a, _ => a
  | _, .inf b => !b
  | .zero _, .zero _ => false
  | .zero _, .num y => decide (0 < y.num)
  | .num x, .zero _ => decide (x.num < 0)
  | .num x, .num y => x.lt y
/-- x = y, unordered with a NaN; −0 equals +0. -/
def FV.eq (x y : FV) : Bool := !x.isNan && !y.isNan && !x.lt y && !y.lt x
/-- x ≤ y. -/
def FV.le (x y : FV) : Bool := x.lt y || x.eq y

/-- The flush of an operand (R64): a nonzero number below 2^−126 becomes a zero of its sign. -/
def FV.flush (fz : Bool) (x : FV) : FV :=
  match x with
  | .num q => if fz && decide (q.log2 < -126) then .zero (decide (q.num < 0)) else x
  | v => v

/-- The smaller (or, for `big`, the larger) of two operands, −0 below +0 (R145). -/
def FV.pick (big : Bool) (x y : FV) : FV :=
  match x, y with
  | .nan true, _ => .nan true
  | _, .nan true => .nan true
  | .nan false, .nan false => .nan false
  | .nan false, _ => y
  | _, .nan false => x
  | _, _ =>
    let less := x.lt y || (x.isZero && y.isZero && x.neg && !y.neg)
    if less != big then x else y

/-- |x − y| of finite values. -/
def FV.dist (x y : FV) : FV :=
  let d := x.add y.negate
  if d.neg then d.negate else d

/-- Twice a value. -/
def FV.twice (x : FV) : FV := x.scale 1

/-! ## Integers (R67) -/

/-- roundint(x, mode) of a nonzero number: 0 RNE, 1 RZ, 2 RD, 3 RU; and whether it was exact. -/
def Q.roundint (x : Q) (mode : Nat) : Int × Bool :=
  let neg := decide (x.num < 0)
  let (n, d) := x.scaled 0
  let exact := decide (n % d = 0)
  let m := match mode with
    | 0 => (nearestEven n d).1
    | 1 => n / d
    | 2 => if neg && !exact then n / d + 1 else n / d
    | _ => if !neg && !exact then n / d + 1 else n / d
  (if neg then -(m : Int) else (m : Int), exact)

/-- f2i(x, mode, lo, hi). -/
def f2i (x : FV) (mode : Nat) (lo hi : Int) : Int × Flags :=
  match x with
  | .nan _ => (0, flagNV)
  | .inf neg => (if neg then lo else hi, flagNV)
  | .zero _ => (0, 0#6)
  | .num q =>
    let (n, exact) := q.roundint mode
    if n < lo then (lo, flagNV) else if hi < n then (hi, flagNV)
    else (n, if exact then 0#6 else flagNX)

/-- The floating-point value of roundint, keeping the sign of a zero, and NX if it changed (R67, R148). -/
def roundint (x : FV) (mode : Nat) : FV × Flags :=
  match x with
  | .num q =>
    let (n, exact) := q.roundint mode
    (if n = 0 then .zero (decide (q.num < 0)) else .num ⟨n, 0, 1⟩, if exact then 0#6 else flagNX)
  | v => (v, 0#6)

/-! ## Roots and powers of two, exact up to a sticky bit below every rounding -/

/-- floor(√n), bit by bit from bit `k - 1` of the root down. -/
def isqrtAux (n : Nat) : Nat → Nat → Nat
  | 0, r => r
  | k + 1, r => isqrtAux n k (if (r + 2 ^ k) * (r + 2 ^ k) ≤ n then r + 2 ^ k else r)
/-- floor(√n). -/
def isqrt (n : Nat) : Nat := isqrtAux n (Nat.log2 n / 2 + 1) 0

/-- The square root of a positive number, to 300 bits after the point, with one sticky bit below them (R236). -/
def Q.sqrt (x : Q) : Q :=
  let (n, d) := x.scaled (-600)
  let r := isqrt (n / d)
  let exact := decide (n % d = 0) && decide (r * r = n / d)
  ⟨(2 * r + (if exact then 0 else 1) : Nat), -301, 1⟩

/-- √x: the root of −0 is −0, of a negative number a NaN. -/
def FV.sqrt (x : FV) : FV :=
  match x with
  | .nan s => .nan s
  | .inf neg => if neg then .nan true else .inf false
  | .zero n => .zero n
  | .num q => if q.num < 0 then .nan true else .num q.sqrt

/-- The fraction bits kept by `pow2Frac`. -/
def powBits : Nat := 256
/-- 2^f for a fraction f = n ÷ 2^k, from its highest bit down: the running product, and the root √√…2 of the next bit. -/
def pow2Aux (n : Nat) : Nat → Nat → Nat → Nat
  | 0, _, acc => acc
  | k + 1, root, acc =>
    let root' := isqrt (root * 2 ^ powBits)
    pow2Aux n k root' (if n / 2 ^ k % 2 = 1 then acc * root' / 2 ^ powBits else acc)

/-- 2^x for a number −1 ≤ x ≤ 1: exact at −1, 0 and 1, and otherwise to 250 bits with a sticky bit below them. -/
def FV.pow2 (x : FV) : FV :=
  match x with
  | .zero _ => .ofInt 1
  | .num q =>
    let neg := decide (q.num < 0)
    let (n, d) := q.scaled (-160)
    let m := n / d
    if m = 2 ^ 160 then .num ⟨1, if neg then -1 else 1, 1⟩
    else
      let frac := if neg then 2 ^ 160 - m else m
      let p := pow2Aux frac 160 (2 * 2 ^ powBits) (2 ^ powBits)
      .num ⟨(2 * p + 1 : Nat), (if neg then -258 else -257), 1⟩
  | v => v

end Sys2Proof
end

