-- ==== Sys2Proof/Config.lean ====
section
/-!
DEFINITION. The fixed sizes of the LRN5-A16K (R9, R14, R15, R18, R24) and the free values: what the spec leaves to the
device. A free value is a constant with no body, applied to a counter of the state, so that no proof can see what it is.
-/
namespace Sys2Proof.Config

/-- Cores of the device (R14). -/
def cores : Nat := 16384
/-- General slots of a core; slot 16 is the handler slot (R28). -/
def generalSlots : Nat := 16
/-- The handler slot (R28). -/
def handlerSlot : Nat := 16
/-- The rotation distance in cycles (R28). -/
def rotation : Nat := 8
/-- Sett cores (R18). -/
def setts : Nat := 768
/-- Storage lines of one pseudo-channel (R457). -/
def linesPerSett : Nat := 12582912
/-- Bytes of local memory of a core (R15). -/
def localBytes : Nat := 49152
/-- Core cycles in a microsecond (R11). -/
def cyclesPerMicro : Nat := 3000
/-- Core cycles in the 10 ms of launch ageing (R350). -/
def ageCycles : Nat := 30000000

/-- A choice the spec leaves to the device (an order, a placement, an eviction): any number, one for each count. DESIGN CHOICE: log 4. -/
opaque choice : Nat → Nat

/-- The subarray that a row of a pseudo-channel lies in (R20, R276), which the spec does not lay out. DESIGN CHOICE: log 116. -/
opaque subarray : Nat → Nat

/-- The units of 64 KiB that the images of a freeze fill, for the pages mapped and the threads (R418), which the spec does not lay out.
DESIGN CHOICE: log 74. -/
opaque imageUnits : Nat → Nat → Nat

/-- The scale that VSTB writes for a block it does not touch, by the block and its old scale, when that is one that the encoder never writes (R79,
R195). DESIGN CHOICE: log 133. -/
opaque spareScale : Nat → Nat → Nat

/-- A value the spec does not state: any word, one for each count. DESIGN CHOICE: log 4. -/
opaque freeWord : Nat → Word

/-- A byte the spec does not state (a digest, a key, a signature): any byte, one for each count. DESIGN CHOICE: log 4. -/
opaque freeByte : Nat → Byte

end Sys2Proof.Config
end

