-- ==== Sys2Proof/Machine/Tab.lean ====
section
/-!
DEFINITION. Operations over sparse tables, kept in one canonical form: keys strictly rising and, for a table with a
default, no entry equal to the default. Equal tables are then equal lists.
-/
namespace Sys2Proof

/-- The entry at key `k`, if one is listed. -/
def Tab.find? {α : Type} : Tab α → Nat → Option α
  | [], _ => none
  | (j, v) :: m, k => if j = k then some v else Tab.find? m k

/-- Lists `v` at key `k`, in key order, replacing an older entry. -/
def Tab.insert {α : Type} : Tab α → Nat → α → Tab α
  | [], k, v => [(k, v)]
  | (j, u) :: m, k, v =>
    if k < j then (k, v) :: (j, u) :: m
    else if k = j then (k, v) :: m
    else (j, u) :: Tab.insert m k v

/-- Removes the entry at key `k`. -/
def Tab.erase {α : Type} : Tab α → Nat → Tab α
  | [], _ => []
  | (j, u) :: m, k => if j = k then m else (j, u) :: Tab.erase m k

/-- What key `k` reads as: its entry, or the default `d`. -/
def Tab.get {α : Type} (d : α) (m : Tab α) (k : Nat) : α := (Tab.find? m k).getD d

/-- Writes `v` at key `k`; writing the default removes the entry. -/
def Tab.put {α : Type} [DecidableEq α] (d : α) (m : Tab α) (k : Nat) (v : α) : Tab α :=
  if v = d then Tab.erase m k else Tab.insert m k v

/-- Changes what key `k` reads as. -/
def Tab.modify {α : Type} [DecidableEq α] (d : α) (m : Tab α) (k : Nat) (f : α → α) : Tab α :=
  Tab.put d m k (f (Tab.get d m k))

/-- The keys of a table are strictly rising. -/
def Tab.rising {α : Type} : Tab α → Bool
  | [] => true
  | [_] => true
  | (j, _) :: (k, v) :: m => decide (j < k) && Tab.rising ((k, v) :: m)

/-- The canonical form: rising keys and no entry equal to the default. -/
def Tab.wf {α : Type} [DecidableEq α] (d : α) (m : Tab α) : Bool :=
  Tab.rising m && m.all (fun e => decide (e.2 ≠ d))

/-- One cell of a store. DESIGN CHOICE: log 7. -/
def Store.get {w : Nat} (m : Store w) (k : Nat) : BitVec w := Tab.get 0#w m k
/-- Writes one cell of a store. -/
def Store.put {w : Nat} (m : Store w) (k : Nat) (v : BitVec w) : Store w := Tab.put 0#w m k v

/-- The `n` bytes from byte `k` up, little-endian (R3). -/
def Store.read (m : Store 8) (k : Nat) : Nat → Nat
  | 0 => 0
  | n + 1 => (Store.get m k).toNat + 256 * Store.read m (k + 1) n

/-- Writes the `n` low bytes of `v` from byte `k` up, little-endian (R3). -/
def Store.write (m : Store 8) (k : Nat) : Nat → Nat → Store 8
  | 0, _ => m
  | n + 1, v => Store.write (Store.put m k (BitVec.ofNat 8 v)) (k + 1) n (v / 256)

/-- The first `n` cells from `k` up, as a list. -/
def Store.cells {w : Nat} (m : Store w) (k : Nat) : Nat → List (BitVec w)
  | 0 => []
  | n + 1 => Store.get m k :: Store.cells m (k + 1) n

/-- Writes a list of cells from `k` up. -/
def Store.putCells {w : Nat} (m : Store w) (k : Nat) : List (BitVec w) → Store w
  | [] => m
  | v :: vs => Store.putCells (Store.put m k v) (k + 1) vs

/-- Adds `x` to a list without repeats. -/
def setAdd (l : List Nat) (x : Nat) : List Nat := if l.contains x then l else l ++ [x]
/-- Removes every `x` from a list. -/
def setDel (l : List Nat) (x : Nat) : List Nat := l.filter (· ≠ x)

end Sys2Proof
end

