-- ==== Sys2Proof/Machine/State.lean ====
section
/-!
DEFINITION. The state of the whole device, as plain data: threads, cores, engines, the Bed, the stacks' sett cores, memory,
the host's registers, and the state after reset. Everything keyed by a number is a sparse table (Tab.lean).
-/
namespace Sys2Proof.Machine

/-- Why the machine stops. -/
inductive Fault where
  /-- The Bed is lost (R26): nothing continues until the device is reset or resumed. Raised by `step`. Safe. -/
  | deviceStopped
  deriving DecidableEq, Repr

/-- Why an instruction has no meaning here. -/
inductive Refusal where
  /-- The instruction's arm has no meaning yet. Raised by `exec` only. Safe. -/
  | notModelled (mnemonic : String)
  deriving DecidableEq, Repr

/-! ## Threads -/

/-- A general register: its value, its full bit, its armed bit (R295), and whether it awaits a result (R48). -/
structure Reg where
  val   : Word
  full  : Bool
  armed : Bool
  pend  : Bool
  deriving DecidableEq, Repr

/-- An empty register, not armed: the value at creation (R295). -/
def Reg.empty : Reg := ⟨0#64, false, false, false⟩

/-- One buffered byte: the address it was written through, the place it goes to, its value (R50, R318). -/
structure WEntry where
  va  : Nat
  loc : Nat
  val : Byte
  deriving DecidableEq, Repr

/-- The slot shadow (R295): what a squash gives back. -/
structure Shadow where
  regs   : Tab Reg
  preds  : BitVec 16
  fflags : Word
  cause  : Word
  fval   : Word
  fpc    : Word
  tvec   : Word
  deriving DecidableEq, Repr

/-- A chunk (R49, R50): its start, its reads and writes word by word, the pages it used. -/
structure Chunk where
  startPc : Nat
  /-- The commit position at which the chunk began (R327). -/
  startCo : Nat
  count   : Nat
  /-- The words read: their places divided by 8. -/
  reads   : List Nat
  /-- The buffered bytes, newest first. -/
  writes  : List WEntry
  /-- The pages translated through (R317). -/
  pages   : List Nat
  /-- A translation the chunk used has been removed (R317). -/
  lost    : Bool
  shadow  : Shadow
  /-- Squashes in a row (R51), whether it runs solo, and the order of entry into solo mode (R328). -/
  sq      : Nat
  solo    : Bool
  soloAt  : Nat
  deriving DecidableEq, Repr

/-- Where a thread is. -/
inductive Place where
  /-- In a slot of a core. -/
  | slot (core slot : Nat)
  /-- In the cluster's stockpile, waiting for a slot of a core (R353). -/
  | stock (core : Nat)
  /-- On a sett core: the program it runs, or a thread that has migrated there. -/
  | sett (n : Nat)
  /-- In a migration packet. -/
  | transit
  deriving DecidableEq, Repr

/-- Why a thread is out of the rotation (R32); `running` when it is not. -/
inductive Wait where
  | running
  /-- For the reply of a load, an atomic, an RFILL, a WATCH, a LAUNCH, a SPAWN. -/
  | reply
  /-- For a handle command's admission or completion (R262). -/
  | handle
  /-- For an armed or pending register (R48). -/
  | reg (n : Nat)
  /-- For a word at an upstream port, or room at a downstream port (R95). -/
  | portIn (p : Nat)
  | portOut (p : Nat)
  /-- For its own matrix command (R213). -/
  | matrix
  /-- For a free entry of an engine's queue (R183). -/
  | queue (e : Engine)
  /-- For a free journal entry (R165). -/
  | journal
  /-- For the release of a barrier (R173). -/
  | gbar (group : Nat)
  /-- At a full/empty word: LDE, LDF or STS (R159). -/
  | word
  /-- WAITA: place and address of the word, condition, value, and the register of the timed form (R167). -/
  | addr (loc va cond : Nat) (v : Word) (timed : Option Nat)
  /-- For a place in a message queue (R175). -/
  | send (core : Nat)
  /-- For its previous chunk to commit (R151). -/
  | commit
  /-- At the Bed fault queue, for the page of an address (R316). -/
  | page (va : Nat)
  /-- For a fence or an XFENCE (R168, R169). -/
  | fence
  | xfence
  /-- IDLE, and IDLE.t (R289). -/
  | idle (timed : Bool)
  /-- NMSTAT, at the place of its record's first word (R277); HSYNC (R268); NMLOAD (R273). -/
  | nmstat (loc : Nat)
  | hsync
  | nmload
  /-- For a line owned by an engine command or a HOP (R332), or reserved by a solo chunk (R328). -/
  | owned
  /-- For a decode table to be built (R74), or for the engines before a TLOAD (R290). -/
  | table
  | engines
  /-- For an overlay, after a migration (R46). -/
  | overlay
  /-- For the exchange of the core's engine state (R299). -/
  | exchange
  /-- For its pending registers, before it travels (R45). -/
  | depart
  deriving DecidableEq, Repr

/-- What a held command becomes at publication (R52): a pending step, or an NMC, NMLOAD or NMROW (0, 1, 2) with its operands. -/
inductive HeldStep where
  | step (e : Event)
  | near (kind : Nat) (a b : Word)
  /-- A SEND: its operand A, and the message for the core that A names (R175, R419). -/
  | message (target : Word) (m : Message)
  deriving DecidableEq, Repr

/-- A command that a sealed thread holds (R52), the pc of its instruction, and the value a refusal reports (R395). -/
structure Held where
  step   : HeldStep
  pc     : Nat
  target : Word
  deriving DecidableEq, Repr

/-- A thread (R34, R295), wherever it is. DESIGN CHOICE: log 3. -/
structure Thread where
  place    : Place
  attr     : Attr
  regs     : Tab Reg
  preds    : BitVec 16
  pc       : Nat
  fflags   : Word
  cause    : Word
  fval     : Word
  fpc      : Word
  tvec     : Word
  chunk    : Chunk
  /-- The chunk at the arbiters (CHK.CMTG, R298). -/
  prev     : Option Chunk
  /-- The footprint of a sealed thread, newest byte first (R52), and the full/empty bits it sets. -/
  foot     : List WEntry
  footFull : Tab Bool
  held     : List Held
  allocs   : List Nat
  /-- The bytes that the copy engine has put into the footprint, for CBYTE at publication (R383). -/
  copied   : Nat
  /-- Asynchronous traps that have arrived, oldest first: cause and value (R393). -/
  async    : List (Nat × Word)
  wait     : Wait
  /-- Numbers the thread's waits, so that a timeout of an earlier wait does nothing. -/
  stamp    : Nat
  /-- The length of the instruction that waits. -/
  ilen     : Nat
  /-- The sets whose round, in which it was counted, has completed while it was not at its GBAR (R179, R286), and from when on it may pass
(R40). -/
  released : List (Nat × Nat)
  haltReq  : Bool
  halted   : Bool
  preempt  : Bool
  /-- The core a thread on a sett core came from (R275). -/
  home     : Option Nat
  /-- The program of a near-memory command (R274), as against a migrated thread. -/
  program  : Bool
  /-- A run in the handler slot (R42). -/
  handler  : Bool
  /-- The order in which the thread entered its place, and its index in the stockpile's SRAM (R293, R353). -/
  enter    : Nat
  index    : Option Nat
  /-- Register that receives the stockpile index on return (CTXSWAP, R293). -/
  swapReg  : Option Nat
  /-- Cycles of ageing while it waits for a slot (R350). -/
  aged     : Nat
  /-- The slot it was last saved from, where a remote fill in flight still finds it (R397). -/
  lastSlot : Option (Nat × Nat)
  /-- A SPAWN child on its way to another core: the core's window is written when it takes a slot there (R310). DEDUCED: log 104. -/
  toPlace  : Bool
  /-- The packet of a .mig access (R45): the pc of the instruction and the word that gives its address. DEDUCED: log 103. -/
  packet   : Option (Nat × Word)
  /-- Returned to the rotation in this cycle: ready from the next (R359). -/
  back     : Bool
  /-- The commit position up to which its TLOAD waits for the core's commands (R290). -/
  drain    : Option Nat
  /-- The port that a saved thread was waiting to read, and the words that have come for it since (R397): port, word, control bit.
  DEDUCED: log 111. -/
  portWait : Option Nat
  stash    : List (Nat × Word × Bool)
  /-- Pre-empted for a record at least 8 levels higher, which takes its place first (R351). DEDUCED: log 110. -/
  ceded    : Bool
  deriving DecidableEq, Repr

/-! ## Engines -/

/-- A decode table: its header (R71) and its 256 W19 entries (R70). The encode order (R74) is a function of the entries. -/
structure DTable where
  header  : Word
  entries : Store 19
  deriving DecidableEq, Repr

/-- The floating-point and integer functions of the V forms (R198). -/
inductive VFun where
  | add | sub | mul | fma | min | max | abs | neg
  | rnd (mode : Nat) | exp2 | scale | rcp | rsq
  | iadd | isub | imul | and | or | xor | shl | shr | shrS
  | rsum | nzc | nzb | perm
  | f2i | f2iRz | i2f | f2b | b2f | f2h | h2f
  deriving DecidableEq, Repr

/-- The commands of the three engines. -/
inductive EngOp where
  | vfun (f : VFun) (d a b : BitVec 4) (m : BitVec 2)
  | vcmp (c : Nat) (d : BitVec 2) (a b : BitVec 4) (m : BitVec 2)
  | vsel (d a b : BitVec 4) (m : BitVec 2)
  | vslide (k d a b : BitVec 4) (m : BitVec 2)
  | vld (v : BitVec 4) | vst (v : BitVec 4) | vlds (v : BitVec 4) | vldx (v : BitVec 4)
  | vldb (v : BitVec 4) | vstb (v : BitVec 4) | vputs (v : BitVec 4) | vgets (v : BitVec 4)
  | vcfg (r : BitVec 6) | vget (r : BitVec 6)
  | mzero (n : BitVec 1) | mma (n : BitVec 1) | mring (n : BitVec 1) | mldb | mstore (n : BitVec 1)
  | maccLd (n : BitVec 1) | maccAdd (n : BitVec 1)
  | snormClr | snormA | snormB | sngetA | sngetB | snputA | snputB | salias | sseed
  | srun (n : BitVec 1) | svar (n : BitVec 1) | pload | pscore | psel | assay (n : BitVec 1) | aread
  | ccopy | cfill | ctcopy | cgather | cscatter | ccopyF | cget (r : BitVec 6)
  deriving DecidableEq, Repr

/-- The vector engine (R180-R182): 16 registers of 16 lanes (lane 16 v + i), 4 masks, its configuration. -/
structure VeState where
  lanes : Store 32
  m0    : BitVec 16
  m1    : BitVec 16
  m2    : BitVec 16
  m3    : BitVec 16
  mode  : Word
  flags : Word
  boff  : Word
  deriving DecidableEq, Repr

/-- A tile in an operand latch: its KS and its W19 values, value (k, j) at 16 k + j (R209). -/
structure Tile where
  ks   : Nat
  vals : Store 19
  deriving DecidableEq, Repr

/-- The settings of the matrix engine that a command copies at entry (R213, R232). -/
structure MeCfg where
  mode   : Word
  geom   : Word
  astr   : Word
  bstr   : Word
  wstr   : Word
  wscale : Word
  ring   : Word
  sk     : Word
  slim   : Word
  stau   : Word
  pgeom  : Word
  ptheta : Word
  pdelta : Word
  peps   : Word
  deriving DecidableEq, Repr

/-- The matrix engine: accumulators, latch, settings, sampling and prospect state (R209, R229, R230). -/
structure MeState where
  /-- acc0 at 0-255, acc1 at 256-511: entry (i, j) at 16 i + j. -/
  acc    : Store 96
  div0   : Nat
  div1   : Nat
  tileIn   : Option Tile
  current  : Option Tile
  tileOut  : Option Tile
  /-- The outgoing tile was discarded (R223). -/
  lost   : Bool
  cfg    : MeCfg
  rstep  : Word
  seed   : Word
  scnt   : Word
  svar   : Word
  sz     : Word
  sfro   : Word
  sstat  : Word
  pcnt   : Word
  apos   : Word
  amass  : Word
  anorm  : Word
  creplay : Word
  cassay : Word
  cskip  : Word
  px     : Word
  qa     : Store 32
  qb     : Store 32
  /-- The alias table (R229): Kt, probabilities, aliases, weights. -/
  kt     : Nat
  prob   : Store 32
  als    : Store 12
  weight : Store 32
  /-- The predictor store: its shape (n, rank, d), its entries as W19, U first, and the addresses are not kept. -/
  pshape : Option (Nat × Nat × Nat)
  pred   : Store 19
  score  : Store 32
  /-- The doubtful list: neuron index and score. -/
  doubt  : List (Nat × BitVec 32)
  deriving DecidableEq, Repr

/-- The configuration of the copy engine (R252). -/
structure CeCfg where
  caddr : Word
  cval  : Word
  len   : Word
  fill  : Word
  geom  : Word
  shape : Word
  sst01 : Word
  sst23 : Word
  dst01 : Word
  dst23 : Word
  idx   : Word
  rows  : Word
  rstr  : Word
  deriving DecidableEq, Repr

/-- What an engine command leaves when it completes: bytes, full bits, a scalar result, new engine state, a fault. -/
structure EngResult where
  writes : List WEntry
  fills  : List Nat
  scalar : Option Word
  ve     : Option VeState
  me     : Option MeState
  /-- Bytes written, for ce.done. -/
  done   : Nat
  /-- Completion word: place and value (R258), and whether it is set full. -/
  cword  : Option (WEntry × Word × Bool)
  /-- A fault found while it ran: cause code and value. -/
  fault  : Option (Nat × Word)
  /-- The k-steps performed and skipped (R383). -/
  ksteps : Nat
  kskips : Nat
  /-- The registers of R230 that it has written, by number, and 100 for the outgoing buffer (R232). -/
  regs   : List Nat
  deriving DecidableEq, Repr

/-- A command in an engine's queue: its issuer, its operands, the settings it copied (R213, R254). DESIGN CHOICE: log 3. -/
structure Cmd where
  uid    : Nat
  ctx    : Nat
  op     : EngOp
  reg    : Nat
  a      : Word
  b      : Word
  pc     : Nat
  mcfg   : MeCfg
  ccfg   : CeCfg
  /-- What the command found and will leave, once it has started. -/
  result : Option EngResult
  /-- Destination lines it owns and source lines not yet read (R332). -/
  dst    : List Nat
  src    : List Nat
  /-- The same of pages that are not mapped yet: addresses divided by 64. DEDUCED: log 112. -/
  vdst   : List Nat
  vsrc   : List Nat
  /-- The stop state of a copy (R259): the boxes of its stream that are written, or its pieces of 256 bytes below the byte cursor. -/
  boxes  : List Nat
  /-- It waits at the Bed fault queue (R187). -/
  stalled : Bool
  /-- Its destinations were discarded with a footprint (R171). -/
  void   : Bool
  /-- An SRUN or ASSAY that has passed a pre-emption point and goes on (R248). -/
  going  : Bool
  /-- The commit position of its admission (R332). -/
  mark   : Nat
  /-- Launch sequence number and TID of its issuer, for the records of its faults (R394). -/
  seq    : Nat
  tid    : Nat
  deriving DecidableEq, Repr

/-- The engine state of a core, which carries one context's tag (R299). -/
structure EngState where
  ve     : VeState
  me     : MeState
  ce     : CeCfg
  done   : Word
  tables : Tab DTable
  /-- Tables whose encode order is being built (R74). -/
  building : List Nat
  deriving DecidableEq, Repr

/-! ## Cores -/

/-- An entry of the posted-store journal (R165). -/
structure JEntry where
  uid   : Nat
  acc   : Access
  /-- The order of issue (R165). -/
  order : Nat
  /-- Applied or refused; the core has not heard yet. -/
  spent : Bool
  /-- Launch sequence number and TID of its issuer (R394). -/
  seq   : Nat
  tid   : Nat
  deriving DecidableEq, Repr

/-- A core (R15). Its local memory stands in the device's memory; its threads in the thread table. -/
structure Core where
  /-- The slot that had the last turn (R29). -/
  last    : Nat
  /-- Per slot, the first cycle at which it may have a turn (R28). -/
  turnAt  : Tab Nat
  tag     : Option Nat
  etag    : Option Nat
  cap     : Nat
  in0     : List (Word × Bool)
  in1     : List (Word × Bool)
  /-- How many of the words of i0 and i1 entered in this cycle (R356). -/
  new0    : Nat
  new1    : Nat
  msgs    : List Message
  /-- Pending light handlers: the launch that claimed the core, g0 and g1 (R357). -/
  lights  : List (Nat × Word × Word)
  journal : Tab JEntry
  /-- The launch that claims the core, and its PMODE (R349, R355). -/
  claim   : Option Nat
  pmode   : Nat
  perf    : Store 64
  /-- Bytes the copy engine has committed since CBYTE last advanced (R383). -/
  cbytes  : Nat
  eng     : EngState
  vq      : List Cmd
  mq      : List Cmd
  cq      : List Cmd
  /-- Threads waiting for an entry of each queue, in order (R358). -/
  vqw     : List Nat
  mqw     : List Nat
  cqw     : List Nat
  deriving DecidableEq, Repr

/-! ## Near memory -/

/-- A command admitted at a sett core (R274). DESIGN CHOICE: log 3. -/
structure NmCmd where
  uid    : Nat
  ctx    : Nat
  core   : Nat
  entry  : Nat
  image  : Nat
  /-- The overlay is loaded for the command itself (NMLOAD). -/
  loadOnly : Bool
  base   : Nat
  len    : Nat
  /-- The range is a handle's: its key. -/
  hnd    : Option Nat
  off    : Word
  arg0   : Word
  arg1   : Word
  arg2   : Word
  /-- The place of the status record's words, and the address that led there (R414). -/
  status : Nat
  statusVa : Nat
  /-- The commit position of its admission. -/
  mark   : Nat
  deriving DecidableEq, Repr

/-- A row-sequencer command (R276): places of its rows' first bytes. DESIGN CHOICE: log 3. -/
structure RowCmd where
  uid    : Nat
  ctx    : Nat
  core   : Nat
  copy   : Bool
  dst    : List Nat
  src    : List Nat
  srcVa  : Nat
  next   : Nat
  status : Nat
  mark   : Nat
  deriving DecidableEq, Repr

/-- A sett core and its pseudo-channel's row sequencer (R19, R20). Its scratch stands in the device's memory. -/
structure Sett where
  /-- The overlay: its address Bv, the place it was loaded from, and its 4 KiB (R273). -/
  ovl     : Option Nat
  ovlFrom : List Nat
  code    : Store 8
  owner   : Option Nat
  queue   : List NmCmd
  /-- The thread of the running program. -/
  running : Option Nat
  visitors : List Nat
  rows    : List RowCmd
  /-- Row-disturbance counters (R386) and the window's activation counts. -/
  mitctl  : Word
  mitsett : Word
  mitseq  : Word
  pabcut  : Word
  acts    : Tab Nat
  deriving DecidableEq, Repr

/-! ## The Bed's tables -/

/-- A cached translation of one 64 KiB page (R315): the frame's physical address and the entry's fields (R375, R376). -/
structure TEntry where
  ctx   : Nat
  page  : Nat
  frame : Nat
  host  : Bool
  rd    : Bool
  wr    : Bool
  ex    : Bool
  kind  : Nat
  /-- The page's size: 0 for 64 KiB, 1 for 2 MiB, 2 for 1 GiB. -/
  level : Nat
  word1 : Word
  /-- The slice that caches it (R312, R315): a core's L2 slice, or (from 16,384 up) an LLC slice. -/
  slice : Nat
  deriving DecidableEq, Repr

/-- Who waits at the Bed fault queue. -/
inductive Waiter where
  | thread (uid : Nat)
  | engine (core : Nat) (e : Engine)
  | hop (ctx hnum : Nat)
  /-- A HALLOC that reads its descriptor (R266). -/
  | handle (cmd : HandleCmd)
  | launch (req : LaunchReq)
  | near (sett : Nat)
  /-- A posted store at its destination (R166). -/
  | post (core entry : Nat)
  /-- A near-memory command that a publication sends (R336): its issuer. -/
  | held (uid : Nat)
  deriving DecidableEq, Repr

/-- An entry of the Bed fault queue (R316). -/
structure FaultEntry where
  ctx     : Nat
  page    : Nat
  waiters : List Waiter
  deriving DecidableEq, Repr

/-- A watch (R176, R381). -/
structure Watch where
  ctx     : Nat
  id      : Nat
  core    : Nat
  slice   : Nat
  base    : Nat
  len     : Nat
  mask    : Word
  cmp     : Word
  handler : Word
  deriving DecidableEq, Repr

/-- A member of a group set: a thread, or a launch's thread that is not yet placed (R346). -/
inductive Member where
  | thread (uid : Nat)
  | unplaced (key tid : Nat)
  deriving DecidableEq, Repr

/-- A group set (R37, R380). -/
structure Group where
  ctx     : Nat
  num     : Nat
  step    : Nat
  members : List Member
  /-- The members counted in the open round; none when no round is open. -/
  round   : Option (List Member)
  arrived : List Nat
  deriving DecidableEq, Repr

/-- An admitted launch record (R341, R343, R345). -/
structure Launch where
  attr    : Attr
  entry   : Nat
  tvec    : Word
  loc     : Nat
  threads : Nat
  place   : Word
  gate    : Nat
  group   : Nat
  image   : List Word
  /-- The places it still has to fill: the next TID, and threads re-queued after a fence (R401). -/
  next    : Nat
  requeue : List Nat
  prio    : Nat
  aged    : Nat
  /-- Threads of it that have been placed and have not ended. -/
  live    : Nat
  deriving DecidableEq, Repr

/-- The states of a handle (R361). -/
inductive HState where
  | live | freeing | dead
  deriving DecidableEq, Repr

/-- An operation in a handle's order (R335): a command, or a re-dress with the classes it adds. DESIGN CHOICE: log 3. -/
structure HEntry where
  cmd     : HandleCmd
  redress : Bool
  gen     : BitVec 32
  /-- The handle the operation also stands on, when it has two operands. -/
  other   : Option Nat
  /-- A re-dress that is being built. -/
  built   : Bool
  /-- Destination lines a HOP owns (R270), and those of pages that are not mapped yet: addresses divided by 64. DEDUCED: log 112. -/
  dst     : List Nat
  vdst    : List Nat
  /-- The commit position of its admission (R332). -/
  mark    : Nat
  deriving DecidableEq, Repr

/-- The dress of a handle (R366). -/
structure Dress where
  order  : List Nat
  pad    : List Nat
  /-- LLC resident, HBM over a set of stacks, or the rows of one pseudo-channel. -/
  place  : Nat
  sett   : Nat
  onStacks : BitVec 12
  /-- The core group over which rows are divided: a Face mask, and the first and last cluster of each Face. -/
  slice  : Option (BitVec 8 × Nat × Nat)
  /-- The stack of each replica. -/
  replicas : List Nat
  /-- The Faces whose cores home pages that its lines lie in (R368). -/
  homes    : BitVec 8
  deriving DecidableEq, Repr

/-- A handle (R361). -/
structure Handle where
  state  : HState
  opset  : BitVec 32
  fmt    : Nat
  /-- NDIM, and the four dimensions as the descriptor gives them. -/
  ndim   : Nat
  dims   : List Nat
  table  : DTable
  bsize  : Nat
  owners : List Word
  hint   : BitVec 4
  gen    : BitVec 32
  dress  : Dress
  pin    : Bool
  /-- Every copy of its elements has been lost (R26, R370): it is poisoned. -/
  bad    : Bool
  asked  : BitVec 32
  charge : Nat
  normC  : Store 32
  normR  : Store 32
  /-- The code of every element. -/
  codes  : Store 32
  order  : List HEntry
  /-- The Dresser's own re-dresses come at most once per 10 ms (R368): the cycle of the last one. -/
  dressedAt : Option Nat
  hops   : Word
  redress : Word
  slicex : Word
  settx  : Word
  deriving DecidableEq, Repr

/-- The saved image of a context for a core (R308, R299). -/
structure Saved where
  bytes : Store 8
  empty : Store 1
  /-- Its poisoned lines (R422). -/
  poison : Store 1
  eng   : EngState
  deriving DecidableEq, Repr

/-! ## The host's registers -/

/-- A context page (R411) and what the Bed keeps for its context. -/
structure CtxPage where
  num     : Nat
  state   : Nat
  err     : Bool
  ptroot  : Word
  sys     : Bool
  dbg     : Bool
  ceil    : Nat
  weight  : Nat
  hqmax   : Word
  hqbytes : Word
  repl    : Word
  rquota  : Word
  wdog    : Word
  fwbase  : Word
  fwsize  : Word
  fwhead  : Word
  fwtail  : Word
  fwlost  : Word
  tva     : Word
  tlen    : Word
  tgo     : Word
  rate    : Word
  allow   : BitVec 1024
  hrepn   : Word
  halt    : Word
  resume  : Word
  viewbase : Word
  vseq    : Word
  msghdr  : Word
  /-- Dispatch is stopped (CMD 2). -/
  stopped : Bool
  /-- The watchdog's count in microseconds, and whether an expiry has come since the last progress (R388, R398). -/
  count   : Nat
  expired : Bool
  /-- A context save that a stuck command holds up (R399): the core. -/
  saving  : Option Nat
  /-- Stopped by a context save that was aborted, while the host holds an image of it (R399). -/
  aborted : Bool
  nextSeq : Nat
  nextH   : Nat
  deriving DecidableEq, Repr

/-- The device page (R417), with the measurement registers (R420). -/
structure Device where
  stepping : BitVec 8
  devid   : BitVec 12
  boot    : BitVec 8
  fenced  : BitVec 8
  fzbase  : Word
  fzlen   : Word
  fzctl   : Word
  /-- The device is frozen: from the sealing of its images to the end of their restoration (R404, R407). -/
  still   : Bool
  capw    : Word
  throt   : Word
  eccc    : Word
  eccu    : Word
  trip    : Word
  isosel  : Word
  /-- Isolation table (R419): local context and remote device to VALID and remote context. -/
  iso     : Tab Word
  nonce   : List Word
  attaddr : Word
  measure : List Word
  /-- The host-port access windows, and their lock at bring-up step 4 (R421, R424). Their layout is not given. DESIGN CHOICE: log 127. -/
  windows : List Word
  locked  : Bool
  deriving DecidableEq, Repr

/-- The held commands of a publication on their way out (R336): who publishes, from where, the command that goes now, and those that
follow it in program order. -/
structure Outbox where
  uid  : Nat
  attr : Attr
  core : Nat
  slot : Nat
  now  : Option Event
  rest : List Held
  deriving DecidableEq, Repr

/-- Everything the device holds. DESIGN CHOICE: log 3. -/
structure Dev where
  /-- Memory: every byte as an ordinary read sees it (Mem.lean gives the places). -/
  mem      : List Host.Cell
  /-- Words whose full/empty bit is empty, keyed by place divided by 8 (R150). -/
  empty    : Store 1
  /-- Poisoned lines, keyed by place divided by 64 (R422). -/
  poison   : Store 1
  /-- Bytes whose HBM copy is not what an ordinary read sees (R334): bit 8 set when a commit is still to be written back,
  clear when a near-memory write passed the held line by; bits 7-0 the HBM copy. -/
  near     : Tab (BitVec 9)
  /-- The HBM lines that the LLC holds (R334), and those whose HBM copy has an error that no access has met yet (R422, R444).
  DEDUCED: log 128, 129. -/
  cached   : Store 1
  latent   : Store 1
  /-- The commit position, and the position of the last write of each word (R324, R327). -/
  co       : Nat
  stamps   : Tab Nat
  /-- Lines reserved by solo chunks: line and thread (R328). -/
  reserved : List (Nat × Nat)
  threads  : Tab Thread
  cores    : Tab Core
  setts    : Tab Sett
  tcache   : List TEntry
  /-- Pages with a recorded write-ownership grant, and with a translation event (R292): context and page. -/
  grants   : List (Nat × Nat)
  used     : List (Nat × Nat)
  /-- The 64 KiB pages that are mapped: context, page and frame, from their first translation on (R311). -/
  mapped   : List (Nat × Nat × Nat)
  faultq   : List FaultEntry
  /-- Accesses waiting at full/empty words, in order of arrival (R160). -/
  waiters  : List Access
  watches  : List Watch
  nextWatch : Nat
  groups   : List Group
  outbox   : List Outbox
  launches : Tab Launch
  nextKey  : Nat
  /-- The context served last at each level, and how many threads its turn has placed (R348). -/
  served   : Tab (Nat × Nat)
  /-- Handles, keyed by context × 2^23 + number. -/
  handles  : Tab Handle
  /-- HSYNC waits: thread, context, handle number or all (R268). -/
  syncs    : List (Nat × Nat × Option Nat)
  saved    : Tab Saved
  ctxs     : Tab CtxPage
  device   : Device
  ageing   : List Word
  /-- Per stack: the permitted-active-banks limit and the alert threshold (R21, R386). -/
  bankLimit : Tab Nat
  threshold : Tab Nat
  lostStacks : List Nat
  lostLinks : List Nat
  lostDevs : List Nat
  lostPorts : List Nat
  /-- Faces whose pages have been re-homed by a fence (R321), and the ranges of addresses whose entries have changed since: Face,
  context, base and length. -/
  lostHomes : BitVec 8
  renewed  : List (Nat × Nat × Nat × Nat)
  bedLost  : Bool
  /-- Pending steps in order, and steps that come due at a cycle. -/
  pending  : List Event
  timers   : List (Nat × Event)
  /-- Issue turns that have been given and not yet taken (model's own). -/
  turns    : List Nat
  /-- The thread whose instruction is being executed, and its word (model's own). -/
  cur      : Nat
  iword    : Half
  cycle    : Nat
  /-- The core whose cycle comes next, and the one whose cycle is ending (R359; model's own). -/
  scan     : Nat
  ending   : Option Nat
  /-- Counts the free values taken (model's own). -/
  free     : Nat
  nextUid  : Nat
  deriving DecidableEq, Repr

/-- What a debugger's view shows (R287). Its layout in the view area is not given. DESIGN CHOICE: log 74. -/
structure View where
  page   : Nat
  uid    : Nat
  regs   : Tab Reg
  preds  : BitVec 16
  pc     : Nat
  /-- The system registers, by number (R297). -/
  sys    : List Word
  /-- acc0 and acc1, and those that an uncompleted command of the thread names. -/
  acc    : Store 96
  unsure : List Nat
  /-- The thread's uncompleted commands. -/
  inFlight : List (Engine × EngOp)
  /-- Its group sets, in each of which it counts as not arrived. -/
  groups : List Nat
  /-- The footprint of a sealed thread, unpublished (R408). -/
  foot   : List WEntry
  deriving DecidableEq, Repr

/-- The state: the device, and the freeze image that the host holds (R404). -/
structure State extends Dev where
  frozen : Option Dev
  /-- The last view that the debugger was given (R287). -/
  view : Option View
  /-- What the last CXL.mem read returned to the host: its bytes, or poison (R422). -/
  cxlData : Option (List Byte)
  deriving DecidableEq, Repr

/-! ## Reset -/

/-- The vector engine at reset (R300). -/
def VeState.reset : VeState :=
  ⟨[], 0xFFFF#16, 0xFFFF#16, 0xFFFF#16, 0xFFFF#16, 0#64, 0#64, 0#64⟩

/-- The matrix engine's settings at reset on core `q` (R301). -/
def MeCfg.reset (q : Nat) : MeCfg where
  mode := 0#64
  geom := 0xFF01#64
  astr := 64#64
  bstr := 32#64
  wstr := 64#64
  wscale := 0x3F800000#64
  ring := BitVec.ofNat 64 (q * 65536 + q)
  sk := 1#64
  slim := 0x10000#64
  stau := 0#64
  pgeom := 0x10001#64
  ptheta := 0#64
  pdelta := 0#64
  peps := 0#64

/-- The matrix engine at reset on core `q` (R301, R229, R379). DESIGN CHOICE: log 6. -/
def MeState.reset (q : Nat) : MeState where
  acc := []
  div0 := 1
  div1 := 1
  tileIn := none
  current := none
  tileOut := none
  lost := false
  cfg := MeCfg.reset q
  rstep := 0#64
  seed := 0#64
  scnt := 0#64
  svar := 0#64
  sz := 0#64
  sfro := 0#64
  sstat := 0#64
  pcnt := 0#64
  apos := 0#64
  amass := 0#64
  anorm := 0#64
  creplay := 0#64
  cassay := 0#64
  cskip := 0#64
  px := 0#64
  qa := []
  qb := []
  kt := 0
  prob := []
  als := []
  weight := []
  pshape := none
  pred := []
  score := []
  doubt := []

/-- The copy engine at reset (R302). -/
def CeCfg.reset : CeCfg where
  caddr := 0#64
  cval := 0#64
  len := 0#64
  fill := 0#64
  geom := 0xC00#64
  shape := 0x0001000100010001#64
  sst01 := 0#64
  sst23 := 0#64
  dst01 := 0#64
  dst23 := 0#64
  idx := 0#64
  rows := 0x0000000100000001#64
  rstr := 0#64

/-- A decode table at module reset (R378). -/
def DTable.reset : DTable := ⟨0#64, []⟩

/-- The engine state at reset on core `q` (R299). -/
def EngState.reset (q : Nat) : EngState := ⟨.reset, .reset q, .reset, 0#64, [], []⟩

/-- Core `q` at module reset (R15, R297, R308). Every core has 512 registers: which cores are repaired, with 372 to 508, is the part's own
(R16), and no step changes it. DESIGN CHOICE: log 5, 119. -/
def Core.reset (q : Nat) : Core where
  last := 16
  turnAt := []
  tag := none
  etag := none
  cap := 512
  in0 := []
  in1 := []
  new0 := 0
  new1 := 0
  msgs := []
  lights := []
  journal := []
  claim := none
  pmode := 0
  perf := []
  cbytes := 0
  eng := .reset q
  vq := []
  mq := []
  cq := []
  vqw := []
  mqw := []
  cqw := []

/-- A sett core at module reset (R273, R320, R386). -/
def Sett.reset : Sett where
  ovl := none
  ovlFrom := []
  code := []
  owner := none
  queue := []
  running := none
  visitors := []
  rows := []
  mitctl := 0#64
  mitsett := 0#64
  mitseq := 0#64
  pabcut := 0#64
  acts := []

/-- A context page at reset (R411; WDOG by R297). DESIGN CHOICE: log 9, 61. -/
def CtxPage.reset : CtxPage where
  num := 0
  state := 0
  err := false
  ptroot := 0#64
  sys := false
  dbg := false
  ceil := 0
  weight := 1
  hqmax := 0#64
  hqbytes := 0#64
  repl := 0#64
  rquota := 0#64
  wdog := 2000000#64
  fwbase := 0#64
  fwsize := 0#64
  fwhead := 0#64
  fwtail := 0#64
  fwlost := 0#64
  tva := 0#64
  tlen := 0#64
  tgo := 0#64
  rate := 0#64
  allow := 0#1024
  hrepn := 0#64
  halt := 0#64
  resume := 0#64
  viewbase := 0#64
  vseq := 0#64
  msghdr := 0#64
  stopped := false
  count := 0
  expired := false
  saving := none
  aborted := false
  nextSeq := 0
  nextH := 0

/-- The device page at reset (R417). DESIGN CHOICE: log 9. -/
def Device.reset : Device where
  stepping := 0#8
  devid := 0#12
  boot := 0#8
  fenced := 0#8
  fzbase := 0#64
  fzlen := 0#64
  fzctl := 0#64
  still := false
  capw := 3000#64
  throt := 0#64
  eccc := 0#64
  eccu := 0#64
  trip := 0#64
  isosel := 0#64
  iso := []
  nonce := List.replicate 8 0#64
  attaddr := 0#64
  measure := []
  windows := []
  locked := false

/-- The device right after module reset. DESIGN CHOICE: log 8. -/
def Dev.reset : Dev where
  mem := []
  empty := []
  poison := []
  near := []
  cached := []
  latent := []
  co := 0
  stamps := []
  reserved := []
  threads := []
  cores := []
  setts := []
  tcache := []
  grants := []
  used := []
  mapped := []
  faultq := []
  waiters := []
  watches := []
  nextWatch := 0
  groups := []
  outbox := []
  launches := []
  nextKey := 0
  served := []
  handles := []
  syncs := []
  saved := []
  ctxs := []
  device := .reset
  ageing := []
  bankLimit := []
  threshold := []
  lostStacks := []
  lostLinks := []
  lostDevs := []
  lostPorts := []
  lostHomes := 0#8
  renewed := []
  bedLost := false
  pending := []
  timers := []
  turns := []
  cur := 0
  iword := 0#32
  cycle := 0
  scan := 0
  ending := none
  free := 0
  nextUid := 0

/-- The machine right after reset: every field at the value the spec states, and, where it states none, at the value the
assumption log names. DESIGN CHOICE: log 3, 5, 7. -/
def State.reset : State := { Dev.reset with frozen := none, view := none, cxlData := none }

end Sys2Proof.Machine
end

