-- ==== Sys2Proof/Machine/Codes.lean ====
section
/-!
DEFINITION. Element codes (R59, R154), decode tables (R70-R74), block scales and scale runs (R76-R79), nonzero tests (R80).
-/
namespace Sys2Proof.Machine

/-! ## Decode tables -/

/-- A header field of a decode table (R71). -/
def DTable.field (t : DTable) (lo w : Nat) : Nat := t.header.toNat / 2 ^ lo % 2 ^ w
/-- The NaN code of T8 or of H4. -/
def DTable.nanCode (t : DTable) (h4 : Bool) : Nat := if h4 then t.field 40 4 else t.field 0 8
/-- The saturation code. -/
def DTable.satCode (t : DTable) (h4 neg : Bool) : Nat :=
  if h4 then (if neg then t.field 48 4 else t.field 44 4) else (if neg then t.field 16 8 else t.field 8 8)
/-- The infinity code. -/
def DTable.infCode (t : DTable) (h4 neg : Bool) : Nat :=
  if h4 then (if neg then t.field 56 4 else t.field 52 4) else (if neg then t.field 32 8 else t.field 24 8)
/-- The overflow bit. -/
def DTable.ovf (t : DTable) (h4 : Bool) : Bool := if h4 then t.header.getLsbD 61 else t.header.getLsbD 60

/-- decode_table(t, K, c) (R72). -/
def DTable.decode (t : DTable) (h4 : Bool) (c : Nat) : FV :=
  value W19 (Store.get t.entries (if h4 then c % 16 else c % 256)).toNat

/-- The candidate codes, in increasing order, with their values (R73). -/
def DTable.cands (t : DTable) (h4 : Bool) : List (Nat × FV) :=
  ((List.range (if h4 then 16 else 256)).map (fun c => (c, t.decode h4 c))).filter
    (fun e => e.2.isFinite && decide (e.1 ≠ t.nanCode h4))

/-- The largest (or smallest) of some values, and its next lower (or higher) distinct one. -/
def extreme (big : Bool) (l : List FV) : FV × FV :=
  let better (x y : FV) : Bool := if big then y.lt x else x.lt y
  let p := l.foldl (fun m v => if better v m then v else m) (l.headD (.zero false))
  let rest := l.filter (fun v => !v.eq p)
  match rest with
  | [] => (p, p)
  | v :: vs => (p, vs.foldl (fun m v => if better v m then v else m) v)

/-- encode_table(t, K, x) (R73): the code and the flags it sets. DEDUCED: log 36. -/
def DTable.encode (t : DTable) (h4 : Bool) (x : FV) : Nat × Flags :=
  let nx (c : Nat) (f : Flags) : Nat × Flags := (c, if (t.decode h4 c).eq x then f else f ||| flagNX)
  if x.isNan then (t.nanCode h4, 0#6)
  else
    let cs := t.cands h4
    let vals := cs.map (·.2)
    if cs.isEmpty then
      if t.ovf h4 then nx (t.infCode h4 x.neg) flagOF else nx (t.satCode h4 x.neg) 0#6
    else
      match (if x.isZero then cs.find? (fun e => decide (e.2 = x)) else none) with
      | some e => (e.1, 0#6)
      | none =>
        let (p, g) := extreme true vals
        let (m, h) := extreme false vals
        -- beyond the end by at least half the last gap: x >= P + (P - G) / 2, x <= M - (H - M) / 2
        let low := x.lt m
        let far := if low then x.twice.le (m.twice.add (m.add h.negate)) else (p.twice.add (p.add g.negate)).le x.twice
        let beyond := low || p.lt x
        if beyond && !t.ovf h4 then nx (t.satCode h4 low) 0#6
        else if beyond && far then nx (t.infCode h4 low) flagOF
        else
          let best := cs.foldl (fun b e => if (x.dist e.2).lt (x.dist b.2) then e else b) (cs.headD (0, .zero false))
          nx best.1 0#6

/-- A table from its 1,032-byte image (R70): bits [63:62] of the header and [31:19] of an entry are ignored. -/
def DTable.ofImage (bytes : List Byte) : DTable :=
  let n (k c : Nat) : Nat := ((bytes.drop k).take c).foldr (fun b v => b.toNat + 256 * v) 0
  { header := BitVec.ofNat 64 (n 0 8 % 2 ^ 62)
    entries := (List.range 256).foldl (fun s c => Store.put s c (BitVec.ofNat 19 (n (8 + 4 * c) 4))) [] }

/-! ## Elements -/

/-- The width of an element in bits (R59). -/
def elemBits (code : Nat) : Nat :=
  if code = 1 then 32 else if code = 2 ∨ code = 3 then 16 else if 8 ≤ code ∧ code ≤ 11 then 4
  else if code = 0 then 32 else 8

/-- Whether a format code names a decode table, which, and whether it is H4 (R59). -/
def elemTable (code : Nat) : Option (Nat × Bool) :=
  if 4 ≤ code ∧ code ≤ 7 then some (code - 4, false)
  else if 8 ≤ code ∧ code ≤ 11 then some (code - 8, true) else none

/-- The value of an element's code (R59, R154). -/
def decodeElem (code : Nat) (tab : Nat → DTable) (raw : Nat) : FV :=
  match elemTable code with
  | some (t, h4) => (tab t).decode h4 raw
  | none =>
    if code = 2 then value BF16 raw else if code = 3 then value F16 raw
    else if code = 12 then .ofInt (BitVec.ofNat 8 raw).toInt else value F32 raw

/-- The code of a value (R154's rule for stores): a signalling NaN sets NV, fz applies to the operand first. DEDUCED: log 36. -/
def encodeElem (code : Nat) (tab : Nat → DTable) (fz sat : Bool) (x : FV) : Nat × Flags :=
  let nv : Flags := if x = .nan true then flagNV else 0#6
  let y := x.flush fz
  match elemTable code with
  | some (t, h4) => let (c, f) := (tab t).encode h4 y; (c, f ||| nv)
  | none =>
    if code = 2 then round BF16 fz sat y else if code = 3 then round F16 fz sat y
    else if code = 12 then let (n, f) := f2i y 0 (-128) 127; ((BitVec.ofInt 8 n).toNat, f)
    else round F32 fz sat y

/-- The F32 of a decoded element after fz, and the NV of a signalling NaN (R154). -/
def elemF32 (fz : Bool) (x : FV) : Nat × Flags := round F32 false false (x.flush fz)

/-! ## Block scales -/

/-- v × scale_of(e) (R76). -/
def scaleMul (x : FV) (e : Nat) : FV :=
  match x with
  | .nan s => .nan s
  | v => if e = 255 then .nan false else if e = 0 then .zero v.neg else v.scale ((e : Int) - 127)
/-- x ÷ scale_of(e) for e from 1 to 254 (R79). -/
def scaleDiv (x : FV) (e : Nat) : FV := x.scale (127 - (e : Int))

/-- Nibble j of a scale run (R77). -/
def runNibble (run : List Byte) (j : Nat) : Nat :=
  let b := (run.getD (1 + j / 2) 0#8).toNat
  if j % 2 = 0 then b % 16 else b / 16

/-- The loop of run_scales (R77): scales so far, newest first, and escapes taken. -/
def runScalesAux (run : List Byte) : Nat → Nat → List Nat → Nat → Option (List Nat)
  | 0, _, es, k => if k ≤ 7 ∧ k = runNibble run 15 then some es.reverse else none
  | n + 1, b, es, k =>
    let nib := runNibble run (b - 1)
    if nib = 8 then runScalesAux run n (b + 1) ((run.getD (9 + k) 0#8).toNat :: es) (k + 1)
    else
      let p := es.headD 0
      let e : Int := (p : Int) + (if nib < 8 then (nib : Int) else (nib : Int) - 16)
      if p = 0 ∨ p = 255 ∨ e < 1 ∨ 254 < e then none
      else runScalesAux run n (b + 1) (e.toNat :: es) k

/-- run_scales(run) (R77): the 16 scale bytes, or none for a malformed run. -/
def runScales (run : List Byte) : Option (List Nat) := runScalesAux run 15 1 [(run.headD 0#8).toNat] 0

/-- P of an element format (R79). -/
def elemMax (code : Nat) (tab : Nat → DTable) : FV :=
  match elemTable code with
  | some (t, h4) => (extreme true (((tab t).cands h4).map (·.2))).1
  | none =>
    if code = 2 then value BF16 (BF16.infBits - 1) else if code = 3 then value F16 (F16.infBits - 1)
    else if code = 12 then .ofInt 127 else value F32 (F32.infBits - 1)

/-- choose_scale(block) (R79); `prev` is the scale of the block before. -/
def chooseScale (code : Nat) (tab : Nat → DTable) (prev : Nat) (xs : List FV) : Nat :=
  let noCand := match elemTable code with
    | some (t, h4) => ((tab t).cands h4).isEmpty
    | none => false
  if noCand then 127
  else
    let fin := (xs.filter FV.isFinite).map (fun x => if x.neg then x.negate else x)
    let a := fin.foldl (fun m v => if m.lt v then v else m) (.zero false)
    if a.isZero then prev
    else
      let p := elemMax code tab
      ((List.range 254).find? (fun k => (scaleDiv a (k + 1)).le p)).elim 254 (· + 1)

/-- The loop of encode_run (R79): nibbles and escape bytes so far, newest first, final scales newest first, flag. -/
def encodeRunAux : List Nat → List Nat → List Nat → List Nat → Bool → List Nat × List Nat × List Nat × Bool
  | [], nibs, esc, done, sc => (nibs.reverse, esc.reverse, done.reverse, sc)
  | e :: rest, nibs, esc, done, sc =>
    let p := done.headD 0
    let d : Int := (e : Int) - (p : Int)
    if -7 ≤ d ∧ d ≤ 7 then encodeRunAux rest ((d % 16).toNat :: nibs) esc (e :: done) sc
    else if esc.length < 7 then encodeRunAux rest (8 :: nibs) (e :: esc) (e :: done) sc
    else
      let c : Int := if d < 0 then -7 else 7
      encodeRunAux rest ((c % 16).toNat :: nibs) esc (((p : Int) + c).toNat :: done) true

/-- encode_run(e) (R79): the run's 16 bytes, the final scales, and whether a scale was clamped. DEDUCED: log 35. -/
def encodeRun (es : List Nat) : List Byte × List Nat × Bool :=
  let e0 := es.headD 127
  let (nibs, esc, fin, sc) := encodeRunAux (es.drop 1) [] [] [e0] false
  let nb (j : Nat) : Nat := if j = 15 then esc.length else nibs.getD j 0
  let bytes := BitVec.ofNat 8 e0 :: ((List.range 8).map (fun i => BitVec.ofNat 8 (nb (2 * i) + 16 * nb (2 * i + 1))))
    ++ (List.range 7).map (fun i => BitVec.ofNat 8 (esc.getD i 0))
  (bytes, fin, sc)

/-! ## Nonzero tests -/

/-- The codes of one lane by ve.mode.NZK (R206): their width in bits. -/
def nzBits (kind : Nat) : Nat := if kind = 0 then 32 else if kind = 1 then 16 else if kind = 4 then 4 else 8
/-- Whether a stored code counts as nonzero (R80, R206). -/
def nzCode (kind : Nat) (t : DTable) (c : Nat) : Bool :=
  if kind = 0 then decide (c % 2 ^ 31 ≠ 0)
  else if kind = 1 then decide (c % 2 ^ 15 ≠ 0)
  else if kind = 2 then decide (c ≠ 0)
  else !(t.decode (decide (kind = 4)) c).isZero

end Sys2Proof.Machine
end

