-- ==== Sys2Proof/Machine/Mem.lean ====
section
/-!
DEFINITION. Where an address leads: the places of all memories, the two maps of HBM (R457), windows (R304), the walk of the page
tables (R374-R377), homing (R312, R313), and the reading and committing of bytes with what follows them (R313, R334).
-/
namespace Sys2Proof.Machine

/-! ## Places

Every byte the device can reach has one place, a number: an HBM byte its storage line × 64 plus its offset; the other memories
stand above 2^56. -/

/-- A host physical address. -/
def hostLoc (a : Nat) : Nat := 2 ^ 56 + a
/-- A byte of another device's HBM. DESIGN CHOICE: log 22. -/
def remoteLoc (dev off : Nat) : Nat := 2 ^ 57 + dev * 2 ^ 40 + off
/-- A byte of core `c`'s local memory. -/
def localLoc (c off : Nat) : Nat := 2 ^ 58 + c * 2 ^ 16 + off
/-- A byte of sett core `n`'s scratch. -/
def scratchLoc (n off : Nat) : Nat := 2 ^ 59 + n * 2 ^ 16 + off
/-- Whether a place is in HBM. -/
def isHbm (loc : Nat) : Bool := decide (loc < 2 ^ 56)
/-- Whether a place is local memory, and of which core. -/
def localCore (loc : Nat) : Option Nat :=
  if 2 ^ 58 ≤ loc ∧ loc < 2 ^ 59 then some ((loc - 2 ^ 58) / 2 ^ 16) else none
/-- Whether a place is another device's, and which. DESIGN CHOICE: log 22. -/
def remoteDev (loc : Nat) : Option Nat :=
  if 2 ^ 57 ≤ loc ∧ loc < 2 ^ 58 then some ((loc - 2 ^ 57) / 2 ^ 40) else none
/-- The pseudo-channel of an HBM place (R457). -/
def settOf (loc : Nat) : Nat := loc / 64 / Config.linesPerSett

/-- The interleaved map (R457): the place of a device physical offset. -/
def interleaved (o : Nat) : Nat :=
  let n := o / 64
  (((n % 12) * 64 + n / 12 % 64) * Config.linesPerSett + n / 768) * 64 + o % 64
/-- The direct map (R457). -/
def direct (o : Nat) : Nat := o

/-! ## Cores (R14) -/

/-- Face, x, y and cluster index of a core id. -/
def faceOf (c : Nat) : Nat := c / 2048
/-- x. -/
def xOf (c : Nat) : Nat := c % 32
/-- y. -/
def yOf (c : Nat) : Nat := c % 2048 / 32
/-- Cluster index within the Face. -/
def clusterOf (c : Nat) : Nat := yOf c / 4 * 8 + xOf c / 4
/-- Device-wide cluster index (R342). -/
def clusterId (c : Nat) : Nat := faceOf c * 128 + clusterOf c
/-- The core at (x, y) of a Face. -/
def coreAt (face x y : Nat) : Nat := face * 2048 + y * 32 + x
/-- The cores of a device-wide cluster, in increasing core id. -/
def clusterCores (k : Nat) : List Nat :=
  let x0 := k % 8 * 4
  let y0 := k % 128 / 8 * 4
  (List.range 16).map (fun i => coreAt (k / 128) (x0 + i % 4) (y0 + i / 4))

/-! ## A thread's registers -/

/-- Register gk. -/
def Thread.reg (t : Thread) (k : Nat) : Reg := Tab.get Reg.empty t.regs k
/-- Puts a register's contents and bits. -/
def Thread.putReg (t : Thread) (k : Nat) (r : Reg) : Thread := { t with regs := Tab.put Reg.empty t.regs k r }
/-- An ordinary write: full, not armed; a pending result will still overwrite it (R126, R161, R296). -/
def Thread.setReg (t : Thread) (k : Nat) (v : Word) : Thread := t.putReg k { t.reg k with val := v, full := true, armed := false }
/-- A fill from outside the thread: the register and its copy in the slot shadow (R296). DEDUCED: log 95. -/
def Thread.fillReg (t : Thread) (k : Nat) (v : Word) : Thread :=
  let t := t.putReg k ⟨v, true, false, false⟩
  let sh (c : Chunk) : Chunk :=
    { c with shadow := { c.shadow with regs := Tab.put Reg.empty c.shadow.regs k ⟨v, true, false, false⟩ } }
  { t with chunk := sh t.chunk, prev := t.prev.map sh }
/-- The instruction that waited completes: the thread returns to the rotation past it, ready from the next cycle (R359); where a debugger has
set another pc during the wait, `ilen` is 0 (R288). -/
def Thread.finish (t : Thread) : Thread := { t with wait := .running, back := true, pc := t.pc + t.ilen }
/-- A wait ends and the instruction will issue again. -/
def Thread.wake (t : Thread) : Thread := { t with wait := .running, back := true }

/-! ## Parts of the state -/

/-- A core as it stands. -/
def State.core (s : State) (c : Nat) : Core := Tab.get (Core.reset c) s.cores c
/-- A sett core as it stands. -/
def State.sett (s : State) (n : Nat) : Sett := Tab.get Sett.reset s.setts n
/-- Changes a core. -/
def State.modCore (s : State) (c : Nat) (f : Core → Core) : State :=
  { s with cores := Tab.put (Core.reset c) s.cores c (f (s.core c)) }
/-- Changes a sett core. -/
def State.modSett (s : State) (n : Nat) (f : Sett → Sett) : State :=
  { s with setts := Tab.put Sett.reset s.setts n (f (s.sett n)) }
/-- A thread, if there is one of that number. -/
def State.thread? (s : State) (u : Nat) : Option Thread := Tab.find? s.threads u
/-- Changes a thread. -/
def State.modThread (s : State) (u : Nat) (f : Thread → Thread) : State :=
  match s.thread? u with
  | none => s
  | some t => { s with threads := Tab.insert s.threads u (f t) }
/-- The thread in a slot. -/
def State.inSlot (s : State) (c k : Nat) : Option (Nat × Thread) :=
  List.find? (fun e => decide (e.2.place = .slot c k)) s.threads
/-- The page of a context: its number and the page, for a context that is not free. -/
def State.page? (s : State) (ctx : Nat) : Option (Nat × CtxPage) :=
  List.find? (fun e => decide (e.2.num = ctx) && decide (e.2.state ≠ 0)) s.ctxs
/-- A context page as it stands. -/
def State.ctxPage (s : State) (i : Nat) : CtxPage := Tab.get CtxPage.reset s.ctxs i
/-- Changes a context page. -/
def State.modPage (s : State) (i : Nat) (f : CtxPage → CtxPage) : State :=
  { s with ctxs := Tab.put CtxPage.reset s.ctxs i (f (s.ctxPage i)) }
/-- Changes the page of a context. -/
def State.modCtx (s : State) (ctx : Nat) (f : CtxPage → CtxPage) : State :=
  match s.page? ctx with
  | none => s
  | some (i, _) => s.modPage i f
/-- Adds a pending step. -/
def State.push (s : State) (e : Event) : State := { s with pending := s.pending ++ [e] }
/-- Adds a step that comes due `n` cycles on. DESIGN CHOICE: log 2. -/
def State.after (s : State) (n : Nat) (e : Event) : State := { s with timers := s.timers ++ [(s.cycle + n, e)] }
/-- Whether a Face is fenced (R400). -/
def State.faceFenced (s : State) (f : Nat) : Bool := s.device.fenced.getLsbD f
/-- Whether the device is freezing or frozen (R404, R418). -/
def State.freezing (s : State) : Bool := decide (s.device.fzctl = 1#64) || s.device.still
/-- Whether the module has no coolant: it does not leave reset (R9, R424). -/
def State.inReset (s : State) : Bool := decide (s.device.boot = 0x81#8)
/-- Whether the host reaches the device page only: the firmware was not verified (R420). -/
def State.pageOnly (s : State) : Bool := decide (s.device.boot = 0x82#8)
/-- Whether a core lies on a fenced Face. -/
def State.coreFenced (s : State) (c : Nat) : Bool := s.faceFenced (faceOf c)
/-- Advances a performance counter of a core (R383). -/
def State.count (s : State) (c i n : Nat) : State :=
  s.modCore c (fun q => { q with perf := Store.put q.perf i (Store.get q.perf i + BitVec.ofNat 64 n) })
/-- A re-dress that no command has asked for (R368): the Dresser's own. -/
def HEntry.dresserOwn (o : HEntry) : Bool := o.redress && decide (o.cmd.op ≠ .widen)
/-- Whether a context's watchdog is held (R389): by a halted thread, an unresolved page, or a freeze. -/
def State.dogHeld (s : State) (ctx : Nat) : Bool :=
  s.threads.any (fun e => decide (e.2.attr.ctx = ctx) && e.2.halted) || s.faultq.any (fun f => decide (f.ctx = ctx)) || s.freezing
/-- Whether a context's watchdog stands still (R389): it is held, or nothing of the context is on the device. -/
def State.dogStill (s : State) (ctx : Nat) : Bool :=
  let mine := s.threads.filter (fun e => decide (e.2.attr.ctx = ctx))
  s.dogHeld ctx ||
  !(mine.any (fun e => match e.2.place with
      | .slot _ _ => true
      | _ => false) ||
    s.cores.any (fun c => (c.2.vq ++ c.2.mq ++ c.2.cq).any (fun k => decide (k.ctx = ctx))) ||
    s.setts.any (fun n => n.2.queue.any (fun c => decide (c.ctx = ctx)) || n.2.rows.any (fun c => decide (c.ctx = ctx))) ||
    s.handles.any (fun e => decide (e.1 / 2 ^ 23 = ctx) && e.2.order.any (fun o => !o.dresserOwn)))
/-- The watchdog's count returns to 0 (R388). -/
def State.restartDog (s : State) (ctx : Nat) : State := s.modCtx ctx (fun p => { p with count := 0, expired := false })
/-- Progress of a context (R388): the watchdog's count returns to 0, unless it stands still (R389). DEDUCED: log 99. -/
def State.progress (s : State) (ctx : Nat) : State := if s.dogStill ctx then s else s.restartDog ctx
/-- Progress that was made in an earlier state, when what ended by it was still under way. -/
def State.progressOf (s was : State) (ctx : Nat) : State := if was.dogStill ctx then s else s.restartDog ctx
/-- A choice of the device's own, below `n`. DESIGN CHOICE: log 4. -/
def State.choose (s : State) (n : Nat) : Nat × State :=
  (Config.choice s.free % max n 1, { s with free := s.free + 1 })
/-- A word the spec does not state. DESIGN CHOICE: log 4. -/
def State.freeWord (s : State) : Word × State := (Config.freeWord s.free, { s with free := s.free + 1 })

/-! ## Translation -/

/-- One 16-byte page-table entry at a physical address, as committed memory (R374). -/
def State.ptEntry (s : State) (pa : Nat) : Nat × Nat :=
  let dev := pa / 2 ^ 40 % 4096
  let at' (o : Nat) : Nat :=
    if dev = s.device.devid.toNat then interleaved (o % 2 ^ 40) else remoteLoc dev (o % 2 ^ 40)
  (Store.read s.mem (at' pa) 8, Store.read s.mem (at' (pa + 8)) 8)

/-- The fields of word 0 (R375). -/
def pteValid (w0 : Nat) : Bool := w0.testBit 63
/-- LEAF. -/
def pteLeaf (w0 : Nat) : Bool := w0.testBit 62
/-- ADDR. -/
def pteAddr (w0 : Nat) : Nat := w0 / 512 % 2 ^ 43 * 512

/-- Whether an entry is invalid (R377, R419), for its level. -/
def State.pteInvalid (s : State) (level w0 w1 : Nat) : Bool :=
  let leaf := pteLeaf w0
  let pa := pteAddr w0
  let host := w0.testBit 61
  let kind := w1 / 2 ^ 62
  let home := w1 % 2 ^ 14
  let size := if level = 2 then 2 ^ 30 else if level = 1 then 2 ^ 21 else 2 ^ 16
  let dev := pa / 2 ^ 40
  let off := pa % 2 ^ 40
  let own := decide (dev = s.device.devid.toNat)
  decide (w0 / 2 ^ 52 % 16 ≠ 0) || decide (w0 % 512 ≠ 0) || (host && decide (kind ≠ 2)) ||
  (leaf && decide (level = 3)) || (!leaf && decide (level = 0)) ||
  (if leaf then
    decide (pa % size ≠ 0) || decide (w1 / 2 ^ 31 % 2 ^ 31 ≠ 0) || w1.testBit 23 || decide (w1 / 2 ^ 14 % 4 ≠ 0) ||
    (decide (kind = 1) && (decide (home / 256 ≠ 0) || decide (home % 256 = 0) ||
      decide (w1 / 2 ^ 24 % 128 < w1 / 2 ^ 16 % 128))) ||
    (decide (kind = 2) && decide (home ≠ 0)) ||
    (decide (kind = 3) && (!own || decide (size ≠ 2 ^ 16) || decide (off / 805306368 ≠ home))) ||
    (!host && ((!own && decide (kind ≠ 2)) || decide (0x9000000000 ≤ off)))
  else decide (w1 ≠ 0) || decide (pa % (if level = 1 then 512 else 8192) ≠ 0))

/-- The walk (R374), from `level` down; the result is the entry of the 64 KiB page that holds the address. -/
def State.walk (s : State) (ctx va : Nat) : Nat → Nat → Option TEntry
  | 0, _ => none
  | n + 1, node =>
    let idx := if n = 3 then va / 2 ^ 39 % 512 else if n = 2 then va / 2 ^ 30 % 512
      else if n = 1 then va / 2 ^ 21 % 512 else va / 2 ^ 16 % 32
    let (w0, w1) := s.ptEntry (node + 16 * idx)
    if !pteValid w0 || s.pteInvalid n w0 w1 then none
    else if pteLeaf w0 then
      let size := if n = 2 then 2 ^ 30 else if n = 1 then 2 ^ 21 else 2 ^ 16
      some { ctx := ctx, page := va / 2 ^ 16, frame := pteAddr w0 + va % size / 2 ^ 16 * 2 ^ 16, host := w0.testBit 61
             rd := w0.testBit 56, wr := w0.testBit 57, ex := w0.testBit 58, kind := w1 / 2 ^ 62
             level := n
             word1 := BitVec.ofNat 64 w1
             slice := 0 }
    else State.walk s ctx va n (pteAddr w0)

/-- The place of a byte of a page (R311, R457, R419). -/
def State.placeIn (s : State) (e : TEntry) (va : Nat) : Nat :=
  let pa := e.frame + va % 2 ^ 16
  if e.host then hostLoc pa
  else if pa / 2 ^ 40 ≠ s.device.devid.toNat then remoteLoc (pa / 2 ^ 40) (pa % 2 ^ 40)
  else if e.kind = 3 then direct (pa % 2 ^ 40) else interleaved (pa % 2 ^ 40)

/-- The window of an address (R304). -/
def windowOf (va : Nat) : Nat := va / 2 ^ 44

/-- The cores of a hashed page's group, in increasing core id (R313, R376). -/
def hashGroup (w1 : Word) : List Nat :=
  let first := w1.toNat / 2 ^ 16 % 128
  let last := w1.toNat / 2 ^ 24 % 128
  (List.range Config.cores).filter (fun c =>
    w1.getLsbD (faceOf c) && decide (first ≤ clusterOf c) && decide (clusterOf c ≤ last))

/-- The home of a line of a hashed page (R313). -/
def hashHome (w1 : Word) (va : Nat) : Nat :=
  let l := va / 64
  let g := hashGroup w1
  g.getD ((l ^^^ (l / 2 ^ 11) ^^^ (l / 2 ^ 23)) % g.length) 0

/-- Whether a core no longer homes an address of a context (R321): its Face is fenced, or has been since the page's entry was set. -/
def State.homeLost (s : State) (c ctx va : Nat) : Bool :=
  s.coreFenced c || (s.lostHomes.getLsbD (faceOf c) && !s.renewed.any (fun r : Nat × Nat × Nat × Nat =>
    decide (r.1 = faceOf c) && decide (r.2.1 = ctx) && decide (r.2.2.1 ≤ va) && decide (va < r.2.2.1 + r.2.2.2)))

/-- The slice where a page is translated and its watches stand (R312): a core's L2 slice, or (from 16,384 up) an LLC slice. -/
def State.homeSlice (s : State) (e : TEntry) (va : Nat) : Nat :=
  let home := if e.kind = 0 then some (e.word1.toNat % 2 ^ 14)
    else if e.kind = 1 then some (hashHome e.word1 va) else none
  match home with
  | some c => if s.homeLost c e.ctx va then Config.cores + s.placeIn e va / 64 % 256 else c
  | none => Config.cores + s.placeIn e va / 64 % 256

/-- The translation of a global address (R315): the one that the slice where the address is translated has cached, else the walk's.
DESIGN CHOICE: log 59. -/
def State.lookup (s : State) (ctx va : Nat) : Option TEntry :=
  match s.tcache.find? (fun e => decide (e.ctx = ctx) && decide (e.page = va / 2 ^ 16) && decide (e.slice = s.homeSlice e va)) with
  | some e => some e
  | none =>
    match s.page? ctx with
    | none => none
    | some (_, p) => (s.walk ctx va 4 p.ptroot.toNat).map (fun e => { e with slice := s.homeSlice e va })

/-- The line that a line of a context's addresses lies on, once its page is mapped. -/
def State.pageLine (s : State) (ctx v : Nat) : Option Nat :=
  if windowOf (64 * v) < 14 then (s.lookup ctx (64 * v)).map (fun e => s.placeIn e (64 * v) / 64) else none
/-- Whether a line is among some lines, or some lines of addresses lead to it now. DEDUCED: log 112. -/
def State.amongLines (s : State) (ctx : Nat) (ls vs : List Nat) (line : Nat) : Bool :=
  ls.contains line || vs.any (fun v => decide (s.pageLine ctx v = some line))

/-- The owner of an address for .mig (R45, R312): a core, or (from 16,384 up) a sett core; none: it acts as plain. -/
def State.migOwner (s : State) (ctx core va : Nat) : Option Nat :=
  if windowOf va = 15 then some core
  else if windowOf va = 14 then some (va / 2 ^ 16 % 2 ^ 14)
  else match s.lookup ctx va with
    | none => none
    | some e =>
      if e.kind = 0 then (let c := e.word1.toNat % 2 ^ 14; if s.homeLost c ctx va then none else some c)
      else if e.kind = 3 then some (Config.cores + e.word1.toNat % 2 ^ 14) else none

/-! ## Committed memory -/

/-- The words of some places. -/
def wordsOf (locs : List Nat) : List Nat := (locs.map (· / 8)).eraseDups
/-- The lines of some places. -/
def linesOf (locs : List Nat) : List Nat := (locs.map (· / 64)).eraseDups

/-- The HBM copy of a byte (R334). -/
def State.hbmByte (s : State) (loc : Nat) : Byte :=
  match Tab.find? s.near loc with
  | some n => n.extractLsb' 0 8
  | none => Store.get s.mem loc

/-- Writes one byte on the ordinary path: committed, its HBM copy still to be written back (R334). -/
def State.commitByte (s : State) (loc : Nat) (v : Byte) : State :=
  { s with
    mem := Store.put s.mem loc v
    near := if isHbm loc then Tab.insert s.near loc (1#1 ++ s.hbmByte loc) else s.near
    stamps := Tab.insert s.stamps (loc / 8) s.co }

/-- Writes one byte on the near-memory path (R334): the HBM copy at once; what an ordinary read sees follows only when the
line is not held in the LLC. -/
def State.nearByte (s : State) (loc : Nat) (v : Byte) (held : Bool) : State :=
  if held then
    let dirty := match Tab.find? s.near loc with
      | some n => n.getLsbD 8
      | none => false
    { s with near := if !dirty && decide (Store.get s.mem loc = v) then Tab.erase s.near loc
                     else Tab.insert s.near loc ((if dirty then 1#1 else 0#1) ++ v) }
  else { s with mem := Store.put s.mem loc v, near := Tab.erase s.near loc, stamps := Tab.insert s.stamps (loc / 8) s.co }

/-- Write-back of one byte (R334): a committed byte goes to the HBM copy; a stale copy of the other kind is dropped. -/
def State.writeBackByte (s : State) (loc : Nat) : State :=
  match Tab.find? s.near loc with
  | none => s
  | some n =>
    if n.getLsbD 8 then { s with near := Tab.erase s.near loc }
    else { s with
      mem := Store.put s.mem loc (n.extractLsb' 0 8), near := Tab.erase s.near loc, stamps := Tab.insert s.stamps (loc / 8) (s.co + 1) }

/-- Whether the LLC holds a line (R334). -/
def State.holdsLine (s : State) (line : Nat) : Bool := decide (Store.get s.cached line ≠ 0#1)
/-- Whether a line's HBM copy has run past the held line. -/
def State.staleLine (s : State) (line : Nat) : Bool :=
  (List.range 64).any (fun i => match Tab.find? s.near (64 * line + i) with
    | some n => !n.getLsbD 8
    | none => false)
/-- Whether every byte of a line is still to be written back. -/
def State.dirtyLine (s : State) (line : Nat) : Bool :=
  (List.range 64).all (fun i => match Tab.find? s.near (64 * line + i) with
    | some n => n.getLsbD 8
    | none => false)
/-- Write-back and invalidation of the line that holds a place: eviction, and XFENCE (R334, R169). A line written back whole leaves nothing
of an error in its HBM copy; a value that changes for ordinary reads by it counts as written (R327). -/
def State.writeBackLine (s : State) (line : Nat) : State :=
  let latent := if s.dirtyLine line then Store.put s.latent line 0#1 else s.latent
  let co := if s.staleLine line then s.co + 1 else s.co
  { (List.range 64).foldl (fun s i => s.writeBackByte (64 * line + i)) s with
    cached := Store.put s.cached line 0#1, latent := latent, co := co }

/-- A line's HBM copy is read: an uncorrectable error in it that no check has found is met, counted, and poisons the line (R422, R446).
DEDUCED: log 129. -/
def State.meetError (s : State) (line : Nat) : State :=
  if Store.get s.latent line = 0#1 then s
  else
    { s with
      latent := Store.put s.latent line 0#1, poison := Store.put s.poison line 1#1
      device := { s.device with eccu := s.device.eccu + 1 } }

/-- Whether an access to a line may find more than the line: a held line that near memory has passed by, or an error not met yet. -/
def State.openLine (s : State) (line : Nat) : Bool := s.staleLine line || decide (Store.get s.latent line ≠ 0#1)

/-- A held line that near memory has passed by may have been evicted. DESIGN CHOICE: log 26. -/
def State.mayEvict (s : State) (line : Nat) : State :=
  if s.staleLine line then
    let (k, s) := s.choose 2
    if k = 1 then s.writeBackLine line else s
  else s

/-- An ordinary access to a line (R334): the LLC holds it from then on, filled from HBM unless it did before. DEDUCED: log 128. -/
def State.touchLine (s : State) (line : Nat) : State :=
  let s := s.mayEvict line
  let s := if s.holdsLine line then s else s.meetError line
  { s with cached := Store.put s.cached line 1#1 }
/-- Ordinary accesses to some places: the lines in HBM are touched. -/
def State.touchPlaces (s : State) (locs : List Nat) : State :=
  (linesOf locs).foldl (fun s l => if isHbm (64 * l) then s.touchLine l else s) s

/-- A word as an ordinary read sees it. -/
def State.readLoc (s : State) (loc n : Nat) : Nat := Store.read s.mem loc n

/-- Whether a line is poisoned (R422), or lies on a lost stack (R26). DEDUCED: log 80. -/
def State.poisoned (s : State) (loc : Nat) : Bool :=
  decide (Store.get s.poison (loc / 64) ≠ 0#1) || (isHbm loc && s.lostStacks.contains (settOf loc / 64))

/-- Whether a word is full (R150). -/
def State.full (s : State) (word : Nat) : Bool := decide (Store.get s.empty word = 0#1)
/-- Sets or clears a word's full bit. -/
def State.setFull (s : State) (word : Nat) (f : Bool) : State :=
  { s with empty := Store.put s.empty word (if f then 0#1 else 1#1) }

/-- Whether a WAITA condition holds (R167): 0 eq, 1 ne, 2 hs. -/
def waitCond (c : Nat) (word b : Word) : Bool :=
  if c = 0 then decide (word = b) else if c = 1 then decide (word ≠ b) else decide (b.toNat ≤ word.toNat)

/-- The messages of watches that some committed words match (R177), in increasing address. -/
def State.watchHits (s : State) (words : List Nat) : List Event :=
  s.watches.flatMap (fun w =>
    (List.range (w.len / 8)).filterMap (fun i =>
      let va := w.base + 8 * i
      match s.lookup w.ctx va with
      | none => none
      | some e =>
        let loc := s.placeIn e va
        let v := BitVec.ofNat 64 (s.readLoc loc 8)
        if words.contains (loc / 8) && decide (v &&& w.mask = w.cmp &&& w.mask) then
          some (Event.messageArrival w.core
            { ctx := w.ctx, sender := BitVec.ofNat 64 (s.device.devid.toNat * 2 ^ 32 + 2 * 2 ^ 30)
              words := [w.handler, BitVec.ofNat 64 va, v, BitVec.ofNat 64 w.id] })
        else none))

/-- WAITA's condition holds: it completes, and the timed form tells so (R167). -/
def Thread.met (t : Thread) (timed : Option Nat) : Thread :=
  match timed with
  | none => t.finish
  | some r => (t.fillReg r 1#64).finish

/-- Whether a thread's WAITA completes by a commit of some words (R167): its condition holds now. -/
def State.waitEnds (s : State) (words : List Nat) (t : Thread) : Bool :=
  match t.wait with
  | .addr loc _ c v _ =>
    let own := t.attr.isSealed && t.foot.any (fun w => decide (w.loc / 8 = loc / 8))
    words.contains (loc / 8) && !own && waitCond c (BitVec.ofNat 64 (s.readLoc loc 8)) v
  | _ => false

/-- What follows a commit (R167, R177, R277): watch messages; threads whose WAITA condition now holds complete it, which is progress (R388);
and NMSTAT looks again at a record that is no longer running. DEDUCED: log 97. -/
def State.afterCommit (s : State) (words : List Nat) : State :=
  let hits := s.watchHits words
  let wake (t : Thread) : Thread :=
    match t.wait with
    | .addr _ _ _ _ timed => if s.waitEnds words t then t.met timed else t
    | .nmstat loc => if words.contains (loc / 8) && decide (s.readLoc loc 8 / 2 ^ 60 ≠ 0) then t.wake else t
    | _ => t
  let ended := s.threads.filter (fun e => s.waitEnds words e.2)
  ended.foldl (fun s e => s.progress e.2.attr.ctx)
    { s with threads := s.threads.map (fun e => (e.1, wake e.2)), pending := s.pending ++ hits }

/-- Commits bytes as one event, in the order given: one commit position, and what follows it. A line written whole loses its
poison (R422). DEDUCED: log 97. -/
def State.commitBytes (s : State) (ws : List (Nat × Byte)) : State :=
  let s := { s with co := s.co + 1 }
  let s := s.touchPlaces (ws.map (·.1))
  let s := ws.foldl (fun s w => s.commitByte w.1 w.2) s
  let locs := ws.map (·.1)
  let s := (linesOf locs).foldl (fun s l =>
    if s.poisoned (64 * l) && (List.range 64).all (fun i => locs.contains (64 * l + i)) then
      { s with poison := Store.put s.poison l 0#1 } else s) s
  s.afterCommit (wordsOf locs)

/-- The bytes of a value, at successive places. -/
def bytesAt (loc : Nat) (v : Nat) : Nat → List (Nat × Byte)
  | 0 => []
  | n + 1 => (loc, BitVec.ofNat 8 v) :: bytesAt (loc + 1) (v / 256) n

/-- Commits one word of `n` bytes. -/
def State.commitWord (s : State) (loc n v : Nat) : State := s.commitBytes (bytesAt loc v n)

/-- Memory is in its canonical form. DESIGN CHOICE: log 7. -/
abbrev Memory.wf (m : List Host.Cell) : Prop := Tab.wf 0#8 m = true

end Sys2Proof.Machine
end

