-- ==== Sys2Proof/Machine/Dress.lean ====
section
/-!
DEFINITION. A handle's elements and its dress: the shape and 2-D view (R261), the code of an element, which elements this device
holds (R373), and the bytes of a handle laid out in a sett core's rows by its strides (R366, R367), as a near-memory program sees
them.
-/
namespace Sys2Proof.Machine

/-- The key of a handle in the handle table. -/
def handleKey (ctx h : Nat) : Nat := ctx * 2 ^ 23 + h

/-! ## Shape (R261) -/

/-- The dimensions a handle uses. -/
def Handle.used (h : Handle) : List Nat := h.dims.take h.ndim
/-- The element count E. -/
def Handle.count (h : Handle) : Nat := h.used.foldl (· * ·) 1
/-- C of the 2-D view. -/
def Handle.cols (h : Handle) : Nat := h.used.getLastD 1
/-- R of the 2-D view. -/
def Handle.rows (h : Handle) : Nat := h.used.dropLast.foldl (· * ·) 1
/-- Whether the operation set holds a class. -/
def Handle.has (h : Handle) (k : Nat) : Bool := h.opset.getLsbD k

/-! ## Elements (R266, R269, R373) -/

/-- The owner-table entry of an element; none without a table. -/
def Handle.owner (h : Handle) (i : Nat) : Option Word := if h.bsize = 0 then none else h.owners[i / h.bsize]?
/-- Whether this device holds an element. DESIGN CHOICE: log 49. -/
def State.keeps (s : State) (h : Handle) (i : Nat) : Bool :=
  match h.owner i with
  | some w => decide (w.toNat % 4096 = s.device.devid.toNat)
  | none => true
/-- The code of an element. -/
def Handle.code (h : Handle) (i : Nat) : Nat := (Store.get h.codes i).toNat
/-- The value of an element, by the handle's own table. -/
def Handle.val (h : Handle) (i : Nat) : FV := decodeElem h.fmt (fun _ => h.table) (h.code i)
/-- rnd(v) of R269: the code of a value. -/
def Handle.rnd (h : Handle) (v : FV) : Nat := (encodeElem h.fmt (fun _ => h.table) false false v).1

/-! ## Sums and norms (R85, R371) -/

/-- A sum as F32, rounded at each step (R85, R371). -/
def sumF32 (start : FV) (xs : List FV) : Nat :=
  xs.foldl (fun b x => (round F32 false false ((value F32 b).add x)).1) (round F32 false false start).1
/-- The elements of row `r` that this device holds. -/
def State.rowOf (s : State) (h : Handle) (r : Nat) : List Nat :=
  ((List.range h.cols).map (fun k => r * h.cols + k)).filter (s.keeps h)
/-- The elements of column `k` that this device holds. -/
def State.colOf (s : State) (h : Handle) (k : Nat) : List Nat :=
  ((List.range h.rows).map (fun r => r * h.cols + k)).filter (s.keeps h)

/-- NORM after a write operation (R371). Both kinds are kept for every handle, since a class may be added later. DEDUCED: log 115. -/
def State.normed (s : State) (h : Handle) : Handle :=
  let sq (l : List Nat) : Half := BitVec.ofNat 32 (sumF32 (.zero false) (l.map (fun i => (h.val i).mul (h.val i))))
  { h with
    normC := (List.range h.cols).foldl (fun n k => Store.put n k (sq (s.colOf h k))) h.normC
    normR := (List.range h.rows).foldl (fun n r => Store.put n r (sq (s.rowOf h r))) h.normR }

/-! ## The layout (R366) -/

/-- The logical stride of a dimension: the product of those inside it. -/
def innerCount (dims : List Nat) (k : Nat) : Nat := (dims.drop (k + 1)).foldl (· * ·) 1

/-- The element at a position of a row-major layout over the dimensions `ks`, innermost first; none in the padding. -/
def layoutElement (dims pad : List Nat) : List Nat → Nat → Nat → Option Nat
  | [], pos, acc => if pos = 0 then some acc else none
  | k :: ks, pos, acc =>
    let n := dims.getD k 1
    let w := n + pad.getD k 0
    if n ≤ pos % w then none else layoutElement dims pad ks (pos / w) (acc + pos % w * innerCount dims k)

/-- The position of an element in such a layout. -/
def layoutPos (dims pad : List Nat) (i : Nat) : List Nat → Nat
  | [] => 0
  | k :: ks =>
    let n := dims.getD k 1
    i / innerCount dims k % n + (n + pad.getD k 0) * layoutPos dims pad i ks

/-- The element at a position of a handle's dress. -/
def Handle.elementAt (h : Handle) (pos : Nat) : Option Nat := layoutElement h.used h.dress.pad h.dress.order.reverse pos 0

/-- The position of an element in a handle's dress. -/
def Handle.positionOf (h : Handle) (i : Nat) : Nat := layoutPos h.used h.dress.pad i h.dress.order.reverse

/-- The place of a byte of a handle's rows. -/
def handleLoc (key off : Nat) : Nat := 2 ^ 60 + key * 2 ^ 48 + off
/-- Whether a place is in a handle's rows, of which handle, and where. -/
def handleAt (loc : Nat) : Option (Nat × Nat) :=
  if 2 ^ 60 ≤ loc then some ((loc - 2 ^ 60) / 2 ^ 48, (loc - 2 ^ 60) % 2 ^ 48) else none

/-- The elements on a line of a handle's rows, from the line's first byte on. -/
def Handle.lineElements (h : Handle) (off : Nat) : List Nat :=
  let bits := elemBits h.fmt
  (List.range (512 / bits)).filterMap (fun j => h.elementAt (off * 8 / bits + j))
/-- The poisoned lines of a handle: how far each stands from its first byte (R370). -/
def State.handlePoison (s : State) (key : Nat) : List Nat :=
  s.poison.filterMap (fun e => match handleAt (64 * e.1) with
    | some (k, off) => if k = key then some off else none
    | none => none)
/-- The elements that stand on poisoned lines. -/
def State.spoiled (s : State) (key : Nat) (h : Handle) : List Nat := (s.handlePoison key).flatMap h.lineElements
/-- Poisons the lines of some elements of a handle, and none of its others. -/
def State.spoil (s : State) (key : Nat) (h : Handle) (els : List Nat) : State :=
  let clear : Store 1 := s.poison.filter (fun e => match handleAt (64 * e.1) with
    | some (k, _) => decide (k ≠ key)
    | none => true)
  { s with poison := els.foldl (fun m i => Store.put m (handleLoc key (h.positionOf i * elemBits h.fmt / 8) / 64) 1#1) clear }

/-- The lines of a handle's dress, by the places of its elements. -/
def Handle.lines (h : Handle) (key : Nat) : List Nat :=
  ((List.range h.count).map (fun i => handleLoc key (h.positionOf i * elemBits h.fmt / 8) / 64)).eraseDups
/-- Poisons some of a handle's lines, as free values pick: those that no copy holds any more (R370). DESIGN CHOICE: log 126. -/
def State.pierce (s : State) (key : Nat) (h : Handle) : State :=
  let ls := h.lines key
  let lost := ls.zipIdx.filter (fun e : Nat × Nat => decide (Config.choice (s.free + e.2) % 2 = 1))
  { s with poison := lost.foldl (fun m e => Store.put m e.1 1#1) s.poison, free := s.free + ls.length }

/-- A byte of a handle's rows. -/
def Handle.rowByte (h : Handle) (off : Nat) : Byte :=
  let code (pos : Nat) : Nat := match h.elementAt pos with
    | some i => h.code i
    | none => 0
  let bits := elemBits h.fmt
  if bits = 4 then BitVec.ofNat 8 (code (2 * off) % 16 + 16 * (code (2 * off + 1) % 16))
  else BitVec.ofNat 8 (code (off / (bits / 8)) / 2 ^ (8 * (off % (bits / 8))))
/-- Writes a byte of a handle's rows; padding keeps nothing. -/
def Handle.setRowByte (h : Handle) (off : Nat) (v : Byte) : Handle :=
  let put (h : Handle) (pos lo w : Nat) (v : Nat) : Handle :=
    match h.elementAt pos with
    | none => h
    | some i =>
      let c := h.code i
      let c := c - c / 2 ^ lo % 2 ^ w * 2 ^ lo + v % 2 ^ w * 2 ^ lo
      { h with codes := Store.put h.codes i (BitVec.ofNat 32 c) }
  let bits := elemBits h.fmt
  if bits = 4 then put (put h (2 * off) 0 4 v.toNat) (2 * off + 1) 0 4 (v.toNat / 16)
  else put h (off / (bits / 8)) (8 * (off % (bits / 8))) 8 v.toNat

/-- A byte of the near-memory path: a handle's rows, or the HBM copy. -/
def State.rowByte (s : State) (loc : Nat) : Byte :=
  match handleAt loc with
  | some (k, off) =>
    match Tab.find? s.handles k with
    | some h => h.rowByte off
    | none => 0#8
  | none => s.hbmByte loc
/-- Writes a byte of a handle's rows. -/
def State.setHandleByte (s : State) (key off : Nat) (v : Byte) : State :=
  match Tab.find? s.handles key with
  | some h => { s with handles := Tab.insert s.handles key (h.setRowByte off v) }
  | none => s

/-- The rows of a handle that the program running on a sett core was given (R274). -/
def State.handleSpot (s : State) (n va : Nat) : Option Nat :=
  match (s.sett n).queue with
  | [] => none
  | c :: _ =>
    match c.hnd with
    | some k => if c.base ≤ va ∧ va < c.base + c.len then some (handleLoc k (va - c.base)) else none
    | none => none

end Sys2Proof.Machine
end

