-- ==== Sys2Proof/Machine/Ops.lean ====
section
/-!
DEFINITION. The shared operations of an issuing thread: the issue of an instruction and its guard (R103, R104, R110), chunks and
their commit (R49-R51, R325-R328), traps (R282), waits (R32), the end of a thread (R34, R171), group sets (R37-R40), and
the records of the fault window (R394, R395, R413).
-/
namespace Sys2Proof.Machine

/-! ## Acting on the state -/

/-- What a thread or a unit does in one step. Ending early keeps the state reached: a trap taken, a wait begun. -/
abbrev Act := EStateM Unit State

/-- The state an action leaves. -/
def Act.done {α : Type} (m : Act α) (s : State) : State :=
  match m s with
  | .ok _ t => t
  | .error _ t => t

/-- Ends the step here. -/
def Act.stop {α : Type} : Act α := throw ()

/-- The thread whose turn it is; without one, nothing happens. -/
def Act.me : Act Thread := do
  let s ← get
  match s.thread? s.cur with
  | some t => pure t
  | none => Act.stop

/-- Changes the thread whose turn it is. -/
def Act.modMe (f : Thread → Thread) : Act Unit := modify (fun s => s.modThread s.cur f)

/-- The core a thread counts at: its slot's, the one its stockpile entry names, or the one it came from. -/
def Thread.core (t : Thread) : Nat :=
  match t.place with
  | .slot c _ => c
  | .stock c => c
  | .sett _ => t.home.getD 0
  | .transit => t.home.getD 0
/-- The slot it holds, or 31 (R395). -/
def Thread.slot (t : Thread) : Nat :=
  match t.place with
  | .slot _ k => k
  | _ => 31
/-- The sett core it runs on. -/
def Thread.settOn (t : Thread) : Option Nat :=
  match t.place with
  | .sett n => some n
  | _ => none
/-- A bit of CAUSE: it is in its trap handler (R298). -/
def Thread.inTrap (t : Thread) : Bool := t.cause.getLsbD 63

/-- Parks the thread whose turn it is (R32) and ends the step; the instruction stays at the pc. -/
def Act.park {α : Type} (w : Wait) : Act α := do
  let t ← Act.me
  Act.modMe (fun t => { t with wait := w, stamp := t.stamp + 1 })
  modify (fun s => match t.place with
    | .slot c _ => s.count c 7 1
    | _ => s)
  Act.stop

/-- Ends a step in which the thread has begun a wait in a way of its own (R383). -/
def Act.parked {α : Type} : Act α := do
  let t ← Act.me
  if decide (t.wait = .running) then Act.stop
  else do
    modify (fun s => match t.place with
      | .slot c _ => s.count c 7 1
      | _ => s)
    Act.stop

/-- Wakes every thread that waits in one way: each issues its instruction again. -/
def State.wakeAll (s : State) (p : Nat → Thread → Bool) : State :=
  { s with threads := s.threads.map (fun e => (e.1, if p e.1 e.2 then e.2.wake else e.2)) }

/-! ## The fault window -/

/-- Writes one record of 64 bytes to a context's fault window (R394, R395, R413). DEDUCED: log 82. -/
def State.record (s : State) (ctx kind code core slot : Nat) (seq tid fval pc w5 w6 : Nat) : State :=
  match s.page? ctx with
  | none => s
  | some (i, p) =>
    if (p.fwhead - p.fwtail).toNat = p.fwsize.toNat then s.modPage i (fun p => { p with fwlost := p.fwlost + 1 })
    else
      let at0 := hostLoc (p.fwbase.toNat + 64 * (p.fwhead.toNat % p.fwsize.toNat))
      let w0 := kind * 2 ^ 56 + code % 256 * 2 ^ 48 + ctx % 65536 * 2 ^ 32 + slot % 32 * 2 ^ 16 + core % 16384
      let ws := [w0, seq, tid, fval, pc, w5, w6, 0]
      let s := s.commitBytes ((ws.zipIdx).flatMap (fun w => bytesAt (at0 + 8 * w.2) w.1 8))
      s.modPage i (fun p => { p with fwhead := p.fwhead + 1 })

/-- A record about a thread. DEDUCED: log 82. -/
def State.recordThread (s : State) (t : Thread) (kind code fval : Nat) : State :=
  s.record t.attr.ctx kind code t.core t.slot t.attr.seq t.attr.tid.toNat fval t.pc 0 0

/-! ## Who holds lines -/

/-- Every command in a core's engine queues. -/
def Core.cmds (q : Core) : List Cmd := q.vq ++ q.mq ++ q.cq

/-- A line that an uncompleted engine command or HOP owns (R332, R270). -/
def State.owned (s : State) (line : Nat) : Bool :=
  s.cores.any (fun e => e.2.cmds.any (fun c => s.amongLines c.ctx c.dst c.vdst line)) ||
  s.handles.any (fun e => e.2.order.any (fun o => s.amongLines o.cmd.ctx o.dst o.vdst line))

/-- A line that an admitted engine command has yet to read (R332). -/
def State.unread (s : State) (line : Nat) : Bool :=
  s.cores.any (fun e => e.2.cmds.any (fun c => s.amongLines c.ctx c.src c.vsrc line))

/-- A line that another thread's solo chunk has reserved (R328). -/
def State.reservedFrom (s : State) (u line : Nat) : Bool := s.reserved.any (fun r => decide (r.1 = line) && decide (r.2 ≠ u))

/-- Whether a write to these lines by thread `u` must wait (R328, R332). -/
def State.heldBack (s : State) (u : Nat) (lines : List Nat) : Bool :=
  lines.any (fun l => s.owned l || s.unread l || s.reservedFrom u l)

/-- Whether a chunk's commit must wait: a sealed thread's writes go to its footprint, and wait for its own commands only. -/
def State.holdsBack (s : State) (u : Nat) (isSealed : Bool) (lines : List Nat) : Bool :=
  if isSealed then
    s.cores.any (fun e => e.2.cmds.any (fun c => decide (c.uid = u) &&
      lines.any (fun l => s.amongLines c.ctx c.dst c.vdst l || s.amongLines c.ctx c.src c.vsrc l)))
  else s.heldBack u lines

/-- Whether a line is held against a write of no thread (R328, R332): owned, to be read by an engine, or reserved. -/
def State.busyLine (s : State) (line : Nat) : Bool :=
  s.owned line || s.unread line || s.reserved.any (fun r => decide (r.1 = line))

/-- Threads that wait for a line to be released issue again. -/
def State.wakeOwned (s : State) : State := s.wakeAll (fun _ t => decide (t.wait = .owned))
/-- A thread gives up the lines it has reserved (R328), and those that wait for them look again. -/
def State.unreserve (s : State) (u : Nat) : State :=
  if s.reserved.any (fun r => decide (r.2 = u)) then
    { s with reserved := s.reserved.filter (fun r => decide (r.2 ≠ u)) }.wakeOwned
  else s

/-! ## Chunks -/

/-- The slot shadow of a thread (R295). -/
def Thread.shadow (t : Thread) : Shadow := ⟨t.regs, t.preds, t.fflags, t.cause, t.fval, t.fpc, t.tvec⟩
/-- An empty chunk at the thread's pc. -/
def Thread.newChunk (t : Thread) (co : Nat) : Chunk := ⟨t.pc, co, 0, [], [], [], false, t.shadow, 0, false, 0⟩
/-- The open chunk begun again at the thread's pc: its squashes in a row count on (R51). -/
def Thread.reopen (t : Thread) (co : Nat) : Chunk :=
  { t.newChunk co with sq := t.chunk.sq, solo := t.chunk.solo, soloAt := t.chunk.soloAt }
/-- The squashes in a row of the current chunk, and whether it runs solo (R298). -/
def Thread.sq (t : Thread) : Nat := t.chunk.sq
/-- Whether the current chunk runs solo. -/
def Thread.solo (t : Thread) : Bool := t.chunk.solo
/-- Whether nothing has run in a chunk. -/
def Chunk.idle (c : Chunk) : Bool := decide (c.count = 0) && c.writes.isEmpty && c.reads.isEmpty
/-- A trap that is no fault of the instruction at the pc: it survives a squash (R187, R166, R398). DEDUCED: log 85. -/
def isLate (cause : Nat) : Bool := decide (cause = 0x16) || decide (cause = 0x17) || decide (cause = 0x1A)
/-- Gives back what the slot shadow holds, at the chunk's start (R51); faults found at instructions that will issue again are gone.
DEDUCED: log 85. -/
def Thread.restore (t : Thread) (c : Chunk) (co : Nat) : Thread :=
  let t := { t with
    regs := c.shadow.regs, preds := c.shadow.preds, fflags := c.shadow.fflags, cause := c.shadow.cause
    fval := c.shadow.fval, fpc := c.shadow.fpc, tvec := c.shadow.tvec, pc := c.startPc, prev := none, wait := .running
    back := t.back || decide (t.wait ≠ Wait.running)
    async := t.async.filter (fun e : Nat × Word => isLate e.1) }
  { t with chunk := { t.newChunk co with sq := c.sq, solo := c.solo, soloAt := c.soloAt } }
/-- The solo chunk of a thread (R328): the one at the arbiters, or the open one. -/
def Thread.soloChunk (t : Thread) : Chunk := match t.prev with
  | some p => if p.solo then p else t.chunk
  | none => t.chunk
/-- Starts a thread's solo chunk again, uncounted (R328); a chunk at the arbiters that is not solo stays there (R325). -/
def Thread.restart (t : Thread) (co : Nat) : Thread :=
  { t.restore t.soloChunk co with prev := if t.prev.any (·.solo) then none else t.prev }

/-- Whether the open chunk runs solo (R328): it does not begin while another is at the arbiters. -/
def Thread.alone (t : Thread) : Bool := t.solo && t.prev.isNone
/-- The instructions a chunk may hold (R49). -/
def Thread.limit (t : Thread) : Nat := if t.alone then 16 else 256

/-- Adds one byte to a footprint, in program order, newest first. -/
def footAdd (l : List WEntry) (e : WEntry) : List WEntry := e :: l.filter (fun x => decide (x.va ≠ e.va))

/-- How an attempt to commit ends. -/
inductive Commit where
  | done | squashed | blocked
  deriving DecidableEq, Repr

/-- Whether a read of the chunk meets a write committed after the chunk began (R327). DEDUCED: log 25. -/
def State.conflict (s : State) (c : Chunk) : Bool := c.reads.any (fun w => decide (c.startCo < Tab.get 0 s.stamps w))
/-- Whether the signatures could overlap by chance (R50, R327): the chunk has read, and something has been written since it began. -/
def State.mayOverlap (s : State) (c : Chunk) : Bool := !c.reads.isEmpty && s.stamps.any (fun e => decide (c.startCo < e.2))

/-- Whether a pending step is a reply to a thread's load. -/
def isReplyTo (u : Nat) : Event → Bool
  | .replyArrival v _ _ => decide (v = u)
  | .remoteAccessArrival a => decide (a.uid = u) && decide (a.kind = .load)
  | _ => false

/-- The squash of a thread's chunk (R51): the one at the arbiters takes the open one with it, and the open one alone leaves it there (R325).
A solo attempt, or a lost translation in one, starts again uncounted (R328). -/
def State.squash (s : State) (u : Nat) (t : Thread) (c : Chunk) : State :=
  let last := t.prev.isNone || decide (t.prev = some c)
  let t' := { t.restore c s.co with prev := if last then none else t.prev }
  let s := { s with pending := s.pending.filter (fun e => !isReplyTo u e) }
  if c.solo then (s.modThread u (fun _ => t')).unreserve u
  else
    let four := decide (4 ≤ c.sq + 1)
    let s := s.modThread u (fun _ => { t' with chunk := { t'.chunk with
      sq := c.sq + 1, solo := four, soloAt := if four then s.nextUid else c.soloAt } })
    let s : State := if four then { s with nextUid := s.nextUid + 1 } else s
    let s := s.count t.core 5 1
    if four then s.count t.core 6 1 else s

/-- A thread gives up its reservations and starts its solo attempt again (R328). -/
def State.restartSolo (s : State) (u : Nat) : State :=
  (s.modThread u (fun t => t.restart s.co)).unreserve u

/-- Applies a committed chunk (R325, R336): its writes in program order, as one event, to memory or, for a sealed thread, to the
footprint, where a word that its next chunk has already read meets that chunk's reads (R327). DEDUCED: log 103. -/
def State.applyChunk (s : State) (u : Nat) (t : Thread) (c : Chunk) : State :=
  let ws := c.writes.reverse
  let s :=
    if t.attr.isSealed then
      let words := wordsOf (ws.map (·.loc))
      { s.modThread u (fun t => { t with
          foot := ws.foldl footAdd t.foot
          chunk := { t.chunk with lost := t.chunk.lost || t.chunk.reads.any words.contains } }) with co := s.co + 1 }
    else s.commitBytes (ws.map (fun w => (w.loc, w.val)))
  let s := s.modThread u (fun t => { t with packet := none })
  ((s.unreserve u).count t.core 4 1).progress t.attr.ctx

/-- One chunk of thread `u` at the arbiters (R327, R328, R332): it commits, is squashed, or waits for a line. A false overlap of the
signatures may squash it too, as a free value picks. A solo chunk that would wait gives its lines up and starts again.
DEDUCED: log 25. DESIGN CHOICE: log 105. -/
def State.tryCommit (s : State) (u : Nat) (t : Thread) (c : Chunk) : Commit × State :=
  if c.lost || (!c.solo && s.conflict c) then (.squashed, s.squash u t c)
  else if s.holdsBack u t.attr.isSealed (linesOf (c.writes.map (·.loc))) then
    if c.solo then (.squashed, s.restartSolo u) else (.blocked, s)
  else if !c.solo && s.mayOverlap c then
    let (k, s) := s.choose 1024
    if k = 1023 then (.squashed, s.squash u t c) else (.done, s.applyChunk u t c)
  else (.done, s.applyChunk u t c)

/-- Commits a thread's previous chunk and then its open one. -/
def State.commitAll (s : State) (u : Nat) : Commit × State :=
  match s.thread? u with
  | none => (.done, s)
  | some t =>
    let first : Commit × State :=
      match t.prev with
      | none => (.done, s)
      | some p =>
        match s.tryCommit u t p with
        | (.done, s) => (.done, s.modThread u (fun t => { t with prev := none }))
        | r => r
    match first with
    | (.done, s) =>
      if t.chunk.idle then (.done, s)
      else
        match s.thread? u with
        | none => (.done, s)
        | some t =>
          match s.tryCommit u t t.chunk with
          | (.done, s) => (.done, s.modThread u (fun t => { t with chunk := t.newChunk s.co }))
          | r => r
    | r => r

/-- Ends the chunk before a chunk-ending operation, a trap, a pre-emption (R329, R151): a squashed thread restarts instead. -/
def Act.endChunk : Act Unit := do
  let s ← get
  let t ← Act.me
  if t.settOn.isSome then pure ()
  else
    match s.commitAll s.cur with
    | (.done, s) => set s
    | (.squashed, s) => do set s; Act.stop
    | (.blocked, s) => do set s; Act.park .owned

/-- Hands the open chunk to the arbiters and begins the next (R49, R50); while the one before is still there, the thread
waits (R32). -/
def Act.passChunk : Act Unit := do
  let s ← get
  let t ← Act.me
  if t.prev.isSome then
    Act.park .commit
  else
    Act.modMe (fun t => { t with prev := some t.chunk, chunk := t.newChunk s.co })
    modify (fun s => s.push (.chunkCommit s.cur))

/-- The chunk's end before a chunk-ending form whose guard is false (R104): the chunk goes to the arbiters, and the thread waits only
while the one before it is still there (R50). DEDUCED: log 106. -/
def Act.endIdly : Act Unit := do
  let t ← Act.me
  if t.settOn.isSome || t.chunk.idle then pure () else Act.passChunk

/-- Before an instruction inside a chunk: a full chunk is handed over, an idle one starts here, and a solo one waits for the chunk at the
arbiters (R151). -/
def Act.openChunk : Act Unit := do
  let t ← Act.me
  if t.settOn.isSome then pure ()
  else
    if t.solo && t.prev.isSome then Act.park .commit
    if t.limit ≤ t.chunk.count then Act.passChunk
    let s ← get
    Act.modMe (fun t => if t.chunk.idle then { t with chunk := t.reopen s.co } else t)

/-! ## Group sets -/

/-- The group sets after one changes: a set without members is gone (R37). -/
def State.putGroup (s : State) (g : Group) : State :=
  let same (h : Group) : Bool := decide (h.ctx = g.ctx) && decide (h.num = g.num)
  let rest := s.groups.filter (fun h => !same h)
  { s with groups := if g.members.isEmpty then rest else rest ++ [g] }
/-- A context's group set. -/
def State.group? (s : State) (ctx num : Nat) : Option Group :=
  s.groups.find? (fun g => decide (g.ctx = ctx) && decide (g.num = num))

/-- Whether every member counted in the open round has arrived (R38). -/
def Group.complete (g : Group) : Bool :=
  match g.round with
  | none => false
  | some ms => ms.all (fun m => match m with
    | .thread u => g.arrived.contains u
    | .unplaced _ _ => false)

/-- Releases one member of a completed round (R40): at t0 + step × ((x + 2y) mod 16). One that is not at its GBAR keeps the release (R286);
one that is saved goes on at once when it is back (R179). -/
def State.release (s : State) (num step u : Nat) : State :=
  match s.thread? u with
  | none => s
  | some t =>
    match t.place with
    | .slot c _ =>
      let d := step * ((xOf c + 2 * yOf c) % 16)
      if t.wait = .gbar num then s.after d (.barrierRelease u t.stamp)
      else s.modThread u (fun t => { t with released := t.released ++ [(num, s.cycle + d)] })
    | _ => s.modThread u (fun t => { t with released := t.released ++ [(num, 0)] })

/-- The members that a completed round releases. -/
def Group.out (g : Group) : List Nat := g.arrived.filter (fun u => (g.round.getD []).contains (.thread u))
/-- A set after its round has completed (R38): arrivals of threads that joined while it was open count in the next round. -/
def Group.next (g : Group) : Group :=
  let rest := g.arrived.filter (fun u => !(g.round.getD []).contains (.thread u))
  { g with round := if rest.isEmpty then none else some g.members, arrived := rest }

/-- Completes the open round of a set if every counted member has arrived (R38), and the round after it if that is complete too: its
members have then all arrived, and none opens a third. -/
def State.checkRound (s : State) (g : Group) : State :=
  if g.complete then
    let h := g.next
    if h.complete then
      (g.out ++ h.out).foldl (fun s u => s.release g.num g.step u) (s.putGroup h.next)
    else g.out.foldl (fun s u => s.release g.num g.step u) (s.putGroup h)
  else s.putGroup g

/-- A member stops being counted (R38). -/
def Group.without (g : Group) (m : Member) : Group :=
  { g with
    members := g.members.filter (fun x => decide (x ≠ m))
    round := g.round.map (fun l => l.filter (fun x => decide (x ≠ m)))
    arrived := match m with
      | .thread u => g.arrived.filter (fun x => decide (x ≠ u))
      | _ => g.arrived }

/-- A thread leaves every set it is in (R34). -/
def State.leaveGroups (s : State) (u : Nat) : State :=
  (s.groups.filter (fun g => g.members.contains (.thread u))).foldl (fun s g => s.checkRound (g.without (.thread u))) s

/-- Arrivals of a thread in some sets are withdrawn from their rounds (R285, R398). -/
def State.withdraw (s : State) (u : Nat) (sets : Group → Bool) : State :=
  { s with groups := s.groups.map (fun g => if sets g then { g with arrived := g.arrived.filter (fun x => decide (x ≠ u)) } else g) }
/-- Whether a thread's arrival is counted in a set's round (R38, R179). -/
def State.counted (s : State) (ctx num u : Nat) : Bool := (s.group? ctx num).any (fun g => g.arrived.contains u)

/-! ## The stockpile's SRAM (R353) -/

/-- The stockpile entries of a core's cluster. -/
def State.clusterStock (s : State) (c : Nat) : List (Nat × Thread) :=
  s.threads.filter (fun e => match e.2.place with
    | .stock d => decide (clusterId d = clusterId c)
    | _ => false)

/-- The lowest free stockpile index of a cluster (R293, R353). DESIGN CHOICE: log 21. -/
def State.freeIndex (s : State) (c : Nat) : Option Nat :=
  (List.range 128).find? (fun k => !(s.clusterStock c).any (fun e => decide (e.2.index = some k)))

/-- The stockpile's SRAM after an entry has come or gone (R353): a freed place takes the oldest spilled entry. DESIGN CHOICE: log 21. -/
def State.reindex (s : State) (c : Nat) : State :=
  match s.freeIndex c with
  | none => s
  | some k =>
    let out := (s.clusterStock c).filter (fun e => e.2.index.isNone)
    match out with
    | [] => s
    | e :: es =>
      let o := es.foldl (fun m x => if x.2.enter < m.2.enter then x else m) e
      s.modThread o.1 (fun t => { t with index := some k })

/-! ## Launches and the end of threads -/

/-- The launch of a thread: its key and record. -/
def State.launchOf (s : State) (a : Attr) : Option (Nat × Launch) :=
  List.find? (fun e => decide (e.2.attr.ctx = a.ctx) && decide (e.2.attr.seq = a.seq)) s.launches

/-- One thread of a launch has ended: a record with nothing left to place and none alive is dropped (R348, R401). -/
def State.dropLaunch (s : State) (a : Attr) : State :=
  match s.launchOf a with
  | none => s
  | some (k, l) =>
    let l := { l with live := l.live - 1 }
    if l.live = 0 ∧ l.threads ≤ l.next ∧ l.requeue.isEmpty then { s with launches := Tab.erase s.launches k }
    else { s with launches := Tab.insert s.launches k l }

/-- A launch that claims its cores (R349). -/
def Launch.claims (l : Launch) : Bool :=
  !l.image.isEmpty || decide (l.loc ≠ 0) || decide (l.place.toNat / 2 ^ 36 % 4 ≠ 0)
/-- Whether a thread is on a core for the claims of launches: in a general slot, or saved from one and waiting for the core (R349, R355),
but for one that has given its place up to a record of a higher level (R351). DEDUCED: log 104, 110. -/
def Thread.isOn (t : Thread) (c : Nat) : Bool :=
  !t.handler && (match t.place with
    | .slot d _ => decide (d = c)
    | .stock d => decide (d = c) && !t.ceded && (match t.lastSlot with
      | some (e, _) => decide (e = c)
      | none => false)
    | _ => false)
/-- The claiming launches of a context that have a thread on a core, one entry for each such thread (R349). DEDUCED: log 104. -/
def State.claimants (s : State) (c ctx : Nat) : List (Nat × Launch) :=
  s.threads.filterMap (fun e =>
    if e.2.isOn c && decide (e.2.attr.ctx = ctx) then
      match s.launchOf e.2.attr with
      | some (k, l) => if l.claims then some (k, l) else none
      | none => none
    else none)
/-- The claim of a core lasts while its launch has a thread there; a core without one is claimed by a claiming launch that has (R349,
R355). DEDUCED: log 104. -/
def State.checkClaim (s : State) (c : Nat) : State :=
  let q := s.core c
  let cs := match q.tag with
    | some x => s.claimants c x
    | none => []
  let held := match q.claim with
    | some k => cs.any (fun e => decide (e.1 = k))
    | none => false
  if held then s
  else
    match cs with
    | e :: _ => s.modCore c (fun q => { q with claim := some e.1, pmode := e.2.place.toNat / 2 ^ 36 % 4 })
    | [] => if q.claim.isNone then s else s.modCore c (fun q => { q with claim := none, pmode := 0 })

/-! ## Engine queues (R183, R358) -/

/-- An engine's queue. -/
def Core.queue (q : Core) : Engine → List Cmd
  | .vector => q.vq
  | .matrix => q.mq
  | .copy => q.cq
/-- Changes an engine's queue. -/
def Core.setCmds (q : Core) (e : Engine) (l : List Cmd) : Core :=
  match e with
  | .vector => { q with vq := l }
  | .matrix => { q with mq := l }
  | .copy => { q with cq := l }
/-- The threads that wait for an entry, in order. -/
def Core.qwait (q : Core) : Engine → List Nat
  | .vector => q.vqw
  | .matrix => q.mqw
  | .copy => q.cqw
/-- Changes the list of waiting threads. -/
def Core.setWait (q : Core) (e : Engine) (l : List Nat) : Core :=
  match e with
  | .vector => { q with vqw := l }
  | .matrix => { q with mqw := l }
  | .copy => { q with cqw := l }

/-- Wakes the thread that has waited longest for an entry (R358). -/
def State.wakeQueue (s : State) (c : Nat) (e : Engine) : State :=
  match (s.core c).qwait e with
  | [] => s
  | u :: _ => s.modThread u (fun t => if t.wait = .queue e then t.wake else t)

/-- The three engines. -/
def engines : List Engine := [.vector, .matrix, .copy]

/-- A thread leaves the list of an engine's queue; an entry that was held for it is held for the next (R358). -/
def State.leaveQueue (s : State) (c u : Nat) (e : Engine) : State :=
  let l := (s.core c).qwait e
  if l.contains u then
    let s := s.modCore c (fun q => q.setWait e (setDel l u))
    if decide (l.head? = some u) && decide (((s.core c).queue e).length < 2) then s.wakeQueue c e else s
  else s
/-- A thread leaves every queue's list at its core. -/
def State.leaveQueues (s : State) (u : Nat) : State :=
  match s.thread? u with
  | none => s
  | some t => engines.foldl (fun s e => s.leaveQueue t.core u e) s

/-- Threads of a core that wait for a word at a port look again (R95, R159). -/
def State.wakePorts (s : State) (c : Nat) : State :=
  s.wakeAll (fun _ t => decide (t.core = c) && (match t.wait with
    | .portIn _ => true
    | _ => false))

/-- The upstream ports that an STS keeps the words of while it waits (R159): its address's first, then its data's. -/
def keptPorts (a : Access) : List Nat :=
  if a.kind = .sts then ([a.expd.toNat, a.reg.toNat]).filter (fun p => decide (28 ≤ p)) else []
/-- Whether an access of a thread keeps a port's words. -/
def State.keepsPorts (s : State) (u : Nat) : Bool :=
  s.waiters.any (fun a => decide (a.uid = u) && !(keptPorts a).isEmpty) ||
  s.pending.any (fun e => match e with
    | .fullEmptyHomeAccess a => decide (a.uid = u) && !(keptPorts a).isEmpty
    | _ => false)

/-- Removes a thread from everything that refers to it. -/
def State.forget (s : State) (u : Nat) : State :=
  let s := s.leaveQueues u
  let kept := if s.keepsPorts u then (s.thread? u).map Thread.core else none
  let s : State := { s with
    threads := Tab.erase s.threads u
    waiters := s.waiters.filter (fun a => decide (a.uid ≠ u))
    faultq := s.faultq.map (fun f => { f with waiters := f.waiters.filter (fun w => decide (w ≠ .thread u)) })
    syncs := s.syncs.filter (fun y => decide (y.1 ≠ u)) }
  let s := s.unreserve u
  match kept with
  | some c => s.wakePorts c
  | none => s

/-- A freed or fed handler slot (R41, R359): a light handler before a message. -/
def State.pokeHandler (s : State) (c : Nat) : State :=
  if (s.inSlot c Config.handlerSlot).isSome then s
  else if !(s.core c).lights.isEmpty then s.push (.lightHandlerStart c)
  else if !(s.core c).msgs.isEmpty then s.push (.messageHandlerStart c)
  else s

/-- The end of a thread (R34, R171): it leaves every set, and its slot and registers free. -/
def State.endThread (s : State) (u : Nat) : State :=
  match s.thread? u with
  | none => s
  | some t =>
    let s := (s.leaveGroups u).forget u
    let s := match t.settOn with
      | some n => s.modSett n (fun q => { q with
          visitors := setDel q.visitors u, running := if q.running = some u then none else q.running })
      | none => s
    let s := if t.program || t.handler then s else s.dropLaunch t.attr
    match t.place with
    | .slot c k => if k = Config.handlerSlot then s.pokeHandler c else (s.checkClaim c).push (.slotFill c)
    | .stock c => (s.checkClaim c).reindex c
    | _ => s

/-- The handles a sealed thread allocated die when its footprint is discarded (R264). -/
def State.freeHandles (s : State) (ctx : Nat) (hs : List Nat) : State :=
  hs.foldl (fun s h =>
    let k := ctx * 2 ^ 23 + h
    match Tab.find? s.handles k with
    | none => s
    | some x => { s with handles := Tab.insert s.handles k { x with state := .dead, pin := false, charge := 0 } }) s

/-- The destinations of a thread's admitted engine commands are discarded. -/
def Core.voidCmds (q : Core) (u : Nat) : Core :=
  let void (l : List Cmd) : List Cmd := l.map (fun c => if c.uid = u then { c with void := true } else c)
  { q with vq := void q.vq, mq := void q.mq, cq := void q.cq }

/-- A sealed thread's footprint and held commands are discarded, and the destinations of its admitted engine commands with
them (R171, R401). -/
def State.discardFoot (s : State) (u : Nat) : State :=
  match s.thread? u with
  | none => s
  | some t =>
    if t.attr.isSealed then
      let s := s.freeHandles t.attr.ctx t.allocs
      let s : State := { s with cores := s.cores.map (fun e => (e.1, e.2.voidCmds u)) }
      s.modThread u (fun t => { t with foot := [], footFull := [], held := [], allocs := [], copied := 0 })
    else s

/-! ## Lost and re-queued threads (R401) -/

/-- A thread ends with its Face (R401): a restartable one is re-queued from its launch state (R53), any other is reported lost.
DEDUCED: log 96. -/
def State.loseOrRequeue (s : State) (u : Nat) : State :=
  match s.thread? u with
  | none => s
  | some t =>
    let s := s.discardFoot u
    if t.attr.isSealed && t.attr.restart then
      let s := s.recordThread t 9 0 0
      let s := match s.launchOf t.attr with
        | some (k, l) => { s with launches := Tab.insert s.launches k { l with requeue := l.requeue ++ [t.attr.tid.toNat] } }
        | none => s
      s.endThread u
    else (s.recordThread t 5 0 0).endThread u

/-! ## Traps -/

/-- The end of the handler's double fault, of SDROP, of a lost thread: nothing of it is published (R282). DEDUCED: log 37. -/
def State.loseThread (s : State) (u : Nat) : State := (s.discardFoot u).endThread u

/-- trap_entry (R282) for thread `u`, its chunk already ended: a double fault ends the thread; otherwise CAUSE, FVAL and FPC
are written and the handler begins at TVEC, whose bits [1:0] the pc does not hold (R295). DEDUCED: log 37, 103, 107. -/
def State.enterTrap (s : State) (u cause : Nat) (fval : Word) (ret : Nat) : State :=
  match s.thread? u with
  | none => s
  | some t =>
    if t.inTrap || decide (t.tvec = 0#64) then (s.recordThread t 1 cause fval.toNat).loseThread u
    else
      s.modThread u (fun t => { t with
        cause := BitVec.ofNat 64 (2 ^ 63 + cause)
        fval := fval
        fpc := BitVec.ofNat 64 (ret % 2 ^ 48)
        pc := t.tvec.toNat % 2 ^ 48 / 4 * 4
        wait := .running
        packet := none
        drain := none })

/-- A thread that migrated to a sett core is carried back to the core it came from, with a fault to take there (R157, R275).
DESIGN CHOICE: log 86. -/
def State.carryBack (s : State) (u : Nat) (fault : Option (Nat × Word)) : State :=
  match s.thread? u with
  | none => s
  | some t =>
    let s := match t.settOn with
      | some n => s.modSett n (fun q => { q with visitors := setDel q.visitors u })
      | none => s
    let c := t.home.getD 0
    let s := s.modThread u (fun t => { t with
      place := .transit, wait := .running
      async := match fault with
        | some f => f :: t.async
        | none => t.async })
    s.push (.migrationArrival u c)

/-- A precise fault or trap at the instruction of the thread whose turn it is (R282, R392). On a sett core a program stops
with STATE 3, or STATE 2 at a poisoned line, and a migrated thread is carried back to take it where it came from, a double fault too
(R157, R275). -/
def Act.trap {α : Type} (cause : Nat) (fval : Word) (ret : Nat) : Act α := do
  let t ← Act.me
  match t.settOn with
  | some n =>
    let s ← get
    if t.program then
      set ((s.modThread s.cur (fun t => { t with wait := .reply })).push
        (if cause = 0x09 then .nmProgramStop n 2 fval else .nmProgramStop n 3 (BitVec.ofNat 64 t.pc)))
    else set (s.carryBack s.cur (some (cause, fval)))
    Act.stop
  | none => do
    Act.endChunk
    modify (fun s => s.enterTrap s.cur cause fval ret)
    Act.stop

/-- A fault whose FPC is the instruction's own address. -/
def Act.fault {α : Type} (cause : Nat) (fval : Word) : Act α := do
  let t ← Act.me
  Act.trap cause fval t.pc

/-- The illegal-instruction fault (R110, R392): FVAL is the instruction word. -/
def Act.illegal {α : Type} : Act α := do
  let s ← get
  Act.fault 0x01 (s.iword.setWidth 64)

/-- A fault found while a thread waits at its instruction: it is taken there, at the thread's next turn. The register that was to
be filled is no longer awaited. -/
def State.faultThread (s : State) (u : Nat) (reg : Nat) (cause : Nat) (fval : Word) : State :=
  s.modThread u (fun t =>
    let t := if reg < 28 then t.putReg reg { t.reg reg with pend := false } else t
    { t with async := (cause, fval) :: t.async, wait := .running, back := t.back || decide (t.wait ≠ Wait.running) })

/-- Passes an instruction that has ended the chunk by itself, and ends the step. -/
def Act.leave (len : Nat) : Act Unit := do
  Act.modMe (fun t => { t with pc := (t.pc + len) % 2 ^ 48 })
  Act.stop

/-! ## Issue -/

/-- Whether a predicate holds; p0 is always true (R34, R126). -/
def Thread.pred (t : Thread) (k : Nat) : Bool := decide (k = 0) || t.preds.getLsbD k

/-- Whether a guard lets the instruction take effect (R103). -/
def Thread.guard (t : Thread) (g : BitVec 5) : Bool := t.pred (g.toNat / 2) != g.getLsbD 0

/-- A register number at or above the thread's count (R105). -/
def Thread.beyond (t : Thread) (r : BitVec 5) : Bool := decide (r.toNat < 28) && decide (t.attr.count ≤ r.toNat)

/-- Whether a field names a port. -/
def isPort (r : BitVec 5) : Bool := decide (28 ≤ r.toNat)

/-- The instruction is done: the pc passes it or goes to the transfer's target, and a chunk's instruction is counted (R49,
R100); a false guard is no progress (R104, R388). A transfer leaves no length behind, which tells it from falling through the end of
an overlay (R273). -/
def Act.retire (ends live : Bool) (len : Nat) (target : Option Nat) : Act Unit := do
  Act.modMe (fun t => { t with
    pc := target.getD ((t.pc + len) % 2 ^ 48)
    ilen := if target.isSome then 0 else t.ilen
    chunk := if ends then t.chunk else { t.chunk with count := t.chunk.count + 1 } })
  let t ← Act.me
  if ends then
    if live then modify (fun s => s.progress t.attr.ctx) else pure ()
  else if t.settOn.isNone && decide (t.limit ≤ t.chunk.count) then
    if t.prev.isSome then Act.park .commit else Act.passChunk
  else pure ()

/-- What kind of instruction is issued: on which cores it may run, and whether it ends the chunk before it (R329, R157). -/
structure Form where
  ends : Bool
  onSett : Bool
  deriving DecidableEq, Repr

/-- What comes before the effect (R104, R105, R110, R151): the thread's own register count, the kind of core, and the chunk's end or
beginning; `live` tells whether the guard holds. -/
def Act.begin (f : Form) (len : Nat) (fields : List (BitVec 5)) (live : Thread → Bool) : Act Unit := do
  let t ← Act.me
  Act.modMe (fun t => { t with ilen := len })
  if t.settOn.isSome && (!f.onSett || fields.any isPort) then Act.illegal
  else if fields.any t.beyond then Act.illegal
  else if f.ends || fields.any isPort then
    if live t then Act.endChunk else Act.endIdly
  else Act.openChunk

/-- The issue of an instruction of `len` bytes with these register fields (R104): its body answers the target of a taken
transfer; a false guard only passes the instruction. -/
def Act.issueTo (f : Form) (len : Nat) (fields : List (BitVec 5)) (g : BitVec 5) (body : Act (Option Nat)) : Act Unit := do
  Act.begin f len fields (fun t => t.guard g)
  let t ← Act.me
  let target ← if t.guard g then body else pure none
  Act.retire (f.ends || fields.any isPort) (t.guard g) len target

/-- The issue of an instruction that is no transfer. -/
def Act.issue (f : Form) (len : Nat) (fields : List (BitVec 5)) (g : BitVec 5) (body : Act Unit) : Act Unit :=
  Act.issueTo f len fields g (do body; pure none)

/-- A form that runs inside the chunk, on every kind of core. -/
def Form.plain : Form := ⟨false, true⟩
/-- A form that runs inside the chunk, on the general cores only. -/
def Form.coreOnly : Form := ⟨false, false⟩
/-- A chunk-ending form, on the general cores only. -/
def Form.ending : Form := ⟨true, false⟩

/-- The outcome of a step that goes on. -/
def Act.go (m : Act Unit) (s : State) : Host.Outcome State Fault Refusal := .next (m.done s)

/-- The address check of a transfer (R143). -/
def legalTarget (t : Nat) : Bool := decide (t < 2 ^ 48) && decide (t % 4 = 0) && decide (windowOf t < 14)

end Sys2Proof.Machine
end

