-- ==== Sys2Proof/Machine/Operands.lean ====
section
/-!
DEFINITION. The operand forms of an issuing thread: registers with their full bits (R48, R125, R126), literals (R107), and the
ports with their queues, targets and light handlers (R95, R355-R357).
-/
namespace Sys2Proof

/-- The words of a port that a command on its way to the handle table will take. -/
def HandleCmd.portWords (c : HandleCmd) (p : Nat) : Nat :=
  if c.op = .elemRead ∨ c.op = .elemWrite then c.b.toNat / 2 ^ (if p = 28 then 40 else 42) % 4 else 0

end Sys2Proof

namespace Sys2Proof.Machine

/-! ## Handlers waiting at a core -/

/-- A message or light handler has been queued: threads in IDLE there complete it (R289). -/
def State.endIdle (s : State) (c : Nat) : State :=
  { s with threads := s.threads.map (fun e =>
      (e.1, match e.2.wait, e.2.place with
        | .idle _, .slot d _ => if d = c then e.2.finish else e.2
        | _, _ => e.2)) }

/-! ## Ports -/

/-- The launch that claims a core, and its message handler (R357). -/
def State.claimHandler (s : State) (c : Nat) : Option (Nat × Nat) :=
  match (s.core c).claim with
  | none => none
  | some k => (Tab.find? s.launches k).map (fun l => (k, l.attr.handler))

/-- The core that a downstream port feeds (R355): port 30 is o0, 31 is o1. -/
def State.portTarget (s : State) (c p : Nat) : Option Nat :=
  let q := s.core c
  let x := xOf c
  let y := yOf c
  let face := faceOf c
  let t : Option Nat :=
    if q.claim.isNone then none
    else if q.pmode = 1 then
      if p = 30 then (if x + 1 < 32 then some (coreAt face (x + 1) y) else none)
      else (if y + 1 < 64 then some (coreAt face x (y + 1)) else none)
    else if q.pmode = 2 then
      let bx := x / 2 * 2
      let by' := y / 2 * 2
      let ring := [coreAt face bx by', coreAt face (bx + 1) by', coreAt face (bx + 1) (by' + 1), coreAt face bx (by' + 1)]
      let i := (ring.findIdx? (fun k => decide (k = c))).getD 0
      some (ring.getD (if p = 30 then (i + 1) % 4 else (i + 3) % 4) 0)
    else none
  match t with
  | none => none
  | some d => if (s.core d).claim.isSome && decide ((s.core d).pmode ≠ 0) then some d else none

/-- An upstream queue of a core. -/
def Core.inQueue (q : Core) (p : Nat) : List (Word × Bool) := if p = 28 then q.in0 else q.in1
/-- Changes an upstream queue. -/
def Core.setQueue (q : Core) (p : Nat) (l : List (Word × Bool)) : Core :=
  if p = 28 then { q with in0 := l } else { q with in1 := l }

/-- The words that entered an upstream queue in this cycle: they can be popped from the next (R356). -/
def Core.newWords (q : Core) (p : Nat) : Nat := if p = 28 then q.new0 else q.new1
/-- A word enters an upstream queue. -/
def Core.enqueue (q : Core) (p : Nat) (v : Word) (ctl : Bool) : Core :=
  let q := q.setQueue p (q.inQueue p ++ [(v, ctl)])
  if p = 28 then { q with new0 := q.new0 + 1 } else { q with new1 := q.new1 + 1 }

/-- What PORT_WORD_DELIVERY says of the place a word enters: the queue, and the side that it comes from (R356). -/
def portEntry (p side : Nat) : Nat := p + 32 * side
/-- The queue of such a place. -/
def entryPort (e : Nat) : Nat := e % 32
/-- The side of such a place. -/
def entrySide (e : Nat) : Nat := e / 32

/-- Whether an event is a word in flight to a queue. -/
def isPortWord (c p : Nat) : Event → Bool
  | .portWordDelivery d e _ _ => decide (d = c) && decide (entryPort e = p)
  | _ => false

/-- The words in a queue and in flight to it (R356). -/
def State.portLoad (s : State) (c p : Nat) : Nat :=
  ((s.core c).inQueue p).length + (s.pending.filter (isPortWord c p)).length +
    (s.timers.filter (fun t => isPortWord c p t.2)).length

/-- Whether a pending access to an element keeps a port's head word. -/
def keepsWord (c p : Nat) : Event → Bool
  | .handleCommandAdmission h => decide (h.core = c) && decide (h.portWords p ≠ 0) && !h.held
  | .fullEmptyHomeAccess a => decide (a.core = c) && (keptPorts a).contains p
  | _ => false

/-- Whether a waiting STS, or an access to an element, keeps a port's head word (R159, R155). -/
def State.portHeld (s : State) (c p : Nat) : Bool :=
  s.waiters.any (fun a => decide (a.core = c) && (keptPorts a).contains p) ||
  s.pending.any (keepsWord c p)

/-- The words of a port that came for a thread while it was saved (R397). -/
def Thread.stashed (t : Thread) (p : Nat) : List (Word × Bool) := (t.stash.filter (fun w => decide (w.1 = p))).map (·.2)
/-- The words that a thread takes at a port, in order: those that came for it while it was saved, then the queue's. DEDUCED: log 111. -/
def State.wordsFor (s : State) (t : Thread) (c p : Nat) : List (Word × Bool) := t.stashed p ++ (s.core c).inQueue p

/-- The words that `n` pops of a thread at a port take: those in its queue from before this cycle (R95, R356). -/
def State.takes (s : State) (t : Thread) (c p n : Nat) : List (Word × Bool) :=
  let l := s.wordsFor t c p
  (l.take (l.length - (s.core c).newWords p)).take n
/-- The light handlers that such pops raise (R357). -/
def State.raises (s : State) (t : Thread) (c p n : Nat) : Nat :=
  match s.claimHandler c with
  | some (_, h) => if h = 0 then 0 else ((s.takes t c p n).filter (·.2)).length
  | none => 0
/-- Whether the light handlers that one instruction's pops of both ports raise fit a core's 8 (R357, R358). -/
def State.lightRoom (s : State) (t : Thread) (c n0 n1 : Nat) : Bool :=
  let r := s.raises t c 28 n0 + s.raises t c 29 n1
  decide (r = 0) || decide ((s.core c).lights.length + r ≤ 8)
/-- The port that pops of `n0` words of i0 and `n1` of i1 have to wait for: its words are not there, or raise a light handler too many. -/
def State.lacksWords (s : State) (t : Thread) (c n0 n1 : Nat) : Option Nat :=
  if (s.takes t c 28 n0).length ≠ n0 then some 28
  else if (s.takes t c 29 n1).length ≠ n1 then some 29
  else if s.lightRoom t c n0 n1 then none
  else some (if s.raises t c 28 n0 = 0 then 29 else 28)
/-- The same for a thread's instruction, which takes no word that is kept for a waiting STS (R159). -/
def State.portWait (s : State) (t : Thread) (c n0 n1 : Nat) : Option Nat :=
  if n0 ≠ 0 ∧ s.portHeld c 28 then some 28 else if n1 ≠ 0 ∧ s.portHeld c 29 then some 29 else s.lacksWords t c n0 n1

/-- Takes one word off a port for a thread. -/
def State.takeWord (s : State) (u c p : Nat) : State :=
  let mine (w : Nat × Word × Bool) : Bool := decide (w.1 = p)
  if (s.thread? u).any (fun t => t.stash.any mine) then s.modThread u (fun t => { t with stash := t.stash.eraseP mine })
  else
    (s.modCore c (fun q => q.setQueue p ((q.inQueue p).drop 1))).wakeAll (fun _ t => match t.wait with
      | .portOut _ => true
      | _ => false)

/-- Pops one word for a thread; a control word raises a light handler (R357), for the launch that claims the core. -/
def State.popPort (s : State) (u c slot p : Nat) : Word × State :=
  match (match s.thread? u with
    | some t => s.wordsFor t c p
    | none => (s.core c).inQueue p) with
  | [] => (0#64, s)
  | (v, ctl) :: _ =>
    let s := (s.takeWord u c p).wakePorts c
    match ctl, s.claimHandler c with
    | true, some (key, h) =>
      if h = 0 then (v, s)
      else
        let g0 := BitVec.ofNat 64 (2 ^ 63 + slot * 2 ^ 16 + (p - 28))
        let s := s.modCore c (fun q => { q with lights := q.lights ++ [(key, g0, v)] })
        (v, (s.endIdle c).pokeHandler c)
    | _, _ => (v, s)

/-- The order in which senders' words enter a queue in one cycle (R356): from −x, +x, −y, +y. -/
def sideOf (c d : Nat) : Nat := if xOf c < xOf d then 0 else if xOf d < xOf c then 1 else if yOf c < yOf d then 2 else 3

/-- Puts a word in flight: it enters its queue 2 cycles later (R356), before a word of the same cycle from a later side. -/
def State.sendWord (s : State) (d p : Nat) (v : Word) (ctl : Bool) (side : Nat) : State :=
  let due := s.cycle + 2
  let later (t : Nat × Event) : Bool := decide (t.1 = due) && (match t.2 with
    | .portWordDelivery c e _ _ => decide (c = d) && decide (entryPort e = p) && decide (side < entrySide e)
    | _ => false)
  let first := s.timers.takeWhile (fun t => !later t)
  { s with timers := first ++ (due, .portWordDelivery d (portEntry p side) v ctl) :: s.timers.drop first.length }

/-- Pushes one word. -/
def State.pushPort (s : State) (c p : Nat) (v : Word) (ctl : Bool) : State :=
  match s.portTarget c p with
  | none => s
  | some d => s.sendWord d (p - 2) v ctl (sideOf c d)

/-! ## Reading and writing -/

/-- A register that is read must be full (R48): an armed or pending one parks the thread, an empty one faults. -/
def Act.needReg (r : BitVec 5) : Act Unit := do
  let t ← Act.me
  let x := t.reg r.toNat
  if x.full then pure ()
  else if x.armed || x.pend then Act.park (.reg r.toNat)
  else Act.fault 0x02 (r.setWidth 64)

/-- Every register of a list must be full; port fields are not registers. -/
def Act.needAll : List (BitVec 5) → Act Unit
  | [] => pure ()
  | r :: rs => do
    if isPort r then pure () else Act.needReg r
    Act.needAll rs

/-- Every downstream port of a list must have a target (R355) and room (R95). -/
def Act.needRoom : List (BitVec 5) → Act Unit
  | [] => pure ()
  | d :: ds => do
    let t ← Act.me
    if isPort d then
      let s ← get
      match s.portTarget t.core d.toNat with
      | none => Act.fault 0x15 (d.setWidth 64)
      | some q => if 4 ≤ s.portLoad q (d.toNat - 2) then Act.park (.portOut d.toNat) else pure ()
    else pure ()
    Act.needRoom ds

/-- How many fields of a list name port `p`. -/
def portUses (p : Nat) (rs : List (BitVec 5)) : Nat := (rs.filter (fun r => decide (r.toNat = p))).length

/-- Both upstream ports must hold the words that these fields pop (R95). -/
def Act.needWords (rs : List (BitVec 5)) : Act Unit := do
  if rs.any isPort then
    let s ← get
    let t ← Act.me
    match s.portWait t t.core (portUses 28 rs) (portUses 29 rs) with
    | some p => Act.park (.portIn p)
    | none => pure ()
  else pure ()

/-- What must hold before an instruction reads `rs` and writes `ds` (R48, R95, R355): full registers, a target and room at each
port it writes, a word at each port it reads. Until then nothing is popped or pushed. The fields are looked at in the order given, the ports
after the registers. DESIGN CHOICE: log 121. -/
def Act.ready (rs ds : List (BitVec 5)) : Act Unit := do
  Act.needAll rs
  Act.needRoom ds
  Act.needWords rs

/-- The value of a register field that is ready (R125); a port's word stays in its queue until `Act.pop`, and the fields read
before it take the earlier words (R95). -/
def Act.read (before : List (BitVec 5)) (r : BitVec 5) : Act Word := do
  let t ← Act.me
  if isPort r then
    let s ← get
    pure ((s.wordsFor t t.core r.toNat).getD (portUses r.toNat before) (0#64, false)).1
  else pure (t.reg r.toNat).val

/-- The value of source B that is ready (R107, R125). -/
def Act.readSrc (before : List (BitVec 5)) (b : Src) : Act Word :=
  match b with
  | .reg r => Act.read before r
  | .lit32 v => pure (v.signExtend 64)
  | .lit64 v => pure v

/-- Pops the port words that these fields took (R95). -/
def Act.pop : List (BitVec 5) → Act Unit
  | [] => pure ()
  | r :: rs => do
    if isPort r then
      let t ← Act.me
      modify (fun s => (s.popPort s.cur t.core t.slot r.toNat).2)
    else pure ()
    Act.pop rs

/-- Writes a result (R126): a register becomes full, a port is pushed. -/
def Act.writeCtl (d : BitVec 5) (v : Word) (ctl : Bool) : Act Unit := do
  let t ← Act.me
  if isPort d then modify (fun s => s.pushPort t.core d.toNat v ctl)
  else Act.modMe (fun t => t.setReg d.toNat v)
/-- Writes a result with control bit 0. -/
def Act.write (d : BitVec 5) (v : Word) : Act Unit := Act.writeCtl d v false

/-- Writes a predicate (R126). -/
def Act.writePred (k : BitVec 4) (v : Bool) : Act Unit :=
  Act.modMe (fun t =>
    let m : BitVec 16 := 1#16 <<< k.toNat
    { t with preds := if v then t.preds ||| m else t.preds &&& ~~~m })

end Sys2Proof.Machine
end

