-- ==== Sys2Proof/Machine/Flags.lean ====
section
/-!
DEFINITION. The scalar core's floating-point settings and sticky flags (R66, R68), and the conditions of the comparisons (R136,
R147).
-/
namespace Sys2Proof.Machine

/-- FFLAGS.FZ. -/
def Thread.fz (t : Thread) : Bool := t.fflags.getLsbD 8
/-- FFLAGS.SAT. -/
def Thread.sat (t : Thread) : Bool := t.fflags.getLsbD 9

/-- Sets sticky flags in FFLAGS: NX, UF, OF and NV only (R68). -/
def Act.raise (f : Flags) : Act Unit :=
  Act.modMe (fun t => { t with fflags := t.fflags ||| (f &&& 0x17#6).setWidth 64 })

/-- The conditions of CMP (R136). -/
inductive Cond where
  | eq | ne | lt | ge | le | gt | lo | hs | ls | hi
  deriving DecidableEq, Repr

/-- Whether a condition of CMP holds. -/
def Cond.holds (c : Cond) (a b : Word) : Bool :=
  match c with
  | .eq => decide (a = b)
  | .ne => decide (a ≠ b)
  | .lt => a.slt b
  | .ge => !a.slt b
  | .le => !b.slt a
  | .gt => b.slt a
  | .lo => a.ult b
  | .hs => !a.ult b
  | .ls => !b.ult a
  | .hi => b.ult a

/-- The conditions of FCMP (R147). -/
inductive FCond where
  | eq | ne | lt | le | gt | ge | un | or
  deriving DecidableEq, Repr

/-- Whether a condition of FCMP holds; a NaN is unordered. -/
def FCond.holds (c : FCond) (x y : FV) : Bool :=
  let un := x.isNan || y.isNan
  match c with
  | .eq => x.eq y
  | .ne => !x.eq y
  | .lt => x.lt y
  | .le => x.le y
  | .gt => y.lt x
  | .ge => y.le x
  | .un => un
  | .or => !un

/-- NV of a comparison: a signalling NaN (R61, R147). -/
def cmpFlags (x y : FV) : Flags := if decide (x = .nan true) || decide (y = .nan true) then flagNV else 0#6

end Sys2Proof.Machine
end

