-- ==== Sys2Proof/Machine/Access.lean ====
section
/-!
DEFINITION. A thread's accesses: the address checks (R149), where an address leads for a thread (R304, R305, R314-R316, R157), the
reads and writes of a chunk (R50, R153, R318, R336), solo reservations (R328), poison (R422) and element conversion (R154).
-/
namespace Sys2Proof.Machine

/-! ## Checks -/

/-- The format code of a pointer (R306). -/
def fmtOf (a : Word) : Nat := a.toNat / 2 ^ 52 % 32
/-- The block length log2 of a pointer (R306). -/
def blkOf (a : Word) : Nat := a.toNat / 2 ^ 48 % 16
/-- Whether an operand is a handle reference (R307). -/
def isRef (a : Word) : Bool := a.getLsbD 63
/-- R149 step 1: a pointer with nonzero bits [62:57], or format code 13-31. -/
def badTag (a : Word) : Bool := !isRef a && (decide (a.toNat / 2 ^ 57 % 64 ≠ 0) || decide (12 < fmtOf a))
/-- R149 step 5, for one aligned access. -/
def straddles (ea : Nat) : Bool :=
  let hole := decide (0xC000 ≤ ea % 2 ^ 16)
  (decide (windowOf ea = 14) && (decide (ea / 2 ^ 30 % 2 ^ 14 ≠ 0) || hole)) ||
  (decide (windowOf ea = 15) && (decide (ea / 2 ^ 16 % 2 ^ 28 ≠ 0) || hole))
/-- R154: the access size that a format code allows. -/
def sizeFits (code size : Nat) : Bool :=
  if code = 0 then true else if code = 1 then decide (size = 4)
  else if code = 2 ∨ code = 3 then decide (size = 2) else decide (size = 1)

/-- Steps 1 to 5 of R149 for a pointer operand: the effective address, or the fault's cause and value. A form whose alignment
unit differs from its size gives the unit. -/
def checkAddr (a : Word) (off : Int) (unit : Nat) (refs : Bool) : Except (Nat × Word) Nat :=
  if badTag a then .error (0x03, a)
  else if isRef a && !refs then .error (0x03, a)
  else
    let ea : Int := (a.toNat % 2 ^ 48 : Nat) + off
    if ea < 0 ∨ 2 ^ 48 ≤ ea then .error (0x04, a)
    else
      let n := ea.toNat
      if n % unit ≠ 0 then .error (0x05, BitVec.ofNat 64 n)
      else if straddles n then .error (0x06, BitVec.ofNat 64 n)
      else .ok n

/-- Checks an address and, with format code `codes`, its tag (R149 step 6); a failure is a precise fault. -/
def Act.address (a : Word) (off : Int) (unit : Nat) (codes : Nat → Bool) : Act Nat :=
  match checkAddr a off unit false with
  | .error (c, v) => Act.fault c v
  | .ok n => if codes (fmtOf a) then pure n else Act.fault 0x03 a

/-- Whether [base, base + len) stays in windows 0x0-0xD (R169, R291). -/
def globalRange (base len : Nat) : Bool := decide (base + len ≤ 14 * 2 ^ 44)

/-- Whether `n` bytes stay in one window, one core's instance of window 0xE, and outside the hole (R304). -/
def spanWhole (va n : Nat) : Bool :=
  let last := va + n - 1
  decide (last < 2 ^ 48) && decide (windowOf va = windowOf last) && !straddles va && !straddles last &&
  (decide (windowOf va < 14) || decide (va / 2 ^ 16 = last / 2 ^ 16))

/-! ## Where an address leads -/

/-- What is at an address, for one thread (R304). -/
inductive Spot where
  /-- The thread's own local memory or scratch, or the rows of its own sett core. -/
  | near (loc : Nat)
  /-- Another core's local memory. -/
  | remote (core loc : Nat)
  /-- Global memory. -/
  | global (e : TEntry) (loc : Nat)
  /-- No translation, or one that forbids the access: the access is held (R316). -/
  | absent
  /-- A fault's code (R157, R305). -/
  | bad (code : Nat)
  deriving DecidableEq, Repr

/-- Kinds of permission (R315). -/
inductive Perm where
  | rd | wr | ex
  deriving DecidableEq, Repr

/-- Whether a translation allows an access. -/
def TEntry.allows (e : TEntry) : Perm → Bool
  | .rd => e.rd
  | .wr => e.wr
  | .ex => e.ex

/-- Whether a core can serve a remote access of a context (R305). -/
def State.serves (s : State) (c ctx : Nat) : Bool := !s.coreFenced c && decide ((s.core c).tag = some ctx)

/-- Whether the isolation table pairs a context with one of another device (R419). -/
def State.paired (s : State) (ctx dev : Nat) : Bool := (Tab.get 0#64 s.device.iso (ctx * 4096 + dev)).getLsbD 16

/-- The global page of an address, with a permission. -/
def State.globalSpot (s : State) (ctx va : Nat) (p : Perm) : Spot :=
  match s.lookup ctx va with
  | none => .absent
  | some e =>
    if !e.allows p then .absent
    else
      let loc := s.placeIn e va
      match remoteDev loc with
      | some d => if s.lostDevs.contains d || !s.paired ctx d then .bad 0x07 else .global e loc
      | none => .global e loc

/-- Where an address leads from a core, for a context. -/
def State.coreSpot (s : State) (c ctx va : Nat) (p : Perm) : Spot :=
  if windowOf va = 15 then .near (localLoc c (va % 2 ^ 16))
  else if windowOf va = 14 then
    let d := va / 2 ^ 16 % 2 ^ 14
    if d = c then .near (localLoc c (va % 2 ^ 16))
    else if s.serves d ctx then .remote d (localLoc d (va % 2 ^ 16)) else .bad 0x07
  else s.globalSpot ctx va p

/-- Where a checked address leads for a thread; `mig` marks the .mig forms, which on a sett core may leave its rows (R157).
DEDUCED: log 18. -/
def State.spot (s : State) (t : Thread) (va : Nat) (p : Perm) (mig : Bool) : Spot :=
  match t.settOn with
  | some n =>
    if windowOf va = 15 then
      if va % 2 ^ 16 < 0x2000 then .near (scratchLoc n (va % 2 ^ 16)) else .bad 0x06
    else if windowOf va = 14 then .bad 0x07
    else
      match (if t.program then s.handleSpot n va else none) with
      | some loc => .near loc
      | none =>
        match s.globalSpot t.attr.ctx va p with
        | .global e loc =>
          if isHbm loc && decide (e.kind = 3) && decide (settOf loc = n) then .near loc
          else if mig then .global e loc else .bad 0x07
        | r => r
  | none => s.coreSpot t.core t.attr.ctx va p

/-- Where the bytes of a span lead: their places, or the first that cannot be reached. -/
inductive Reach where
  | ok (locs : List Nat)
  | absent (va : Nat)
  | bad (code va : Nat)
  deriving DecidableEq, Repr

/-- Puts a place before those that follow. -/
def Reach.cons (l : Nat) : Reach → Reach
  | .ok ls => .ok (l :: ls)
  | r => r

/-- The places of `n` bytes from an address up, as one thread reaches them. -/
def State.reach (s : State) (t : Thread) (va : Nat) (p : Perm) : Nat → Reach
  | 0 => .ok []
  | n + 1 =>
    match s.spot t va p false with
    | .absent => .absent va
    | .bad c => .bad c va
    | .near l => Reach.cons l (s.reach t (va + 1) p n)
    | .remote _ l => Reach.cons l (s.reach t (va + 1) p n)
    | .global _ l => Reach.cons l (s.reach t (va + 1) p n)

/-- The one spelling of an address: a 0xE address of the thread's own core is its 0xF twin (R305). -/
def Thread.spell (t : Thread) (va : Nat) : Nat :=
  if t.settOn.isNone && decide (windowOf va = 14) && decide (va / 2 ^ 16 % 2 ^ 14 = t.core) then
    15 * 2 ^ 44 + va % 2 ^ 16 else va

/-- The words of a 64 KiB page of HBM or of the host, as their full/empty bits are numbered. -/
def State.pageWords (s : State) (e : TEntry) : List Nat :=
  (List.range 1024).flatMap (fun l => (List.range 8).map (fun w => s.placeIn e (64 * l) / 8 + w))

/-- A page is first mapped: its frame has no mapping yet, and every word of it becomes full (R150, R311). DEDUCED: log 108. -/
def State.mapPage (s : State) (e : TEntry) : State :=
  let k := (e.ctx, e.page, e.frame)
  if s.mapped.contains k then s
  else
    let fresh := !s.mapped.any (fun m => decide (m.2.2 = e.frame))
    let ws := if fresh && !s.empty.isEmpty then s.pageWords e else []
    { s with
      mapped := s.mapped ++ [k]
      empty := if fresh then s.empty.filter (fun x => !ws.contains x.1) else s.empty }

/-- How many translations a slice caches (R315). -/
def sliceRoom (slice : Nat) : Nat := if slice < Config.cores then 256 else 4096

/-- A slice keeps a translation (R315); when it is full, one of its others goes, as the slice picks. -/
def State.cacheEntry (s : State) (e : TEntry) : State :=
  let same (x : TEntry) : Bool := decide (x.ctx = e.ctx) && decide (x.page = e.page) && decide (x.slice = e.slice)
  if s.tcache.any same then s
  else
    let mine := s.tcache.filter (fun x => decide (x.slice = e.slice))
    if mine.length < sliceRoom e.slice then { s with tcache := s.tcache ++ [e] }
    else
      let (k, s) := s.choose mine.length
      let out := mine.getD k e
      { s with tcache := s.tcache.filter (fun x => decide (x ≠ out)) ++ [e] }

/-- The number of 64 KiB pages in a page of a level. -/
def levelPages (level : Nat) : Nat := if level = 2 then 16384 else if level = 1 then 32 else 1
/-- The first 64 KiB of a page of a level. -/
def pageBase (level page : Nat) : Nat := page / levelPages level * levelPages level

/-- Remembers a translation that was used (R315), and its page's records (R292). -/
def State.useEntry (s : State) (e : TEntry) (write : Bool) : State :=
  let k := (e.ctx, pageBase e.level e.page)
  let s := (s.mapPage e).cacheEntry e
  { s with
    used := if s.used.contains k then s.used else s.used ++ [k]
    grants := if write && !s.grants.contains k then s.grants ++ [k] else s.grants }

/-- The page whose entry the Bed fault queue holds for an address (R316): the mapped page that forbids the access, from its first 64 KiB
on, or the 64 KiB page that has no translation. DEDUCED: log 109. -/
def State.faultPage (s : State) (ctx page : Nat) : Nat :=
  match s.lookup ctx (page * 2 ^ 16) with
  | some e => pageBase e.level page
  | none => page

/-- Puts a waiter at the Bed fault queue (R316): one entry for each page and context. -/
def State.faultWait (s : State) (ctx piece : Nat) (w : Waiter) : State :=
  let page := s.faultPage ctx piece
  if s.faultq.any (fun f => decide (f.ctx = ctx) && decide (f.page = page)) then
    { s with faultq := s.faultq.map (fun f =>
        if f.ctx = ctx ∧ f.page = page then { f with waiters := f.waiters ++ [w] } else f) }
  else { s with faultq := s.faultq ++ [⟨ctx, page, [w]⟩] }

/-- Remembers the translations of an engine's or the Bed's accesses to some lines of addresses, where they are mapped (R292, R315). -/
def State.usePages (s : State) (ctx : Nat) (vs : List Nat) (write : Bool) : State :=
  ((vs.map (· / 1024)).eraseDups).foldl (fun s page =>
    if windowOf (page * 2 ^ 16) < 14 then
      match s.lookup ctx (page * 2 ^ 16) with
      | some e => if e.allows (if write then .wr else .rd) then s.useEntry e write else s
      | none => s
    else s) s

/-- The thread is held silently at a page (R33, R316). -/
def Act.hold {α : Type} (va : Nat) : Act α := do
  let t ← Act.me
  modify (fun s => (s.count t.core 8 1).faultWait t.attr.ctx (va / 2 ^ 16) (.thread s.cur))
  Act.park (.page va)

/-! ## Reads and writes of a thread -/

/-- What a thread's own writes put over a byte (R153, R318, R336): its chunk's, by address; then a sealed thread's footprint. -/
def Thread.over (t : Thread) (va loc : Nat) : Option Byte :=
  match t.chunk.writes.find? (fun w => decide (w.va = va)) with
  | some w => some w.val
  | none =>
    if t.attr.isSealed then (t.foot.find? (fun w => decide (w.loc = loc))).map (·.val) else none

/-- A byte as a thread reads it. DEDUCED: log 25. -/
def State.seeByte (s : State) (t : Thread) (va loc : Nat) : Byte :=
  match t.over va loc with
  | some b => b
  | none => if t.settOn.isSome && (isHbm loc || (handleAt loc).isSome) then s.rowByte loc else Store.get s.mem loc

/-- The `n` bytes a thread reads from an address up, little-endian. -/
def State.see (s : State) (t : Thread) (va loc : Nat) : Nat → Nat
  | 0 => 0
  | n + 1 => (s.seeByte t va loc).toNat + 256 * s.see t (va + 1) (loc + 1) n

/-- Whether the full/empty bit reads full for a thread (R336). -/
def State.seeFull (s : State) (t : Thread) (word : Nat) : Bool :=
  match (if t.attr.isSealed then Tab.find? t.footFull word else none) with
  | some b => b
  | none => s.full word

/-- Records a read of the chunk (R50), and the page it used (R317). -/
def Thread.noteRead (t : Thread) (loc : Nat) (page : Option Nat) : Thread :=
  if t.settOn.isSome then t
  else
    { t with chunk := { t.chunk with
        reads := setAdd t.chunk.reads (loc / 8)
        pages := match page with
          | some p => setAdd t.chunk.pages p
          | none => t.chunk.pages } }

/-- Whether a solo attempt waits for a load's reply from another core or device: its restart gives that wait up. -/
def State.dropReplies (s : State) (u : Nat) : State := { s with pending := s.pending.filter (fun e => !isReplyTo u e) }

/-- A solo chunk reserves the line it reaches (R328); a line that an earlier solo entry or an engine command or HOP holds makes it
release its own and start again. -/
def Act.reserve (loc : Nat) : Act Unit := do
  let t ← Act.me
  if t.alone && t.settOn.isNone then
    let s ← get
    let line := loc / 64
    if s.owned line then do
      modify (fun s => s.restartSolo s.cur)
      Act.park .owned
    else
      match s.reserved.find? (fun r => decide (r.1 = line) && decide (r.2 ≠ s.cur)) with
      | some (_, u) =>
        let first := match s.thread? u with
          | some o => decide (t.chunk.soloAt < o.soloChunk.soloAt)
          | none => true
        if first then
          -- the other entered solo later: it releases and restarts, from the arbiters too
          match s.thread? u with
          | some _ => modify (fun s =>
              let s := (s.dropReplies u).restartSolo u
              { s with reserved := s.reserved ++ [(line, s.cur)] })
          | none => modify (fun s => { s with reserved := s.reserved.filter (fun r : Nat × Nat => decide (r.2 ≠ u)) ++ [(line, s.cur)] })
        else do
          modify (fun s => s.restartSolo s.cur)
          Act.stop
      | none => modify (fun s => { s with reserved := if s.reserved.contains (line, s.cur) then s.reserved
                                                      else s.reserved ++ [(line, s.cur)] })
  else pure ()

/-- A thread's access waits while an engine command or HOP owns the line (R332). -/
def Act.recall (loc : Nat) : Act Unit := do
  let s ← get
  if s.owned (loc / 64) then Act.park .owned else pure ()
/-- An access of a chunk reaches a line: a solo chunk reserves it (R328). An access outside the chunk reserves nothing. -/
def Act.claim (single : Bool) (loc : Nat) : Act Unit := do
  if single then pure () else Act.reserve loc
  Act.recall loc
/-- A write outside the chunk waits while the line is reserved, owned, or to be read by an engine (R328, R332); a sealed thread's goes to
its footprint, and waits for its own commands only (R184). -/
def Act.needLine (loc : Nat) : Act Unit := do
  Act.recall loc
  let t ← Act.me
  let s ← get
  if s.holdsBack s.cur t.attr.isSealed [loc / 64] then Act.park .owned else pure ()

/-- A read reaches its line (R334): an ordinary one finds it in the LLC or fills it there, and one of a sett core reads the HBM copy. -/
def State.reachLine (s : State) (t : Thread) (loc : Nat) : State :=
  if isHbm loc then (if t.settOn.isSome then s.meetError (loc / 64) else s.touchLine (loc / 64)) else s
/-- A poisoned line is reported at its consumer, with the line's address (R422, R392). DEDUCED: log 98. -/
def Act.clean (va loc : Nat) : Act Unit := do
  let t ← Act.me
  modify (fun s => s.reachLine t loc)
  let s ← get
  if s.poisoned loc then Act.fault 0x09 (BitVec.ofNat 64 (va / 64 * 64)) else pure ()

/-- The number of distinct 8-byte words a chunk writes (R49, R153). -/
def Chunk.words (c : Chunk) : Nat := (wordsOf (c.writes.map (·.va))).length

/-- The entries that a store of `n` bytes makes, highest byte first. -/
def entriesAt (va loc v : Nat) : Nat → List WEntry
  | 0 => []
  | n + 1 => entriesAt (va + 1) (loc + 1) (v / 256) n ++ [⟨va, loc, BitVec.ofNat 8 v⟩]

/-- The addresses of the bytes that a sealed thread's chunks have still to put into its footprint: its open one's, and those of the one
at the arbiters. -/
def Thread.unpublished (t : Thread) : List Nat :=
  (t.chunk.writes ++ (match t.prev with
    | some c => c.writes
    | none => [])).map (·.va)
/-- Whether some bytes would pass the 4 MiB of a footprint (R54). -/
def Thread.footOver (t : Thread) (es : List WEntry) : Bool :=
  let new := (t.unpublished ++ es.map (·.va)).eraseDups.filter (fun v => !(t.foot.any (fun w => decide (w.va = v))))
  decide (4194304 < t.foot.length + new.length)

/-- Buffers the bytes of a store in the chunk (R50, R153): first the chunk ends if a 65th word would be written (R49).
DESIGN CHOICE: log 13. -/
def Act.buffer (es : List WEntry) (page : Option Nat) : Act Unit := do
  let t ← Act.me
  let c : Chunk := { t.chunk with writes := es ++ t.chunk.writes }
  if t.attr.isSealed && t.footOver es then
    Act.fault 0x0B (BitVec.ofNat 64 ((es.map (·.va)).foldl min (2 ^ 48)))
  else if 64 < c.words then Act.passChunk
  else pure ()
  Act.modMe (fun t => { t with chunk := { t.chunk with
    writes := es ++ t.chunk.writes.filter (fun w => !es.any (fun e => decide (e.va = w.va)))
    pages := match page with
      | some p => setAdd t.chunk.pages p
      | none => t.chunk.pages } })

/-- Whether the LLC still holds a line that near memory writes: one that it held may have been evicted, unless something of it shows.
DESIGN CHOICE: log 26. -/
def State.stillHeld (s : State) (line : Nat) : Bool × State :=
  if !s.holdsLine line then (false, s)
  else if (List.range 64).any (fun i => (Tab.find? s.near (64 * line + i)).isSome) then (true, s)
  else
    let (k, s) := s.choose 2
    if k = 1 then (true, s) else (false, s.writeBackLine line)

/-- Writes bytes of one line on the near-memory path (R334, R320). -/
def State.nearStore (s : State) (ws : List (Nat × Byte)) : State :=
  match ws with
  | [] => s
  | (loc, _) :: _ =>
    if isHbm loc then
      let (held, s) := s.stillHeld (loc / 64)
      let s := if held then s else { s with co := s.co + 1 }
      ws.foldl (fun s w => s.nearByte w.1 w.2 held) s
    else if (handleAt loc).isSome then
      -- a store to a handle is a write operation on it: its norms follow (R371)
      let s := ws.foldl (fun s w => match handleAt w.1 with
        | some (k, off) => s.setHandleByte k off w.2
        | none => s) s
      match (handleAt loc).bind (fun p => (Tab.find? s.handles p.1).map (fun h => (p.1, h))) with
      | some (k, h) => { s with handles := Tab.insert s.handles k (s.normed h) }
      | none => s
    else { s with mem := ws.foldl (fun m w => Store.put m w.1 w.2) s.mem }

/-! ## Conversion (R154) -/

/-- The decode table of a core that a format code names. -/
def State.tableOf (s : State) (c k : Nat) : DTable := Tab.get DTable.reset (s.core c).eng.tables k

/-- A conversion that names a table being built waits (R74); on a sett core a table format is a pointer-tag fault (R157). -/
def Act.needTable (a : Word) (code : Nat) : Act Unit := do
  let t ← Act.me
  match elemTable code with
  | none => pure ()
  | some (k, _) =>
    if t.settOn.isSome then Act.fault 0x03 a
    else
      let s ← get
      if (s.core t.core).eng.building.contains k then Act.park .table else pure ()

/-- What a load of an element writes to D, and its flags (R153, R154). -/
def loadValue (tab : Nat → DTable) (code : Nat) (fz : Bool) (raw : Nat) : Word × Flags :=
  if code < 2 then (BitVec.ofNat 64 raw, 0#6)
  else if 8 ≤ code ∧ code ≤ 11 then
    let (lo, f0) := elemF32 fz (decodeElem code tab (raw % 16))
    let (hi, f1) := elemF32 fz (decodeElem code tab (raw / 16 % 16))
    (BitVec.ofNat 64 (lo + 2 ^ 32 * hi), f0 ||| f1)
  else let (v, f) := elemF32 fz (decodeElem code tab raw); (BitVec.ofNat 64 v, f)

/-- What a store of an element writes to memory, and its flags (R153, R154). -/
def storeValue (tab : Nat → DTable) (code : Nat) (fz sat : Bool) (d : Word) : Nat × Flags :=
  if code < 2 then (d.toNat, 0#6)
  else if 8 ≤ code ∧ code ≤ 11 then
    let (lo, f0) := encodeElem code tab fz sat (value F32 (d.toNat % 2 ^ 32))
    let (hi, f1) := encodeElem code tab fz sat (value F32 (d.toNat / 2 ^ 32))
    (lo + 16 * hi, f0 ||| f1)
  else encodeElem code tab fz sat (value F32 (d.toNat % 2 ^ 32))

end Sys2Proof.Machine
end

