-- ==== Sys2Proof/Machine/Control.lean ====
section
/-!
DEFINITION. Meanings of the transfers (R143, R144).
-/
namespace Sys2Proof.Machine

/-- The check of a target (R143): a failed one is the illegal-instruction fault, with the target in FVAL (R392). -/
def Act.target (t : Int) : Act Nat :=
  if 0 ≤ t ∧ legalTarget t.toNat then pure t.toNat
  else Act.fault 0x01 (BitVec.ofInt 64 (2 ^ 63 + t % 2 ^ 63))

/-- BR (R144). -/
def execBr (o : BitVec 20) (g : BitVec 5) (s : State) : Host.Outcome State Fault Refusal :=
  Act.go (Act.issueTo .plain 4 [] g (do
    let t ← Act.me
    let n ← Act.target (t.pc + 4 * o.toInt)
    pure (some n))) s
/-- CALL: the link goes to g1 (R144). -/
def execCall (o : BitVec 20) (g : BitVec 5) (s : State) : Host.Outcome State Fault Refusal :=
  Act.go (Act.issueTo .plain 4 [] g (do
    let t ← Act.me
    let n ← Act.target (t.pc + 4 * o.toInt)
    Act.write 1#5 (BitVec.ofNat 64 (t.pc + 4))
    pure (some n))) s
/-- JMP (R144). -/
def execJmp (b : Src) (g : BitVec 5) (s : State) : Host.Outcome State Fault Refusal :=
  Act.go (Act.issueTo .plain b.len b.fields g (do
    Act.ready b.fields []
    let y ← Act.readSrc [] b
    let n ← Act.target y.toNat
    Act.pop b.fields
    pure (some n))) s
/-- CALLR: b is read before the link is written (R144). -/
def execCallr (d : BitVec 5) (b : Src) (g : BitVec 5) (s : State) : Host.Outcome State Fault Refusal :=
  Act.go (Act.issueTo .plain b.len (d :: b.fields) g (do
    Act.ready b.fields []
    let t ← Act.me
    let y ← Act.readSrc [] b
    let n ← Act.target y.toNat
    Act.pop b.fields
    Act.write d (BitVec.ofNat 64 (t.pc + b.len))
    pure (some n))) s
/-- LOOP: the target is checked only when it is taken (R144). -/
def execLoop (d : BitVec 5) (i : BitVec 10) (g : BitVec 5) (s : State) : Host.Outcome State Fault Refusal :=
  Act.go (Act.issueTo .plain 4 [d] g (do
    Act.ready [d] []
    let t ← Act.me
    let x ← Act.read [] d
    if x - 1#64 = 0#64 then do
      Act.write d 0#64
      pure none
    else do
      let n ← Act.target (t.pc + 4 * i.toInt)
      Act.write d (x - 1#64)
      pure (some n))) s

end Sys2Proof.Machine
end

