-- ==== Sys2Proof/Machine/Float.lean ====
section
/-!
DEFINITION. Meanings of the FP32 scalar forms (R145-R148).
-/
namespace Sys2Proof.Machine

/-- An F32 operand from the low half of a register, after fz (R64, R145). -/
def operandF (fz : Bool) (x : Word) : FV := (value F32 (x.toNat % 2 ^ 32)).flush fz

/-- A two-source FP32 form: D := round(f x y), flags into FFLAGS (R145). -/
def Act.fop (d a : BitVec 5) (b : Src) (g : BitVec 5) (f : FV → FV → FV) : Act Unit :=
  Act.issue .plain b.len (d :: a :: b.fields) g (do
    Act.ready (a :: b.fields) [d]
    let t ← Act.me
    let x ← Act.read [] a
    let y ← Act.readSrc [a] b
    Act.pop (a :: b.fields)
    let (r, fl) := round F32 t.fz t.sat (f (operandF t.fz x) (operandF t.fz y))
    Act.raise fl
    Act.write d (BitVec.ofNat 64 r))

/-- A comparison of F32 values (R147). -/
def Act.fcmp (d : BitVec 4) (a : BitVec 5) (b : Src) (g : BitVec 5) (c : FCond) : Act Unit :=
  Act.issue .plain b.len (a :: b.fields) g (do
    Act.ready (a :: b.fields) []
    let t ← Act.me
    let x ← Act.read [] a
    let y ← Act.readSrc [a] b
    Act.pop (a :: b.fields)
    Act.raise (cmpFlags (operandF t.fz x) (operandF t.fz y))
    Act.writePred d (c.holds (operandF t.fz x) (operandF t.fz y)))

/-- A conversion: from b and the fz and sat settings to a result and flags (R148). -/
def Act.fcvt (d : BitVec 5) (b : Src) (g : BitVec 5) (f : Bool → Bool → Word → Word × Flags) : Act Unit :=
  Act.issue .plain b.len (d :: b.fields) g (do
    Act.ready b.fields [d]
    let t ← Act.me
    let y ← Act.readSrc [] b
    Act.pop b.fields
    let (r, fl) := f t.fz t.sat y
    Act.raise fl
    Act.write d r)

/-- FADD (R145). -/
def execFadd (d a : BitVec 5) (b : Src) (g : BitVec 5) (s : State) : Host.Outcome State Fault Refusal :=
  Act.go (Act.fop d a b g FV.add) s
/-- FSUB (R145). -/
def execFsub (d a : BitVec 5) (b : Src) (g : BitVec 5) (s : State) : Host.Outcome State Fault Refusal :=
  Act.go (Act.fop d a b g (fun x y => x.add y.negate)) s
/-- FMUL (R145). -/
def execFmul (d a : BitVec 5) (b : Src) (g : BitVec 5) (s : State) : Host.Outcome State Fault Refusal :=
  Act.go (Act.fop d a b g FV.mul) s
/-- FMIN and FMAX (R145): the chosen operand, exact; no flag but NV. -/
def Act.fpick (d a : BitVec 5) (b : Src) (g : BitVec 5) (big : Bool) : Act Unit :=
  Act.issue .plain b.len (d :: a :: b.fields) g (do
    Act.ready (a :: b.fields) [d]
    let t ← Act.me
    let x ← Act.read [] a
    let y ← Act.readSrc [a] b
    Act.pop (a :: b.fields)
    let (r, fl) := round F32 false false (FV.pick big (operandF t.fz x) (operandF t.fz y))
    Act.raise (fl &&& flagNV)
    Act.write d (BitVec.ofNat 64 r))
/-- FMIN (R145). -/
def execFmin (d a : BitVec 5) (b : Src) (g : BitVec 5) (s : State) : Host.Outcome State Fault Refusal :=
  Act.go (Act.fpick d a b g false) s
/-- FMAX (R145). -/
def execFmax (d a : BitVec 5) (b : Src) (g : BitVec 5) (s : State) : Host.Outcome State Fault Refusal :=
  Act.go (Act.fpick d a b g true) s
/-- FFMA: one rounding; D is read before it is written (R127, R146). -/
def execFfma (d a : BitVec 5) (b : Src) (g : BitVec 5) (s : State) : Host.Outcome State Fault Refusal :=
  Act.go (Act.issue .plain b.len (d :: a :: b.fields) g (do
    Act.ready (d :: a :: b.fields) []
    let t ← Act.me
    let z ← Act.read [] d
    let x ← Act.read [] a
    let y ← Act.readSrc [a] b
    Act.pop (a :: b.fields)
    let (r, fl) := round F32 t.fz t.sat (((operandF t.fz x).mul (operandF t.fz y)).add (operandF t.fz z))
    Act.raise fl
    Act.write d (BitVec.ofNat 64 r))) s

/-- FCMP.eq (R147). -/
def execFcmpEq (d : BitVec 4) (a : BitVec 5) (b : Src) (g : BitVec 5) (s : State) : Host.Outcome State Fault Refusal :=
  Act.go (Act.fcmp d a b g .eq) s
/-- FCMP.ne. -/
def execFcmpNe (d : BitVec 4) (a : BitVec 5) (b : Src) (g : BitVec 5) (s : State) : Host.Outcome State Fault Refusal :=
  Act.go (Act.fcmp d a b g .ne) s
/-- FCMP.lt. -/
def execFcmpLt (d : BitVec 4) (a : BitVec 5) (b : Src) (g : BitVec 5) (s : State) : Host.Outcome State Fault Refusal :=
  Act.go (Act.fcmp d a b g .lt) s
/-- FCMP.le. -/
def execFcmpLe (d : BitVec 4) (a : BitVec 5) (b : Src) (g : BitVec 5) (s : State) : Host.Outcome State Fault Refusal :=
  Act.go (Act.fcmp d a b g .le) s
/-- FCMP.gt. -/
def execFcmpGt (d : BitVec 4) (a : BitVec 5) (b : Src) (g : BitVec 5) (s : State) : Host.Outcome State Fault Refusal :=
  Act.go (Act.fcmp d a b g .gt) s
/-- FCMP.ge. -/
def execFcmpGe (d : BitVec 4) (a : BitVec 5) (b : Src) (g : BitVec 5) (s : State) : Host.Outcome State Fault Refusal :=
  Act.go (Act.fcmp d a b g .ge) s
/-- FCMP.un. -/
def execFcmpUn (d : BitVec 4) (a : BitVec 5) (b : Src) (g : BitVec 5) (s : State) : Host.Outcome State Fault Refusal :=
  Act.go (Act.fcmp d a b g .un) s
/-- FCMP.or. -/
def execFcmpOr (d : BitVec 4) (a : BitVec 5) (b : Src) (g : BitVec 5) (s : State) : Host.Outcome State Fault Refusal :=
  Act.go (Act.fcmp d a b g .or) s

/-! ## Conversions (R148) -/

/-- An F32 to an integer. -/
def toInteger (mode : Nat) (lo hi : Int) (fz _sat : Bool) (y : Word) : Word × Flags :=
  let (n, fl) := f2i (operandF fz y) mode lo hi
  (BitVec.ofInt 64 n, fl)
/-- A rounding of a value to a format. -/
def toFmt (f : Fmt) (x : FV) (fz sat : Bool) : Word × Flags :=
  let (r, fl) := round f fz sat x
  (BitVec.ofNat 64 r, fl)
/-- A widening to F32: exact, fz applied to the operand. -/
def widen (f : Fmt) (bits : Nat) (fz _sat : Bool) (y : Word) : Word × Flags :=
  toFmt F32 ((value f (y.toNat % 2 ^ bits)).flush fz) false false

/-- FCVT.f2i. -/
def execFcvtF2i (d : BitVec 5) (b : Src) (m : BitVec 2) (g : BitVec 5) (s : State) : Host.Outcome State Fault Refusal :=
  Act.go (Act.fcvt d b g (toInteger m.toNat (-2 ^ 63) (2 ^ 63 - 1))) s
/-- FCVT.f2n. -/
def execFcvtF2n (d : BitVec 5) (b : Src) (m : BitVec 2) (g : BitVec 5) (s : State) : Host.Outcome State Fault Refusal :=
  Act.go (Act.fcvt d b g (toInteger m.toNat 0 (2 ^ 64 - 1))) s
/-- FCVT.fint. -/
def execFcvtFint (d : BitVec 5) (b : Src) (m : BitVec 2) (g : BitVec 5) (s : State) : Host.Outcome State Fault Refusal :=
  Act.go (Act.fcvt d b g (fun fz sat y =>
    let (x, nx) := roundint (operandF fz y) m.toNat
    let (r, fl) := toFmt F32 x fz sat
    (r, fl ||| nx))) s
/-- FCVT.i2f. -/
def execFcvtI2f (d : BitVec 5) (b : Src) (g : BitVec 5) (s : State) : Host.Outcome State Fault Refusal :=
  Act.go (Act.fcvt d b g (fun fz sat y => toFmt F32 (.ofInt y.toInt) fz sat)) s
/-- FCVT.n2f. -/
def execFcvtN2f (d : BitVec 5) (b : Src) (g : BitVec 5) (s : State) : Host.Outcome State Fault Refusal :=
  Act.go (Act.fcvt d b g (fun fz sat y => toFmt F32 (.ofInt y.toNat) fz sat)) s
/-- FCVT.f2h. -/
def execFcvtF2h (d : BitVec 5) (b : Src) (g : BitVec 5) (s : State) : Host.Outcome State Fault Refusal :=
  Act.go (Act.fcvt d b g (fun fz sat y => toFmt F16 (operandF fz y) fz sat)) s
/-- FCVT.h2f. -/
def execFcvtH2f (d : BitVec 5) (b : Src) (g : BitVec 5) (s : State) : Host.Outcome State Fault Refusal :=
  Act.go (Act.fcvt d b g (widen F16 16)) s
/-- FCVT.f2b. -/
def execFcvtF2b (d : BitVec 5) (b : Src) (g : BitVec 5) (s : State) : Host.Outcome State Fault Refusal :=
  Act.go (Act.fcvt d b g (fun fz sat y => toFmt BF16 (operandF fz y) fz sat)) s
/-- FCVT.b2f. -/
def execFcvtB2f (d : BitVec 5) (b : Src) (g : BitVec 5) (s : State) : Host.Outcome State Fault Refusal :=
  Act.go (Act.fcvt d b g (widen BF16 16)) s
/-- FCVT.f2w. -/
def execFcvtF2w (d : BitVec 5) (b : Src) (g : BitVec 5) (s : State) : Host.Outcome State Fault Refusal :=
  Act.go (Act.fcvt d b g (fun fz sat y => toFmt W19 (operandF fz y) fz sat)) s
/-- FCVT.w2f. -/
def execFcvtW2f (d : BitVec 5) (b : Src) (g : BitVec 5) (s : State) : Host.Outcome State Fault Refusal :=
  Act.go (Act.fcvt d b g (widen W19 19)) s

end Sys2Proof.Machine
end

