-- ==== Sys2Proof/Machine/Memory.lean ====
section
/-!
DEFINITION. Meanings of the loads and stores, the synchronising accesses, armed registers and remote fills, the atomics, posted
stores, WAITA, and the fences (R149-R169).
-/
namespace Sys2Proof.Machine

/-! ## Travelling (R45, R156, R174) -/

/-- The place of a thread as an owner number: a core, or 16,384 and up for a sett core. -/
def Thread.here (t : Thread) : Nat :=
  match t.settOn with
  | some n => Config.cores + n
  | none => t.core

/-- The number of registers that a live mask names. -/
def maskCount (m : BitVec 28) : Nat := ((List.range 28).filter (fun k => m.getLsbD k)).length

/-- The word that a packet brought for the address of the .mig instruction at the pc, whose access has not committed (R45).
DEDUCED: log 103. -/
def Thread.carried (t : Thread) : Option Word :=
  match t.packet with
  | some (pc, x) => if decide (pc = t.pc) && decide (t.chunk.count = 0) && t.prev.isNone then some x else none
  | none => none
/-- The same, for an instruction that has the .mig modifier or not. -/
def Thread.brought (t : Thread) (mig : Bool) : Option Word := if mig then t.carried else none
/-- The fields that give an access its address: A, or nothing when the packet brought it. -/
def Thread.baseFields (t : Thread) (mig : Bool) (a : BitVec 5) : List (BitVec 5) := if (t.brought mig).isSome then [] else [a]

/-- The word that gives an access its address: the packet's (R45), or register A, which is ready together with the fields `more`.
DEDUCED: log 103. -/
def Act.base (mig : Bool) (a : BitVec 5) (more : List (BitVec 5)) : Act Word := do
  let t ← Act.me
  match t.brought mig with
  | some x => pure x
  | none => do
    Act.ready (a :: more) []
    Act.read [] a

/-- The thread leaves for an owner with a live mask (R45, R46): it ends its chunk and waits in its slot until nothing is pending. Its
packet holds the pc and the address word of a .mig access; the port words that the address took are popped. DEDUCED: log 103. -/
def Act.travel {α : Type} (owner : Nat) (mask : BitVec 28) (addr : Option Word) (taken : List (BitVec 5)) : Act α := do
  if 10 < maskCount mask then Act.fault 0x0A (mask.setWidth 64)
  else do
    Act.endChunk
    Act.pop taken
    Act.modMe (fun t => { t with packet := addr.map (fun x => (t.pc, x)) })
    modify (fun s => s.push (.migrationDeparture s.cur owner mask))
    Act.park .depart

/-- A .mig access travels when its address belongs elsewhere (R156); a sealed thread's acts as the plain form (R408), and so does
a near-memory program's. DEDUCED: log 18, 93. -/
def Act.maybeTravel (va : Nat) (x : Word) (a : BitVec 5) : Act Unit := do
  let t ← Act.me
  let s ← get
  if t.attr.isSealed || t.program then pure ()
  else
    match s.migOwner t.attr.ctx t.here va with
    | none => pure ()
    | some o =>
      if o = t.here then pure ()
      else if windowOf va = 14 && !s.serves o t.attr.ctx then Act.fault 0x07 (BitVec.ofNat 64 va)
      else Act.travel o t.attr.mask (some x) (t.baseFields true a)

/-! ## Loads and stores (R149-R157) -/

/-- An access to an element of a handle (R155): it ends the chunk and goes to the handle table, with FFLAGS and the port words it
takes once it is admitted. DEDUCED: log 17. -/
def Act.element (op : HandleOp) (size : Nat) (d : BitVec 5) (x : Word) (off : Int) (data : Word) (rs : List (BitVec 5)) :
    Act Unit := do
  let t ← Act.me
  if t.settOn.isSome then Act.illegal
  else do
    Act.endChunk
    Act.needWords rs
    let idx : Int := (x.toNat % 2 ^ 40 : Nat) + off
    let b := t.fflags ||| BitVec.ofNat 64 (portUses 28 rs * 2 ^ 40 + portUses 29 rs * 2 ^ 42)
    modify (fun s => s.push (.handleCommandAdmission
      { op := op, uid := s.cur, ctx := t.attr.ctx, core := t.core, reg := if op = .elemRead then d else 31#5, a := x, b := b
        index := if idx < 0 then 2 ^ 48 else idx.toNat, size := size, data := data, pc := t.pc, held := false
        seq := t.attr.seq, tid := t.attr.tid.toNat }))
    if op = .elemRead then Act.modMe (fun t => t.putReg d.toNat { t.reg d.toNat with pend := true }) else pure ()
    Act.park .handle

/-- The thread waits for the reply of a load: the register is awaited, and an instruction inside the chunk is counted. -/
def Act.awaitLoad (single : Bool) (d : BitVec 5) (e : Event) : Act Unit := do
  modify (fun s => s.push e)
  Act.modMe (fun t =>
    let t := t.putReg d.toNat { t.reg d.toNat with pend := true }
    if single then t else { t with chunk := { t.chunk with count := t.chunk.count + 1 } })
  Act.park .reply

/-- Where a single-operation event's write goes: a sealed thread's footprint, or memory as one event (R336). -/
def State.writeFor (s : State) (u : Nat) (va loc n v : Nat) : State :=
  match s.thread? u with
  | none => s.commitWord loc n v
  | some t =>
    if t.attr.isSealed then
      let es : List WEntry := (bytesAt loc v n).zipIdx.map (fun b => ⟨va + b.2, b.1.1, b.1.2⟩)
      ({ s.modThread u (fun t => { t with foot := es.foldl footAdd t.foot }) with co := s.co + 1 }).progress t.attr.ctx
    else (s.commitWord loc n v).progress t.attr.ctx

/-- A load of `size` bytes (R153, R154). One that reads a port is a single event outside the chunk (R151, R329). -/
def Act.load (size : Nat) (mig : Bool) (d a : BitVec 5) (i : BitVec 10) (g : BitVec 5) : Act Unit :=
  Act.issue .plain 4 [d, a] g (do
    let x ← Act.base mig a []
    if isRef x then Act.element .elemRead size d x i.toInt 0#64 [a]
    else do
      let va ← Act.address x (i.toInt * size) size (fun c => sizeFits c size)
      if mig then Act.maybeTravel va x a else pure ()
      Act.needTable x (fmtOf x)
      let t ← Act.me
      let fs := t.baseFields mig a
      let single := isPort a
      let s ← get
      let conv (s : State) (t : Thread) (va loc : Nat) : Word × Flags :=
        loadValue (s.tableOf t.core) (fmtOf x) t.fz (s.see t va loc size)
      let far (loc : Nat) : Act Unit := do
        Act.claim single loc
        Act.pop fs
        let t ← Act.me
        Act.awaitLoad single d (.remoteAccessArrival
          { kind := .load, uid := s.cur, reg := d, ctx := t.attr.ctx, core := t.core, va := va, loc := loc, size := size
            fmt := fmtOf x, data := 0#64, expd := if single then 1#64 else 0#64, pc := t.pc })
      match s.spot t va .rd mig with
      | .bad c => Act.fault c (BitVec.ofNat 64 va)
      | .absent => Act.hold va
      | .near loc => do
        Act.claim single loc
        Act.clean va loc
        let s ← get
        let va := t.spell va
        if single then pure () else Act.modMe (fun t => t.noteRead loc none)
        let (v, fl) := conv s t va loc
        Act.pop fs
        Act.raise fl
        Act.write d v
      | .remote _ loc => far loc
      | .global e loc => do
        modify (fun s => s.useEntry e false)
        if (remoteDev loc).isSome then far loc
        else do
          Act.claim single loc
          Act.clean va loc
          let s ← get
          if single then pure () else Act.modMe (fun t => t.noteRead loc (some e.page))
          let (v, fl) := conv s t va loc
          Act.pop fs
          Act.raise fl
          Act.awaitLoad single d (.replyArrival s.cur d v))

/-- A store of `size` bytes (R153, R154). One that reads a port is a single event outside the chunk (R152); on a sett core every store
takes effect at once (R157). DESIGN CHOICE: log 13. -/
def Act.store (size : Nat) (mig : Bool) (d a : BitVec 5) (i : BitVec 10) (g : BitVec 5) : Act Unit :=
  Act.issue .plain 4 [d, a] g (do
    let x ← Act.base mig a (if mig then [] else [d])
    if isRef x then do
      Act.ready [a, d] []
      let v ← Act.read [a] d
      Act.element .elemWrite size d x i.toInt v [a, d]
    else do
      let va ← Act.address x (i.toInt * size) size (fun c => sizeFits c size)
      if mig then Act.maybeTravel va x a else pure ()
      let t ← Act.me
      let fs := t.baseFields mig a
      Act.ready (fs ++ [d]) []
      Act.needTable x (fmtOf x)
      let s ← get
      let v ← Act.read fs d
      let (bits, fl) := storeValue (s.tableOf t.core) (fmtOf x) t.fz t.sat v
      let es (loc : Nat) := entriesAt (t.spell va) loc bits size
      let put (loc : Nat) (page : Option Nat) : Act Unit := do
        if isPort a || isPort d then do
          Act.needLine loc
          if t.attr.isSealed && t.footOver (es loc) then Act.fault 0x0B (BitVec.ofNat 64 va) else pure ()
          modify (fun s => s.writeFor s.cur (t.spell va) loc size bits)
        else do
          Act.claim false loc
          Act.buffer (es loc) page
        Act.pop (fs ++ [d])
        Act.raise fl
      let atOnce (loc : Nat) : Act Unit := do
        modify (fun s => s.nearStore (bytesAt loc bits size))
        Act.raise fl
      match s.spot t va .wr mig with
      | .bad c => Act.fault c (BitVec.ofNat 64 va)
      | .absent => Act.hold va
      | .near loc => if t.settOn.isSome then atOnce loc else put loc none
      | .remote _ loc => put loc none
      | .global e loc => do
        modify (fun s => s.useEntry e true)
        if t.settOn.isSome then atOnce loc else put loc (some e.page))

/-- LD.b (R152-R155). -/
def execLdB (d a : BitVec 5) (i : BitVec 10) (g : BitVec 5) (s : State) : Host.Outcome State Fault Refusal :=
  Act.go (Act.load 1 false d a i g) s
/-- LD.h. -/
def execLdH (d a : BitVec 5) (i : BitVec 10) (g : BitVec 5) (s : State) : Host.Outcome State Fault Refusal :=
  Act.go (Act.load 2 false d a i g) s
/-- LD.w. -/
def execLdW (d a : BitVec 5) (i : BitVec 10) (g : BitVec 5) (s : State) : Host.Outcome State Fault Refusal :=
  Act.go (Act.load 4 false d a i g) s
/-- LD.d. -/
def execLdD (d a : BitVec 5) (i : BitVec 10) (g : BitVec 5) (s : State) : Host.Outcome State Fault Refusal :=
  Act.go (Act.load 8 false d a i g) s
/-- ST.b. -/
def execStB (d a : BitVec 5) (i : BitVec 10) (g : BitVec 5) (s : State) : Host.Outcome State Fault Refusal :=
  Act.go (Act.store 1 false d a i g) s
/-- ST.h. -/
def execStH (d a : BitVec 5) (i : BitVec 10) (g : BitVec 5) (s : State) : Host.Outcome State Fault Refusal :=
  Act.go (Act.store 2 false d a i g) s
/-- ST.w. -/
def execStW (d a : BitVec 5) (i : BitVec 10) (g : BitVec 5) (s : State) : Host.Outcome State Fault Refusal :=
  Act.go (Act.store 4 false d a i g) s
/-- ST.d. -/
def execStD (d a : BitVec 5) (i : BitVec 10) (g : BitVec 5) (s : State) : Host.Outcome State Fault Refusal :=
  Act.go (Act.store 8 false d a i g) s
/-- LD.b.mig (R156). -/
def execLdBMig (d a : BitVec 5) (i : BitVec 10) (g : BitVec 5) (s : State) : Host.Outcome State Fault Refusal :=
  Act.go (Act.load 1 true d a i g) s
/-- LD.h.mig. -/
def execLdHMig (d a : BitVec 5) (i : BitVec 10) (g : BitVec 5) (s : State) : Host.Outcome State Fault Refusal :=
  Act.go (Act.load 2 true d a i g) s
/-- LD.w.mig. -/
def execLdWMig (d a : BitVec 5) (i : BitVec 10) (g : BitVec 5) (s : State) : Host.Outcome State Fault Refusal :=
  Act.go (Act.load 4 true d a i g) s
/-- LD.d.mig. -/
def execLdDMig (d a : BitVec 5) (i : BitVec 10) (g : BitVec 5) (s : State) : Host.Outcome State Fault Refusal :=
  Act.go (Act.load 8 true d a i g) s
/-- ST.b.mig. -/
def execStBMig (d a : BitVec 5) (i : BitVec 10) (g : BitVec 5) (s : State) : Host.Outcome State Fault Refusal :=
  Act.go (Act.store 1 true d a i g) s
/-- ST.h.mig. -/
def execStHMig (d a : BitVec 5) (i : BitVec 10) (g : BitVec 5) (s : State) : Host.Outcome State Fault Refusal :=
  Act.go (Act.store 2 true d a i g) s
/-- ST.w.mig. -/
def execStWMig (d a : BitVec 5) (i : BitVec 10) (g : BitVec 5) (s : State) : Host.Outcome State Fault Refusal :=
  Act.go (Act.store 4 true d a i g) s
/-- ST.d.mig. -/
def execStDMig (d a : BitVec 5) (i : BitVec 10) (g : BitVec 5) (s : State) : Host.Outcome State Fault Refusal :=
  Act.go (Act.store 8 true d a i g) s
/-- PREF: a hint that changes no visible state; it never faults, waits or ends a chunk, and takes no port word (R158). DEDUCED: log 24. -/
def execPref (a : BitVec 5) (_i : BitVec 10) (g : BitVec 5) (s : State) : Host.Outcome State Fault Refusal :=
  Act.go (Act.issue .coreOnly 4 (if isPort a then [] else [a]) g (pure ())) s

/-! ## Words at their home (R159, R160, R336) -/

/-- Sets a word's full bit, in memory or in the footprint. -/
def State.bitFor (s : State) (u loc : Nat) (f : Bool) : State :=
  match s.thread? u with
  | none => s.setFull (loc / 8) f
  | some t =>
    if t.attr.isSealed then s.modThread u (fun t => { t with footFull := Tab.insert t.footFull (loc / 8) f })
    else { s.setFull (loc / 8) f with co := s.co + 1, stamps := Tab.insert s.stamps (loc / 8) (s.co + 1) }

/-- Answers a served access, a single-operation event (R388): on the thread's own core at once, otherwise by a reply. -/
def State.answer (s : State) (a : Access) (reg : BitVec 5) (v : Word) : State :=
  match s.thread? a.uid with
  | none => s
  | some t =>
    let s := s.progress t.attr.ctx
    if localCore a.loc = some t.core && t.settOn.isNone then
      s.modThread a.uid (fun t => ((if reg.toNat < 28 then t.fillReg reg.toNat v else t)).finish)
    else (s.modThread a.uid (fun t => { t with wait := .reply })).push (.replyArrival a.uid reg v)

/-- Whether an access that changes its word must wait for the line (R328, R332, R184). -/
def State.writeHeld (s : State) (u loc : Nat) : Bool :=
  let isSealed := match s.thread? u with
    | some t => t.attr.isSealed
    | none => false
  s.owned (loc / 64) || s.holdsBack u isSealed [loc / 64]

/-- Serves one synchronising access if it can be served now (R159): a write to its word waits for a line that is held (R328, R332). -/
def State.serveWord (s : State) (a : Access) : Option State :=
  match s.thread? a.uid with
  | none => some s
  | some t =>
    let full := s.seeFull t (a.loc / 8)
    let spill := t.attr.isSealed && t.footOver (entriesAt (t.spell a.va) a.loc 0 8)
    let v := BitVec.ofNat 64 (s.see t (t.spell a.va) a.loc 8)
    if s.owned (a.loc / 64) || (decide (a.kind ≠ .ldf) && s.writeHeld a.uid a.loc) then none else
    match a.kind with
    | .lde => if full then some ((s.bitFor a.uid a.loc false).answer a a.reg v) else none
    | .ldf => if full then some (s.answer a a.reg v) else none
    | .stf =>
      if spill then some (s.faultThread a.uid 31 0x0B (BitVec.ofNat 64 a.va))
      else some (((s.writeFor a.uid (t.spell a.va) a.loc 8 a.data.toNat).bitFor a.uid a.loc true).answer a 31#5 0#64)
    | .sts =>
      let ps := keptPorts a
      if full || (s.lacksWords t a.core (ps.count 28) (ps.count 29)).isSome then none
      else if spill then some ((s.faultThread a.uid 31 0x0B (BitVec.ofNat 64 a.va)).wakePorts a.core)
      else
        let d := if isPort a.reg then
            ((s.wordsFor t a.core a.reg.toNat).getD (if a.expd.toNat = a.reg.toNat then 1 else 0) (0#64, false)).1
          else a.data
        let s := ps.foldl (fun s p => (s.popPort a.uid a.core t.slot p).2) s
        some (((s.writeFor a.uid (t.spell a.va) a.loc 8 d.toNat).bitFor a.uid a.loc true).answer a 31#5 0#64)
    | .clre => some ((s.bitFor a.uid a.loc false).answer a 31#5 0#64)
    | _ => some s

/-- The first waiter of a word that can be served, and the state after it (R160). -/
def State.serveFirst (s : State) (word : Nat) : Option State :=
  s.waiters.findSome? (fun a =>
    if a.loc / 8 = word then ({ s with waiters := s.waiters.erase a } : State).serveWord a else none)

/-- Serves waiters of a word in order of arrival until none can be served (R160). -/
def State.serveWaiters (s : State) (word : Nat) : Nat → State
  | 0 => s
  | n + 1 =>
    match s.serveFirst word with
    | none => s
    | some s => State.serveWaiters s word n

/-- A word's bit or value has changed: its waiters are looked at. -/
def State.wordChanged (s : State) (loc : Nat) : State := s.serveWaiters (loc / 8) (2 * s.waiters.length + 2)

/-- Accesses that wait at words look again: a line that held their writes may be free (R328, R332). -/
def State.serveAll (s : State) : State := s.waiters.foldl (fun s a => s.wordChanged a.loc) s
/-- Waiting STS of a core look at their ports again (R357). -/
def State.servePorts (s : State) (c : Nat) : State :=
  (s.waiters.filter (fun a => decide (a.core = c) && !(keptPorts a).isEmpty)).foldl (fun s a => s.wordChanged a.loc) s

/-- A synchronising access at the word's home (R160): served, or put behind those that wait. -/
def State.atHome (s : State) (a : Access) : State :=
  match s.serveWord a with
  | some s => s.wordChanged a.loc
  | none => { s with waiters := s.waiters ++ [a] }

/-- A synchronising form (R159). An STS pops its ports, its address's too, only when its write takes place (R151, R179). -/
def Act.sync (kind : AccessKind) (d a : BitVec 5) (i : BitVec 10) (g : BitVec 5) : Act Unit :=
  let data := decide (kind = .stf) || decide (kind = .sts)
  let fills := decide (kind = .lde) || decide (kind = .ldf)
  Act.issue .ending 4 (if kind = .clre then [a] else [d, a]) g (do
    Act.ready (if data then [a, d] else [a]) []
    let x ← Act.read [] a
    let va ← Act.address x (i.toInt * 8) 8 (fun c => decide (c = 0))
    let t ← Act.me
    let s ← get
    let v ← if data then Act.read [a] d else pure 0#64
    let go (loc : Nat) (own : Bool) : Act Unit := do
      if own && decide (kind ≠ .ldf) then Act.needLine loc else Act.recall loc
      if fills then Act.clean va loc else pure ()
      Act.pop (if kind = .sts then [] else if data then [a, d] else [a])
      let acc : Access := { kind := kind, uid := s.cur, reg := if kind = .clre then 31#5 else d, ctx := t.attr.ctx
                            core := t.core, va := va, loc := loc, size := 8, fmt := 0, data := v
                            expd := if kind = .sts then a.setWidth 64 else 0#64, pc := t.pc }
      if fills then Act.modMe (fun t => t.putReg d.toNat { t.reg d.toNat with pend := true }) else pure ()
      Act.modMe (fun t => { t with wait := .word, stamp := t.stamp + 1 })
      if own then modify (fun s => s.atHome acc) else modify (fun s => s.push (.fullEmptyHomeAccess acc))
      Act.parked
    match s.spot t va (if fills then .rd else .wr) false with
    | .bad c => Act.fault c (BitVec.ofNat 64 va)
    | .absent => Act.hold va
    | .near loc => go loc true
    | .remote _ loc => go loc false
    | .global e loc => do
      modify (fun s => s.useEntry e (!fills))
      go loc false)

/-- LDE. -/
def execLde (d a : BitVec 5) (i : BitVec 10) (g : BitVec 5) (s : State) : Host.Outcome State Fault Refusal :=
  Act.go (Act.sync .lde d a i g) s
/-- LDF. -/
def execLdf (d a : BitVec 5) (i : BitVec 10) (g : BitVec 5) (s : State) : Host.Outcome State Fault Refusal :=
  Act.go (Act.sync .ldf d a i g) s
/-- STF. -/
def execStf (d a : BitVec 5) (i : BitVec 10) (g : BitVec 5) (s : State) : Host.Outcome State Fault Refusal :=
  Act.go (Act.sync .stf d a i g) s
/-- STS. -/
def execSts (d a : BitVec 5) (i : BitVec 10) (g : BitVec 5) (s : State) : Host.Outcome State Fault Refusal :=
  Act.go (Act.sync .sts d a i g) s
/-- CLRE. DEDUCED: log 16. -/
def execClre (a : BitVec 5) (i : BitVec 10) (g : BitVec 5) (s : State) : Host.Outcome State Fault Refusal :=
  Act.go (Act.sync .clre 0#5 a i g) s

/-! ## Armed registers and remote fills (R161, R162) -/

/-- ARM: inside the chunk; the value is discarded. -/
def execArm (d : BitVec 5) (g : BitVec 5) (s : State) : Host.Outcome State Fault Refusal :=
  Act.go (Act.issue .coreOnly 4 [d] g (do
    Act.modMe (fun t => t.putReg d.toNat { t.reg d.toNat with val := 0#64, full := false, armed := true }))) s

/-- Sends a request whose reply fills D, and leaves the rotation. -/
def Act.awaitReply (d : BitVec 5) (e : Event) : Act Unit := do
  modify (fun s => s.push e)
  Act.modMe (fun t => t.putReg d.toNat { t.reg d.toNat with pend := true })
  Act.park .reply

/-- RFILL. -/
def execRfill (d a : BitVec 5) (b : Src) (g : BitVec 5) (s : State) : Host.Outcome State Fault Refusal :=
  Act.go (Act.issue .ending b.len (d :: a :: b.fields) g (do
    Act.ready (a :: b.fields) []
    let x ← Act.read [] a
    let y ← Act.readSrc [a] b
    Act.pop (a :: b.fields)
    let s ← get
    Act.awaitReply d (.rfillDelivery s.cur d x y))) s

/-! ## Atomics (R163, R164) -/

/-- The new word of an atomic. -/
def AtomOp.result (op : AtomOp) (old b d : Word) : Word :=
  match op with
  | .add => old + b
  | .minS => if b.slt old then b else old
  | .minN => if b.ult old then b else old
  | .maxS => if old.slt b then b else old
  | .maxN => if old.ult b then b else old
  | .and => old &&& b
  | .or => old ||| b
  | .xor => old ^^^ b
  | .swp => b
  | .cas => if old = d then b else old
  | .fadd => BitVec.ofNat 64 (round F32 false false ((value F32 (old.toNat % 2 ^ 32)).add (value F32 (b.toNat % 2 ^ 32)))).1

/-- An atomic: one event at the word's home, D receives the old value. -/
def Act.atomic (op : AtomOp) (d a : BitVec 5) (b : Src) (g : BitVec 5) : Act Unit :=
  let size := if op = .fadd then 4 else 8
  let ext : List (BitVec 5) := if op = .cas then [d] else []
  Act.issue .ending b.len (d :: a :: b.fields) g (do
    Act.ready (a :: b.fields ++ ext) []
    let x ← Act.read [] a
    let y ← Act.readSrc [a] b
    let z ← if op = .cas then Act.read [] d else pure 0#64
    let va ← Act.address x 0 size (fun c => decide (c = 0) || (decide (op = .fadd) && decide (c = 1)))
    let t ← Act.me
    let s ← get
    let go (loc : Nat) : Act Unit := do
      Act.recall loc
      Act.clean va loc
      Act.pop (a :: b.fields)
      Act.awaitReply d (.atomicApply { kind := .atomic op, uid := s.cur, reg := d, ctx := t.attr.ctx, core := t.core, va := va
                                       loc := loc, size := size, fmt := 0, data := y, expd := z, pc := t.pc })
    match s.spot t va .wr false with
    | .bad c => Act.fault c (BitVec.ofNat 64 va)
    | .absent => Act.hold va
    | .near loc => go loc
    | .remote _ loc => go loc
    | .global e loc => do
      modify (fun s => s.useEntry e true)
      go loc)

/-- AADD. -/
def execAadd (d a : BitVec 5) (b : Src) (g : BitVec 5) (s : State) : Host.Outcome State Fault Refusal :=
  Act.go (Act.atomic .add d a b g) s
/-- AMIN.s. -/
def execAminS (d a : BitVec 5) (b : Src) (g : BitVec 5) (s : State) : Host.Outcome State Fault Refusal :=
  Act.go (Act.atomic .minS d a b g) s
/-- AMIN.n. -/
def execAminN (d a : BitVec 5) (b : Src) (g : BitVec 5) (s : State) : Host.Outcome State Fault Refusal :=
  Act.go (Act.atomic .minN d a b g) s
/-- AMAX.s. -/
def execAmaxS (d a : BitVec 5) (b : Src) (g : BitVec 5) (s : State) : Host.Outcome State Fault Refusal :=
  Act.go (Act.atomic .maxS d a b g) s
/-- AMAX.n. -/
def execAmaxN (d a : BitVec 5) (b : Src) (g : BitVec 5) (s : State) : Host.Outcome State Fault Refusal :=
  Act.go (Act.atomic .maxN d a b g) s
/-- AAND. -/
def execAand (d a : BitVec 5) (b : Src) (g : BitVec 5) (s : State) : Host.Outcome State Fault Refusal :=
  Act.go (Act.atomic .and d a b g) s
/-- AOR. -/
def execAor (d a : BitVec 5) (b : Src) (g : BitVec 5) (s : State) : Host.Outcome State Fault Refusal :=
  Act.go (Act.atomic .or d a b g) s
/-- AXOR. -/
def execAxor (d a : BitVec 5) (b : Src) (g : BitVec 5) (s : State) : Host.Outcome State Fault Refusal :=
  Act.go (Act.atomic .xor d a b g) s
/-- ASWP. -/
def execAswp (d a : BitVec 5) (b : Src) (g : BitVec 5) (s : State) : Host.Outcome State Fault Refusal :=
  Act.go (Act.atomic .swp d a b g) s
/-- ACAS. -/
def execAcas (d a : BitVec 5) (b : Src) (g : BitVec 5) (s : State) : Host.Outcome State Fault Refusal :=
  Act.go (Act.atomic .cas d a b g) s
/-- AFADD. -/
def execAfadd (d a : BitVec 5) (b : Src) (g : BitVec 5) (s : State) : Host.Outcome State Fault Refusal :=
  Act.go (Act.atomic .fadd d a b g) s

/-! ## Posted stores (R165, R166) -/

/-- A word is written, and for the fill form set full, as one event, and its waiters are served. -/
def State.postWrite (s : State) (u va loc : Nat) (v : Word) (fill : Bool) : State :=
  let s := s.writeFor u va loc 8 v.toNat
  if fill then (s.bitFor u loc true).wordChanged loc else s

/-- The lowest free journal entry of a core. -/
def Core.freeEntry (q : Core) : Option Nat := (List.range 32).find? (fun k => (Tab.find? q.journal k).isNone)

/-- The words of a core that a journal entry of a thread has still to reach (R165, R326). -/
def State.postsTo (s : State) (u c : Nat) : Bool :=
  s.cores.any (fun q => q.2.journal.any (fun e => decide (e.2.uid = u) && !e.2.spent && decide (windowOf e.2.acc.va = 14) &&
    decide (e.2.acc.va / 2 ^ 16 % 2 ^ 14 = c)))
/-- The place in the order of issue of a new journal entry: after every other one's. -/
def State.postOrder (s : State) : Nat :=
  s.cores.foldl (fun m q => q.2.journal.foldl (fun m e => max m (e.2.order + 1)) m) 0

/-- A posted store: to an own-local word at once, after the thread's earlier ones to its core; a sealed thread's to the footprint; any
other takes a journal entry. -/
def Act.post (fill : Bool) (a : BitVec 5) (b : Src) (g : BitVec 5) : Act Unit :=
  Act.issue .ending b.len (a :: b.fields) g (do
    Act.ready (a :: b.fields) []
    let x ← Act.read [] a
    let y ← Act.readSrc [a] b
    let va ← Act.address x 0 8 (fun c => decide (c = 0))
    let t ← Act.me
    let s ← get
    let direct (loc : Nat) : Act Unit := do
      Act.needLine loc
      if t.attr.isSealed && t.footOver (entriesAt (t.spell va) loc y.toNat 8) then Act.fault 0x0B (BitVec.ofNat 64 va)
      else if !t.attr.isSealed && s.postsTo s.cur t.core then Act.park .journal
      else do
        Act.pop (a :: b.fields)
        modify (fun s => s.postWrite s.cur (t.spell va) loc y fill)
    let posted : Act Unit := do
      match (s.core t.core).freeEntry with
      | none => Act.park .journal
      | some k => do
        Act.pop (a :: b.fields)
        let acc : Access := { kind := if fill then .pstf else .pst, uid := s.cur, reg := 0#5, ctx := t.attr.ctx, core := t.core
                              va := va, loc := 0, size := 8, fmt := 0, data := y, expd := 0#64, pc := t.pc }
        modify (fun s => s.modCore t.core (fun q =>
          { q with journal := Tab.insert q.journal k ⟨s.cur, acc, s.postOrder, false, t.attr.seq, t.attr.tid.toNat⟩ }))
        modify (fun s => s.push (.postedStoreApply t.core k))
    match s.spot t va .wr false with
    | .near loc => direct loc
    | .bad c => if t.attr.isSealed then Act.fault c (BitVec.ofNat 64 va) else posted
    | .absent => if t.attr.isSealed then Act.hold va else posted
    | .remote _ loc => if t.attr.isSealed then direct loc else posted
    | .global e loc =>
      if t.attr.isSealed then do
        modify (fun s => s.useEntry e true)
        direct loc
      else posted)

/-- PST. -/
def execPst (a : BitVec 5) (b : Src) (g : BitVec 5) (s : State) : Host.Outcome State Fault Refusal :=
  Act.go (Act.post false a b g) s
/-- PST.F. -/
def execPstF (a : BitVec 5) (b : Src) (g : BitVec 5) (s : State) : Host.Outcome State Fault Refusal :=
  Act.go (Act.post true a b g) s

/-! ## Waiting on an address (R167) -/

/-- WAITA: `timed` is the register of the limit and the result; a limit out of range is told before the address is checked.
DESIGN CHOICE: log 132. -/
def Act.waita (cond : Nat) (timed : Option (BitVec 5)) (a : BitVec 5) (b : Src) (g : BitVec 5) : Act Unit :=
  Act.issue .ending b.len (timed.toList ++ (a :: b.fields)) g (do
    Act.ready (a :: b.fields ++ timed.toList) []
    let x ← Act.read [] a
    let y ← Act.readSrc [a] b
    let lim ← match timed with
      | some d => Act.read [] d
      | none => pure 1#64
    if timed.isSome && (decide (lim = 0#64) || decide (2 ^ 32 ≤ lim.toNat)) then Act.illegal
    else do
      let va ← Act.address x 0 8 (fun c => decide (c = 0))
      let t ← Act.me
      let s ← get
      let go (loc : Nat) : Act Unit := do
        Act.recall loc
        Act.clean va loc
        let s ← get
        Act.pop (a :: b.fields)
        if waitCond cond (BitVec.ofNat 64 (s.see t (t.spell va) loc 8)) y then
          match timed with
          | some d => Act.write d 1#64
          | none => pure ()
        else do
          match timed with
          | some _ => modify (fun s => s.after lim.toNat (.waitaTimeout s.cur (t.stamp + 1)))
          | none => pure ()
          Act.park (.addr loc va cond y (timed.map (·.toNat)))
      match s.spot t va .rd false with
      | .bad c => Act.fault c (BitVec.ofNat 64 va)
      | .absent => Act.hold va
      | .near loc => go loc
      | .remote _ loc => go loc
      | .global e loc => do
        modify (fun s => s.useEntry e false)
        go loc)

/-- WAITA.eq. -/
def execWaitaEq (a : BitVec 5) (b : Src) (g : BitVec 5) (s : State) : Host.Outcome State Fault Refusal :=
  Act.go (Act.waita 0 none a b g) s
/-- WAITA.ne. -/
def execWaitaNe (a : BitVec 5) (b : Src) (g : BitVec 5) (s : State) : Host.Outcome State Fault Refusal :=
  Act.go (Act.waita 1 none a b g) s
/-- WAITA.hs. -/
def execWaitaHs (a : BitVec 5) (b : Src) (g : BitVec 5) (s : State) : Host.Outcome State Fault Refusal :=
  Act.go (Act.waita 2 none a b g) s
/-- WAITA.eq.t. -/
def execWaitaEqT (d a : BitVec 5) (b : Src) (g : BitVec 5) (s : State) : Host.Outcome State Fault Refusal :=
  Act.go (Act.waita 0 (some d) a b g) s
/-- WAITA.ne.t. -/
def execWaitaNeT (d a : BitVec 5) (b : Src) (g : BitVec 5) (s : State) : Host.Outcome State Fault Refusal :=
  Act.go (Act.waita 1 (some d) a b g) s
/-- WAITA.hs.t. -/
def execWaitaHsT (d a : BitVec 5) (b : Src) (g : BitVec 5) (s : State) : Host.Outcome State Fault Refusal :=
  Act.go (Act.waita 2 (some d) a b g) s

/-! ## Fences and chunk ends (R168, R169) -/

/-- A FENCE: 0 core, 1 dev, 2 sys. A sealed thread's completes at once (R336). -/
def Act.fence (scope : Nat) (g : BitVec 5) : Act Unit :=
  Act.issue .ending 4 [] g (do
    let t ← Act.me
    if t.attr.isSealed then pure ()
    else do
      modify (fun s => s.push (.fenceCompletion s.cur scope))
      Act.park .fence)

/-- FENCE.core. -/
def execFenceCore (g : BitVec 5) (s : State) : Host.Outcome State Fault Refusal := Act.go (Act.fence 0 g) s
/-- FENCE.dev. -/
def execFenceDev (g : BitVec 5) (s : State) : Host.Outcome State Fault Refusal := Act.go (Act.fence 1 g) s
/-- FENCE.sys. -/
def execFenceSys (g : BitVec 5) (s : State) : Host.Outcome State Fault Refusal := Act.go (Act.fence 2 g) s
/-- XFENCE: its range is checked, and a sealed thread's is held (R169, R336). DEDUCED: log 14. -/
def execXfence (a : BitVec 5) (b : Src) (g : BitVec 5) (s : State) : Host.Outcome State Fault Refusal :=
  Act.go (Act.issue .ending b.len (a :: b.fields) g (do
    Act.ready (a :: b.fields) []
    let x ← Act.read [] a
    let y ← Act.readSrc [a] b
    let t ← Act.me
    let base := x.toNat % 2 ^ 48
    if y = 0#64 then Act.pop (a :: b.fields)
    else if globalRange base y.toNat then do
      Act.pop (a :: b.fields)
      let s ← get
      if t.attr.isSealed then
        Act.modMe (fun t => { t with held := t.held ++ [⟨.step (.xfenceCompletion s.cur t.attr.ctx base y.toNat 0), t.pc, x⟩] })
      else do
        modify (fun s => s.push (Event.xfenceCompletion s.cur t.attr.ctx base y.toNat (t.stamp + 1)))
        Act.park .xfence
    else Act.fault 0x06 (BitVec.ofNat 64 base))) s
/-- CHEND: it ends the chunk, with no wait for the commit (R168), and also when its guard is false (R104): the chunk goes to the
arbiters. -/
def execChend (_g : BitVec 5) (s : State) : Host.Outcome State Fault Refusal :=
  Act.go (do
    Act.begin .coreOnly 4 [] (fun _ => true)
    let t ← Act.me
    if t.chunk.idle then Act.leave 4
    else if t.prev.isSome then Act.park .commit
    else do
      Act.modMe (fun t => { t with pc := (t.pc + 4) % 2 ^ 48 })
      Act.passChunk) s

end Sys2Proof.Machine
end

