-- ==== Sys2Proof/Machine/Place.lean ====
section
/-!
DEFINITION. Slots, stockpiles and the dispatcher: what fits where (R16, R349), the tag of a core (R308), entering a slot and the
stockpile (R353, R396), the launch's window words (R310), the dispatcher's choice (R348-R351).
-/
namespace Sys2Proof.Machine

/-! ## A core's slots -/

/-- The threads in a core's slots. -/
def State.inSlots (s : State) (c : Nat) : List (Nat × Thread) :=
  s.threads.filter (fun e => match e.2.place with
    | .slot d _ => decide (d = c)
    | _ => false)
/-- Whether every slot of a core is vacant. -/
def State.vacant (s : State) (c : Nat) : Bool := (s.inSlots c).isEmpty
/-- The registers of the file that no thread of a general slot and not the handler slot holds (R16). -/
def State.freeRegs (s : State) (c : Nat) : Nat :=
  (s.core c).cap - 8 - ((s.inSlots c).filter (fun e => !e.2.handler)).foldl (fun n e => n + e.2.attr.count) 0
/-- The lowest free general slot. -/
def State.freeSlot (s : State) (c : Nat) : Option Nat :=
  (List.range Config.generalSlots).find? (fun k => (s.inSlot c k).isNone)
/-- The free general slots. -/
def State.freeSlots (s : State) (c : Nat) : Nat :=
  ((List.range Config.generalSlots).filter (fun k => (s.inSlot c k).isNone)).length
/-- Whether a thread is in the rotation (R28, R32). -/
def Thread.inRotation (t : Thread) : Bool := decide (t.wait = .running) && !t.halted
/-- The ready slots of a core. -/
def State.readySlots (s : State) (c : Nat) : Nat := ((s.inSlots c).filter (fun e => e.2.inRotation)).length
/-- The stockpile entries that name a core, in order of entry. -/
def State.stockOf (s : State) (c : Nat) : List (Nat × Thread) :=
  s.threads.filter (fun e => decide (e.2.place = .stock c))
/-! ## The tag of a core (R308, R299) -/

/-- Key of a context's saved image for a core. -/
def savedKey (ctx c : Nat) : Nat := ctx * 2 ^ 14 + c
/-- Saves a core's local memory and engine state for its context. DEDUCED: log 60. -/
def State.saveImage (s : State) (c : Nat) : State :=
  match (s.core c).tag with
  | none => s
  | some x =>
    let b := localLoc c 0
    let bytes := (s.mem.filter (fun e => decide (localCore e.1 = some c))).map (fun e => (e.1 - b, e.2))
    let empty := (s.empty.filter (fun e => decide (localCore (8 * e.1) = some c))).map (fun e => (e.1 - b / 8, e.2))
    let poison := (s.poison.filter (fun e => decide (localCore (64 * e.1) = some c))).map (fun e => (e.1 - b / 64, e.2))
    { s with saved := Tab.insert s.saved (savedKey x c) ⟨bytes, empty, poison, (s.core c).eng⟩ }
/-- Loads a context's image for a core, or zero and full memory and reset engine state, and tags the core: the watches that the core
registered for another context are gone (R381), and a context restore is progress (R388). -/
def State.loadImage (s : State) (c ctx : Nat) : State :=
  let b := localLoc c 0
  let img := (Tab.find? s.saved (savedKey ctx c)).getD ⟨[], [], [], EngState.reset c⟩
  let s : State := { s with
    mem := img.bytes.foldl (fun m e => Store.put m (b + e.1) e.2) (s.mem.filter (fun e => !decide (localCore e.1 = some c)))
    empty := img.empty.foldl (fun m e => Store.put m (b / 8 + e.1) e.2)
      (s.empty.filter (fun e => !decide (localCore (8 * e.1) = some c)))
    poison := img.poison.foldl (fun m e => Store.put m (b / 64 + e.1) e.2)
      (s.poison.filter (fun e => !decide (localCore (64 * e.1) = some c)))
    watches := s.watches.filter (fun w : Watch => !(decide (w.core = c) && decide (w.ctx ≠ ctx))) }
  let s := if (Tab.find? s.saved (savedKey ctx c)).isSome && !s.dogHeld ctx then s.restartDog ctx else s
  let s := if img.eng.me.tileOut.isSome then s.push (.tileDelivery c) else s
  (s.modCore c (fun q => { q with tag := some ctx, etag := some ctx, eng := img.eng, claim := none, pmode := 0 })).checkClaim c
/-- Whether nothing of the engines is under way: no admitted command, and no decode table being built (R299). -/
def Core.quiet (q : Core) : Bool := q.vq.isEmpty && q.mq.isEmpty && q.cq.isEmpty && q.eng.building.isEmpty
/-- The exchange of a quiet, vacated core for another context (R308): messages and light handlers of the old one are gone (R358). -/
def State.exchange (s : State) (c ctx : Nat) : State :=
  ((s.saveImage c).loadImage c ctx).modCore c (fun q => { q with msgs := [], lights := [] })
/-- A core without a tag takes the placed thread's context. DEDUCED: log 60. -/
def State.tagFor (s : State) (c ctx : Nat) : State :=
  if (s.core c).tag.isNone then s.loadImage c ctx else s

/-! ## Threads in and out of slots -/

/-- A thread with the values of creation (R35, R36, R295). -/
def Thread.fresh (place : Place) (attr : Attr) (pc : Nat) (tvec : Word) (co : Nat) : Thread :=
  let sh : Shadow := ⟨[], 0#16, 0#64, 0#64, 0#64, 0#64, tvec⟩
  { place := place, attr := attr, regs := [], preds := 0#16, pc := pc, fflags := 0#64, cause := 0#64, fval := 0#64
    fpc := 0#64, tvec := tvec, chunk := ⟨pc, co, 0, [], [], [], false, sh, 0, false, 0⟩, prev := none
    foot := [], footFull := [], held := [], allocs := [], copied := 0, async := [], wait := .running, stamp := 0, ilen := 0
    released := [], haltReq := false, halted := false, preempt := false, home := none, program := false
    handler := false, enter := 0, index := none, swapReg := none, aged := 0, lastSlot := none, toPlace := false, packet := none
    back := false, drain := none, portWait := none, stash := [], ceded := false }

/-- The words of the constant window that a placement writes (R310). DEDUCED: log 101. -/
def State.windowWords (s : State) (l : Launch) (c : Nat) : List (Nat × Nat) :=
  let id := [c, xOf c + 2 ^ 8 * yOf c + 2 ^ 16 * faceOf c + 2 ^ 24 * clusterOf c, s.device.devid.toNat, l.attr.ctx, l.threads,
    l.attr.header, l.group, l.attr.seq, l.image.length, (s.core c).cap, s.cycle * 2 / 3]
  (l.image.zipIdx.map (fun e => (e.2, e.1.toNat))) ++
    (List.range 64).map (fun i => (192 + i, id.getD i 0))
/-- Writes the window words full, as one event (R310); accesses that wait for one of them are served (R160). -/
def State.writeWindow (s : State) (l : Launch) (c : Nat) : State :=
  let ws := s.windowWords l c
  let s := s.commitBytes (ws.flatMap (fun w => bytesAt (localLoc c (8 * w.1)) w.2 8))
  let s := ws.foldl (fun s w => s.setFull (localLoc c (8 * w.1) / 8) true) s
  ws.foldl (fun s w => s.wordChanged (localLoc c (8 * w.1))) s

/-- Whether a line that the window words of a placement write is held against writes (R328, R332). -/
def State.windowBusy (s : State) (words c : Nat) : Bool :=
  (linesOf ((List.range words ++ (List.range 64).map (192 + ·)).map (fun k => localLoc c (8 * k)))).any s.busyLine

/-- The window words of a SPAWN child placed on another core than its parent's, written as it takes a slot (R310). -/
def State.windowFor (s : State) (t : Thread) (c : Nat) : State :=
  match s.launchOf t.attr with
  | some (_, l) => s.writeWindow l c
  | none => s

/-- Whether a thread may take a slot of a core: a placement of a launch with broadcast words waits while a thread of another such launch
lives there, or a line of its window words is held (R310, R328); and one that gave its place up waits for the launch that claims the core
now (R349). DEDUCED: log 104, 110. -/
def State.mayEnter (s : State) (t : Thread) (c : Nat) : Bool :=
  match s.launchOf t.attr with
  | none => true
  | some (k, l) =>
    let others := (s.claimants c t.attr.ctx).filter (fun e => decide (e.1 ≠ k))
    (!t.toPlace || ((l.image.isEmpty || !others.any (fun e => !e.2.image.isEmpty)) && !s.windowBusy l.image.length c)) &&
    (!t.ceded || !l.claims || others.isEmpty)

/-- A slot that has been filled is ready from the next cycle on (R359), and no sooner than its rotation distance allows (R28). -/
def Core.delayTurn (q : Core) (k cycle : Nat) : Core :=
  { q with turnAt := Tab.insert q.turnAt k (max (Tab.get 0 q.turnAt k) (cycle + 1)) }

/-- A thread enters a slot: a core without a tag takes its context; a CTXSWAP that returns receives its index (R293), a
free value when its entry had spilled. DEDUCED: log 104. -/
def State.enterSlot (s : State) (u c k : Nat) : State :=
  match s.thread? u with
  | none => s
  | some t =>
    let s := s.tagFor c t.attr.ctx
    let (back, s) : Word × State := match t.swapReg, t.index with
      | some _, none => s.freeWord
      | _, some i => (BitVec.ofNat 64 i, s)
      | none, none => (0#64, s)
    let s := s.modThread u (fun t =>
      let t := match t.swapReg with
        | some r => t.setReg r back
        | none => t
      { t with place := .slot c k, enter := s.nextUid, index := none, swapReg := none, aged := 0, home := some c, toPlace := false
               ceded := false, portWait := none })
    let s := { s with nextUid := s.nextUid + 1 }
    let s := (if t.toPlace then s.windowFor t c else s).checkClaim c
    let s := s.modCore c (fun q => q.delayTurn k s.cycle)
    s.reindex c

/-- A thread enters the stockpile for a core (R353, R396). The entry of lowest priority, and of these the least recent, spills
when the SRAM is full. -/
def State.enterStock (s : State) (u c : Nat) : State :=
  match s.thread? u with
  | none => s
  | some t =>
    let old := t.place
    let s := match old with
      | .slot d _ => s.count d 10 1
      | _ => s
    let from' : Option (Nat × Nat) := match old with
      | .slot d k => some (d, k)
      | _ => none
    let s := s.modThread u (fun t => { t with
      place := .stock c, enter := s.nextUid, preempt := false, index := none, aged := 0, lastSlot := from' })
    let s := { s with nextUid := s.nextUid + 1 }
    let s := match s.freeIndex c with
      | some k => s.modThread u (fun t => { t with index := some k })
      | none =>
        let l := (s.clusterStock c).filter (fun e : Nat × Thread => e.2.index.isSome)
        match l with
        | [] => s
        | e :: es =>
          let worse (x y : Nat × Thread) : Bool := decide (x.2.attr.prio < y.2.attr.prio) ||
            (decide (x.2.attr.prio = y.2.attr.prio) && decide (x.2.enter < y.2.enter))
          let o := es.foldl (fun m x => if worse x m then x else m) e
          if t.attr.prio < o.2.attr.prio then s
          else
            let s := s.modThread u (fun t => { t with index := o.2.index })
            s.modThread o.1 (fun t => { t with index := none })
    let s := match old with
      | .slot d k => if k = Config.handlerSlot then s.pokeHandler d else (s.checkClaim d).push (.slotFill d)
      | _ => s
    s.push (.slotFill c)

/-! ## Ending waits (R179, R285) -/

/-- Whether a pending step serves a wait that can be given up. -/
def isWaitOf (u : Nat) : Event → Bool
  | .fullEmptyHomeAccess a => decide (a.uid = u)
  | _ => false

/-- The register that a thread's LDE or LDF is to fill. -/
def State.waitReg (s : State) (u : Nat) : Option Nat :=
  let mine (a : Access) : Option Nat :=
    if decide (a.uid = u) && (decide (a.kind = .lde) || decide (a.kind = .ldf)) then some a.reg.toNat else none
  match s.waiters.findSome? mine with
  | some r => some r
  | none => s.pending.findSome? (fun e => match e with
    | .fullEmptyHomeAccess a => mine a
    | _ => none)

/-- Takes a thread out of every list it waits in; its wait is given up with the pc at the instruction. A register that an engine's result
will still fill goes on waiting for it (R285). -/
def State.giveUp (s : State) (u : Nat) : State :=
  let gone (e : Event) : Bool := match e with
    | .barrierRelease v _ => decide (v = u)
    | _ => false
  let out := s.pending.any gone || s.timers.any (fun t => gone t.2)
  let reg := s.waitReg u
  let kept := if s.keepsPorts u then (s.thread? u).map Thread.core else none
  let s : State := { s with
    waiters := s.waiters.filter (fun a => decide (a.uid ≠ u))
    faultq := s.faultq.map (fun f => { f with waiters := f.waiters.filter (fun w => decide (w ≠ .thread u)) })
    syncs := s.syncs.filter (fun y => decide (y.1 ≠ u))
    pending := s.pending.filter (fun e => !isWaitOf u e && !gone e)
    timers := s.timers.filter (fun t => !gone t.2) }
  let s := s.leaveQueues u
  let s := s.modThread u (fun t =>
    let t := match t.wait, reg with
      | .word, some r => t.putReg r { t.reg r with pend := false }
      | _, _ => t
    let freed : List (Nat × Nat) := match t.wait with
      | .gbar n => if out then [(n, 0)] else []
      | _ => []
    { t.wake with released := t.released ++ freed, drain := none })
  match kept with
  | some c => s.wakePorts c
  | none => s

/-- Whether a thread waits for the reply of an STF or CLRE that is under way: not one of the waits that are given up (R179, R285). -/
def State.replyOnly (s : State) (u : Nat) : Bool :=
  let its (a : Access) : Bool := decide (a.uid = u) && (decide (a.kind = .stf) || decide (a.kind = .clre))
  s.waiters.any its || s.pending.any (fun e => match e with
    | .fullEmptyHomeAccess a => its a
    | _ => false)

/-- Whether a wait ends only with what it waits for (R179, R398). -/
def Wait.forReply : Wait → Bool
  | .reply => true
  | .handle => true
  | .matrix => true
  | .fence => true
  | .xfence => true
  | .nmload => true
  | .depart => true
  | .overlay => true
  | _ => false

/-- Ends the open chunk of a thread that is taken (R396): true when the thread may be saved. A solo attempt starts again. -/
def State.closeChunk (s : State) (u : Nat) : Bool × State :=
  match s.thread? u with
  | none => (false, s)
  | some t =>
    if t.alone then (true, s.restartSolo u)
    else
      match s.commitAll u with
      | (.blocked, s) => (false, s)
      | (_, s) => (true, s)

/-! ## The dispatcher -/

/-- Whether a core lies in PLACE (R342). -/
def Launch.inPlace (l : Launch) (c : Nat) : Bool :=
  let p := l.place.toNat
  let first := p % 2 ^ 14
  let last := p / 2 ^ 16 % 2 ^ 14
  if p / 2 ^ 62 = 0 then true
  else if p / 2 ^ 62 = 1 then decide (first ≤ c) && decide (c ≤ last)
  else decide (first ≤ clusterId c) && decide (clusterId c ≤ last)
/-- Whether a core lies in a context's allowance (R342, R411). -/
def State.allowed (s : State) (ctx c : Nat) : Bool :=
  match s.page? ctx with
  | some (_, p) => p.allow.getLsbD (clusterId c)
  | none => false
/-- Whether a record has a thread to place. -/
def Launch.unplaced (l : Launch) : Bool := decide (l.next < l.threads) || !l.requeue.isEmpty
/-- Whether a record is eligible (R347); a context whose dispatch is stopped places nothing (R411). -/
def State.eligible (s : State) (l : Launch) : Bool :=
  (match s.page? l.attr.ctx with
    | some (_, p) => decide (p.state = 1) && !p.stopped && !s.freezing
    | none => false) &&
  (decide (l.gate = 0) || (match s.lookup l.attr.ctx l.gate with
    | some e => s.full (s.placeIn e l.gate / 8)
    | none => false))

/-- Whether a thread of a record could run on a core once it is vacated (R351): its placement, its allowance, its registers. -/
def State.suits (s : State) (l : Launch) (c : Nat) : Bool :=
  l.inPlace c && s.allowed l.attr.ctx c && !s.coreFenced c && decide (l.attr.count ≤ (s.core c).cap - 8)
/-- Whether a thread of a record fits a core as it stands (R349). DEDUCED: log 104. -/
def State.hasRoom (s : State) (key : Nat) (l : Launch) (c : Nat) : Bool :=
  s.suits l c && (s.freeSlot c).isSome && decide (l.attr.count ≤ s.freeRegs c) &&
  (decide ((s.core c).tag = some l.attr.ctx) || s.vacant c) &&
  (!l.claims || !(s.claimants c l.attr.ctx).any (fun e => decide (e.1 ≠ key))) && !s.windowBusy l.image.length c

/-- Whether a thread that gave up its slot of a core for a record 8 levels higher still waits for that record (R351). DEDUCED: log 110. -/
def State.waitsFor (s : State) (t : Thread) (c : Nat) : Bool :=
  t.ceded && s.launches.any (fun e => decide (t.attr.prio + 8 ≤ e.2.prio) && e.2.unplaced && s.eligible e.2 && s.suits e.2 c)
/-- The ready stockpile entries of a core that fit a free general slot of it and its free registers (R353); one that a freeze saved
at a debug halt takes its slot halted (R407). DEDUCED: log 110. -/
def State.stockReady (s : State) (c : Nat) : List (Nat × Thread) :=
  (s.stockOf c).filter (fun e =>
    decide (e.2.wait = .running) && !e.2.handler && decide (e.2.attr.count ≤ s.freeRegs c) && s.mayEnter e.2 c && !s.waitsFor e.2 c &&
    (decide ((s.core c).tag = some e.2.attr.ctx) || (s.core c).tag.isNone || s.vacant c))
/-- Whether the dispatcher may place a thread of a record on a core (R349, R353): it fits, no ready entry of the stockpile takes the slot
first, and no ready one of equal or higher priority waits for registers there. -/
def State.fits (s : State) (key : Nat) (l : Launch) (c : Nat) : Bool :=
  s.hasRoom key l c && (s.stockReady c).isEmpty &&
  !(s.stockOf c).any (fun e => decide (e.2.wait = .running) && !e.2.handler && decide (l.prio ≤ e.2.attr.prio) && decide (s.freeRegs c < e.2.attr.count))

/-- The cores that fit. -/
def State.fitting (s : State) (key : Nat) (l : Launch) : List Nat := (List.range Config.cores).filter (s.fits key l)

/-- Whether a core belongs to a dress's SLICE (R366). -/
def Dress.sliced (d : Dress) (c : Nat) : Bool :=
  match d.slice with
  | some (faces, first, last) => faces.getLsbD (faceOf c) && decide (first ≤ clusterOf c) && decide (clusterOf c ≤ last)
  | none => false
/-- Whether a core's cluster holds a slice, pin or replica of the affinity handle's dress (R349): a slice where its core group lies; to
which clusters pinned lines and replicas are near, is the device's own affair. DESIGN CHOICE: log 21. -/
def State.nearDress (s : State) (l : Launch) (c : Nat) : Bool :=
  if l.place.toNat.testBit 38 then
    let key := l.attr.ctx * 2 ^ 23 + l.place.toNat / 2 ^ 39 % 2 ^ 23
    match Tab.find? s.handles key with
    | some h =>
      (clusterCores (clusterId c)).any h.dress.sliced ||
      ((h.pin || !h.dress.replicas.isEmpty) && decide (Config.choice ((key * 2 ^ 32 + h.gen.toNat) * 1024 + clusterId c) % 2 = 1))
    | none => false
  else false

/-- The dispatcher's choice among fitting cores (R349): near the dress, fewest ready slots, most free registers, lowest id. -/
def State.bestCore (s : State) (l : Launch) (cs : List Nat) : Option Nat :=
  let better (x y : Nat) : Bool :=
    let nx := s.nearDress l x
    let ny := s.nearDress l y
    if nx != ny then nx
    else if s.readySlots x ≠ s.readySlots y then decide (s.readySlots x < s.readySlots y)
    else if s.freeRegs x ≠ s.freeRegs y then decide (s.freeRegs y < s.freeRegs x)
    else decide (x < y)
  match cs with
  | [] => none
  | c :: cs => some (cs.foldl (fun m x => if better x m then x else m) c)

/-- The threads that a turn of a context places (R348). -/
def State.weightOf (s : State) (c : Nat) : Nat :=
  match s.page? c with
  | some (_, p) => max 1 p.weight
  | none => 1

/-- The context served next at a level (R348), among contexts with a fitting record. -/
def State.turnOf (s : State) (level : Nat) (ctxs : List Nat) : Option Nat :=
  let weight := s.weightOf
  let lowest (l : List Nat) : Option Nat := match l with
    | [] => none
    | x :: xs => some (xs.foldl min x)
  match Tab.find? s.served level with
  | none => lowest ctxs
  | some (c, n) =>
    if ctxs.contains c && decide (n < weight c) then some c
    else
      match lowest (ctxs.filter (fun x => decide (c < x))) with
      | some x => some x
      | none => lowest ctxs

/-- Places the next thread of a record on a core (R35, R310, R348): one whose thread was re-queued first. DEDUCED: log 96. -/
def State.placeThread (s : State) (key : Nat) (l : Launch) (c k : Nat) : State :=
  let s := s.tagFor c l.attr.ctx
  let (tid, l) := match l.requeue with
    | [] => (l.next, { l with next := l.next + 1, live := l.live + 1 })
    | r :: rs =>
      let m := rs.foldl min r
      (m, { l with requeue := l.requeue.erase m, live := l.live + 1 })
  let u := s.nextUid
  let attr : Attr := { l.attr with tid := BitVec.ofNat 32 tid, prio := l.prio }
  let t := Thread.fresh (.slot c k) attr l.entry l.tvec s.co
  let s : State := { s with
    nextUid := u + 1
    threads := Tab.insert s.threads u { t with enter := u, home := some c }
    launches := Tab.insert s.launches key l
    groups := s.groups.map (fun g =>
      let sub (m : Member) : Member := if m = .unplaced key tid then .thread u else m
      if g.ctx = l.attr.ctx then { g with members := g.members.map sub, round := g.round.map (·.map sub) } else g)
    served := Tab.insert s.served l.prio (match Tab.find? s.served l.prio with
      | some (x, n) => if x = l.attr.ctx ∧ n < s.weightOf x then (x, n + 1) else (l.attr.ctx, 1)
      | none => (l.attr.ctx, 1)) }
  let s := s.modCore c (fun q => { q.delayTurn k s.cycle with
    claim := if l.claims then some key else q.claim
    pmode := if l.claims then l.place.toNat / 2 ^ 36 % 4 else q.pmode })
  s.writeWindow l c

/-- The record at the head of each context's list at each level (R348): of its eligible records with a thread to place, the one admitted
first. DEDUCED: log 96. -/
def State.heads (s : State) : List (Nat × Launch) :=
  let l := s.launches.filter (fun e => e.2.unplaced && s.eligible e.2)
  l.filter (fun e => !l.any (fun x =>
    decide (x.2.attr.ctx = e.2.attr.ctx) && decide (x.2.prio = e.2.prio) && decide (x.1 < e.1)))

/-- One choice of the dispatcher (R348): none when nothing fits. A core that holds another context is exchanged first (R308).
DEDUCED: log 96, 102. -/
def State.dispatch (s : State) : Option State :=
  let ready := s.heads.filter (fun e => !(s.fitting e.1 e.2).isEmpty)
  match ready with
  | [] => none
  | e :: es =>
    let level := es.foldl (fun m x => max m x.2.prio) e.2.prio
    let here := ready.filter (fun x => decide (x.2.prio = level))
    match s.turnOf level (here.map (fun x => x.2.attr.ctx)) with
    | none => none
    | some ctx =>
      match here.find? (fun x => decide (x.2.attr.ctx = ctx)) with
      | none => none
      | some (key, l) =>
        match s.bestCore l (s.fitting key l) with
        | none => none
        | some c =>
          match s.freeSlot c with
          | none => none
          | some k =>
            if (s.core c).tag = some ctx || (s.core c).tag.isNone then some (s.placeThread key l c k)
            else if s.pending.contains (.localContextExchange c ctx) then none
            else some (s.push (.localContextExchange c ctx))

/-- The victim for a record that fits nowhere (R351): a thread of a general slot, not one that keeps it at a debug halt (R286). -/
def State.victim (s : State) (l : Launch) : Option Nat :=
  let ok (e : Nat × Thread) : Bool :=
    match e.2.place with
    | .slot c k =>
      !e.2.handler && !e.2.halted && decide (k < Config.generalSlots) && decide (e.2.attr.prio + 8 ≤ l.prio) &&
      !(s.inSlots c).any (fun x => x.2.preempt) && s.suits l c
    | _ => false
  let better (x y : Nat × Thread) : Bool :=
    if x.2.attr.prio ≠ y.2.attr.prio then decide (x.2.attr.prio < y.2.attr.prio)
    else if x.2.enter ≠ y.2.enter then decide (y.2.enter < x.2.enter)
    else decide (x.2.core < y.2.core)
  match s.threads.filter ok with
  | [] => none
  | e :: es => some (es.foldl (fun m x => if better x m then x else m) e).1

/-- Whether a thread is already being taken for a record (R351). -/
def State.vacating (s : State) (l : Launch) : Bool :=
  s.threads.any (fun e => e.2.preempt && decide (e.2.attr.prio + 8 ≤ l.prio) && s.suits l e.2.core)

/-- The thread that is taken next (R351), for a record of the highest level with no fitting core and a victim. -/
def State.preemptor (s : State) : Option Nat :=
  let ready := s.heads.filter (fun e => (s.fitting e.1 e.2).isEmpty && !s.vacating e.2 && (s.victim e.2).isSome)
  match ready with
  | [] => none
  | e :: es =>
    s.victim (es.foldl (fun m x => if m.2.prio < x.2.prio then x else m) e).2

/-- Saves a thread that is taken from its slot (R396): its chunk is closed and it enters the stockpile of its core; a record that
waits for the slot is placed before the stockpile is looked at. -/
def State.saveThread (s : State) (u : Nat) : State :=
  match s.thread? u with
  | none => s
  | some o =>
    let s := s.giveUp u
    match s.closeChunk u with
    | (false, s) => s.modThread u (fun t => { t with preempt := true })
    | (true, s) =>
      match s.thread? u with
      | none => s
      | some t =>
        let s := s.modThread u (fun t => { t with portWait := match o.wait with
          | .portIn p => some p
          | _ => none })
        let s := s.enterStock u t.core
        (s.dispatch).getD s

/-- Fills freed slots of a core (R353); a core that holds another context is exchanged first, for a handler too (R308). -/
def State.fillSlot (s : State) (c : Nat) : State :=
  if s.coreFenced c || s.freezing then s
  else
    let tagged (t : Thread) : Bool := decide ((s.core c).tag = some t.attr.ctx) || (s.core c).tag.isNone
    let ready := (s.stockOf c).filter (fun e => decide (e.2.wait = .running) && e.2.handler && (tagged e.2 || s.vacant c))
    match ready, s.inSlot c Config.handlerSlot with
    | (u, t) :: _, none =>
      if tagged t then (s.enterSlot u c Config.handlerSlot).push (.slotFill c)
      else if s.pending.contains (.localContextExchange c t.attr.ctx) then s
      else s.push (.localContextExchange c t.attr.ctx)
    | _, _ =>
      match s.freeSlot c with
      | none => s
      | some k =>
        match s.stockReady c with
        | [] => if s.launches.any (fun e => e.2.unplaced) && !s.pending.contains .threadPlacement then s.push .threadPlacement else s
        | e :: es =>
          let better (x y : Nat × Thread) : Bool :=
            if x.2.attr.prio ≠ y.2.attr.prio then decide (y.2.attr.prio < x.2.attr.prio) else decide (x.2.enter < y.2.enter)
          let b := es.foldl (fun m x => if better x m then x else m) e
          if (s.core c).tag = some b.2.attr.ctx || (s.core c).tag.isNone then (s.enterSlot b.1 c k).push (.slotFill c)
          else if s.pending.contains (.localContextExchange c b.2.attr.ctx) then s
          else s.push (.localContextExchange c b.2.attr.ctx)

end Sys2Proof.Machine
end

