-- ==== Sys2Proof/Machine/Engine.lean ====
section
/-!
DEFINITION. What the three engines of a core share: the queues and their waiting lists (R183, R358), the context of the engine
state (R299), admission and the lines a command owns or has yet to read (R332), the engine's own reads and writes (R184, R187,
R336), and the commit of a command's results.
-/
namespace Sys2Proof.Machine

/-- A command of another context waits for the exchange of the engine state (R299). -/
def Act.needEngine : Act Unit := do
  let t ← Act.me
  let s ← get
  if (s.core t.core).etag = some t.attr.ctx then pure ()
  else do
    modify (fun s =>
      if s.pending.contains (.engineContextExchange t.core t.attr.ctx) then s
      else s.push (.engineContextExchange t.core t.attr.ctx))
    Act.park .exchange

/-- Waits for a free queue entry, in turn (R183 step 3, R358). -/
def Act.needEntry (e : Engine) : Act Unit := do
  let t ← Act.me
  let s ← get
  let q := s.core t.core
  let first := match q.qwait e with
    | [] => true
    | u :: _ => decide (u = s.cur)
  if decide ((q.queue e).length < 2) && first then
    modify (fun s => (s.modCore t.core (fun q => q.setWait e (setDel (q.qwait e) s.cur))).wakeQueue t.core e)
  else do
    modify (fun s => s.modCore t.core (fun q => q.setWait e (setAdd (q.qwait e) s.cur)))
    Act.park (.queue e)

/-- An engine form: it ends the chunk, and its checks come once an entry is free (R183). It names `fields` and reads `reads`. -/
def Act.engineForm (e : Engine) (fields reads : List (BitVec 5)) (g : BitVec 5) (body : Act Unit) : Act Unit :=
  Act.issue .ending 4 fields g (do
    Act.needEngine
    Act.needEntry e
    Act.ready reads []
    body)

/-- The line that a line of addresses lies on for a command of a core (R332). -/
def State.lineAt (s : State) (core ctx : Nat) (p : Perm) (v : Nat) : Option Nat :=
  match s.coreSpot core ctx (64 * v) p with
  | .near l => some (l / 64)
  | .remote _ l => some (l / 64)
  | .global _ l => some (l / 64)
  | _ => none
/-- The lines of addresses that accesses of `size` bytes at some addresses touch. -/
def spanLines (size : Nat) (vas : List Nat) : List Nat := linesOf (vas.flatMap (fun va => (List.range size).map (va + ·)))

/-- A command of the thread whose turn it is, with the settings it copies (R213, R254). -/
def State.newCmd (s : State) (t : Thread) (op : EngOp) (reg : Nat) (a b : Word) (dst src : List Nat) : Cmd :=
  let q := s.core t.core
  let now (p : Perm) (vs : List Nat) : List Nat := vs.filterMap (s.lineAt t.core t.attr.ctx p)
  let later (p : Perm) (vs : List Nat) : List Nat := vs.filter (fun v => (s.lineAt t.core t.attr.ctx p v).isNone)
  { uid := s.cur, ctx := t.attr.ctx, op := op, reg := reg, a := a, b := b, pc := t.pc, mcfg := q.eng.me.cfg
    ccfg := q.eng.ce, result := none, dst := now .wr dst, src := now .rd src
    vdst := later .wr dst, vsrc := later .rd src, boxes := [], stalled := false, void := false
    going := false, mark := s.co + 1, seq := t.attr.seq, tid := t.attr.tid.toNat }

/-- Takes the entry (R183 step 5): the command copies the settings it needs, owns its destination lines, and has its source lines kept
for it, given as lines of addresses (R332). DEDUCED: log 112. -/
def Act.enqueue (e : Engine) (op : EngOp) (reg : Nat) (a b : Word) (dst src : List Nat) : Act Unit := do
  let t ← Act.me
  modify (fun s =>
    let q := s.core t.core
    let cmd := s.newCmd t op reg a b dst src
    let s : State := { s with co := cmd.mark }
    let s := (s.usePages t.attr.ctx dst true).usePages t.attr.ctx src false
    let s := s.modCore t.core (fun q => q.setCmds e (q.queue e ++ [cmd]))
    let s := if e = .vector then s.count t.core 13 1 else s
    if (q.queue e).isEmpty then s.push (.engineCommandStart t.core e) else s)

/-! ## An engine's memory -/

/-- Why an engine command cannot go on: a page, or a fault's code and the byte's address. -/
inductive EngStop where
  | page (va : Nat)
  | fault (code va : Nat)
  deriving DecidableEq, Repr

/-- The places of `n` bytes from an address up that a command may reach now, for the lines it owns. -/
def State.placesOf (s : State) (c ctx va : Nat) (p : Perm) (n : Nat) : List Nat :=
  (List.range n).filterMap (fun i =>
    match s.coreSpot c ctx (va + i) p with
    | .near l => some l
    | .remote _ l => some l
    | .global _ l => some l
    | _ => none)

/-- The place of one byte for a command; with `hard`, an absent page is one that cannot be resolved. -/
def State.engPlace (s : State) (core : Nat) (c : Cmd) (hard : Bool) (va : Nat) (p : Perm) : Except EngStop Nat :=
  match s.coreSpot core c.ctx va p with
  | .near l => .ok l
  | .remote _ l => .ok l
  | .global _ l => .ok l
  | .absent => if hard then .error (.fault 0x08 va) else .error (.page va)
  | .bad k => .error (.fault k va)

/-- A byte as a command reads it: a sealed thread's footprint over committed memory (R184). -/
def State.engByte (s : State) (c : Cmd) (loc : Nat) : Byte :=
  let foot := match s.thread? c.uid with
    | some t => if t.attr.isSealed && !c.void then t.foot.find? (fun w : WEntry => decide (w.loc = loc)) else none
    | none => none
  match foot with
  | some w => w.val
  | none => Store.get s.mem loc

/-- `n` bytes as a command reads them. -/
def State.engRead (s : State) (core : Nat) (c : Cmd) (hard : Bool) (va : Nat) : Nat → Except EngStop (List Byte)
  | 0 => .ok []
  | n + 1 =>
    match s.engPlace core c hard va .rd with
    | .error e => .error e
    | .ok l =>
      if s.poisoned l then .error (.fault 0x09 va)
      else
        match s.engRead core c hard (va + 1) n with
        | .error e => .error e
        | .ok bs => .ok (s.engByte c l :: bs)

/-- The value of some bytes, little-endian. -/
def leValue (bs : List Byte) : Nat := bs.foldr (fun b v => b.toNat + 256 * v) 0
/-- The `n` low bytes of a value, little-endian. -/
def leBytes (v : Nat) : Nat → List Byte
  | 0 => []
  | n + 1 => BitVec.ofNat 8 v :: leBytes (v / 256) n

/-- The entries of bytes written from an address up. -/
def State.engWrite (s : State) (core : Nat) (c : Cmd) (hard : Bool) (va : Nat) : List Byte → Except EngStop (List WEntry)
  | [] => .ok []
  | b :: bs =>
    match s.engPlace core c hard va .wr with
    | .error e => .error e
    | .ok l =>
      match s.engWrite core c hard (va + 1) bs with
      | .error e => .error e
      | .ok es => .ok (⟨va, l, b⟩ :: es)

/-- Pieces written in order until one cannot be: the entries of those before it, and the stop. -/
def State.engWrites (s : State) (core : Nat) (c : Cmd) (hard : Bool) : List (Nat × List Byte) → List WEntry × Option EngStop
  | [] => ([], none)
  | (va, bs) :: rest =>
    match s.engWrite core c hard va bs with
    | .error e => ([], some e)
    | .ok es =>
      let (more, e) := s.engWrites core c hard rest
      (es ++ more, e)

/-- FVAL of an execution fault (R393): ENG 0 vector, 2 copy, 3 handle operation. -/
def engineFval (eng code va : Nat) : Word := BitVec.ofNat 64 (eng * 2 ^ 62 + code * 2 ^ 56 + va % 2 ^ 48)

/-- A result that changes nothing. -/
def EngResult.nothing : EngResult := ⟨[], [], none, none, none, 0, none, none, 0, 0, []⟩

/-- The tables of a core. -/
def Core.tab (q : Core) (k : Nat) : DTable := Tab.get DTable.reset q.eng.tables k

/-! ## Committing results -/

/-- A write has joined a thread's footprint: its own WAITA or NMSTAT that waits for one of the words looks (R52, R167, R272). -/
def State.footSeen (s : State) (u : Nat) (words : List Nat) : State :=
  s.modThread u (fun t =>
    match t.wait with
    | .addr loc va c v timed =>
      if words.contains (loc / 8) && waitCond c (BitVec.ofNat 64 (s.see t va loc 8)) v then t.met timed else t
    | .nmstat loc => if words.contains (loc / 8) then t.wake else t
    | _ => t)

/-- Writes a command's bytes and full bits where its thread's writes go (R332, R336): a sealed thread's footprint, where a write past
4 MiB is the footprint fault (R54), told as the command's execution fault; or memory as one event; nothing when its destinations were
discarded. `eng` is the engine's number in the fault (R187). DEDUCED: log 28. -/
def State.engCommit (s : State) (eng uid : Nat) (void : Bool) (ws : List WEntry) (fills : List Nat) : State :=
  if void || (ws.isEmpty && fills.isEmpty) then s
  else
    let isSealed := match s.thread? uid with
      | some t => t.attr.isSealed
      | none => false
    if isSealed then
      let s := s.modThread uid (fun t =>
        if t.footOver ws then { t with async := t.async ++ [(0x17, engineFval eng 0x0B ((ws.map (·.va)).foldl min (2 ^ 48)))] }
        else { t with
          foot := ws.foldl footAdd t.foot
          footFull := fills.foldl (fun m w => Tab.insert m w true) t.footFull })
      fills.foldl (fun s w => s.wordChanged (8 * w)) (s.footSeen uid (wordsOf (ws.map (·.loc))))
    else
      let s := s.commitBytes (ws.map (fun w => (w.loc, w.val)))
      let s := fills.foldl (fun s w => s.setFull w true) s
      fills.foldl (fun s w => s.wordChanged (8 * w)) s

/-- Bytes that the copy engine has committed: CBYTE advances at every 8 of them (R383). -/
def State.countCopied (s : State) (core n : Nat) : State :=
  let total := (s.core core).cbytes + n
  (s.modCore core (fun q => { q with cbytes := total % 8 })).count core 14 (total / 8)

/-- Delivers an asynchronous execution fault (R187, R393): to the thread, before its next issue, or to the fault window.
DEDUCED: log 28. -/
def State.engFault (s : State) (c : Cmd) (core : Nat) (fval : Word) : State :=
  match s.thread? c.uid with
  | some _ => s.modThread c.uid (fun t => { t with async := t.async ++ [(0x17, fval)] })
  | none => s.record c.ctx 3 0x17 core 31 c.seq c.tid fval.toNat c.pc 0 0

/-- The lines of a command's destination or sources that are mapped now. -/
def State.linesNow (s : State) (ctx : Nat) (ls vs : List Nat) : List Nat := ls ++ vs.filterMap (s.pageLine ctx)
/-- Whether a form reads its input again from me.px (R247). -/
def EngOp.isAssay : EngOp → Bool
  | .assay _ => true
  | _ => false
/-- Whether a command must wait for an earlier one (R332): it reads a line the other owns, or writes one it has yet to read. -/
def State.engBlocked (s : State) (c : Cmd) : Bool :=
  let src := s.linesNow c.ctx c.src c.vsrc
  let dst := s.linesNow c.ctx c.dst c.vdst
  s.cores.any (fun e => e.2.cmds.any (fun o => decide (o.mark < c.mark) &&
    (src.any (s.amongLines o.ctx o.dst o.vdst) || dst.any (s.amongLines o.ctx o.src o.vsrc)))) ||
  s.handles.any (fun e => e.2.order.any (fun o => decide (o.mark < c.mark) && src.any (s.amongLines o.cmd.ctx o.dst o.vdst)))

/-- The decode tables of its core that a command converts by (R74). -/
def Cmd.tables (c : Cmd) (q : EngState) : List Nat :=
  let of (w : Word) : List Nat := ((elemTable (fmtOf w)).map (·.1)).toList
  let nz : List Nat := if 3 ≤ q.ve.mode.toNat / 16 % 16 then [q.ve.mode.toNat / 256 % 4] else []
  match c.op with
  | .vfun .nzc _ _ _ _ => nz
  | .vfun .nzb _ _ _ _ => nz
  | .vld _ => of c.a
  | .vst _ => of c.a
  | .vlds _ => of c.a
  | .vldx _ => of c.a
  | .vldb _ => of c.a
  | .vstb _ => of c.a
  | .mma _ => of c.a ++ of c.b
  | .mring _ => of c.a
  | .mldb => of c.a
  | .mstore _ => of c.a
  | .snormA => of c.a
  | .snormB => of c.a
  | .srun _ => of c.a ++ of c.b
  | .pload => of c.a ++ of c.b
  | .pscore => of c.a
  | .assay _ => of c.a ++ of c.b ++ of q.me.px
  | _ => []

/-- Whether a command waits for a TLOAD (R74, R290): a table it converts by is being built, or a thread of its core waits to replace one
and was there before it. -/
def State.engTabled (s : State) (core : Nat) (e : Engine) (c : Cmd) : Bool :=
  let q := (s.core core).eng
  (c.tables q).any q.building.contains ||
  (decide (e ≠ .copy) && s.threads.any (fun t => decide (t.2.core = core) && t.2.drain.any (fun m => decide (m < c.mark))))
/-- Whether the head command of an engine has to wait before it starts. -/
def State.engWaits (s : State) (core : Nat) (e : Engine) (c : Cmd) : Bool := s.engBlocked c || s.engTabled core e c

/-- Whether a command's completion must wait (R328, R332): a line it writes is reserved by a solo chunk, or an earlier command has
yet to read it. -/
def State.engHeld (s : State) (c : Cmd) (lines : List Nat) : Bool :=
  s.reserved.any (fun r => lines.contains r.1) ||
  s.cores.any (fun e => e.2.cmds.any (fun o => decide (o.mark < c.mark) && lines.any (s.amongLines o.ctx o.src o.vsrc)))

/-- The head of an engine's queue. -/
def State.headCmd (s : State) (c : Nat) (e : Engine) : Option Cmd := ((s.core c).queue e).head?
/-- Changes the head of an engine's queue. -/
def State.modHead (s : State) (c : Nat) (e : Engine) (f : Cmd → Cmd) : State :=
  s.modCore c (fun q => q.setCmds e (match q.queue e with
    | [] => []
    | x :: xs => f x :: xs))

/-- The head command leaves its queue: the next starts, waiting threads wake (R358, R332), and its context has made progress. -/
def State.popCmd (s : State) (c : Nat) (e : Engine) : State :=
  match s.headCmd c e with
  | none => s
  | some cmd =>
    let t := s.modCore c (fun q => q.setCmds e ((q.queue e).drop 1))
    let t := if ((t.core c).queue e).isEmpty then t else t.push (.engineCommandStart c e)
    let t := (t.wakeQueue c e).wakeOwned
    let t := t.wakeAll (fun _ t => decide (t.wait = .engines) && decide (t.core = c))
    t.progressOf s cmd.ctx

/-- An MRING that holds its entry but has not started, wherever it stands in the queue, loses it, and its thread issues it again (R179,
R224). -/
def State.dropRing (s : State) (u : Nat) : State :=
  match s.thread? u with
  | none => s
  | some t =>
    let c := t.core
    let mine (k : Cmd) : Bool := decide (k.uid = u) && k.result.isNone && (match k.op with
      | .mring _ => true
      | _ => false)
    let q := (s.core c).mq
    if t.wait = .matrix ∧ q.any mine then
      if q.head?.any mine then (s.popCmd c .matrix).modThread u Thread.wake
      else
        let s := s.modCore c (fun q => { q with mq := q.mq.eraseP mine })
        ((s.wakeQueue c .matrix).wakeOwned).modThread u Thread.wake
    else s

/-- A result for a thread's register: it is filled, and a thread that waits for it goes on (R48, R186). -/
def State.fillPend (s : State) (u r : Nat) (v : Word) : State :=
  s.modThread u (fun t =>
    let t := t.fillReg r v
    if t.wait = .reg r then t.wake else t)

/-- A register awaits the result of an engine command (R186). -/
def Act.awaitFill (r : BitVec 5) : Act Unit := Act.modMe (fun t => t.putReg r.toNat ⟨0#64, false, false, true⟩)

/-! ## Starting and completing a command -/

/-- ENG of an execution fault. -/
def engNumber : Engine → Nat
  | .vector => 0
  | .matrix => 1
  | .copy => 2

/-- The head command waits silently at a page (R187, R316). -/
def State.engStall (s : State) (core : Nat) (e : Engine) (ctx va : Nat) : State :=
  let s := s.count core 8 1
  (s.modHead core e (fun c => { c with stalled := true })).faultWait ctx (va / 2 ^ 16) (.engine core e)

/-- The lines that a command reads are in the LLC, or filled there (R334). -/
def State.touchSource (s : State) (c : Cmd) : State := s.touchPlaces ((s.linesNow c.ctx c.src c.vsrc).map (64 * ·))

/-- Starts the head command (R184): once nothing holds it back it runs, and what it will leave is kept until it completes. At a
page that is absent it waits at the Bed fault queue (R187); with `hard` that page cannot be resolved. -/
def State.engStart (s : State) (core : Nat) (e : Engine) (hard : Bool) (fin : Event)
    (run : State → Cmd → Bool → Except EngStop EngResult) : State :=
  match s.headCmd core e with
  | none => s
  | some c =>
    if c.result.isSome then s
    else if s.engWaits core e c then s.push (.engineCommandStart core e)
    else
      let s := s.touchSource c
      match run s c hard with
      | .error (.page va) =>
        s.engStall core e c.ctx va
      | .error (.fault k va) =>
        let r : EngResult := { EngResult.nothing with fault := some (k, engineFval (engNumber e) k va) }
        ((s.modHead core e (fun c => { c with result := some r, src := [], vsrc := [], stalled := false })).push fin).wakeOwned
      | .ok r =>
        let lines := linesOf (r.writes.map (·.loc))
        let s := (s.usePages c.ctx c.vsrc false).usePages c.ctx (linesOf (r.writes.map (·.va))) true
        ((s.modHead core e (fun c => { c with result := some r, src := [], vsrc := [], dst := (c.dst ++ lines).eraseDups
                                              stalled := false })).push fin).wakeOwned

/-- Installs the engine state that a command leaves. -/
def EngState.install (q : EngState) (r : EngResult) : EngState :=
  let q := match r.ve with
    | some v => { q with ve := v }
    | none => q
  match r.me with
  | some m => { q with me := m }
  | none => q

/-- Completes the head command of the vector or matrix engine: its state, its bytes as one event (R197, R332), its result register
(R186), its fault (R187). -/
def State.engFinish (s : State) (core : Nat) (e : Engine) (again : Event) : State :=
  match s.headCmd core e with
  | none => s
  | some c =>
    match c.result with
    | none => s
    | some r =>
      if s.engHeld c (linesOf (r.writes.map (·.loc))) then s.push again
      else
        let s := s.modCore core (fun q => { q with eng := q.eng.install r })
        let s := s.engCommit (engNumber e) c.uid c.void r.writes r.fills
        let s := match r.scalar with
          | some v => s.fillPend c.uid c.reg v
          | none => s
        let s := match r.fault with
          | some (_, v) => s.engFault c core v
          | none => s
        s.popCmd core e

end Sys2Proof.Machine
end

