-- ==== Sys2Proof/Machine/System.lean ====
section
/-!
DEFINITION. Meanings of the system and debug forms (R278-R294).
-/
namespace Sys2Proof.Machine

/-! ## System registers (R280, R281, R297, R298) -/

/-- CLOAD: FREE and READY of the 16 cores of a cluster (R298). -/
def State.cload (s : State) (c : Nat) : Word :=
  let free (n : Nat) : Nat := if n = 0 then 0 else if n < 4 then 1 else if n < 8 then 2 else 3
  let cs := clusterCores (clusterId c)
  BitVec.ofNat 64 (cs.foldr (fun q w => w * 16 + (4 * free (s.freeSlots q) + min 3 (s.readySlots q / 4))) 0)

/-- CHK (R298). -/
def Thread.chk (t : Thread) : Word :=
  BitVec.ofNat 64 ((if t.prev.isSome then 1024 else 0) + (if t.solo then 512 else 0) + t.sq % 8)

/-- The value MFS reads (R280). -/
def State.sysReg (s : State) (t : Thread) (r : Nat) : Word :=
  let c := t.core
  match r with
  | 0 => t.attr.tid.setWidth 64
  | 1 => BitVec.ofNat 64 c
  | 2 => BitVec.ofNat 64 (clusterOf c)
  | 3 => BitVec.ofNat 64 (faceOf c)
  | 4 => s.device.devid.setWidth 64
  | 5 => BitVec.ofNat 64 t.attr.ctx
  | 6 => BitVec.ofNat 64 (t.attr.prio % 64 * 256 + t.slot % 32)
  | 7 => BitVec.ofNat 64 (s.core c).cap
  | 8 => s.cload c
  | 9 => t.chk
  | 10 => t.fflags
  | 11 => t.cause
  | 12 => t.fval
  | 13 => t.fpc
  | 14 => t.tvec
  | _ => match s.page? t.attr.ctx with
    | some (_, p) => p.wdog
    | none => 0#64

/-- What MTS writes (R281): bits that a layout reserves are dropped. DEDUCED: log 100. -/
def Thread.setSys (t : Thread) (r : Nat) (v : Word) : Thread :=
  match r with
  | 10 => { t with fflags := v &&& 0x317#64 }
  | 11 => { t with cause := v &&& 0x80000000000000FF#64 }
  | 12 => { t with fval := v }
  | 13 => { t with fpc := v &&& 0xFFFFFFFFFFFF#64 }
  | 14 => { t with tvec := v &&& 0xFFFFFFFFFFFF#64 }
  | _ => t

/-- The clamp of WDOG (R281). -/
def clampWdog (v : Word) : Word :=
  if v.toNat < 1000 then 1000#64 else if 60000000 < v.toNat then 60000000#64 else v

/-- MFS. -/
def execMfs (r : BitVec 8) (a g : BitVec 5) (s : State) : Host.Outcome State Fault Refusal :=
  Act.go (Act.issue .coreOnly 4 [a] g (do
    let t ← Act.me
    let s ← get
    Act.write a (s.sysReg t r.toNat))) s
/-- MTS. -/
def execMts (r : BitVec 8) (a g : BitVec 5) (s : State) : Host.Outcome State Fault Refusal :=
  Act.go (Act.issue .coreOnly 4 [a] g (do
    Act.ready [a] []
    let x ← Act.read [] a
    Act.modMe (fun t => t.setSys r.toNat x))) s
/-- MTS to WDOG: a single-operation event for the whole context, clamped (R281, R388). -/
def execMtsWdog (a g : BitVec 5) (s : State) : Host.Outcome State Fault Refusal :=
  Act.go (Act.issue .ending 4 [a] g (do
    Act.ready [a] []
    let x ← Act.read [] a
    let t ← Act.me
    modify (fun s => (s.modCtx t.attr.ctx (fun p => { p with wdog := clampWdog x })).progress t.attr.ctx))) s

/-! ## Traps (R283, R284) -/

/-- TRAP. -/
def execTrap (a g : BitVec 5) (s : State) : Host.Outcome State Fault Refusal :=
  Act.go (Act.issue .ending 4 [a] g (do
    Act.ready [a] []
    let x ← Act.read [] a
    let t ← Act.me
    Act.trap 0x18 x (t.pc + 4))) s
/-- TRET: a failed check of FPC is a double fault. -/
def execTret (g : BitVec 5) (s : State) : Host.Outcome State Fault Refusal :=
  Act.go (Act.issueTo .ending 4 [] g (do
    let t ← Act.me
    if !t.inTrap then Act.illegal
    else do
      let n ← Act.target t.fpc.toNat
      Act.modMe (fun t => { t with cause := t.cause &&& 0x7FFFFFFFFFFFFFFF#64 })
      pure (some n))) s

/-! ## Breakpoints and waiting (R285, R289) -/

/-- The context page index of a context with a debugger attached. -/
def State.debugger (s : State) (ctx : Nat) : Option Nat :=
  match s.page? ctx with
  | some (i, p) => if p.dbg then some i else none
  | none => none

/-- Halts a thread (R286): its view is taken when its commands have completed or 10 µs later (R287). DEDUCED: log 76. -/
def State.haltThread (s : State) (u : Nat) : State :=
  match s.thread? u with
  | none => s
  | some t =>
    let s := s.modThread u (fun t => { t with halted := true, haltReq := false })
    match s.debugger t.attr.ctx with
    | some i => (s.push (.debugView i u)).after (10 * Config.cyclesPerMicro) (.debugView i u)
    | none => s

/-- BKPT. -/
def execBkpt (g : BitVec 5) (s : State) : Host.Outcome State Fault Refusal :=
  Act.go (Act.issue .ending 4 [] g (do
    let t ← Act.me
    let s ← get
    match s.debugger t.attr.ctx with
    | some _ => modify (fun s => s.haltThread s.cur)
    | none => Act.trap 0x19 0#64 (t.pc + 4))) s
/-- IDLE and IDLE.t; a pending message or light handler completes them at once. -/
def Act.idle (limit : Option Word) : Act Unit := do
  let t ← Act.me
  let s ← get
  let q := s.core t.core
  let bad := match limit with
    | some a => decide (a = 0#64) || decide (2 ^ 32 ≤ a.toNat)
    | none => false
  if t.handler || bad then Act.illegal
  else if !q.msgs.isEmpty || !q.lights.isEmpty then pure ()
  else do
    match limit with
    | some a => modify (fun s => s.after a.toNat (.idleTimeout s.cur (t.stamp + 1)))
    | none => pure ()
    Act.park (.idle limit.isSome)
/-- IDLE. -/
def execIdle (g : BitVec 5) (s : State) : Host.Outcome State Fault Refusal :=
  Act.go (Act.issue .ending 4 [] g (Act.idle none)) s
/-- IDLE.t. -/
def execIdleT (a g : BitVec 5) (s : State) : Host.Outcome State Fault Refusal :=
  Act.go (Act.issue .ending 4 [a] g (do
    Act.ready [a] []
    let x ← Act.read [] a
    Act.idle (some x))) s

/-! ## Tables and code (R290, R291) -/

/-- TLOAD: it waits for the vector and matrix commands admitted before it, then reads the image as committed memory; the table is being
built until as many builds have ended as began. -/
def execTload (a b g : BitVec 5) (s : State) : Host.Outcome State Fault Refusal :=
  Act.go (Act.issue .ending 4 [a, b] g (do
    Act.ready [a, b] []
    let x ← Act.read [] a
    let y ← Act.read [] b
    if 3 < x.toNat then Act.fault 0x0E 0#64
    else do
      -- step 3 of R149 takes in every byte of the image
      if !badTag y && !isRef y && decide (2 ^ 48 < y.toNat % 2 ^ 48 + 1032) then Act.fault 0x04 y else pure ()
      let va ← Act.address y 0 8 (fun c => decide (c = 0))
      if !spanWhole va 1032 then Act.fault 0x06 (BitVec.ofNat 64 va)
      else do
        let t ← Act.me
        let s ← get
        let q := s.core t.core
        let upTo := t.drain.getD s.co
        if (q.vq ++ q.mq).any (fun k => decide (k.mark ≤ upTo)) then do
          Act.modMe (fun t => { t with drain := some upTo })
          Act.park .engines
        else
          match s.reach t va .rd 1032 with
          | .bad c v => Act.fault c (BitVec.ofNat 64 v)
          | .absent v => do
            Act.modMe (fun t => { t with drain := some upTo })
            Act.hold v
          | .ok locs =>
           if (linesOf locs).any s.owned then do
            Act.modMe (fun t => { t with drain := some upTo })
            Act.park .owned
           else do
            modify (fun s => s.touchPlaces locs)
            let s ← get
            match locs.zipIdx.find? (fun l => s.poisoned l.1) with
            | some l => Act.fault 0x09 (BitVec.ofNat 64 ((va + l.2) / 64 * 64))
            | none => do
              Act.modMe (fun t => { t with drain := none })
              modify (fun s =>
                let s := s.usePages t.attr.ctx (spanLines 1032 [va]) false
                let tab := DTable.ofImage (locs.map (fun l => Store.get s.mem l))
                (s.modCore t.core (fun q => { q with eng := { q.eng with
                  tables := Tab.put DTable.reset q.eng.tables x.toNat tab
                  building := q.eng.building ++ [x.toNat] } })).after 256 (.tloadBuildComplete t.core x.toNat)))) s
/-- SYNCI: fetch reads committed memory, so that only the chunk's end and the range check remain. DEDUCED: log 12, 14. -/
def execSynci (a b g : BitVec 5) (s : State) : Host.Outcome State Fault Refusal :=
  Act.go (Act.issue .ending 4 [a, b] g (do
    Act.ready [a, b] []
    let x ← Act.read [] a
    let y ← Act.read [] b
    if y ≠ 0#64 ∧ !globalRange (x.toNat % 2 ^ 48) y.toNat then Act.fault 0x06 (BitVec.ofNat 64 (x.toNat % 2 ^ 48))
    else pure ())) s

/-! ## Pages and contexts (R292, R293) -/

/-- Whether a context is privileged (R279). -/
def State.privileged (s : State) (ctx : Nat) : Bool :=
  match s.page? ctx with
  | some (_, p) => p.sys
  | none => false

/-- The level and the physical address of the leaf entry that maps an address. -/
def State.leafEntry (s : State) (va : Nat) : Nat → Nat → Option (Nat × Nat)
  | 0, _ => none
  | n + 1, node =>
    let idx := if n = 3 then va / 2 ^ 39 % 512 else if n = 2 then va / 2 ^ 30 % 512
      else if n = 1 then va / 2 ^ 21 % 512 else va / 2 ^ 16 % 32
    let (w0, w1) := s.ptEntry (node + 16 * idx)
    if !pteValid w0 || s.pteInvalid n w0 w1 then none
    else if pteLeaf w0 then some (n, node + 16 * idx)
    else State.leafEntry s va n (pteAddr w0)

/-- What HARVEST does for one 64 KiB: the record's key, and the byte of the leaf entry with its accessed and dirty bits set (R292, R375). -/
def State.harvestByte (s : State) (ctx root page : Nat) : Option ((Nat × Nat) × Nat × Byte) :=
  (s.leafEntry (page * 2 ^ 16) 4 root).map (fun e =>
    let k := (ctx, pageBase e.1 page)
    let d := if s.grants.contains k then 16 else 0
    let a := if s.used.contains k then 8 else 0
    let dev := e.2 / 2 ^ 40 % 4096
    let loc := if dev = s.device.devid.toNat then interleaved ((e.2 + 7) % 2 ^ 40) else remoteLoc dev ((e.2 + 7) % 2 ^ 40)
    (k, loc, Store.get s.mem loc ||| BitVec.ofNat 8 (d + a)))
/-- Sets the accessed and dirty bits of the entry of the page, of whatever size, that holds one 64 KiB, and clears its records
(R292, R375). DESIGN CHOICE: log 23. -/
def State.harvestPage (s : State) (ctx root page : Nat) : State :=
  match s.harvestByte ctx root page with
  | none => s
  | some (k, loc, new) =>
    let s := if new = Store.get s.mem loc then s else s.commitBytes [(loc, new)]
    { s with grants := s.grants.erase k, used := s.used.erase k }
/-- Whether the line of the entry that HARVEST changes for one 64 KiB is held against writes (R328, R332). -/
def State.harvestHeld (s : State) (ctx root page : Nat) : Bool :=
  match s.harvestByte ctx root page with
  | none => false
  | some (_, loc, new) => decide (new ≠ Store.get s.mem loc) && s.busyLine (loc / 64)

/-- HARVEST: it waits while an entry's line is owned, to be read by an engine, or reserved. DEDUCED: log 14. DESIGN CHOICE: log 23. -/
def execHarvest (a b g : BitVec 5) (s : State) : Host.Outcome State Fault Refusal :=
  Act.go (Act.issue .ending 4 [a, b] g (do
    let t ← Act.me
    let s ← get
    if !s.privileged t.attr.ctx then Act.fault 0x14 0#64
    else do
      Act.ready [a, b] []
      let x ← Act.read [] a
      let y ← Act.read [] b
      if x.toNat % 2 ^ 16 ≠ 0 ∨ y.toNat % 2 ^ 16 ≠ 0 then Act.fault 0x05 (BitVec.ofNat 64 (x.toNat % 2 ^ 48))
      else
        let root := match s.page? t.attr.ctx with
          | some (_, p) => p.ptroot.toNat
          | none => 0
        let pages := (List.range (y.toNat / 2 ^ 16)).map (x.toNat % 2 ^ 48 / 2 ^ 16 + ·)
        if pages.any (s.harvestHeld t.attr.ctx root) then Act.park .owned
        else modify (fun s => pages.foldl (fun s p => s.harvestPage t.attr.ctx root p) s))) s

/-- CTXSWAP. A context of another number can take the slot only when no other slot of the core is held (R308). An entry that waits for another core does not fit (R397).
DEDUCED: log 20. -/
def execCtxswap (a b g : BitVec 5) (s : State) : Host.Outcome State Fault Refusal :=
  Act.go (Act.issue .ending 4 [a, b] g (do
    Act.ready [b] []
    let y ← Act.read [] b
    let t ← Act.me
    let s ← get
    let c := t.core
    let status (k : Nat) : Act Unit := Act.write a (BitVec.ofNat 64 (2 ^ 63 + k))
    if 128 ≤ y.toNat then status 3
    else
      match List.find? (fun e => decide (e.2.index = some y.toNat) && e.2.inRotation) (s.clusterStock c) with
      | none => status 1
      | some (u, o) =>
        let other := decide (o.attr.ctx ≠ t.attr.ctx)
        if other && !s.privileged t.attr.ctx then Act.fault 0x14 0#64
        else if o.place ≠ .stock c || s.freeRegs c + t.attr.count < o.attr.count || !s.mayEnter o c ||
            (other && decide ((s.inSlots c).length ≠ 1)) then status 2
        else if other && !(s.core c).quiet then Act.park .engines
        else do
          Act.modMe (fun t => { t with pc := (t.pc + 4) % 2 ^ 48, swapReg := some a.toNat })
          modify (fun s =>
            let s := s.modThread u (fun o => { o with place := .transit, index := none })
            let s := s.enterStock s.cur c
            let s := if other then s.exchange c o.attr.ctx else s
            s.enterSlot u c t.slot)
          Act.stop)) s

/-- NOP (R294). -/
def execNop (s : State) : Host.Outcome State Fault Refusal :=
  Act.go (Act.issue .coreOnly 4 [] 0#5 (pure ())) s
/-- ILL: the defined-illegal word faults (R110, R112). -/
def execIll (s : State) : Host.Outcome State Fault Refusal := Act.go (Act.fault 0x01 0#64) s

end Sys2Proof.Machine
end

