-- ==== Sys2Proof/Machine/Vector.lean ====
section
/-!
DEFINITION. Meanings of the vector forms: what each command does when it executes (R184, R190-R208), the checks at its issue
(R183, R190), and its start and completion.
-/
namespace Sys2Proof.Machine

/-! ## Registers and masks -/

/-- The 16 lanes of a vector register. -/
def VeState.reg (ve : VeState) (v : BitVec 4) : List Half := Store.cells ve.lanes (16 * v.toNat) 16
/-- Writes a vector register. -/
def VeState.setReg (ve : VeState) (v : BitVec 4) (l : List Half) : VeState :=
  { ve with lanes := Store.putCells ve.lanes (16 * v.toNat) l }
/-- A mask register. -/
def VeState.mask (ve : VeState) (k : BitVec 2) : BitVec 16 :=
  match k.toNat with
  | 0 => ve.m0
  | 1 => ve.m1
  | 2 => ve.m2
  | _ => ve.m3
/-- Writes a mask register. -/
def VeState.setMask (ve : VeState) (k : BitVec 2) (m : BitVec 16) : VeState :=
  match k.toNat with
  | 0 => { ve with m0 := m }
  | 1 => { ve with m1 := m }
  | 2 => { ve with m2 := m }
  | _ => { ve with m3 := m }
/-- The four masks as ve.masks. -/
def VeState.masks (ve : VeState) : Word := ve.m3 ++ ve.m2 ++ ve.m1 ++ ve.m0
/-- Whether lane `i` is active under mask `k`; 0 names no mask (R185). -/
def VeState.active (ve : VeState) (k : BitVec 2) (i : Nat) : Bool := decide (k = 0#2) || (ve.mask k).getLsbD i
/-- ve.mode.FZ. -/
def VeState.fz (ve : VeState) : Bool := ve.mode.getLsbD 0
/-- ve.mode.SAT. -/
def VeState.sat (ve : VeState) : Bool := ve.mode.getLsbD 1
/-- ve.mode.NZK. -/
def VeState.nzk (ve : VeState) : Nat := ve.mode.toNat / 16 % 16
/-- ve.mode.NZT. -/
def VeState.nzt (ve : VeState) : Nat := ve.mode.toNat / 256 % 4
/-- ve.mode.MMS. -/
def VeState.mms (ve : VeState) : BitVec 2 := ve.mode.extractLsb' 10 2
/-- Sets sticky flags in ve.flags (R181). -/
def VeState.raise (ve : VeState) (f : Flags) : VeState := { ve with flags := ve.flags ||| f.setWidth 64 }

/-! ## Lane functions (R199-R205) -/

/-- A lane as an F32 after the flush (R199). DEDUCED: log 30. -/
def laneF (fz : Bool) (x : Half) : FV := (value F32 x.toNat).flush fz
/-- A rounded F32 as a lane. -/
def laneR (fz sat : Bool) (v : FV) : Half × Flags := let (b, f) := round F32 fz sat v; (BitVec.ofNat 32 b, f)

/-- VFEXP2 of an operand (R201). -/
def vecExp2 (x : FV) : FV :=
  match x with
  | .inf _ => .nan true
  | .num q => if Q.lt ⟨1, 0, 1⟩ q || q.lt ⟨-1, 0, 1⟩ then .nan true else x.pow2
  | v => v.pow2
/-- VRCP of an operand (R201). -/
def vecRcp (x : FV) : FV × Flags := (FV.div (.ofInt 1) x, if x.isZero then flagDZ else 0#6)
/-- VRSQ of an operand (R201). -/
def vecRsq (x : FV) : FV × Flags :=
  match x with
  | .zero n => (.inf n, flagDZ)
  | v => (FV.div (.ofInt 1) v.sqrt, 0#6)
/-- The exponent of VSCALE: past ±600 every F32 has long overflowed or become a zero. DEDUCED: log 31. -/
def scaleBy (y : Half) : Int := max (-600) (min 600 y.toInt)

/-- One lane of a form that works lane by lane: x and y are lanes of VA and VB, d the old lane of VD. -/
def VFun.lane (f : VFun) (fz sat : Bool) (x y d : Half) : Half × Flags :=
  let fx := laneF fz x
  let fy := laneF fz y
  match f with
  | .add => laneR fz sat (fx.add fy)
  | .sub => laneR fz sat (fx.add fy.negate)
  | .mul => laneR fz sat (fx.mul fy)
  | .fma => laneR fz sat ((fx.mul fy).add (laneF fz d))
  | .min => laneR false false (FV.pick false fx fy)
  | .max => laneR false false (FV.pick true fx fy)
  | .abs => (x &&& 0x7FFFFFFF#32, 0#6)
  | .neg => (x ^^^ 0x80000000#32, 0#6)
  | .rnd m =>
    let (r, nx) := roundint fx m
    let (b, fl) := laneR fz sat r
    (b, fl ||| nx)
  | .exp2 => laneR fz sat (vecExp2 fx)
  | .scale => laneR fz sat (fx.scale (scaleBy y))
  | .rcp =>
    let (r, dz) := vecRcp fx
    let (b, fl) := laneR fz sat r
    (b, fl ||| dz)
  | .rsq =>
    let (r, dz) := vecRsq fx
    let (b, fl) := laneR fz sat r
    (b, fl ||| dz)
  | .iadd => (x + y, 0#6)
  | .isub => (x - y, 0#6)
  | .imul => (x * y, 0#6)
  | .and => (x &&& y, 0#6)
  | .or => (x ||| y, 0#6)
  | .xor => (x ^^^ y, 0#6)
  | .shl => (x <<< (y.toNat % 32), 0#6)
  | .shr => (x >>> (y.toNat % 32), 0#6)
  | .shrS => (x.sshiftRight (y.toNat % 32), 0#6)
  | .f2i => let (n, fl) := Sys2Proof.f2i fx 0 (-2147483648) 2147483647; (BitVec.ofInt 32 n, fl)
  | .f2iRz => let (n, fl) := Sys2Proof.f2i fx 1 (-2147483648) 2147483647; (BitVec.ofInt 32 n, fl)
  | .i2f => laneR fz sat (.ofInt x.toInt)
  | .f2b => let (b, fl) := round BF16 fz sat fx; (BitVec.ofNat 32 b, fl)
  | .b2f => laneR false false ((value BF16 (x.toNat % 65536)).flush fz)
  | .f2h => let (b, fl) := round F16 fz sat fx; (BitVec.ofNat 32 b, fl)
  | .h2f => laneR false false ((value F16 (x.toNat % 65536)).flush fz)
  | .rsum => (d, 0#6)
  | .nzc => (d, 0#6)
  | .nzb => (d, 0#6)
  | .perm => (d, 0#6)

/-! ## Whole registers (R202, R206, R207) -/

/-- One level of VRSUM's tree (R84). -/
def sumPairs (fz sat : Bool) : List FV → List FV × Flags
  | x :: y :: rest =>
    let (b, f) := round F32 fz sat (x.add y)
    let (l, g) := sumPairs fz sat rest
    (value F32 b :: l, f ||| g)
  | _ => ([], 0#6)

/-- The tree sum of R84. DEDUCED: log 30. -/
def treeSum (fz sat : Bool) (xs : List FV) : Half × Flags :=
  let (a, f0) := sumPairs fz sat xs
  let (b, f1) := sumPairs fz sat a
  let (c, f2) := sumPairs fz sat b
  match c with
  | [x, y] => let (r, f3) := round F32 fz sat (x.add y); (BitVec.ofNat 32 r, f0 ||| f1 ||| f2 ||| f3)
  | _ => (0#32, f0 ||| f1 ||| f2)

/-- The numbers of the nonzero codes in active lanes (R206). -/
def VeState.nonzero (ve : VeState) (tab : Nat → DTable) (a : List Half) (act : Nat → Bool) : List Nat :=
  let bits := nzBits ve.nzk
  let w := 32 / bits
  (List.range 16).flatMap (fun i =>
    if act i then
      (List.range w).filterMap (fun p =>
        if nzCode ve.nzk (tab ve.nzt) ((a.getD i 0#32).toNat / 2 ^ (bits * p) % 2 ^ bits) then some (i * w + p) else none)
    else [])

/-- Sixteen lanes of which only the first is not +0. -/
def laneZero (x : Half) : List Half := x :: List.replicate 15 0#32

/-- The effect of a V form on the engine (R198-R207). -/
def VeState.run (ve : VeState) (tab : Nat → DTable) (f : VFun) (d a b : BitVec 4) (m : BitVec 2) : VeState :=
  let xs := ve.reg a
  let ys := ve.reg b
  let ds := ve.reg d
  let act := ve.active m
  match f with
  | .rsum =>
    let (r, fl) := treeSum ve.fz ve.sat ((List.range 16).map (fun i =>
      if act i then laneF ve.fz (xs.getD i 0#32) else .zero true))
    (ve.setReg d (laneZero r)).raise fl
  | .nzc => ve.setReg d (laneZero (BitVec.ofNat 32 (ve.nonzero tab xs act).length))
  | .nzb =>
    let cs := ve.nonzero tab xs act
    ve.setReg d ((List.range 16).map (fun i =>
      BitVec.ofNat 32 ((cs.filter (fun c => decide (c / 32 = i))).foldl (fun n c => n + 2 ^ (c % 32)) 0)))
  | .perm =>
    ve.setReg d ((List.range 16).map (fun i =>
      if act i then xs.getD ((ys.getD i 0#32).toNat % 16) 0#32 else ds.getD i 0#32))
  | f =>
    let out := (List.range 16).map (fun i =>
      if act i then f.lane ve.fz ve.sat (xs.getD i 0#32) (ys.getD i 0#32) (ds.getD i 0#32) else (ds.getD i 0#32, 0#6))
    (ve.setReg d (out.map (·.1))).raise (out.foldl (fun n o => n ||| o.2) 0#6)

/-- The condition of VCMP number `c`, in the order of R198. -/
def vecCond (c : Nat) : FCond :=
  match c with
  | 0 => .eq
  | 1 => .ne
  | 2 => .lt
  | 3 => .le
  | 4 => .gt
  | 5 => .ge
  | 6 => .un
  | _ => .or

/-- VCMP (R202). -/
def VeState.compare (ve : VeState) (c : Nat) (d : BitVec 2) (a b : BitVec 4) (m : BitVec 2) : VeState :=
  let xs := ve.reg a
  let ys := ve.reg b
  let old := ve.mask d
  let out := (List.range 16).map (fun i =>
    if ve.active m i then
      let x := laneF ve.fz (xs.getD i 0#32)
      let y := laneF ve.fz (ys.getD i 0#32)
      ((vecCond c).holds x y, cmpFlags x y)
    else (old.getLsbD i, 0#6))
  let new := BitVec.ofNat 16 (out.foldr (fun o n => (if o.1 then 1 else 0) + 2 * n) 0)
  (ve.setMask d new).raise (out.foldl (fun n o => n ||| o.2) 0#6)

/-- VSEL (R203). -/
def VeState.select (ve : VeState) (d a b : BitVec 4) (m : BitVec 2) : VeState :=
  let xs := ve.reg a
  let ys := ve.reg b
  ve.setReg d ((List.range 16).map (fun i => if (ve.mask m).getLsbD i then xs.getD i 0#32 else ys.getD i 0#32))

/-- VSLIDE by k (R207). -/
def VeState.slide (ve : VeState) (k d a b : BitVec 4) (m : BitVec 2) : VeState :=
  let xs := ve.reg a ++ ve.reg b
  let ds := ve.reg d
  ve.setReg d ((List.range 16).map (fun i => if ve.active m i then xs.getD (i + k.toNat) 0#32 else ds.getD i 0#32))

/-! ## Memory forms (R189-R197) -/

/-- Bytes of one element. -/
def elemBytes (code : Nat) : Nat := max 1 (elemBits code / 8)
/-- Whether a code is H4. -/
def isH4 (code : Nat) : Bool := decide (8 ≤ code) && decide (code ≤ 11)
/-- The offset of element `i` from the first (R190). -/
def elemOffset (code i : Nat) : Nat := i * elemBits code / 8
/-- The address an offset leads to. -/
def addrPlus (a : Word) (off : Int) : Nat := ((a.toNat % 2 ^ 48 : Nat) + off).toNat

/-- The code of one element, read by a command. -/
def State.engElem (s : State) (core : Nat) (c : Cmd) (hard : Bool) (code i va : Nat) : Except EngStop Nat :=
  match s.engRead core c hard va (elemBytes code) with
  | .error e => .error e
  | .ok bs =>
    let n := leValue bs
    .ok (if isH4 code then n / 16 ^ (i % 2) % 16 else n)

/-- What a load writes to a lane (R191). -/
def laneLoad (tab : Nat → DTable) (code : Nat) (fz : Bool) (raw : Nat) : Half × Flags :=
  if code < 2 then (BitVec.ofNat 32 raw, 0#6)
  else let (v, f) := elemF32 fz (decodeElem code tab raw); (BitVec.ofNat 32 v, f)

/-- Loads the active lanes: each from its address, by a rule for its code; the others keep their value. -/
def loadLanes (read : Nat → Except EngStop Nat) (conv : Nat → Nat → Half × Flags) (act : Nat → Bool) (old : List Half) :
    List Nat → Except EngStop (List Half × Flags)
  | [] => .ok ([], 0#6)
  | i :: is =>
    let one : Except EngStop (Half × Flags) :=
      if act i then
        match read i with
        | .error e => .error e
        | .ok raw => .ok (conv i raw)
      else .ok (old.getD i 0#32, 0#6)
    match one with
    | .error e => .error e
    | .ok (v, f) =>
      match loadLanes read conv act old is with
      | .error e => .error e
      | .ok (vs, g) => .ok (v :: vs, f ||| g)

/-- A vector load: the register and flags it leaves. -/
def VeState.loaded (ve : VeState) (v : BitVec 4) : Except EngStop (List Half × Flags) → Except EngStop EngResult
  | .error e => .error e
  | .ok (l, f) => .ok { EngResult.nothing with ve := some ((ve.setReg v l).raise f) }

/-- The block of lane `i` (R194). -/
def VeState.block (ve : VeState) (n i : Nat) : Nat := (ve.boff.toNat + i) / 2 ^ n % 16

/-- The scales of a run as a load takes them: a malformed run gives the NaN scale and NV (R78). -/
def loadScales (run : List Byte) : List Nat × Flags :=
  match runScales run with
  | some es => (es, 0#6)
  | none => (List.replicate 16 255, flagNV)

/-- The code a store writes for a value, and its flags (R193). -/
def laneStore (tab : Nat → DTable) (code : Nat) (fz sat : Bool) (x : Half) : Nat × Flags :=
  if code < 2 then (x.toNat, 0#6) else encodeElem code tab fz sat (value F32 x.toNat)

/-- The pieces that a store writes: for each element or, for H4, each pair with an active lane, its address, its bytes, its
flags. The other nibble of a half-active pair is read, and when it cannot be, the piece is the stop of that lane. -/
def State.storePieces (s : State) (core : Nat) (c : Cmd) (hard : Bool) (code : Nat) (act : Nat → Bool)
    (enc : Nat → Nat × Flags) : List Nat → List (Except EngStop (Nat × List Byte × Flags))
  | [] => []
  | i :: is =>
    let va := addrPlus c.a (elemOffset code i)
    let one : List (Except EngStop (Nat × List Byte × Flags)) :=
      if isH4 code then
        if i % 2 = 1 || !(act i || act (i + 1)) then []
        else
          let old : Except EngStop Nat :=
            if act i && act (i + 1) then .ok 0 else (s.engRead core c hard va 1).map leValue
          [old.map (fun o =>
            let lo := if act i then enc i else (o % 16, 0#6)
            let hi := if act (i + 1) then enc (i + 1) else (o / 16, 0#6)
            (va, [BitVec.ofNat 8 (lo.1 + 16 * hi.1)], lo.2 ||| hi.2))]
      else if act i then let (b, f) := enc i; [.ok (va, leBytes b (elemBytes code), f)]
      else []
    one ++ s.storePieces core c hard code act enc is

/-- Writes pieces in order until one cannot be (R187): the entries and flags of those before it, and the stop. DEDUCED: log 29. -/
def State.writePieces (s : State) (core : Nat) (c : Cmd) (hard : Bool) :
    List (Except EngStop (Nat × List Byte × Flags)) → List WEntry × Flags × Option EngStop
  | [] => ([], 0#6, none)
  | .error e :: _ => ([], 0#6, some e)
  | .ok (va, bs, f) :: rest =>
    match s.engWrite core c hard va bs with
    | .error e => ([], 0#6, some e)
    | .ok es =>
      let (more, g, e) := s.writePieces core c hard rest
      (es ++ more, f ||| g, e)

/-- What a store leaves: its entries, and a fault at the first lane that cannot be written. -/
def VeState.stored (ve : VeState) (fl : Flags) (last : List WEntry) :
    List WEntry × Flags × Option EngStop → Except EngStop EngResult
  | (es, f, none) => .ok { EngResult.nothing with writes := es ++ last, ve := some (ve.raise (f ||| fl)) }
  | (_, _, some (.page va)) => .error (.page va)
  | (es, f, some (.fault k va)) =>
    .ok { EngResult.nothing with writes := es, ve := some (ve.raise f), fault := some (k, engineFval 0 k va) }

/-- The new scales of VSTB (R195), block by block, each from its active lanes and the scale before it. DEDUCED: log 29. -/
def blockScales (code : Nat) (tab : Nat → DTable) (lanes : Nat → List FV) : List Nat → List Nat → Nat → List Nat
  | [], _, _ => []
  | k :: ks, old, prev =>
    let xs := lanes k
    let e := if xs.isEmpty then old.getD k 127 else chooseScale code tab prev xs
    e :: blockScales code tab lanes ks old e

/-- The address of a VLDX lane (R192): none where R149 steps 3 to 5 fail. -/
def VeState.laneAddr (ve : VeState) (v : BitVec 4) (a : Word) (i : Nat) : Option Nat :=
  let z := elemBytes (fmtOf a)
  (checkAddr a (((ve.reg v).getD i 0#32).toInt * z) z false).toOption

/-- A memory command at execution (R191-R196). VSTB keeps the old scale of a block that no active lane reaches; where that is the zero or the NaN
scale, which the encoder never writes (R79), some other scale stands there. DEDUCED: log 29, 123. DESIGN CHOICE: log 133. -/
def State.vecMemory (s : State) (core : Nat) (c : Cmd) (hard : Bool) : Except EngStop EngResult :=
  let ve := (s.core core).eng.ve
  let tab := (s.core core).tab
  let code := fmtOf c.a
  let act := ve.active ve.mms
  let load (v : BitVec 4) (addr : Nat → Nat) : Except EngStop EngResult :=
    ve.loaded v (loadLanes (fun i => s.engElem core c hard code i (addr i)) (fun _ raw => laneLoad tab code ve.fz raw) act
      (ve.reg v) (List.range 16))
  match c.op with
  | .vld v => load v (fun i => addrPlus c.a (elemOffset code i))
  | .vlds v => load v (fun i => addrPlus c.a (i * c.b.toInt))
  | .vldx v =>
    let one (i : Nat) : Option Nat :=
      match ve.laneAddr v c.a i with
      | none => none
      | some va =>
        match s.coreSpot core c.ctx va .rd with
        | .bad _ => none
        | _ => some va
    let lost := (List.range 16).any (fun i => act i && (one i).isNone)
    let out := loadLanes
      (fun i => match one i with
        | some va => s.engElem core c hard code i va
        | none => .ok 0)
      (fun i raw => if (one i).isNone then (0#32, 0#6) else laneLoad tab code ve.fz raw) act (ve.reg v) (List.range 16)
    ve.loaded v (out.map (fun o => (o.1, if lost then o.2 ||| flagNV else o.2)))
  | .vldb v =>
    match s.engRead core c hard (c.b.toNat % 2 ^ 48) 16 with
    | .error e => .error e
    | .ok run =>
      let (es, nv) := loadScales run
      let conv (i raw : Nat) : Half × Flags :=
        laneR ve.fz ve.sat ((scaleMul (decodeElem code tab raw) (es.getD (ve.block (blkOf c.a) i) 255)).flush ve.fz)
      let out := loadLanes (fun i => s.engElem core c hard code i (addrPlus c.a (elemOffset code i))) conv act (ve.reg v)
        (List.range 16)
      ve.loaded v (out.map (fun o => (o.1, o.2 ||| nv)))
  | .vgets v =>
    match s.engRead core c hard (c.a.toNat % 2 ^ 48) 16 with
    | .error e => .error e
    | .ok run =>
      let (es, nv) := loadScales run
      ve.loaded v (.ok ((List.range 16).map (fun i => BitVec.ofNat 32 (es.getD i 255)), nv))
  | .vst v =>
    let xs := ve.reg v
    ve.stored 0#6 [] (s.writePieces core c hard
      (s.storePieces core c hard code act (fun i => laneStore tab code ve.fz ve.sat (xs.getD i 0#32)) (List.range 16)))
  | .vstb v =>
    let xs := (ve.reg v).map (fun x => value F32 x.toNat)
    let x (i : Nat) : FV := xs.getD i (.zero false)
    let n := blkOf c.a
    let at' := c.b.toNat % 2 ^ 48
    match s.engRead core c hard at' 16 with
    | .error e => .error e
    | .ok run =>
      -- the encoder never writes the zero scale or the NaN scale (R79)
      let old := ((runScales run).getD (List.replicate 16 127)).zipIdx.map (fun e =>
        if e.1 = 0 ∨ e.1 = 255 then 1 + Config.spareScale e.2 e.1 % 254 else e.1)
      let lanes (k : Nat) : List FV :=
        ((List.range 16).filter (fun i => act i && decide (ve.block n i = k))).map x
      let es := blockScales code tab lanes (List.range 16) old 127
      let (bytes, fin, sc) := encodeRun es
      let enc (i : Nat) : Nat × Flags :=
        encodeElem code tab ve.fz ve.sat (scaleDiv (x i) (fin.getD (ve.block n i) 127))
      match s.engWrite core c hard at' bytes with
      | .error e => .error e
      | .ok last =>
        ve.stored (if sc then flagSC else 0#6) last
          (s.writePieces core c hard (s.storePieces core c hard code act enc (List.range 16)))
  | .vputs v =>
    let es := (ve.reg v).map (fun x => x.toNat % 256)
    let odd (e : Nat) : Bool := decide (e = 0) || decide (e = 255)
    let (bytes, _, sc) := encodeRun (es.map (fun e => if odd e then 127 else e))
    let fl := (if es.any odd then flagNV else 0#6) ||| (if sc then flagSC else 0#6)
    match s.engWrite core c hard (c.a.toNat % 2 ^ 48) bytes with
    | .error e => .error e
    | .ok es => .ok { EngResult.nothing with writes := es, ve := some (ve.raise fl) }
  | _ => .ok .nothing

/-- What a vector command does when it executes. -/
def State.vecRun (s : State) (core : Nat) (c : Cmd) (hard : Bool) : Except EngStop EngResult :=
  let ve := (s.core core).eng.ve
  let tab := (s.core core).tab
  let leaves (v : VeState) : Except EngStop EngResult := .ok { EngResult.nothing with ve := some v }
  match c.op with
  | .vfun f d a b m => leaves (ve.run tab f d a b m)
  | .vcmp k d a b m => leaves (ve.compare k d a b m)
  | .vsel d a b m => leaves (ve.select d a b m)
  | .vslide k d a b m => leaves (ve.slide k d a b m)
  | .vcfg r =>
    leaves (match r.toNat with
      | 0 => { ve with mode := c.a }
      | 1 => { ve with flags := c.a &&& 0x3F#64 }
      | 2 => { ve with boff := c.a &&& 0xFFFF#64 }
      | _ => { ve with m0 := c.a.extractLsb' 0 16, m1 := c.a.extractLsb' 16 16, m2 := c.a.extractLsb' 32 16
                       m3 := c.a.extractLsb' 48 16 })
  | .vget r =>
    .ok { EngResult.nothing with scalar := some (match r.toNat with
      | 0 => ve.mode
      | 1 => ve.flags
      | 2 => ve.boff
      | 3 => ve.masks
      | _ => 0#64) }
  | _ => s.vecMemory core c hard

/-! ## Issue -/

/-- A V form: it enters the queue, with nothing to check. -/
def Act.vecForm (op : EngOp) (g : BitVec 5) : Act Unit :=
  Act.engineForm .vector [] [] g (Act.enqueue .vector op 0 0#64 0#64 [] [])

/-- Addresses that a command will reach, checked at issue (R190, R305). -/
def Act.spanCheck (a : Word) (unit : Nat) (offs : List Int) : Act (List Nat) := do
  match offs with
  | [] => pure []
  | o :: os =>
    match checkAddr a o unit false with
    | .error (k, v) => Act.fault k v
    | .ok n => do
      let ns ← Act.spanCheck a unit os
      pure (n :: ns)

/-- Addresses of cores that do not serve the context, or of devices that cannot be reached, are a remote-access fault (R305), for lanes
that the mask leaves out too, as in steps 3 to 5 (R190). DEDUCED: log 122. -/
def Act.spanServed (p : Perm) : List Nat → Act Unit
  | [] => pure ()
  | n :: ns => do
    let t ← Act.me
    let s ← get
    match s.coreSpot t.core t.attr.ctx n p with
    | .bad k => Act.fault k (BitVec.ofNat 64 n)
    | _ => Act.spanServed p ns

/-- Checks a scale-run pointer (R190). -/
def Act.runPointer (p : Perm) (a : Word) : Act (List Nat) := do
  let ns ← Act.spanCheck a 16 [0]
  if fmtOf a ≠ 0 then Act.fault 0x03 a
  else do
    Act.spanServed p ns
    pure (spanLines 16 ns)

/-- A vector load or store of lanes (R190): `codes` says which format codes and block lengths the form takes. DEDUCED: log 34. -/
def Act.vecLanes (op : EngOp) (store : Bool) (stride : Bool) (codes : Nat → Nat → Bool) (a : BitVec 5)
    (b : Option (BitVec 5)) (g : BitVec 5) : Act Unit :=
  Act.engineForm .vector (a :: b.toList) (a :: b.toList) g (do
    let x ← Act.read [] a
    let y ← match b with
      | some b => Act.read [a] b
      | none => pure 0#64
    let code := fmtOf x
    let z := elemBytes code
    let p : Perm := if store then .wr else .rd
    let ns ← Act.spanCheck x z ((List.range 16).map (fun (i : Nat) => if stride then (i : Int) * y.toInt else (elemOffset code i : Int)))
    if !codes code (blkOf x) then Act.fault 0x03 x
    else do
      Act.spanServed p ns
      let lines := spanLines z ns
      let run ← match b with
        | some _ => if stride then pure [] else Act.runPointer p y
        | none => pure []
      -- a store reads the nibbles that it keeps, and the old run
      let kept := if isH4 code then lines else []
      if store then Act.enqueue .vector op 0 x y (lines ++ run).eraseDups (kept ++ run).eraseDups
      else Act.enqueue .vector op 0 x y [] (lines ++ run).eraseDups)

/-- VADD (R199). -/
def execVadd (d a b : BitVec 4) (m : BitVec 2) (g : BitVec 5) (s : State) : Host.Outcome State Fault Refusal :=
  Act.go (Act.vecForm (.vfun .add d a b m) g) s
/-- VSUB. -/
def execVsub (d a b : BitVec 4) (m : BitVec 2) (g : BitVec 5) (s : State) : Host.Outcome State Fault Refusal :=
  Act.go (Act.vecForm (.vfun .sub d a b m) g) s
/-- VMUL. -/
def execVmul (d a b : BitVec 4) (m : BitVec 2) (g : BitVec 5) (s : State) : Host.Outcome State Fault Refusal :=
  Act.go (Act.vecForm (.vfun .mul d a b m) g) s
/-- VFMA: one rounding. -/
def execVfma (d a b : BitVec 4) (m : BitVec 2) (g : BitVec 5) (s : State) : Host.Outcome State Fault Refusal :=
  Act.go (Act.vecForm (.vfun .fma d a b m) g) s
/-- VMIN. -/
def execVmin (d a b : BitVec 4) (m : BitVec 2) (g : BitVec 5) (s : State) : Host.Outcome State Fault Refusal :=
  Act.go (Act.vecForm (.vfun .min d a b m) g) s
/-- VMAX. -/
def execVmax (d a b : BitVec 4) (m : BitVec 2) (g : BitVec 5) (s : State) : Host.Outcome State Fault Refusal :=
  Act.go (Act.vecForm (.vfun .max d a b m) g) s
/-- VABS (R200). -/
def execVabs (d a : BitVec 4) (m : BitVec 2) (g : BitVec 5) (s : State) : Host.Outcome State Fault Refusal :=
  Act.go (Act.vecForm (.vfun .abs d a 0#4 m) g) s
/-- VNEG. -/
def execVneg (d a : BitVec 4) (m : BitVec 2) (g : BitVec 5) (s : State) : Host.Outcome State Fault Refusal :=
  Act.go (Act.vecForm (.vfun .neg d a 0#4 m) g) s
/-- VRND.rne (R201). -/
def execVrndRne (d a : BitVec 4) (m : BitVec 2) (g : BitVec 5) (s : State) : Host.Outcome State Fault Refusal :=
  Act.go (Act.vecForm (.vfun (.rnd 0) d a 0#4 m) g) s
/-- VRND.rz. -/
def execVrndRz (d a : BitVec 4) (m : BitVec 2) (g : BitVec 5) (s : State) : Host.Outcome State Fault Refusal :=
  Act.go (Act.vecForm (.vfun (.rnd 1) d a 0#4 m) g) s
/-- VRND.rd. -/
def execVrndRd (d a : BitVec 4) (m : BitVec 2) (g : BitVec 5) (s : State) : Host.Outcome State Fault Refusal :=
  Act.go (Act.vecForm (.vfun (.rnd 2) d a 0#4 m) g) s
/-- VRND.ru. -/
def execVrndRu (d a : BitVec 4) (m : BitVec 2) (g : BitVec 5) (s : State) : Host.Outcome State Fault Refusal :=
  Act.go (Act.vecForm (.vfun (.rnd 3) d a 0#4 m) g) s
/-- VFEXP2. -/
def execVfexp2 (d a : BitVec 4) (m : BitVec 2) (g : BitVec 5) (s : State) : Host.Outcome State Fault Refusal :=
  Act.go (Act.vecForm (.vfun .exp2 d a 0#4 m) g) s
/-- VSCALE. -/
def execVscale (d a b : BitVec 4) (m : BitVec 2) (g : BitVec 5) (s : State) : Host.Outcome State Fault Refusal :=
  Act.go (Act.vecForm (.vfun .scale d a b m) g) s
/-- VRCP. -/
def execVrcp (d a : BitVec 4) (m : BitVec 2) (g : BitVec 5) (s : State) : Host.Outcome State Fault Refusal :=
  Act.go (Act.vecForm (.vfun .rcp d a 0#4 m) g) s
/-- VRSQ. -/
def execVrsq (d a : BitVec 4) (m : BitVec 2) (g : BitVec 5) (s : State) : Host.Outcome State Fault Refusal :=
  Act.go (Act.vecForm (.vfun .rsq d a 0#4 m) g) s
/-- VCMP.eq (R202). -/
def execVcmpEq (d : BitVec 2) (a b : BitVec 4) (m : BitVec 2) (g : BitVec 5) (s : State) :
    Host.Outcome State Fault Refusal :=
  Act.go (Act.vecForm (.vcmp 0 d a b m) g) s
/-- VCMP.ne (R202). -/
def execVcmpNe (d : BitVec 2) (a b : BitVec 4) (m : BitVec 2) (g : BitVec 5) (s : State) :
    Host.Outcome State Fault Refusal :=
  Act.go (Act.vecForm (.vcmp 1 d a b m) g) s
/-- VCMP.lt (R202). -/
def execVcmpLt (d : BitVec 2) (a b : BitVec 4) (m : BitVec 2) (g : BitVec 5) (s : State) :
    Host.Outcome State Fault Refusal :=
  Act.go (Act.vecForm (.vcmp 2 d a b m) g) s
/-- VCMP.le (R202). -/
def execVcmpLe (d : BitVec 2) (a b : BitVec 4) (m : BitVec 2) (g : BitVec 5) (s : State) :
    Host.Outcome State Fault Refusal :=
  Act.go (Act.vecForm (.vcmp 3 d a b m) g) s
/-- VCMP.gt (R202). -/
def execVcmpGt (d : BitVec 2) (a b : BitVec 4) (m : BitVec 2) (g : BitVec 5) (s : State) :
    Host.Outcome State Fault Refusal :=
  Act.go (Act.vecForm (.vcmp 4 d a b m) g) s
/-- VCMP.ge (R202). -/
def execVcmpGe (d : BitVec 2) (a b : BitVec 4) (m : BitVec 2) (g : BitVec 5) (s : State) :
    Host.Outcome State Fault Refusal :=
  Act.go (Act.vecForm (.vcmp 5 d a b m) g) s
/-- VCMP.un (R202). -/
def execVcmpUn (d : BitVec 2) (a b : BitVec 4) (m : BitVec 2) (g : BitVec 5) (s : State) :
    Host.Outcome State Fault Refusal :=
  Act.go (Act.vecForm (.vcmp 6 d a b m) g) s
/-- VCMP.or (R202). -/
def execVcmpOr (d : BitVec 2) (a b : BitVec 4) (m : BitVec 2) (g : BitVec 5) (s : State) :
    Host.Outcome State Fault Refusal :=
  Act.go (Act.vecForm (.vcmp 7 d a b m) g) s
/-- VSEL (R203). -/
def execVsel (d a b : BitVec 4) (m : BitVec 2) (g : BitVec 5) (s : State) : Host.Outcome State Fault Refusal :=
  Act.go (Act.vecForm (.vsel d a b m) g) s
/-- VIADD (R204). -/
def execViadd (d a b : BitVec 4) (m : BitVec 2) (g : BitVec 5) (s : State) : Host.Outcome State Fault Refusal :=
  Act.go (Act.vecForm (.vfun .iadd d a b m) g) s
/-- VISUB. -/
def execVisub (d a b : BitVec 4) (m : BitVec 2) (g : BitVec 5) (s : State) : Host.Outcome State Fault Refusal :=
  Act.go (Act.vecForm (.vfun .isub d a b m) g) s
/-- VIMUL. -/
def execVimul (d a b : BitVec 4) (m : BitVec 2) (g : BitVec 5) (s : State) : Host.Outcome State Fault Refusal :=
  Act.go (Act.vecForm (.vfun .imul d a b m) g) s
/-- VAND. -/
def execVand (d a b : BitVec 4) (m : BitVec 2) (g : BitVec 5) (s : State) : Host.Outcome State Fault Refusal :=
  Act.go (Act.vecForm (.vfun .and d a b m) g) s
/-- VOR. -/
def execVor (d a b : BitVec 4) (m : BitVec 2) (g : BitVec 5) (s : State) : Host.Outcome State Fault Refusal :=
  Act.go (Act.vecForm (.vfun .or d a b m) g) s
/-- VXOR. -/
def execVxor (d a b : BitVec 4) (m : BitVec 2) (g : BitVec 5) (s : State) : Host.Outcome State Fault Refusal :=
  Act.go (Act.vecForm (.vfun .xor d a b m) g) s
/-- VSHL. -/
def execVshl (d a b : BitVec 4) (m : BitVec 2) (g : BitVec 5) (s : State) : Host.Outcome State Fault Refusal :=
  Act.go (Act.vecForm (.vfun .shl d a b m) g) s
/-- VSHR. -/
def execVshr (d a b : BitVec 4) (m : BitVec 2) (g : BitVec 5) (s : State) : Host.Outcome State Fault Refusal :=
  Act.go (Act.vecForm (.vfun .shr d a b m) g) s
/-- VSHR.s. -/
def execVshrS (d a b : BitVec 4) (m : BitVec 2) (g : BitVec 5) (s : State) : Host.Outcome State Fault Refusal :=
  Act.go (Act.vecForm (.vfun .shrS d a b m) g) s
/-- VRSUM (R206, R84). -/
def execVrsum (d a : BitVec 4) (m : BitVec 2) (g : BitVec 5) (s : State) : Host.Outcome State Fault Refusal :=
  Act.go (Act.vecForm (.vfun .rsum d a 0#4 m) g) s
/-- VNZC. -/
def execVnzc (d a : BitVec 4) (m : BitVec 2) (g : BitVec 5) (s : State) : Host.Outcome State Fault Refusal :=
  Act.go (Act.vecForm (.vfun .nzc d a 0#4 m) g) s
/-- VNZB. -/
def execVnzb (d a : BitVec 4) (m : BitVec 2) (g : BitVec 5) (s : State) : Host.Outcome State Fault Refusal :=
  Act.go (Act.vecForm (.vfun .nzb d a 0#4 m) g) s
/-- VPERM (R207). -/
def execVperm (d a b : BitVec 4) (m : BitVec 2) (g : BitVec 5) (s : State) : Host.Outcome State Fault Refusal :=
  Act.go (Act.vecForm (.vfun .perm d a b m) g) s
/-- VSLIDE (R207). -/
def execVslide (k d a b : BitVec 4) (m : BitVec 2) (g : BitVec 5) (s : State) : Host.Outcome State Fault Refusal :=
  Act.go (Act.vecForm (.vslide k d a b m) g) s
/-- VCVT.f2i (R205). -/
def execVcvtF2i (d a : BitVec 4) (m : BitVec 2) (g : BitVec 5) (s : State) : Host.Outcome State Fault Refusal :=
  Act.go (Act.vecForm (.vfun .f2i d a 0#4 m) g) s
/-- VCVT.f2i.rz. -/
def execVcvtF2iRz (d a : BitVec 4) (m : BitVec 2) (g : BitVec 5) (s : State) : Host.Outcome State Fault Refusal :=
  Act.go (Act.vecForm (.vfun .f2iRz d a 0#4 m) g) s
/-- VCVT.i2f. -/
def execVcvtI2f (d a : BitVec 4) (m : BitVec 2) (g : BitVec 5) (s : State) : Host.Outcome State Fault Refusal :=
  Act.go (Act.vecForm (.vfun .i2f d a 0#4 m) g) s
/-- VCVT.f2b. -/
def execVcvtF2b (d a : BitVec 4) (m : BitVec 2) (g : BitVec 5) (s : State) : Host.Outcome State Fault Refusal :=
  Act.go (Act.vecForm (.vfun .f2b d a 0#4 m) g) s
/-- VCVT.b2f. -/
def execVcvtB2f (d a : BitVec 4) (m : BitVec 2) (g : BitVec 5) (s : State) : Host.Outcome State Fault Refusal :=
  Act.go (Act.vecForm (.vfun .b2f d a 0#4 m) g) s
/-- VCVT.f2h. -/
def execVcvtF2h (d a : BitVec 4) (m : BitVec 2) (g : BitVec 5) (s : State) : Host.Outcome State Fault Refusal :=
  Act.go (Act.vecForm (.vfun .f2h d a 0#4 m) g) s
/-- VCVT.h2f. -/
def execVcvtH2f (d a : BitVec 4) (m : BitVec 2) (g : BitVec 5) (s : State) : Host.Outcome State Fault Refusal :=
  Act.go (Act.vecForm (.vfun .h2f d a 0#4 m) g) s
/-- VLD (R190, R191). -/
def execVld (v : BitVec 4) (a g : BitVec 5) (s : State) : Host.Outcome State Fault Refusal :=
  Act.go (Act.vecLanes (.vld v) false false (fun _ _ => true) a none g) s
/-- VST (R190, R193, R197). -/
def execVst (v : BitVec 4) (a g : BitVec 5) (s : State) : Host.Outcome State Fault Refusal :=
  Act.go (Act.vecLanes (.vst v) true false (fun _ _ => true) a none g) s
/-- VLDS: signed byte stride (R190). -/
def execVlds (v : BitVec 4) (a b g : BitVec 5) (s : State) : Host.Outcome State Fault Refusal :=
  Act.go (Act.vecLanes (.vlds v) false true (fun c _ => !isH4 c) a (some b) g) s
/-- The vector engine as a command admitted now will find it: as the commands before it leave it, or none where that is not known before
they have run (R184). DEDUCED: log 113. -/
def State.veAhead (s : State) (core : Nat) : Option VeState :=
  match ((s.core core).vq).getLast? with
  | none => some (s.core core).eng.ve
  | some c =>
    match c.result with
    | some r => some (r.ve.getD (s.core core).eng.ve)
    | none =>
      if s.engWaits core .vector c || decide (1 < (s.core core).vq.length) then none
      else
        match s.vecRun core c false with
        | .ok r => some (r.ve.getD (s.core core).eng.ve)
        | .error _ => none
/-- VLDX: its lanes' addresses are checked at execution (R192). The lines it will read are kept for it from its admission on, which waits
until the command ahead of it lets them be known. DEDUCED: log 113. -/
def execVldx (v : BitVec 4) (a g : BitVec 5) (s : State) : Host.Outcome State Fault Refusal :=
  Act.go (Act.engineForm .vector [a] [a] g (do
    let x ← Act.read [] a
    if badTag x || isRef x || isH4 (fmtOf x) then Act.fault 0x03 x
    else do
      let t ← Act.me
      let s ← get
      match s.veAhead t.core with
      | none => do
        modify (fun s => s.modCore t.core (fun q => q.setWait .vector (s.cur :: q.qwait .vector)))
        Act.park (.queue .vector)
      | some ve =>
        let vas := ((List.range 16).filter (ve.active ve.mms)).filterMap (ve.laneAddr v x)
        Act.enqueue .vector (.vldx v) 0 x 0#64 [] (spanLines (elemBytes (fmtOf x)) vas))) s
/-- VLDB (R190, R194). -/
def execVldb (v : BitVec 4) (a b g : BitVec 5) (s : State) : Host.Outcome State Fault Refusal :=
  Act.go (Act.vecLanes (.vldb v) false false (fun c n => decide (c ≠ 0) && decide (1 ≤ n) && decide (n ≤ 12)) a (some b) g) s
/-- VSTB (R190, R195). -/
def execVstb (v : BitVec 4) (a b g : BitVec 5) (s : State) : Host.Outcome State Fault Refusal :=
  Act.go (Act.vecLanes (.vstb v) true false (fun c n => decide (c ≠ 0) && decide (1 ≤ n) && decide (n ≤ 4)) a (some b) g) s
/-- VPUTS (R196). -/
def execVputs (v : BitVec 4) (a g : BitVec 5) (s : State) : Host.Outcome State Fault Refusal :=
  Act.go (Act.engineForm .vector [a] [a] g (do
    let x ← Act.read [] a
    let lines ← Act.runPointer .wr x
    Act.enqueue .vector (.vputs v) 0 x 0#64 lines [])) s
/-- VGETS (R196). -/
def execVgets (v : BitVec 4) (a g : BitVec 5) (s : State) : Host.Outcome State Fault Refusal :=
  Act.go (Act.engineForm .vector [a] [a] g (do
    let x ← Act.read [] a
    let lines ← Act.runPointer .rd x
    Act.enqueue .vector (.vgets v) 0 x 0#64 [] lines)) s
/-- VCFG (R208); ve.mode is checked at issue (R182). -/
def execVcfg (r : BitVec 6) (a g : BitVec 5) (s : State) : Host.Outcome State Fault Refusal :=
  Act.go (Act.engineForm .vector [a] [a] g (do
    let x ← Act.read [] a
    if r = 0#6 && (decide (x &&& ~~~0xFF3#64 ≠ 0#64) || decide (4 < x.toNat / 16 % 16)) then Act.fault 0x0E 0#64
    else Act.enqueue .vector (.vcfg r) 0 x 0#64 [] [])) s
/-- VGET: its register awaits the value (R186, R208). -/
def execVget (r : BitVec 6) (a g : BitVec 5) (s : State) : Host.Outcome State Fault Refusal :=
  Act.go (Act.engineForm .vector [a] [] g (do
    Act.enqueue .vector (.vget r) a.toNat 0#64 0#64 [] []
    Act.awaitFill a)) s

/-! ## Start and completion -/

/-- Starts the vector engine's head command (R184). -/
def State.vecStart (s : State) (core : Nat) (hard : Bool) : State :=
  s.engStart core .vector hard (.vectorCommandCompletion core) (fun s => s.vecRun core)
/-- VECTOR_COMMAND_COMPLETION (R197). -/
def execVectorCommandCompletion (core : Nat) (s : State) : Host.Outcome State Fault Refusal :=
  .next (s.engFinish core .vector (.vectorCommandCompletion core))

end Sys2Proof.Machine
end

