-- ==== Sys2Proof/Machine/Copy.lean ====
section
/-!
DEFINITION. Meanings of the copy-engine forms (R251-R260): configuration, the checks at issue, the destination byte stream, staging,
completion words, and a stop at a box or cursor.
-/
namespace Sys2Proof.Machine

/-! ## Registers (R252, R253) -/

/-- What CGET reads below ce.done. -/
def CeCfg.getReg (c : CeCfg) (r : Nat) : Word :=
  match r with
  | 0 => c.caddr
  | 1 => c.cval
  | 2 => c.len
  | 3 => c.fill
  | 4 => c.geom
  | 5 => c.shape
  | 6 => c.sst01
  | 7 => c.sst23
  | 8 => c.dst01
  | 9 => c.dst23
  | 10 => c.idx
  | 11 => c.rows
  | _ => c.rstr
/-- What CCFG writes; ce.len keeps bits [39:0]. DEDUCED: log 100. -/
def CeCfg.putReg (c : CeCfg) (r : Nat) (a : Word) : CeCfg :=
  match r with
  | 0 => { c with caddr := a }
  | 1 => { c with cval := a }
  | 2 => { c with len := a &&& 0xFFFFFFFFFF#64 }
  | 3 => { c with fill := a }
  | 4 => { c with geom := a }
  | 5 => { c with shape := a }
  | 6 => { c with sst01 := a }
  | 7 => { c with sst23 := a }
  | 8 => { c with dst01 := a }
  | 9 => { c with dst23 := a }
  | 10 => { c with idx := a }
  | 11 => { c with rows := a }
  | _ => { c with rstr := a }
/-- Whether CCFG refuses a value (R253). -/
def ceRefuses (r : Nat) (a : Word) : Bool :=
  let n := a.toNat
  match r with
  | 4 => decide (a &&& ~~~0x11F03#64 ≠ 0#64) || decide (n / 256 % 16 < 8) || decide (12 < n / 256 % 16)
  | 5 => (List.range 4).any (fun k => decide (n / 2 ^ (16 * k) % 65536 = 0))
  | 11 => decide (n / 2 ^ 32 = 0) || decide (n % 2 ^ 32 = 0)
  | _ => false

/-- ce.geom.ESZ as bytes. -/
def CeCfg.esz (c : CeCfg) : Nat := 2 ^ (c.geom.toNat % 4)
/-- ce.geom.BOX as bytes. -/
def CeCfg.box (c : CeCfg) : Nat := 2 ^ (c.geom.toNat / 256 % 16)
/-- ce.geom.CFULL. -/
def CeCfg.cfull (c : CeCfg) : Bool := c.geom.getLsbD 12
/-- ce.geom.GKIND. -/
def CeCfg.mask (c : CeCfg) : Bool := c.geom.getLsbD 16
/-- A count of ce.shape. -/
def CeCfg.dim (c : CeCfg) (k : Nat) : Nat := c.shape.toNat / 2 ^ (16 * k) % 65536
/-- A signed half of a stride register. -/
def halfInt (w : Word) (hi : Bool) : Int := (if hi then w.extractLsb' 32 32 else w.extractLsb' 0 32).toInt
/-- A source stride of CTCOPY. -/
def CeCfg.sst (c : CeCfg) (k : Nat) : Int := halfInt (if k < 2 then c.sst01 else c.sst23) (decide (k % 2 = 1))
/-- A destination stride of CTCOPY. -/
def CeCfg.dst (c : CeCfg) (k : Nat) : Int := halfInt (if k < 2 then c.dst01 else c.dst23) (decide (k % 2 = 1))
/-- ce.rows.COUNT. -/
def CeCfg.count (c : CeCfg) : Nat := c.rows.toNat / 2 ^ 32
/-- ce.rows.RLEN. -/
def CeCfg.rlen (c : CeCfg) : Nat := c.rows.toNat % 2 ^ 32
/-- Bytes of the index list or row mask (R255). -/
def CeCfg.listBytes (c : CeCfg) : Nat := if c.mask then (c.count + 63) / 64 * 8 else 4 * c.count

/-! ## The destination byte stream (R256) -/

/-- A piece of the stream: offsets from the two pointers, and its length. -/
structure Seg where
  dst : Int
  src : Int
  len : Nat
  deriving DecidableEq, Repr

/-- The selected rows of an index list or mask (R256). -/
def selectedRows (mask : Bool) (count : Nat) (bytes : List Byte) : List Nat :=
  if mask then (List.range count).filter (fun i => (bytes.getD (i / 8) 0#8).getLsbD (i % 8))
  else (List.range count).map (fun i => leValue ((bytes.drop (4 * i)).take 4))

/-- The elements of CTCOPY, innermost dimension first. -/
def tensorSegs (c : CeCfg) : List Seg :=
  (List.range (c.dim 3)).flatMap (fun (i3 : Nat) => (List.range (c.dim 2)).flatMap (fun (i2 : Nat) =>
    (List.range (c.dim 1)).flatMap (fun (i1 : Nat) => (List.range (c.dim 0)).map (fun (i0 : Nat) =>
      let sum (st : Nat → Int) : Int := i0 * st 0 + i1 * st 1 + i2 * st 2 + i3 * st 3
      ⟨sum c.dst, sum c.sst, c.esz⟩))))

/-- The pieces of a command's stream, in order; `rows` are the selected rows. -/
def copySegs (op : EngOp) (c : CeCfg) (rows : List Nat) : List Seg :=
  match op with
  | .ctcopy => tensorSegs c
  | .cgather => rows.zipIdx.map (fun r => ⟨(r.2 * c.rlen : Nat), r.1 * c.rstr.toInt, c.rlen⟩)
  | .cscatter => rows.zipIdx.map (fun r => ⟨r.1 * c.rstr.toInt, (r.2 * c.rlen : Nat), c.rlen⟩)
  | _ => if c.len = 0#64 then [] else [⟨0, 0, c.len.toNat⟩]

/-- The lowest offset and the end of some pieces; none for no pieces. -/
def segSpan (at' : Seg → Int) (segs : List Seg) : Option (Int × Int) :=
  match segs with
  | [] => none
  | g :: gs => some (gs.foldl (fun (m : Int × Int) g => (min m.1 (at' g), max m.2 (at' g + g.len))) (at' g, at' g + g.len))

/-! ## Spans (R255) -/

/-- The fault of a span from `lo` to `hi` around a pointer: it leaves the addresses, or a window, or names a core that does not serve
(R149 steps 3 and 5, R305). -/
def State.spanFault (s : State) (core ctx : Nat) (p : Word) (lo hi : Int) (perm : Perm) : Option (Nat × Nat) :=
  let base : Int := (p.toNat % 2 ^ 48 : Nat)
  if hi ≤ lo then none
  else if base + lo < 0 ∨ 2 ^ 48 < base + hi then some (0x04, (base + lo).toNat % 2 ^ 48)
  else
    let va := (base + lo).toNat
    if !spanWhole va (hi - lo).toNat then some (0x06, va)
    else
      match s.coreSpot core ctx va perm with
      | .bad k => some (k, va)
      | _ => none

/-- Checks a span at issue; the fault value of a pointer escape is the operand (R392). -/
def Act.span (p : Word) (sp : Option (Int × Int)) (perm : Perm) : Act Unit := do
  match sp with
  | none => pure ()
  | some (lo, hi) => do
    let t ← Act.me
    let s ← get
    match s.spanFault t.core t.attr.ctx p lo hi perm with
    | none => pure ()
    | some (k, va) => Act.fault k (if k = 0x04 then p else BitVec.ofNat 64 va)

/-- The first address and the end of a span, with the thread's own 0xE addresses spelled as 0xF (R305). -/
def spanAt (t : Thread) (p : Word) (sp : Option (Int × Int)) : Option (Nat × Nat) :=
  sp.map (fun r =>
    let a := t.spell (addrPlus p r.1)
    (a, a + (r.2 - r.1).toNat))
/-- Whether two spans intersect. -/
def meets (x y : Option (Nat × Nat)) : Bool :=
  match x, y with
  | some a, some b => decide (a.1 < b.2) && decide (b.1 < a.2)
  | _, _ => false

/-! ## Execution -/

/-- One item of the stream as it is run: a byte from a place to a place, or a row that fails its check. -/
inductive CopyItem where
  | byte (dst src : Nat)
  | bad (code va : Nat)
  deriving DecidableEq, Repr

/-- The bytes of a piece. -/
def segItems (a b : Word) (g : Seg) : List CopyItem :=
  (List.range g.len).map (fun (j : Nat) => .byte (addrPlus a (g.dst + j)) (addrPlus b (g.src + j)))

/-- The stream as it is run: the rows of the strided side are checked row by row (R255). -/
def State.copyItems (s : State) (core : Nat) (c : Cmd) (segs : List Seg) : List CopyItem :=
  let row (p : Word) (off : Int) (perm : Perm) (g : Seg) : List CopyItem :=
    match s.spanFault core c.ctx p off (off + g.len) perm with
    | some (k, va) => [.bad k va]
    | none => segItems c.a c.b g
  match c.op with
  | .cgather => segs.flatMap (fun g => row c.b g.src .rd g)
  | .cscatter => segs.flatMap (fun g => row c.a g.dst .wr g)
  | _ => segs.flatMap (segItems c.a c.b)

/-- Runs the stream in order to its end or to the first byte that cannot be moved (R260). -/
def State.copyBytes (s : State) (core : Nat) (c : Cmd) (hard : Bool) :
    List CopyItem → Except EngStop (List WEntry × Option (Nat × Nat))
  | [] => .ok ([], none)
  | .bad k va :: _ => .ok ([], some (k, va))
  | .byte d sa :: rest =>
    let value : Except EngStop (List Byte) :=
      match c.op with
      | .cfill => .ok [c.ccfg.fill.extractLsb' (8 * (d % 8)) 8]
      | _ => s.engRead core c hard sa 1
    match value with
    | .error (.page va) => .error (.page va)
    | .error (.fault k va) => .ok ([], some (k, va))
    | .ok bs =>
      match s.engWrite core c hard d bs with
      | .error (.page va) => .error (.page va)
      | .error (.fault k va) => .ok ([], some (k, va))
      | .ok es =>
        match s.copyBytes core c hard rest with
        | .error e => .error e
        | .ok (more, f) => .ok (es ++ more, f)

/-- The rows a command selects, read through its index list or mask. DEDUCED: log 42. -/
def State.copyRows (s : State) (core : Nat) (c : Cmd) (hard : Bool) : Except EngStop (List Nat) :=
  match c.op with
  | .cgather => (s.engRead core c hard (c.ccfg.idx.toNat % 2 ^ 48) c.ccfg.listBytes).map (selectedRows c.ccfg.mask c.ccfg.count)
  | .cscatter => (s.engRead core c hard (c.ccfg.idx.toNat % 2 ^ 48) c.ccfg.listBytes).map (selectedRows c.ccfg.mask c.ccfg.count)
  | _ => .ok []

/-- The completion word's place (R258), or the fault its page or line gives. -/
def State.copyWord (s : State) (core : Nat) (c : Cmd) (hard : Bool) : Except EngStop (Option (WEntry × Word × Bool)) :=
  if c.ccfg.caddr = 0#64 then .ok none
  else
    let va := c.ccfg.caddr.toNat % 2 ^ 48
    match s.engPlace core c hard va .wr with
    | .error e => .error e
    | .ok l => if s.poisoned l then .error (.fault 0x09 va) else .ok (some (⟨va, l, 0#8⟩, c.ccfg.cval, c.ccfg.cfull))

/-- What a copy command does when it executes. DESIGN CHOICE: log 43. -/
def State.copyRun (s : State) (core : Nat) (c : Cmd) (hard : Bool) : Except EngStop EngResult :=
  match c.op with
  | .cget r =>
    let q := (s.core core).eng
    .ok { EngResult.nothing with scalar := some (if r = 13#6 then q.done else q.ce.getReg r.toNat) }
  | _ =>
    match s.copyRows core c hard with
    | .error e => .error e
    | .ok rows =>
      match s.copyBytes core c hard (s.copyItems core c (copySegs c.op c.ccfg rows)) with
      | .error e => .error e
      | .ok (ws, some (k, va)) =>
        .ok { EngResult.nothing with writes := ws, done := ws.length, fault := some (k, engineFval 2 k va) }
      | .ok (ws, none) =>
        let r : EngResult := { EngResult.nothing with
          writes := ws, done := ws.length
          fills := (match c.op with
            | .ccopyF => wordsOf (ws.map (·.loc))
            | _ => []) }
        match s.copyWord core c hard with
        | .error (.page va) => .error (.page va)
        | .error (.fault k va) => .ok { r with fault := some (k, engineFval 2 k va) }
        | .ok w => .ok { r with cword := w }

/-- Starts the copy engine's head command. -/
def State.copyStart (s : State) (core : Nat) (hard : Bool) : State :=
  s.engStart core .copy hard (.copyCommandCompletion core) (fun s => s.copyRun core)

/-- The bytes of a command's stream that a commit takes: none when its destinations were discarded, and of a sealed thread's those that
its footprint has room for (R54, R260). DEDUCED: log 28. -/
def State.copyRoom (s : State) (c : Cmd) (ws : List WEntry) : Nat :=
  if c.void then 0
  else
    match s.thread? c.uid with
    | none => ws.length
    | some t =>
      if t.attr.isSealed && t.footOver ws then
        (List.range ws.length).foldl (fun k i => if decide (k = i) && !t.footOver (ws.take (i + 1)) then i + 1 else k) 0
      else ws.length

/-- The bytes of a command's stream are counted as they commit: a sealed thread's with its publication (R383). -/
def State.copied (s : State) (core : Nat) (c : Cmd) (n : Nat) : State :=
  match s.thread? c.uid with
  | none => s.countCopied core n
  | some t => if t.attr.isSealed then s.modThread c.uid (fun t => { t with copied := t.copied + n }) else s.countCopied core n

/-- Whether a command's stream is divided into boxes (R259). -/
def EngOp.boxed : EngOp → Bool
  | .ctcopy => true
  | .cgather => true
  | .cscatter => true
  | _ => false
/-- The bytes of a box of a command's stream, or the step of its byte cursor (R259). -/
def Cmd.unit (c : Cmd) : Nat := if c.op.boxed then c.ccfg.box else 256
/-- The bytes of some boxes of a stream with their indices, but for those that a later row, in one of the boxes `done`, has already written
(R256). -/
def Cmd.pick (c : Cmd) (ws : List WEntry) (boxes : Nat → Bool) (done : Nat → Bool) : List (WEntry × Nat) :=
  ws.zipIdx.filter (fun w : WEntry × Nat => boxes (w.2 / c.unit) &&
    !ws.zipIdx.any (fun x : WEntry × Nat => done (x.2 / c.unit) && decide (w.2 < x.2) && decide (x.1.va = w.1.va)))

/-- COPY_COMMAND_COMPLETION (R258, R333): the payload that no stop has committed as one event, ce.done, then the completion word as an event
of its own. -/
def State.copyFinish (s : State) (core : Nat) : State :=
  match s.headCmd core .copy with
  | none => s
  | some c =>
    match c.result with
    | none => s
    | some r =>
      let word := r.cword.toList.map (fun w => w.1.loc / 64)
      if s.engHeld c (linesOf (r.writes.map (·.loc)) ++ word) then s.push (.copyCommandCompletion core)
      else
        -- past the footprint's room the stream stops: the bytes before stand, and no completion word is written (R260)
        let left := c.pick r.writes (fun m => !c.boxes.contains m) c.boxes.contains
        let ws := left.map (·.1)
        let room := s.copyRoom c ws
        let full := !c.void && decide (room < ws.length)
        let s := s.engCommit 2 c.uid c.void (ws.take room) (if full then [] else r.fills)
        let s := match c.op with
          | .cget _ => s
          | _ => (s.modCore core (fun q => { q with eng := { q.eng with
              done := BitVec.ofNat 64 (if full then (left.map Prod.snd).getD room 0 else r.done) } })).copied core c room
        let s := if full then s.engFault c core (engineFval 2 0x0B ((ws.map WEntry.va).getD room 0)) else s
        let s := match (if full then none else r.cword) with
          | none => s
          | some (w, v, f) =>
            let es : List WEntry := (bytesAt w.loc v.toNat 8).zipIdx.map (fun b : (Nat × Byte) × Nat => ⟨w.va + b.2, b.1.1, b.1.2⟩)
            s.engCommit 2 c.uid c.void es (if f then [w.loc / 8] else [])
        let s := match r.scalar with
          | some v => s.fillPend c.uid c.reg v
          | none => s
        let s := match (if full then none else r.fault) with
          | some (_, v) => s.engFault c core v
          | none => s
        s.popCmd core .copy
/-- COPY_COMMAND_COMPLETION. -/
def execCopyCommandCompletion (core : Nat) (s : State) : Host.Outcome State Fault Refusal := .next (s.copyFinish core)

/-- A copy that has started is stopped (R259, R333): what it has done since the last stop commits as one event, and it keeps the rest. Its stop
state is the leading boxes and some of the next 64, or a byte cursor; which are done is the device's own affair. DESIGN CHOICE: log 43. -/
def State.copyStop (s : State) (core : Nat) : State :=
  match s.headCmd core .copy with
  | none => s
  | some c =>
    match c.result with
    | none => s
    | some r =>
      let total := r.writes.length
      let n := (total + c.unit - 1) / c.unit
      let led := ((List.range n).takeWhile c.boxes.contains).length
      let (k, s) := s.choose (n + 1)
      let (bits, s) := s.choose (2 ^ 64)
      let lead := max k led
      let whole (m : Nat) : Bool := decide ((m + 1) * c.unit ≤ total)
      let new (m : Nat) : Bool := !c.boxes.contains m &&
        (if c.op.boxed then decide (m < lead) || (decide (m < lead + 64) && bits.testBit (m - lead)) else decide (m < lead) && whole m)
      if r.fault.isSome || (!c.void && decide (s.copyRoom c r.writes < total)) then s
      else
        let out := (c.pick r.writes new c.boxes.contains).map (·.1)
        let words := wordsOf (out.map (·.loc))
        let s := s.engCommit 2 c.uid c.void out (r.fills.filter words.contains)
        let boxes := (List.range n).filter (fun m => c.boxes.contains m || new m)
        let done := ((List.range total).filter (fun i => boxes.contains (i / c.unit))).length
        let s := s.modCore core (fun q => { q with eng := { q.eng with done := BitVec.ofNat 64 done } })
        (s.copied core c (if c.void then 0 else out.length)).modHead core .copy (fun c => { c with
          boxes := boxes
          result := some { r with fills := r.fills.filter (fun w => !words.contains w) } })

/-! ## Issue -/

/-- Steps 1 and 2 of R149 for a pointer of a copy. -/
def Act.copyPointer (p : Word) : Act Unit := if badTag p || isRef p then Act.fault 0x03 p else pure ()

/-- The lines of addresses that some pieces touch on one side. -/
def segLines (p : Word) (at' : Seg → Int) (segs : List Seg) : List Nat :=
  linesOf (segs.flatMap (fun g => (List.range g.len).map (addrPlus p (at' g) + ·)))

/-- The rows that a command selects, as far as its issue can know them (R257, R258): the thread waits while a command that came before is
still to write the list; a list whose page is absent stalls the engine when the command starts (R255), and one that cannot be read selects
none. DEDUCED: log 42, 114. -/
def Act.copyRows (c : Cmd) : Act (List Nat) := do
  let t ← Act.me
  let s ← get
  if (spanLines c.ccfg.listBytes [c.ccfg.idx.toNat % 2 ^ 48]).any (fun v => (s.lineAt t.core c.ctx .rd v).any s.owned) then
    Act.park .owned
  else
    match s.copyRows t.core c false with
    | .ok rs => pure rs
    | .error _ => pure []

/-- The destination and the source span (R255) of a command that selects some rows. -/
def copySpans (op : EngOp) (cfg : CeCfg) (rows : List Nat) : Option (Int × Int) × Option (Int × Int) :=
  let segs := copySegs op cfg rows
  let packed : Option (Int × Int) := some (0, ((cfg.count * cfg.rlen : Nat) : Int))
  (if op = .cgather then packed else segSpan (·.dst) segs,
   if op = .cfill then none else if op = .cscatter then packed else segSpan (·.src) segs)

/-- A copy form (R255, R257, R258): its checks and its entry. DEDUCED: log 41, 42. -/
def Act.copyForm (op : EngOp) (a : BitVec 5) (b : Option (BitVec 5)) (g : BitVec 5) : Act Unit :=
  Act.engineForm .copy (a :: b.toList) (a :: b.toList) g (do
    let x ← Act.read [] a
    let y ← match b with
      | some b => Act.read [a] b
      | none => pure 0#64
    let t ← Act.me
    let s ← get
    let c := s.newCmd t op 0 x y [] []
    let cfg := c.ccfg
    let listed := decide (op = .cgather) || decide (op = .cscatter)
    Act.copyPointer x
    if b.isSome then Act.copyPointer y else pure ()
    if cfg.caddr ≠ 0#64 then do
      Act.copyPointer cfg.caddr
      Act.span cfg.caddr (some (0, 8)) .wr
    else pure ()
    if listed then do
      Act.copyPointer cfg.idx
      Act.span cfg.idx (some (0, (cfg.listBytes : Int))) .rd
    else pure ()
    if op = .cscatter then pure () else Act.span x (copySpans op cfg []).1 .wr
    if op = .cgather ∨ op = .cfill then pure () else Act.span y (copySpans op cfg []).2 .rd
    let va (p : Word) : Nat := p.toNat % 2 ^ 48
    let z := cfg.esz
    let odd (p : Word) : Bool := decide (va p % z ≠ 0)
    if op = .ctcopy ∧ odd x then Act.fault 0x05 (BitVec.ofNat 64 (va x))
    else if op = .ctcopy ∧ (odd y ∨ (List.range 4).any (fun k => decide (cfg.sst k % z ≠ 0) || decide (cfg.dst k % z ≠ 0))) then
      Act.fault 0x05 (BitVec.ofNat 64 (va y))
    else if op = .ccopyF ∧ (va x % 8 ≠ 0 ∨ cfg.len.toNat % 8 ≠ 0) then Act.fault 0x05 (BitVec.ofNat 64 (va x))
    else if cfg.caddr.toNat % 8 ≠ 0 then Act.fault 0x05 (BitVec.ofNat 64 (va cfg.caddr))
    else do
      let rows ← if listed then Act.copyRows c else pure []
      let segs := copySegs op cfg rows
      let dat := spanAt t x (copySpans op cfg rows).1
      let sat := spanAt t y (copySpans op cfg rows).2
      if cfg.caddr ≠ 0#64 ∧ meets (spanAt t cfg.caddr (some (0, 8))) dat then Act.fault 0x0E 0#64
      else
        let len := match sat with
          | some r => r.2 - r.1
          | none => 0
        if (op = .ctcopy ∨ listed) ∧ meets sat dat ∧ 1048576 < len then Act.fault 0x0F (BitVec.ofNat 64 len)
        else
          let dst := segLines x (·.dst) segs
          let src := if op = .cfill then [] else segLines y (·.src) segs
          let lst := if listed then spanLines cfg.listBytes [va cfg.idx] else []
          Act.enqueue .copy op 0 x y dst (src ++ lst).eraseDups)

/-- CCOPY. -/
def execCcopy (a b g : BitVec 5) (s : State) : Host.Outcome State Fault Refusal := Act.go (Act.copyForm .ccopy a (some b) g) s
/-- CFILL. -/
def execCfill (a g : BitVec 5) (s : State) : Host.Outcome State Fault Refusal := Act.go (Act.copyForm .cfill a none g) s
/-- CTCOPY. DEDUCED: log 41. -/
def execCtcopy (a b g : BitVec 5) (s : State) : Host.Outcome State Fault Refusal := Act.go (Act.copyForm .ctcopy a (some b) g) s
/-- CGATHER. -/
def execCgather (a b g : BitVec 5) (s : State) : Host.Outcome State Fault Refusal := Act.go (Act.copyForm .cgather a (some b) g) s
/-- CSCATTER. -/
def execCscatter (a b g : BitVec 5) (s : State) : Host.Outcome State Fault Refusal :=
  Act.go (Act.copyForm .cscatter a (some b) g) s
/-- CCOPY.f. -/
def execCcopyF (a b g : BitVec 5) (s : State) : Host.Outcome State Fault Refusal := Act.go (Act.copyForm .ccopyF a (some b) g) s
/-- CCFG (R252, R253): at once. -/
def execCcfg (r : BitVec 6) (a g : BitVec 5) (s : State) : Host.Outcome State Fault Refusal :=
  Act.go (Act.issue .ending 4 [a] g (do
    Act.needEngine
    Act.ready [a] []
    let v ← Act.read [] a
    if ceRefuses r.toNat v then Act.fault 0x0E 0#64
    else do
      let t ← Act.me
      modify (fun s => s.modCore t.core (fun q => { q with eng := { q.eng with ce := q.eng.ce.putReg r.toNat v } })))) s
/-- CGET (R252): its register awaits the value. -/
def execCget (r : BitVec 6) (a g : BitVec 5) (s : State) : Host.Outcome State Fault Refusal :=
  Act.go (Act.engineForm .copy [a] [] g (do
    Act.enqueue .copy (.cget r) a.toNat 0#64 0#64 [] []
    Act.awaitFill a)) s

end Sys2Proof.Machine
end

