-- ==== Sys2Proof/Machine/Matrix.lean ====
section
/-!
DEFINITION. Meanings of the matrix and ring forms: registers (R210-R212), operand checks (R215), k-steps (R82, R219), ring steps and
tile delivery (R222, R223), write-back and restore (R225-R228).
-/
namespace Sys2Proof.Machine

/-! ## Registers (R210-R212, R230-R232) -/

/-- me.mode.FZ of a command's settings. -/
def MeCfg.fz (m : MeCfg) : Bool := m.mode.getLsbD 0
/-- me.mode.SAT. -/
def MeCfg.sat (m : MeCfg) : Bool := m.mode.getLsbD 1
/-- me.mode.ZSKIP. -/
def MeCfg.zskip (m : MeCfg) : Bool := m.mode.getLsbD 2
/-- me.geom.KS. -/
def MeCfg.ks (m : MeCfg) : Nat := m.geom.toNat % 128
/-- me.geom.WR. -/
def MeCfg.wr (m : MeCfg) : Nat := m.geom.toNat / 256 % 16
/-- me.geom.WC. -/
def MeCfg.wc (m : MeCfg) : Nat := m.geom.toNat / 4096 % 16
/-- me.ring.UP. -/
def MeCfg.up (m : MeCfg) : Nat := m.ring.toNat % 2 ^ 14
/-- me.ring.DOWN. -/
def MeCfg.down (m : MeCfg) : Nat := m.ring.toNat / 2 ^ 16 % 2 ^ 14
/-- me.ring.POS. -/
def MeCfg.pos (m : MeCfg) : Nat := m.ring.toNat / 2 ^ 32 % 2 ^ 14
/-- me.ring.LEN: the ring length minus 1. -/
def MeCfg.ringLen (m : MeCfg) : Nat := m.ring.toNat / 2 ^ 48 % 2 ^ 14

/-- The bits of a register that are not reserved (R210, R211, R230, R231). -/
def meBits (r : Nat) : Word :=
  match r with
  | 0 => 0xF#64
  | 1 => 0xFF7F#64
  | 2 => 0xFFFF#64
  | 3 => 0xFFFF#64
  | 6 => 0x3FFF3FFF3FFF3FFF#64
  | 7 => 0x3FFF#64
  | 16 => 0x1FFF#64
  | 17 => 0xFFFFFFFFFFFFFFFF#64
  | 24 => 3#64
  | 25 => 0xFF3FFF37FF#64
  | 29 => 0xFFFFFFFFFFFF#64
  | 30 => 0x1FFFF#64
  | 33 => 0xFFFFFFFFFFFFFFFF#64
  | 34 => 0xFFFFFFFFFFFFFFFF#64
  | 35 => 0xFFFFFFFFFFFFFFFF#64
  | 36 => 0xFFFFFFFFFFFFFFFF#64
  | _ => 0xFFFFFFFF#64

/-- Whether a value is a number not below zero, −0 included (R232). -/
def plainF32 (a : Word) : Bool :=
  match value F32 (a.toNat % 2 ^ 32) with
  | .zero _ => true
  | .num q => decide (0 < q.num)
  | _ => false

/-- Whether MCFG refuses a value (R212, R232). -/
def meRefuses (me : MeState) (r : Nat) (a : Word) : Bool :=
  let n := a.toNat
  decide (a &&& ~~~(meBits r) ≠ 0#64) ||
  (match r with
    | 1 => decide (n % 128 = 0) || decide (64 < n % 128)
    | 2 => decide (n % 8 ≠ 0) || decide (n < 8) || decide (49152 < n)
    | 3 => decide (n % 8 ≠ 0) || decide (n < 8) || decide (49152 < n)
    | 4 => decide (n % 8 ≠ 0) || decide (n = 0)
    | 7 => decide (me.cfg.ringLen < n)
    | 16 => decide (n = 0) || decide (4096 < n)
    | 19 => decide (n / 65536 = 0) || decide (n / 65536 < n % 65536)
    | 20 => !plainF32 a
    | 25 => decide (n % 2048 = 0) || decide (1024 < n % 2048) || decide (n / 65536 % 4096 = 0) ||
        decide (2048 < n / 65536 % 4096) || decide (1 < n / 2 ^ 28 % 4)
    | 26 => (value F32 n).isNan
    | 27 => !plainF32 a
    | 28 => !plainF32 a
    | _ => false)

/-- What MGET reads. -/
def MeState.getReg (me : MeState) (r : Nat) : Word :=
  match r with
  | 0 => me.cfg.mode
  | 1 => me.cfg.geom
  | 2 => me.cfg.astr
  | 3 => me.cfg.bstr
  | 4 => me.cfg.wstr
  | 5 => me.cfg.wscale
  | 6 => me.cfg.ring
  | 7 => me.rstep
  | 16 => me.cfg.sk
  | 17 => me.seed
  | 18 => me.scnt
  | 19 => me.cfg.slim
  | 20 => me.cfg.stau
  | 21 => me.svar
  | 22 => me.sz
  | 23 => me.sfro
  | 24 => me.sstat
  | 25 => me.cfg.pgeom
  | 26 => me.cfg.ptheta
  | 27 => me.cfg.pdelta
  | 28 => me.cfg.peps
  | 29 => me.pcnt
  | 30 => me.apos
  | 31 => me.amass
  | 32 => me.anorm
  | 33 => me.creplay
  | 34 => me.cassay
  | 35 => me.cskip
  | _ => me.px

/-- What MCFG writes. DEDUCED: log 100. -/
def MeState.putReg (me : MeState) (r : Nat) (a : Word) : MeState :=
  match r with
  | 0 => { me with cfg := { me.cfg with mode := a } }
  | 1 => { me with cfg := { me.cfg with geom := a } }
  | 2 => { me with cfg := { me.cfg with astr := a } }
  | 3 => { me with cfg := { me.cfg with bstr := a } }
  | 4 => { me with cfg := { me.cfg with wstr := a } }
  | 5 => { me with cfg := { me.cfg with wscale := a } }
  | 6 => { me with cfg := { me.cfg with ring := a } }
  | 7 => { me with rstep := a }
  | 16 => { me with cfg := { me.cfg with sk := a } }
  | 17 => { me with seed := a }
  | 18 => { me with scnt := a }
  | 19 => { me with cfg := { me.cfg with slim := a } }
  | 20 => { me with cfg := { me.cfg with stau := a } }
  | 21 => { me with svar := a }
  | 22 => { me with sz := a }
  | 23 => { me with sfro := a }
  | 24 => { me with sstat := a }
  | 25 => { me with cfg := { me.cfg with pgeom := a } }
  | 26 => { me with cfg := { me.cfg with ptheta := a } }
  | 27 => { me with cfg := { me.cfg with pdelta := a } }
  | 28 => { me with cfg := { me.cfg with peps := a } }
  | 29 => { me with pcnt := a }
  | 30 => { me with apos := a }
  | 31 => { me with amass := a }
  | 32 => { me with anorm := a }
  | 33 => { me with creplay := a }
  | 34 => { me with cassay := a }
  | 35 => { me with cskip := a }
  | _ => { me with px := a }

/-- Changes the matrix engine of a core. -/
def State.modMat (s : State) (core : Nat) (f : MeState → MeState) : State :=
  s.modCore core (fun q => { q with eng := { q.eng with me := f q.eng.me } })
/-- The matrix engine of a core. -/
def State.mat (s : State) (core : Nat) : MeState := (s.core core).eng.me

/-! ## Accumulators -/

/-- An entry of an accumulator. -/
def MeState.entry (me : MeState) (n : BitVec 1) (i j : Nat) : FV :=
  value A96 (Store.get me.acc (256 * n.toNat + 16 * i + j)).toNat
/-- Adds to an entry with one rounding (R82). -/
def MeState.addTo (me : MeState) (n : BitVec 1) (i j : Nat) (x : FV) : MeState :=
  let v := BitVec.ofNat 96 (round A96 false false ((me.entry n i j).add x)).1
  { me with acc := Store.put me.acc (256 * n.toNat + 16 * i + j) v }
/-- The sample divisor of an accumulator. -/
def MeState.divisor (me : MeState) (n : BitVec 1) : Nat := if n = 0#1 then me.div0 else me.div1
/-- Writes the sample divisor. -/
def MeState.setDiv (me : MeState) (n : BitVec 1) (d : Nat) : MeState :=
  if n = 0#1 then { me with div0 := d } else { me with div1 := d }

/-- The exact sum of some products; the sum of none is −0, which changes nothing (R82). -/
def exactSum (l : List FV) : FV := l.foldl FV.add (.zero true)

/-- The entries of a tile of 16 × 16, row by row. -/
def tileEntries : List (Nat × Nat) := (List.range 256).map (fun e => (e / 16, e % 16))

/-- One k-step (R82, R219): rows of A, and columns of B, of 32 final values each. -/
def MeState.kstep (me : MeState) (n : BitVec 1) (rows cols : List (List FV)) : MeState :=
  tileEntries.foldl (fun me e =>
    me.addTo n e.1 e.2 (exactSum (List.zipWith FV.mul (rows.getD e.1 []) (cols.getD e.2 [])))) me

/-! ## Operands (R215, R216) -/

/-- The checks of a tile pointer (R215): rows of `cols` elements from column `first` up. -/
def tileFault (a : Word) (rows stride first cols : Nat) : Option (Nat × Word) :=
  let code := fmtOf a
  let va := a.toNat % 2 ^ 48 + elemOffset code first
  let last := va % 2 ^ 16 + (rows - 1) * stride + elemOffset code (cols - 1) + elemBytes code - 1
  if badTag a || isRef a then some (0x03, a)
  else if 2 ^ 48 ≤ va then some (0x04, a)
  else if code < 2 ∨ 12 < code ∨ blkOf a ≠ 0 then some (0x03, a)
  else if windowOf (a.toNat % 2 ^ 48) ≠ 15 then some (0x0E, 0#64)
  else if va % elemBytes code ≠ 0 then some (0x05, BitVec.ofNat 64 va)
  else if va / 2 ^ 16 % 2 ^ 28 ≠ 0 ∨ 0xBFFF < last then some (0x06, BitVec.ofNat 64 va)
  else none

/-- The lines of addresses of a tile's bytes. -/
def tileLines (a : Word) (rows stride first cols : Nat) : List Nat :=
  let code := fmtOf a
  let va := a.toNat % 2 ^ 48 + elemOffset code first
  let n := elemOffset code (cols - 1) + elemBytes code
  spanLines n ((List.range rows).map (fun i => va + i * stride))

/-- Checks a tile pointer at issue, waits for its decode table, and answers the lines it reads. -/
def Act.tile (a : Word) (rows stride first cols : Nat) : Act (List Nat) := do
  match tileFault a rows stride first cols with
  | some (k, v) => Act.fault k v
  | none => do
    Act.needTable a (fmtOf a)
    pure (tileLines a rows stride first cols)

/-- One operand as its final value (R216): element (row, col) of a tile. -/
def State.tileElem (s : State) (core : Nat) (c : Cmd) (hard : Bool) (a : Word) (stride row col : Nat) : Except EngStop FV :=
  let code := fmtOf a
  match s.engElem core c hard code col (addrPlus a ((row * stride + elemOffset code col : Nat) : Int)) with
  | .error e => .error e
  | .ok raw => .ok ((decodeElem code (s.core core).tab raw).flush c.mcfg.fz)

/-- Elements of a tile, in the order given. -/
def State.tileElems (s : State) (core : Nat) (c : Cmd) (hard : Bool) (a : Word) (stride : Nat) :
    List (Nat × Nat) → Except EngStop (List FV)
  | [] => .ok []
  | (i, k) :: rest =>
    match s.tileElem core c hard a stride i k with
    | .error e => .error e
    | .ok x =>
      match s.tileElems core c hard a stride rest with
      | .error e => .error e
      | .ok xs => .ok (x :: xs)

/-- Cuts a list into `n` rows of `m`. -/
def cutRows {α : Type} (m : Nat) : Nat → List α → List (List α)
  | 0, _ => []
  | n + 1, l => l.take m :: cutRows m n (l.drop m)

/-- 16 rows of 32 elements of an A tile, from column `k` up. -/
def State.rowsOf (s : State) (core : Nat) (c : Cmd) (hard : Bool) (a : Word) (k : Nat) : Except EngStop (List (List FV)) :=
  (s.tileElems core c hard a c.mcfg.astr.toNat ((List.range 512).map (fun e => (e / 32, k + e % 32)))).map (cutRows 32 16)
/-- 16 columns of 32 elements of a B tile, from row `k` down. -/
def State.colsOf (s : State) (core : Nat) (c : Cmd) (hard : Bool) (b : Word) (k : Nat) : Except EngStop (List (List FV)) :=
  (s.tileElems core c hard b c.mcfg.bstr.toNat ((List.range 512).map (fun e => (k + e % 32, e / 32)))).map (cutRows 32 16)

/-! ## Running commands -/

/-- A command of the matrix engine under way: the engine as it leaves it, and its counts. -/
structure MatRun where
  me    : MeState
  steps : Nat
  skips : Nat
  /-- The registers it has written (R232). -/
  regs  : List Nat
  deriving DecidableEq, Repr

/-- The result of a command that ended: with a fault's cause and index, or without. -/
def MatRun.result (r : MatRun) (fault : Option (Nat × Nat)) : EngResult :=
  { EngResult.nothing with me := some r.me, ksteps := r.steps, kskips := r.skips, regs := r.regs
                           fault := fault.map (fun f => (f.1, BitVec.ofNat 64 f.2)) }

/-- The k-steps of a product in increasing order (R219): at an operand that cannot be read the steps before it stay (R228).
DEDUCED: log 40. -/
def kstepsFrom (n : BitVec 1) (zskip : Bool) (rows cols : Nat → Except EngStop (List (List FV))) :
    Nat → Nat → MatRun → Except EngStop (MatRun × Option (Nat × Nat))
  | 0, _, r => .ok (r, none)
  | m + 1, k, r =>
    match rows k, cols k with
    | .error (.page va), _ => .error (.page va)
    | .error (.fault c _), _ => .ok (r, some (c, k))
    | _, .error (.page va) => .error (.page va)
    | _, .error (.fault c _) => .ok (r, some (c, k))
    | .ok as, .ok bs =>
      let me := r.me.kstep n as bs
      let same := zskip && decide (me.acc = r.me.acc)
      kstepsFrom n zskip rows cols m (k + 1)
        ⟨me, if same then r.steps else r.steps + 1, if same then r.skips + 1 else r.skips, r.regs⟩

/-- MMA (R219). -/
def State.runMma (s : State) (core : Nat) (c : Cmd) (hard : Bool) (n : BitVec 1) : Except EngStop EngResult :=
  (kstepsFrom n c.mcfg.zskip (fun k => s.rowsOf core c hard c.a (32 * k)) (fun k => s.colsOf core c hard c.b (32 * k))
    c.mcfg.ks 0 ⟨s.mat core, 0, 0, []⟩).map (fun o => o.1.result o.2)

/-- MLDB (R220): the whole tile, as W19 values; an operand that cannot be read is reported with FVAL 0. DEDUCED: log 33.
DESIGN CHOICE: log 131. -/
def State.runMldb (s : State) (core : Nat) (c : Cmd) (hard : Bool) : Except EngStop EngResult :=
  let me := s.mat core
  let ks := c.mcfg.ks
  match s.tileElems core c hard c.a c.mcfg.bstr.toNat ((List.range (512 * ks)).map (fun e => (e / 16, e % 16))) with
  | .error (.page va) => .error (.page va)
  | .error (.fault k _) => .ok (MatRun.result ⟨me, 0, 0, []⟩ (some (k, 0)))
  | .ok xs =>
    let vals := Store.putCells [] 0 (xs.map (fun x => BitVec.ofNat 19 (round W19 false false x).1))
    .ok (MatRun.result ⟨{ me with current := some ⟨ks, vals⟩, rstep := 0#64 }, 0, 0, [7]⟩ none)

/-- A value of a latch tile. -/
def Tile.elem (t : Tile) (k j : Nat) : FV := value W19 (Store.get t.vals (16 * k + j)).toNat
/-- 16 columns of 32 values of a latch tile. -/
def Tile.cols (t : Tile) (k : Nat) : List (List FV) :=
  (List.range 16).map (fun j => (List.range 32).map (fun i => t.elem (k + i) j))

/-- MRING's step (R222), with the tile in the current buffer. DEDUCED: log 32. -/
def State.runMring (s : State) (core : Nat) (c : Cmd) (hard : Bool) (n : BitVec 1) (t : Nat) (cur : Tile) :
    Except EngStop EngResult :=
  let len := c.mcfg.ringLen
  let ks := c.mcfg.ks
  let p := (c.mcfg.pos + (len + 1) - t % (len + 1)) % (len + 1)
  match tileFault c.a 16 c.mcfg.astr.toNat (32 * ks * p) (32 * ks) with
  | some (k, v) => .ok { EngResult.nothing with me := some (s.mat core), fault := some (k, v) }
  | none =>
    (kstepsFrom n c.mcfg.zskip (fun k => s.rowsOf core c hard c.a (32 * ks * p + 32 * k)) (fun k => .ok (cur.cols (32 * k)))
      ks 0 ⟨s.mat core, 0, 0, []⟩).map (fun o =>
        let me := o.1.me
        let (me, regs) : MeState × List Nat := match o.2 with
          | some _ => (me, [])
          | none =>
            if t < len then ({ me with tileOut := some cur, rstep := BitVec.ofNat 64 (t + 1) }, [7, 100])
            else ({ me with current := none, rstep := 0#64 }, [7])
        MatRun.result { o.1 with me := me, regs := regs } o.2)

/-- Bytes written for one entry by MSTORE (R225), or, for H4, its nibble. DEDUCED: log 35. -/
def storeEntry (m : MeCfg) (tab : Nat → DTable) (code : Nat) (bits : Nat) (dv : Nat) : Nat :=
  if code = 0 then bits
  else
    let x := ((value A96 bits).mul (value F32 (m.wscale.toNat % 2 ^ 32))).div (.ofInt dv)
    if code = 1 then (round F32 m.fz m.sat x).1
    else if code = 2 then (round BF16 m.fz m.sat x).1
    else if code = 3 then (round F16 m.fz m.sat x).1
    else if code = 12 then (BitVec.ofInt 8 (f2i x 0 (-128) 127).1).toNat
    else (encodeElem code tab m.fz m.sat x).1

/-- Nibbles as bytes. -/
def packNibbles : List Nat → List Byte
  | x :: y :: rest => BitVec.ofNat 8 (x + 16 * y) :: packNibbles rest
  | _ => []

/-- The bytes of one row that MSTORE writes. DEDUCED: log 35. -/
def storeRow (me : MeState) (m : MeCfg) (tab : Nat → DTable) (n : BitVec 1) (code i : Nat) : List Byte :=
  let vs := (List.range (m.wc + 1)).map (fun j =>
    storeEntry m tab code (Store.get me.acc (256 * n.toNat + 16 * i + j)).toNat (me.divisor n))
  if isH4 code then packNibbles vs
  else vs.flatMap (fun v => leBytes v (if code = 0 then 12 else elemBytes code))

/-- Rows written in order until one cannot be (R228): the entries of those before it, and the stop with its index. -/
def State.writeRows (s : State) (core : Nat) (c : Cmd) (hard : Bool) :
    Nat → List (Nat × List Byte) → Except EngStop (List WEntry × Option (Nat × Nat))
  | _, [] => .ok ([], none)
  | i, (va, bs) :: rest =>
    match s.engWrite core c hard va bs with
    | .error (.page v) => .error (.page v)
    | .error (.fault k _) => .ok ([], some (k, i))
    | .ok es =>
      match s.writeRows core c hard (i + 1) rest with
      | .error e => .error e
      | .ok (more, f) => .ok (es ++ more, f)

/-- A command that writes memory: its pieces in order, each with the index a fault reports scaled by `unit`. -/
def State.runWrites (s : State) (core : Nat) (c : Cmd) (hard : Bool) (unit : Nat) (pieces : List (Nat × List Byte)) :
    Except EngStop EngResult :=
  (s.writeRows core c hard 0 pieces).map (fun o =>
    { EngResult.nothing with writes := o.1, fault := o.2.map (fun f => (f.1, BitVec.ofNat 64 (f.2 * unit))) })

/-- MSTORE (R225). -/
def State.runMstore (s : State) (core : Nat) (c : Cmd) (hard : Bool) (n : BitVec 1) : Except EngStop EngResult :=
  s.runWrites core c hard 1 ((List.range (c.mcfg.wr + 1)).map (fun i =>
    (addrPlus c.a ((i * c.mcfg.wstr.toNat : Nat) : Int), storeRow (s.mat core) c.mcfg (s.core core).tab n (fmtOf c.a) i)))

/-- Items of `size` bytes read in order (R228, R249): their values, or the index of the first that cannot be read. -/
def State.readItems (s : State) (core : Nat) (c : Cmd) (hard : Bool) (a : Word) (size : Nat) :
    Nat → Nat → Except EngStop (Except (Nat × Nat) (List Nat))
  | 0, _ => .ok (.ok [])
  | m + 1, i =>
    match s.engRead core c hard (addrPlus a ((i * size : Nat) : Int)) size with
    | .error (.page v) => .error (.page v)
    | .error (.fault k _) => .ok (.error (k, i))
    | .ok bs =>
      match s.readItems core c hard a size m (i + 1) with
      | .ok (.ok xs) => .ok (.ok (leValue bs :: xs))
      | r => r

/-- MACC (R227): every image is read before any entry changes. -/
def State.runMacc (s : State) (core : Nat) (c : Cmd) (hard : Bool) (n : BitVec 1) (add : Bool) : Except EngStop EngResult :=
  let me := s.mat core
  (s.readItems core c hard c.a 12 256 0).map (fun o =>
    match o with
    | .error f => MatRun.result ⟨me, 0, 0, []⟩ (some f)
    | .ok xs =>
      let me' := if add then
          xs.zipIdx.foldl (fun me x => me.addTo n (x.2 / 16) (x.2 % 16) (value A96 x.1)) me
        else
          let me : MeState := { me with acc := Store.putCells me.acc (256 * n.toNat) (xs.map (BitVec.ofNat 96)) }
          me.setDiv n 1
      MatRun.result ⟨me', 0, 0, []⟩ none)

/-- MZERO (R218). -/
def MeState.zero (me : MeState) (n : BitVec 1) : MeState :=
  let me : MeState := { me with acc := Store.putCells me.acc (256 * n.toNat) (List.replicate 256 0#96) }
  me.setDiv n 1

/-! ## Issue -/

/-- A compute form takes its entry, and its thread leaves the rotation until it completes (R213). -/
def Act.matAdmit (op : EngOp) (reg : Nat) (a b : Word) (dst src : List Nat) : Act Unit := do
  Act.enqueue .matrix op reg a b dst src
  Act.park .matrix

/-- The matrix engine of the thread's core. -/
def Act.mat : Act MeState := do
  let t ← Act.me
  let s ← get
  pure (s.mat t.core)

/-- MZERO. -/
def execMzero (x : BitVec 1) (g : BitVec 5) (s : State) : Host.Outcome State Fault Refusal :=
  Act.go (Act.engineForm .matrix [] [] g (Act.matAdmit (.mzero x) 0 0#64 0#64 [] [])) s
/-- MMA (R215, R219). -/
def execMma (x : BitVec 1) (a b g : BitVec 5) (s : State) : Host.Outcome State Fault Refusal :=
  Act.go (Act.engineForm .matrix [a, b] [a, b] g (do
    let p ← Act.read [] a
    let q ← Act.read [a] b
    let m ← Act.mat
    let la ← Act.tile p 16 m.cfg.astr.toNat 0 (32 * m.cfg.ks)
    let lb ← Act.tile q (32 * m.cfg.ks) m.cfg.bstr.toNat 0 16
    Act.matAdmit (.mma x) 0 p q [] (la ++ lb).eraseDups)) s
/-- MLDB (R220): its engine operands before its pointer. DESIGN CHOICE: log 131. -/
def execMldb (a g : BitVec 5) (s : State) : Host.Outcome State Fault Refusal :=
  Act.go (Act.engineForm .matrix [a] [a] g (do
    let p ← Act.read [] a
    let m ← Act.mat
    if 8 < m.cfg.ks ∨ m.rstep ≠ 0#64 then Act.fault 0x0E 0#64
    else do
      let l ← Act.tile p (32 * m.cfg.ks) m.cfg.bstr.toNat 0 16
      Act.matAdmit .mldb 0 p 0#64 [] l)) s
/-- MRING (R222): a tile that was discarded is reported here, once (R223); of several faults the engine operand's comes first, then the lost
tile's, then the pointer's. DESIGN CHOICE: log 131. -/
def execMring (x : BitVec 1) (a g : BitVec 5) (s : State) : Host.Outcome State Fault Refusal :=
  Act.go (Act.engineForm .matrix [a] [a] g (do
    let p ← Act.read [] a
    let m ← Act.mat
    let t ← Act.me
    let len := m.cfg.ringLen
    let st := m.rstep.toNat
    if 8 < m.cfg.ks ∨ len < m.cfg.pos ∨ len < st ∨ (st = 0 ∧ m.current.isNone) then Act.fault 0x0E 0#64
    else if m.lost then do
      modify (fun s => s.modMat t.core (fun m => { m with lost := false }))
      Act.fault 0x10 1#64
    else do
      let w := 32 * m.cfg.ks
      let l ← Act.tile p 16 m.cfg.astr.toNat (w * ((m.cfg.pos + (len + 1) - st) % (len + 1))) w
      Act.matAdmit (.mring x) 0 p 0#64 [] l)) s

/-- The offsets of the pieces that MSTORE's check goes through, in row order (R225). -/
def storeOffsets (m : MeCfg) (code : Nat) : List Int :=
  (List.range (m.wr + 1)).flatMap (fun i =>
    if code = 0 then
      (List.range (3 * (m.wc + 1))).map (fun k => ((i * m.wstr.toNat + 4 * k : Nat) : Int))
    else
      (List.range (m.wc + 1)).map (fun j => ((i * m.wstr.toNat + elemOffset code j : Nat) : Int)))

/-- MSTORE (R225, R226). DEDUCED: log 34. -/
def execMstore (x : BitVec 1) (a g : BitVec 5) (s : State) : Host.Outcome State Fault Refusal :=
  Act.go (Act.engineForm .matrix [a] [a] g (do
    let p ← Act.read [] a
    let m ← Act.mat
    let code := fmtOf p
    if badTag p || isRef p || decide (blkOf p ≠ 0) then Act.fault 0x03 p
    else if isH4 code && decide (m.cfg.wc % 2 = 0) then Act.fault 0x0E 0#64
    else do
      let z := if code = 0 then 4 else elemBytes code
      let ns ← Act.spanCheck p z (storeOffsets m.cfg code)
      Act.spanServed .wr ns
      Act.needTable p code
      let lines := spanLines z ns
      Act.matAdmit (.mstore x) 0 p 0#64 lines [])) s

/-- An extent of `n` bytes that a form reaches from a pointer (R149 steps 1-5, R305): the lines it covers. -/
def Act.extent (p : Perm) (a : Word) (unit n : Nat) (codes : Nat → Bool) : Act (List Nat) := do
  let ns ← Act.spanCheck a unit [0]
  let va := a.toNat % 2 ^ 48
  if 2 ^ 48 < va + n then Act.fault 0x04 a
  else if !spanWhole va n then Act.fault 0x06 (BitVec.ofNat 64 va)
  else if !codes (fmtOf a) then Act.fault 0x03 a
  else do
    Act.spanServed p ns
    pure (spanLines n ns)

/-- MACC's pointer check and entry (R227). -/
def Act.macc (op : EngOp) (a g : BitVec 5) : Act Unit :=
  Act.engineForm .matrix [a] [a] g (do
    let p ← Act.read [] a
    let l ← Act.extent .rd p 4 3072 (fun c => decide (c = 0))
    Act.matAdmit op 0 p 0#64 [] l)
/-- MACC.ld. -/
def execMaccLd (x : BitVec 1) (a g : BitVec 5) (s : State) : Host.Outcome State Fault Refusal :=
  Act.go (Act.macc (.maccLd x) a g) s
/-- MACC.add. -/
def execMaccAdd (x : BitVec 1) (a g : BitVec 5) (s : State) : Host.Outcome State Fault Refusal :=
  Act.go (Act.macc (.maccAdd x) a g) s
/-- MCFG (R212, R232): at once. -/
def execMcfg (r : BitVec 6) (a g : BitVec 5) (s : State) : Host.Outcome State Fault Refusal :=
  Act.go (Act.issue .ending 4 [a] g (do
    Act.needEngine
    Act.ready [a] []
    let v ← Act.read [] a
    let m ← Act.mat
    if meRefuses m r.toNat v then Act.fault 0x0E 0#64
    else do
      let t ← Act.me
      modify (fun s => s.modMat t.core (fun m => m.putReg r.toNat v)))) s
/-- MGET (R212): at once. -/
def execMget (r : BitVec 6) (a g : BitVec 5) (s : State) : Host.Outcome State Fault Refusal :=
  Act.go (Act.issue .ending 4 [a] g (do
    Act.needEngine
    let m ← Act.mat
    Act.write a (m.getReg r.toNat))) s

/-! ## Ring steps -/

/-- Whether a waiting MRING may start (R222). -/
def MeState.ringReady (me : MeState) (c : Cmd) : Bool :=
  let t := me.rstep.toNat
  me.lost || ((decide (t = 0) || me.tileIn.isSome) && (decide (c.mcfg.ringLen ≤ t) || me.tileOut.isNone))

/-- An MRING at the head of its queue is looked at again. -/
def State.pokeRing (s : State) (core : Nat) : State :=
  match s.headCmd core .matrix with
  | some c =>
    match c.op with
    | .mring _ =>
      if c.result.isNone && (s.mat core).ringReady c && !s.pending.contains (.mringStepStart core) then
        s.push (.mringStepStart core)
      else s
    | _ => s
  | none => s

/-- MRING_STEP_START (R222): the incoming tile becomes the current one and the step runs. At t = 0 a current buffer that an earlier MRING has
emptied since the issue is the ring fault with FVAL 0. DEDUCED: log 32, 33. DESIGN CHOICE: log 131. -/
def State.ringStart (s : State) (core : Nat) (hard : Bool) : State :=
  match s.headCmd core .matrix with
  | none => s
  | some c =>
    match c.op with
    | .mring n =>
      let me := s.mat core
      let t := me.rstep.toNat
      let ends (s : State) (r : EngResult) : State :=
        ((s.modHead core .matrix (fun c => { c with result := some r, src := [], vsrc := [] })).push
          (.matrixCommandCompletion core)).wakeOwned
      if c.result.isSome || !me.ringReady c then s
      else if s.engWaits core .matrix c then s.push (.mringStepStart core)
      else if me.lost then
        let s := s.modMat core (fun m => { m with lost := false })
        ends s { EngResult.nothing with fault := some (0x10, 1#64) }
      else
        let s := s.touchSource c
        let took := if t = 0 then s else s.modMat core (fun m => { m with current := m.tileIn, tileIn := none })
        match (took.mat core).current with
        | none => ends took { EngResult.nothing with fault := some (0x10, 0#64) }
        | some cur =>
          if cur.ks ≠ c.mcfg.ks then ends took { EngResult.nothing with fault := some (0x10, 0#64) }
          else
            match took.runMring core c hard n t cur with
            -- at an absent page the step has not begun: the tile stays where it is
            | .error (.page va) => s.engStall core .matrix c.ctx va
            | .error (.fault k va) => ends took { EngResult.nothing with fault := some (k, BitVec.ofNat 64 va) }
            | .ok r => ends took r
    | _ => s

/-- MRING_STEP_START. -/
def execMringStepStart (core : Nat) (s : State) : Host.Outcome State Fault Refusal := .next (s.ringStart core false)

/-- Whether a core holds a thread of a context (R223): in a slot, or in the stockpile for it. DESIGN CHOICE: log 131. -/
def State.holdsCtx (s : State) (c ctx : Nat) : Bool :=
  s.threads.any (fun e => decide (e.2.attr.ctx = ctx) && (match e.2.place with
    | .slot d _ => decide (d = c)
    | .stock d => decide (d = c)
    | _ => false))

/-- Whether an outgoing tile can leave now: to DOWN, or discarded (R223). -/
def State.tileGoes (s : State) (core : Nat) : Bool :=
  let d := (s.mat core).cfg.down
  match (s.mat core).tileOut, (s.core core).etag with
  | some _, some ctx =>
    s.coreFenced d || !s.holdsCtx d ctx ||
      (decide ((s.core d).etag = some ctx) && (s.mat d).tileIn.isNone && decide ((s.mat d).cfg.up = core))
  | _, _ => false

/-- TILE_DELIVERY (R223): the outgoing tile goes to DOWN, as me.ring has it now, is discarded, or waits. DESIGN CHOICE: log 131. -/
def State.deliverTile (s : State) (core : Nat) : State :=
  let me := s.mat core
  let d := me.cfg.down
  match me.tileOut, (s.core core).etag with
  | some tile, some ctx =>
    if s.coreFenced d || !s.holdsCtx d ctx then
      (s.modMat core (fun m => { m with tileOut := none, lost := true })).pokeRing core
    else if (s.core d).etag = some ctx ∧ (s.mat d).tileIn.isNone ∧ (s.mat d).cfg.up = core then
      let s := s.modMat core (fun m => { m with tileOut := none })
      let s := s.modMat d (fun m => { m with tileIn := some tile })
      (s.pokeRing core).pokeRing d
    else s.push (.tileDelivery core)
  | _, _ => s
/-- TILE_DELIVERY. -/
def execTileDelivery (core : Nat) (s : State) : Host.Outcome State Fault Refusal := .next (s.deliverTile core)

/-! ## Completion -/

/-- The engine after a command: what the command has written over what the engine has become meanwhile (R232, R223); `regs` are the
registers of R230 that it has written, by number, and 100 for the outgoing buffer. -/
def MeState.merge (now new : MeState) (regs : List Nat) : MeState :=
  let pick (r : Nat) : Word := if regs.contains r then new.getReg r else now.getReg r
  { new with
    cfg := now.cfg
    tileIn := now.tileIn
    lost := now.lost
    tileOut := if regs.contains 100 then new.tileOut else now.tileOut
    rstep := pick 7, seed := pick 17, scnt := pick 18, svar := pick 21, sz := pick 22, sfro := pick 23, sstat := pick 24
    pcnt := pick 29, apos := pick 30, amass := pick 31, anorm := pick 32, creplay := pick 33, cassay := pick 34
    cskip := pick 35, px := pick 36 }

/-- MATRIX_COMMAND_COMPLETION (R213, R226, R228): the engine's new state, the bytes as one event, the scalar; then the thread goes on,
or takes its fault at the form. DEDUCED: log 28, 40. -/
def State.matFinish (s : State) (core : Nat) : State :=
  match s.headCmd core .matrix with
  | none => s
  | some c =>
    match c.result with
    | none => s
    | some r =>
      if c.going then s
      else if s.engHeld c (linesOf (r.writes.map (·.loc))) then s.push (.matrixCommandCompletion core)
      else
        let s := match r.me with
          | some m => s.modMat core (fun now => now.merge m r.regs)
          | none => s
        let s := (s.count core 11 r.ksteps).count core 12 r.kskips
        let past := match s.thread? c.uid with
          | some t => t.attr.isSealed && !c.void && t.footOver r.writes
          | none => false
        let s := if past then s else s.engCommit 1 c.uid c.void r.writes []
        let waits := match s.thread? c.uid with
          | some t => decide (t.wait = .matrix)
          | none => false
        let s :=
          if !waits then s
          else if past then
            s.faultThread c.uid 31 0x0B (BitVec.ofNat 64 ((r.writes.map (·.va)).foldl min (2 ^ 48)))
          else
            match r.fault with
            | some (k, v) => s.faultThread c.uid 31 k v
            | none =>
              s.modThread c.uid (fun t =>
                (match r.scalar with
                  | some v => t.fillReg c.reg v
                  | none => t).finish)
        let s := s.popCmd core .matrix
        match (s.mat core).tileOut with
        | some _ => if s.pending.contains (.tileDelivery core) then s else s.push (.tileDelivery core)
        | none => s
/-- MATRIX_COMMAND_COMPLETION. -/
def execMatrixCommandCompletion (core : Nat) (s : State) : Host.Outcome State Fault Refusal := .next (s.matFinish core)

end Sys2Proof.Machine
end

