-- ==== Sys2Proof/Machine/Handle.lean ====
section
/-!
DEFINITION. Meanings of the handle forms (R261-R271): the checks of the handle table (R262, R263), HALLOC (R266, R363), the results
of the operations (R268-R271, R371, R373), handle order and re-dresses (R335, R364-R370).
-/
namespace Sys2Proof.Machine

/-- Whether an address is in a core's own local memory, under either spelling (R305). -/
def ownLocal (core va : Nat) : Bool :=
  decide (windowOf va = 15) || (decide (windowOf va = 14) && decide (va / 2 ^ 16 % 2 ^ 14 = core))
/-- Bytes of `n` elements of a format, packed. -/
def packedBytes (code n : Nat) : Nat := (n * elemBits code + 7) / 8

end Sys2Proof.Machine

namespace Sys2Proof

open Machine

/-- The command as a reader of ordinary memory. -/
def HandleCmd.reader (c : HandleCmd) : Cmd where
  uid := c.uid
  ctx := c.ctx
  op := .ccopy
  reg := 0
  a := c.a
  b := c.b
  pc := c.pc
  mcfg := MeCfg.reset 0
  ccfg := CeCfg.reset
  result := none
  dst := []
  src := []
  vdst := []
  vsrc := []
  boxes := []
  stalled := false
  void := false
  going := false
  mark := 0
  seq := c.seq
  tid := c.tid
/-- The handle that a command reads or writes first. -/
def HandleCmd.target (c : HandleCmd) : Word :=
  match c.op with
  | .pin => c.b
  | .info => c.b
  | .own => c.b
  | .rowsum => c.b
  | .colsum => c.b
  | .copyout => c.b
  | .grows => c.b
  | _ => c.a
/-- The references a command must name, A before B. -/
def HandleCmd.refs (c : HandleCmd) : List Word :=
  match c.op with
  | .alloc => []
  | .sync => if c.a = 0#64 then [] else [c.a]
  | .addh => [c.a, c.b]
  | .mulh => [c.a, c.b]
  | .axpy => [c.a, c.b]
  | .transpose => [c.a, c.b]
  | _ => [c.target]
/-- GKIND of GROWS and SROWS. -/
def HandleCmd.mask (c : HandleCmd) : Bool := c.index.testBit 32
/-- COUNT of GROWS and SROWS. DEDUCED: log 46. -/
def HandleCmd.rowCount (c : HandleCmd) : Nat := c.index % 2 ^ 32
/-- Bytes of their list or mask. -/
def HandleCmd.listBytes (c : HandleCmd) : Nat := if c.mask then (c.rowCount + 63) / 64 * 8 else 4 * c.rowCount
/-- The classes a command needs (R265), the source handle's first; of several that would do, the first is asked for. -/
def HandleCmd.classes (c : HandleCmd) : List (Word × List Nat) :=
  match c.op with
  | .elemRead => [(c.a, [0])]
  | .elemWrite => [(c.a, [1])]
  | .fill => [(c.a, [2])]
  | .fillImg => [(c.a, [2])]
  | .copyin => [(c.a, if ownLocal c.core (c.b.toNat % 2 ^ 48) then [3, 14] else [3])]
  | .copyout => [(c.b, [4])]
  | .rowsum => [(c.b, [5])]
  | .colsum => [(c.b, [6])]
  | .scale => [(c.a, [7])]
  | .addh => [(c.b, [8]), (c.a, [8])]
  | .mulh => [(c.b, [9]), (c.a, [9])]
  | .axpy => [(c.b, [10]), (c.a, [10])]
  | .transpose => [(c.b, [11]), (c.a, [11])]
  | .stageA => [(c.a, [12])]
  | .stageB => [(c.a, [13])]
  | .stageNc => [(c.a, [15])]
  | .stageNr => [(c.a, [16])]
  | .grows => [(c.b, if c.mask then [17, 18] else [18])]
  | .srows => [(c.a, [19])]
  | .own => [(c.b, [21])]
  | _ => []
/-- The rows and columns of codes of an HSTAGE.a or .b tile, and the first row of the handle that it takes (R271). -/
def HandleCmd.tileShape (c : HandleCmd) (h : Handle) : Nat × Nat × Nat :=
  let n := c.index / 2 ^ 16
  let p := (h.rows + n - 1) / n
  if c.op = .stageB then (32 * c.size, 16, 32 * c.size * (c.index % 2 ^ 16)) else (16, 32 * c.size * n, c.index % 2 ^ 16 * p)
/-- P of R271. -/
def HandleCmd.tilePart (c : HandleCmd) (h : Handle) : Nat := let n := c.index / 2 ^ 16; (h.rows + n - 1) / n
/-- The pieces of ordinary memory a command writes: address and length. -/
def HandleCmd.dstPieces (c : HandleCmd) (h : Handle) : List (Nat × Nat) :=
  let va (w : Word) : Nat := w.toNat % 2 ^ 48
  match c.op with
  | .rowsum => [(va c.a, 4 * h.rows)]
  | .colsum => [(va c.a, 4 * h.cols)]
  | .copyout => [(va c.a, packedBytes (fmtOf c.a) h.count)]
  | .grows => [(va c.a, packedBytes h.fmt (c.rowCount * h.cols))]
  | .stageNc => [(va c.b, 4 * h.cols)]
  | .stageNr => [(va c.b, 4 * h.rows)]
  | .stageA =>
    let (rows, cols, _) := c.tileShape h
    (List.range rows).map (fun i => (va c.b + i * c.data.toNat, packedBytes h.fmt cols))
  | .stageB =>
    let (rows, cols, _) := c.tileShape h
    (List.range rows).map (fun i => (va c.b + i * c.data.toNat, packedBytes h.fmt cols))
  | _ => []

/-- The pieces of ordinary memory a command reads: address and length. -/
def HandleCmd.srcPieces (c : HandleCmd) (h : Handle) : List (Nat × Nat) :=
  let va (w : Word) : Nat := w.toNat % 2 ^ 48
  match c.op with
  | .fillImg => [(va c.b, packedBytes h.fmt h.count)]
  | .copyin => [(va c.b, packedBytes (fmtOf c.b) h.count)]
  | .grows => [(va c.data, c.listBytes)]
  | .srows => [(va c.data, c.listBytes), (va c.b, packedBytes h.fmt (c.rowCount * h.cols))]
  | _ => []
/-- The block of own local memory that the handle table reads for a command (R265): its address and length. -/
def HandleCmd.block (c : HandleCmd) : List (Nat × Nat) :=
  let va (w : Word) : Nat := w.toNat % 2 ^ 48
  match c.op with
  | .axpy => [(va c.b, 16)]
  | .grows => [(va c.b, 24)]
  | .srows => [(va c.a, 24)]
  | _ => []
/-- The lines of addresses that some pieces touch. -/
def pieceLines (ps : List (Nat × Nat)) : List Nat := linesOf (ps.flatMap (fun p => (List.range p.2).map (p.1 + ·)))

end Sys2Proof

namespace Sys2Proof.Machine

/-! ## Handles by reference (R261, R262) -/

/-- The handle number of a reference. -/
def refNum (w : Word) : Nat := w.toNat / 2 ^ 40 % 2 ^ 23
/-- The element index of a reference. -/
def refIndex (w : Word) : Nat := w.toNat % 2 ^ 40
/-- The live handle that a reference names for a context. -/
def State.liveRef (s : State) (ctx : Nat) (w : Word) : Option (Nat × Handle) :=
  if isRef w then
    match Tab.find? s.handles (handleKey ctx (refNum w)) with
    | some h => if h.state = .live then some (handleKey ctx (refNum w), h) else none
    | none => none
  else none
/-- Changes a handle. -/
def State.modHandle (s : State) (key : Nat) (f : Handle → Handle) : State :=
  match Tab.find? s.handles key with
  | some h => { s with handles := Tab.insert s.handles key (f h) }
  | none => s
/-- A check of the handle table that fails: the cause, its value, and the class that is then asked for (R361). -/
structure HFault where
  cause : Nat
  fval  : Word
  asked : Option (Nat × Nat)
  deriving DecidableEq, Repr
/-- The engine-operand fault of a handle command. -/
def HFault.operand : HFault := ⟨0x0E, 0#64, none⟩

/-! ## Pointer operands (R149, R265) -/

/-- The fault of an operand of `n` bytes (R149 steps 1 to 5, R305). -/
def State.extentFault (s : State) (core ctx : Nat) (p : Word) (n unit : Nat) (perm : Perm) : Option (Nat × Word) :=
  let va := p.toNat % 2 ^ 48
  if badTag p || isRef p then some (0x03, p)
  else if 2 ^ 48 < va + n then some (0x04, p)
  else if va % unit ≠ 0 then some (0x05, BitVec.ofNat 64 va)
  else if n ≠ 0 ∧ !spanWhole va n then some (0x06, BitVec.ofNat 64 va)
  else
    match s.coreSpot core ctx va perm with
    | .bad k => some (k, BitVec.ofNat 64 va)
    | _ => none
/-- The fault of an own-local operand of `n` bytes (R265). -/
def State.ownFault (s : State) (core ctx : Nat) (p : Word) (n unit : Nat) (perm : Perm) : Option (Nat × Word) :=
  match s.extentFault core ctx p 1 unit perm with
  | some f => some f
  | none =>
    if !ownLocal core (p.toNat % 2 ^ 48) then some (0x0E, 0#64) else s.extentFault core ctx p n unit perm
/-- Word `k` of some bytes. -/
def wordAt (bs : List Byte) (k : Nat) : Word := BitVec.ofNat 64 (leValue ((bs.drop (8 * k)).take 8))
/-- The bytes of an own-local block, or the fault of its pointer or its lines. -/
def State.ownBlock (s : State) (c : HandleCmd) (p : Word) (n : Nat) : Except HFault (List Byte) :=
  match s.ownFault c.core c.ctx p n 8 .rd with
  | some (k, v) => .error ⟨k, v, none⟩
  | none =>
    match s.engRead c.core c.reader true (p.toNat % 2 ^ 48) n with
    | .ok bs => .ok bs
    | .error (.fault k va) => .error ⟨k, BitVec.ofNat 64 (if k = 0x09 then va / 64 * 64 else va), none⟩
    | .error (.page va) => .error ⟨0x08, BitVec.ofNat 64 va, none⟩

/-- The pieces that HALLOC reads (R266): its descriptor, and the tables that this names. -/
def State.descPieces (s : State) (c : HandleCmd) : List (Nat × Nat) :=
  let va (w : Word) : Nat := w.toNat % 2 ^ 48
  let read (p : Word) (n : Nat) : List Byte := match s.engRead c.core c.reader true (va p) n with
    | .ok bs => bs
    | .error _ => []
  let d := read c.b 48
  let table := wordAt d 3
  let owners := wordAt d 4
  [(va c.b, 48)] ++ (if table = 0#64 then [] else [(va table, 1032)]) ++
    (if owners = 0#64 then [] else [(va owners, 16 + 8 * min 65536 (wordAt (read owners 16) 1).toNat)])
/-- The places of some pieces of ordinary memory, where they can be read now. -/
def State.piecePlaces (s : State) (c : HandleCmd) (ps : List (Nat × Nat)) : List Nat :=
  ps.flatMap (fun p => s.placesOf c.core c.ctx p.1 .rd p.2)
/-- Whether the block or the descriptor that the handle table reads for a command lies on a line that an earlier command owns (R332). -/
def State.blockOwned (s : State) (c : HandleCmd) : Bool :=
  !c.held && (linesOf (s.piecePlaces c (if c.op = .alloc then s.descPieces c else c.block))).any s.owned

/-! ## The command that is checked -/

/-- The fault of a reference that names no live handle. -/
def HFault.invalid (w : Word) : HFault := ⟨0x0D, w, none⟩
/-- The undeclared-operation trap, with the widening request record (R263). -/
def HFault.undeclared (key : Nat) (h : Handle) (w : Word) (cls : Nat) : HFault :=
  ⟨0x0C, BitVec.ofNat 64 (refNum w * 2 ^ 41 + cls * 2 ^ 36 + h.gen.toNat), some (key, cls)⟩
/-- Puts in place of a block what it holds, and the settings that HSTAGE copies: AXPY's x and α, the handle, list and count of GROWS
and SROWS, and KS, ring and stride of HSTAGE (R265, R271). -/
def State.normalise (s : State) (c : HandleCmd) : Except HFault HandleCmd :=
  let cfg := (s.core c.core).eng.me.cfg
  match c.op with
  | .axpy =>
    match s.liveRef c.ctx c.a with
    | none => .error (.invalid c.a)
    | some (key, y) =>
      match s.ownBlock c c.b 16 with
      | .ok bs => .ok { c with b := wordAt bs 0, data := wordAt bs 1 }
      | .error f => if y.has 10 then .error f else .error (.undeclared key y c.a 10)
  | .grows => (s.ownBlock c c.b 24).map (fun bs =>
      { c with b := wordAt bs 0, data := wordAt bs 1, index := (wordAt bs 2).toNat % 2 ^ 33 })
  | .srows => (s.ownBlock c c.a 24).map (fun bs =>
      { c with a := wordAt bs 0, data := wordAt bs 1, index := (wordAt bs 2).toNat % 2 ^ 33 })
  | .stageA => .ok { c with size := cfg.ks, index := (cfg.ringLen + 1) * 2 ^ 16 + cfg.pos, data := cfg.astr }
  | .stageB => .ok { c with size := cfg.ks, index := (cfg.ringLen + 1) * 2 ^ 16 + cfg.pos, data := cfg.bstr }
  | _ => .ok c
/-- Step 1 of R262. -/
def State.refFault (s : State) (ctx : Nat) : List Word → Option HFault
  | [] => none
  | w :: ws => if (s.liveRef ctx w).isNone then some (.invalid w) else s.refFault ctx ws
/-- Step 2 of R262. -/
def State.classFault (s : State) (ctx : Nat) : List (Word × List Nat) → Option HFault
  | [] => none
  | (w, ks) :: rest =>
    match s.liveRef ctx w with
    | none => some (.invalid w)
    | some (key, h) => if ks.any h.has then s.classFault ctx rest else some (.undeclared key h w (ks.headD 0))

/-! ## Operand limits (R262 step 3) -/

/-- A scalar operand: a NaN or an infinity is refused (R269). DEDUCED: log 92. -/
def scalarOf (w : Word) : Option FV :=
  match value F32 (w.toNat % 2 ^ 32) with
  | .nan _ => none
  | .inf _ => none
  | v => some v
/-- The destination of a transposition: the last two dimensions swapped; one dimension counts as one row. DEDUCED: log 92. -/
def swappedShape (l : List Nat) : List Nat :=
  match l.reverse with
  | [] => []
  | [c] => [c, 1]
  | c :: r :: rest => (r :: c :: rest).reverse
/-- A shape with at least two dimensions. -/
def twoShape (l : List Nat) : List Nat := if l.length = 1 then 1 :: l else l
/-- The first of some checks that fails. -/
def firstFault : List (Option (Nat × Word)) → Option HFault
  | [] => none
  | some (k, v) :: _ => some ⟨k, v, none⟩
  | none :: rest => firstFault rest
/-- The operand-limit fault of a form, on its handle `h`. -/
def State.limitFault (s : State) (c : HandleCmd) (h : Handle) : Option HFault :=
  let ext (p : Word) (n unit : Nat) (perm : Perm) : Option (Nat × Word) := s.extentFault c.core c.ctx p n unit perm
  let op : Option (Nat × Word) := some (0x0E, 0#64)
  let whole (b : Bool) : Option (Nat × Word) := if b then op else none
  let list : Option (Nat × Word) := ext c.data c.listBytes 1 .rd
  let other := (s.liveRef c.ctx c.b).map (·.2)
  match c.op with
  | .widen => firstFault [whole (decide (c.b.toNat / 2 ^ 22 % 2 ^ 10 ≠ 0))]
  | .info => firstFault [whole (decide (3 < refIndex c.b))]
  | .own => firstFault [if refIndex c.b < h.count then none else some (0x04, c.b)]
  | .elemRead => elem h
  | .elemWrite => elem h
  | .scale => firstFault [whole (scalarOf c.b).isNone]
  | .fill => firstFault [whole (scalarOf c.b).isNone]
  | .addh => firstFault [whole (decide (other.map Handle.used ≠ some h.used))]
  | .mulh => firstFault [whole (decide (other.map Handle.used ≠ some h.used))]
  | .axpy => firstFault [whole (decide (other.map Handle.used ≠ some h.used)), whole (scalarOf c.data).isNone]
  | .transpose => firstFault [whole (decide (other.map (fun x => swappedShape x.used) ≠ some (twoShape h.used)))]
  | .rowsum => firstFault [ext c.a (4 * h.rows) 4 .wr]
  | .colsum => firstFault [ext c.a (4 * h.cols) 4 .wr]
  | .fillImg => firstFault [ext c.b (packedBytes h.fmt h.count) 1 .rd]
  | .copyin => firstFault [whole (!badTag c.b && !isRef c.b && decide (fmtOf c.b = 0)),
      ext c.b (packedBytes (fmtOf c.b) h.count) (elemBytes (fmtOf c.b)) .rd]
  | .copyout => firstFault [whole (!badTag c.a && !isRef c.a && decide (fmtOf c.a = 0)),
      ext c.a (packedBytes (fmtOf c.a) h.count) (elemBytes (fmtOf c.a)) .wr]
  | .stageA => tile h
  | .stageB => tile h
  | .stageNc => firstFault [ext c.b (4 * h.cols) 4 .wr]
  | .stageNr => firstFault [ext c.b (4 * h.rows) 4 .wr]
  | .grows => firstFault [whole (decide (c.rowCount = 0)), list, ext c.a (packedBytes h.fmt (c.rowCount * h.cols)) 1 .wr]
  | .srows => firstFault [whole (decide (c.rowCount = 0)), list, ext c.b (packedBytes h.fmt (c.rowCount * h.cols)) 1 .rd]
  | _ => none
where
  /-- An element access (R155): escape, an odd index of an H4 handle, a size the format does not allow. -/
  elem (h : Handle) : Option HFault := firstFault [
    if c.index < h.count then none else some (0x04, c.a),
    if isH4 h.fmt && decide (c.index % 2 = 1) then some (0x05, BitVec.ofNat 64 c.index) else none,
    if sizeFits h.fmt c.size then none else some (0x03, c.a),
    -- a block owned elsewhere lies behind the links (R373, R419)
    match h.owner c.index with
    | some w =>
      let d := w.toNat % 4096
      if decide (d ≠ s.device.devid.toNat) && (s.lostDevs.contains d || !s.paired c.ctx d) then some (0x07, c.a) else none
    | none => none]
  /-- HSTAGE.a and .b (R271, R215). -/
  tile (h : Handle) : Option HFault :=
    let (rows, cols, _) := c.tileShape h
    let n := c.index / 2 ^ 16
    let last := c.b.toNat % 2 ^ 16 + (rows - 1) * c.data.toNat + packedBytes h.fmt cols
    firstFault [
      if decide (16 < c.tilePart h) || decide (32 * c.size * n < h.cols) || (decide (c.op = .stageB) && decide (16 < h.cols)) then
        some (0x0E, 0#64) else none,
      s.ownFault c.core c.ctx c.b 1 (elemBytes h.fmt) .wr,
      if 0xC000 < last then some (0x06, BitVec.ofNat 64 (c.b.toNat % 2 ^ 48)) else none]
/-- The checks of R262, in order: the command with its blocks read, and the keys of the handles it enters. DEDUCED: log 51. -/
def State.handleCheck (s : State) (c : HandleCmd) : Except HFault (HandleCmd × List Nat) :=
  match (if c.held then .ok c else s.normalise c) with
  | .error f => .error f
  | .ok c =>
    match s.refFault c.ctx c.refs with
    | some f => .error f
    | none =>
      match s.classFault c.ctx c.classes with
      | some f => .error f
      | none =>
        let keys := (c.refs.map (fun w => handleKey c.ctx (refNum w))).eraseDups
        match s.liveRef c.ctx c.target with
        | none => .ok (c, keys)
        | some (_, h) =>
          match s.limitFault c h with
          | some f => .error f
          | none => .ok (c, keys)

/-! ## Handle order (R335) -/

/-- The next thing to happen to a handle whose order has a new head. -/
def State.pokeHandle (s : State) (key : Nat) : State :=
  match Tab.find? s.handles key with
  | none => s
  | some h =>
    match h.order with
    | [] => s
    | e :: _ =>
      if e.redress then (if e.built then s else s.push (.redressStart (key / 2 ^ 23) (key % 2 ^ 23)))
      else s.push (.handleOperationCompletion (key / 2 ^ 23) (key % 2 ^ 23))
/-- Adds an operation at the end of a handle's order: it binds to the generation that the re-dresses before it leave (R335). -/
def State.enterOrder (s : State) (key : Nat) (e : HEntry) : State :=
  let first := match Tab.find? s.handles key with
    | some h => h.order.isEmpty
    | none => false
  let s := s.modHandle key (fun h => { h with order := h.order ++
    [{ e with gen := h.gen + BitVec.ofNat 32 (h.order.filter (·.redress)).length }] })
  if first then s.pokeHandle key else s
/-- Whether a thread has an operation on a handle, or on any handle of its context, that has not completed (R268). -/
def State.covered (s : State) (u ctx : Nat) (hnum : Option Nat) : Bool :=
  s.handles.any (fun e => decide (e.1 / 2 ^ 23 = ctx) &&
    (match hnum with
      | some n => decide (e.1 % 2 ^ 23 = n)
      | none => true) &&
    e.2.order.any (fun o => decide (o.cmd.uid = u) && decide (o.cmd.op ≠ .sync)))
/-- An HSYNC of one handle is counted there when it completes (R385). -/
def State.countSync (s : State) (ctx : Nat) (hnum : Option Nat) : State :=
  match hnum with
  | some n => s.modHandle (handleKey ctx n) (fun h => { h with hops := h.hops + 1 })
  | none => s
/-- HSYNCs whose operations have all completed complete (R268). -/
def State.checkSyncs (s : State) : State :=
  let done := s.syncs.filter (fun y : Nat × Nat × Option Nat => !s.covered y.1 y.2.1 y.2.2)
  let left := s.syncs.filter (fun y : Nat × Nat × Option Nat => s.covered y.1 y.2.1 y.2.2)
  done.foldl (fun s y => (s.countSync y.2.1 y.2.2).modThread y.1 Thread.finish) { s with syncs := left }

end Sys2Proof.Machine
end

