-- ==== Sys2Proof/Machine/Hop.lean ====
section
/-!
DEFINITION. What handle commands do when they complete (R266-R271, R371, R373), their admission and completion in handle order
(R262, R335, R270), and the issue of the handle forms (R264, R265).
-/
namespace Sys2Proof

/-- Forms that reply at completion (R262). -/
def HandleOp.late : HandleOp → Bool
  | .pin => true
  | .info => true
  | .own => true
  | .stageA => true
  | .stageB => true
  | .stageNc => true
  | .stageNr => true
  | .elemRead => true
  | _ => false
/-- Forms that a sealed thread does not hold (R264). -/
def HandleOp.atOnce : HandleOp → Bool
  | .alloc => true
  | .info => true
  | .own => true
  | .elemRead => true
  | .sync => true
  | _ => false

/-- The forms counted as executed on slice ALUs or sett cores (R385). -/
def HandleOp.isHop : HandleOp → Bool
  | .rowsum => true
  | .colsum => true
  | .scale => true
  | .addh => true
  | .mulh => true
  | .axpy => true
  | .fill => true
  | .fillImg => true
  | .transpose => true
  | .copyin => true
  | .copyout => true
  | .grows => true
  | .srows => true
  | _ => false

/-- Forms that read the elements of their handle, and of their second handle (R269-R271). -/
def HandleOp.reads : HandleOp → Bool
  | .rowsum => true
  | .colsum => true
  | .scale => true
  | .addh => true
  | .mulh => true
  | .axpy => true
  | .copyout => true
  | .stageA => true
  | .stageB => true
  | .stageNc => true
  | .stageNr => true
  | .grows => true
  | .elemRead => true
  | _ => false
/-- Forms that read the elements of a second handle. -/
def HandleOp.readsOther : HandleOp → Bool
  | .addh => true
  | .mulh => true
  | .axpy => true
  | .transpose => true
  | _ => false
/-- Forms that write every element without reading any of their handle. -/
def HandleOp.rewrites : HandleOp → Bool
  | .fill => true
  | .fillImg => true
  | .transpose => true
  | .copyin => true
  | _ => false

end Sys2Proof

namespace Sys2Proof.Machine

/-! ## Results -/

/-- An element decoded to F32. -/
def Handle.f32 (h : Handle) (i : Nat) : FV := value F32 (round F32 false false (h.val i)).1
/-- The codes of a handle with new ones for the elements this device holds. -/
def State.recode (s : State) (h : Handle) (f : Nat → Nat) : Store 32 :=
  ((List.range h.count).filter (s.keeps h)).foldl (fun st i => Store.put st i (BitVec.ofNat 32 (f i))) h.codes

/-- Element `i` of packed bytes (R59). DEDUCED: log 48. -/
def unpackAt (code : Nat) (bs : List Byte) (i : Nat) : Nat :=
  let bits := elemBits code
  if bits = 4 then (bs.getD (i / 2) 0#8).toNat / (if i % 2 = 0 then 1 else 16) % 16
  else leValue ((bs.drop (i * (bits / 8))).take (bits / 8))

/-- The bytes of packed elements, each with the bits it sets: none for an element that is left alone. DEDUCED: log 48. -/
def packItems (code n : Nat) (elem : Nat → Option Nat) : List (Nat × Nat × Nat) :=
  let bits := elemBits code
  if bits = 4 then
    (List.range ((n + 1) / 2)).map (fun j =>
      let nib (i : Nat) : Nat × Nat := if i < n then (match elem i with
        | some v => (15, v % 16)
        | none => (0, 0)) else (0, 0)
      let lo := nib (2 * j)
      let hi := nib (2 * j + 1)
      (j, lo.1 + 16 * hi.1, lo.2 + 16 * hi.2))
  else
    (List.range n).flatMap (fun i =>
      match elem i with
      | some v => (List.range (bits / 8)).map (fun b => (i * (bits / 8) + b, 255, v / 2 ^ (8 * b) % 256))
      | none => [])

/-- Writes packed bytes from an address up; a byte set in part keeps the rest. -/
def State.hopPut (s : State) (c : HandleCmd) (hard : Bool) (va : Nat) :
    List (Nat × Nat × Nat) → Except EngStop (List WEntry)
  | [] => .ok []
  | (j, m, v) :: rest =>
    match s.hopPut c hard va rest with
    | .error e => .error e
    | .ok es =>
      if m = 0 then .ok es
      else
        match (if m = 255 then .ok [0#8] else s.engRead c.core c.reader hard (va + j) 1) with
        | .error e => .error e
        | .ok old =>
          let byte := BitVec.ofNat 8 v ||| ((old.headD 0#8) &&& ~~~(BitVec.ofNat 8 m))
          match s.engWrite c.core c.reader hard (va + j) [byte] with
          | .error e => .error e
          | .ok ws => if ws.any (fun w => s.poisoned w.loc) then .error (.fault 0x09 (va + j)) else .ok (ws ++ es)

/-- What a command leaves: bytes of ordinary memory, the codes of its handle, a value for its register and flags for its thread. -/
structure HopResult where
  writes : List WEntry
  codes  : Option (Store 32)
  reply  : Option Word
  flags  : Flags
  deriving DecidableEq, Repr

/-- A command that leaves nothing. -/
def HopResult.nothing : HopResult := ⟨[], none, none, 0#6⟩

/-- What an element read answers (R155, R154), with FZ of FFLAGS `ff`. DESIGN CHOICE: log 49. -/
def Handle.elemGet (h : Handle) (ff : Word) (i : Nat) : Word × Flags :=
  if isH4 h.fmt then
    let get (k : Nat) : Nat × Flags := elemF32 (ff.getLsbD 8) (h.val k)
    let lo := get i
    let hi : Nat × Flags := if i + 1 < h.count then get (i + 1) else (0, 0#6)
    (BitVec.ofNat 64 (lo.1 + 2 ^ 32 * hi.1), lo.2 ||| hi.2)
  else loadValue (fun _ => h.table) h.fmt (ff.getLsbD 8) (h.code i)

/-- The elements that an element write stores, and its flags (R155, R154). DEDUCED: log 47. -/
def Handle.elemPut (h : Handle) (ff : Word) (i : Nat) (d : Word) : List (Nat × Nat) × Flags :=
  let fz := ff.getLsbD 8
  let sat := ff.getLsbD 9
  if isH4 h.fmt then
    let put (w : Nat) : Nat × Flags := encodeElem h.fmt (fun _ => h.table) fz sat (value F32 (w % 2 ^ 32))
    let lo := put d.toNat
    if i + 1 < h.count then
      let hi := put (d.toNat / 2 ^ 32)
      ([(i, lo.1), (i + 1, hi.1)], lo.2 ||| hi.2)
    else ([(i, lo.1)], lo.2)
  else
    let (v, f) := storeValue (fun _ => h.table) h.fmt fz sat d
    ([(i, v % 2 ^ elemBits h.fmt)], f)

/-- F32 words at successive addresses. -/
def f32Items (ws : List Nat) : List (Nat × Nat × Nat) :=
  ws.zipIdx.flatMap (fun w => (List.range 4).map (fun b => (4 * w.2 + b, 255, w.1 / 2 ^ (8 * b) % 256)))

/-- The operation set that the completed operations have left: HWIDENs that still stand in the order have not added their classes (R268,
R335). -/
def Handle.opsetNow (h : Handle) : BitVec 32 :=
  h.order.foldl (fun m e => if e.cmd.op = .widen then m &&& ~~~(e.cmd.b.setWidth 32) else m) h.opset

/-- What a command does on its handle `h` (R268-R271); `x` is the second handle. A row index beyond the handle reads a free value.
DEDUCED: log 46, 47, 92. DESIGN CHOICE: log 49. -/
def State.hopRun (s : State) (c : HandleCmd) (h x : Handle) (hard : Bool) : Except EngStop HopResult :=
  let va (w : Word) : Nat := w.toNat % 2 ^ 48
  let none' := HopResult.nothing
  let put (a : Nat) (items : List (Nat × Nat × Nat)) : Except EngStop HopResult :=
    (s.hopPut c hard a items).map (fun ws => { none' with writes := ws })
  let code (f : Nat → Nat) : Except EngStop HopResult := .ok { none' with codes := some (s.recode h f) }
  let read (p : Word) (n : Nat) : Except EngStop (List Byte) := s.engRead c.core c.reader hard (va p) n
  let tab := (s.core c.core).tab
  let scalar (w : Word) : FV := (scalarOf w).getD (.zero false)
  let rowsOf : Except EngStop (List Nat) := (read c.data c.listBytes).map (selectedRows c.mask c.rowCount)
  let tile : Except EngStop HopResult :=
    let (rows, cols, first) := c.tileShape h
    let limit := if c.op = .stageB then rows else min rows (c.tilePart h)
    let row (i : Nat) : List (Nat × Nat × Nat) :=
      (packItems h.fmt cols (fun k =>
        some (if i < limit ∧ first + i < h.rows ∧ k < h.cols then h.code ((first + i) * h.cols + k) else 0))).map
        (fun e => (i * c.data.toNat + e.1, e.2))
    put (va c.b) ((List.range rows).flatMap row)
  match c.op with
  | .info => .ok { none' with reply := some (
      match refIndex c.b with
      | 0 => BitVec.ofNat 64 (h.opsetNow.toNat + 2 ^ 32 * h.fmt + 2 ^ 40 * (h.ndim - 1))
      | 1 => h.gen.setWidth 64
      | 2 => BitVec.ofNat 64 (h.dims.getD 0 0 + 2 ^ 32 * h.dims.getD 1 0)
      | _ => BitVec.ofNat 64 (h.dims.getD 2 0 + 2 ^ 32 * h.dims.getD 3 0)) }
  | .own => .ok { none' with reply := some (
      match h.owner (refIndex c.b) with
      | some w => BitVec.ofNat 64 (w.toNat % 4096)
      | none => s.device.devid.setWidth 64) }
  | .elemRead =>
    if s.keeps h c.index then let (v, f) := h.elemGet c.b c.index; .ok { none' with reply := some v, flags := f }
    else .ok { none' with reply := some (Config.freeWord s.free) }
  | .elemWrite =>
    let put := (h.elemPut c.b c.index c.data).1.filter (fun e => s.keeps h e.1)
    .ok { none' with codes := some (put.foldl (fun st e => Store.put st e.1 (BitVec.ofNat 32 e.2)) h.codes) }
  | .rowsum => put (va c.a) (f32Items ((List.range h.rows).map (fun r =>
      sumF32 (.zero true) ((s.rowOf h r).map h.f32))))
  | .colsum => put (va c.a) (f32Items ((List.range h.cols).map (fun k =>
      sumF32 (.zero true) ((s.colOf h k).map h.f32))))
  | .scale => code (fun i => h.rnd ((h.val i).mul (scalar c.b)))
  | .fill => code (fun _ => h.rnd (scalar c.b))
  | .addh => code (fun i => h.rnd ((h.val i).add (x.val i)))
  | .mulh => code (fun i => h.rnd ((h.val i).mul (x.val i)))
  | .axpy => code (fun i => h.rnd (((scalar c.data).mul (x.val i)).add (h.val i)))
  | .transpose =>
    let q := x.cols
    let p := (twoShape x.used).reverse.getD 1 1
    code (fun i => let o := i % (p * q); h.rnd (x.val (i / (p * q) * (p * q) + o % p * q + o / p)))
  | .fillImg =>
    match read c.b (packedBytes h.fmt h.count) with
    | .error e => .error e
    | .ok bs => code (unpackAt h.fmt bs)
  | .copyin =>
    match read c.b (packedBytes (fmtOf c.b) h.count) with
    | .error e => .error e
    | .ok bs => code (fun i => h.rnd (decodeElem (fmtOf c.b) tab (unpackAt (fmtOf c.b) bs i)))
  | .copyout => put (va c.a) (packItems (fmtOf c.a) h.count (fun i =>
      if s.keeps h i then some (encodeElem (fmtOf c.a) tab false false (h.val i)).1 else none))
  | .stageA => tile
  | .stageB => tile
  | .stageNc => put (va c.b) (f32Items ((List.range h.cols).map (fun k => (Store.get h.normC k).toNat)))
  | .stageNr => put (va c.b) (f32Items ((List.range h.rows).map (fun r => (Store.get h.normR r).toNat)))
  | .grows =>
    match rowsOf with
    | .error e => .error e
    | .ok rows => put (va c.a) (packItems h.fmt (rows.length * h.cols) (fun k =>
        let r := rows.getD (k / max 1 h.cols) 0
        let i := r * h.cols + k % max 1 h.cols
        if i < h.count then (if s.keeps h i then some (h.code i) else none)
        else some ((Config.freeWord (s.free + k)).toNat % 2 ^ elemBits h.fmt)))
  | .srows =>
    match rowsOf with
    | .error e => .error e
    | .ok rows =>
      match read c.b (packedBytes h.fmt (rows.length * h.cols)) with
      | .error e => .error e
      | .ok bs => .ok { none' with codes := some (
          (List.range (rows.length * h.cols)).foldl (fun st k =>
            let i := rows.getD (k / max 1 h.cols) 0 * h.cols + k % max 1 h.cols
            if i < h.count ∧ s.keeps h i then Store.put st i (BitVec.ofNat 32 (unpackAt h.fmt bs k)) else st) h.codes) }
  | _ => .ok none'

/-! ## Dresses (R366-R370) -/

/-- A permutation of a list, by number. -/
def permutation : Nat → List Nat → Nat → List Nat
  | 0, l, _ => l
  | n + 1, l, k =>
    let i := k % max 1 l.length
    match l.drop i with
    | [] => l
    | x :: rest => x :: permutation n (l.take i ++ rest) (k / max 1 l.length)

/-- Whether a class of the handle needs each row to start on a 64-byte boundary (R367). -/
def Handle.needsLines (h : Handle) : Bool := [12, 13, 14, 17, 18, 19].any h.has
/-- The paddings of a row that let the next row start on a 64-byte boundary (R366). -/
def Handle.linePads (h : Handle) : List Nat := (List.range 64).filter (fun p => decide ((h.cols + p) * elemBits h.fmt % 512 = 0))
/-- Whether a dress can meet every class of the handle (R367): its rows can be padded to lines, and one for sett cores fits a
pseudo-channel. -/
def Handle.dressable (h : Handle) : Bool :=
  (!h.needsLines || decide (h.rows ≤ 1) || !h.linePads.isEmpty) && !(h.has 20 && decide (805306368 < h.charge))

/-- The Dresser's choice of a dress that meets the classes (R367), on stacks that are not lost, each copy on a stack that holds no other
(R366): what the spec leaves to it is free. DESIGN CHOICE: log 52. -/
def State.dressFor (s : State) (h : Handle) (ctx : Nat) : Dress × State :=
  let rows := [17, 18, 19].any h.has
  let lines := h.needsLines
  let (k, s) := s.choose 24
  let (pads, s) := (List.range 4).foldl (fun (a : List Nat × State) _ => let (p, s) := a.2.choose 64; (a.1 ++ [p], s)) ([], s)
  let (pick, s) := s.choose 2
  let (mix, s) := s.choose 479001600
  let (set, s) := s.choose 4095
  let (chan, s) := s.choose 64
  let (faces, s) := s.choose 256
  let (first, s) := s.choose 128
  let (more, s) := s.choose (128 - first)
  let (homes, s) := s.choose 256
  let repl := match s.page? ctx with
    | some (_, p) => p.repl.toNat
    | none => 0
  let (rep, s) := s.choose (min repl 2 + 1)
  let ids := List.range h.ndim
  let order := if rows || lines then permutation 4 ids.dropLast k ++ ids.drop (h.ndim - 1) else permutation 4 ids k
  let small := decide (h.charge ≤ 805306368)
  let place := if h.has 20 then 2 else if h.hint = 1#4 then 0 else if h.hint = 2#4 then 1
    else if h.hint = 3#4 ∧ small then 2 else pick
  -- a row of a class that needs it is padded to whole lines
  let fills := h.linePads
  let fill := fills.getD (pads.getD 3 0 % max 1 fills.length) 0
  let pad := if lines then (List.range h.ndim).map (fun d => if d + 1 = h.ndim then fill else pads.getD d 0)
    else pads.take h.ndim
  -- the copies share no stack
  let alive := permutation 12 ((List.range 12).filter (fun k => !s.lostStacks.contains k)) mix
  let rep := min rep (alive.length - 1)
  let main := alive.drop rep
  let spread := main.filter (fun k => (set + 1).testBit k)
  let spread := if spread.isEmpty then main.take 1 else spread
  let group := BitVec.ofNat 8 faces &&& ~~~s.device.fenced
  ({ order := order, pad := pad, place := place, sett := 64 * main.headD 0 + chan
     onStacks := spread.foldl (fun m k => m ||| BitVec.ofNat 12 (2 ^ k)) 0#12
     slice := if group = 0#8 then none else some (group, first, first + more), replicas := alive.take rep
     homes := BitVec.ofNat 8 homes &&& ~~~s.device.fenced }, s)

/-! ## HALLOC (R266, R363) -/

/-- The 64-byte units that a context's pinned handles hold (R319). -/
def State.pinned (s : State) (ctx : Nat) : Nat :=
  s.handles.foldl (fun n e => if decide (e.1 / 2 ^ 23 = ctx) && e.2.pin then n + e.2.charge / 64 else n) 0

/-- The decode table or the owner table a descriptor names: none when a check or a line fails. -/
def State.descTable (s : State) (c : HandleCmd) (hard : Bool) (p : Word) (n : Nat) : Except EngStop (Option (List Byte)) :=
  match s.extentFault c.core c.ctx p n 8 .rd with
  | some _ => .ok none
  | none =>
    match s.engRead c.core c.reader hard (p.toNat % 2 ^ 48) n with
    | .error (.page va) => .error (.page va)
    | .error (.fault _ _) => .ok none
    | .ok bs => .ok (some bs)

/-- The handle a descriptor describes, not yet dressed; none for an invalid one (R266, R372). DEDUCED: log 50. -/
def State.describe (s : State) (c : HandleCmd) (hard : Bool) : Except EngStop (Option Handle) :=
  match s.descTable c hard c.b 48 with
  | .error e => .error e
  | .ok none => .ok none
  | .ok (some bs) =>
    let w (k : Nat) : Nat := (wordAt bs k).toNat
    let ops := w 0 % 2 ^ 32
    let fmt := w 0 / 2 ^ 32 % 32
    let nd := w 0 / 2 ^ 40 % 4 + 1
    let hint := w 0 / 2 ^ 44 % 16
    let dims := [w 1 % 2 ^ 32, w 1 / 2 ^ 32, w 2 % 2 ^ 32, w 2 / 2 ^ 32]
    let e := (dims.take nd).foldl (· * ·) 1
    let table := decide (4 ≤ fmt ∧ fmt ≤ 11)
    let shard := ops.testBit 21
    if w 0 ≠ ops + fmt * 2 ^ 32 + (nd - 1) * 2 ^ 40 + hint * 2 ^ 44 ∨ 2 ^ 22 ≤ ops ∨ fmt = 0 ∨ 12 < fmt ∨ w 5 ≠ 0 ∨
        (dims.take nd).contains 0 ∨ 2 ^ 40 < e ∨ decide (w 3 ≠ 0) ≠ table ∨ decide (w 4 ≠ 0) ≠ shard then .ok none
    else
      let tab : Except EngStop (Option DTable) :=
        if table then (s.descTable c hard (wordAt bs 3) 1032).map (fun o => o.map DTable.ofImage) else .ok (some DTable.reset)
      match tab with
      | .error x => .error x
      | .ok none => .ok none
      | .ok (some t) =>
        let own : Except EngStop (Option (Nat × List Word)) :=
          if !shard then .ok (some (0, []))
          else
            match s.descTable c hard (wordAt bs 4) 16 with
            | .error x => .error x
            | .ok none => .ok none
            | .ok (some hd) =>
              let size := (wordAt hd 0).toNat
              let n := (wordAt hd 1).toNat
              if size = 0 ∨ 2 ^ 40 < size ∨ 65536 < n ∨ n ≠ (e + size - 1) / size then .ok none
              else
                match s.descTable c hard (wordAt bs 4) (16 + 8 * n) with
                | .error x => .error x
                | .ok none => .ok none
                | .ok (some all) =>
                  let es := (List.range n).map (fun k => wordAt all (2 + k))
                  let bad (v : Word) : Bool := decide (v.toNat / 2 ^ 35 ≠ 0) ||
                    (decide (v.toNat % 4096 = s.device.devid.toNat) && decide (v.toNat / 4096 ≠ 0))
                  if es.any bad then .ok none else .ok (some (size, es))
        match own with
        | .error x => .error x
        | .ok none => .ok none
        | .ok (some (size, es)) =>
          let dress : Dress := ⟨[], [], 0, 0, 0#12, none, [], 0#8⟩
          .ok (some {
            state := .live, opset := BitVec.ofNat 32 ops, fmt := fmt, ndim := nd, dims := dims, table := t, bsize := size
            owners := es, hint := BitVec.ofNat 4 hint, gen := 0#32, dress := dress, pin := false, bad := false, asked := 0#32
            charge := 64 * ((e * elemBits fmt + 511) / 512), normC := [], normR := [], codes := [], order := []
            dressedAt := none, hops := 1#64, redress := 0#64, slicex := 0#64, settx := 0#64 })

/-- HALLOC at the handle table: the reference, or the first status of 3, 2, 1, 4 that holds. Whether memory for a dress is left is
the device's own affair. DEDUCED: log 50. DESIGN CHOICE: log 44, 61. -/
def State.halloc (s : State) (c : HandleCmd) (hard : Bool) : State :=
  let s := s.touchPlaces (s.piecePlaces c (s.descPieces c))
  match s.describe c hard with
  | .error (.page va) => (s.count c.core 8 1).faultWait c.ctx (va / 2 ^ 16) (.handle c)
  | .error (.fault _ _) => s.push (.replyArrival c.uid c.reg 3#64)
  | .ok none => s.push (.replyArrival c.uid c.reg 3#64)
  | .ok (some h) =>
    match s.page? c.ctx with
    | none => s.push (.replyArrival c.uid c.reg 3#64)
    | some (i, p) =>
      let held (e : Nat × Handle) : Bool := decide (e.2.state ≠ .dead)
      let mine := s.handles.filter (fun e => decide (e.1 / 2 ^ 23 = c.ctx) && held e)
      let bytes := mine.foldl (fun n e => n + e.2.charge) 0
      if 2 ^ 23 ≤ p.nextH then s.push (.replyArrival c.uid c.reg 2#64)
      else if p.hqmax.toNat < mine.length + 1 ∨ p.hqbytes.toNat < bytes + h.charge then
        s.push (.replyArrival c.uid c.reg 1#64)
      else
        let (full, s) := s.choose 2
        if full = 1 ∨ 2 ^ 20 ≤ (s.handles.filter held).length ∨ h.dressable = false then
          s.push (.replyArrival c.uid c.reg 4#64)
        else
          let (d, s) := s.dressFor h c.ctx
          let s : State := { s with handles := Tab.insert s.handles (handleKey c.ctx p.nextH) { h with dress := d } }
          let s := s.modPage i (fun p => { p with nextH := p.nextH + 1 })
          let s := s.modThread c.uid (fun t => if t.attr.isSealed then { t with allocs := t.allocs ++ [p.nextH] } else t)
          (s.push (.replyArrival c.uid c.reg (BitVec.ofNat 64 (2 ^ 63 + p.nextH * 2 ^ 40)))).progress c.ctx

/-! ## Admission (R262) -/

/-- The handle table tells a thread that its command is admitted; a command of no thread is told nothing. -/
def State.admitted (s : State) (c : HandleCmd) : State := if c.held then s else s.push (.replyArrival c.uid 31#5 0#64)

/-- The port words that an access to an element takes are popped (R95). -/
def State.takeWords (s : State) (c : HandleCmd) : State :=
  let slot := match s.thread? c.uid with
    | some t => t.slot
    | none => 31
  let pop (p : Nat) (s : State) (_ : Nat) : State := (s.popPort c.uid c.core slot p).2
  (List.range (c.portWords 29)).foldl (pop 29) ((List.range (c.portWords 28)).foldl (pop 28) s)

/-- A command enters the orders of its handles (R262, R335): HFREE makes its handle freeing (R365), HWIDEN adds its bits and, when it
adds any, enters as a re-dress (R267). DEDUCED: log 45. -/
def State.enterHandles (s : State) (c : HandleCmd) (keys : List Nat) : State :=
  let target := handleKey c.ctx (refNum c.target)
  let adds := match Tab.find? s.handles target, c.op with
    | some h, .widen => c.b.setWidth 32 &&& 0x3FFFFF#32 &&& ~~~h.opset
    | _, _ => 0#32
  let lines := match Tab.find? s.handles target with
    | some h => pieceLines (c.dstPieces h)
    | none => []
  let dst := lines.filterMap (s.lineAt c.core c.ctx .wr)
  let vdst := lines.filter (fun v => (s.lineAt c.core c.ctx .wr v).isNone)
  let s := s.modHandle target (fun h =>
    match c.op with
    | .free => { h with state := .freeing }
    | .widen => { h with opset := h.opset ||| adds, asked := h.asked &&& ~~~adds }
    | _ => h)
  let s : State := { s with co := s.co + 1 }
  -- an HWIDEN is remembered by the classes that it adds
  let c : HandleCmd := if c.op = .widen then { c with b := adds.setWidth 64 } else c
  let entry (k : Nat) : HEntry :=
    { cmd := c, redress := decide (adds ≠ 0#32), gen := 0#32, other := keys.find? (fun j => decide (j ≠ k)), built := false
      dst := if k = target then dst else [], vdst := if k = target then vdst else [], mark := s.co }
  keys.foldl (fun s k => s.enterOrder k (entry k)) s

/-- The handle table as the commands that a sealed thread holds will leave it: with the classes its HWIDENs add (R264, R97). -/
def State.foreseen (s : State) (u : Nat) : State :=
  ((s.thread? u).elim [] (·.held)).foldl (fun s h => match h.step with
    | .step (.handleCommandAdmission k) =>
      if k.op = .widen then
        s.modHandle (handleKey k.ctx (refNum k.a)) (fun x => { x with opset := x.opset ||| (k.b.setWidth 32 &&& 0x3FFFFF#32) })
      else s
    | _ => s) s

/-- Whether an element access is carried to another device (R373). -/
def State.carried (s : State) (c : HandleCmd) : Bool :=
  (decide (c.op = .elemRead) || decide (c.op = .elemWrite)) &&
  (match s.liveRef c.ctx c.a with
    | some (_, h) => !s.keeps h c.index
    | none => false)
/-- What another device's handle table says to an access: it takes it, or the class or the handle is missing there (R373).
DESIGN CHOICE: log 49. -/
def State.carryCheck (s : State) (c : HandleCmd) : Option HFault × State :=
  if s.carried c then
    let (k, s) := s.choose 3
    if k = 0 then (none, s)
    else
      let (w, s) := s.freeWord
      (some ⟨if k = 1 then 0x0C else 0x0D, w, none⟩, s)
  else (none, s)

/-- HANDLE_COMMAND_ADMISSION (R262, R264). A command that fails a check is not admitted: the thread takes the fault at its
instruction. A sealed thread's command is checked now and held for its publication, where it is checked again. One whose block lies on an
owned line waits (R332), and so does an access to an element whose port words raise a light handler too many (R357). DEDUCED: log 51. -/
def State.admitHandle (s : State) (c : HandleCmd) : State :=
  if s.blockOwned c then s.push (.handleCommandAdmission c)
  else if c.op = .alloc then s.halloc c false
  else if !c.held && (s.thread? c.uid).any (fun t => !s.lightRoom t c.core (c.portWords 28) (c.portWords 29)) then
    s.push (.handleCommandAdmission c)
  else
    let isSealed := match s.thread? c.uid with
      | some t => t.attr.isSealed
      | none => false
    let later := isSealed && !c.held && !c.op.atOnce
    let (away, s) := s.carryCheck c
    let check : Except HFault (HandleCmd × List Nat) :=
      match (if later then s.foreseen c.uid else s).handleCheck c, away with
      | .ok _, some f => .error f
      | r, _ => r
    match check with
    | .error f =>
      let s := match f.asked with
        | some (k, cls) => s.modHandle k (fun h => { h with asked := h.asked ||| BitVec.ofNat 32 (2 ^ cls) })
        | none => s
      if c.held then (if c.reg = 31#5 then s else let (w, s) := s.freeWord; s.fillPend c.uid c.reg.toNat w)
      else
        -- the port words that it kept are free again (R95)
        let s := s.faultThread c.uid c.reg.toNat f.cause f.fval
        if c.portWords 28 + c.portWords 29 = 0 then s else s.wakePorts c.core
    | .ok (k, keys) =>
      let flags := match c.op, s.liveRef c.ctx c.a with
        | .elemWrite, some (_, h) => (h.elemPut c.b c.index c.data).2
        | _, _ => 0#6
      let s := if c.held then s else (s.takeWords c).modThread c.uid (fun t =>
        { t with fflags := t.fflags ||| (flags &&& 0x17#6).setWidth 64 })
      if c.op = .sync then
        let num := if c.a = 0#64 then none else some (refNum c.a)
        if s.covered c.uid c.ctx num then
          { s.modThread c.uid (fun t => { t with wait := .hsync }) with syncs := s.syncs ++ [(c.uid, c.ctx, num)] }
        else (s.countSync c.ctx num).admitted c
      else if later then
        (s.modThread c.uid (fun t => { t with held := t.held ++
          [⟨.step (.handleCommandAdmission { k with held := true }), c.pc, c.target⟩] })).admitted c
      else
        let s := s.enterHandles k keys
        if c.op.late then s else s.admitted c

/-- HANDLE_COMMAND_ADMISSION. -/
def execHandleCommandAdmission (c : HandleCmd) (s : State) : Host.Outcome State Fault Refusal := .next (s.admitHandle c)

/-! ## Completion (R335, R270) -/

/-- The head of a handle's order leaves it: the next operation follows. -/
def State.popOrder (s : State) (key : Nat) : State := (s.modHandle key (fun h => { h with order := h.order.drop 1 })).pokeHandle key

/-- Whether a handle's elements are resident in the LLC (R319, R366). -/
def Handle.inLlc (h : Handle) : Bool := h.pin || decide (h.dress.place = 0)
/-- Where a HOP ran (R367, R385): on slice ALUs for what is in the LLC, on sett cores for what is in HBM. Whether the LLC also holds
lines of a handle that is dressed in HBM is the device's affair. DESIGN CHOICE: log 52. -/
def State.countHop (s : State) (keys : List Nat) : State :=
  let hs := keys.filterMap (Tab.find? s.handles)
  let (k, s) := s.choose 2
  let hbm := hs.any (fun h => !h.inLlc)
  let llc := hs.any Handle.inLlc || decide (k = 1)
  keys.foldl (fun s key => s.modHandle key (fun h => { h with
    slicex := if llc then h.slicex + 1 else h.slicex
    settx := if hbm then h.settx + 1 else h.settx })) s

/-- An operation is over: its counters (R385), its place in every order, the HSYNCs that waited for it, and the threads that waited
for its lines. DEDUCED: log 94. -/
def State.finishHop (s : State) (c : HandleCmd) (keys : List Nat) : State :=
  let s := keys.foldl (fun s k => s.modHandle k (fun h => { h with hops := h.hops + 1 })) s
  let s := if c.op.isHop then s.countHop keys else s
  let t := keys.foldl State.popOrder s
  (t.checkSyncs.wakeOwned).progressOf s c.ctx

/-- The answer of a form that replies at completion; a held one only fills its register. -/
def State.replyHop (s : State) (c : HandleCmd) (v : Option Word) : State :=
  if !c.op.late then s
  else if c.held then (match v with
    | some w => if c.reg = 31#5 then s else s.fillPend c.uid c.reg.toNat w
    | none => s)
  else s.push (.replyArrival c.uid (if v.isSome then c.reg else 31#5) (v.getD 0#64))

/-- Whether a format's table is being built (R74). -/
def State.building (s : State) (core code : Nat) : Bool :=
  match elemTable code with
  | some (k, _) => (s.core core).eng.building.contains k
  | none => false

/-- The outcome of HPIN (R267, R319): 1 when the residency quota would be exceeded, 2 when the Dresser finds no room in the ways.
DESIGN CHOICE: log 44. -/
def State.tryPin (s : State) (key : Nat) (h : Handle) : Nat × State :=
  let quota := match s.page? (key / 2 ^ 23) with
    | some (_, p) => p.rquota.toNat
    | none => 0
  if h.pin then (0, s)
  else if quota < s.pinned (key / 2 ^ 23) + h.charge / 64 then (1, s)
  else
    let (k, s) := s.choose 2
    if k = 1 then (2, s) else (0, s.modHandle key (fun h => { h with pin := true }))

/-- Whether a command that reads a handle meets an element that no copy holds any more (R370, R422). -/
def State.poisonedFor (s : State) (c : HandleCmd) (h : Handle) (key : Nat) : Bool :=
  h.bad ||
  (let out := s.spoiled key h
   if c.op = .elemRead then out.contains c.index || (isH4 h.fmt && out.contains (c.index + 1)) else !out.isEmpty)

/-- HANDLE_OPERATION_COMPLETION (R335, R270): the head of a handle's order takes effect once it heads every order it stands in. With
`hard`, a page it waited for cannot be resolved. DEDUCED: log 94. DESIGN CHOICE: log 79. -/
def State.completeHop (s : State) (ctx hnum : Nat) (hard : Bool) : State :=
  let key := handleKey ctx hnum
  match Tab.find? s.handles key with
  | none => s
  | some h0 =>
    match h0.order with
    | [] => s
    | e :: _ =>
      let c := e.cmd
      let both := match e.other with
        | none => true
        | some k => match Tab.find? s.handles k with
          | some o => (match o.order with
            | [] => false
            | f :: _ => decide (f.cmd = c) && decide (f.mark = e.mark))
          | none => true
      if e.redress || !both then s
      else
        let target := handleKey ctx (refNum c.target)
        let keys := (target :: (c.refs.map (fun w => handleKey ctx (refNum w)))).eraseDups
        match Tab.find? s.handles target with
        | none => s
        | some h =>
          let x := (Tab.find? s.handles (handleKey ctx (refNum c.b))).getD h
          let waits := match c.op with
            | .copyin => s.building c.core (fmtOf c.b)
            | .copyout => s.building c.core (fmtOf c.a)
            | _ => false
          if waits then s.push (.handleOperationCompletion ctx hnum)
          else
            let s := s.touchPlaces (s.piecePlaces c (c.srcPieces h))
            let run : Except EngStop HopResult :=
              if (c.op.reads && s.poisonedFor c h target) || (c.op.readsOther && s.poisonedFor c x (handleKey ctx (refNum c.b))) then .error (.fault 0x09 ((Config.freeWord s.free).toNat % 2 ^ 48))
              else s.hopRun c h x hard
            match run with
            | .error (.page va) => s.faultWait ctx (va / 2 ^ 16) (.hop ctx hnum)
            | .error (.fault k va) =>
              let s := if c.op.late && !c.held then
                  s.faultThread c.uid c.reg.toNat k (BitVec.ofNat 64 (if k = 0x09 then va / 64 * 64 else va))
                else s.engFault c.reader c.core (engineFval 3 k va)
              s.finishHop c keys
            | .ok r =>
              let lines := linesOf (r.writes.map (·.loc))
              if s.engHeld { c.reader with mark := e.mark } lines then s.push (.handleOperationCompletion ctx hnum)
              else
                let s : State := { s with free := s.free + r.writes.length + 1 }
                let s := (s.usePages ctx (pieceLines (c.srcPieces h)) false).usePages ctx (linesOf (r.writes.map (·.va))) true
                let s := if r.writes.isEmpty then s else s.commitBytes (r.writes.map (fun w => (w.loc, w.val)))
                let s := match r.codes with
                  | some cs => (let s := s.modHandle target (fun h => s.normed { h with codes := cs, bad := h.bad && !c.op.rewrites })
                                let s := if c.op.rewrites then s.spoil target h [] else s
                                { s with co := s.co + 1 })
                  | none => s
                let s := s.modThread c.uid (fun t => { t with fflags := t.fflags ||| (r.flags &&& 0x17#6).setWidth 64 })
                match c.op with
                | .pin =>
                  let (v, s) := s.tryPin target h
                  (s.replyHop c (some (BitVec.ofNat 64 v))).finishHop c keys
                | .unpin => (s.modHandle target (fun h => { h with pin := false })).finishHop c keys
                | .free => (s.modHandle target (fun h => { h with state := .dead, pin := false, charge := 0 })).finishHop c keys
                | _ => (s.replyHop c r.reply).finishHop c keys

/-- HANDLE_OPERATION_COMPLETION. -/
def execHandleOperationCompletion (ctx hnum : Nat) (s : State) : Host.Outcome State Fault Refusal :=
  .next (s.completeHop ctx hnum false)

/-! ## Re-dresses (R335, R364, R368, R369) -/

/-- A re-dress of the Dresser's own enters a handle's order (R368). -/
def State.queueRedress (s : State) (key : Nat) : State :=
  let c : HandleCmd := { op := .sync, uid := 0, ctx := key / 2 ^ 23, core := 0, reg := 31#5
                         a := BitVec.ofNat 64 (2 ^ 63 + key % 2 ^ 23 * 2 ^ 40), b := 0#64, index := 0, size := 0, data := 0#64, pc := 0
                         held := true, seq := 0, tid := 0 }
  s.enterOrder key { cmd := c, redress := true, gen := 0#32, other := none, built := false, dst := [], vdst := [], mark := s.co }

/-- DRESSER_REDRESS (R368): for pressure or usage, at most once in 10 ms for a handle. -/
def execDresserRedress (ctx hnum : Nat) (s : State) : Host.Outcome State Fault Refusal :=
  let key := handleKey ctx hnum
  .next (match Tab.find? s.handles key with
    | none => s
    | some h =>
      if h.state ≠ .live ∨ h.dressedAt.any (fun k => decide (s.cycle < k + Config.ageCycles)) then s
      else (s.modHandle key (fun h => { h with dressedAt := some s.cycle })).queueRedress key)

/-- REDRESS_START (R335): the build begins once the re-dress heads the order; one that could not meet the residency quota, or the limit
of 12 ways, waits (R319, R369), and so does one whose classes no dress can meet (R367). DESIGN CHOICE: log 44. DEDUCED: log 130. -/
def execRedressStart (ctx hnum : Nat) (s : State) : Host.Outcome State Fault Refusal :=
  let key := handleKey ctx hnum
  .next (match Tab.find? s.handles key with
    | none => s
    | some h =>
      match h.order with
      | [] => s
      | e :: _ =>
        if !e.redress || e.built then s
        else
          let quota := match s.page? ctx with
            | some (_, p) => p.rquota.toNat
            | none => 0
          -- whether the new dress would pass 12 of 16 ways in some set is the Dresser's own affair
          let (full, s) := if h.pin then s.choose 2 else (0, s)
          if (h.pin ∧ (quota < s.pinned ctx ∨ full = 1)) ∨ h.dressable = false then s.push (.redressStart ctx hnum)
          else (s.modHandle key (fun h => { h with order := { e with built := true } :: h.order.drop 1 })).push
            (.redressComplete ctx hnum))

/-- REDRESS_COMPLETE (R364): the generation rises by one, the elements and their norms stay (R361), and the operations behind the
re-dress go on. -/
def execRedressComplete (ctx hnum : Nat) (s : State) : Host.Outcome State Fault Refusal :=
  let key := handleKey ctx hnum
  .next (match Tab.find? s.handles key with
    | none => s
    | some h =>
      match h.order with
      | [] => s
      | e :: _ =>
        if !e.redress || !e.built then s
        else
          let out := s.spoiled key h
          let (d, s) := s.dressFor h ctx
          let s := s.modHandle key (fun h => { h with gen := h.gen + 1, redress := h.redress + 1, dress := d })
          let s := s.spoil key { h with dress := d } out
          if e.cmd.op = .widen then s.finishHop e.cmd [key] else s.popOrder key)

/-! ## Issue (R262, R264, R265) -/

/-- A handle form: it ends the chunk and waits for the handle table; `fills` says that its A field is the result.
DEDUCED: log 45. DESIGN CHOICE: log 44. -/
def Act.handleForm (op : HandleOp) (a b : Option (BitVec 5)) (fills : Bool) (g : BitVec 5) : Act Unit :=
  let reads := (if fills then [] else a.toList) ++ b.toList
  Act.issue .ending 4 (a.toList ++ b.toList) g (do
    Act.ready reads []
    let x ← if fills then pure 0#64 else (match a with
      | some a => Act.read [] a
      | none => pure 0#64)
    let y ← match b with
      | some b => Act.read [] b
      | none => pure 0#64
    let t ← Act.me
    let d : BitVec 5 := if fills then a.getD 31#5 else 31#5
    modify (fun s => s.push (.handleCommandAdmission
      { op := op, uid := s.cur, ctx := t.attr.ctx, core := t.core, reg := d, a := x, b := y, index := 0, size := 0, data := 0#64
        pc := t.pc, held := false, seq := t.attr.seq, tid := t.attr.tid.toNat }))
    if fills then Act.modMe (fun t => t.putReg d.toNat { t.reg d.toNat with pend := true }) else pure ()
    Act.park .handle)

/-- HALLOC (R266). -/
def execHalloc (a b g : BitVec 5) (s : State) : Host.Outcome State Fault Refusal :=
  Act.go (Act.handleForm .alloc (some a) (some b) true g) s
/-- HFREE (R267). -/
def execHfree (a g : BitVec 5) (s : State) : Host.Outcome State Fault Refusal :=
  Act.go (Act.handleForm .free (some a) none false g) s
/-- HWIDEN (R267). -/
def execHwiden (a b g : BitVec 5) (s : State) : Host.Outcome State Fault Refusal :=
  Act.go (Act.handleForm .widen (some a) (some b) false g) s
/-- HPIN (R267). -/
def execHpin (a b g : BitVec 5) (s : State) : Host.Outcome State Fault Refusal :=
  Act.go (Act.handleForm .pin (some a) (some b) true g) s
/-- HUNPIN (R267). -/
def execHunpin (a g : BitVec 5) (s : State) : Host.Outcome State Fault Refusal :=
  Act.go (Act.handleForm .unpin (some a) none false g) s
/-- HSTAGE.a (R271). -/
def execHstageA (a b g : BitVec 5) (s : State) : Host.Outcome State Fault Refusal :=
  Act.go (Act.handleForm .stageA (some a) (some b) false g) s
/-- HSTAGE.b (R271). -/
def execHstageB (a b g : BitVec 5) (s : State) : Host.Outcome State Fault Refusal :=
  Act.go (Act.handleForm .stageB (some a) (some b) false g) s
/-- HSTAGE.nc (R271). -/
def execHstageNc (a b g : BitVec 5) (s : State) : Host.Outcome State Fault Refusal :=
  Act.go (Act.handleForm .stageNc (some a) (some b) false g) s
/-- HSTAGE.nr (R271). -/
def execHstageNr (a b g : BitVec 5) (s : State) : Host.Outcome State Fault Refusal :=
  Act.go (Act.handleForm .stageNr (some a) (some b) false g) s
/-- HINFO (R268). -/
def execHinfo (a b g : BitVec 5) (s : State) : Host.Outcome State Fault Refusal :=
  Act.go (Act.handleForm .info (some a) (some b) true g) s
/-- HOWN (R268). -/
def execHown (a b g : BitVec 5) (s : State) : Host.Outcome State Fault Refusal :=
  Act.go (Act.handleForm .own (some a) (some b) true g) s
/-- HSYNC (R268). -/
def execHsync (a g : BitVec 5) (s : State) : Host.Outcome State Fault Refusal :=
  Act.go (Act.handleForm .sync (some a) none false g) s
/-- HOP.ROWSUM (R269). -/
def execHopRowsum (a b g : BitVec 5) (s : State) : Host.Outcome State Fault Refusal :=
  Act.go (Act.handleForm .rowsum (some a) (some b) false g) s
/-- HOP.COLSUM (R269). -/
def execHopColsum (a b g : BitVec 5) (s : State) : Host.Outcome State Fault Refusal :=
  Act.go (Act.handleForm .colsum (some a) (some b) false g) s
/-- HOP.SCALE (R269). -/
def execHopScale (a b g : BitVec 5) (s : State) : Host.Outcome State Fault Refusal :=
  Act.go (Act.handleForm .scale (some a) (some b) false g) s
/-- HOP.ADDH (R269). -/
def execHopAddh (a b g : BitVec 5) (s : State) : Host.Outcome State Fault Refusal :=
  Act.go (Act.handleForm .addh (some a) (some b) false g) s
/-- HOP.MULH (R269). -/
def execHopMulh (a b g : BitVec 5) (s : State) : Host.Outcome State Fault Refusal :=
  Act.go (Act.handleForm .mulh (some a) (some b) false g) s
/-- HOP.AXPY (R269). -/
def execHopAxpy (a b g : BitVec 5) (s : State) : Host.Outcome State Fault Refusal :=
  Act.go (Act.handleForm .axpy (some a) (some b) false g) s
/-- HOP.FILL (R269). -/
def execHopFill (a b g : BitVec 5) (s : State) : Host.Outcome State Fault Refusal :=
  Act.go (Act.handleForm .fill (some a) (some b) false g) s
/-- HOP.FILL.img (R269). -/
def execHopFillImg (a b g : BitVec 5) (s : State) : Host.Outcome State Fault Refusal :=
  Act.go (Act.handleForm .fillImg (some a) (some b) false g) s
/-- HOP.TRANSPOSE (R269). -/
def execHopTranspose (a b g : BitVec 5) (s : State) : Host.Outcome State Fault Refusal :=
  Act.go (Act.handleForm .transpose (some a) (some b) false g) s
/-- HOP.COPYIN (R269). -/
def execHopCopyin (a b g : BitVec 5) (s : State) : Host.Outcome State Fault Refusal :=
  Act.go (Act.handleForm .copyin (some a) (some b) false g) s
/-- HOP.COPYOUT (R269). -/
def execHopCopyout (a b g : BitVec 5) (s : State) : Host.Outcome State Fault Refusal :=
  Act.go (Act.handleForm .copyout (some a) (some b) false g) s
/-- HOP.GROWS (R271). -/
def execHopGrows (a b g : BitVec 5) (s : State) : Host.Outcome State Fault Refusal :=
  Act.go (Act.handleForm .grows (some a) (some b) false g) s
/-- HOP.SROWS (R271). -/
def execHopSrows (a b g : BitVec 5) (s : State) : Host.Outcome State Fault Refusal :=
  Act.go (Act.handleForm .srows (some a) (some b) false g) s

end Sys2Proof.Machine
end

