-- ==== Sys2Proof/Machine/NearMem.lean ====
section
/-!
DEFINITION. Meanings of the near-memory forms (R272-R277) and of the steps of the sett cores: overlays (R273), the start and the stop
of programs (R274, R275), the row sequencers (R276), and status records.
-/
namespace Sys2Proof.Machine

/-! ## Status records (R272, R275) -/

/-- Writes both words of a status record as one event. -/
def State.putStatus (s : State) (loc : Nat) (state : Nat) (addr : Nat) (word1 : Nat) : State :=
  s.commitBytes (bytesAt loc (state % 16 * 2 ^ 60 + addr % 2 ^ 48) 8 ++ bytesAt (loc + 8) word1 8)
/-- Whether the Bed's write of a record waits for its line (R328, R332). -/
def State.recordHeld (s : State) (loc : Nat) : Bool :=
  s.owned (loc / 64) || s.unread (loc / 64) || s.reserved.any (fun r => decide (r.1 = loc / 64))

/-- The fault of a status record pointer: 16 bytes, 16-aligned, with format code 0 (R272). -/
def State.recordFault (s : State) (core ctx : Nat) (p : Word) (perm : Perm) : Option (Nat × Word) :=
  match s.extentFault core ctx p 16 16 perm with
  | some f => some f
  | none => if fmtOf p = 0 then none else some (0x03, p)

/-- The place of an operand that has passed its checks: its page's absence holds the thread. -/
def Act.placeOf (p : Word) (perm : Perm) : Act Nat := do
  let t ← Act.me
  let s ← get
  let va := p.toNat % 2 ^ 48
  match s.coreSpot t.core t.attr.ctx va perm with
  | .near l => pure l
  | .remote _ l => pure l
  | .global e l => do
    modify (fun s => s.useEntry e (decide (perm = .wr)))
    pure l
  | .absent => Act.hold va
  | .bad k => Act.fault k (BitVec.ofNat 64 va)

/-- A failed check of an operand. -/
def Act.check (f : Option (Nat × Word)) : Act Unit :=
  match f with
  | some (k, v) => Act.fault k v
  | none => pure ()

/-- A handle reference that needs the class NEARMEM (R262, R274). -/
def Act.nearHandle (w : Word) : Act Unit := do
  let t ← Act.me
  let s ← get
  match s.liveRef t.attr.ctx w with
  | none => Act.fault 0x0D w
  | some (key, h) =>
    if h.has 20 then pure ()
    else do
      let f := HFault.undeclared key h w 20
      modify (fun s => s.modHandle key (fun h => { h with asked := h.asked ||| BitVec.ofNat 32 (2 ^ 20) }))
      Act.fault f.cause f.fval

/-! ## Sett cores' queues -/

/-- Whether an image pointer lies in a global window, is 4 KiB-aligned and passes R149 (R273, R274). -/
def imageFits (p : Word) : Bool :=
  let va := p.toNat % 2 ^ 48
  !badTag p && !isRef p && decide (windowOf va < 14) && decide (va % 4096 = 0)

/-- A sett core that runs nothing looks at its queue. -/
def State.pokeSett (s : State) (n : Nat) : State :=
  let q := s.sett n
  if q.running.isNone && !q.queue.isEmpty then s.push (.nmProgramStart n) else s

/-- A command enters a sett core's queue: an NMLOAD goes before the commands that have not started (R273). -/
def State.enqueueSett (s : State) (n : Nat) (c : NmCmd) : State :=
  let q := s.sett n
  let started := q.queue.take (if q.running.isSome then 1 else 0)
  let rest := q.queue.drop started.length
  let loads := rest.takeWhile (·.loadOnly)
  let others := rest.dropWhile (·.loadOnly)
  let queue := if c.loadOnly then started ++ loads ++ [c] ++ others else q.queue ++ [c]
  let s := s.modSett n (fun q => { q with queue := queue, owner := some c.core })
  if q.queue.isEmpty then s.pokeSett n else s

/-! ## NMC (R274) -/

/-- The sett core of a range and the address or handle it is given by; none when it is not in one pseudo-channel's sett-homed rows.
DEDUCED: log 54. -/
def State.nmRange (s : State) (ctx : Nat) (base : Word) (len : Nat) : Option (Nat × Option Nat) :=
  if isRef base then
    match s.liveRef ctx base with
    | some (key, h) => if h.has 20 ∧ len % 8 = 0 then some (h.dress.sett, some key) else none
    | none => none
  else
    let va := base.toNat % 2 ^ 48
    if badTag base ∨ len % 8 ≠ 0 ∨ !globalRange va len then none
    else
      let pages := (List.range ((va % 2 ^ 16 + max len 1 - 1) / 2 ^ 16 + 1)).map (fun k => s.lookup ctx (va + k * 2 ^ 16))
      let home (e : Option TEntry) : Option Nat := match e with
        | some e => if e.kind = 3 then some (e.word1.toNat % 2 ^ 14) else none
        | none => none
      match home (pages.headD none) with
      | none => none
      | some n => if pages.all (fun e => decide (home e = some n)) then some (n, none) else none

/-- The admission of an NMC whose command block stands at a place (R274): both words of its record become zero, then it is refused
with STATE 5, or enters the queue of the sett core that holds its range. The address of a handle's range is a free value; bits [1:0] of the
entry address do not count. DESIGN CHOICE: log 53. -/
def State.admitNmc (s : State) (uid ctx core blk rec recVa : Nat) : State :=
  let w (k : Nat) : Word := BitVec.ofNat 64 (s.readLoc (blk + 8 * k) 8)
  let range := s.nmRange ctx (w 2) (w 3).toNat
  let image := w 1
  let args := (w 0, w 3, w 4, w 5, w 6, w 7)
  let base := w 2
  let s := s.putStatus rec 0 0 0
  match range with
  | none => s.putStatus rec 5 1 0
  | some (n, hnd) =>
    if !imageFits image then s.putStatus rec 5 2 0
    else if s.lostStacks.contains (n / 64) then s.putStatus rec 5 3 0
    else
      let (f, s) := if hnd.isSome then s.freeWord else (0#64, s)
      let at' := if hnd.isSome then f.toNat % (13 * 2 ^ 44) / 64 * 64 else base.toNat % 2 ^ 48
      s.enqueueSett n
        { uid := uid, ctx := ctx, core := core, entry := args.1.toNat % 2 ^ 48 / 4 * 4, image := image.toNat % 2 ^ 48, loadOnly := false
          base := at', len := args.2.1.toNat, hnd := hnd, off := args.2.2.1, arg0 := args.2.2.2.1, arg1 := args.2.2.2.2.1
          arg2 := args.2.2.2.2.2, status := rec, statusVa := recVa, mark := s.co }

/-- NMC. -/
def execNmc (a b g : BitVec 5) (s : State) : Host.Outcome State Fault Refusal :=
  Act.go (Act.issue .ending 4 [a, b] g (do
    Act.ready [a, b] []
    let x ← Act.read [] a
    let y ← Act.read [] b
    let t ← Act.me
    let s ← get
    Act.check (s.ownFault t.core t.attr.ctx x 64 8 .rd)
    Act.check (s.recordFault t.core t.attr.ctx y .wr)
    let blk ← Act.placeOf x .rd
    let rec' ← Act.placeOf y .wr
    Act.recall blk
    Act.recall (blk + 63)
    if t.attr.isSealed then pure () else Act.needLine rec'
    let s ← get
    let base := BitVec.ofNat 64 (s.see t (t.spell (x.toNat % 2 ^ 48) + 16) (blk + 16) 8)
    if isRef base then Act.nearHandle base else pure ()
    if t.attr.isSealed then Act.modMe (fun t => { t with held := t.held ++ [⟨.near 0 x y, t.pc, x⟩] })
    else modify (fun s => s.admitNmc s.cur t.attr.ctx t.core blk rec' (y.toNat % 2 ^ 48)))) s

/-! ## NMLOAD (R273) -/

/-- The sett core that an NMLOAD names: none for a page that is absent, or one of another homing kind. -/
def State.loadTarget (s : State) (ctx : Nat) (x : Word) : Option Nat :=
  if isRef x then (s.liveRef ctx x).map (fun e => e.2.dress.sett)
  else
    match s.lookup ctx (x.toNat % 2 ^ 48) with
    | some e => if e.kind = 3 then some (e.word1.toNat % 2 ^ 14) else none
    | none => none

/-- An NMLOAD enters the queue of its sett core. DEDUCED: log 56. -/
def State.admitLoad (s : State) (uid ctx core : Nat) (x y : Word) : State :=
  match s.loadTarget ctx x with
  | none => s
  | some n => s.enqueueSett n
      { uid := uid, ctx := ctx, core := core, entry := 0, image := y.toNat % 2 ^ 48, loadOnly := true, base := 0, len := 0
        hnd := none, off := 0#64, arg0 := 0#64, arg1 := 0#64, arg2 := 0#64, status := 0, statusVa := 0, mark := s.co }

/-- The places of the 64 lines of an overlay image, in their order; the lines of a page need not stand side by side (R457). -/
def State.imageLines (s : State) (ctx va : Nat) : List Nat :=
  (List.range 64).filterMap (fun k =>
    match s.globalSpot ctx (va + 64 * k) .rd with
    | .global _ l => some l
    | _ => none)
/-- A poisoned line of an overlay image. -/
def State.badImage (s : State) (ctx va : Nat) : Option Nat := (s.imageLines ctx va).findIdx? s.poisoned

/-- NMLOAD. -/
def execNmload (a b g : BitVec 5) (s : State) : Host.Outcome State Fault Refusal :=
  Act.go (Act.issue .ending 4 [a, b] g (do
    Act.ready [a, b] []
    let x ← Act.read [] a
    let y ← Act.read [] b
    let t ← Act.me
    let s ← get
    if isRef x then Act.nearHandle x
    else if badTag x then Act.fault 0x03 x
    else do
      let va := x.toNat % 2 ^ 48
      if 14 ≤ windowOf va then Act.fault 0x0E 0#64
      else
        match s.lookup t.attr.ctx va with
        | none => Act.hold va
        | some e => if e.kind = 3 then pure () else Act.fault 0x0E 0#64
    if !imageFits y || decide (fmtOf y ≠ 0) then Act.fault 0x0E 0#64
    else do
      let iva := y.toNat % 2 ^ 48
      let _ ← Act.placeOf y .rd
      modify (fun s => s.touchPlaces (s.imageLines t.attr.ctx iva))
      let s ← get
      match s.badImage t.attr.ctx iva with
      | some k => Act.fault 0x09 (BitVec.ofNat 64 (iva + 64 * k))
      | none =>
        if t.attr.isSealed then Act.modMe (fun t => { t with held := t.held ++ [⟨.near 1 x y, t.pc, x⟩] })
        else do
          modify (fun s => s.admitLoad s.cur t.attr.ctx t.core x y)
          Act.park .nmload)) s

/-! ## NMROW (R276) -/

/-- Whether a row's address is one that NMROW can name (R276). -/
def rowBase (p : Word) (n : Nat) : Bool :=
  let va := p.toNat % 2 ^ 48
  !(badTag p || isRef p || decide (va % 1024 ≠ 0) || !globalRange va (1024 * n))
/-- The first of `n` rows whose page is absent or forbids the access, which is a page fault (R315, R316). -/
def State.rowAbsent (s : State) (ctx : Nat) (p : Word) (n : Nat) (perm : Perm) : Option Nat :=
  if rowBase p n then
    ((List.range n).map (p.toNat % 2 ^ 48 + 1024 * ·)).find? (fun va => decide (s.globalSpot ctx va perm = .absent))
  else none
/-- The row of a row block whose page holds its command back (R316). DEDUCED: log 54. -/
def State.blockAbsent (s : State) (ctx : Nat) (w : Nat → Word) : Option Nat :=
  let n := (w 3).toNat
  if 1 < (w 0).toNat ∨ 65536 < n then none
  else
    match s.rowAbsent ctx (w 1) n .wr with
    | some va => some va
    | none => if (w 0).toNat = 1 then s.rowAbsent ctx (w 2) n .rd else none
/-- The places of `n` rows of 1 KiB from an address up, in one stack's sett-homed pages; none otherwise. -/
def State.rowPlaces (s : State) (ctx : Nat) (p : Word) (n : Nat) : Option (List Nat) :=
  let va := p.toNat % 2 ^ 48
  if !rowBase p n then none
  else
    (List.range n).mapM (fun i =>
      match s.lookup ctx (va + 1024 * i) with
      | some e => if e.kind = 3 then some (s.placeIn e (va + 1024 * i)) else none
      | none => none)

/-- The admission of an NMROW whose row block stands at a place (R276). DEDUCED: log 54. -/
def State.admitRows (s : State) (uid ctx core blk rec : Nat) : State :=
  let w (k : Nat) : Word := BitVec.ofNat 64 (s.readLoc (blk + 8 * k) 8)
  let kind := (w 0).toNat
  let n := (w 3).toNat
  let src := w 2
  let dst := s.rowPlaces ctx (w 1) (min n 65536)
  let from' := if kind = 1 then s.rowPlaces ctx src (min n 65536) else some []
  let s := s.putStatus rec 0 0 0
  match dst, from' with
  | some ds, some ss =>
    let homes := ((ds ++ ss).map (fun l => settOf l / 64)).eraseDups
    if 1 < kind ∨ n = 0 ∨ 65536 < n ∨ homes.length ≠ 1 then s.putStatus rec 5 1 0
    else if homes.any s.lostStacks.contains then s.putStatus rec 5 3 0
    else
      let m := settOf (ds.headD 0)
      let c : RowCmd := { uid := uid, ctx := ctx, core := core, copy := decide (kind = 1), dst := ds, src := ss
                          srcVa := src.toNat % 2 ^ 48, next := 0, status := rec, mark := s.co }
      let first := (s.sett m).rows.isEmpty
      let s := s.modSett m (fun q => { q with rows := q.rows ++ [c] })
      if first then s.push (.nmrowStop m) else s
  | _, _ => s.putStatus rec 5 1 0

/-- NMROW. -/
def execNmrow (a b g : BitVec 5) (s : State) : Host.Outcome State Fault Refusal :=
  Act.go (Act.issue .ending 4 [a, b] g (do
    Act.ready [a, b] []
    let x ← Act.read [] a
    let y ← Act.read [] b
    let t ← Act.me
    let s ← get
    Act.check (s.ownFault t.core t.attr.ctx x 32 8 .rd)
    Act.check (s.recordFault t.core t.attr.ctx y .wr)
    let blk ← Act.placeOf x .rd
    let rec' ← Act.placeOf y .wr
    Act.recall blk
    Act.recall (blk + 31)
    if t.attr.isSealed then pure () else Act.needLine rec'
    let s ← get
    match (if t.attr.isSealed then none else s.blockAbsent t.attr.ctx (fun k => BitVec.ofNat 64 (s.readLoc (blk + 8 * k) 8))) with
    | some va => Act.hold va
    | none => pure ()
    if t.attr.isSealed then Act.modMe (fun t => { t with held := t.held ++ [⟨.near 2 x y, t.pc, x⟩] })
    else modify (fun s => s.admitRows s.cur t.attr.ctx t.core blk rec'))) s

/-- The alert threshold of a stack: the BCP sets one from 256 to 65,535 (R386). DESIGN CHOICE: log 81. -/
def State.alertAt (s : State) (stack : Nat) : Nat × State :=
  match Tab.find? s.threshold stack with
  | some th => (th, s)
  | none =>
    let (k, s) := s.choose 65280
    (256 + k, { s with threshold := Tab.insert s.threshold stack (256 + k) })

/-- The source of an alert when several activate the row in one cycle (R387): the row sequencer, else a sett core, else the controller. -/
def alertSource (by' : List ActSource) : ActSource :=
  if by'.contains .sequencer then .sequencer else if by'.contains .settCore then .settCore else .controller

/-- Some sources activate a row in one cycle, each counted alike (R21, R386): at the stack's threshold an alert follows.
DESIGN CHOICE: log 8, 81. -/
def State.activate (s : State) (n row : Nat) (by' : List ActSource) : State :=
  let old := Tab.get 0 (s.sett n).acts row
  let k := old + by'.length
  let (th, s) := s.alertAt (n / 64)
  let s := s.modSett n (fun q => { q with acts := Tab.insert q.acts row k })
  if old < th ∧ th ≤ k then s.push (.rowDisturbanceAlert n row (alertSource by')) else s

/-- The row of its pseudo-channel that a place lies in (R276). -/
def bankRow (loc : Nat) : Nat := loc / 1024 % (Config.linesPerSett / 16)
/-- The row sequencer activates the row of a place, alone or in one cycle with the controller. DESIGN CHOICE: log 81. -/
def State.sequence (s : State) (loc : Nat) : State :=
  let (k, s) := s.choose 2
  s.activate (settOf loc) (bankRow loc) (if k = 0 then [.sequencer] else [.controller, .sequencer])

/-- A table without what it keeps of the 16 lines of a row. -/
def dropRow (dst : Nat) (l : Store 1) : Store 1 := l.filter (fun e => !(decide (dst / 64 ≤ e.1) && decide (e.1 < dst / 64 + 16)))
/-- Writes one row in the banks: copies of its lines elsewhere are dropped (R276), and its words count as written (R327). -/
def State.writeRow (s : State) (dst : Nat) (bytes : List Byte) : State :=
  let s := s.sequence dst
  { s with
    mem := bytes.zipIdx.foldl (fun m b => Store.put m (dst + b.2) b.1) s.mem
    near := s.near.filter (fun e => !(decide (dst ≤ e.1) && decide (e.1 < dst + 1024)))
    poison := dropRow dst s.poison
    cached := dropRow dst s.cached
    latent := dropRow dst s.latent
    co := s.co + 1
    stamps := (List.range 128).foldl (fun m k => Tab.insert m (dst / 8 + k) (s.co + 1)) s.stamps }

/-- One row of a copy: its destination, its source, and the source's address. -/
structure RowCopy where
  dst : Nat
  src : Nat
  va  : Nat
  deriving DecidableEq, Repr

/-- Whether a row is copied in place, within one subarray (R20, R276). DESIGN CHOICE: log 116. -/
def RowCopy.inPlace (r : RowCopy) : Bool :=
  decide (settOf r.dst = settOf r.src) && decide (Config.subarray (bankRow r.dst) = Config.subarray (bankRow r.src))

/-- The rows of a copy in the groups in which they are done (R276): a row in place by itself, others through the base-die buffer, 64 at a
time. The second part is the group that is still open. -/
def rowGroups : List RowCopy → List RowCopy → List (List RowCopy)
  | [], open' => if open'.isEmpty then [] else [open']
  | r :: rs, open' =>
    if r.inPlace then (if open'.isEmpty then [] else [open']) ++ [r] :: rowGroups rs []
    else if open'.length = 63 then (open' ++ [r]) :: rowGroups rs []
    else rowGroups rs (open' ++ [r])

/-- The first poisoned line of a source row. -/
def State.badLine (s : State) (r : RowCopy) : Option Nat := (List.range 16).find? (fun k => s.poisoned (r.src + 64 * k))

/-- Copies the rows of a group: all are read, then written, those before a poisoned line only; the answer is that line's address. -/
def State.runGroup (s : State) (g : List RowCopy) : State × Option Nat :=
  let s := g.foldl (fun s r => (List.range 16).foldl (fun s k => s.meetError (r.src / 64 + k)) s) s
  let good := g.takeWhile (fun r => (s.badLine r).isNone)
  let s' := good.foldl (fun s r => s.sequence r.src) s
  let read := good.map (fun r => (r.dst, (List.range 1024).map (fun i => s.hbmByte (r.src + i))))
  (read.foldl (fun s r => s.writeRow r.1 r.2) s',
   (g.drop good.length).head?.bind (fun r => (s.badLine r).map (fun k => r.va + 64 * k)))

/-- Copies groups of rows in turn, up to a poisoned source line. -/
def State.runGroups (s : State) : List (List RowCopy) → State × Option Nat
  | [] => (s, none)
  | g :: gs =>
    match s.runGroup g with
    | (s, some va) => (s, some va)
    | (s, none) => State.runGroups s gs

/-- The rows of a command in increasing index: the state, and the source line that stopped it. -/
def State.runRows (s : State) (c : RowCmd) : State × Option Nat :=
  if c.copy then
    s.runGroups (rowGroups ((c.dst.zip c.src).zipIdx.map (fun r : (Nat × Nat) × Nat => ⟨r.1.1, r.1.2, c.srcVa + 1024 * r.2⟩)) [])
  else (c.dst.foldl (fun s d => s.writeRow d (List.replicate 1024 0#8)) s, none)

/-- NMROW_STOP (R276): a row-sequencer command runs its rows and ends. -/
def execNmrowStop (n : Nat) (s : State) : Host.Outcome State Fault Refusal :=
  .next (match (s.sett n).rows with
    | [] => s
    | c :: rest =>
     if s.recordHeld c.status then s.push (.nmrowStop n)
     else
      let was := s
      let (s, bad) := s.runRows c
      let s := s.modSett n (fun q => { q with rows := rest })
      let s := match bad with
        | some va => s.putStatus c.status 2 va 0
        | none => s.putStatus c.status 1 0 0
      let s := s.progressOf was c.ctx
      if rest.isEmpty then s else s.push (.nmrowStop n))

/-! ## NMSTAT (R277) -/

/-- NMSTAT. -/
def execNmstat (a b g : BitVec 5) (s : State) : Host.Outcome State Fault Refusal :=
  Act.go (Act.issue .ending 4 [a, b] g (do
    Act.ready [b] []
    let y ← Act.read [] b
    let t ← Act.me
    let s ← get
    Act.check (s.recordFault t.core t.attr.ctx y .rd)
    let loc ← Act.placeOf y .rd
    let va := y.toNat % 2 ^ 48
    Act.recall loc
    Act.clean va loc
    let s ← get
    let v := BitVec.ofNat 64 (s.see t (t.spell va) loc 8)
    if v.toNat / 2 ^ 60 = 0 then Act.park (.nmstat loc) else Act.write a v)) s

/-- A near-memory command held by a sealed thread, at its publication (R52): none while it waits for a line (R332, R336), or at the
Bed fault queue for a page, whose address follows. DEDUCED: log 55. -/
def State.sendNear (s : State) (kind uid ctx core : Nat) (x y : Word) : Except (Option Nat) State :=
  let va (p : Word) : Nat := p.toNat % 2 ^ 48
  let place (p : Word) (perm : Perm) : Except (Option Nat) Nat :=
    match s.coreSpot core ctx (va p) perm with
    | .near l => .ok l
    | .remote _ l => .ok l
    | .global _ l => .ok l
    | .absent => .error (some (va p))
    | .bad _ => .error none
  if kind = 1 then
    match s.loadTarget ctx x, s.globalSpot ctx (va y) .rd with
    | none, _ => if isRef x then .ok s else .error (some (va x))
    | _, .absent => .error (some (va y))
    | _, _ => .ok (s.admitLoad uid ctx core x y)
  else
    match s.coreSpot core ctx (va x) .rd, s.coreSpot core ctx (va y) .wr with
    | .bad _, _ => .ok s
    | _, .bad _ => .ok s
    | _, _ =>
      match place x .rd, place y .wr with
      | .error e, _ => .error e
      | _, .error e => .error e
      | .ok blk, .ok rec' =>
        if s.owned (blk / 64) || s.owned ((blk + 63) / 64) || s.recordHeld rec' then .error none
        else if kind = 0 then .ok (s.admitNmc uid ctx core blk rec' (va y))
        else
          match s.blockAbsent ctx (fun k => BitVec.ofNat 64 (s.readLoc (blk + 8 * k) 8)) with
          | some a => .error (some a)
          | none => .ok (s.admitRows uid ctx core blk rec')

/-! ## Programs on the sett cores (R273-R275) -/

/-- The overlay image of an address, for a context: the places of its lines, or why it cannot be loaded. -/
inductive Image where
  | ready (lines : List Nat)
  | absent
  | bad
  deriving DecidableEq, Repr

/-- Looks an overlay image up. -/
def State.imageAt (s : State) (ctx va : Nat) : Image :=
  if windowOf va < 14 then
    match s.globalSpot ctx va .rd with
    | .global _ _ => if (s.badImage ctx va).isSome then .bad else .ready (s.imageLines ctx va)
    | .absent => .absent
    | _ => .bad
  else .bad

/-- Installs an overlay; a migrated thread that waits for one looks again (R46). DEDUCED: log 56. -/
def State.installOverlay (s : State) (n va : Nat) (lines : List Nat) : State :=
  let code : Store 8 := (List.range 4096).foldl (fun m i => Store.put m i (Store.get s.mem (lines.getD (i / 64) 0 + i % 64))) []
  let s := s.modSett n (fun q => { q with ovl := some va, ovlFrom := lines, code := code })
  let s : State := { s with threads := s.threads.map (fun e : Nat × Thread =>
    (e.1, if e.2.settOn = some n then { e.2 with ilen := 0 } else e.2)) }
  s.wakeAll (fun _ t => decide (t.wait = .overlay) && decide (t.settOn = some n))

/-- The head command of a sett core is over: the next is looked at. -/
def State.popSett (s : State) (n : Nat) : State :=
  (s.modSett n (fun q => { q with queue := q.queue.drop 1, running := none })).pokeSett n

/-- The thread of a program (R274). -/
def NmCmd.thread (c : NmCmd) (n co : Nat) : Thread :=
  let attr : Attr := { ctx := c.ctx, header := 0, handler := 0, mask := 0#28, seq := 0, tid := 0#32, count := 28, prio := 0
                       isSealed := false, restart := false }
  let vals : List Word := [BitVec.ofNat 64 c.base, BitVec.ofNat 64 c.len, c.off, c.arg0, c.arg1, c.arg2, BitVec.ofNat 64 n, 0#64]
  let t := Thread.fresh (.sett n) attr c.entry 0#64 co
  { t with regs := vals.zipIdx.map (fun v => (v.2, (⟨v.1, true, false, false⟩ : Reg))), program := true, home := some c.core }

/-- The program begins. -/
def State.runProgram (s : State) (n : Nat) (c : NmCmd) : State :=
  let u := s.nextUid
  let s : State := { s with nextUid := u + 1, threads := Tab.insert s.threads u (c.thread n s.co) }
  s.modSett n (fun q => { q with running := some u })

/-- NM_PROGRAM_START (R274): the head command of a sett core that runs nothing; its overlay is loaded first when it is another's. An
NMLOAD only loads. With `hard`, the image's page cannot be resolved. -/
def State.startProgram (s : State) (n : Nat) (hard : Bool) : State :=
  let q := s.sett n
  match q.running, q.queue with
  | none, c :: _ =>
    let held := !c.loadOnly && decide (q.ovl = some c.image) && decide (q.ovlFrom = s.imageLines c.ctx c.image)
    let s := if held then s else s.touchPlaces (s.imageLines c.ctx c.image)
    let refuse (s : State) : State :=
      if c.loadOnly then
        (s.modThread c.uid (fun t => if t.wait = .nmload then { t with
          wait := .running, async := (if hard then (0x08, BitVec.ofNat 64 c.image) else (0x09, BitVec.ofNat 64 (c.image + 64 * (s.badImage c.ctx c.image).getD 0))) :: t.async }
          else t)).popSett n
      else (s.putStatus c.status 5 2 0).popSett n
    match s.imageAt c.ctx c.image with
    | .absent =>
      if hard then (if s.recordHeld c.status && !c.loadOnly then s.push (.nmProgramStart n) else refuse s)
      else s.faultWait c.ctx (c.image / 2 ^ 16) (.near n)
    | .bad =>
      -- a poisoned line refuses the command only when the overlay has to be loaded
      if held then s.runProgram n c
      else if s.recordHeld c.status && !c.loadOnly then s.push (.nmProgramStart n)
      else refuse s
    | .ready _ =>
      if held then s.runProgram n c
      else s.push (.overlayLoadComplete n c.image)
  | _, _ => s

/-- NM_PROGRAM_START. -/
def execNmProgramStart (n : Nat) (s : State) : Host.Outcome State Fault Refusal := .next (s.startProgram n false)

/-- NM_PROGRAM_STOP (R275): the status record as one event, with g3 in word 1; the command leaves its queue. DEDUCED: log 57. -/
def execNmProgramStop (n state : Nat) (info : Word) (s : State) : Host.Outcome State Fault Refusal :=
  .next (match (s.sett n).running, (s.sett n).queue with
    | some u, c :: _ =>
     if s.recordHeld c.status then s.push (.nmProgramStop n state info)
     else
      let g3 := match s.thread? u with
        | some t => (t.reg 3).val.toNat
        | none => 0
      let s := (s.putStatus c.status state (if state = 1 then 0 else info.toNat) g3).forget u
      (s.popSett n).progressOf s c.ctx
    | _, _ => s)

/-- The Bed's load for a migrated thread (R275): an image that fails sends the thread back with the illegal-instruction fault. -/
def State.loadFor (s : State) (n base : Nat) : State :=
  match List.find? (fun e : Nat × Thread => decide (e.2.wait = .overlay) && decide (e.2.settOn = some n) &&
      decide (e.2.pc / 4096 * 4096 = base)) s.threads with
  | none => s
  | some (u, t) =>
    let s := s.touchPlaces (s.imageLines t.attr.ctx base)
    match s.imageAt t.attr.ctx base with
    | .ready lines => s.installOverlay n base lines
    | .absent => s.faultWait t.attr.ctx (base / 2 ^ 16) (.thread u)
    | .bad => s.carryBack u (some (0x01, BitVec.ofNat 64 (2 ^ 63 + t.pc)))

/-- OVERLAY_LOAD_COMPLETE (R273): the overlay of the command at the head, of an NMLOAD, or of a migrated thread that waits; a running
program is let finish. -/
def execOverlayLoadComplete (n base : Nat) (s : State) : Host.Outcome State Fault Refusal :=
  .next (
    let q := s.sett n
    if q.running.isSome then s.push (.overlayLoadComplete n base)
    else
      match q.queue with
      | c :: _ =>
        if c.image = base then
          let s := s.touchPlaces (s.imageLines c.ctx base)
          match s.imageAt c.ctx base with
          | .ready lines =>
            let s := s.installOverlay n base lines
            if c.loadOnly then
              ((s.modThread c.uid (fun t => if t.wait = .nmload then t.finish else t)).popSett n).progressOf s c.ctx
            else s.push (.nmProgramStart n)
          | _ => s.push (.nmProgramStart n)
        else s.loadFor n base
      | [] => s.loadFor n base)

/-- A migrated thread meets an overlay miss (R275): it waits, and the sett core's owning core is told, or else the Bed loads the
overlay. -/
def State.overlayMiss (s : State) (u n : Nat) (t : Thread) : State :=
  let s := s.modThread u (fun t => { t with wait := .overlay, stamp := t.stamp + 1 })
  let onCore (c : Nat) : Bool := s.threads.any (fun e => decide (e.2.attr.ctx = t.attr.ctx) && (match e.2.place with
    | .slot d _ => decide (d = c)
    | .stock d => decide (d = c)
    | _ => false))
  match (s.sett n).owner with
  | some c =>
    if !s.coreFenced c && onCore c && decide (t.attr.handler ≠ 0) then
      s.push (.messageArrival c
        { ctx := t.attr.ctx, sender := BitVec.ofNat 64 (s.device.devid.toNat * 2 ^ 32 + 2 ^ 30 + n)
          words := [BitVec.ofNat 64 t.attr.handler, BitVec.ofNat 64 t.pc, BitVec.ofNat 64 n] })
    else s.push (.overlayLoadComplete n (t.pc / 4096 * 4096))
  | none => s.push (.overlayLoadComplete n (t.pc / 4096 * 4096))

end Sys2Proof.Machine
end

