-- ==== Sys2Proof/Machine/Threads.lean ====
section
/-!
DEFINITION. Meanings of the forms that make, move, join and end threads, send messages, watch and launch (R170-R178), and the
publication of a sealed thread (R52, R336).
-/
namespace Sys2Proof.Machine

/-! ## Publication -/

/-- Whether a core holds a thread of a context, in a slot or in the stockpile for it (R175). -/
def State.holds (s : State) (c ctx : Nat) : Bool :=
  s.threads.any (fun e => decide (e.2.attr.ctx = ctx) && (match e.2.place with
    | .slot d _ => decide (d = c)
    | .stock d => decide (d = c)
    | _ => false))

/-- Whether a SEND's target is refused (R175). -/
def State.sendRefused (s : State) (ctx c : Nat) : Bool := decide (16383 < c) || s.coreFenced c || !s.holds c ctx
/-- Whether a SPAWN's target is refused (R170). -/
def State.spawnRefused (s : State) (ctx c : Nat) : Bool := decide (16383 < c) || s.coreFenced c || !s.allowed ctx c

/-- A message in flight to a core. -/
def isMessageTo (c : Nat) : Event → Bool
  | .messageArrival d _ => decide (d = c)
  | _ => false
/-- The messages queued at a core and in flight to it. -/
def State.messageLoad (s : State) (c : Nat) : Nat := (s.core c).msgs.length + (s.pending.filter (isMessageTo c)).length

/-- Whether operand A of a SEND has another kind or nonzero reserved bits (R43, R175). -/
def badTarget (x : Word) : Bool := decide (x.toNat / 2 ^ 44 ≠ 0) || decide (x.toNat / 2 ^ 14 % 2 ^ 18 ≠ 0)
/-- The device that operand A of a SEND names. -/
def targetDev (x : Word) : Nat := x.toNat / 2 ^ 32 % 4096
/-- The core that operand A of a SEND names. -/
def targetCore (x : Word) : Nat := x.toNat % 2 ^ 14
/-- The checks of a SEND that do not ask its target (R175): its kind, its reserved bits and its word 0. -/
def badSend (x : Word) (m : Message) : Bool := badTarget x || !legalTarget (m.words.headD 0#64).toNat

/-- One held command leaves its publication (R52, R336): whether it could go, the step that it is now, and the state. A SEND or SPAWN
that its target refuses leaves a KIND 13 record. DESIGN CHOICE: log 49. -/
def State.sendHeld (s : State) (o : Outbox) (h : Held) : Bool × Option Event × State :=
  let refused (s : State) (code : Nat) : Bool × Option Event × State :=
    (true, none, s.record o.attr.ctx 13 code o.core o.slot o.attr.seq o.attr.tid.toNat h.target.toNat h.pc 0 0)
  match h.step with
  | .message x m =>
    if badSend x m then refused s 0x12
    else if targetDev x ≠ s.device.devid.toNat then
      if s.lostDevs.contains (targetDev x) || !s.paired o.attr.ctx (targetDev x) then refused s 0x12
      else
        let (k, s) := s.choose 2
        if k = 0 then refused s 0x12 else (true, none, s)
    else if s.sendRefused m.ctx (targetCore x) then refused s 0x12
    else if 8 ≤ s.messageLoad (targetCore x) then (false, none, s)
    else (true, some (.messageArrival (targetCore x) m), s.push (.messageArrival (targetCore x) m))
  | .step (.spawnPacketAccept p) =>
    if s.spawnRefused p.attr.ctx p.core then refused s 0x11
    else (true, some (.spawnPacketAccept p), s.push (.spawnPacketAccept p))
  | .step e => (true, some e, s.push e)
  | .near k a b =>
    match s.sendNear k o.uid o.attr.ctx o.core a b with
    | .ok s => (true, none, s)
    | .error none => (false, none, s)
    | .error (some va) =>
      (false, none, if s.faultq.any (fun f => f.waiters.contains (.held o.uid)) then s
        else (s.count o.core 8 1).faultWait o.attr.ctx (va / 2 ^ 16) (.held o.uid))

/-- Whether a step that a publication has sent is still under way. -/
def State.underway (s : State) (e : Event) : Bool :=
  s.pending.contains e || s.faultq.any (fun f => f.waiters.any (fun w => match w, e with
    | .launch r, .launchAdmission q => decide (r = q)
    | _, _ => false))

/-- A publication sends its next command once the one before it has taken effect (R336); when none is left, the thread that published
goes on. -/
def State.pumpBox (s : State) (o : Outbox) : Option Outbox × State :=
  if (o.now.any s.underway) = true then (some o, s)
  else
    match o.rest with
    | [] => (none, s.modThread o.uid (fun t => if t.wait = .xfence then t.finish else t))
    | h :: hs =>
      match s.sendHeld o h with
      | (true, e, s) => (some { o with now := e, rest := hs }, s)
      | (false, _, s) => (some { o with now := none }, s)
/-- Every publication in turn, but in a frozen device. -/
def State.pump (s : State) : State :=
  if s.device.still then s else
  let r := s.outbox.foldl (fun (a : List Outbox × State) o =>
    match a.2.pumpBox o with
    | (some o, s) => (a.1 ++ [o], s)
    | (none, s) => (a.1, s)) ([], s)
  { r.2 with outbox := r.1 }

/-- The publication of a sealed thread (R52, R336): its footprint is one event, the full bits it set follow, and the held commands
come after it in program order. The thread goes on unsealed. DEDUCED: log 45, 55, 67. -/
def State.publish (s : State) (u : Nat) : State :=
  match s.thread? u with
  | none => s
  | some t =>
    if t.attr.isSealed then
      let s := s.commitBytes (t.foot.reverse.map (fun w => (w.loc, w.val)))
      let s := t.footFull.foldl (fun s e => (s.setFull e.1 e.2)) s
      let s := t.footFull.foldl (fun s e => s.wordChanged (8 * e.1)) s
      let s := s.countCopied t.core t.copied
      let s := s.modThread u (fun t => { t with
        attr := { t.attr with isSealed := false, restart := false }
        foot := [], footFull := [], held := [], allocs := [], copied := 0 })
      let s : State := if t.held.isEmpty then s
        else { s with outbox := s.outbox ++ [⟨u, t.attr, t.core, t.slot, none, t.held⟩] }
      s.progress t.attr.ctx
    else s

/-- The byte of a footprint at the place its address leads to now (R317): none when its page is absent.
DEDUCED: log 67. DESIGN CHOICE: log 13. -/
def State.relocate (s : State) (ctx : Nat) (w : WEntry) : Option WEntry :=
  if windowOf w.va < 14 then
    match s.globalSpot ctx w.va .wr with
    | .global _ l => some { w with loc := l }
    | .absent => none
    | _ => some w
  else some w

/-- A publication goes where its addresses lead (R317) and waits for lines that are owned, unread or reserved (R336). -/
def Act.publish : Act Unit := do
  let t ← Act.me
  if t.attr.isSealed then do
    let s ← get
    match t.foot.find? (fun w => (s.relocate t.attr.ctx w).isNone) with
    | some w => Act.hold w.va
    | none => Act.modMe (fun t => { t with foot := t.foot.map (fun w => (s.relocate t.attr.ctx w).getD w) })
  else pure ()
  let t ← Act.me
  let s ← get
  if t.attr.isSealed && s.heldBack s.cur (linesOf (t.foot.map (·.loc))) then Act.park .owned
  else modify (fun s => s.publish s.cur)

/-! ## SPAWN (R170, R36) -/

/-- A run of `n` registers from gD on that passes the allocated count is illegal at decode (R110, R170, R175). -/
def Act.runFits (d n : BitVec 5) : Act Unit := do
  let t ← Act.me
  if decide (n ≠ 0#5) && decide (t.attr.count < d.toNat + n.toNat) then Act.illegal else pure ()

/-- SPAWN. DEDUCED: log 90. -/
def execSpawn (d a : BitVec 5) (b : Src) (n : BitVec 5) (g : BitVec 5) (s : State) : Host.Outcome State Fault Refusal :=
  let run : List (BitVec 5) := (List.range n.toNat).map (fun k => d + BitVec.ofNat 5 k)
  Act.go (Act.runFits d n *> Act.issue .ending b.len (a :: b.fields ++ run) g (do
    Act.ready (a :: b.fields) []
    let x ← Act.read [] a
    let y ← Act.readSrc [a] b
    let start ← Act.target y.toNat
    let t ← Act.me
    let s ← get
    let p : SpawnPacket :=
      { parent := s.cur, core := x.toNat, start := start, attr := t.attr, tvec := t.tvec
        run := run.map (fun r => (r.toNat, (t.reg r.toNat).val, (t.reg r.toNat).full)), held := t.attr.isSealed, pc := t.pc }
    if t.attr.isSealed then do
      Act.pop (a :: b.fields)
      Act.modMe (fun t => { t with held := t.held ++ [⟨.step (.spawnPacketAccept p), t.pc, x⟩] })
    else if s.spawnRefused t.attr.ctx x.toNat then Act.fault 0x11 x
    else do
      Act.pop (a :: b.fields)
      modify (fun s => s.push (.spawnPacketAccept p))
      Act.park .reply)) s

/-! ## Ends of threads (R171) -/

/-- QUIT: on a sett core it ends a program with STATE 1 (R275) or a migrated thread. -/
def execQuit (g : BitVec 5) (s : State) : Host.Outcome State Fault Refusal :=
  Act.go (Act.issue ⟨true, true⟩ 4 [] g (do
    let t ← Act.me
    if t.handler then Act.illegal
    else
      match t.settOn with
      | some n => do
        if t.program then
          modify (fun s => (s.modThread s.cur (fun t => { t with wait := .reply })).push (.nmProgramStop n 1 0#64))
        else modify (fun s => s.endThread s.cur)
        Act.stop
      | none => do
        Act.publish
        modify (fun s => (s.progress t.attr.ctx).endThread s.cur)
        Act.stop)) s

/-- YIELD: the thread swaps with a ready stockpile thread of equal or higher priority that fits. -/
def execYield (g : BitVec 5) (s : State) : Host.Outcome State Fault Refusal :=
  Act.go (Act.issue .ending 4 [] g (do
    let t ← Act.me
    let s ← get
    if t.handler then Act.illegal
    else
      let c := t.core
      let ok (e : Nat × Thread) : Bool :=
        e.2.inRotation && !e.2.handler && decide (t.attr.prio ≤ e.2.attr.prio) && decide (e.2.attr.ctx = t.attr.ctx) &&
        decide (e.2.attr.count ≤ s.freeRegs c + t.attr.count) && s.mayEnter e.2 c
      match (s.stockOf c).filter ok with
      | [] => pure ()
      | e :: es => do
        let better (x y : Nat × Thread) : Bool :=
          if x.2.attr.prio ≠ y.2.attr.prio then decide (y.2.attr.prio < x.2.attr.prio) else decide (x.2.enter < y.2.enter)
        let b := es.foldl (fun m x => if better x m then x else m) e
        Act.modMe (fun t => { t with pc := (t.pc + 4) % 2 ^ 48 })
        modify (fun s => (s.enterStock s.cur c).enterSlot b.1 c t.slot)
        Act.stop)) s

/-- HEND: it empties the handler slot. -/
def execHend (g : BitVec 5) (s : State) : Host.Outcome State Fault Refusal :=
  Act.go (Act.issue .ending 4 [] g (do
    let t ← Act.me
    if t.handler then do
      modify (fun s => (s.progress t.attr.ctx).endThread s.cur)
      Act.stop
    else Act.illegal)) s

/-- PUBL: a sealed thread publishes and goes on unsealed (R54), after the commands it held (R171). -/
def execPubl (g : BitVec 5) (s : State) : Host.Outcome State Fault Refusal :=
  Act.go (Act.issue .ending 4 [] g (do
    let t ← Act.me
    if t.handler then Act.illegal
    else do
      Act.publish
      let s ← get
      if s.outbox.any (fun o => decide (o.uid = s.cur)) then Act.park .xfence else pure ())) s

/-- SDROP: a sealed thread gives up and quits without publishing (R54). -/
def execSdrop (g : BitVec 5) (s : State) : Host.Outcome State Fault Refusal :=
  Act.go (Act.issue .ending 4 [] g (do
    let t ← Act.me
    if t.handler || !t.attr.isSealed then Act.illegal
    else do
      modify (fun s => (s.progress t.attr.ctx).loseThread s.cur)
      Act.stop)) s

/-! ## Group sets (R172, R173) -/

/-- The live sets of a context. -/
def State.liveSets (s : State) (ctx : Nat) : Nat := (s.groups.filter (fun g => decide (g.ctx = ctx))).length

/-- A member enters a set, which is made if it does not exist; an open round does not count it (R37-R39). -/
def State.joinSet (s : State) (ctx num step : Nat) (ms : List Member) : State :=
  match s.group? ctx num with
  | some g => s.putGroup { g with members := g.members ++ ms.filter (fun m => !g.members.contains m) }
  | none => s.putGroup ⟨ctx, num, step, ms, none, []⟩

/-- JOIN. -/
def execJoin (a : BitVec 5) (b : Src) (g : BitVec 5) (s : State) : Host.Outcome State Fault Refusal :=
  Act.go (Act.issue .ending b.len (a :: b.fields) g (do
    Act.ready (a :: b.fields) []
    let x ← Act.read [] a
    let y ← Act.readSrc [a] b
    let t ← Act.me
    let s ← get
    let num := x.toNat % 2 ^ 32
    if (s.group? t.attr.ctx num).isNone && decide (4096 ≤ s.liveSets t.attr.ctx) then Act.fault 0x13 (BitVec.ofNat 64 num)
    else do
      Act.pop (a :: b.fields)
      modify (fun s => s.joinSet t.attr.ctx num (y.toNat % 256) [.thread s.cur]))) s

/-- LEAVE. -/
def execLeave (a : BitVec 5) (g : BitVec 5) (s : State) : Host.Outcome State Fault Refusal :=
  Act.go (Act.issue .ending 4 [a] g (do
    Act.ready [a] []
    let x ← Act.read [] a
    let t ← Act.me
    let s ← get
    Act.pop [a]
    match s.group? t.attr.ctx (x.toNat % 2 ^ 32) with
    | none => pure ()
    | some gr =>
      if gr.members.contains (.thread s.cur) then modify (fun s => s.checkRound (gr.without (.thread s.cur)))
      else pure ())) s

/-- GBAR: the arrival counts once, also across a pre-emption (R179); it opens a round when none is open (R38). -/
def execGbar (a : BitVec 5) (g : BitVec 5) (s : State) : Host.Outcome State Fault Refusal :=
  Act.go (Act.issue .ending 4 [a] g (do
    Act.ready [a] []
    let x ← Act.read [] a
    let t ← Act.me
    let s ← get
    let num := x.toNat % 2 ^ 32
    match s.group? t.attr.ctx num with
    | none => Act.fault 0x13 (BitVec.ofNat 64 num)
    | some gr =>
      if !gr.members.contains (.thread s.cur) then Act.fault 0x13 (BitVec.ofNat 64 num)
      else
        match t.released.find? (fun r => decide (r.1 = num)) with
        | some r =>
          if r.2 ≤ s.cycle then do
            Act.pop [a]
            Act.modMe (fun t => { t with released := t.released.erase r })
          else do
            -- its round has completed; it goes on at its own time (R40)
            Act.pop [a]
            Act.modMe (fun t => { t with released := t.released.erase r })
            modify (fun s => s.after (r.2 - s.cycle) (.barrierRelease s.cur (t.stamp + 1)))
            Act.park (.gbar num)
        | none => do
          Act.pop [a]
          let first := !gr.arrived.contains s.cur
          Act.modMe (fun t => { t with wait := .gbar num, stamp := t.stamp + 1 })
          if first then
            modify (fun s =>
              let gr : Group := { gr with round := some (gr.round.getD gr.members), arrived := gr.arrived ++ [s.cur] }
              (s.checkRound gr).progress t.attr.ctx)
          else pure ()
          Act.parked)) s

/-! ## MIGR (R174) -/

/-- MIGR: the thread goes on after it, at the owner; an address whose page is absent holds it, as it has no owner yet. DEDUCED: log 18,
19, 93. -/
def execMigr (a : BitVec 5) (b : Src) (g : BitVec 5) (s : State) : Host.Outcome State Fault Refusal :=
  Act.go (Act.issue ⟨true, true⟩ b.len (a :: b.fields) g (do
    Act.ready (a :: b.fields) []
    let x ← Act.read [] a
    let y ← Act.readSrc [a] b
    let va ← Act.address x 0 8 (fun _ => true)
    let mask : BitVec 28 := y.setWidth 28
    let t ← Act.me
    let s ← get
    if t.attr.isSealed || t.program then Act.pop (a :: b.fields)
    else if 10 < maskCount mask then Act.fault 0x0A (mask.setWidth 64)
    else if windowOf va < 14 && (s.lookup t.attr.ctx va).isNone then Act.hold va
    else
      match s.migOwner t.attr.ctx t.here va with
      | none => Act.pop (a :: b.fields)
      | some o =>
        if o = t.here then Act.pop (a :: b.fields)
        else if windowOf va = 14 && !s.serves o t.attr.ctx then Act.fault 0x07 (BitVec.ofNat 64 va)
        else do
          Act.pop (a :: b.fields)
          Act.modMe (fun t => { t with pc := (t.pc + b.len) % 2 ^ 48 })
          Act.travel o mask none [])) s

/-! ## SEND (R175) -/

/-- SEND. A sealed thread's is held as it is, and all that its target says is judged at publication (R52). A message for another device
leaves over its link; whether that device takes it is its own affair (R419). -/
def execSend (d a : BitVec 5) (n : BitVec 5) (g : BitVec 5) (s : State) : Host.Outcome State Fault Refusal :=
  let run : List (BitVec 5) := (List.range n.toNat).map (fun k => d + BitVec.ofNat 5 k)
  Act.go (Act.runFits d n *> Act.issue .ending 4 (a :: run) g (do
    Act.ready (a :: run) []
    let x ← Act.read [] a
    let t ← Act.me
    let s ← get
    let words := run.map (fun r => (t.reg r.toNat).val)
    let dev := targetDev x
    let c := targetCore x
    let m : Message :=
      { ctx := t.attr.ctx
        sender := BitVec.ofNat 64 (s.device.devid.toNat * 2 ^ 32 + t.slot * 2 ^ 20 + t.core), words := words }
    if t.attr.isSealed then do
      Act.pop [a]
      Act.modMe (fun t => { t with held := t.held ++ [⟨.message x m, t.pc, x⟩] })
    else if badSend x m then Act.fault 0x12 x
    else if dev ≠ s.device.devid.toNat then
      if s.lostDevs.contains dev || !s.paired t.attr.ctx dev then Act.fault 0x12 x
      else
        let (k, s') := s.choose 2
        do
          set s'
          if k = 0 then Act.fault 0x12 x else Act.pop [a]
    else if s.sendRefused t.attr.ctx c then Act.fault 0x12 x
    else if 8 ≤ s.messageLoad c then Act.park (.send c)
    else do
      Act.pop [a]
      modify (fun s => s.push (.messageArrival c m)))) s

/-! ## Watches (R176) -/

/-- WATCH: the descriptor is read in own local memory, once no engine command owns its lines (R332): its pointer is 8-byte aligned
with format code 0; the reply is the watch id, or all ones. DEDUCED: log 15. -/
def execWatch (d a : BitVec 5) (g : BitVec 5) (s : State) : Host.Outcome State Fault Refusal :=
  Act.go (Act.issue .ending 4 [d, a] g (do
    Act.ready [a] []
    let x ← Act.read [] a
    let va ← Act.address x 0 8 (fun c => decide (c = 0))
    let t ← Act.me
    let va := t.spell va
    if windowOf va ≠ 15 ∨ 0xC000 < va % 2 ^ 16 + 40 then Act.fault 0x06 (BitVec.ofNat 64 va)
    else do
      let first := localLoc t.core (va % 2 ^ 16)
      Act.recall first
      Act.recall (first + 39)
      Act.clean va first
      Act.clean (va + 39) (first + 39)
      let s ← get
      let w (k : Nat) : Nat := s.see t (va + 8 * k) (localLoc t.core (va % 2 ^ 16 + 8 * k)) 8
      let base := w 0
      let len := w 1
      let refuse : Act Unit := do
        Act.pop [a]
        Act.awaitReply d (.replyArrival s.cur d (BitVec.allOnes 64))
      if base % 8 ≠ 0 ∨ 2 ^ 48 ≤ base ∨ 14 ≤ windowOf base ∨ len < 8 ∨ 65536 < len ∨ len % 8 ≠ 0 ∨ !legalTarget (w 4) then refuse
      else
        match s.lookup t.attr.ctx base with
        | none => Act.hold base
        | some e =>
          let size := if e.level = 2 then 2 ^ 30 else if e.level = 1 then 2 ^ 21 else 2 ^ 16
          let slice := s.homeSlice e base
          if base / size ≠ (base + len - 1) / size ∨ 16 ≤ (s.watches.filter (fun x => decide (x.slice = slice))).length then refuse
          else do
            Act.pop [a]
            modify (fun s => { s.useEntry e false with
              watches := s.watches ++ [⟨t.attr.ctx, s.nextWatch, t.core, slice, base, len, BitVec.ofNat 64 (w 2),
                BitVec.ofNat 64 (w 3), BitVec.ofNat 64 (w 4)⟩]
              nextWatch := (s.nextWatch + 1) % 2 ^ 32 })
            Act.awaitReply d (.replyArrival s.cur d (BitVec.ofNat 64 s.nextWatch)))) s

/-- UNWATCH: an unknown id does nothing. -/
def execUnwatch (a : BitVec 5) (g : BitVec 5) (s : State) : Host.Outcome State Fault Refusal :=
  Act.go (Act.issue .ending 4 [a] g (do
    Act.ready [a] []
    let x ← Act.read [] a
    let t ← Act.me
    Act.pop [a]
    modify (fun s => { s with
      watches := s.watches.filter (fun w => !(decide (w.ctx = t.attr.ctx) && decide (w.id = x.toNat))) }))) s

/-! ## LAUNCH (R178, R345) -/

/-- LAUNCH: the record's address is checked here; the record is read at admission. -/
def execLaunch (d a : BitVec 5) (g : BitVec 5) (s : State) : Host.Outcome State Fault Refusal :=
  Act.go (Act.issue .ending 4 [d, a] g (do
    Act.ready [a] []
    let x ← Act.read [] a
    let va ← Act.address x 0 64 (fun _ => true)
    let t ← Act.me
    let s ← get
    -- a 0xF address names the issuing core's memory wherever the Bed reads it from
    let addr := if windowOf va = 15 then 14 * 2 ^ 44 + t.core * 2 ^ 16 + va % 2 ^ 16 else va
    let e (held : Bool) : Event := .launchAdmission
      { ctx := t.attr.ctx, words := [], dev := true, uid := s.cur, reg := d, core := t.core, addr := addr, pc := t.pc
        held := held }
    let go (loc : Nat) : Act Unit := do
      Act.clean va loc
      Act.pop [a]
      if t.attr.isSealed then
        Act.modMe (fun t => { t.putReg d.toNat { t.reg d.toNat with pend := true, full := false } with
          held := t.held ++ [⟨.step (e true), t.pc, x⟩] })
      else Act.awaitReply d (e false)
    match s.spot t va .rd false with
    | .bad c => Act.fault c (BitVec.ofNat 64 va)
    | .absent => Act.hold va
    | .near loc => go loc
    | .remote _ loc => go loc
    | .global en loc => do
      modify (fun s => s.useEntry en false)
      go loc)) s

end Sys2Proof.Machine
end

