-- ==== Sys2Proof/Machine/Launch.lean ====
section
/-!
DEFINITION. Meanings of the steps that bring work to the cores: launch records (R341-R347), placement, ageing and pre-emption
(R348-R351, R396), the exchange of contexts (R299, R308), stockpiles and balancing (R353, R354), spawn packets (R36) and migration
(R45).
-/
namespace Sys2Proof.Machine

/-! ## Launch records (R341-R346) -/

/-- The Bed as a reader of committed memory for a context. -/
def bedReader (uid ctx pc : Nat) : Cmd where
  uid := uid
  ctx := ctx
  op := .ccopy
  reg := 0
  a := 0#64
  b := 0#64
  pc := pc
  mcfg := MeCfg.reset 0
  ccfg := CeCfg.reset
  result := none
  dst := []
  src := []
  vdst := []
  vsrc := []
  boxes := []
  stalled := false
  void := true
  going := false
  mark := 0
  seq := 0
  tid := 0

/-- The checks of status 6 on `n` bytes at an address of a record, and the bytes (R345). -/
def State.bedRead (s : State) (req : LaunchReq) (hard : Bool) (a : Word) (n unit : Nat) : Except EngStop (Option (List Byte)) :=
  if (s.extentFault req.core req.ctx a n unit .rd).isSome || decide (14 ≤ windowOf (a.toNat % 2 ^ 48)) then .ok none
  else
    match s.engRead req.core (bedReader req.uid req.ctx req.pc) hard (a.toNat % 2 ^ 48) n with
    | .error (.page va) => .error (.page va)
    | .error (.fault _ _) => .ok none
    | .ok bs => .ok (some bs)

/-- A code address that is 0 or passes R143. -/
def entryFits (w : Nat) : Bool := decide (w = 0) || legalTarget w
/-- Whether a kernel header is valid (R344). -/
def headerValid (h : Nat → Nat) : Bool :=
  let regs := h 1 % 256
  let count := if regs = 0 then 4 else (regs + 3) / 4 * 4
  let mask : BitVec 28 := BitVec.ofNat 28 (h 4)
  decide (h 0 / 2 ^ 56 = 0x4B) && decide (h 0 / 2 ^ 48 % 256 = 0) && legalTarget (h 0 % 2 ^ 48) &&
  decide (regs ≤ 28) && decide (h 1 / 2 ^ 8 % 256 = 0) && decide (h 1 / 2 ^ 16 % 65536 ≤ 47104) && decide (h 1 / 2 ^ 32 = 0) &&
  entryFits (h 2) && entryFits (h 3) && decide (h 4 < 2 ^ 28) && decide (maskCount mask ≤ 10) &&
  (List.range 28).all (fun k => !mask.getLsbD k || decide (k < count)) &&
  decide (h 5 = 0) && decide (h 6 = 0) && decide (h 7 = 0)

/-- Whether a record's fields and its group set are valid (R345 status 2). DEDUCED: log 91. -/
def State.recordValid (s : State) (ctx : Nat) (w : Nat → Nat) : Bool :=
  let kind := w 2 / 2 ^ 62
  let first := w 2 % 2 ^ 14
  let last := w 2 / 2 ^ 16 % 2 ^ 14
  let aff := w 2 / 2 ^ 39 % 2 ^ 23
  let affv := decide (w 2 / 2 ^ 38 % 2 = 1)
  let group := w 4 % 2 ^ 32
  let isSealed := decide (w 1 / 2 ^ 40 % 2 = 1)
  let restart := decide (w 1 / 2 ^ 41 % 2 = 1)
  decide (w 1 / 2 ^ 38 % 4 = 0) && decide (w 1 / 2 ^ 42 = 0) && decide (w 1 % 2 ^ 32 ≠ 0) && (isSealed || !restart) &&
  decide (kind ≠ 3) && decide (w 2 / 2 ^ 36 % 4 ≠ 3) && decide (w 2 / 2 ^ 30 % 64 = 0) && decide (w 2 / 2 ^ 14 % 4 = 0) &&
  decide (first ≤ last) && (decide (kind ≠ 2) || decide (last < 1024)) &&
  (!affv || (decide (kind = 2) && (s.liveRef ctx (BitVec.ofNat 64 (2 ^ 63 + aff * 2 ^ 40))).isSome)) &&
  decide (w 4 / 2 ^ 40 = 0) &&
  (decide (group = 0) || (s.group? ctx group).isSome || decide (s.liveSets ctx < 4096)) &&
  decide (w 6 ≤ 192) && (decide (w 6 ≠ 0) || decide (w 5 = 0)) && decide (w 7 = 0)

/-- The launch a record and a header describe. -/
def launchOf' (ctx seq : Nat) (w h : Nat → Nat) (image : List Word) : Launch :=
  let regs := h 1 % 256
  { attr := { ctx := ctx, header := w 0, handler := h 2, mask := BitVec.ofNat 28 (h 4), seq := seq, tid := 0#32
              count := if regs = 0 then 4 else (regs + 3) / 4 * 4, prio := w 1 / 2 ^ 32 % 64
              isSealed := decide (w 1 / 2 ^ 40 % 2 = 1), restart := decide (w 1 / 2 ^ 41 % 2 = 1) }
    entry := h 0 % 2 ^ 48, tvec := BitVec.ofNat 64 (h 3), loc := h 1 / 2 ^ 16 % 65536, threads := w 1 % 2 ^ 32
    place := BitVec.ofNat 64 (w 2), gate := w 3, group := w 4 % 2 ^ 32, image := image, next := 0, requeue := []
    prio := w 1 / 2 ^ 32 % 64, aged := 0, live := 0 }

/-- The Bed's checks, in the order of R345: the launch to admit, or the first status that holds; a LAUNCH's record that cannot be read
is the instruction's own fault (R178). DEDUCED: log 91. -/
def State.judge (s : State) (req : LaunchReq) (hard : Bool) : Except EngStop (Except Nat Launch) :=
  let rec' : Except EngStop (Option (List Word)) :=
    if req.dev then
      (s.engRead req.core (bedReader req.uid req.ctx req.pc) hard req.addr 64).map
        (fun bs => some ((List.range 8).map (wordAt bs)))
    else .ok (some req.words)
  match rec' with
  | .error e => .error e
  | .ok none => .ok (.error 6)
  | .ok (some ws) =>
    let w (k : Nat) : Nat := (ws.getD k 0#64).toNat
    if w 0 % 64 ≠ 0 then .ok (.error 1)
    else
      match s.bedRead req hard (BitVec.ofNat 64 (w 0)) 64 64 with
      | .error e => .error e
      | .ok none => .ok (.error 6)
      | .ok (some hb) =>
        let h (k : Nat) : Nat := (wordAt hb k).toNat
        match s.page? req.ctx with
        | none => .ok (.error 5)
        | some (_, p) =>
          let l := launchOf' req.ctx p.nextSeq w h []
          let held := (s.launches.filter (fun e => decide (e.2.attr.ctx = req.ctx) && e.2.unplaced)).length
          let fits := (List.range Config.cores).filter (fun c => l.inPlace c && s.allowed req.ctx c)
          if !headerValid h then .ok (.error 1)
          else if !s.recordValid req.ctx w then .ok (.error 2)
          else if p.ceil < l.prio then .ok (.error 3)
          else if 1024 ≤ held then .ok (.error 4)
          else if !fits.any (fun c => decide (8 + l.attr.count ≤ (s.core c).cap)) then .ok (.error 5)
          else
            let gate : Except EngStop (Option (List Byte)) :=
              if w 3 = 0 then .ok (some []) else s.bedRead req hard (BitVec.ofNat 64 (w 3)) 8 8
            match gate with
            | .error e => .error e
            | .ok none => .ok (.error 6)
            | .ok (some _) =>
              let image : Except EngStop (Option (List Byte)) :=
                if w 6 = 0 then .ok (some []) else s.bedRead req hard (BitVec.ofNat 64 (w 5)) (8 * w 6) 8
              match image with
              | .error e => .error e
              | .ok none => .ok (.error 6)
              | .ok (some ib) => .ok (.ok (launchOf' req.ctx p.nextSeq w h ((List.range (w 6)).map (wordAt ib))))

/-- The status of a launch: written to gD, or, for the host, a refusal in the fault window (R345). -/
def State.launchStatus (s : State) (req : LaunchReq) (status : Nat) : State :=
  if req.dev then
    if req.held then s.fillPend req.uid req.reg.toNat (BitVec.ofNat 64 status)
    else s.push (.replyArrival req.uid req.reg (BitVec.ofNat 64 status))
  else if status = 0 then s
  else s.record req.ctx 7 status 0 31 0 0 0 0 (req.words.getD 0 0#64).toNat (req.words.getD 1 0#64).toNat

/-- The release step of a record (R341). -/
def State.recordStep (s : State) (req : LaunchReq) : Nat :=
  if req.dev then
    match s.engRead req.core (bedReader req.uid req.ctx req.pc) true req.addr 64 with
    | .ok bs => (wordAt bs 4).toNat / 2 ^ 32 % 256
    | .error _ => 0
  else (req.words.getD 4 0#64).toNat / 2 ^ 32 % 256

/-- LAUNCH_ADMISSION (R345): the record is read, checked and admitted or refused; at a page that is absent it waits.
DESIGN CHOICE: log 61. -/
def State.admitLaunch (s : State) (req : LaunchReq) (hard : Bool) : State :=
  match s.judge req hard with
  | .error (.page va) => s.faultWait req.ctx (va / 2 ^ 16) (.launch req)
  | .error (.fault k va) =>
    if req.held then s.launchStatus req 6
    else s.faultThread req.uid req.reg.toNat k (BitVec.ofNat 64 (if k = 0x09 then va / 64 * 64 else va))
  | .ok (.error k) => s.launchStatus req k
  | .ok (.ok l) =>
    let key := s.nextKey
    let s := s.modCtx req.ctx (fun p => { p with nextSeq := p.nextSeq + 1 })
    let s : State := { s with nextKey := key + 1, launches := Tab.insert s.launches key l }
    let s := if l.group = 0 then s else
      s.joinSet req.ctx l.group (s.recordStep req) ((List.range l.threads).map (fun tid => .unplaced key tid))
    (s.launchStatus req 0).push .threadPlacement

/-- LAUNCH_ADMISSION. -/
def execLaunchAdmission (req : LaunchReq) (s : State) : Host.Outcome State Fault Refusal := .next (s.admitLaunch req false)

/-- HOST_LAUNCH_WRITE (R345): an aligned 64-byte write to the window pushes one record; any other is reported. -/
def execHostLaunchWrite (page off : Nat) (words : List Word) (s : State) : Host.Outcome State Fault Refusal :=
  let p := s.ctxPage page
  .next (
    if p.state = 0 ∨ s.pageOnly then s
    else if off = 0 ∧ words.length = 8 then
      s.push (.launchAdmission { ctx := p.num, words := words, dev := false, uid := 0, reg := 31#5, core := 0, addr := 0, pc := 0
                                 held := false })
    else s.record p.num 11 0 0 31 0 0 0 0 0 0)

/-! ## Placement (R348-R351) -/

/-- THREAD_PLACEMENT (R348): one choice of the dispatcher; when nothing fits, a pre-emption may be due (R351). DEDUCED: log 102. -/
def execThreadPlacement (s : State) : Host.Outcome State Fault Refusal :=
  .next (match s.dispatch with
    | some t => t.push .threadPlacement
    | none => if s.preemptor.isSome && !s.pending.contains .dispatchPreemption then s.push .dispatchPreemption else s)

/-- DISPATCH_PREEMPTION (R351): the victim is to be taken at its next turn. -/
def execDispatchPreemption (s : State) : Host.Outcome State Fault Refusal :=
  .next (match s.preemptor with
    | some u => (s.modThread u (fun t => { t with preempt := true, ceded := true })).push (.threadPreemption u)
    | none => s)

/-- Takes a thread from its slot now (R396, R179), unless its wait ends only with a reply. -/
def State.takeThread (s : State) (u : Nat) : State :=
  let s := s.dropRing u
  match s.thread? u with
  | none => s
  | some t =>
    match t.place with
    | .slot _ _ => if t.wait.forReply || s.replyOnly u || (t.halted && !s.freezing) then s else s.saveThread u
    | _ => s.modThread u (fun t => { t with preempt := false })

/-- THREAD_PREEMPTION (R396): a thread out of the rotation is taken at once, one in it at its next turn. One at a debug halt keeps its
slot (R286), but for a freeze. -/
def execThreadPreemption (u : Nat) (s : State) : Host.Outcome State Fault Refusal :=
  .next (match s.thread? u with
    | some t => if t.preempt then (if t.inRotation then s else s.takeThread u) else s
    | none => s)

/-- LAUNCH_AGEING (R350): one level up, to the context's ceiling, for the record and its threads. -/
def execLaunchAgeing (key : Nat) (s : State) : Host.Outcome State Fault Refusal :=
  .next (match Tab.find? s.launches key with
    | none => s
    | some l =>
      match s.page? l.attr.ctx with
      | none => s
      | some (_, p) =>
        if p.ceil ≤ l.prio then s
        else
          let up := l.prio + 1
          let mine (t : Thread) : Bool := decide (t.attr.ctx = l.attr.ctx) && decide (t.attr.seq = l.attr.seq)
          { s with
            launches := Tab.insert s.launches key { l with prio := up }
            threads := s.threads.map (fun e => (e.1, if mine e.2 then
              { e.2 with attr := { e.2.attr with prio := max e.2.attr.prio up } } else e.2)) })

/-! ## Exchanges (R308, R299) -/

/-- LOCAL_CONTEXT_EXCHANGE (R308): every slot is vacant; the old context's commands complete first, and the watches whose messages
the core took for the old context are gone (R358). DEDUCED: log 60. -/
def execLocalContextExchange (c ctx : Nat) (s : State) : Host.Outcome State Fault Refusal :=
  .next (
    let old := (s.core c).tag
    let mark (v : Option Nat) (s : State) : State := match old with
      | some x => s.modCtx x (fun p => { p with saving := v })
      | none => s
    if !s.vacant c || s.coreFenced c then mark none s
    else
      if !(s.core c).quiet then (mark (some c) s).push (.localContextExchange c ctx)
      else
        let s := (mark none s).exchange c ctx
        (s.push (.slotFill c)).push .threadPlacement)

/-- ENGINE_CONTEXT_EXCHANGE (R299): the old context's commands complete, its engine state is saved, the new one's is loaded. -/
def execEngineContextExchange (c ctx : Nat) (s : State) : Host.Outcome State Fault Refusal :=
  .next (
    let q := s.core c
    if q.etag = some ctx then s.wakeAll (fun _ t => decide (t.wait = .exchange) && decide (t.core = c))
    else
      let mark (v : Option Nat) (s : State) : State := match q.etag with
        | some x => s.modCtx x (fun p => { p with saving := v })
        | none => s
      if !q.quiet then (mark (some c) s).push (.engineContextExchange c ctx)
      else
        let s := mark none s
        let s : State := match q.etag with
          | some x =>
            let k := savedKey x c
            let old := (Tab.find? s.saved k).getD ⟨[], [], [], q.eng⟩
            { s with saved := Tab.insert s.saved k { old with eng := q.eng } }
          | none => s
        let eng := match Tab.find? s.saved (savedKey ctx c) with
          | some i => i.eng
          | none => EngState.reset c
        let s := if eng.me.tileOut.isSome then s.push (.tileDelivery c) else s
        ((s.modCore c (fun q => { q with etag := some ctx, eng := eng })).progress ctx).wakeAll
          (fun _ t => decide (t.wait = .exchange) && decide (t.core = c)))

/-! ## Slots (R353, R354) -/

/-- SLOT_FILL (R353). -/
def execSlotFill (c : Nat) (s : State) : Host.Outcome State Fault Refusal := .next (s.fillSlot c)

/-- A thread that travelled takes a slot of a core if one fits it (R36, R45, R354), and the stockpile otherwise. -/
def State.settle (s : State) (u c : Nat) : State :=
  match s.thread? u with
  | none => s
  | some t =>
    let q := s.core c
    let free := if t.handler then (if (s.inSlot c Config.handlerSlot).isNone then some Config.handlerSlot else none) else s.freeSlot c
    let room := t.handler || decide (t.attr.count ≤ s.freeRegs c)
    match free with
    | some k =>
      if room && s.mayEnter t c && (decide (q.tag = some t.attr.ctx) || q.tag.isNone) && !s.coreFenced c && !s.freezing then
        s.enterSlot u c k
      else s.enterStock u c
    | none => s.enterStock u c

/-- Whether a thread may be moved by balancing (R354). -/
def Thread.movable (t : Thread) : Bool :=
  t.inRotation && !t.handler && t.chunk.idle && t.prev.isNone && !t.regs.any (fun r => r.2.armed || r.2.pend) &&
  decide ((t.regs.filter (fun r : Nat × Reg => r.2.full)).length ≤ 10)

/-- Registers that do not travel arrive empty and not armed. -/
def Thread.carry (t : Thread) (keep : Nat → Reg → Bool) : Thread :=
  { t with regs := t.regs.filter (fun r => keep r.1 r.2) }

/-- LOAD_BALANCE (R354): a core whose READY field is 3 moves a thread to the idlest core of its cluster. -/
def execLoadBalance (c : Nat) (s : State) : Host.Outcome State Fault Refusal :=
  .next (
    let ready (q : Nat) : Nat := min 3 (s.readySlots q / 4)
    let free (q : Nat) : Nat := let n := s.freeSlots q; if n = 0 then 0 else if n < 4 then 1 else if n < 8 then 2 else 3
    if ready c ≠ 3 then s
    else
      let better (x y : Nat) : Bool :=
        if ready x ≠ ready y then decide (ready x < ready y)
        else if free x ≠ free y then decide (free y < free x) else decide (x < y)
      match clusterCores (clusterId c) with
      | [] => s
      | q :: qs =>
        let d := qs.foldl (fun m x => if better x m then x else m) q
        if ready d ≠ 0 ∨ free d = 0 ∨ (s.core d).tag ≠ (s.core c).tag ∨ s.coreFenced d then s
        else
          let slot (t : Thread) : Nat := t.slot
          match (s.inSlots c).filter (fun e => e.2.movable && decide (slot e.2 < Config.generalSlots)) with
          | [] => s
          | e :: es =>
            let (u, _) := es.foldl (fun m x => if slot m.2 < slot x.2 then x else m) e
            let s := (s.modThread u (fun t => { t.carry (fun _ r => r.full) with place := .transit })).count c 9 1
            ((s.settle u d).checkClaim c).push (.slotFill c))

/-! ## SPAWN packets (R36) -/

/-- SPAWN_PACKET_ACCEPT (R36): the child is placed on the named core or waits in its cluster's stockpile, and the parent goes on.
DEDUCED: log 90, 104. -/
def execSpawnPacketAccept (p : SpawnPacket) (s : State) : Host.Outcome State Fault Refusal :=
  .next (
    if s.spawnRefused p.attr.ctx p.core then
      if p.held then s.record p.attr.ctx 13 0x11 p.core 31 p.attr.seq p.attr.tid.toNat p.core p.pc 0 0
      else s.faultThread p.parent 31 0x11 (BitVec.ofNat 64 p.core)
    else
      let u := s.nextUid
      let here := match s.thread? p.parent with
        | some t => decide (t.core = p.core)
        | none => false
      let t := Thread.fresh .transit p.attr p.start p.tvec s.co
      let t := { t with regs := p.run.foldl (fun m (r : Nat × Word × Bool) => Tab.put Reg.empty m r.1 ⟨r.2.1, r.2.2, false, false⟩) t.regs, home := some p.core, toPlace := !here }
      let t := { t with regs := t.regs.filter (fun r : Nat × Reg => r.2.full) }
      let t := { t with chunk := t.newChunk s.co }
      let s : State := { s with nextUid := u + 1, threads := Tab.insert s.threads u t }
      let s := match s.launchOf p.attr with
        | some (k, l) => { s with launches := Tab.insert s.launches k { l with live := l.live + 1 } }
        | none => s
      let s := (s.settle u p.core).progress p.attr.ctx
      if p.held then s else s.push (.replyArrival p.parent 31#5 0#64))

/-! ## Migration (R45, R46) -/

/-- MIGRATION_DEPARTURE (R45): once no register awaits a result, the thread leaves as one packet. -/
def execMigrationDeparture (u owner : Nat) (mask : BitVec 28) (s : State) : Host.Outcome State Fault Refusal :=
  .next (match s.thread? u with
    | none => s
    | some t =>
      if t.wait ≠ .depart then s
      else if t.regs.any (fun r => r.2.pend) then s.push (.migrationDeparture u owner mask)
      else
        let s := s.modThread u (fun t =>
          let t := { t.carry (fun k r => r.full && mask.getLsbD k) with place := .transit, wait := .running, preempt := false }
          { t with chunk := t.newChunk s.co })
        let s := match t.place with
          | .slot c k => ((if k = Config.handlerSlot then s.pokeHandler c else (s.checkClaim c).push (.slotFill c))).count c 9 1
          | .sett n => s.modSett n (fun q => { q with visitors := setDel q.visitors u })
          | _ => s
        s.push (.migrationArrival u owner))

/-- MIGRATION_ARRIVAL (R45): the packet arrives at a core, or at a sett core; one for a fenced core ends as a thread of its Face (R403). -/
def execMigrationArrival (u owner : Nat) (s : State) : Host.Outcome State Fault Refusal :=
  .next (match s.thread? u with
    | none => s
    | some t =>
      if t.place ≠ .transit then s
      else if owner < Config.cores then (if s.coreFenced owner then s.loseOrRequeue u else s.settle u owner)
      else
        let n := owner - Config.cores
        (s.modThread u (fun t => { t with place := .sett n, ilen := 0 })).modSett n (fun q => { q with visitors := q.visitors ++ [u] }))

end Sys2Proof.Machine
end

