-- ==== Sys2Proof/Machine/Sampling.lean ====
section
/-!
DEFINITION. Meanings of the sampling, prospect and assay forms (R229-R250), and the start of the matrix engine's commands (R214).
-/
namespace Sys2Proof.Machine

/-! ## Numbers of this chapter (R236) -/

/-- A rounded F32 as a value. -/
def f32 (x : FV) : FV := value F32 (round F32 false false x).1
/-- The bits of a rounded F32. -/
def f32Bits (x : FV) : Nat := (round F32 false false x).1
/-- The value of an F32 in the low half of a word. -/
def wordF32 (w : Word) : FV := value F32 (w.toNat % 2 ^ 32)
/-- A value in A96 after one rounding. -/
def a96 (x : FV) : FV := value A96 (round A96 false false x).1
/-- A value in W19, saturated (R244, R247). -/
def w19 (x : FV) : FV := value W19 (round W19 false true x).1

/-! ## Norm state (R237, R238) -/

/-- One entry of the norm state after the squares of some operands have been added in order. -/
def addSquares (q : BitVec 32) (xs : List FV) : BitVec 32 :=
  BitVec.ofNat 32 (f32Bits (xs.foldl (fun n x => f32 (n.add (x.mul x))) (value F32 q.toNat)))

/-- Adds squares column by column (R237); at an operand that cannot be read the columns before it stay (R249). -/
def normFrom (read : Nat → Except EngStop (List FV)) (c0 : Nat) :
    Nat → Nat → Store 32 → Except EngStop (Store 32 × Option (Nat × Nat))
  | 0, _, q => .ok (q, none)
  | m + 1, k, q =>
    match read k with
    | .error (.page va) => .error (.page va)
    | .error (.fault c _) => .ok (q, some (c, k))
    | .ok xs => normFrom read c0 m (k + 1) (Store.put q (c0 + k) (addSquares (Store.get q (c0 + k)) xs))

/-- SNORM.a and SNORM.b (R237). -/
def State.runSnorm (s : State) (core : Nat) (c : Cmd) (hard : Bool) (ofA : Bool) : Except EngStop EngResult :=
  let me := s.mat core
  let read (k : Nat) : Except EngStop (List FV) :=
    if ofA then s.tileElems core c hard c.a c.mcfg.astr.toNat ((List.range 16).map (fun i => (i, k)))
    else s.tileElems core c hard c.a c.mcfg.bstr.toNat ((List.range 16).map (fun j => (k, j)))
  (normFrom read c.b.toNat (32 * c.mcfg.ks) 0 (if ofA then me.qa else me.qb)).map (fun o =>
    MatRun.result ⟨if ofA then { me with qa := o.1 } else { me with qb := o.1 }, 0, 0, []⟩ o.2)

/-- Cuts bytes into pieces of 8. -/
def eights (va : Nat) : Nat → List Byte → List (Nat × List Byte)
  | 0, _ => []
  | n + 1, bs => (va, bs.take 8) :: eights (va + 8) n (bs.drop 8)

/-- SNGET (R238): K words of the norm state. -/
def State.runSnget (s : State) (core : Nat) (c : Cmd) (hard : Bool) (ofA : Bool) : Except EngStop EngResult :=
  let me := s.mat core
  let k := c.mcfg.sk.toNat
  let bytes := (Store.cells (if ofA then me.qa else me.qb) 0 k).flatMap (fun w => leBytes w.toNat 4)
  s.runWrites core c hard 8 (eights (c.a.toNat % 2 ^ 48) ((k + 1) / 2) bytes)

/-- SNPUT (R238). -/
def State.runSnput (s : State) (core : Nat) (c : Cmd) (hard : Bool) (ofA : Bool) : Except EngStop EngResult :=
  let me := s.mat core
  (s.readItems core c hard c.a 4 c.mcfg.sk.toNat 0).map (fun o =>
    match o with
    | .error f => MatRun.result ⟨me, 0, 0, []⟩ (some f)
    | .ok xs =>
      let q := Store.putCells (if ofA then me.qa else me.qb) 0 (xs.map (BitVec.ofNat 32))
      MatRun.result ⟨if ofA then { me with qa := q } else { me with qb := q }, 0, 0, []⟩ none)

/-! ## The alias table (R239) -/

/-- Inserts an index in increasing order. -/
def insertAsc (x : Nat) : List Nat → List Nat
  | [] => [x]
  | y :: ys => if x ≤ y then x :: y :: ys else y :: insertAsc x ys

/-- The pairing of small and large entries (R239): shares, probabilities and aliases so far. -/
def aliasPairs : Nat → List Nat → List Nat → Tab Nat → Store 32 → Store 12 → Store 32 × Store 12
  | 0, _, _, _, prob, als => (prob, als)
  | n + 1, l :: small, g :: large, p, prob, als =>
    let pl := Tab.get 0 p l
    let prob := Store.put prob l (BitVec.ofNat 32 pl)
    let als := Store.put als l (BitVec.ofNat 12 g)
    let pg := Tab.get 0 p g - (2 ^ 32 - pl)
    let p := Tab.insert p g pg
    if pg < 2 ^ 32 then aliasPairs n (insertAsc g small) large p prob als
    else aliasPairs n small (g :: large) p prob als
  | _ + 1, small, large, _, prob, als =>
    (small ++ large).foldl (fun t k => (Store.put t.1 k 0xFFFFFFFF#32, Store.put t.2 k (BitVec.ofNat 12 k))) (prob, als)

/-- floor(w × K × 2^32 ÷ Z) of positive numbers. -/
def aliasShare (w : FV) (k : Nat) (z : FV) : Nat :=
  match (w.mul (.ofInt (k * 2 ^ 32))).div z with
  | .num q => let (n, d) := q.scaled 0; n / d
  | _ => 0

/-- Whether an entry of the norm state cannot be used (R239): a NaN, negative or infinite. -/
def badNorm (x : FV) : Bool :=
  match x with
  | .zero _ => false
  | .num q => decide (q.num < 0)
  | _ => true

/-- SALIAS (R239): the engine with the new table, or the index that FVAL reports. -/
def MeState.buildAlias (me : MeState) (k : Nat) : Except Nat MeState :=
  let qs := List.zip (Store.cells me.qa 0 k) (Store.cells me.qb 0 k)
  let pairs : List (FV × FV) := qs.map (fun q => (value F32 q.1.toNat, value F32 q.2.toNat))
  match pairs.findIdx? (fun q => badNorm q.1 || badNorm q.2) with
  | some i => .error i
  | none =>
    let ws := pairs.map (fun q => f32 (q.1.mul q.2).sqrt)
    let z := ws.foldl (fun z w => f32 (z.add w)) (.zero false)
    if z = .inf false then .error k
    else
      let all := List.range k
      let (prob, als) : Store 32 × Store 12 :=
        if z.isZero then aliasPairs 1 [] all [] me.prob me.als
        else
          let p : Tab Nat := ws.zipIdx.map (fun w => (w.2, aliasShare w.1 k z))
          aliasPairs (k + 1) (all.filter (fun i => decide (Tab.get 0 p i < 2 ^ 32)))
            (all.filter (fun i => decide (2 ^ 32 ≤ Tab.get 0 p i))) p me.prob me.als
      .ok { me with
        kt := k, sz := BitVec.ofNat 64 (f32Bits z), prob := prob, als := als
        weight := Store.putCells me.weight 0 (ws.map (fun w => BitVec.ofNat 32 (f32Bits w))) }

/-! ## Draws (R240) -/

/-- mix(seed, s). -/
def mix (seed : Word) (s : Nat) : Word :=
  let x := seed ^^^ (BitVec.ofNat 64 s * 0xF1D26A83C95B04E7#64)
  let x := x ^^^ (x >>> 32)
  let x := x * 0xC4F27B199D3A6E05#64
  let x := x ^^^ (x >>> 29)
  let x := x * 0x9B71C2E45A0D38B7#64
  x ^^^ (x >>> 32)

/-- column(x). -/
def MeState.column (me : MeState) (x : Word) : Nat :=
  let j := x.toNat / 2 ^ 32 * me.kt / 2 ^ 32
  if x.toNat % 2 ^ 32 < (Store.get me.prob j).toNat then j else (Store.get me.als j).toNat

/-! ## Sampled contraction (R241, R242) -/

/-- The variance check at S samples: V and F (R241). -/
def MeState.variance (me : MeState) (n : BitVec 1) (samples : Nat) : FV × FV :=
  let z := wordF32 me.sz
  let by' (x : FV) : FV := f32 (x.div (.ofInt samples))
  let f := tileEntries.foldl (fun f e =>
    let c := by' (me.entry n e.1 e.2)
    f32 (f.add (c.mul c))) (.zero false)
  let v := by' (f32 ((f32 (z.mul z)).add f.negate))
  (if v.neg then .zero false else v, f)

/-- How a part of a form ends: it goes on past a pre-emption point, it is done, or it met a fault. -/
inductive PartEnd where
  | more
  | done
  | fault (code index : Nat)
  deriving DecidableEq, Repr

/-- Draws up to `fuel` samples, to the next check or to SMAX (R241). -/
def State.drawSamples (s : State) (core : Nat) (c : Cmd) (hard : Bool) (n : BitVec 1) :
    Nat → MatRun → Except EngStop (MatRun × PartEnd)
  | 0, r => .ok (r, .more)
  | fuel + 1, r =>
    let smin := c.mcfg.slim.toNat % 65536
    let smax := c.mcfg.slim.toNat / 65536
    let sn := r.me.scnt.toNat
    let k := r.me.column (mix r.me.seed sn)
    let w := value F32 (Store.get r.me.weight k).toNat
    let g := if w.isZero then .zero false else f32 ((wordF32 r.me.sz).div w)
    let as := s.tileElems core c hard c.a c.mcfg.astr.toNat ((List.range 16).map (fun i => (i, k)))
    let bs := s.tileElems core c hard c.b c.mcfg.bstr.toNat ((List.range 16).map (fun j => (k, j)))
    match as, bs with
    | .error (.page va), _ => .error (.page va)
    | _, .error (.page va) => .error (.page va)
    | .error (.fault e _), _ => .ok (⟨r.me.setDiv n (max sn 1), r.steps, r.skips, r.regs⟩, .fault e sn)
    | _, .error (.fault e _) => .ok (⟨r.me.setDiv n (max sn 1), r.steps, r.skips, r.regs⟩, .fault e sn)
    | .ok xs, .ok ys =>
      let me := tileEntries.foldl (fun me e =>
        me.addTo n e.1 e.2 (((xs.getD e.1 (.zero false)).mul (ys.getD e.2 (.zero false))).mul g)) r.me
      let sn := sn + 1
      let me := { me with scnt := BitVec.ofNat 64 sn }
      let regs := r.regs ++ [18]
      let steps := r.steps + 1
      if sn % 16 = 0 ∨ smax ≤ sn then
        let (v, f) := me.variance n sn
        let me := { me with svar := BitVec.ofNat 64 (f32Bits v), sfro := BitVec.ofNat 64 (f32Bits f) }
        let me := me.setDiv n sn
        if smin ≤ sn ∧ v.le (f32 ((wordF32 c.mcfg.stau).mul f)) then .ok (⟨{ me with sstat := 1#64 }, steps, r.skips, regs ++ [21, 23, 24]⟩, .done)
        else if smax ≤ sn then .ok (⟨{ me with sstat := 2#64 }, steps, r.skips, regs ++ [21, 23, 24]⟩, .done)
        else .ok (⟨me, steps, r.skips, regs ++ [21, 23]⟩, .more)
      else s.drawSamples core c hard n fuel ⟨me, steps, r.skips, regs⟩

/-- One part of SRUN: up to its next pre-emption point (R241, R248). DEDUCED: log 38, 40. -/
def State.srunPart (s : State) (core : Nat) (c : Cmd) (hard : Bool) (n : BitVec 1) (me : MeState) :
    Except EngStop (MatRun × PartEnd) :=
  let sn := me.scnt.toNat
  let smax := c.mcfg.slim.toNat / 65536
  if !c.going && (decide (me.kt = 0) || decide (c.mcfg.sk.toNat ≠ me.kt)) then .ok (⟨me, 0, 0, []⟩, .fault 0x0E 0)
  else if (wordF32 me.sz).isZero then
    let m : MeState := { me with sstat := 3#64, svar := 0#64 }
    .ok (⟨m.setDiv n (max sn 1), 0, 0, [21, 24]⟩, .done)
  else if smax ≤ sn then
    let m : MeState := { me with sstat := 2#64 }
    .ok (⟨m.setDiv n (max sn 1), 0, 0, [24]⟩, .done)
  else s.drawSamples core c hard n 16 ⟨me, 0, 0, []⟩

/-- SVAR (R242). -/
def MeState.runSvar (me : MeState) (n : BitVec 1) : EngResult :=
  let sn := me.scnt.toNat
  if sn = 0 then { EngResult.nothing with scalar := some 0#64 }
  else
    let (v, f) := me.variance n sn
    { EngResult.nothing with
      me := some { me with svar := BitVec.ofNat 64 (f32Bits v), sfro := BitVec.ofNat 64 (f32Bits f) }
      scalar := some (BitVec.ofNat 64 (f32Bits v)), regs := [21, 23] }

/-! ## Prospect (R243-R246) -/

/-- NN. -/
def MeCfg.neurons (m : MeCfg) : Nat := m.pgeom.toNat % 2 ^ 11
/-- The predictor's rank. -/
def MeCfg.rank (m : MeCfg) : Nat := 8 * 2 ^ (m.pgeom.toNat / 2 ^ 12 % 4)
/-- DIN. -/
def MeCfg.din (m : MeCfg) : Nat := m.pgeom.toNat / 2 ^ 16 % 2 ^ 12
/-- ACT. -/
def MeCfg.act (m : MeCfg) : Nat := m.pgeom.toNat / 2 ^ 28 % 4
/-- The number of outputs: DOUT + 1. -/
def MeCfg.outs (m : MeCfg) : Nat := m.pgeom.toNat / 2 ^ 32 % 2 ^ 8 + 1
/-- The shape that PLOAD stores and PSCORE compares. -/
def MeCfg.shape (m : MeCfg) : Nat × Nat × Nat := (m.neurons, m.rank, m.din)

/-- Elements `first` to `first + n - 1` of a stream, as final values (R236), or the index of the first that cannot be read. -/
def State.streamElems (s : State) (core : Nat) (c : Cmd) (hard : Bool) (a : Word) :
    Nat → Nat → Except EngStop (Except (Nat × Nat) (List FV))
  | 0, _ => .ok (.ok [])
  | m + 1, i =>
    match s.tileElem core c hard a 0 0 i with
    | .error (.page va) => .error (.page va)
    | .error (.fault k _) => .ok (.error (k, i))
    | .ok x =>
      match s.streamElems core c hard a m (i + 1) with
      | .ok (.ok xs) => .ok (.ok (x :: xs))
      | r => r

/-- PLOAD (R243). -/
def State.runPload (s : State) (core : Nat) (c : Cmd) (hard : Bool) : Except EngStop EngResult :=
  let me := s.mat core
  let m := c.mcfg
  match s.streamElems core c hard c.a (m.neurons * m.rank) 0, s.streamElems core c hard c.b (m.rank * m.din) 0 with
  | .error e, _ => .error e
  | _, .error e => .error e
  | .ok (.error f), _ => .ok (MatRun.result ⟨me, 0, 0, []⟩ (some f))
  | _, .ok (.error f) => .ok (MatRun.result ⟨me, 0, 0, []⟩ (some (f.1, m.neurons * m.rank + f.2)))
  | .ok (.ok us), .ok (.ok vs) =>
    let bits (x : FV) : BitVec 19 := BitVec.ofNat 19 (round W19 false false x).1
    .ok (MatRun.result ⟨{ me with pshape := some m.shape, pred := Store.putCells [] 0 ((us ++ vs).map bits) }, 0, 0, []⟩ none)

/-- A sum of products in k-steps of 32, each one rounding in A96 (R244). -/
def stepSum : Nat → List FV → FV → FV
  | 0, _, t => t
  | n + 1, ps, t => stepSum n (ps.drop 32) (a96 (t.add (exactSum (ps.take 32))))
/-- The number of k-steps of `n` products. -/
def stepsOf (n : Nat) : Nat := (n + 31) / 32
/-- A dot product as R244 forms it. -/
def dot (xs ys : List FV) : FV := stepSum (stepsOf xs.length) (List.zipWith FV.mul xs ys) (.zero false)

/-- PSCORE (R244). -/
def State.runPscore (s : State) (core : Nat) (c : Cmd) (hard : Bool) : Except EngStop EngResult :=
  let me := s.mat core
  let m := c.mcfg
  let row (i n : Nat) : List FV := (Store.cells me.pred i n).map (fun b => value W19 b.toNat)
  (s.streamElems core c hard c.a m.din 0).map (fun o =>
    match o with
    | .error f => MatRun.result ⟨me, 0, 0, []⟩ (some f)
    | .ok xs =>
      let t2 := (List.range m.rank).map (fun k => w19 (dot (row (m.neurons * m.rank + k * m.din) m.din) xs))
      let sc := (List.range m.neurons).map (fun i => BitVec.ofNat 32 (f32Bits (dot (row (i * m.rank) m.rank) t2)))
      MatRun.result ⟨{ me with px := c.a, score := Store.putCells me.score 0 sc },
                     m.rank * stepsOf m.din + m.neurons * stepsOf m.rank, 0, [36]⟩ none)

/-- The class of a score (R245): 0 selected, 1 inactive, 2 doubtful. -/
def scoreClass (theta delta x : FV) : Nat :=
  if theta.le x then 0 else if (x.add delta).le (.zero false) then 1 else 2

/-- Whether a doubtful neuron comes before another (R245): descending score, then lower index, NaN scores last. -/
def before (x y : Nat × BitVec 32) : Bool :=
  let a := value F32 x.2.toNat
  let b := value F32 y.2.toNat
  if a.isNan || b.isNan then (!a.isNan) || (b.isNan && decide (x.1 < y.1))
  else b.lt a || (!a.lt b && decide (x.1 < y.1))
/-- Inserts a doubtful neuron in order. -/
def insertDoubt (x : Nat × BitVec 32) : List (Nat × BitVec 32) → List (Nat × BitVec 32)
  | [] => [x]
  | y :: ys => if before x y then x :: y :: ys else y :: insertDoubt x ys

/-- PSEL (R245): the mask, the doubtful list, the counts. -/
def State.runPsel (s : State) (core : Nat) (c : Cmd) (hard : Bool) : Except EngStop EngResult :=
  let me := s.mat core
  let m := c.mcfg
  let cls := (List.range m.neurons).map (fun i =>
    let b := Store.get me.score i
    (i, b, scoreClass (wordF32 m.ptheta) (wordF32 m.pdelta) (value F32 b.toNat)))
  let sel := (cls.filter (fun e => decide (e.2.2 = 0))).map (·.1)
  let doubt := (cls.filter (fun e => decide (e.2.2 = 2))).foldl (fun l e => insertDoubt (e.1, e.2.1) l) []
  let inact := (cls.filter (fun e => decide (e.2.2 = 1))).length
  let words := (m.neurons + 63) / 64
  let byte (k : Nat) : Byte := BitVec.ofNat 8 ((sel.filter (fun i => decide (i / 8 = k))).foldl (fun n i => n + 2 ^ (i % 8)) 0)
  (s.runWrites core c hard 8 (eights (c.a.toNat % 2 ^ 48) words ((List.range (8 * words)).map byte))).map (fun r =>
    if r.fault.isSome then r
    else
      let cnt := BitVec.ofNat 64 (inact * 2 ^ 32 + doubt.length * 2 ^ 16 + sel.length)
      { r with me := some { me with doubt := doubt, apos := 0#64, pcnt := cnt }, regs := [29, 30] })

/-- AREAD (R246). -/
def MeState.runAread (me : MeState) (b : Word) : EngResult :=
  let n := me.pcnt.toNat / 2 ^ 16 % 2 ^ 16
  let e := me.doubt.getD b.toNat (0, 0#32)
  let v := if n ≤ b.toNat then 0xFFFFFFFFFFFFFFFF#64 else BitVec.ofNat 64 (e.2.toNat * 2 ^ 32 + e.1)
  { EngResult.nothing with scalar := some v }

/-! ## Assay (R247) -/

/-- The bounds that remain from each position on: mass[j], with mass[L] = +0 at the end (R247). -/
def massFrom (bnd : List FV) : List FV :=
  bnd.foldr (fun b l => f32 ((l.headD (.zero false)).add b) :: l) [.zero false]

/-- One position of ASSAY: the test, and, when it fails, the neuron and its replay (R247). DEDUCED: log 38, 39. -/
def State.assayPart (s : State) (core : Nat) (c : Cmd) (hard : Bool) (n : BitVec 1) (me : MeState) :
    Except EngStop (MatRun × PartEnd) :=
  let m := c.mcfg
  if me.apos.getLsbD 16 then .ok (⟨me, 0, 0, []⟩, .done)
  else
    let len := me.pcnt.toNat / 2 ^ 16 % 2 ^ 16
    let item (j : Nat) : Nat := (me.doubt.getD j (0, 0#32)).1
    let bound (j : Nat) : FV :=
      let sc := value F32 (Store.get me.score (item j)).toNat
      let q := value F32 (Store.get me.qa (item j)).toNat
      if sc.isNan || q.isNan then .inf false else f32 ((sc.add (wordF32 m.pdelta)).mul q.sqrt)
    let mass := massFrom ((List.range len).map bound)
    let j := me.apos.toNat % 2 ^ 16
    let out (o : Nat) : FV := me.entry n (o / 16) (o % 16)
    let f := (List.range m.outs).foldl (fun f o =>
      let x := f32 (out o)
      f32 (f.add (x.mul x))) (.zero false)
    let ny := f32 f.sqrt
    let left := mass.getD j (.zero false)
    let me := { me with amass := BitVec.ofNat 64 (f32Bits left), anorm := BitVec.ofNat 64 (f32Bits ny) }
    if left.le (f32 ((wordF32 m.peps).mul ny)) || decide (len ≤ j) then
      let skip := me.cskip + (BitVec.ofNat 64 len - BitVec.ofNat 64 j)
      .ok (⟨{ me with cskip := skip, apos := BitVec.ofNat 64 (2 ^ 16 + j) }, 0, 0, [30, 31, 32, 35]⟩, .done)
    else
      let i := item j
      let row (a : Word) (first cnt : Nat) := s.streamElems core c hard a cnt first
      match row me.px 0 m.din, row c.a (i * m.din) m.din with
      | .error (.page va), _ => .error (.page va)
      | _, .error (.page va) => .error (.page va)
      | .ok (.ok xs), .ok (.ok ws) =>
        let z := dot ws xs
        let pos := !z.isNan && !z.neg && !z.isZero
        let a2 := w19 (if !pos then .zero false else if m.act = 1 then z.mul z else z)
        let col : Except EngStop (List FV) :=
          if a2.isZero then .ok []
          else (s.tileElems core c hard c.b 0 ((List.range m.outs).map (fun o => (0, o * m.neurons + i))))
        match col with
        | .error (.page va) => .error (.page va)
        | .error (.fault k _) => .ok (⟨me, 0, 0, [31, 32]⟩, .fault k j)
        | .ok ys =>
          let me := ys.zipIdx.foldl (fun me y => me.addTo n (y.2 / 16) (y.2 % 16) (a2.mul y.1)) me
          let me := if a2.isZero then me else { me with creplay := me.creplay + 1 }
          let me := { me with cassay := me.cassay + 1, apos := BitVec.ofNat 64 ((j + 1) % 2 ^ 16) }
          .ok (⟨me, stepsOf m.din, 0, [30, 31, 32, 34] ++ (if a2.isZero then [] else [33])⟩, .more)
      | .ok (.error e), _ => .ok (⟨me, 0, 0, [31, 32]⟩, .fault e.1 j)
      | _, .ok (.error e) => .ok (⟨me, 0, 0, [31, 32]⟩, .fault e.1 j)
      | .error (.fault k _), _ => .ok (⟨me, 0, 0, [31, 32]⟩, .fault k j)
      | _, .error (.fault k _) => .ok (⟨me, 0, 0, [31, 32]⟩, .fault k j)

/-! ## The start of a matrix command (R214) -/

/-- What a form that runs in one piece does. -/
def State.matRun (s : State) (core : Nat) (c : Cmd) (hard : Bool) : Except EngStop EngResult :=
  let me := s.mat core
  let leaves (m : MeState) (regs : List Nat) : Except EngStop EngResult := .ok (MatRun.result ⟨m, 0, 0, regs⟩ none)
  match c.op with
  | .mzero n => leaves (me.zero n) []
  | .mma n => s.runMma core c hard n
  | .mldb => s.runMldb core c hard
  | .mstore n => s.runMstore core c hard n
  | .maccLd n => s.runMacc core c hard n false
  | .maccAdd n => s.runMacc core c hard n true
  | .snormClr => leaves { me with qa := [], qb := [] } []
  | .snormA => s.runSnorm core c hard true
  | .snormB => s.runSnorm core c hard false
  | .sngetA => s.runSnget core c hard true
  | .sngetB => s.runSnget core c hard false
  | .snputA => s.runSnput core c hard true
  | .snputB => s.runSnput core c hard false
  | .salias =>
    match me.buildAlias c.mcfg.sk.toNat with
    | .error i => .ok (MatRun.result ⟨me, 0, 0, []⟩ (some (0x0E, i)))
    | .ok m => leaves m [22]
  | .sseed => leaves { me with seed := c.a, scnt := 0#64, sstat := 0#64 } [17, 18, 24]
  | .svar n => .ok (me.runSvar n)
  | .pload => s.runPload core c hard
  | .pscore => s.runPscore core c hard
  | .psel => s.runPsel core c hard
  | .aread => .ok (me.runAread c.b)
  | _ => .ok .nothing

/-- A form that stops at a pre-emption point leaves its queue with what it has done; its thread issues it again (R248). DEDUCED: log 38. -/
def State.stopPart (s : State) (core : Nat) (c : Cmd) (r : MatRun) : State :=
  let (me, regs) : MeState × List Nat := match c.op with
    | .srun _ => ({ r.me with sstat := 0#64 }, r.regs ++ [24])
    | _ => (r.me, r.regs)
  let s := s.modMat core (fun now => now.merge me regs)
  let s := s.count core 11 r.steps
  (s.modThread c.uid Thread.wake).popCmd core .matrix

/-- Runs one part of an SRUN or ASSAY, and goes on, stops for a thread that is being taken or halted, or ends (R248). DEDUCED: log 38. -/
def State.runPart (s : State) (core : Nat) (c : Cmd) (part : MeState → Except EngStop (MatRun × PartEnd)) : State :=
  let old := match c.result with
    | some r => r
    | none => EngResult.nothing
  let me := old.me.getD (s.mat core)
  let keep (s : State) (r : MatRun) (going : Bool) (fault : Option (Nat × Nat)) : State :=
    let res : EngResult := MatRun.result { r with steps := old.ksteps + r.steps, regs := old.regs ++ r.regs } fault
    s.modHead core .matrix (fun c => { c with result := some res, going := going, stalled := false
                                              src := if going then c.src else [], vsrc := if going then c.vsrc else [] })
  match part me with
  -- what the command read when it started stays as it was read (R232)
  | .error (.page va) => (keep s ⟨me, 0, 0, []⟩ true none).engStall core .matrix c.ctx va
  | .error (.fault k va) => (keep s ⟨me, 0, 0, []⟩ false (some (k, va))).push (.matrixCommandCompletion core)
  | .ok (r, .done) => ((keep s r false none).push (.matrixCommandCompletion core)).wakeOwned
  | .ok (r, .fault k i) => ((keep s r false (some (k, i))).push (.matrixCommandCompletion core)).wakeOwned
  | .ok (r, .more) =>
    let taken := match s.thread? c.uid with
      | some t => t.preempt || t.haltReq || t.halted
      | none => true
    if taken then s.stopPart core c { r with steps := old.ksteps + r.steps, regs := old.regs ++ r.regs }
    else (keep s r true none).push (.engineCommandStart core .matrix)

/-- The bytes of `n` elements of a stream. -/
def streamBytes (code n : Nat) : Nat := elemOffset code (n - 1) + elemBytes code
/-- The addresses, as lines, of the input that an ASSAY reads from me.px (R247). -/
def MeCfg.inputAt (m : MeCfg) (x : Word) : List Nat := spanLines (streamBytes (fmtOf x) m.din) [x.toNat % 2 ^ 48]

/-- A command that starts to execute has its input's lines among its sources (R214): ASSAY reads x from the me.px of its start (R232). -/
def State.withInput (s : State) (core : Nat) (c : Cmd) : Cmd :=
  match c.op with
  | .assay _ =>
    let vs := c.mcfg.inputAt (s.mat core).px
    { c with
      src := (c.src ++ vs.filterMap (s.lineAt core c.ctx .rd)).eraseDups
      vsrc := (c.vsrc ++ vs.filter (fun v => (s.lineAt core c.ctx .rd v).isNone)).eraseDups }
  | _ => c

/-- Starts, or goes on with, the matrix engine's head command. -/
def State.matStart (s : State) (core : Nat) (hard : Bool) : State :=
  match s.headCmd core .matrix with
  | none => s
  | some c₀ =>
    let c := if c₀.going then c₀ else s.withInput core c₀
    let s := if c.op.isAssay && !c.going then s.modHead core .matrix (fun _ => c) else s
    if c.result.isSome && !c.going then s
    else if !c.going && s.engWaits core .matrix c then s.push (.engineCommandStart core .matrix)
    else
      match c.op with
      | .mring _ => if hard then s.ringStart core true else s.pokeRing core
      | .srun n => let s := s.touchSource c; s.runPart core c (s.srunPart core c hard n)
      | .assay n => let s := s.touchSource c; s.runPart core c (s.assayPart core c hard n)
      | _ => s.engStart core .matrix hard (.matrixCommandCompletion core) (fun s => s.matRun core)

/-! ## Issue (R233-R235) -/

/-- SNORM.clr. -/
def execSnormClr (g : BitVec 5) (s : State) : Host.Outcome State Fault Refusal :=
  Act.go (Act.engineForm .matrix [] [] g (Act.matAdmit .snormClr 0 0#64 0#64 [] [])) s

/-- SNORM.a and SNORM.b: the tile, and the room from the first norm index (R237). -/
def Act.snorm (op : EngOp) (ofA : Bool) (a b g : BitVec 5) : Act Unit :=
  Act.engineForm .matrix [a, b] [a, b] g (do
    let p ← Act.read [] a
    let c0 ← Act.read [a] b
    let m ← Act.mat
    let w := 32 * m.cfg.ks
    let l ← if ofA then Act.tile p 16 m.cfg.astr.toNat 0 w else Act.tile p w m.cfg.bstr.toNat 0 16
    if 4096 < c0.toNat + w then Act.fault 0x0E 0#64
    else Act.matAdmit op 0 p c0 [] l)
/-- SNORM.a. -/
def execSnormA (a b g : BitVec 5) (s : State) : Host.Outcome State Fault Refusal := Act.go (Act.snorm .snormA true a b g) s
/-- SNORM.b. -/
def execSnormB (a b g : BitVec 5) (s : State) : Host.Outcome State Fault Refusal := Act.go (Act.snorm .snormB false a b g) s

/-- SNGET and SNPUT: K words (R235, R238). -/
def Act.snwords (op : EngOp) (store : Bool) (a g : BitVec 5) : Act Unit :=
  Act.engineForm .matrix [a] [a] g (do
    let p ← Act.read [] a
    let m ← Act.mat
    let l ← Act.extent (if store then .wr else .rd) p 4 (4 * m.cfg.sk.toNat) (fun c => decide (c = 1))
    if store then Act.matAdmit op 0 p 0#64 l [] else Act.matAdmit op 0 p 0#64 [] l)
/-- SNGET.a. -/
def execSngetA (a g : BitVec 5) (s : State) : Host.Outcome State Fault Refusal := Act.go (Act.snwords .sngetA true a g) s
/-- SNGET.b. -/
def execSngetB (a g : BitVec 5) (s : State) : Host.Outcome State Fault Refusal := Act.go (Act.snwords .sngetB true a g) s
/-- SNPUT.a. -/
def execSnputA (a g : BitVec 5) (s : State) : Host.Outcome State Fault Refusal := Act.go (Act.snwords .snputA false a g) s
/-- SNPUT.b. -/
def execSnputB (a g : BitVec 5) (s : State) : Host.Outcome State Fault Refusal := Act.go (Act.snwords .snputB false a g) s
/-- SALIAS (R239). -/
def execSalias (g : BitVec 5) (s : State) : Host.Outcome State Fault Refusal :=
  Act.go (Act.engineForm .matrix [] [] g (Act.matAdmit .salias 0 0#64 0#64 [] [])) s
/-- SSEED (R240). -/
def execSseed (a g : BitVec 5) (s : State) : Host.Outcome State Fault Refusal :=
  Act.go (Act.engineForm .matrix [a] [a] g (do
    let v ← Act.read [] a
    Act.matAdmit .sseed 0 v 0#64 [] [])) s
/-- SRUN (R241): the extent of both tiles, and the table's size. -/
def execSrun (x : BitVec 1) (a b g : BitVec 5) (s : State) : Host.Outcome State Fault Refusal :=
  Act.go (Act.engineForm .matrix [a, b] [a, b] g (do
    let p ← Act.read [] a
    let q ← Act.read [a] b
    let m ← Act.mat
    let k := m.cfg.sk.toNat
    let la ← Act.tile p 16 m.cfg.astr.toNat 0 k
    let lb ← Act.tile q k m.cfg.bstr.toNat 0 16
    if m.kt = 0 ∨ k ≠ m.kt then Act.fault 0x0E 0#64
    else Act.matAdmit (.srun x) 0 p q [] (la ++ lb).eraseDups)) s
/-- SVAR (R242). -/
def execSvar (x : BitVec 1) (a g : BitVec 5) (s : State) : Host.Outcome State Fault Refusal :=
  Act.go (Act.engineForm .matrix [a] [] g (Act.matAdmit (.svar x) a.toNat 0#64 0#64 [] [])) s

/-- A stream of `n` elements that a form reads (R235). -/
def Act.stream (p : Word) (n : Nat) (codes : Nat → Bool) : Act (List Nat) := do
  let l ← Act.extent .rd p (elemBytes (fmtOf p)) (streamBytes (fmtOf p) n) codes
  Act.needTable p (fmtOf p)
  pure l

/-- PLOAD (R243). -/
def execPload (a b g : BitVec 5) (s : State) : Host.Outcome State Fault Refusal :=
  Act.go (Act.engineForm .matrix [a, b] [a, b] g (do
    let p ← Act.read [] a
    let q ← Act.read [a] b
    let m ← Act.mat
    let n := m.cfg.neurons * m.cfg.rank
    let k := m.cfg.rank * m.cfg.din
    let codes (c : Nat) : Bool := decide (4 ≤ c) && decide (c ≤ 11)
    if 32768 < n + k then Act.fault 0x0E 0#64
    else do
      let la ← Act.stream p n codes
      let lb ← Act.stream q k codes
      Act.matAdmit .pload 0 p q [] (la ++ lb).eraseDups)) s
/-- PSCORE (R244). DEDUCED: log 39. -/
def execPscore (a g : BitVec 5) (s : State) : Host.Outcome State Fault Refusal :=
  Act.go (Act.engineForm .matrix [a] [a] g (do
    let p ← Act.read [] a
    let m ← Act.mat
    if m.pshape ≠ some m.cfg.shape then Act.fault 0x0E 0#64
    else do
      let l ← Act.stream p m.cfg.din (fun c => decide (2 ≤ c) && decide (c ≤ 12))
      Act.matAdmit .pscore 0 p 0#64 [] l)) s
/-- PSEL (R245). -/
def execPsel (a g : BitVec 5) (s : State) : Host.Outcome State Fault Refusal :=
  Act.go (Act.engineForm .matrix [a] [a] g (do
    let p ← Act.read [] a
    let m ← Act.mat
    let l ← Act.extent .wr p 8 ((m.cfg.neurons + 63) / 64 * 8) (fun c => decide (c = 0))
    Act.matAdmit .psel 0 p 0#64 l [])) s
/-- The lines of the input that an ASSAY will read again, where me.px names it now or after a PSCORE ahead of it. -/
def State.inputLines (s : State) (core : Nat) : List Nat :=
  let m := s.mat core
  let ahead := (s.core core).mq.filterMap (fun c => match c.op with
    | .pscore => some c.a
    | _ => none)
  (m.px :: ahead).flatMap m.cfg.inputAt
/-- ASSAY (R247). -/
def execAssay (x : BitVec 1) (a b g : BitVec 5) (s : State) : Host.Outcome State Fault Refusal :=
  Act.go (Act.engineForm .matrix [a, b] [a, b] g (do
    let p ← Act.read [] a
    let q ← Act.read [a] b
    let m ← Act.mat
    let codes (c : Nat) : Bool := decide (2 ≤ c) && decide (c ≤ 12)
    let la ← Act.stream p (m.cfg.neurons * m.cfg.din) codes
    let lb ← Act.stream q (m.cfg.outs * m.cfg.neurons) codes
    let t ← Act.me
    let s ← get
    Act.matAdmit (.assay x) 0 p q [] (la ++ lb ++ s.inputLines t.core).eraseDups)) s
/-- AREAD (R246). -/
def execAread (a b g : BitVec 5) (s : State) : Host.Outcome State Fault Refusal :=
  Act.go (Act.engineForm .matrix [a, b] [b] g (do
    let v ← Act.read [] b
    Act.matAdmit .aread a.toNat 0#64 v [] [])) s

end Sys2Proof.Machine
end

