-- ==== Sys2Proof/Machine/Arrival.lean ====
section
/-!
DEFINITION. Meanings of the arrivals: replies, port words, messages and handler starts (R32, R41, R356-R359), commits at the arbiters
(R327), time limits and releases (R40, R167, R289), accesses at their home (R160, R163, R305), remote fills (R162), posted stores
(R165, R166), the Bed fault queue (R316), fences (R168, R169), and the starts of engine commands (R184).
-/
namespace Sys2Proof.Machine

/-! ## Replies (R32, R48, R296) -/

/-- A reply for a register reaches a thread, wherever it is (R397); a thread that waits for it goes on past its instruction. -/
def State.reply (s : State) (u : Nat) (reg : BitVec 5) (v : Word) : State :=
  let fill (t : Thread) : Thread := if reg.toNat < 28 then t.fillReg reg.toNat v else t
  match s.thread? u with
  | none => s
  | some t =>
    match t.wait with
    | .reply => s.modThread u (fun t => (fill t).finish)
    | .handle => s.modThread u (fun t => (fill t).finish)
    | _ => if reg.toNat < 28 ∧ (t.reg reg.toNat).pend then s.fillPend u reg.toNat v else s

/-- REPLY_ARRIVAL. -/
def execReplyArrival (u : Nat) (reg : BitVec 5) (v : Word) (s : State) : Host.Outcome State Fault Refusal := .next (s.reply u reg v)

/-! ## Port words (R356) -/

/-- The saved thread that a word at a port comes for (R397): it was taken from a slot of the core while it waited to read the port, and no
thread in a slot waits there. DEDUCED: log 111. -/
def State.savedReader (s : State) (c p : Nat) : Option Nat :=
  if (s.inSlots c).any (fun e => decide (e.2.wait = .portIn p)) || !((s.core c).inQueue p).isEmpty then none
  else (List.find? (fun e : Nat × Thread => decide (e.2.place = .stock c) && decide (e.2.portWait = some p)) s.threads).map (·.1)

/-- PORT_WORD_DELIVERY: a word for a fenced core is lost with it; one for a saved thread goes to its stockpile entry (R397). Threads that
wait for the port look again. -/
def execPortWordDelivery (c e : Nat) (v : Word) (ctl : Bool) (s : State) : Host.Outcome State Fault Refusal :=
  let p := entryPort e
  .next (
    if s.coreFenced c then s
    else
      match s.savedReader c p with
      | some u => s.modThread u (fun t => { t with stash := t.stash ++ [(p, v, ctl)], portWait := none })
      | none => (s.modCore c (fun q => q.enqueue p v ctl)).wakePorts c)

/-! ## Messages and the handler slot (R41-R44, R357, R358) -/

/-- A message from a watch names it in its last word (R177). -/
def isWatchMessage (m : Message) : Bool := decide (m.sender.toNat / 2 ^ 30 % 4 = 2)

/-- Messages to a core keep their order when its queue is full. DESIGN CHOICE: log 65. -/
def State.requeueMessage (s : State) (c : Nat) (m : Message) : State :=
  { s with pending := s.pending.filter (fun e => !isMessageTo c e) ++ .messageArrival c m :: s.pending.filter (isMessageTo c) }

/-- The live launch with a thread at a core that has the lowest sequence number (R42). -/
def State.liveLaunch (s : State) (c : Nat) : Option Launch :=
  let here := s.threads.filter (fun e => !e.2.handler && decide (some e.2.attr.ctx = (s.core c).tag) && (match e.2.place with
    | .slot d _ => decide (d = c)
    | .stock d => decide (d = c)
    | _ => false))
  let ls := s.launches.filter (fun e => here.any (fun t : Nat × Thread =>
    decide (t.2.attr.ctx = e.2.attr.ctx) && decide (t.2.attr.seq = e.2.attr.seq)))
  match ls with
  | [] => none
  | e :: es => some (es.foldl (fun m x => if x.2.attr.seq < m.2.attr.seq then x else m) e).2

/-- A message from a sett core (R43, R275). -/
def isSettMessage (m : Message) : Bool := decide (m.sender.toNat / 2 ^ 30 % 4 = 1)

/-- MESSAGE_ARRIVAL: queued, held while the queue is full, or discarded: a sett core's by a core with no live launch (R42), any by a core
that has changed context, with its watch. DEDUCED: log 58. DESIGN CHOICE: log 65. -/
def execMessageArrival (c : Nat) (m : Message) (s : State) : Host.Outcome State Fault Refusal :=
  .next (
    let q := s.core c
    if s.coreFenced c || decide (q.tag ≠ some m.ctx) then
      if isWatchMessage m then
        { s with watches := s.watches.filter (fun w => !(decide (w.ctx = m.ctx) && decide (w.core = c) &&
            decide (BitVec.ofNat 64 w.id = m.words.getD 3 0#64))) }
      else s
    else if isSettMessage m && (s.liveLaunch c).isNone then s
    else if 8 ≤ q.msgs.length then s.requeueMessage c m
    else ((s.modCore c (fun q => { q with msgs := q.msgs ++ [m] })).endIdle c).pokeHandler c)

/-- A run in the handler slot begins for a launch (R42). -/
def State.startHandler (s : State) (c : Nat) (l : Launch) (pc : Nat) (regs : List Word) : State :=
  let u := s.nextUid
  let attr : Attr := { l.attr with tid := 0xFFFFFFFF#32, count := 8, prio := l.prio, isSealed := false, restart := false }
  let t := Thread.fresh (.slot c Config.handlerSlot) attr pc l.tvec s.co
  let t := { t with regs := regs.zipIdx.map (fun v : Word × Nat => (v.2, (⟨v.1, true, false, false⟩ : Reg))), handler := true, enter := u, home := some c }
  let t := { t with chunk := t.newChunk s.co }
  let s : State := { s with nextUid := u + 1, threads := Tab.insert s.threads u t }
  let s := s.modCore c (fun q => q.delayTurn Config.handlerSlot s.cycle)
  ((s.count c 15 1).progress l.attr.ctx).wakeAll (fun _ t => decide (t.wait = .send c))

/-- Whether the handler slot of a core can take a run: none begins while the device freezes (R404). -/
def State.handlerFree (s : State) (c : Nat) : Bool := (s.inSlot c Config.handlerSlot).isNone && !s.coreFenced c && !s.freezing

/-- MESSAGE_HANDLER_START: the oldest message, once no light handler waits; without a live launch it is discarded. DEDUCED: log 58. -/
def execMessageHandlerStart (c : Nat) (s : State) : Host.Outcome State Fault Refusal :=
  .next (
    if s.handlerFree c && (s.core c).lights.isEmpty then
      match (s.core c).msgs with
      | [] => s
      | m :: rest =>
        let s := s.modCore c (fun q => { q with msgs := rest })
        match s.liveLaunch c with
        | none => (s.wakeAll (fun _ t => decide (t.wait = .send c))).pokeHandler c
        | some l => s.startHandler c l ((m.words.headD 0#64).toNat % 2 ^ 48) (m.sender :: m.words.drop 1)
    else s)

/-- LIGHT_HANDLER_START: the oldest light handler, for the launch that claimed the core when its word was popped (R357); threads and
synchronising stores that wait for one to start look again. DEDUCED: log 58. -/
def execLightHandlerStart (c : Nat) (s : State) : Host.Outcome State Fault Refusal :=
  .next (
    if s.handlerFree c then
      match (s.core c).lights with
      | [] => s
      | (k, g0, g1) :: rest =>
        let s := s.modCore c (fun q => { q with lights := rest })
        let s := match Tab.find? s.launches k with
          | none => s.pokeHandler c
          | some l => s.startHandler c l l.attr.handler [g0, g1]
        (s.wakePorts c).servePorts c
    else s)

/-! ## The arbiters (R327) -/

/-- CHUNK_COMMIT. -/
def execChunkCommit (u : Nat) (s : State) : Host.Outcome State Fault Refusal :=
  .next (match s.thread? u with
    | none => s
    | some t =>
      match t.prev with
      | none => s
      | some c =>
        match s.tryCommit u t c with
        | (.done, s) => s.modThread u (fun t =>
            let t := { t with prev := none }
            if t.wait = .commit then t.wake else t)
        | (.squashed, s) => s
        | (.blocked, s) => s.push (.chunkCommit u))

/-! ## Limits and releases (R167, R289, R40) -/

/-- WAITA_TIMEOUT: the limit of the wait that is still on; the end of a WAITA is progress (R388). -/
def execWaitaTimeout (u stamp : Nat) (s : State) : Host.Outcome State Fault Refusal :=
  .next (match s.thread? u with
    | none => s
    | some t =>
      match t.wait with
      | .addr _ _ _ _ (some r) =>
        if t.stamp = stamp then (s.modThread u (fun t => (t.fillReg r 0#64).finish)).progress t.attr.ctx else s
      | _ => s)

/-- IDLE_TIMEOUT. -/
def execIdleTimeout (u stamp : Nat) (s : State) : Host.Outcome State Fault Refusal :=
  .next (s.modThread u (fun t => if t.wait = .idle true ∧ t.stamp = stamp then t.finish else t))

/-- BARRIER_RELEASE: a member goes on past its GBAR, a single-operation event (R388). -/
def execBarrierRelease (u stamp : Nat) (s : State) : Host.Outcome State Fault Refusal :=
  .next (match s.thread? u with
    | none => s
    | some t =>
      match t.wait with
      | .gbar _ => if t.stamp = stamp then (s.modThread u Thread.finish).progress t.attr.ctx else s
      | _ => s)

/-! ## Accesses at their home (R160, R163, R305) -/

/-- Whether the home of a place still serves a context: local memory of a core that is fenced or has changed context does not (R305). -/
def State.homeServes (s : State) (loc ctx : Nat) : Bool :=
  match localCore loc with
  | some c => s.serves c ctx
  | none => match remoteDev loc with
    | some d => !s.lostDevs.contains d && s.paired ctx d
    | none => true

/-- FULL_EMPTY_HOME_ACCESS (R160). -/
def execFullEmptyHomeAccess (a : Access) (s : State) : Host.Outcome State Fault Refusal :=
  let fills := decide (a.kind = .lde) || decide (a.kind = .ldf)
  let reg := if fills then a.reg.toNat else 31
  .next (
    if (s.thread? a.uid).isNone then s
    else if !s.homeServes a.loc a.ctx then (s.faultThread a.uid reg 0x07 (BitVec.ofNat 64 a.va)).wakePorts a.core
    else if s.writeHeld a.uid a.loc then s.push (.fullEmptyHomeAccess a)
    else
      let s := s.touchPlaces [a.loc]
      if fills && s.poisoned a.loc then s.faultThread a.uid reg 0x09 (BitVec.ofNat 64 (a.va / 64 * 64))
      else s.atHome a)

/-- REMOTE_ACCESS_ARRIVAL (R305): a load of the thread's chunk, at the core or device that holds the word. -/
def execRemoteAccessArrival (a : Access) (s : State) : Host.Outcome State Fault Refusal :=
  .next (match s.thread? a.uid with
    | none => s
    | some t =>
      if !s.homeServes a.loc a.ctx then s.faultThread a.uid a.reg.toNat 0x07 (BitVec.ofNat 64 a.va)
      else if s.owned (a.loc / 64) || s.building t.core a.fmt then s.push (.remoteAccessArrival a)
      else if s.poisoned a.loc then s.faultThread a.uid a.reg.toNat 0x09 (BitVec.ofNat 64 (a.va / 64 * 64))
      else
        let (v, fl) := loadValue (s.tableOf t.core) a.fmt t.fz (s.see t a.va a.loc a.size)
        let page := if windowOf a.va < 14 then some (a.va / 2 ^ 16) else none
        -- a load that read a port for its address is an event of its own, outside the chunk (R329)
        (s.modThread a.uid (fun t => { (if a.expd = 1#64 then t else t.noteRead a.loc page) with
          fflags := t.fflags ||| (fl &&& 0x17#6).setWidth 64 })).push (.replyArrival a.uid a.reg v))

/-- ATOMIC_APPLY (R163, R164, R336): one event at the word's home; the old value goes back. -/
def execAtomicApply (a : Access) (s : State) : Host.Outcome State Fault Refusal :=
  .next (match s.thread? a.uid, a.kind with
    | some t, .atomic op =>
      let es := entriesAt (t.spell a.va) a.loc 0 a.size
      if !s.homeServes a.loc a.ctx then s.faultThread a.uid a.reg.toNat 0x07 (BitVec.ofNat 64 a.va)
      else if s.writeHeld a.uid a.loc then s.push (.atomicApply a)
      else
      let s := s.touchPlaces [a.loc]
      if s.poisoned a.loc then s.faultThread a.uid a.reg.toNat 0x09 (BitVec.ofNat 64 (a.va / 64 * 64))
      else if t.attr.isSealed && t.footOver es then s.faultThread a.uid a.reg.toNat 0x0B (BitVec.ofNat 64 a.va)
      else
        let old := BitVec.ofNat 64 (s.see t (t.spell a.va) a.loc a.size)
        let new := AtomOp.result op old a.data a.expd
        (s.writeFor a.uid (t.spell a.va) a.loc a.size new.toNat).push (.replyArrival a.uid a.reg old)
    | _, _ => s)

/-! ## Remote fills (R162, R296, R397) -/

/-- Whether a register of a thread is empty and armed. -/
def Thread.armedAt (t : Thread) (r : Nat) : Bool := decide (r < t.attr.count) && (t.reg r).armed && !(t.reg r).full

/-- The thread that a remote fill reaches with a register armed: the one in the slot, or one saved from it. DEDUCED: log 62. -/
def State.fillTarget (s : State) (ctx c k r : Nat) : Option Nat :=
  match s.inSlot c k with
  | some (u, t) => if t.attr.ctx = ctx ∧ t.armedAt r then some u else saved
  | none => saved
where
  /-- A thread saved from that slot. -/
  saved : Option Nat :=
    (List.find? (fun e : Nat × Thread => decide (e.2.place = .stock c) && decide (e.2.lastSlot = some (c, k)) &&
      decide (e.2.attr.ctx = ctx) && e.2.armedAt r) s.threads).map (·.1)

/-- Whether the operand of a remote fill has nonzero reserved bits, a slot above 16, or a register above 27 (R162), on whatever device. -/
def malformedFill (target : Word) : Bool :=
  let a := target.toNat
  decide (a / 2 ^ 44 ≠ 0) || decide (a / 2 ^ 29 % 8 ≠ 0) || decide (a / 2 ^ 21 % 8 ≠ 0) || decide (a / 2 ^ 14 % 4 ≠ 0) ||
  decide (16 < a / 2 ^ 16 % 32) || decide (27 < a / 2 ^ 24 % 32)

/-- The status of a remote fill on this device, and the state after it. DEDUCED: log 62. -/
def State.remoteFill (s : State) (ctx : Nat) (target value : Word) : Nat × State :=
  let a := target.toNat
  let c := a % 2 ^ 14
  let k := a / 2 ^ 16 % 32
  let r := a / 2 ^ 24 % 32
  if malformedFill target then (2, s)
  else if s.coreFenced c then (3, s)
  else
    match s.fillTarget ctx c k r with
    | some u => (0, s.fillPend u r value)
    | none =>
      match s.inSlot c k with
      | some (_, t) => (if t.attr.ctx = ctx ∧ r < t.attr.count then 1 else 2, s)
      | none => (2, s)

/-- RFILL_DELIVERY: the status goes back to the sender. What another device answers is its own affair. -/
def execRfillDelivery (u : Nat) (reg : BitVec 5) (target value : Word) (s : State) : Host.Outcome State Fault Refusal :=
  .next (match s.thread? u with
    | none => s
    | some t =>
      let dev := target.toNat / 2 ^ 32 % 4096
      let (st, s) :=
        if malformedFill target then (2, s)
        else if dev = s.device.devid.toNat then s.remoteFill t.attr.ctx target value
        else if s.lostDevs.contains dev || !s.paired t.attr.ctx dev then (3, s)
        else s.choose 4
      (s.progress t.attr.ctx).push (.replyArrival u reg (BitVec.ofNat 64 st)))

/-! ## Posted stores (R165, R166, R326) -/

/-- Where a posted store is applied: a core, or an LLC slice. DESIGN CHOICE: log 64. -/
def State.postHome (s : State) (a : Access) : Option Nat :=
  match s.coreSpot a.core a.ctx a.va .wr with
  | .remote c _ => some c
  | .global _ loc => some (Config.cores + loc / 64 % 256)
  | _ => none
/-- Whether two posted stores have one destination: one whose page is absent may have that of any that goes to a slice (R326). -/
def State.sameHome (s : State) (a b : Access) : Bool :=
  match s.postHome a, s.postHome b with
  | some x, some y => decide (x = y)
  | some x, none => decide (Config.cores ≤ x)
  | none, some y => decide (Config.cores ≤ y)
  | none, none => true

/-- An entry of a core's journal. -/
def State.entry? (s : State) (c k : Nat) : Option JEntry := Tab.find? (s.core c).journal k

/-- Marks an entry as applied or refused; a store of its thread that waits for it looks again (R326). -/
def State.spend (s : State) (c k : Nat) : State :=
  let u := (s.entry? c k).map (·.uid)
  (s.modCore c (fun q => { q with journal := q.journal.map (fun e => (e.1, if e.1 = k then { e.2 with spent := true } else e.2)) })).wakeAll
    (fun v t => decide (t.wait = .journal) && decide (u = some v))

/-- POSTED_STORE_APPLY: in issue order at its destination; an absent page is waited for at the Bed fault queue.
DEDUCED: log 63. DESIGN CHOICE: log 64. -/
def execPostedStoreApply (c k : Nat) (s : State) : Host.Outcome State Fault Refusal :=
  .next (match s.entry? c k with
    | none => s
    | some e =>
      let a := e.acc
      -- wherever the thread issued them (R326)
      let earlier := s.cores.any (fun q => q.2.journal.any (fun x => decide (x.2.uid = e.uid) && decide (x.2.order < e.order) &&
        !x.2.spent && s.sameHome x.2.acc a))
      let go (s : State) (loc : Nat) : State :=
        if s.heldBack e.uid [loc / 64] then s.push (.postedStoreApply c k)
        else
        let s := s.touchPlaces [loc]
        if s.poisoned loc then (s.spend c k).push (.postedStoreRefusal c k)
        else ((s.postWrite e.uid a.va loc a.data (decide (a.kind = .pstf))).spend c k).push (.postedStoreAck c k)
      if e.spent then s
      else if earlier then s.push (.postedStoreApply c k)
      else
        match s.coreSpot c a.ctx a.va .wr with
        | .bad _ => (s.spend c k).push (.postedStoreRefusal c k)
        | .absent =>
          if (s.page? a.ctx).isNone then (s.spend c k).push (.postedStoreRefusal c k)
          else s.faultWait a.ctx (a.va / 2 ^ 16) (.post c k)
        | .near loc => go s loc
        | .remote d loc => if s.holds d a.ctx then go s loc else (s.spend c k).push (.postedStoreRefusal c k)
        | .global en loc => go (s.useEntry en true) loc)

/-- An entry leaves the journal: threads that wait for one look again (R358). -/
def State.freeEntry (s : State) (c k : Nat) : State :=
  (s.modCore c (fun q => { q with journal := Tab.erase q.journal k })).wakeAll
    (fun _ t => decide (t.wait = .journal) && decide (t.core = c))

/-- POSTED_STORE_ACK. -/
def execPostedStoreAck (c k : Nat) (s : State) : Host.Outcome State Fault Refusal := .next (s.freeEntry c k)

/-- POSTED_STORE_REFUSAL: the trap is taken before the thread's next issue; after QUIT it is a KIND 2 record. -/
def execPostedStoreRefusal (c k : Nat) (s : State) : Host.Outcome State Fault Refusal :=
  .next (match s.entry? c k with
    | none => s
    | some e =>
      let s := s.freeEntry c k
      match s.thread? e.uid with
      | some _ => s.modThread e.uid (fun t => { t with async := t.async ++ [(0x16, BitVec.ofNat 64 k)] })
      | none => s.record e.acc.ctx 2 0x16 c 31 e.seq e.tid k e.acc.pc 0 0)

/-! ## Engine commands start (R184) -/

/-- ENGINE_COMMAND_START, for each engine; `hard` when the page it waited for cannot be resolved. -/
def State.startEngine (s : State) (c : Nat) (e : Engine) (hard : Bool) : State :=
  match e with
  | .vector => s.vecStart c hard
  | .matrix =>
    match s.headCmd c .matrix with
    | some k =>
      (match k.op with
        | .mring _ => if hard then s.ringStart c true else s.pokeRing c
        | _ => s.matStart c hard)
    | none => s
  | .copy => s.copyStart c hard

/-- ENGINE_COMMAND_START. -/
def execEngineCommandStart (c : Nat) (e : Engine) (s : State) : Host.Outcome State Fault Refusal := .next (s.startEngine c e false)

/-- TLOAD_BUILD_COMPLETE (R74): one build of the table has ended, and conversions, and an exchange (R299), that waited look again. -/
def execTloadBuildComplete (c k : Nat) (s : State) : Host.Outcome State Fault Refusal :=
  .next ((s.modCore c (fun q => { q with eng := { q.eng with building := q.eng.building.erase k } })).wakeAll
    (fun _ t => (decide (t.wait = .table) || decide (t.wait = .engines)) && decide (t.core = c)))

/-! ## The Bed fault queue (R316, R187) -/

/-- A waiter whose page has been resolved issues its access again. -/
def State.wakeWaiter (s : State) : Waiter → State
  | .thread u =>
    match s.thread? u with
    | none => s
    | some t =>
      match t.wait, t.settOn with
      | .page _, _ => s.modThread u Thread.wake
      | .overlay, some n => s.push (.overlayLoadComplete n (t.pc / 4096 * 4096))
      | _, _ => s
  | .engine c e => (s.modHead c e (fun k => { k with stalled := false })).push (.engineCommandStart c e)
  | .hop ctx h => s.push (.handleOperationCompletion ctx h)
  | .handle cmd => s.push (.handleCommandAdmission cmd)
  | .launch req => s.push (.launchAdmission req)
  | .near n => s.push (.nmProgramStart n)
  | .post c k => s.push (.postedStoreApply c k)
  | .held _ => s

/-- A waiter whose page cannot be resolved ends its wait as its own entry states. -/
def State.failWaiter (s : State) : Waiter → State
  | .thread u =>
    match s.thread? u with
    | none => s
    | some t =>
      match t.wait, t.settOn with
      | .page va, some n =>
        if t.program then
          (s.modThread u (fun t => { t with wait := .reply })).push (.nmProgramStop n 3 (BitVec.ofNat 64 t.pc))
        else s.carryBack u (some (0x08, BitVec.ofNat 64 va))
      | .page va, none => s.faultThread u 31 0x08 (BitVec.ofNat 64 va)
      | .overlay, _ => s.carryBack u (some (0x01, BitVec.ofNat 64 (2 ^ 63 + t.pc)))
      | _, _ => s
  | .engine c e => (s.modHead c e (fun k => { k with stalled := false })).startEngine c e true
  | .hop ctx h => s.completeHop ctx h true
  | .handle cmd => s.halloc cmd true
  | .launch req => s.admitLaunch req true
  | .near n => s.startProgram n true
  | .post c k => (s.spend c k).push (.postedStoreRefusal c k)
  -- the command is not sent, as one that its target refuses (R52)
  | .held u => { s with outbox := s.outbox.map (fun o => if o.uid = u then { o with rest := o.rest.drop 1 } else o) }

/-- FAULT_QUEUE_RESOLUTION: an entry is resolved, or cannot be. -/
def execFaultQueueResolution (ctx page : Nat) (ok : Bool) (s : State) : Host.Outcome State Fault Refusal :=
  .next (
    let mine (f : FaultEntry) : Bool := decide (f.ctx = ctx) && decide (f.page = page)
    match s.faultq.find? mine with
    | none => s
    | some f =>
      let s : State := { s with faultq := s.faultq.filter (fun f => !mine f) }
      f.waiters.foldl (fun s w => if ok then s.wakeWaiter w else s.failWaiter w) s)

/-! ## Fences (R168, R169) -/

/-- Whether a posted store goes to another device (R419). -/
def State.postsAway (s : State) (a : Access) : Bool :=
  match s.coreSpot a.core a.ctx a.va .wr with
  | .global _ loc => (remoteDev loc).isSome
  | _ => false
/-- Whether a posted store of a thread, of those within the device for FENCE.dev and of all for FENCE.sys, has been neither applied nor
refused: a refusal counts once it has reached the core (R166, R168). -/
def State.postsOpen (s : State) (u : Nat) (everywhere : Bool) : Bool :=
  s.cores.any (fun c => c.2.journal.any (fun e => decide (e.2.uid = u) && (everywhere || !s.postsAway e.2.acc) &&
    (!e.2.spent || s.pending.contains (.postedStoreRefusal c.1 e.1))))

/-- FENCE_COMPLETION: the earlier chunks have committed already; FENCE.dev waits for the posted stores within the device, FENCE.sys for
all. -/
def execFenceCompletion (u scope : Nat) (s : State) : Host.Outcome State Fault Refusal :=
  .next (match s.thread? u with
    | none => s
    | some t =>
      if t.wait ≠ .fence then s
      else if scope ≠ 0 ∧ s.postsOpen u (decide (scope = 2)) then
        s.push (.fenceCompletion u scope)
      else ({ s.modThread u Thread.finish with co := s.co + 1 }).progress t.attr.ctx)

/-- The HBM lines of a range of global addresses. -/
def State.rangeLines (s : State) (ctx base len : Nat) : List Nat :=
  ((List.range ((base % 64 + len + 63) / 64)).filterMap (fun i =>
    let va := base / 64 * 64 + 64 * i
    match s.lookup ctx va with
    | some e => let l := s.placeIn e va; if isHbm l then some (l / 64) else none
    | none => none)).eraseDups

/-- Whether a near-memory command has been admitted and has not stopped at one of some sett cores. -/
def State.nearBusy (s : State) (setts : List Nat) : Bool :=
  s.setts.any (fun e => setts.contains e.1 && e.2.queue.any (fun c => !c.loadOnly)) ||
  s.setts.any (fun e => e.2.rows.any (fun c => c.dst.any (fun l => setts.contains (settOf l))))

/-- XFENCE_COMPLETION: once every near-memory command admitted before it has ended, the range's committed bytes go to HBM and its copies
are invalid, at one position of the commit order (R334). It ends the wait that its number names; one held until publication names none. -/
def execXfenceCompletion (u ctx base len stamp : Nat) (s : State) : Host.Outcome State Fault Refusal :=
  .next (
    let lines := s.rangeLines ctx base len
    if s.nearBusy ((lines.map (fun l => settOf (64 * l))).eraseDups) then s.push (.xfenceCompletion u ctx base len stamp)
    else
      let s := lines.foldl State.writeBackLine s
      let s : State := { s with co := s.co + 1 }
      (s.modThread u (fun t => if t.wait = .xfence ∧ t.stamp = stamp then t.finish else t)).progress ctx)

end Sys2Proof.Machine
end

