-- ==== Sys2Proof/Machine/Fence.lean ====
section
/-!
DEFINITION. Meanings of the steps that take a Face, a stack, a link or a port away, and give a Face back (R26, R321, R400-R403,
R417).
-/
namespace Sys2Proof.Machine

/-! ## Threads that end (R401) -/

/-- Whether a place belongs to a core of some Faces. -/
def onFaces (mask : BitVec 8) (c : Nat) : Bool := mask.getLsbD (faceOf c)

/-- The core of a fenced Face that a thread belongs to: its slot, its stockpile entry, or the core its packet is bound for. -/
def State.threadOn (s : State) (mask : BitVec 8) (u : Nat) (t : Thread) : Bool :=
  let bound (e : Event) : Bool := match e with
    | .migrationArrival v o => decide (v = u) && decide (o < Config.cores) && onFaces mask o
    | _ => false
  match t.place with
  | .slot c _ => onFaces mask c
  | .stock c => onFaces mask c
  | .transit => s.pending.any bound
  | .sett _ => false

/-- The arbiters decide a chunk they hold: it commits whole or is squashed (R339). DESIGN CHOICE: log 69. -/
def State.decideChunk (s : State) (u : Nat) : State :=
  match s.thread? u with
  | none => s
  | some t =>
    match t.prev with
    | none => s
    | some c =>
      if t.attr.isSealed then s
      else
        let (k, s) := s.choose 2
        if k = 1 then s
        else
          match s.tryCommit u t c with
          | (.done, s') => s'
          | _ => s

/-! ## Face fence (R321, R400-R402) -/

/-- A core at its reset state: what it keeps is its CAP and the posted stores that are on their way. DESIGN CHOICE: log 69. -/
def Core.cleared (q : Core) (c : Nat) : Core := { Core.reset c with cap := q.cap, journal := q.journal }

/-- Whether a place is local memory of a core of some Faces. -/
def localOn (mask : BitVec 8) (loc : Nat) : Bool :=
  match localCore loc with
  | some c => onFaces mask c
  | none => false

/-- Steps in flight that end with some Faces: words, messages, tiles and exchanges for their cores, and handle commands of their
cores that are not admitted yet. -/
def lostWith (mask : BitVec 8) : Event → Bool
  | .portWordDelivery c _ _ _ => onFaces mask c
  | .messageArrival c _ => onFaces mask c
  | .tileDelivery c => onFaces mask c
  | .localContextExchange c _ => onFaces mask c
  | .engineContextExchange c _ => onFaces mask c
  | .handleCommandAdmission h => onFaces mask h.core && !h.held
  | .tloadBuildComplete c _ => onFaces mask c
  | _ => false

/-- Threads that wait at a word of a lost local memory take the remote-access fault (R305, R400). DEDUCED: log 68. -/
def State.refuseWaiters (s : State) (mask : BitVec 8) : State :=
  let out := s.waiters.filter (fun a => localOn mask a.loc)
  let s : State := { s with waiters := s.waiters.filter (fun a => !localOn mask a.loc) }
  let s := out.foldl (fun s a =>
    let s := s.faultThread a.uid (if a.kind = .lde ∨ a.kind = .ldf then a.reg.toNat else 31) 0x07 (BitVec.ofNat 64 a.va)
    -- the port words that it kept are free again (R95)
    if (keptPorts a).isEmpty then s else s.wakePorts a.core) s
  s.threads.foldl (fun s e => match e.2.wait with
    | .addr loc va _ _ _ => if localOn mask loc then s.faultThread e.1 31 0x07 (BitVec.ofNat 64 va) else s
    | _ => s) s

/-- Whether a dress divides its rows over cores of some Faces, or holds lines in pages homed on them (R366, R368). -/
def Dress.dependsOn (d : Dress) (mask : BitVec 8) : Bool :=
  decide (d.homes &&& mask ≠ 0#8) ||
  (match d.slice with
    | some g => decide (g.1 &&& mask ≠ 0#8)
    | none => false)

/-- A fence re-dresses the handles whose SLICE, or whose lines' homes, lie on its cores (R368); one whose re-dress is being built only starts that build again,
and its generation rises once (R369). DESIGN CHOICE: log 52. -/
def State.redressFenced (s : State) (mask : BitVec 8) : State :=
  let building (h : Handle) : Bool := match h.order with
    | e :: _ => e.redress && e.built
    | [] => false
  s.handles.foldl (fun s e =>
    if e.2.state = .live ∧ e.2.dress.dependsOn mask ∧ !building e.2 then s.queueRedress e.1 else s) s

/-- Fences the Faces of a mask that are not fenced yet, at one instant (R400). DEDUCED: log 68. DESIGN CHOICE: log 69. -/
def State.fenceFaces (s : State) (m : BitVec 8) : State :=
  let mask := m &&& ~~~s.device.fenced
  if mask = 0#8 then s
  else
    let users := (s.threads.filter (fun e => s.threadOn mask e.1 e.2)).map (·.1)
    let s := users.foldl State.decideChunk s
    let s : State := { s with
      device := { s.device with fenced := s.device.fenced ||| mask }
      lostHomes := s.lostHomes ||| mask
      renewed := s.renewed.filter (fun r => !mask.getLsbD r.1) }
    let s := users.foldl State.loseOrRequeue s
    let s : State := { s with
      cores := (s.cores.map (fun e => (e.1, if onFaces mask e.1 then e.2.cleared e.1 else e.2))).filter
        (fun e => decide (e.2 ≠ Core.reset e.1))
      mem := s.mem.filter (fun e => !localOn mask e.1)
      empty := s.empty.filter (fun e => !localOn mask (8 * e.1))
      poison := s.poison.filter (fun e => !localOn mask (64 * e.1))
      setts := s.setts.map (fun e => (e.1, { e.2 with owner := match e.2.owner with
        | some c => if onFaces mask c then none else some c
        | none => none }))
      watches := s.watches.filter (fun w => !(decide (w.slice < Config.cores) && onFaces mask w.slice))
      tcache := s.tcache.filter (fun e => !(decide (e.slice < Config.cores) && onFaces mask e.slice))
      -- a save that waited on one of the cores is gone with it (R399)
      ctxs := s.ctxs.map (fun e => (e.1, { e.2 with saving := e.2.saving.filter (fun c => !onFaces mask c) }))
      pending := s.pending.filter (fun e => !lostWith mask e)
      timers := s.timers.filter (fun e => !lostWith mask e.2)
      faultq := s.faultq.map (fun f => { f with waiters := f.waiters.filter (fun w => match w with
        | .engine c _ => !onFaces mask c
        | _ => true) }) }
    (((s.refuseWaiters mask).wakeOwned).redressFenced mask).push .threadPlacement

/-- FACE_FENCE: the host fences the Faces of a mask. -/
def execFaceFence (mask : BitVec 8) (s : State) : Host.Outcome State Fault Refusal := .next (s.fenceFaces mask)

/-- FACE_FAILURE: the BCP fences a Face that has failed. -/
def execFaceFailure (face : Nat) (s : State) : Host.Outcome State Fault Refusal :=
  .next (if face < 8 then s.fenceFaces (BitVec.ofNat 8 (2 ^ face)) else s)

/-- FACE_RESET: fenced Faces return with every core at its reset state; a Face that is not fenced stays as it is. -/
def execFaceReset (mask : BitVec 8) (s : State) : Host.Outcome State Fault Refusal :=
  .next ({ s with device := { s.device with fenced := s.device.fenced &&& ~~~mask } }.push .threadPlacement)

/-! ## Stacks, links, ports and the Bed (R26, R419) -/

/-- The stacks of each copy of a handle: its primary, which has none while it is LLC resident, and its replicas (R366). -/
def Dress.copies (d : Dress) : List (List Nat) :=
  (if d.place = 1 then (List.range 12).filter (fun k => d.onStacks.getLsbD k) else if d.place = 2 then [d.sett / 64] else []) ::
    d.replicas.map (fun k => [k])

/-- A stack is lost: its lines are poisoned; a handle with a copy there and another that is whole is re-dressed; one with no copy left
is poisoned, and one whose copies have each lost some lines, in the lines that all have lost (R26, R368, R370). DEDUCED: log 80.
DESIGN CHOICE: log 126. -/
def State.loseStack (s : State) (stack : Nat) : State :=
  if 12 ≤ stack ∨ s.lostStacks.contains stack then s
  else
    let s : State := { s with lostStacks := s.lostStacks ++ [stack] }
    s.handles.foldl (fun s e =>
      let copies := e.2.dress.copies
      if e.2.state = .dead ∨ copies.all (fun c => !c.contains stack) then s
      else if copies.all (fun c => !c.isEmpty && c.all s.lostStacks.contains) then s.modHandle e.1 (fun h => { h with bad := true })
      else if copies.all (fun c => c.any s.lostStacks.contains) then
        s.pierce e.1 e.2
      else if e.2.state = .live then s.queueRedress e.1
      else s) s

/-- STACK_LOSS. -/
def execStackLoss (stack : Nat) (s : State) : Host.Outcome State Fault Refusal := .next (s.loseStack stack)

/-- HELVEN_LINK_LOSS: traffic goes over the links that remain; nothing committed is lost. -/
def execHelvenLinkLoss (link : Nat) (s : State) : Host.Outcome State Fault Refusal :=
  .next { s with lostLinks := setAdd s.lostLinks link }

/-- LINK_LOSS_TIMEOUT: from now on accesses to the device fault (R419). -/
def execLinkLossTimeout (dev : Nat) (s : State) : Host.Outcome State Fault Refusal :=
  .next { s with lostDevs := setAdd s.lostDevs dev }

/-- The context page that a host step in flight belongs to, when it comes through a port; device-page steps have none.
DESIGN CHOICE: log 78. -/
def hostStep : Event → Option (Option Nat)
  | .hostLaunchWrite p _ _ => some (some p)
  | .contextStart p => some (some p)
  | .contextStopDispatch p => some (some p)
  | .contextEnd p => some (some p)
  | .hostWdogWrite p _ => some (some p)
  | .hostErrClear p => some (some p)
  | .hostMessagePush p _ _ => some (some p)
  | .hostRegisterWrite _ _ => some none
  | .translationInvalidation p => some (some p)
  | .debugHalt p _ => some (some p)
  | .debugResume p _ => some (some p)
  | .debugDetach p => some (some p)
  | .debuggerRegisterWrite p _ _ _ => some (some p)
  | .hostCxlWrite _ _ => some none
  | .hostCxlRead _ _ => some none
  | .faceFence _ => some none
  | .faceReset _ => some none
  | .freezeRequest => some none
  | .freezeResume _ => some none
  | .attestationRequest => some none
  | _ => none

/-- HOST_PORT_LOSS: which of the host's steps in flight came through the port is the device's own affair; each of those is lost, and
a fault window reports it, its context's or, for a step of no context, some context's, under a KIND that the spec does not name.
DESIGN CHOICE: log 78. -/
def execHostPortLoss (port : Nat) (s : State) : Host.Outcome State Fault Refusal :=
  let drop (acc : List Event × State) (e : Event) : List Event × State :=
    match hostStep e with
    | none => (acc.1 ++ [e], acc.2)
    | some p =>
      let (k, s) := acc.2.choose 2
      if k = 0 then (acc.1 ++ [e], s)
      else
        let (w, s) := s.freeWord
        let (j, s) := s.choose (max 1 s.ctxs.length)
        let ctx := match p, s.ctxs[j]? with
          | some i, _ => (s.ctxPage i).num
          | none, some e => e.2.num
          | none, none => (s.ctxPage 0).num
        (acc.1, s.record ctx (w.toNat % 256) 0 0 31 0 0 0 0 0 0)
  let n := s.pending.length
  let s : State := { s with lostPorts := setAdd s.lostPorts port }
  let (kept, s) := s.pending.foldl drop ([], s)
  .next { s with pending := kept ++ s.pending.drop n }

/-- BED_LOSS: the device stops. -/
def execBedLoss (s : State) : Host.Outcome State Fault Refusal := .next { s with bedLost := true }

end Sys2Proof.Machine
end

