-- ==== Sys2Proof/Machine/HostPage.lean ====
section
/-!
DEFINITION. Meanings of the host's steps at a context page and the device page (R409-R417): the life of a context (R411, R412),
messages (R416), registers, translation invalidation (R414), the debug window (R285-R288, R415), the watchdog (R388-R390, R398, R399),
CXL.mem (R409), and accesses of other devices (R419).
-/
namespace Sys2Proof.Machine

/-- A step that a register write is comes before the host's later ones (R409). -/
def State.pushFirst (s : State) (e : Event) : State := { s with pending := e :: s.pending }

/-! ## The life of a context (R411, R412) -/

/-- Sets ERR of a context page. DEDUCED: log 71. -/
def State.pageErr (s : State) (i : Nat) : State := s.modPage i (fun p => { p with err := true })

/-- The host releases a context that an aborted save has stopped (R399), by starting or ending it: its restartable threads are re-queued and
its other threads are reported lost. DEDUCED: log 117. -/
def State.releaseAborted (s : State) (i : Nat) : State :=
  let p := s.ctxPage i
  if p.aborted then
    let users := (s.threads.filter (fun e => decide (e.2.attr.ctx = p.num) && !e.2.program)).map (·.1)
    (users.foldl State.loseOrRequeue s).modPage i (fun p => { p with aborted := false })
  else s

/-- CONTEXT_START: from free or stopped, once bring-up has ended (R424); any other start is discarded and sets ERR. -/
def execContextStart (i : Nat) (s : State) : Host.Outcome State Fault Refusal :=
  let p := s.ctxPage i
  .next (
    if s.pageOnly then s
    else if s.device.boot = 0x80#8 ∧ (p.state = 0 ∨ p.state = 2) then
      ((s.releaseAborted i).modPage i (fun p => { p with state := 1, stopped := false, count := 0, expired := false })).push .threadPlacement
    else s.pageErr i)

/-- CONTEXT_STOP_DISPATCH: threads already placed run on. -/
def execContextStopDispatch (i : Nat) (s : State) : Host.Outcome State Fault Refusal :=
  .next (
    if s.pageOnly then s
    else if (s.ctxPage i).state = 1 then s.modPage i (fun p => { p with state := 2, stopped := true })
    else s.pageErr i)

/-- The commands of a context leave a core's queues, without completing. -/
def Core.dropCmds (q : Core) (ctx : Nat) : Core :=
  let keep (l : List Cmd) : List Cmd := l.filter (fun c => decide (c.ctx ≠ ctx))
  { q with vq := keep q.vq, mq := keep q.mq, cq := keep q.cq }

/-- Near-memory commands of a context leave a sett core, its program and its visitors with them. -/
def State.dropNear (s : State) (ctx n : Nat) (q : Sett) : State :=
  let mine := match q.queue with
    | c :: _ => decide (c.ctx = ctx)
    | [] => false
  let s := match q.running with
    | some u => if mine then s.forget u else s
    | none => s
  let s := s.modSett n (fun q => { q with
    queue := q.queue.filter (fun c => decide (c.ctx ≠ ctx))
    running := if mine then none else q.running
    rows := q.rows.filter (fun c => decide (c.ctx ≠ ctx)) })
  if mine then
    { s with pending := s.pending.filter (fun e => match e with
        | .nmProgramStop m _ _ => decide (m ≠ n)
        | _ => true) }.pokeSett n
  else s

/-- Everything of a context goes but committed memory (R412): threads quit without publishing, commands are discarded, handles die,
watches, sets, records and waits are removed. DEDUCED: log 63, 70. -/
def State.dropContext (s : State) (ctx : Nat) : State :=
  let s : State := { s with
    groups := s.groups.filter (fun g => decide (g.ctx ≠ ctx))
    launches := s.launches.filter (fun e => decide (e.2.attr.ctx ≠ ctx))
    watches := s.watches.filter (fun w => decide (w.ctx ≠ ctx))
    faultq := s.faultq.filter (fun f => decide (f.ctx ≠ ctx))
    waiters := s.waiters.filter (fun a => decide (a.ctx ≠ ctx))
    syncs := s.syncs.filter (fun y => decide (y.2.1 ≠ ctx))
    outbox := s.outbox.filter (fun o => decide (o.attr.ctx ≠ ctx))
    saved := s.saved.filter (fun e => decide (e.1 / 2 ^ 14 ≠ ctx))
    tcache := s.tcache.filter (fun e => decide (e.ctx ≠ ctx))
    grants := s.grants.filter (fun k => decide (k.1 ≠ ctx))
    used := s.used.filter (fun k => decide (k.1 ≠ ctx))
    mapped := s.mapped.filter (fun k => decide (k.1 ≠ ctx))
    cores := s.cores.map (fun e => (e.1, e.2.dropCmds ctx))
    handles := s.handles.map (fun e => if e.1 / 2 ^ 23 = ctx then
      (e.1, { e.2 with state := .dead, pin := false, charge := 0, order := [] }) else e) }
  let s := s.setts.foldl (fun s e => s.dropNear ctx e.1 e.2) s
  let users := (s.threads.filter (fun e => decide (e.2.attr.ctx = ctx))).map (·.1)
  let s := users.foldl State.endThread s
  -- an engine whose next command is another context's goes on with it
  s.cores.foldl (fun s e =>
    [Engine.vector, .matrix, .copy].foldl (fun s g => if (e.2.queue g).isEmpty then s else s.push (.engineCommandStart e.1 g)) s) s.wakeOwned

/-- The end of a context (R412): one KIND 8 record, and STATE 0. DEDUCED: log 70. -/
def State.endContext (s : State) (i : Nat) : State :=
  let p := s.ctxPage i
  let s := (s.dropContext p.num).record p.num 8 0 0 31 0 0 0 0 0 0
  s.modPage i (fun p => { p with
    state := 0, stopped := false, count := 0, expired := false, saving := none, aborted := false, nextSeq := 0, nextH := 0 })

/-- CONTEXT_END. -/
def execContextEnd (i : Nat) (s : State) : Host.Outcome State Fault Refusal :=
  .next (
    if s.pageOnly then s
    else if (s.ctxPage i).state = 0 then s.pageErr i
    else (s.releaseAborted i).endContext i)

/-- HOST_WDOG_WRITE: the period is clamped, and the count returns to 0. -/
def execHostWdogWrite (i : Nat) (v : Word) (s : State) : Host.Outcome State Fault Refusal :=
  .next (if s.pageOnly then s else s.modPage i (fun p => { p with wdog := clampWdog v, count := 0, expired := false }))

/-- HOST_ERR_CLEAR. -/
def execHostErrClear (i : Nat) (s : State) : Host.Outcome State Fault Refusal :=
  .next (if s.pageOnly then s else s.modPage i (fun p => { p with err := false }))

/-! ## Messages from the host (R416) -/

/-- HOST_MESSAGE_PUSH: one message, or a KIND 12 record; a write of another size or alignment is a KIND 11 record. -/
def execHostMessagePush (i off : Nat) (words : List Word) (s : State) : Host.Outcome State Fault Refusal :=
  let p := s.ctxPage i
  let hdr := p.msghdr.toNat
  let c := hdr % 2 ^ 14
  let len := hdr / 2 ^ 16 % 16
  .next (
    if s.pageOnly then s
    else if off ≠ 0 ∨ words.length ≠ 8 then s.record p.num 11 0 0 31 0 0 0 0 0 0
    else if hdr ≠ c + len * 2 ^ 16 ∨ len = 0 ∨ 8 < len ∨ s.sendRefused p.num c ∨ !legalTarget (words.headD 0#64).toNat then
      s.record p.num 12 0x12 c 31 0 0 0 0 hdr 0
    else s.push (.messageArrival c
      { ctx := p.num, sender := BitVec.ofNat 64 (s.device.devid.toNat * 2 ^ 32 + 3 * 2 ^ 30), words := words.take len }))

/-! ## Registers (R411, R417) -/

/-- The fields of HALT and RESUME (R415): CORE, SLOT, ALL; other bits are zero. -/
def haltFields : Word := 0x801F3FFF#64

/-- What a host write to a register of a context page does. A register marked stopped is written only in STATE 0 or 2; MSGHDR keeps every
bit, for a reserved one that is set is judged at the push (R416). DEDUCED: log 71, 72. DESIGN CHOICE: log 124. -/
def State.ctxRegister (s : State) (i off : Nat) (v : Word) : State :=
  let p := s.ctxPage i
  let whenStopped (f : CtxPage → CtxPage) : State := if p.state = 0 ∨ p.state = 2 then s.modPage i f else s.pageErr i
  let put (f : CtxPage → CtxPage) : State := s.modPage i f
  let debug (f : State) : State := if p.dbg then f else s.pageErr i
  if off < 0x40 then s.pushFirst (.hostLaunchWrite i off [v])
  else if off = 0x40 then whenStopped (fun p => { p with num := v.toNat % 2 ^ 16 })
  else if off = 0x48 then (if v.getLsbD 8 then s.pushFirst (.hostErrClear i) else s)
  else if off = 0x50 then whenStopped (fun p => { p with ptroot := v &&& 0xFFFFFFFFFE000#64 })
  else if off = 0x58 then
    let s := if v.getLsbD 0 = p.sys then s else whenStopped (fun p => { p with sys := v.getLsbD 0 })
    if p.dbg && !v.getLsbD 1 then s.pushFirst (.debugDetach i) else s.modPage i (fun p => { p with dbg := v.getLsbD 1 })
  else if off = 0x60 then put (fun p => { p with ceil := v.toNat % 64, weight := max 1 (min 16 (v.toNat / 2 ^ 8 % 32)) })
  else if off = 0x68 then put (fun p => { p with hqmax := v })
  else if off = 0x70 then put (fun p => { p with hqbytes := v })
  else if off = 0x78 then put (fun p => { p with repl := v })
  else if off = 0x80 then put (fun p => { p with rquota := v })
  else if off = 0x88 then s.pushFirst (.hostWdogWrite i v)
  else if off = 0x90 then whenStopped (fun p => { p with fwbase := v })
  else if off = 0x98 then whenStopped (fun p => { p with fwsize := v })
  else if off = 0xA8 then put (fun p => { p with fwtail := v })
  else if off = 0xC0 then put (fun p => { p with tva := v })
  else if off = 0xC8 then put (fun p => { p with tlen := v })
  else if off = 0xD0 then (if v = 1#64 then s.pushFirst (.translationInvalidation i) else s)
  else if off = 0xD8 then put (fun p => { p with rate := v })
  else if off = 0xE0 then
    if v = 1#64 then s.pushFirst (.contextStart i)
    else if v = 2#64 then s.pushFirst (.contextStopDispatch i)
    else if v = 3#64 then s.pushFirst (.contextEnd i)
    else s.pageErr i
  else if 0x100 ≤ off ∧ off < 0x180 then
    let k := (off - 0x100) / 8 * 64
    put (fun p => { p with allow := (p.allow &&& ~~~((0xFFFFFFFFFFFFFFFF#1024) <<< k)) ||| (v.setWidth 1024 <<< k) })
  else if off = 0x180 then put (fun p => { p with hrepn := v &&& 0x7FFFFF#64 })
  else if off = 0x200 then debug ((put (fun p => { p with halt := v &&& haltFields })).pushFirst (.debugHalt i (v &&& haltFields)))
  else if off = 0x208 then debug ((put (fun p => { p with resume := v &&& haltFields })).pushFirst (.debugResume i (v &&& haltFields)))
  else if off = 0x210 then debug (put (fun p => { p with viewbase := v &&& 0xFFFFFFFFFFFFF000#64 }))
  else if 0x200 ≤ off ∧ off < 0x300 then (if p.dbg then s else s.pageErr i)
  else if 0x300 ≤ off ∧ off < 0x340 then s.pushFirst (.hostMessagePush i (off - 0x300) [v])
  else if off = 0x340 then put (fun p => { p with msghdr := v })
  else s

/-- What a host write to a register of the device page does. DEVID is written before bring-up step 5; in step 4 the host has set and locked its
port windows first, for which the spec gives no registers, and the isolation tables follow (R421, R424). A write of 4 to FZCTL begins
resumption (R418). DEDUCED: log 73. DESIGN CHOICE: log 127. -/
def State.devRegister (s : State) (off : Nat) (v : Word) : State :=
  let put (f : Device → Device) : State := { s with device := f s.device }
  if off = 0x08 then
    if s.device.boot = 0x80#8 then s
    else if s.device.boot = 4#8 then
      let ws := (List.range 4).map (fun k => Config.freeWord (s.free + k))
      { s with free := s.free + 4
               device := { s.device with devid := v.setWidth 12, windows := if s.device.locked then s.device.windows else ws, locked := true } }
    else put (fun d => { d with devid := v.setWidth 12 })
  else if off = 0x20 then s.pushFirst (.faceFence (v.setWidth 8))
  else if off = 0x28 then s.pushFirst (.faceReset (v.setWidth 8))
  else if off = 0x30 then put (fun d => { d with fzbase := v })
  else if off = 0x38 then put (fun d => { d with fzlen := v })
  else if off = 0x48 then
    (if v = 1#64 then s.pushFirst .freezeRequest
     else if v = 4#64 ∧ s.device.fzctl ≠ 1#64 then (put (fun d => { d with fzctl := 5#64 })).pushFirst (.freezeResume [])
     else s)
  else if off = 0x50 then put (fun d => { d with capw := if v.toNat < 1500 then 1500#64 else if 3000 < v.toNat then 3000#64 else v })
  else if off = 0x80 then put (fun d => { d with isosel := v &&& 0xFFFFFFF#64 })
  else if off = 0x88 then
    put (fun d => { d with iso := Tab.put 0#64 d.iso (d.isosel.toNat % 2 ^ 16 * 4096 + d.isosel.toNat / 2 ^ 16) (v &&& 0x1FFFF#64) })
  else if 0x100 ≤ off ∧ off < 0x140 then
    let k := (off - 0x100) / 8
    put (fun d => { d with nonce := (List.range 8).map (fun j => if j = k then v else d.nonce.getD j 0#64) })
  else if off = 0x140 then (if v = 1#64 then s.pushFirst .attestationRequest else s)
  else if off = 0x148 then put (fun d => { d with attaddr := v })
  else s

/-- HOST_REGISTER_WRITE: one aligned 8-byte write to the device block. A register that has a step of its own leads to it. -/
def execHostRegisterWrite (off : Nat) (v : Word) (s : State) : Host.Outcome State Fault Refusal :=
  .next (
    if off % 8 ≠ 0 then s
    else if off < 0x10000 then s.devRegister off v
    else if s.pageOnly then s
    else if off < 0x110000 then s.ctxRegister ((off - 0x10000) / 4096) (off % 4096) v
    else s)

/-! ## Translation invalidation (R414, R317) -/

/-- The range that TVA and TLEN name, and whether a page of 64 KiB meets it. -/
def CtxPage.covers (p : CtxPage) (page : Nat) : Bool :=
  decide (page * 2 ^ 16 < p.tva.toNat % 2 ^ 48 + p.tlen.toNat) && decide (p.tva.toNat % 2 ^ 48 < (page + 1) * 2 ^ 16)

/-- A thread whose chunk used a removed translation is squashed (R317); its footprint's bytes go where their addresses lead now.
DEDUCED: log 66. -/
def State.retranslate (s : State) (p : CtxPage) (u : Nat) : State :=
  match s.thread? u with
  | none => s
  | some t =>
    let hit (c : Chunk) : Bool := c.pages.any p.covers
    let s := match t.prev with
      | some c => if hit c then s.squash u t c else if hit t.chunk then s.squash u t t.chunk else s
      | none => if hit t.chunk then s.squash u t t.chunk else s
    s.modThread u (fun t => { t with foot := t.foot.map (fun w =>
      if p.covers (w.va / 2 ^ 16) then (s.relocate p.num w).getD w else w) })

/-- Accesses of a context that wait at a word of the range issue again, and NMSTATs that wait for a record. DEDUCED: log 66. -/
def State.reissue (s : State) (p : CtxPage) : State :=
  let out := s.waiters.filter (fun a => decide (a.ctx = p.num) && p.covers (a.va / 2 ^ 16))
  let s := out.foldl (fun s a => s.giveUp a.uid) s
  s.wakeAll (fun _ t => match t.wait with
    | .addr _ va _ _ _ => decide (t.attr.ctx = p.num) && p.covers (va / 2 ^ 16)
    | .nmstat _ => decide (t.attr.ctx = p.num)
    | _ => false)

/-- TRANSLATION_INVALIDATION: steps 1 and 2 of R414. DESIGN CHOICE: log 59. -/
def execTranslationInvalidation (i : Nat) (s : State) : Host.Outcome State Fault Refusal :=
  let p := s.ctxPage i
  .next (
    if s.pageOnly then s else
    let s := s.modPage i (fun p => { p with tgo := 1#64 })
    let s : State := { s with
      tcache := s.tcache.filter (fun e => !(decide (e.ctx = p.num) && p.covers e.page))
      mapped := s.mapped.filter (fun m => !(decide (m.1 = p.num) && p.covers m.2.1) ||
        decide ((s.walk p.num (m.2.1 * 2 ^ 16) 4 p.ptroot.toNat).map (·.frame) = some m.2.2))
      renewed := s.renewed ++ ((List.range 8).filter (fun f => s.lostHomes.getLsbD f)).map
        (fun f => (f, p.num, p.tva.toNat % 2 ^ 48, p.tlen.toNat)) }
    let users := (s.threads.filter (fun e => decide (e.2.attr.ctx = p.num))).map (·.1)
    let s := users.foldl (fun s u => s.retranslate p u) s
    (s.reissue p).push (.translationInvalidationComplete i))

/-- Whether a step is an access of the context that has been translated. -/
def CtxPage.inFlight (p : CtxPage) : Event → Bool
  | .fullEmptyHomeAccess a => decide (a.ctx = p.num) && p.covers (a.va / 2 ^ 16)
  | .remoteAccessArrival a => decide (a.ctx = p.num) && p.covers (a.va / 2 ^ 16)
  | .atomicApply a => decide (a.ctx = p.num) && p.covers (a.va / 2 ^ 16)
  | _ => false

/-- TRANSLATION_INVALIDATION_COMPLETE: steps 3 and 4 of R414. -/
def execTranslationInvalidationComplete (i : Nat) (s : State) : Host.Outcome State Fault Refusal :=
  let p := s.ctxPage i
  .next (
    if s.pending.any p.inFlight ||
        s.cores.any (fun c => c.2.cmds.any (fun k => decide (k.ctx = p.num) && k.result.isSome)) ||
        s.setts.any (fun n => n.2.rows.any (fun r => decide (r.ctx = p.num)) ||
          n.2.queue.any (fun c => decide (c.ctx = p.num) && !c.loadOnly && p.covers (c.statusVa / 2 ^ 16))) then
      s.push (.translationInvalidationComplete i)
    else s.modPage i (fun p => { p with tgo := 0#64 }))

/-! ## The debug window (R285-R288, R415) -/

/-- The threads that a write to HALT or RESUME names. -/
def State.named (s : State) (ctx : Nat) (v : Word) : List Nat :=
  let c := v.toNat % 2 ^ 14
  let k := v.toNat / 2 ^ 16 % 32
  (s.threads.filter (fun e => decide (e.2.attr.ctx = ctx) && !e.2.program &&
    (v.getLsbD 31 || decide (e.2.place = .slot c k)))).map (·.1)

/-- A halt reaches a thread (R285): one in the rotation halts at its next issue turn; one that waits gives its wait up, or halts where
it stands. DEDUCED: log 76. -/
def State.haltAt (s : State) (u : Nat) : State :=
  match s.thread? u with
  | none => s
  | some t =>
    let later := s.modThread u (fun t => { t with haltReq := true })
    let drop := (s.giveUp u).haltThread u
    if t.halted then s
    else
      match t.place, t.wait with
      | .sett _, _ => later
      | .transit, _ => later
      | _, .running => later
      | _, .word => if s.replyOnly u then s.haltThread u else drop
      | _, .addr _ _ _ _ _ => drop
      | _, .idle _ => drop
      | _, .journal => drop
      | _, .gbar _ => ((s.withdraw u (fun _ => true)).giveUp u).haltThread u
      | _, _ => s.haltThread u

/-- DEBUG_HALT. -/
def execDebugHalt (i : Nat) (v : Word) (s : State) : Host.Outcome State Fault Refusal :=
  let p := s.ctxPage i
  .next (if s.pageOnly then s else if p.dbg then (s.named p.num v).foldl State.haltAt s else s.pageErr i)

/-- The accumulator that a matrix form names. -/
def EngOp.names : EngOp → Option Nat
  | .mzero n => some n.toNat
  | .mma n => some n.toNat
  | .mring n => some n.toNat
  | .mstore n => some n.toNat
  | .maccLd n => some n.toNat
  | .maccAdd n => some n.toNat
  | .srun n => some n.toNat
  | .svar n => some n.toNat
  | .assay n => some n.toNat
  | _ => none

/-- The view of a halted thread (R287). -/
def State.viewOf (s : State) (i u : Nat) (t : Thread) : View :=
  let q := s.core t.core
  let mine (e : Engine) : List (Engine × EngOp) := ((q.queue e).filter (fun k => decide (k.uid = u))).map (fun k => (e, k.op))
  let open' := mine .vector ++ mine .matrix ++ mine .copy
  { page := i, uid := u, regs := t.regs, preds := t.preds, pc := t.pc, sys := (List.range 16).map (s.sysReg t)
    acc := q.eng.me.acc, unsure := (open'.filterMap (fun k => EngOp.names k.2)).eraseDups, inFlight := open'
    groups := (s.groups.filter (fun g => decide (g.ctx = t.attr.ctx) && g.members.contains (.thread u))).map (·.num), foot := t.foot }

/-- DEBUG_VIEW (R287): once the thread's commands have completed, or when the 10 µs have passed and only this step is left. How the view is
laid out in its 4 KiB, the spec does not state. DESIGN CHOICE: log 74. -/
def execDebugView (i u : Nat) (s : State) : Host.Outcome State Fault Refusal :=
  let p := s.ctxPage i
  let mine (e : Event) : Bool := decide (e = .debugView i u)
  let busy := s.cores.any (fun c => c.2.cmds.any (fun k => decide (k.uid = u)))
  .next (
    match s.thread? u with
    | none => { s with timers := s.timers.filter (fun t => !mine t.2) }
    | some t =>
      if !t.halted || !p.dbg then { s with timers := s.timers.filter (fun t => !mine t.2) }
      else if busy && s.timers.any (fun t => mine t.2) then s.push (.debugView i u)
      else
        let s : State := { s with
          timers := s.timers.filter (fun t => !mine t.2), pending := s.pending.filter (fun e => !mine e), view := some (s.viewOf i u t) }
        let bytes := (List.range 4096).map (fun k => (hostLoc (p.viewbase.toNat + k), Config.freeByte (s.free + k)))
        let s := ({ s with free := s.free + 4096 }).commitBytes bytes
        s.modPage i (fun p => { p with vseq := p.vseq + 1 }))

/-- A halted thread goes on (R288). -/
def State.resumeThread (s : State) (u : Nat) : State := s.modThread u (fun t => { t with halted := false, haltReq := false })

/-- DEBUG_RESUME. -/
def execDebugResume (i : Nat) (v : Word) (s : State) : Host.Outcome State Fault Refusal :=
  let p := s.ctxPage i
  .next (if s.pageOnly then s else if p.dbg then (s.named p.num v).foldl State.resumeThread s else s.pageErr i)

/-- DEBUG_DETACH: every halted thread resumes. -/
def execDebugDetach (i : Nat) (s : State) : Host.Outcome State Fault Refusal :=
  let p := s.ctxPage i
  let users := (s.threads.filter (fun e => decide (e.2.attr.ctx = p.num))).map (·.1)
  .next (if s.pageOnly then s else (users.foldl State.resumeThread s).modPage i (fun p => { p with dbg := false }))

/-- DEBUGGER_REGISTER_WRITE: registers 0 to 27, and 32 for the program counter, of a halted thread; a pending reply overwrites the
value (R296), and the end of a wait leaves the rewritten pc (R288). DEDUCED: log 75. -/
def execDebuggerRegisterWrite (i u : Nat) (reg : BitVec 6) (v : Word) (s : State) : Host.Outcome State Fault Refusal :=
  let p := s.ctxPage i
  .next (match s.thread? u with
    | none => s
    | some t =>
      if s.pageOnly then s
      else if !p.dbg then s.pageErr i
      else if !t.halted || decide (t.attr.ctx ≠ p.num) then s
      else if reg.toNat < t.attr.count ∧ reg.toNat < 28 then s.modThread u (fun t => t.setReg reg.toNat v)
      else if reg = 32#6 then s.modThread u (fun t => { t with pc := v.toNat % 2 ^ 48 / 4 * 4, ilen := 0 })
      else s)

/-! ## The watchdog (R388-R390, R398, R399) -/

/-- Whether a command that a sealed thread holds will fill a register (R52). -/
def Thread.heldFills (t : Thread) (n : Nat) : Bool :=
  t.held.any (fun h => match h.step with
    | .step (.launchAdmission r) => decide (r.reg.toNat = n)
    | .step (.handleCommandAdmission c) => decide (c.reg.toNat = n)
    | _ => false)

/-- What the expiry does to one thread (R398): a thread already in its handler is not trapped but ended as a double fault, with the
KIND 1 record of that. DEDUCED: log 98. -/
def State.dogTrap (s : State) (wdog : Word) (u : Nat) : State :=
  match s.thread? u with
  | none => s
  | some t =>
    let trap (s : State) : State :=
      let s := s.giveUp u
      (if t.inTrap then s else s.recordThread t 4 0x1A wdog.toNat).faultThread u 31 0x1A wdog
    match t.place, t.wait with
    | .slot _ _, .word => if s.waiters.any (fun a => decide (a.uid = u)) then trap s else s
    | .slot _ _, .addr _ _ _ _ none => trap s
    | .slot _ _, .idle false => trap s
    | .slot _ _, .nmstat _ => trap s
    | .slot _ _, .hsync => trap s
    | .slot _ _, .reg n => if (t.reg n).armed || t.heldFills n then trap s else s
    | .slot _ _, .portIn _ => trap s
    | .slot _ _, .portOut _ => trap s
    | .slot _ _, .journal => trap s
    | .slot _ _, .send _ => trap s
    | .slot _ _, .gbar n =>
      if s.counted t.attr.ctx n u then trap (s.withdraw u (fun g => decide (g.ctx = t.attr.ctx) && decide (g.num = n))) else s
    | .slot _ _, .matrix =>
      -- an MRING that has not started loses its queue entry
      let s' := s.dropRing u
      if (s'.thread? u).any (fun t => decide (t.wait ≠ .matrix)) then trap s' else s
    | _, _ => s

/-- The abort of a context save that a stuck command holds up (R399): a KIND 6 record, and the fence of the command's Face. A context
that the host holds an image of is stopped; the threads of another are re-queued or reported lost. -/
def State.abortSave (s : State) (i c : Nat) : State :=
  let p := s.ctxPage i
  let s := s.record p.num 6 0 c 31 0 0 0 0 0 0
  let s := s.modPage i (fun p => { p with saving := none, count := 0, expired := false })
  let s : State := { s with pending := s.pending.filter (fun e => match e with
    | .localContextExchange d _ => decide (d ≠ c)
    | .engineContextExchange d _ => decide (d ≠ c)
    | _ => true) }
  let s := s.fenceFaces (BitVec.ofNat 8 (2 ^ faceOf c))
  let imaged := match s.frozen with
    | some d => d.ctxs.any (fun e => decide (e.2.num = p.num) && decide (e.2.state ≠ 0))
    | none => false
  if imaged then s.modPage i (fun p => { p with state := 2, stopped := true, aborted := true })
  else
    let users := (s.threads.filter (fun e => decide (e.2.attr.ctx = p.num) && !e.2.program)).map (·.1)
    (users.foldl State.loseOrRequeue s).push .threadPlacement

/-- WATCHDOG_EXPIRY: the first expiry ends the waits that nothing bounds, the second ends the context. -/
def execWatchdogExpiry (ctx : Nat) (s : State) : Host.Outcome State Fault Refusal :=
  .next (match s.page? ctx with
    | none => s
    | some (i, p) =>
      if p.count < p.wdog.toNat ∨ s.dogStill ctx then s
      else
        match p.saving with
        | some c => s.abortSave i c
        | none =>
          if p.expired then s.endContext i
          else
            let users := (s.threads.filter (fun e => decide (e.2.attr.ctx = ctx))).map (·.1)
            (users.foldl (fun s u => s.dogTrap p.wdog u) s).modPage i (fun p => { p with count := 0, expired := true }))

/-! ## CXL.mem (R409, R422) -/

/-- The place of an offset of the device-memory range. -/
def cxlPlace (off : Nat) : Option Nat :=
  if off < 0x9000000000 then some (interleaved off)
  else if off < 0x12000000000 then some (direct (off - 0x9000000000))
  else none

/-- HOST_CXL_WRITE: one event at the lines' slice; it waits for lines that are reserved, owned or not yet read (R328, R332). -/
def execHostCxlWrite (off : Nat) (bytes : List Byte) (s : State) : Host.Outcome State Fault Refusal :=
  let ws := bytes.zipIdx.filterMap (fun b => (cxlPlace (off + b.2)).map (fun l => (l, b.1)))
  .next (
    if s.pageOnly then s
    else if (linesOf (ws.map (·.1))).any s.busyLine then s.pushFirst (.hostCxlWrite off bytes)
    else s.commitBytes ws)

/-- HOST_CXL_READ: the bytes, or poison. -/
def execHostCxlRead (off n : Nat) (s : State) : Host.Outcome State Fault Refusal :=
  let ls := (List.range n).filterMap (fun k => cxlPlace (off + k))
  .next (
    if s.pageOnly then s
    else
    let s := s.touchPlaces ls
    { s with cxlData := if ls.any s.poisoned then none else some (ls.map (fun l => Store.get s.mem l)) })

/-! ## Accesses of other devices (R419, R373) -/

/-- The local context that the isolation table pairs with a context of another device. -/
def State.pairedWith (s : State) (dev rctx : Nat) : Option Nat :=
  (List.find? (fun e : Nat × Word => decide (e.1 % 4096 = dev) && e.2.getLsbD 16 && decide (e.2.toNat % 2 ^ 16 = rctx))
    s.device.iso).map (fun e => e.1 / 4096)

/-- One access of another device at a place of this device's HBM. DEDUCED: log 84. DESIGN CHOICE: log 22. -/
def State.serveRemote (s : State) (again : Event) (a : Access) (loc : Nat) : State :=
  let held := s.busyLine (loc / 64)
  let s := if held then s else s.touchPlaces [loc]
  let put (v : Nat) (s : State) : State := s.commitWord loc a.size v
  let bit (f : Bool) (s : State) : State := (s.setFull (loc / 8) f).wordChanged loc
  if held then s.push again
  else
    match a.kind with
    | .load => s
    | .ldf => if s.full (loc / 8) then s else s.push again
    | .lde => if s.full (loc / 8) then bit false s else s.push again
    | .stf => bit true (put a.data.toNat s)
    | .sts => if s.full (loc / 8) then s.push again else bit true (put a.data.toNat s)
    | .clre => bit false s
    | .atomic op =>
      if s.poisoned loc then s else put (AtomOp.result op (BitVec.ofNat 64 (s.readLoc loc a.size)) a.data a.expd).toNat s
    | .pst => if s.poisoned loc then s else put a.data.toNat s
    | .pstf => if s.poisoned loc then s else bit true (put a.data.toNat s)
    | .store => put a.data.toNat s
    | .rfill => s
    | .message _ => s

/-- An RFILL of another device reaches a register here, under the paired context (R162, R419); its status goes to the other device. -/
def State.remoteFillFrom (s : State) (ctx : Nat) (a : Access) : State := (s.remoteFill ctx (BitVec.ofNat 64 a.va) a.data).2
/-- A message of another device reaches a core here, under the paired context, with the sender word that it carries (R175, R419), or is
refused. -/
def State.messageFrom (s : State) (ctx : Nat) (a : Access) (ws : List Word) : State :=
  let x : Word := BitVec.ofNat 64 a.va
  let m : Message := ⟨ctx, a.data, ws⟩
  if badSend x m || s.sendRefused ctx (targetCore x) || ws.isEmpty || decide (8 < ws.length) then s
  else s.push (.messageArrival (targetCore x) m)

/-- REMOTE_DEVICE_ACCESS: served only under the paired context, and held while the device freezes (R404). An access to an element of a
sharded handle enters its order on arrival (R373); an RFILL or a message reaches a core. The answer goes to the other device. DEDUCED: log 84. DESIGN CHOICE: log 22. -/
def execRemoteDeviceAccess (dev rctx : Nat) (a : Access) (s : State) : Host.Outcome State Fault Refusal :=
  let again : Event := .remoteDeviceAccess dev rctx a
  .next (
    if s.freezing then s.push again
    else
      match s.pairedWith dev rctx with
      | none => s
      | some ctx =>
        match a.kind with
        | .rfill => s.remoteFillFrom ctx a
        | .message ws => s.messageFrom ctx a ws
        | _ =>
        if a.va.testBit 63 then
          let s : State := { s with nextUid := s.nextUid + 1 }
          s.push (.handleCommandAdmission
            { op := if a.kind = .load then .elemRead else .elemWrite, uid := s.nextUid, ctx := ctx, core := 0, reg := 31#5
              a := BitVec.ofNat 64 a.va, b := 0#64, index := a.va % 2 ^ 40, size := a.size, data := a.data, pc := 0, held := true
              seq := 0, tid := 0 })
        else if a.loc < 0x9000000000 then s.serveRemote again a (interleaved a.loc)
        else s)

end Sys2Proof.Machine
end

