-- ==== Sys2Proof/Machine/Lane.lean ====
section
/-!
DEFINITION. The lanes of the device's steps: those of one kind for one unit or thread keep their order; and which steps a frozen device,
or one without its Bed, still takes.
-/
namespace Sys2Proof

/-- Steps of one kind for one unit or thread keep their order, and so do the host's accesses to the device block, and those to one line of its
memory (R409). DESIGN CHOICE: log 1. -/
def Event.lane : Event → Nat × Nat
  | .portWordDelivery c e _ _ => (1, 2 * c + Machine.entryPort e)
  | .messageArrival c _ => (2, c)
  | .messageHandlerStart c => (2, c)
  | .lightHandlerStart c => (2, c)
  | .replyArrival u _ _ => (3, u)
  | .chunkCommit u => (3, u)
  | .fullEmptyHomeAccess a => (3, a.uid)
  | .remoteAccessArrival a => (3, a.uid)
  | .atomicApply a => (3, a.uid)
  | .rfillDelivery u _ _ _ => (3, u)
  | .fenceCompletion u _ => (3, u)
  | .xfenceCompletion u _ _ _ _ => (3, u)
  | .handleCommandAdmission c => (4, c.uid)
  | .handleOperationCompletion x h => (5, x * 2 ^ 23 + h)
  | .dresserRedress x h => (5, x * 2 ^ 23 + h)
  | .redressStart x h => (5, x * 2 ^ 23 + h)
  | .redressComplete x h => (5, x * 2 ^ 23 + h)
  | .postedStoreApply c k => (6, 64 * c + k)
  | .postedStoreAck c k => (6, 64 * c + k)
  | .postedStoreRefusal c k => (6, 64 * c + k)
  | .engineCommandStart c _ => (7, c)
  | .vectorCommandCompletion c => (8, c)
  | .matrixCommandCompletion c => (9, c)
  | .mringStepStart c => (9, c)
  | .tileDelivery c => (10, c)
  | .copyCommandCompletion c => (11, c)
  | .nmProgramStart n => (12, n)
  | .nmProgramStop n _ _ => (12, n)
  | .overlayLoadComplete n _ => (12, n)
  | .nmrowStop n => (13, n)
  | .migrationDeparture u _ _ => (14, u)
  | .migrationArrival u _ => (14, u)
  | .threadPreemption u => (14, u)
  | .spawnPacketAccept p => (15, p.core)
  | .slotFill c => (16, c)
  | .loadBalance c => (17, c)
  | .localContextExchange c _ => (18, c)
  | .engineContextExchange c _ => (18, c)
  | .waitaTimeout u _ => (19, u)
  | .idleTimeout u _ => (19, u)
  | .barrierRelease u _ => (19, u)
  | .tloadBuildComplete c _ => (20, c)
  | .faultQueueResolution x _ _ => (21, x)
  | .remoteDeviceAccess d _ _ => (22, d)
  | .scrubRead _ _ => (23, 0)
  | .rowDisturbanceAlert n _ _ => (24, n)
  | .watchdogExpiry x => (25, x)
  | .threadPlacement => (26, 0)
  | .dispatchPreemption => (26, 0)
  | .launchAgeing _ => (26, 0)
  | .launchAdmission _ => (27, 0)
  | .hostLaunchWrite _ _ _ => (0, 0)
  | .debugView _ _ => (28, 0)
  | .translationInvalidationComplete _ => (28, 0)
  | .freezeComplete => (28, 0)
  | .freezeFaceTimeout _ => (28, 0)
  | .linkLossTimeout _ => (28, 0)
  | .throttleInterval _ => (29, 0)
  | .ageingUpdate _ => (29, 0)
  | .refreshWindowEnd _ => (29, 0)
  | .hostWdogWrite _ _ => (0, 0)
  | .contextStart _ => (0, 0)
  | .contextStopDispatch _ => (0, 0)
  | .contextEnd _ => (0, 0)
  | .hostErrClear _ => (0, 0)
  | .hostMessagePush _ _ _ => (0, 0)
  | .hostRegisterWrite _ _ => (0, 0)
  | .translationInvalidation _ => (0, 0)
  | .debugHalt _ _ => (0, 0)
  | .debugResume _ _ => (0, 0)
  | .debugDetach _ => (0, 0)
  | .debuggerRegisterWrite _ _ _ _ => (0, 0)
  | .faceFence _ => (0, 0)
  | .faceFailure _ => (0, 1)
  | .faceReset _ => (0, 0)
  | .freezeRequest => (0, 0)
  | .freezeResume _ => (0, 0)
  | .attestationRequest => (0, 0)
  | .hostCxlWrite off _ => (0, 2 + off / 64)
  | .hostCxlRead off _ => (0, 2 + off / 64)
  | .helvenLinkLoss _ => (30, 0)
  | .stackLoss _ => (30, 1)
  | .hostPortLoss _ => (30, 2)
  | .bedLoss => (30, 3)
  | .thermalTrip _ _ => (30, 4)
  | .moduleReset => (30, 4)
  | .activeBankLimitChange _ _ => (30, 5)
  | .coreCycle _ => (31, 0)

/-- Steps at the end of a core's own cycle (R359): its freed slots are filled, and its handler slot is. -/
def Event.closes : Event → Option Nat
  | .slotFill c => some c
  | .messageHandlerStart c => some c
  | .lightHandlerStart c => some c
  | _ => none

/-- Steps on the Faces, which a frozen device takes after resumption (R405). -/
def Event.onFace : Event → Bool
  | .faceFence _ => true
  | .faceFailure _ => true
  | .faceReset _ => true
  | _ => false

/-- Steps that a frozen device still takes (R404, R407): the host's register writes and reads, resumption, losses, resets. -/
def Event.whileFrozen (e : Event) : Bool := (decide (e.lane.1 = 0) || decide (e.lane.1 = 30)) && !e.onFace

/-- Steps of a module that does not leave reset (R9): another attempt to. -/
def Event.resets : Event → Bool
  | .thermalTrip _ _ => true
  | .moduleReset => true
  | _ => false

/-- Steps that a device without its Bed still takes (R26): resumption from the host's image, and a reset. -/
def Event.withoutBed : Event → Bool
  | .freezeResume _ => true
  | .thermalTrip _ _ => true
  | .moduleReset => true
  | _ => false

end Sys2Proof
end

