-- ==== Sys2Proof/Machine/Health.lean ====
section
/-!
DEFINITION. Meanings of the steps of freezing (R404-R407, R418), attestation (R420), trips and bring-up (R423, R424), and the monitors
of wear and errors (R21, R386, R391, R422).
-/
namespace Sys2Proof.Machine

/-! ## Freezing (R404-R407, R418) -/

/-- FZNEED (R418): a whole number of 64 KiB, enough for at most 5,784 MiB of on-chip state (R25), the pages of HBM, and the digests. How many
it is now depends on what the device holds, in a way that the spec does not give. DESIGN CHOICE: log 74. -/
def State.freezeNeed (s : State) : Nat :=
  65536 * (1 + Config.imageUnits s.mapped.length s.threads.length % (5784 * 16 + 576 * 16384 + 2))

/-- FREEZE_REQUEST: with a grant large enough, dispatch stops and every thread in a slot is to be pre-empted. -/
def execFreezeRequest (s : State) : Host.Outcome State Fault Refusal :=
  .next (
    if s.freezing then s
    else if s.device.fzlen.toNat < s.freezeNeed then { s with device := { s.device with fzctl := 3#64 } }
    else
      let s : State := { s with device := { s.device with fzctl := 1#64 } }
      let users := (s.threads.filter (fun e => match e.2.place with
        | .slot _ _ => true
        | _ => false)).map (·.1)
      let s := users.foldl (fun s u => (s.modThread u (fun t => { t with preempt := true })).push (.threadPreemption u)) s
      ((List.range 8).foldl (fun s f => s.after 3000000 (.freezeFaceTimeout f)) s).push .freezeComplete)

/-- Whether a core has come to its stop points (R406): no slot is held, no vector or matrix command has started and not ended, and no
posted store is on its way. -/
def State.coreStopped (s : State) (c : Nat) (q : Core) : Bool :=
  s.vacant c && q.journal.isEmpty && !q.vq.any (fun k => k.result.isSome) && !q.mq.any (fun k => k.result.isSome)

/-- FREEZE_FACE_TIMEOUT: a Face that has not stopped is fenced (R405). -/
def execFreezeFaceTimeout (face : Nat) (s : State) : Host.Outcome State Fault Refusal :=
  .next (
    if s.device.fzctl = 1#64 ∧ face < 8 ∧ s.cores.any (fun e => decide (faceOf e.1 = face) && !s.coreStopped e.1 e.2) then
      s.fenceFaces (BitVec.ofNat 8 (2 ^ face))
    else s)

/-- A command stalled at a page is withdrawn unexecuted; it starts again after resumption (R406). -/
def State.unstall (s : State) (c : Nat) (e : Engine) : State :=
  match s.headCmd c e with
  | some k =>
    if k.stalled then
      let s : State := { s with faultq := s.faultq.map (fun f =>
        { f with waiters := f.waiters.filter (fun w => decide (w ≠ .engine c e)) }) }
      (s.modHead c e (fun k => { k with stalled := false })).push (.engineCommandStart c e)
    else s
  | none => s

/-- Whether the re-dress at the head of a handle's order cannot begin (R369): for the quota, or for a class that no dress can meet. -/
def State.redressWaits (s : State) (key : Nat) (h : Handle) (o : HEntry) : Bool :=
  let quota := match s.page? (key / 2 ^ 23) with
    | some (_, p) => p.rquota.toNat
    | none => 0
  o.redress && !o.built && (!h.dressable || (h.pin && decide (quota < s.pinned (key / 2 ^ 23))))
/-- Handle operations and re-dresses complete before the images are sealed (R406); one that cannot begin has nothing to complete. -/
def State.handlesStopped (s : State) : Bool := s.handles.all (fun e => e.2.order.head?.all (s.redressWaits e.1 e.2))

/-- Whether everything has come to its stop point (R404, R406): cores, handle operations, migration packets, and tiles on their way. -/
def State.allStopped (s : State) : Bool :=
  s.cores.all (fun e => s.coreStopped e.1 e.2) && s.handlesStopped && s.threads.all (fun e => decide (e.2.place ≠ .transit)) &&
  s.pending.all (fun e => match e with
    | .tileDelivery c => !s.tileGoes c
    | _ => true)

/-- Threads that a freeze still has to take are asked for again (R404 step 2): a reply or a halt may have held them up. -/
def State.askAgain (s : State) : State :=
  s.threads.foldl (fun s e =>
    match e.2.place with
    | .slot _ _ =>
      let s := if e.2.preempt then s else s.modThread e.1 (fun t => { t with preempt := true })
      if e.2.inRotation || s.pending.contains (.threadPreemption e.1) then s else s.push (.threadPreemption e.1)
    | _ => s) s

/-- The images stand in the host's grant (R404 step 5): bytes whose layout the spec does not give. DESIGN CHOICE: log 83. -/
def State.sealImages (s : State) : State :=
  let n := s.freezeNeed
  let bytes := (List.range n).map (fun k => (hostLoc (s.device.fzbase.toNat + k), Config.freeByte (s.free + k)))
  ({ s with free := s.free + n }).commitBytes bytes

/-- FREEZE_COMPLETE: once everything has stopped, copies stop at their boundaries, the lines of the LLC are written back, the images are sealed
in the host's grant, and FZCTL reads 2. What the images say stands in the state as the device that they restore, for the spec does not lay
their bytes out. DESIGN CHOICE: log 83. -/
def execFreezeComplete (s : State) : Host.Outcome State Fault Refusal :=
  .next (
    if s.device.fzctl ≠ 1#64 then s
    else if s.allStopped then
      let cs := s.cores.map (·.1)
      let s := cs.foldl State.copyStop s
      let s := cs.foldl (fun s c => [Engine.vector, .matrix, .copy].foldl (fun s e => s.unstall c e) s) s
      let s := (s.cached.map (·.1)).foldl State.writeBackLine s
      let s := s.sealImages
      let image : Dev := s.toDev
      { s with
        frozen := some image
        ctxs := s.ctxs.map (fun e => (e.1, if e.2.state = 1 then { e.2 with state := 3 } else e.2))
        device := { s.device with fzctl := 2#64, still := true } }
    else s.askAgain.push .freezeComplete)

/-- Places that belong to the host or to other devices: no image holds them. -/
def outside (loc : Nat) : Bool := decide (2 ^ 56 ≤ loc) && decide (loc < 2 ^ 58)

/-- The encode orders of the decode tables are built again (R25, R74). -/
def State.rebuildTables (s : State) : State :=
  let ends (e : Event) : Bool := match e with
    | .tloadBuildComplete _ _ => true
    | _ => false
  let s : State := { s with
    pending := s.pending.filter (fun e => !ends e)
    timers := s.timers.filter (fun t => !ends t.2) }
  s.cores.foldl (fun s e =>
    let ks := e.2.eng.tables.map (·.1)
    ks.foldl (fun s k => s.after 256 (.tloadBuildComplete e.1 k))
      (s.modCore e.1 (fun q => { q with eng := { q.eng with building := ks } }))) s

/-- The whole device as its image has it (R407): the Bed's cycles and the cores' counters have gone on, watchdogs start at 0, what has been lost
meanwhile is lost, and what has come meanwhile is served from now on (R404, R405). -/
def State.restoreImage (s : State) (d : Dev) : State :=
  let gone := s.cycle - d.cycle
  let mem := d.mem.filter (fun e => decide (e.1 < 2 ^ 56)) ++ s.mem.filter (fun e => outside e.1) ++
    d.mem.filter (fun e => decide (2 ^ 58 ≤ e.1))
  let perf (c : Nat) : Store 64 := (s.core c).perf
  let steps := d.pending.filter (fun e => !e.whileFrozen)
  let image : Dev := { d with
    mem := mem
    device := { d.device with fzctl := 0#64, still := false, fzbase := s.device.fzbase, fzlen := s.device.fzlen, trip := s.device.trip }
    cycle := s.cycle
    pending := steps ++ s.pending.diff steps
    timers := d.timers.map (fun t => (t.1 + gone, t.2))
    ctxs := d.ctxs.map (fun e =>
      -- records written meanwhile stay in the fault window
      let p := if s.device.still then s.ctxPage e.1 else e.2
      (e.1, { e.2 with count := 0, expired := false, fwhead := p.fwhead, fwtail := p.fwtail, fwlost := p.fwlost }))
    cores := d.cores.map (fun e => (e.1, { e.2 with perf := perf e.1 }))
    lostLinks := s.lostLinks.foldl setAdd d.lostLinks
    lostDevs := s.lostDevs.foldl setAdd d.lostDevs
    lostPorts := s.lostPorts.foldl setAdd d.lostPorts
    free := s.free
    nextUid := max s.nextUid d.nextUid
    turns := [] }
  (s.lostStacks.foldl State.loseStack { s with toDev := image }).rebuildTables

/-- A context whose image's digest does not verify: KIND 10, and nothing of it resumes (R407). -/
def State.rejectImage (s : State) (ctx : Nat) : State :=
  let t := s.record ctx 10 0 0 31 0 0 0 0 0 0
  match t.page? ctx with
  | some (i, _) => (t.dropContext ctx).modPage i (fun p => { p with
      state := 0, stopped := false, saving := none, aborted := false, nextSeq := 0, nextH := 0 })
  | none => t

/-- Saved threads, messages and records find their slots again. -/
def State.pokeAll (s : State) : State :=
  let cs := (s.threads.filterMap (fun e : Nat × Thread => match e.2.place with
    | .stock c => some c
    | _ => none)).eraseDups
  let s := cs.foldl (fun s c => s.push (.slotFill c)) s
  ((s.cores.map (·.1)).foldl State.pokeHandler s).push .threadPlacement

/-- One context as the image has it, on a device that has gone on (R399): its threads, sets, records, handles, pages, local memories and
engine state, its queued commands, and the steps under way for them. DEDUCED: log 117. -/
def State.resumeContext (s : State) (d : Dev) (ctx : Nat) : State :=
  let mine (t : Thread) : Bool := decide (t.attr.ctx = ctx)
  let users := (d.threads.filter (fun e => mine e.2)).map (·.1)
  let step (e : Event) : Bool := ([3, 4, 14, 19].contains e.lane.1 && users.contains e.lane.2) ||
    (decide (e.lane.1 = 5) && decide (e.lane.2 / 2 ^ 23 = ctx))
  let old : State := { s with toDev := d }
  -- local memory and engine state come back with the core's next exchange
  let kept := d.cores.foldl (fun (o : State) e => if e.2.tag = some ctx then o.saveImage e.1 else o) old
  -- its decode tables are whole by then (R25, R74)
  let whole (i : Saved) : Saved := { i with eng := { i.eng with building := [] } }
  let root := match old.page? ctx with
    | some (_, p) => p.ptroot.toNat
    | none => 0
  let page (m : List Host.Cell) (va : Nat) : List Host.Cell := match old.walk ctx va 4 root with
    | some e => (List.range 65536).foldl (fun m k => let l := old.placeIn e (va + k); Store.put m l (Store.get d.mem l)) m
    | none => m
  let s := s.dropContext ctx
  let q (l : List Cmd) : List Cmd := l.filter (fun c => decide (c.ctx = ctx))
  let s : State := { s with
    mem := (d.mapped.filter (fun k => decide (k.1 = ctx))).foldl (fun m k => page m (k.2.1 * 2 ^ 16)) s.mem
    threads := (d.threads.filter (fun e => mine e.2)).foldl (fun m e => Tab.insert m e.1 e.2) s.threads
    groups := s.groups ++ d.groups.filter (fun g => decide (g.ctx = ctx))
    launches := (d.launches.filter (fun e => decide (e.2.attr.ctx = ctx))).foldl (fun m e => Tab.insert m e.1 e.2) s.launches
    handles := (d.handles.filter (fun e => decide (e.1 / 2 ^ 23 = ctx))).foldl (fun m e => Tab.insert m e.1 e.2) s.handles
    saved := (kept.saved.filter (fun e => decide (e.1 / 2 ^ 14 = ctx))).foldl (fun m e => Tab.insert m e.1 (whole e.2)) s.saved
    waiters := s.waiters ++ d.waiters.filter (fun a => decide (a.ctx = ctx))
    syncs := s.syncs ++ d.syncs.filter (fun y => decide (y.2.1 = ctx))
    mapped := s.mapped ++ d.mapped.filter (fun k => decide (k.1 = ctx))
    faultq := s.faultq ++ d.faultq.filter (fun f => decide (f.ctx = ctx))
    pending := s.pending ++ d.pending.filter step
    timers := s.timers ++ (d.timers.filter (fun t => step t.2)).map (fun t => (t.1 + (s.cycle - d.cycle), t.2)) }
  -- commands at a core or at a sett core go behind those that stand there now
  let s := d.cores.foldl (fun s e =>
    let s := s.modCore e.1 (fun c => { c with vq := c.vq ++ q e.2.vq, mq := c.mq ++ q e.2.mq, cq := c.cq ++ q e.2.cq })
    [Engine.vector, .matrix, .copy].foldl (fun s g => if (q (e.2.queue g)).isEmpty then s else s.push (.engineCommandStart e.1 g)) s) s
  let s := d.setts.foldl (fun s e =>
    let cmds := e.2.queue.filter (fun c => decide (c.ctx = ctx))
    let runs := (s.sett e.1).queue.isEmpty && (match e.2.queue with
      | c :: _ => decide (c.ctx = ctx)
      | [] => false)
    (s.modSett e.1 (fun n => { n with
      queue := n.queue ++ cmds, running := if runs then e.2.running else n.running
      visitors := n.visitors ++ e.2.visitors.filter users.contains, rows := n.rows ++ e.2.rows.filter (fun c => decide (c.ctx = ctx)) })).push
      (.nmProgramStart e.1)) s
  match List.find? (fun e : Nat × CtxPage => decide (e.2.num = ctx)) d.ctxs with
  | some e => s.modPage e.1 (fun _ => { e.2 with count := 0, expired := false })
  | none => s

/-- FREEZE_RESUME (R407): the device image, then each context image whose digest verifies; on a device that runs, the contexts that an aborted
save has stopped come back alone (R399). Nothing resumes before bring-up has ended (R9, R424). DESIGN CHOICE: log 83. -/
def execFreezeResume (bad : List Nat) (s : State) : Host.Outcome State Fault Refusal :=
  .next (
    -- FZCTL read 5 while this went on
    let ended (s : State) : State := if s.device.fzctl = 5#64 then
      { s with device := { s.device with fzctl := if s.device.still then 2#64 else 0#64 } } else s
    match s.frozen with
    | none => ended s
    | some d =>
      let held := (s.ctxs.filter (fun e => e.2.aborted)).map (·.2.num)
      if s.device.boot ≠ 0x80#8 then ended s
      else if !s.device.still ∧ !s.bedLost ∧ !held.isEmpty then ended
        (held.foldl (fun s ctx => if bad.contains ctx then s.rejectImage ctx else s.resumeContext d ctx) s).pokeAll
      else (bad.foldl State.rejectImage (s.restoreImage d)).pokeAll)

/-! ## Attestation (R420) -/

/-- The 8 bytes of a word, lowest first. DEDUCED: log 77. -/
def wordBytes (w : Word) : List Byte := leBytes w.toNat 8
/-- IDENT (R417). -/
def Device.ident (d : Device) : Word := BitVec.ofNat 64 (0x4C524E35 + d.stepping.toNat * 2 ^ 32)

/-! ## What the host reads (R410, R411, R417) -/

/-- The handle report (R411): the six words of HREP for the handle that HREPN names. -/
def State.handleReport (s : State) (p : CtxPage) : List Word :=
  match Tab.find? s.handles (p.num * 2 ^ 23 + p.hrepn.toNat) with
  | none => List.replicate 6 (BitVec.allOnes 64)
  | some h =>
    let state : Word := match h.state with
      | .dead => 0#64
      | .live => 1#64
      | .freeing => 2#64
    [h.hops, h.redress, h.slicex, h.settx, h.asked.setWidth 64, state]

/-- What the host reads at an 8-byte register of a context page (R411, R415); `none` where the spec gives no content to read. MSGHDR reads as it
was written, reserved bits and all. DESIGN CHOICE: log 124. -/
def State.ctxRead (s : State) (i off : Nat) : Option Word :=
  let p := s.ctxPage i
  let debug (v : Word) : Option Word := if p.dbg then some v else none
  if off = 0x40 then some (BitVec.ofNat 64 p.num)
  else if off = 0x48 then some (BitVec.ofNat 64 (p.state + 2 ^ 8 * p.err.toNat))
  else if off = 0x50 then some p.ptroot
  else if off = 0x58 then some (BitVec.ofNat 64 (p.sys.toNat + 2 * p.dbg.toNat))
  else if off = 0x60 then some (BitVec.ofNat 64 (p.ceil + 2 ^ 8 * p.weight))
  else if off = 0x68 then some p.hqmax
  else if off = 0x70 then some p.hqbytes
  else if off = 0x78 then some p.repl
  else if off = 0x80 then some p.rquota
  else if off = 0x88 then some p.wdog
  else if off = 0x90 then some p.fwbase
  else if off = 0x98 then some p.fwsize
  else if off = 0xA0 then some p.fwhead
  else if off = 0xA8 then some p.fwtail
  else if off = 0xB0 then some p.fwlost
  else if off = 0xC0 then some p.tva
  else if off = 0xC8 then some p.tlen
  else if off = 0xD0 then some p.tgo
  else if off = 0xD8 then some p.rate
  else if 0x100 ≤ off ∧ off < 0x180 then some ((p.allow >>> ((off - 0x100) / 8 * 64)).setWidth 64)
  else if off = 0x180 then some p.hrepn
  else if 0x188 ≤ off ∧ off < 0x1B8 then (s.handleReport p)[(off - 0x188) / 8]?
  else if off = 0x200 then debug p.halt
  else if off = 0x208 then debug p.resume
  else if off = 0x210 then debug p.viewbase
  else if off = 0x218 then debug p.vseq
  else if 0x220 ≤ off ∧ off < 0x300 then debug 0#64
  else if off = 0x340 then some p.msghdr
  else none

/-- What the host reads at an 8-byte register of the device page (R417, R418, R420); `none` where the spec gives no content to read. -/
def State.deviceRead (s : State) (off : Nat) : Option Word :=
  let d := s.device
  if off = 0x00 then some d.ident
  else if off = 0x08 then some (d.devid.setWidth 64)
  else if off = 0x10 then some (d.boot.setWidth 64)
  else if off = 0x20 then some (d.fenced.setWidth 64)
  else if off = 0x30 then some d.fzbase
  else if off = 0x38 then some d.fzlen
  else if off = 0x40 then some (BitVec.ofNat 64 s.freezeNeed)
  else if off = 0x48 then some d.fzctl
  else if off = 0x50 then some d.capw
  else if off = 0x58 then some d.throt
  else if off = 0x60 then some d.eccc
  else if off = 0x68 then some d.eccu
  else if off = 0x70 then some d.trip
  else if off = 0x80 then some d.isosel
  else if off = 0x88 then some (Tab.get 0#64 d.iso (d.isosel.toNat % 2 ^ 16 * 4096 + d.isosel.toNat / 2 ^ 16))
  else if 0x100 ≤ off ∧ off < 0x140 then d.nonce[(off - 0x100) / 8]?
  else if off = 0x148 then some d.attaddr
  else none

/-- What the host reads in the counter window (R410, R383, R386, R391). -/
def State.counterRead (s : State) (off : Nat) : Word :=
  if off < 0x200000 then Store.get (s.core (off / 128)).perf (off % 128 / 8)
  else if off < 0x206000 then
    let n := s.sett ((off - 0x200000) / 32)
    [n.mitctl, n.mitsett, n.mitseq, n.pabcut].getD ((off - 0x200000) % 32 / 8) 0#64
  else if off < 0x206048 then s.ageing.getD ((off - 0x206000) / 8) 0#64
  else 0#64

/-- One aligned 8-byte read of the device block by the host (R410). It changes nothing. What stands where the spec gives no content
is a free value, and until bring-up has reached the windows the host reads nothing outside the device page (R420, R424).
DESIGN CHOICE: log 124. -/
def State.hostRead (s : State) (off : Nat) : Word :=
  let v :=
    if off < 0x10000 then s.deviceRead off
    else if s.pageOnly then none
    else if off < 0x110000 then s.ctxRead ((off - 0x10000) / 4096) (off % 4096)
    else if 0x200000 ≤ off ∧ off < 0x410000 then some (s.counterRead (off - 0x200000))
    else none
  v.getD (Config.freeWord s.free)

/-- ATTESTATION_REQUEST: the report goes to host memory: nonce, IDENT, DEVID, the measurement registers, the device's public key, and a
signature, whose bytes the spec does not state. DEDUCED: log 77. -/
def execAttestationRequest (s : State) : Host.Outcome State Fault Refusal :=
  let d := s.device
  let head := ((List.range 8).map (fun k => d.nonce.getD k 0#64)).flatMap wordBytes ++ wordBytes d.ident ++
    wordBytes (d.devid.setWidth 64) ++ ((List.range 64).map (fun k => d.measure.getD k 0#64)).flatMap wordBytes
  let key := (List.range 2592).map (fun k => Config.freeByte (2 ^ 64 + k))
  let sig := (List.range 4627).map (fun k => Config.freeByte (s.free + k))
  let ws := (head ++ key ++ sig).zipIdx.map (fun b => (hostLoc (d.attaddr.toNat + b.2), b.1))
  .next (({ s with free := s.free + 4627 }).commitBytes ws)

/-! ## Trips, resets and bring-up (R423, R424) -/

/-- What a module reset leaves: nothing on the device but what it never clears; the memories of the host and of other devices, and the
images that the host holds, are not the device's. DEDUCED: log 73. -/
def State.afterReset (s : State) (trip : Word) : State :=
  let dev : Dev := { Dev.reset with
    mem := s.mem.filter (fun e => outside e.1)
    cores := (s.cores.map (fun e => (e.1, { Core.reset e.1 with cap := e.2.cap }))).filter (fun e => decide (e.2 ≠ Core.reset e.1))
    ageing := s.ageing
    device := { Device.reset with trip := trip, stepping := s.device.stepping }
    free := s.free }
  { s with toDev := dev, view := none, cxlData := none }

/-- THERMAL_TRIP: every clock stops and the module resets; TRIP survives. -/
def execThermalTrip (cause : BitVec 4) (face : BitVec 3) (s : State) : Host.Outcome State Fault Refusal :=
  .next ((s.afterReset (BitVec.ofNat 64 (cause.toNat + face.toNat * 2 ^ 8))).push .moduleReset)

/-- MODULE_RESET: bring-up runs to step 4, where the host writes DEVID, or fails at one of its first steps. DEDUCED: log 73. -/
def execModuleReset (s : State) : Host.Outcome State Fault Refusal :=
  let s := s.afterReset s.device.trip
  let (k, s) := s.choose 4
  let measure := (List.range 64).map (fun j => Config.freeWord (s.free + j))
  let boot : BitVec 8 := if k = 0 then 4#8 else BitVec.ofNat 8 (0x80 + k)
  .next { s with free := s.free + 64, device := { s.device with boot := boot, measure := measure } }

/-- THROTTLE_INTERVAL: one more interval in which the BCP limits (R423). DESIGN CHOICE: log 89. -/
def execThrottleInterval (limits : Bool) (s : State) : Host.Outcome State Fault Refusal :=
  .next (if limits then { s with device := { s.device with throt := s.device.throt + 1 } } else s)

/-! ## Wear and errors (R21, R386, R391, R422) -/

/-- Changes the sett cores of a stack. -/
def State.modStack (s : State) (stack : Nat) (f : Sett → Sett) : State :=
  (List.range 64).foldl (fun s k => s.modSett (64 * stack + k) f) s

/-- ACTIVE_BANK_LIMIT_CHANGE: a lowering advances PABCUT of each pseudo-channel of the stack. The first limit that is set counts as a lowering,
for the spec gives none before it. DESIGN CHOICE: log 8. -/
def execActiveBankLimitChange (stack limit : Nat) (s : State) : Host.Outcome State Fault Refusal :=
  let lower := match Tab.find? s.bankLimit stack with
    | some old => decide (limit < old)
    | none => true
  let s : State := { s with bankLimit := Tab.insert s.bankLimit stack limit }
  .next (if lower then s.modStack stack (fun q => { q with pabcut := q.pabcut + 1 }) else s)

/-- An ageing record (R391): bits 47-32 are zero, and an interval without stress predicts more days than the field holds. -/
def ageRecord (w : Word) : Word := if w.toNat / 2 ^ 48 = 0 then 0xFFFFFFFF#64 else w &&& 0xFFFF0000FFFFFFFF#64

/-- AGEING_UPDATE: Faces 0-7, then the Bed; a fenced Face keeps its record. DESIGN CHOICE: log 8, 89. -/
def execAgeingUpdate (records : List Word) (s : State) : Host.Outcome State Fault Refusal :=
  .next { s with ageing := (List.range 9).map (fun k =>
    if k < 8 ∧ s.faceFenced k then s.ageing.getD k 0#64 else ageRecord (records.getD k 0#64)) }

/-- An uncorrectable error in a line of a handle (R370): while another copy is whole it serves the reads, and a re-dress rebuilds the lost one;
otherwise the line is poisoned. An error that comes before the re-dress has ended may be the same line's last copy. DESIGN CHOICE: log 52. -/
def State.handleError (s : State) (line key : Nat) : State :=
  match Tab.find? s.handles key with
  | none => s
  | some h =>
    let whole := h.dress.copies.filter (fun c => !c.any s.lostStacks.contains)
    let rebuilds := h.order.any (·.redress)
    let (k, s) := if rebuilds then s.choose 2 else (0, s)
    if h.state = .dead then s
    else if 2 ≤ whole.length ∧ k = 0 then (if rebuilds ∨ h.state ≠ .live then s else s.queueRedress key)
    else { s with poison := Store.put s.poison line 1#1 }

/-- SCRUB_READ: a corrected error is counted; an uncorrectable one poisons its line (R422), but one of a handle with another copy (R370), and
one in what is held of a thread ends the thread, which is reported lost with KIND 5 and CODE 0x09. An error that no check has found yet stands
in its line until it is met. DEDUCED: log 125, 129. -/
def execScrubRead (line : Nat) (o : ScrubOutcome) (s : State) : Host.Outcome State Fault Refusal :=
  .next (match o with
    | .clean => s
    | .corrected => { s with device := { s.device with eccc := s.device.eccc + 1 } }
    | .uncorrectable =>
      let s : State := { s with device := { s.device with eccu := s.device.eccu + 1 } }
      match handleAt (64 * line) with
      | some (key, _) => s.handleError line key
      | none =>
        -- of HBM, local memory, a sett core's scratch, or host memory that the LLC holds
        { s with poison := Store.put s.poison line 1#1 }
    | .latent => if isHbm (64 * line) then { s with latent := Store.put s.latent line 1#1 } else s
    | .thread u =>
      let s : State := { s with device := { s.device with eccu := s.device.eccu + 1 } }
      match s.thread? u with
      | none => s
      | some t =>
        let r := (s.recordThread t 5 0x09 0).loseThread u
        -- with the registers of a near-memory program its command ends
        match t.place with
        | .sett n => if t.program then (r.popSett n).progressOf s t.attr.ctx else r
        | _ => r)

/-- ROW_DISTURBANCE_ALERT: the counter of its source advances, and the row's count returns to 0. DESIGN CHOICE: log 81. -/
def execRowDisturbanceAlert (n row : Nat) (source : ActSource) (s : State) : Host.Outcome State Fault Refusal :=
  .next (s.modSett n (fun q =>
    let q := { q with acts := Tab.erase q.acts row }
    match source with
    | .controller => { q with mitctl := q.mitctl + 1 }
    | .settCore => { q with mitsett := q.mitsett + 1 }
    | .sequencer => { q with mitseq := q.mitseq + 1 }))

/-- REFRESH_WINDOW_END: the counts of activations start again. -/
def execRefreshWindowEnd (stack : Nat) (s : State) : Host.Outcome State Fault Refusal :=
  .next (s.modStack stack (fun q => { q with acts := [] }))

end Sys2Proof.Machine
end

