-- ==== Sys2Proof/Machine/Cycle.lean ====
section
/-!
DEFINITION. The core cycle (R28, R29, R359, R383): the issue choice of one core, and, when every core has had its cycle, what time brings
to the whole device: limits that pass, the watchdogs' microseconds (R388), ageing (R350, R391), balancing (R354), monitors (R386,
R423), and what the device does by itself: evictions, write-backs (R315, R334), re-dresses (R368) and the turns of the sett cores (R19).
-/
namespace Sys2Proof.Machine

/-! ## The issue choice -/

/-- Whether a slot of a core is ready in this cycle (R28), and which thread it holds: one returned in this cycle is ready from the next
(R359). -/
def State.readySlot (s : State) (c k : Nat) : Option Nat :=
  match s.inSlot c k with
  | none => none
  | some (u, t) => if t.inRotation && !t.back && decide (Tab.get 0 (s.core c).turnAt k ≤ s.cycle) then some u else none

/-- The slots in the order of the search (R29): from the one after the last turn, wrapping from 16 to 0. -/
def searchOrder (last : Nat) : List Nat := (List.range 17).map (fun i => (last + 1 + i) % 17)

/-- The slot and thread of this cycle's issue turn. DEDUCED: log 88. -/
def State.issueChoice (s : State) (c : Nat) : Option (Nat × Nat) :=
  (searchOrder (s.core c).last).findSome? (fun k => (s.readySlot c k).map (fun u => (k, u)))

/-- Whether an engine of a core is moving data of a command. -/
def Core.atWork (q : Core) : Bool := q.cmds.any (fun c => c.result.isSome || c.going)

/-- One cycle of one core: CYC, then the turn with its rotation distance and ISSUE, or NOREADY. A fenced core is stopped, and no turn is
given in a frozen device. DEDUCED: log 88. -/
def State.coreTurn (s : State) (c : Nat) : State :=
  if s.coreFenced c || s.inReset then s
  else
    let s := s.count c 0 1
    if s.device.still then s.count c 3 1
    else
      match s.issueChoice c with
      | none => s.count c 3 1
      | some (k, u) =>
        let s := s.modCore c (fun q => { q with last := k, turnAt := Tab.insert q.turnAt k (s.cycle + Config.rotation) })
        { s with turns := s.turns ++ [u] }.count c 1 1

/-! ## What time brings -/

/-- Threads that came back to the rotation in the cycle that ends are ready from now on, and port words that came can be popped, by a
thread that found them too new in that cycle and by a waiting STS (R159, R356, R359). -/
def State.settleBack (s : State) : State :=
  let fed := s.cores.filter (fun e : Nat × Core => decide (0 < e.2.new0 + e.2.new1))
  let s := fed.foldl (fun s e => s.wakePorts e.1) s
  let s : State := { s with
    threads := s.threads.map (fun e : Nat × Thread => (e.1, { e.2 with back := false }))
    cores := s.cores.map (fun e : Nat × Core => (e.1, { e.2 with new0 := 0, new1 := 0 })) }
  fed.foldl (fun s e => s.servePorts e.1) s

/-- Freed slots that a ready stockpile entry fits are filled (R353, R359). -/
def State.pokeSlots (s : State) : State :=
  s.cores.foldl (fun s e =>
    if (s.freeSlot e.1).isSome && !(s.stockReady e.1).isEmpty && !s.pending.contains (.slotFill e.1) then s.push (.slotFill e.1) else s) s

/-- Each microsecond, the watchdog of a context that makes no progress advances, and expires at its period (R388-R390). -/
def State.watchdogs (s : State) : State :=
  if s.cycle % Config.cyclesPerMicro ≠ 0 then s
  else
    s.ctxs.foldl (fun s e =>
      if e.2.state = 0 ∨ e.2.state = 3 ∨ s.dogStill e.2.num then s
      else
        let s := s.modPage e.1 (fun p => { p with count := p.count + 1 })
        if e.2.wdog.toNat ≤ e.2.count + 1 ∧ !s.pending.contains (.watchdogExpiry e.2.num) then s.push (.watchdogExpiry e.2.num)
        else s) s

/-- Launches and ready stockpile threads age one level in each 10 ms of waiting (R350). -/
def State.ageWaiting (s : State) : State :=
  let due := s.launches.filter (fun e => e.2.unplaced && s.eligible e.2)
  let s := due.foldl (fun s e =>
    if e.2.aged + 1 < Config.ageCycles then
      { s with launches := Tab.insert s.launches e.1 { e.2 with aged := e.2.aged + 1 } }
    else { s with launches := Tab.insert s.launches e.1 { e.2 with aged := 0 } }.push (.launchAgeing e.1)) s
  let ceil (ctx : Nat) : Nat := match s.page? ctx with
    | some (_, p) => p.ceil
    | none => 0
  let age (t : Thread) : Thread :=
    match t.place with
    | .stock _ =>
      if !t.inRotation then t
      else if t.aged + 1 < Config.ageCycles then { t with aged := t.aged + 1 }
      else if t.attr.prio < ceil t.attr.ctx then { t with aged := 0, attr := { t.attr with prio := t.attr.prio + 1 } }
      else { t with aged := 0 }
    | _ => t
  { s with threads := s.threads.map (fun e : Nat × Thread => (e.1, age e.2)) }

/-- The dispatcher looks at records that wait (R348). -/
def State.pokeDispatch (s : State) : State :=
  if s.launches.any (fun e => e.2.unplaced) && !s.pending.contains .threadPlacement then s.push .threadPlacement else s

/-- A cached translation may be evicted at any time (R315). DESIGN CHOICE: log 26, 59. -/
def State.evictOne (s : State) : State :=
  let (k, s) := s.choose (s.tcache.length + 1)
  { s with tcache := s.tcache.eraseIdx k }

/-- A line held in the LLC may be written back at any time (R334). DESIGN CHOICE: log 26. -/
def State.writeBackOne (s : State) : State :=
  let (k, s) := s.choose (s.cached.length + 1)
  match s.cached[k]? with
  | some e => s.writeBackLine e.1
  | none => s

/-- The rest of bring-up, once its step 4 is done (R424): isolation tables and windows are taken, or step 4 fails.
DEDUCED: log 73. DESIGN CHOICE: log 127. -/
def State.bringUp (s : State) : State :=
  if s.device.boot = 4#8 ∧ s.device.locked then
    let (k, s) := s.choose 3
    let boot : BitVec 8 := if k = 0 then 0x80#8 else if k = 1 then 0x84#8 else 4#8
    { s with device := { s.device with boot := boot } }
  else s

/-- The Dresser may start a re-dress of a handle by itself, once per 10 ms (R368). DESIGN CHOICE: log 52. -/
def State.pokeDresser (s : State) : State :=
  if s.cycle % Config.ageCycles ≠ 0 then s
  else
    s.handles.foldl (fun s e =>
      let (k, s) := s.choose 2
      if k = 1 then s.push (.dresserRedress (e.1 / 2 ^ 23) (e.1 % 2 ^ 23)) else s) s

/-- Every 1,024 cycles each core reads CLOAD (R354). -/
def State.balance (s : State) : State :=
  if s.cycle % 1024 ≠ 0 then s else s.cores.foldl (fun s e => s.push (.loadBalance e.1)) s

/-- The BCP's monitors: limiting intervals of 1 ms (R423), ageing records each 10 minutes (R391), refresh windows of 32 ms (R386). -/
def State.monitors (s : State) : State :=
  let s :=
    if s.cycle % 3000000 ≠ 0 then s
    else let (k, s) := s.choose 2; s.push (.throttleInterval (decide (k = 1)))
  let s :=
    if s.cycle % 1800000000000 ≠ 0 then s
    else
      -- a unit's interval is idle, or has what stress it has
      let ws := (List.range 9).map (fun k => if Config.choice (s.free + k) % 2 = 0 then 0#64 else Config.freeWord (s.free + k))
      { s with free := s.free + 9 }.push (.ageingUpdate ws)
  if s.cycle % 96000000 ≠ 0 then s
  else (List.range 12).foldl (fun s k => s.push (.refreshWindowEnd k)) s

/-- The controller and the sett cores activate rows as their accesses need, some in one cycle; which, depends on open rows and timing, which
the spec does not give (R21, R386). DESIGN CHOICE: log 81. -/
def State.activations (s : State) : State :=
  let (k, s) := s.choose 2
  if k = 0 then s
  else
    let (n, s) := s.choose Config.setts
    let (r, s) := s.choose (Config.linesPerSett / 16)
    let (w, s) := s.choose 3
    s.activate n r (if w = 0 then [.controller] else if w = 1 then [.settCore] else [.controller, .settCore])

/-- The threads of a sett core that can issue: its program and the threads that have migrated there. DEDUCED: log 87. -/
def State.settReady (s : State) (q : Sett) : List Nat :=
  (q.running.toList ++ q.visitors).filter (fun u => match s.thread? u with
    | some t => t.inRotation
    | none => false)

/-- A sett core issues one instruction per cycle of its own 1.0 GHz (R19); whose turn it is among several, is its own affair.
DEDUCED: log 87. -/
def State.settTurns (s : State) : State :=
  if s.cycle % 3 ≠ 0 ∨ s.device.still then s
  else
    s.setts.foldl (fun s e =>
      match s.settReady e.2 with
      | [] => s
      | [u] => { s with turns := s.turns ++ [u] }
      | us =>
        let (k, s) := s.choose us.length
        { s with turns := s.turns ++ [us.getD k 0] }) s

/-- What the end of a cycle of all cores brings. -/
def State.tick (s : State) : State :=
  let s : State := { s with cycle := s.cycle + 1 }
  s.settleBack.serveAll.pump.watchdogs.ageWaiting.pokeSlots.pokeDispatch.pokeDresser.balance.monitors.activations.evictOne.writeBackOne.bringUp.settTurns

/-- CORE_CYCLE: the cycle of one core, up to its issue choice; after the last core's, the next cycle begins. -/
def execCoreCycle (core : Nat) (s : State) : Host.Outcome State Fault Refusal :=
  .next (
    if core < Config.cores then { s.coreTurn core with scan := core + 1, ending := some core }
    else { s.tick with scan := 0 })

end Sys2Proof.Machine
end

