-- ==== Sys2Proof/Machine/Scalar.lean ====
section
/-!
DEFINITION. Meanings of the integer, bit-field, comparison, constant-window, pointer and predicate forms (R125-R142, R161).
-/
namespace Sys2Proof.Machine

/-! ## Shared shapes -/

/-- A two-source form: D := f a b (R125, R126). -/
def Act.op2 (d a : BitVec 5) (b : Src) (g : BitVec 5) (f : Word → Word → Word) : Act Unit :=
  Act.issue .plain b.len (d :: a :: b.fields) g (do
    Act.ready (a :: b.fields) [d]
    let x ← Act.read [] a
    let y ← Act.readSrc [a] b
    Act.pop (a :: b.fields)
    Act.write d (f x y))

/-- An immediate form: D := f a imm, imm sign-extended (R125, R131). -/
def Act.opI (d a : BitVec 5) (i : BitVec 10) (g : BitVec 5) (f : Word → Word → Word) : Act Unit :=
  Act.issue .plain 4 [d, a] g (do
    Act.ready [a] [d]
    let x ← Act.read [] a
    Act.pop [a]
    Act.write d (f x (i.signExtend 64)))

/-- A one-source form: D := f b (R133). -/
def Act.op1 (d : BitVec 5) (b : Src) (g : BitVec 5) (f : Word → Word) : Act Unit :=
  Act.issue .plain b.len (d :: b.fields) g (do
    Act.ready b.fields [d]
    let y ← Act.readSrc [] b
    Act.pop b.fields
    Act.write d (f y))

/-- A two-source form that may fault: D := f a b, or a precise fault with its cause and value. -/
def Act.op2E (d a : BitVec 5) (b : Src) (g : BitVec 5) (f : Word → Word → Except (Nat × Word) Word) : Act Unit :=
  Act.issue .plain b.len (d :: a :: b.fields) g (do
    Act.ready (a :: b.fields) [d]
    let x ← Act.read [] a
    let y ← Act.readSrc [a] b
    match f x y with
    | .error (c, v) => Act.fault c v
    | .ok r => do
      Act.pop (a :: b.fields)
      Act.write d r)

/-- A comparison: pD := f a b (R136). -/
def Act.cmp (d : BitVec 4) (a : BitVec 5) (b : Src) (g : BitVec 5) (f : Word → Word → Bool) : Act Unit :=
  Act.issue .plain b.len (a :: b.fields) g (do
    Act.ready (a :: b.fields) []
    let x ← Act.read [] a
    let y ← Act.readSrc [a] b
    Act.pop (a :: b.fields)
    Act.writePred d (f x y))

/-- A comparison with an immediate (R136). -/
def Act.cmpI (d : BitVec 4) (a : BitVec 5) (i : BitVec 10) (g : BitVec 5) (f : Word → Word → Bool) : Act Unit :=
  Act.issue .plain 4 [a] g (do
    Act.ready [a] []
    let x ← Act.read [] a
    Act.pop [a]
    Act.writePred d (f x (i.signExtend 64)))

/-- A predicate form: pD := f pA pB (R142). -/
def Act.pred2 (d a b : BitVec 4) (g : BitVec 5) (f : Bool → Bool → Bool) : Act Unit :=
  Act.issue .plain 4 [] g (do
    let t ← Act.me
    Act.writePred d (f (t.pred a.toNat) (t.pred b.toNat)))

/-! ## The results (R89, R130, R133, R134) -/

/-- MULH.s. -/
def mulhSigned (a b : Word) : Word := BitVec.ofInt 64 ((a.toInt * b.toInt) / 2 ^ 64)
/-- MULH.n. -/
def mulhUnsigned (a b : Word) : Word := BitVec.ofNat 64 (a.toNat * b.toNat / 2 ^ 64)
/-- DIV.s: by zero all ones; truncated toward zero. -/
def divSigned (a b : Word) : Word := if b = 0#64 then BitVec.allOnes 64 else BitVec.ofInt 64 (a.toInt.tdiv b.toInt)
/-- DIV.n: by zero all ones. -/
def divUnsigned (a b : Word) : Word := if b = 0#64 then BitVec.allOnes 64 else BitVec.ofNat 64 (a.toNat / b.toNat)
/-- REM.s: by zero the dividend; otherwise the dividend's sign. -/
def remSigned (a b : Word) : Word := if b = 0#64 then a else BitVec.ofInt 64 (a.toInt.tmod b.toInt)
/-- REM.n: by zero the dividend. -/
def remUnsigned (a b : Word) : Word := if b = 0#64 then a else BitVec.ofNat 64 (a.toNat % b.toNat)
/-- The shift amount: the low 6 bits. -/
def amount (b : Word) : Nat := b.toNat % 64
/-- SHL. -/
def shiftLeft (a b : Word) : Word := a <<< amount b
/-- SHR. -/
def shiftRight (a b : Word) : Word := a >>> amount b
/-- SAR. -/
def shiftArith (a b : Word) : Word := a.sshiftRight (amount b)
/-- ROL. -/
def rotateLeft (a b : Word) : Word := a.rotateLeft (amount b)
/-- ABS. -/
def absWord (b : Word) : Word := if b.slt 0#64 then -b else b
/-- CLZ. -/
def countLead (b : Word) : Word := if b = 0#64 then 64#64 else BitVec.ofNat 64 (63 - Nat.log2 b.toNat)
/-- CTZ. -/
def countTrail (b : Word) : Word :=
  BitVec.ofNat 64 (((List.range 64).find? (fun i => b.getLsbD i)).getD 64)
/-- POPC. -/
def popCount (b : Word) : Word := BitVec.ofNat 64 ((List.range 64).filter (fun i => b.getLsbD i)).length
/-- BREV. -/
def bitReverse (b : Word) : Word := b.reverse
/-- pos of EXT and INS. -/
def fieldPos (b : Word) : Nat := b.toNat % 64
/-- w′ of EXT and INS: min(w, 64 − pos), w = 0 meaning 64. -/
def fieldWidth (b : Word) : Nat :=
  let w := b.toNat / 256 % 64
  min (if w = 0 then 64 else w) (64 - fieldPos b)
/-- EXT. -/
def extract (a b : Word) : Word := BitVec.ofNat 64 (a.toNat / 2 ^ fieldPos b % 2 ^ fieldWidth b)
/-- EXT.s. -/
def extractSigned (a b : Word) : Word :=
  let f := a.toNat / 2 ^ fieldPos b % 2 ^ fieldWidth b
  if 2 ^ fieldWidth b ≤ 2 * f then BitVec.ofInt 64 ((f : Int) - 2 ^ fieldWidth b) else BitVec.ofNat 64 f
/-- INS. -/
def insertField (d a b : Word) : Word :=
  let m : Word := BitVec.ofNat 64 ((2 ^ fieldWidth b - 1) * 2 ^ fieldPos b)
  (d &&& ~~~m) ||| ((a <<< fieldPos b) &&& m)

/-! ## Integer arithmetic and logic (R130) -/

/-- ADD. -/
def execAdd (d a : BitVec 5) (b : Src) (g : BitVec 5) (s : State) : Host.Outcome State Fault Refusal :=
  Act.go (Act.op2 d a b g (· + ·)) s
/-- SUB. -/
def execSub (d a : BitVec 5) (b : Src) (g : BitVec 5) (s : State) : Host.Outcome State Fault Refusal :=
  Act.go (Act.op2 d a b g (· - ·)) s
/-- MUL. -/
def execMul (d a : BitVec 5) (b : Src) (g : BitVec 5) (s : State) : Host.Outcome State Fault Refusal :=
  Act.go (Act.op2 d a b g (· * ·)) s
/-- MULH.s. -/
def execMulhS (d a : BitVec 5) (b : Src) (g : BitVec 5) (s : State) : Host.Outcome State Fault Refusal :=
  Act.go (Act.op2 d a b g mulhSigned) s
/-- MULH.n. -/
def execMulhN (d a : BitVec 5) (b : Src) (g : BitVec 5) (s : State) : Host.Outcome State Fault Refusal :=
  Act.go (Act.op2 d a b g mulhUnsigned) s
/-- DIV.s. -/
def execDivS (d a : BitVec 5) (b : Src) (g : BitVec 5) (s : State) : Host.Outcome State Fault Refusal :=
  Act.go (Act.op2 d a b g divSigned) s
/-- DIV.n. -/
def execDivN (d a : BitVec 5) (b : Src) (g : BitVec 5) (s : State) : Host.Outcome State Fault Refusal :=
  Act.go (Act.op2 d a b g divUnsigned) s
/-- REM.s. -/
def execRemS (d a : BitVec 5) (b : Src) (g : BitVec 5) (s : State) : Host.Outcome State Fault Refusal :=
  Act.go (Act.op2 d a b g remSigned) s
/-- REM.n. -/
def execRemN (d a : BitVec 5) (b : Src) (g : BitVec 5) (s : State) : Host.Outcome State Fault Refusal :=
  Act.go (Act.op2 d a b g remUnsigned) s
/-- MIN.s. -/
def execMinS (d a : BitVec 5) (b : Src) (g : BitVec 5) (s : State) : Host.Outcome State Fault Refusal :=
  Act.go (Act.op2 d a b g (fun x y => if y.slt x then y else x)) s
/-- MIN.n. -/
def execMinN (d a : BitVec 5) (b : Src) (g : BitVec 5) (s : State) : Host.Outcome State Fault Refusal :=
  Act.go (Act.op2 d a b g (fun x y => if y.ult x then y else x)) s
/-- MAX.s. -/
def execMaxS (d a : BitVec 5) (b : Src) (g : BitVec 5) (s : State) : Host.Outcome State Fault Refusal :=
  Act.go (Act.op2 d a b g (fun x y => if x.slt y then y else x)) s
/-- MAX.n. -/
def execMaxN (d a : BitVec 5) (b : Src) (g : BitVec 5) (s : State) : Host.Outcome State Fault Refusal :=
  Act.go (Act.op2 d a b g (fun x y => if x.ult y then y else x)) s
/-- AND. -/
def execAnd (d a : BitVec 5) (b : Src) (g : BitVec 5) (s : State) : Host.Outcome State Fault Refusal :=
  Act.go (Act.op2 d a b g (· &&& ·)) s
/-- OR. -/
def execOr (d a : BitVec 5) (b : Src) (g : BitVec 5) (s : State) : Host.Outcome State Fault Refusal :=
  Act.go (Act.op2 d a b g (· ||| ·)) s
/-- XOR. -/
def execXor (d a : BitVec 5) (b : Src) (g : BitVec 5) (s : State) : Host.Outcome State Fault Refusal :=
  Act.go (Act.op2 d a b g (· ^^^ ·)) s
/-- ANDN. -/
def execAndn (d a : BitVec 5) (b : Src) (g : BitVec 5) (s : State) : Host.Outcome State Fault Refusal :=
  Act.go (Act.op2 d a b g (fun x y => x &&& ~~~y)) s
/-- SHL. -/
def execShl (d a : BitVec 5) (b : Src) (g : BitVec 5) (s : State) : Host.Outcome State Fault Refusal :=
  Act.go (Act.op2 d a b g shiftLeft) s
/-- SHR. -/
def execShr (d a : BitVec 5) (b : Src) (g : BitVec 5) (s : State) : Host.Outcome State Fault Refusal :=
  Act.go (Act.op2 d a b g shiftRight) s
/-- SAR. -/
def execSar (d a : BitVec 5) (b : Src) (g : BitVec 5) (s : State) : Host.Outcome State Fault Refusal :=
  Act.go (Act.op2 d a b g shiftArith) s
/-- ROL. -/
def execRol (d a : BitVec 5) (b : Src) (g : BitVec 5) (s : State) : Host.Outcome State Fault Refusal :=
  Act.go (Act.op2 d a b g rotateLeft) s

/-! ## Immediate forms (R131, R132) -/

/-- ADD with immediate. -/
def execAddImm (d a : BitVec 5) (i : BitVec 10) (g : BitVec 5) (s : State) : Host.Outcome State Fault Refusal :=
  Act.go (Act.opI d a i g (· + ·)) s
/-- AND with immediate. -/
def execAndImm (d a : BitVec 5) (i : BitVec 10) (g : BitVec 5) (s : State) : Host.Outcome State Fault Refusal :=
  Act.go (Act.opI d a i g (· &&& ·)) s
/-- OR with immediate. -/
def execOrImm (d a : BitVec 5) (i : BitVec 10) (g : BitVec 5) (s : State) : Host.Outcome State Fault Refusal :=
  Act.go (Act.opI d a i g (· ||| ·)) s
/-- XOR with immediate. -/
def execXorImm (d a : BitVec 5) (i : BitVec 10) (g : BitVec 5) (s : State) : Host.Outcome State Fault Refusal :=
  Act.go (Act.opI d a i g (· ^^^ ·)) s
/-- SHL with immediate. -/
def execShlImm (d a : BitVec 5) (i : BitVec 10) (g : BitVec 5) (s : State) : Host.Outcome State Fault Refusal :=
  Act.go (Act.opI d a i g shiftLeft) s
/-- SHR with immediate. -/
def execShrImm (d a : BitVec 5) (i : BitVec 10) (g : BitVec 5) (s : State) : Host.Outcome State Fault Refusal :=
  Act.go (Act.opI d a i g shiftRight) s
/-- SAR with immediate. -/
def execSarImm (d a : BitVec 5) (i : BitVec 10) (g : BitVec 5) (s : State) : Host.Outcome State Fault Refusal :=
  Act.go (Act.opI d a i g shiftArith) s
/-- ROL with immediate. -/
def execRolImm (d a : BitVec 5) (i : BitVec 10) (g : BitVec 5) (s : State) : Host.Outcome State Fault Refusal :=
  Act.go (Act.opI d a i g rotateLeft) s
/-- MUL with immediate. -/
def execMulImm (d a : BitVec 5) (i : BitVec 10) (g : BitVec 5) (s : State) : Host.Outcome State Fault Refusal :=
  Act.go (Act.opI d a i g (· * ·)) s
/-- MOV with immediate (R132). -/
def execMovImm (d : BitVec 5) (i : BitVec 10) (g : BitVec 5) (s : State) : Host.Outcome State Fault Refusal :=
  Act.go (Act.issue .plain 4 [d] g (do
    Act.ready [] [d]
    Act.write d (i.signExtend 64))) s

/-! ## One-source forms (R133) -/

/-- MOV. -/
def execMov (d : BitVec 5) (b : Src) (g : BitVec 5) (s : State) : Host.Outcome State Fault Refusal :=
  Act.go (Act.op1 d b g (fun y => y)) s
/-- NEG. -/
def execNeg (d : BitVec 5) (b : Src) (g : BitVec 5) (s : State) : Host.Outcome State Fault Refusal :=
  Act.go (Act.op1 d b g (fun y => -y)) s
/-- ABS. -/
def execAbs (d : BitVec 5) (b : Src) (g : BitVec 5) (s : State) : Host.Outcome State Fault Refusal :=
  Act.go (Act.op1 d b g absWord) s
/-- CLZ. -/
def execClz (d : BitVec 5) (b : Src) (g : BitVec 5) (s : State) : Host.Outcome State Fault Refusal :=
  Act.go (Act.op1 d b g countLead) s
/-- CTZ. -/
def execCtz (d : BitVec 5) (b : Src) (g : BitVec 5) (s : State) : Host.Outcome State Fault Refusal :=
  Act.go (Act.op1 d b g countTrail) s
/-- POPC. -/
def execPopc (d : BitVec 5) (b : Src) (g : BitVec 5) (s : State) : Host.Outcome State Fault Refusal :=
  Act.go (Act.op1 d b g popCount) s
/-- BREV. -/
def execBrev (d : BitVec 5) (b : Src) (g : BitVec 5) (s : State) : Host.Outcome State Fault Refusal :=
  Act.go (Act.op1 d b g bitReverse) s
/-- MOV.CTL: pushed with control bit 1 (R126, R133). -/
def execMovCtl (d : BitVec 1) (b : Src) (g : BitVec 5) (s : State) : Host.Outcome State Fault Refusal :=
  let port : BitVec 5 := if d = 0#1 then 30#5 else 31#5
  Act.go (Act.issue .plain b.len (port :: b.fields) g (do
    Act.ready b.fields [port]
    let y ← Act.readSrc [] b
    Act.pop b.fields
    Act.writeCtl port y true)) s

/-! ## Bit fields and selection (R134, R135) -/

/-- EXT. -/
def execExt (d a : BitVec 5) (b : Src) (g : BitVec 5) (s : State) : Host.Outcome State Fault Refusal :=
  Act.go (Act.op2 d a b g extract) s
/-- EXT.s. -/
def execExtS (d a : BitVec 5) (b : Src) (g : BitVec 5) (s : State) : Host.Outcome State Fault Refusal :=
  Act.go (Act.op2 d a b g extractSigned) s
/-- INS: it reads D before it writes it (R127). -/
def execIns (d a : BitVec 5) (b : Src) (g : BitVec 5) (s : State) : Host.Outcome State Fault Refusal :=
  Act.go (Act.issue .plain b.len (d :: a :: b.fields) g (do
    Act.ready (d :: a :: b.fields) []
    let z ← Act.read [] d
    let x ← Act.read [] a
    let y ← Act.readSrc [a] b
    Act.pop (a :: b.fields)
    Act.write d (insertField z x y))) s
/-- SEL: both sources are read (R135). -/
def execSel (d a : BitVec 5) (b : Src) (k : BitVec 4) (n : BitVec 1) (g : BitVec 5) (s : State) :
    Host.Outcome State Fault Refusal :=
  Act.go (Act.issue .plain b.len (d :: a :: b.fields) g (do
    Act.ready (a :: b.fields) [d]
    let t ← Act.me
    let x ← Act.read [] a
    let y ← Act.readSrc [a] b
    Act.pop (a :: b.fields)
    Act.write d (if t.pred k.toNat != decide (n = 1#1) then x else y))) s

/-! ## Comparison (R136) -/

/-- CMP.eq. -/
def execCmpEq (d : BitVec 4) (a : BitVec 5) (b : Src) (g : BitVec 5) (s : State) : Host.Outcome State Fault Refusal :=
  Act.go (Act.cmp d a b g Cond.eq.holds) s
/-- CMP.ne. -/
def execCmpNe (d : BitVec 4) (a : BitVec 5) (b : Src) (g : BitVec 5) (s : State) : Host.Outcome State Fault Refusal :=
  Act.go (Act.cmp d a b g Cond.ne.holds) s
/-- CMP.lt. -/
def execCmpLt (d : BitVec 4) (a : BitVec 5) (b : Src) (g : BitVec 5) (s : State) : Host.Outcome State Fault Refusal :=
  Act.go (Act.cmp d a b g Cond.lt.holds) s
/-- CMP.ge. -/
def execCmpGe (d : BitVec 4) (a : BitVec 5) (b : Src) (g : BitVec 5) (s : State) : Host.Outcome State Fault Refusal :=
  Act.go (Act.cmp d a b g Cond.ge.holds) s
/-- CMP.le. -/
def execCmpLe (d : BitVec 4) (a : BitVec 5) (b : Src) (g : BitVec 5) (s : State) : Host.Outcome State Fault Refusal :=
  Act.go (Act.cmp d a b g Cond.le.holds) s
/-- CMP.gt. -/
def execCmpGt (d : BitVec 4) (a : BitVec 5) (b : Src) (g : BitVec 5) (s : State) : Host.Outcome State Fault Refusal :=
  Act.go (Act.cmp d a b g Cond.gt.holds) s
/-- CMP.lo. -/
def execCmpLo (d : BitVec 4) (a : BitVec 5) (b : Src) (g : BitVec 5) (s : State) : Host.Outcome State Fault Refusal :=
  Act.go (Act.cmp d a b g Cond.lo.holds) s
/-- CMP.hs. -/
def execCmpHs (d : BitVec 4) (a : BitVec 5) (b : Src) (g : BitVec 5) (s : State) : Host.Outcome State Fault Refusal :=
  Act.go (Act.cmp d a b g Cond.hs.holds) s
/-- CMP.ls. -/
def execCmpLs (d : BitVec 4) (a : BitVec 5) (b : Src) (g : BitVec 5) (s : State) : Host.Outcome State Fault Refusal :=
  Act.go (Act.cmp d a b g Cond.ls.holds) s
/-- CMP.hi. -/
def execCmpHi (d : BitVec 4) (a : BitVec 5) (b : Src) (g : BitVec 5) (s : State) : Host.Outcome State Fault Refusal :=
  Act.go (Act.cmp d a b g Cond.hi.holds) s
/-- CMP.eq with immediate. -/
def execCmpEqImm (d : BitVec 4) (a : BitVec 5) (i : BitVec 10) (g : BitVec 5) (s : State) : Host.Outcome State Fault Refusal :=
  Act.go (Act.cmpI d a i g Cond.eq.holds) s
/-- CMP.ne with immediate. -/
def execCmpNeImm (d : BitVec 4) (a : BitVec 5) (i : BitVec 10) (g : BitVec 5) (s : State) : Host.Outcome State Fault Refusal :=
  Act.go (Act.cmpI d a i g Cond.ne.holds) s
/-- CMP.lt with immediate. -/
def execCmpLtImm (d : BitVec 4) (a : BitVec 5) (i : BitVec 10) (g : BitVec 5) (s : State) : Host.Outcome State Fault Refusal :=
  Act.go (Act.cmpI d a i g Cond.lt.holds) s
/-- CMP.ge with immediate. -/
def execCmpGeImm (d : BitVec 4) (a : BitVec 5) (i : BitVec 10) (g : BitVec 5) (s : State) : Host.Outcome State Fault Refusal :=
  Act.go (Act.cmpI d a i g Cond.ge.holds) s
/-- CMP.le with immediate. -/
def execCmpLeImm (d : BitVec 4) (a : BitVec 5) (i : BitVec 10) (g : BitVec 5) (s : State) : Host.Outcome State Fault Refusal :=
  Act.go (Act.cmpI d a i g Cond.le.holds) s
/-- CMP.gt with immediate. -/
def execCmpGtImm (d : BitVec 4) (a : BitVec 5) (i : BitVec 10) (g : BitVec 5) (s : State) : Host.Outcome State Fault Refusal :=
  Act.go (Act.cmpI d a i g Cond.gt.holds) s
/-- CMP.lo with immediate. -/
def execCmpLoImm (d : BitVec 4) (a : BitVec 5) (i : BitVec 10) (g : BitVec 5) (s : State) : Host.Outcome State Fault Refusal :=
  Act.go (Act.cmpI d a i g Cond.lo.holds) s
/-- CMP.hs with immediate. -/
def execCmpHsImm (d : BitVec 4) (a : BitVec 5) (i : BitVec 10) (g : BitVec 5) (s : State) : Host.Outcome State Fault Refusal :=
  Act.go (Act.cmpI d a i g Cond.hs.holds) s

/-! ## The constant window (R137) -/

/-- CONST: a local read of word c, or of the sett core's scratch (R129); a poisoned line is reported (R422). DEDUCED: log 125. -/
def execConst (d : BitVec 5) (c : BitVec 8) (g : BitVec 5) (s : State) : Host.Outcome State Fault Refusal :=
  Act.go (Act.issue .plain 4 [d] g (do
    let t ← Act.me
    let off := 8 * c.toNat
    let va := 15 * 2 ^ 44 + off
    let loc := match t.settOn with
      | some n => scratchLoc n off
      | none => localLoc t.core off
    Act.claim false loc
    Act.clean va loc
    let s ← get
    Act.modMe (fun t => t.noteRead loc none)
    Act.write d (BitVec.ofNat 64 (s.see t va loc 8)))) s

/-! ## Pointers and windows (R138-R141) -/

/-- The step of a pointer or handle reference by a signed offset (R138). -/
def stepPointer (a : Word) (off : Int) : Except (Nat × Word) Word :=
  let w := if isRef a then 40 else 48
  let n : Int := (a.toNat % 2 ^ w : Nat) + off
  if n < 0 ∨ 2 ^ w ≤ n then .error (0x04, a)
  else .ok (BitVec.ofNat 64 (a.toNat / 2 ^ w * 2 ^ w + n.toNat))

/-- ADDA. -/
def execAdda (d a : BitVec 5) (b : Src) (g : BitVec 5) (s : State) : Host.Outcome State Fault Refusal :=
  Act.go (Act.op2E d a b g (fun x y => stepPointer x y.toInt)) s
/-- SUBA. -/
def execSuba (d a : BitVec 5) (b : Src) (g : BitVec 5) (s : State) : Host.Outcome State Fault Refusal :=
  Act.go (Act.op2E d a b g (fun x y => stepPointer x (-y.toInt))) s
/-- A pointer step by an immediate. -/
def Act.stepI (d a : BitVec 5) (off : Int) (g : BitVec 5) : Act Unit :=
  Act.issue .plain 4 [d, a] g (do
    Act.ready [a] [d]
    let x ← Act.read [] a
    match stepPointer x off with
    | .error (c, v) => Act.fault c v
    | .ok r => do
      Act.pop [a]
      Act.write d r)
/-- ADDA with immediate. -/
def execAddaImm (d a : BitVec 5) (i : BitVec 10) (g : BitVec 5) (s : State) : Host.Outcome State Fault Refusal :=
  Act.go (Act.stepI d a i.toInt g) s
/-- SUBA with immediate. -/
def execSubaImm (d a : BitVec 5) (i : BitVec 10) (g : BitVec 5) (s : State) : Host.Outcome State Fault Refusal :=
  Act.go (Act.stepI d a (-i.toInt) g) s
/-- PTAG (R139); where both operands fail, FVAL names the first. DESIGN CHOICE: log 118. -/
def execPtag (d a : BitVec 5) (b : Src) (g : BitVec 5) (s : State) : Host.Outcome State Fault Refusal :=
  Act.go (Act.op2E d a b g (fun x y =>
    let fmt := y.toNat % 32
    let blk := y.toNat / 256 % 16
    if isRef x then .error (0x03, x)
    else if 12 < fmt ∨ 12 < blk then .error (0x03, y)
    else .ok (BitVec.ofNat 64 (x.toNat % 2 ^ 48 + 2 ^ 52 * fmt + 2 ^ 48 * blk)))) s
/-- What PFMT gives (R139). -/
def pointerFormat (x : Word) : Word :=
  if isRef x then BitVec.ofNat 64 (2 ^ 63)
  else BitVec.ofNat 64 (fmtOf x + 2 ^ 8 * blkOf x + 2 ^ 16 * (x.toNat / 2 ^ 57 % 64))
/-- PFMT. -/
def execPfmt (d a : BitVec 5) (g : BitVec 5) (s : State) : Host.Outcome State Fault Refusal :=
  Act.go (Act.issue .plain 4 [d, a] g (do
    Act.ready [a] [d]
    let x ← Act.read [] a
    Act.pop [a]
    Act.write d (pointerFormat x))) s
/-- HREF (R140); where both operands fail, FVAL names the first. DESIGN CHOICE: log 118. -/
def execHref (d a : BitVec 5) (b : Src) (g : BitVec 5) (s : State) : Host.Outcome State Fault Refusal :=
  Act.go (Act.op2E d a b g (fun x y =>
    if 2 ^ 23 ≤ x.toNat then .error (0x03, x)
    else if 2 ^ 40 ≤ y.toNat then .error (0x03, y)
    else .ok (BitVec.ofNat 64 (2 ^ 63 + 2 ^ 40 * x.toNat + y.toNat)))) s
/-- LWIN (R141); where both operands fail, FVAL names the first. DESIGN CHOICE: log 118. -/
def execLwin (d a : BitVec 5) (b : Src) (g : BitVec 5) (s : State) : Host.Outcome State Fault Refusal :=
  Act.go (Act.op2E d a b g (fun x y =>
    if 16383 < x.toNat then .error (0x04, x)
    else if 0xFFFF < y.toNat then .error (0x04, y)
    else .ok (BitVec.ofNat 64 (14 * 2 ^ 44 + 2 ^ 16 * x.toNat + y.toNat)))) s
/-- LWIN.own (R141). -/
def execLwinOwn (d : BitVec 5) (b : Src) (g : BitVec 5) (s : State) : Host.Outcome State Fault Refusal :=
  Act.go (Act.issue .plain b.len (d :: b.fields) g (do
    Act.ready b.fields [d]
    let y ← Act.readSrc [] b
    if 0xFFFF < y.toNat then Act.fault 0x04 y
    else do
      Act.pop b.fields
      Act.write d (BitVec.ofNat 64 (15 * 2 ^ 44 + y.toNat)))) s

/-! ## Predicates (R142) -/

/-- PAND. -/
def execPand (d a b : BitVec 4) (g : BitVec 5) (s : State) : Host.Outcome State Fault Refusal :=
  Act.go (Act.pred2 d a b g (· && ·)) s
/-- POR. -/
def execPor (d a b : BitVec 4) (g : BitVec 5) (s : State) : Host.Outcome State Fault Refusal :=
  Act.go (Act.pred2 d a b g (· || ·)) s
/-- PXOR. -/
def execPxor (d a b : BitVec 4) (g : BitVec 5) (s : State) : Host.Outcome State Fault Refusal :=
  Act.go (Act.pred2 d a b g (· != ·)) s
/-- PNOT. -/
def execPnot (d a : BitVec 4) (g : BitVec 5) (s : State) : Host.Outcome State Fault Refusal :=
  Act.go (Act.pred2 d a a g (fun x _ => !x)) s
/-- PMOV. -/
def execPmov (d a : BitVec 4) (g : BitVec 5) (s : State) : Host.Outcome State Fault Refusal :=
  Act.go (Act.pred2 d a a g (fun x _ => x)) s

end Sys2Proof.Machine
end

