-- ==== Sys2Proof/Machine/Dispatch.lean ====
section
/-!
DEFINITION. exec: one arm for each constructor of Instr, each a call of that instruction's own meaning.
-/
namespace Sys2Proof.Machine

def exec (i : Instr) (s : State) : Host.Outcome State Fault Refusal :=
  match i with
  | .add d a b g => Sys2Proof.Machine.execAdd d a b g s
  | .sub d a b g => Sys2Proof.Machine.execSub d a b g s
  | .mul d a b g => Sys2Proof.Machine.execMul d a b g s
  | .mulhS d a b g => Sys2Proof.Machine.execMulhS d a b g s
  | .mulhN d a b g => Sys2Proof.Machine.execMulhN d a b g s
  | .divS d a b g => Sys2Proof.Machine.execDivS d a b g s
  | .divN d a b g => Sys2Proof.Machine.execDivN d a b g s
  | .remS d a b g => Sys2Proof.Machine.execRemS d a b g s
  | .remN d a b g => Sys2Proof.Machine.execRemN d a b g s
  | .minS d a b g => Sys2Proof.Machine.execMinS d a b g s
  | .minN d a b g => Sys2Proof.Machine.execMinN d a b g s
  | .maxS d a b g => Sys2Proof.Machine.execMaxS d a b g s
  | .maxN d a b g => Sys2Proof.Machine.execMaxN d a b g s
  | .and d a b g => Sys2Proof.Machine.execAnd d a b g s
  | .or d a b g => Sys2Proof.Machine.execOr d a b g s
  | .xor d a b g => Sys2Proof.Machine.execXor d a b g s
  | .andn d a b g => Sys2Proof.Machine.execAndn d a b g s
  | .shl d a b g => Sys2Proof.Machine.execShl d a b g s
  | .shr d a b g => Sys2Proof.Machine.execShr d a b g s
  | .sar d a b g => Sys2Proof.Machine.execSar d a b g s
  | .rol d a b g => Sys2Proof.Machine.execRol d a b g s
  | .addImm d a imm g => Sys2Proof.Machine.execAddImm d a imm g s
  | .andImm d a imm g => Sys2Proof.Machine.execAndImm d a imm g s
  | .orImm d a imm g => Sys2Proof.Machine.execOrImm d a imm g s
  | .xorImm d a imm g => Sys2Proof.Machine.execXorImm d a imm g s
  | .shlImm d a imm g => Sys2Proof.Machine.execShlImm d a imm g s
  | .shrImm d a imm g => Sys2Proof.Machine.execShrImm d a imm g s
  | .sarImm d a imm g => Sys2Proof.Machine.execSarImm d a imm g s
  | .rolImm d a imm g => Sys2Proof.Machine.execRolImm d a imm g s
  | .mulImm d a imm g => Sys2Proof.Machine.execMulImm d a imm g s
  | .movImm d imm g => Sys2Proof.Machine.execMovImm d imm g s
  | .mov d b g => Sys2Proof.Machine.execMov d b g s
  | .neg d b g => Sys2Proof.Machine.execNeg d b g s
  | .abs d b g => Sys2Proof.Machine.execAbs d b g s
  | .clz d b g => Sys2Proof.Machine.execClz d b g s
  | .ctz d b g => Sys2Proof.Machine.execCtz d b g s
  | .popc d b g => Sys2Proof.Machine.execPopc d b g s
  | .brev d b g => Sys2Proof.Machine.execBrev d b g s
  | .movCtl d b g => Sys2Proof.Machine.execMovCtl d b g s
  | .ext d a b g => Sys2Proof.Machine.execExt d a b g s
  | .extS d a b g => Sys2Proof.Machine.execExtS d a b g s
  | .ins d a b g => Sys2Proof.Machine.execIns d a b g s
  | .sel d a b k n g => Sys2Proof.Machine.execSel d a b k n g s
  | .cmpEq d a b g => Sys2Proof.Machine.execCmpEq d a b g s
  | .cmpNe d a b g => Sys2Proof.Machine.execCmpNe d a b g s
  | .cmpLt d a b g => Sys2Proof.Machine.execCmpLt d a b g s
  | .cmpGe d a b g => Sys2Proof.Machine.execCmpGe d a b g s
  | .cmpLe d a b g => Sys2Proof.Machine.execCmpLe d a b g s
  | .cmpGt d a b g => Sys2Proof.Machine.execCmpGt d a b g s
  | .cmpLo d a b g => Sys2Proof.Machine.execCmpLo d a b g s
  | .cmpHs d a b g => Sys2Proof.Machine.execCmpHs d a b g s
  | .cmpLs d a b g => Sys2Proof.Machine.execCmpLs d a b g s
  | .cmpHi d a b g => Sys2Proof.Machine.execCmpHi d a b g s
  | .cmpEqImm d a imm g => Sys2Proof.Machine.execCmpEqImm d a imm g s
  | .cmpNeImm d a imm g => Sys2Proof.Machine.execCmpNeImm d a imm g s
  | .cmpLtImm d a imm g => Sys2Proof.Machine.execCmpLtImm d a imm g s
  | .cmpGeImm d a imm g => Sys2Proof.Machine.execCmpGeImm d a imm g s
  | .cmpLeImm d a imm g => Sys2Proof.Machine.execCmpLeImm d a imm g s
  | .cmpGtImm d a imm g => Sys2Proof.Machine.execCmpGtImm d a imm g s
  | .cmpLoImm d a imm g => Sys2Proof.Machine.execCmpLoImm d a imm g s
  | .cmpHsImm d a imm g => Sys2Proof.Machine.execCmpHsImm d a imm g s
  | .const d c g => Sys2Proof.Machine.execConst d c g s
  | .adda d a b g => Sys2Proof.Machine.execAdda d a b g s
  | .suba d a b g => Sys2Proof.Machine.execSuba d a b g s
  | .addaImm d a imm g => Sys2Proof.Machine.execAddaImm d a imm g s
  | .subaImm d a imm g => Sys2Proof.Machine.execSubaImm d a imm g s
  | .ptag d a b g => Sys2Proof.Machine.execPtag d a b g s
  | .pfmt d a g => Sys2Proof.Machine.execPfmt d a g s
  | .href d a b g => Sys2Proof.Machine.execHref d a b g s
  | .lwin d a b g => Sys2Proof.Machine.execLwin d a b g s
  | .lwinOwn d b g => Sys2Proof.Machine.execLwinOwn d b g s
  | .fadd d a b g => Sys2Proof.Machine.execFadd d a b g s
  | .fsub d a b g => Sys2Proof.Machine.execFsub d a b g s
  | .fmul d a b g => Sys2Proof.Machine.execFmul d a b g s
  | .fmin d a b g => Sys2Proof.Machine.execFmin d a b g s
  | .fmax d a b g => Sys2Proof.Machine.execFmax d a b g s
  | .ffma d a b g => Sys2Proof.Machine.execFfma d a b g s
  | .fcmpEq d a b g => Sys2Proof.Machine.execFcmpEq d a b g s
  | .fcmpNe d a b g => Sys2Proof.Machine.execFcmpNe d a b g s
  | .fcmpLt d a b g => Sys2Proof.Machine.execFcmpLt d a b g s
  | .fcmpLe d a b g => Sys2Proof.Machine.execFcmpLe d a b g s
  | .fcmpGt d a b g => Sys2Proof.Machine.execFcmpGt d a b g s
  | .fcmpGe d a b g => Sys2Proof.Machine.execFcmpGe d a b g s
  | .fcmpUn d a b g => Sys2Proof.Machine.execFcmpUn d a b g s
  | .fcmpOr d a b g => Sys2Proof.Machine.execFcmpOr d a b g s
  | .fcvtF2i d b m g => Sys2Proof.Machine.execFcvtF2i d b m g s
  | .fcvtF2n d b m g => Sys2Proof.Machine.execFcvtF2n d b m g s
  | .fcvtFint d b m g => Sys2Proof.Machine.execFcvtFint d b m g s
  | .fcvtI2f d b g => Sys2Proof.Machine.execFcvtI2f d b g s
  | .fcvtN2f d b g => Sys2Proof.Machine.execFcvtN2f d b g s
  | .fcvtF2h d b g => Sys2Proof.Machine.execFcvtF2h d b g s
  | .fcvtH2f d b g => Sys2Proof.Machine.execFcvtH2f d b g s
  | .fcvtF2b d b g => Sys2Proof.Machine.execFcvtF2b d b g s
  | .fcvtB2f d b g => Sys2Proof.Machine.execFcvtB2f d b g s
  | .fcvtF2w d b g => Sys2Proof.Machine.execFcvtF2w d b g s
  | .fcvtW2f d b g => Sys2Proof.Machine.execFcvtW2f d b g s
  | .pand d a b g => Sys2Proof.Machine.execPand d a b g s
  | .por d a b g => Sys2Proof.Machine.execPor d a b g s
  | .pxor d a b g => Sys2Proof.Machine.execPxor d a b g s
  | .pnot d a g => Sys2Proof.Machine.execPnot d a g s
  | .pmov d a g => Sys2Proof.Machine.execPmov d a g s
  | .br o g => Sys2Proof.Machine.execBr o g s
  | .call o g => Sys2Proof.Machine.execCall o g s
  | .jmp b g => Sys2Proof.Machine.execJmp b g s
  | .callr d b g => Sys2Proof.Machine.execCallr d b g s
  | .loop d imm g => Sys2Proof.Machine.execLoop d imm g s
  | .ldB d a imm g => Sys2Proof.Machine.execLdB d a imm g s
  | .ldH d a imm g => Sys2Proof.Machine.execLdH d a imm g s
  | .ldW d a imm g => Sys2Proof.Machine.execLdW d a imm g s
  | .ldD d a imm g => Sys2Proof.Machine.execLdD d a imm g s
  | .stB d a imm g => Sys2Proof.Machine.execStB d a imm g s
  | .stH d a imm g => Sys2Proof.Machine.execStH d a imm g s
  | .stW d a imm g => Sys2Proof.Machine.execStW d a imm g s
  | .stD d a imm g => Sys2Proof.Machine.execStD d a imm g s
  | .ldBMig d a imm g => Sys2Proof.Machine.execLdBMig d a imm g s
  | .ldHMig d a imm g => Sys2Proof.Machine.execLdHMig d a imm g s
  | .ldWMig d a imm g => Sys2Proof.Machine.execLdWMig d a imm g s
  | .ldDMig d a imm g => Sys2Proof.Machine.execLdDMig d a imm g s
  | .stBMig d a imm g => Sys2Proof.Machine.execStBMig d a imm g s
  | .stHMig d a imm g => Sys2Proof.Machine.execStHMig d a imm g s
  | .stWMig d a imm g => Sys2Proof.Machine.execStWMig d a imm g s
  | .stDMig d a imm g => Sys2Proof.Machine.execStDMig d a imm g s
  | .pref a imm g => Sys2Proof.Machine.execPref a imm g s
  | .lde d a imm g => Sys2Proof.Machine.execLde d a imm g s
  | .ldf d a imm g => Sys2Proof.Machine.execLdf d a imm g s
  | .stf d a imm g => Sys2Proof.Machine.execStf d a imm g s
  | .sts d a imm g => Sys2Proof.Machine.execSts d a imm g s
  | .clre a imm g => Sys2Proof.Machine.execClre a imm g s
  | .arm d g => Sys2Proof.Machine.execArm d g s
  | .rfill d a b g => Sys2Proof.Machine.execRfill d a b g s
  | .aadd d a b g => Sys2Proof.Machine.execAadd d a b g s
  | .aminS d a b g => Sys2Proof.Machine.execAminS d a b g s
  | .aminN d a b g => Sys2Proof.Machine.execAminN d a b g s
  | .amaxS d a b g => Sys2Proof.Machine.execAmaxS d a b g s
  | .amaxN d a b g => Sys2Proof.Machine.execAmaxN d a b g s
  | .aand d a b g => Sys2Proof.Machine.execAand d a b g s
  | .aor d a b g => Sys2Proof.Machine.execAor d a b g s
  | .axor d a b g => Sys2Proof.Machine.execAxor d a b g s
  | .aswp d a b g => Sys2Proof.Machine.execAswp d a b g s
  | .acas d a b g => Sys2Proof.Machine.execAcas d a b g s
  | .afadd d a b g => Sys2Proof.Machine.execAfadd d a b g s
  | .pst a b g => Sys2Proof.Machine.execPst a b g s
  | .pstF a b g => Sys2Proof.Machine.execPstF a b g s
  | .waitaEq a b g => Sys2Proof.Machine.execWaitaEq a b g s
  | .waitaNe a b g => Sys2Proof.Machine.execWaitaNe a b g s
  | .waitaHs a b g => Sys2Proof.Machine.execWaitaHs a b g s
  | .waitaEqT d a b g => Sys2Proof.Machine.execWaitaEqT d a b g s
  | .waitaNeT d a b g => Sys2Proof.Machine.execWaitaNeT d a b g s
  | .waitaHsT d a b g => Sys2Proof.Machine.execWaitaHsT d a b g s
  | .fenceCore g => Sys2Proof.Machine.execFenceCore g s
  | .fenceDev g => Sys2Proof.Machine.execFenceDev g s
  | .fenceSys g => Sys2Proof.Machine.execFenceSys g s
  | .xfence a b g => Sys2Proof.Machine.execXfence a b g s
  | .chend g => Sys2Proof.Machine.execChend g s
  | .spawn d a b n g => Sys2Proof.Machine.execSpawn d a b n g s
  | .quit g => Sys2Proof.Machine.execQuit g s
  | .yield g => Sys2Proof.Machine.execYield g s
  | .hend g => Sys2Proof.Machine.execHend g s
  | .publ g => Sys2Proof.Machine.execPubl g s
  | .sdrop g => Sys2Proof.Machine.execSdrop g s
  | .join a b g => Sys2Proof.Machine.execJoin a b g s
  | .leave a g => Sys2Proof.Machine.execLeave a g s
  | .gbar a g => Sys2Proof.Machine.execGbar a g s
  | .migr a b g => Sys2Proof.Machine.execMigr a b g s
  | .send d a n g => Sys2Proof.Machine.execSend d a n g s
  | .watch d a g => Sys2Proof.Machine.execWatch d a g s
  | .unwatch a g => Sys2Proof.Machine.execUnwatch a g s
  | .launch d a g => Sys2Proof.Machine.execLaunch d a g s
  | .mzero x g => Sys2Proof.Machine.execMzero x g s
  | .mma x a b g => Sys2Proof.Machine.execMma x a b g s
  | .mring x a g => Sys2Proof.Machine.execMring x a g s
  | .mldb a g => Sys2Proof.Machine.execMldb a g s
  | .mstore x a g => Sys2Proof.Machine.execMstore x a g s
  | .maccLd x a g => Sys2Proof.Machine.execMaccLd x a g s
  | .maccAdd x a g => Sys2Proof.Machine.execMaccAdd x a g s
  | .mcfg r a g => Sys2Proof.Machine.execMcfg r a g s
  | .mget r a g => Sys2Proof.Machine.execMget r a g s
  | .snormClr g => Sys2Proof.Machine.execSnormClr g s
  | .snormA a b g => Sys2Proof.Machine.execSnormA a b g s
  | .snormB a b g => Sys2Proof.Machine.execSnormB a b g s
  | .sngetA a g => Sys2Proof.Machine.execSngetA a g s
  | .sngetB a g => Sys2Proof.Machine.execSngetB a g s
  | .snputA a g => Sys2Proof.Machine.execSnputA a g s
  | .snputB a g => Sys2Proof.Machine.execSnputB a g s
  | .salias g => Sys2Proof.Machine.execSalias g s
  | .sseed a g => Sys2Proof.Machine.execSseed a g s
  | .srun x a b g => Sys2Proof.Machine.execSrun x a b g s
  | .svar x a g => Sys2Proof.Machine.execSvar x a g s
  | .pload a b g => Sys2Proof.Machine.execPload a b g s
  | .pscore a g => Sys2Proof.Machine.execPscore a g s
  | .psel a g => Sys2Proof.Machine.execPsel a g s
  | .assay x a b g => Sys2Proof.Machine.execAssay x a b g s
  | .aread a b g => Sys2Proof.Machine.execAread a b g s
  | .vadd d a b m g => Sys2Proof.Machine.execVadd d a b m g s
  | .vsub d a b m g => Sys2Proof.Machine.execVsub d a b m g s
  | .vmul d a b m g => Sys2Proof.Machine.execVmul d a b m g s
  | .vfma d a b m g => Sys2Proof.Machine.execVfma d a b m g s
  | .vmin d a b m g => Sys2Proof.Machine.execVmin d a b m g s
  | .vmax d a b m g => Sys2Proof.Machine.execVmax d a b m g s
  | .vabs d a m g => Sys2Proof.Machine.execVabs d a m g s
  | .vneg d a m g => Sys2Proof.Machine.execVneg d a m g s
  | .vrndRne d a m g => Sys2Proof.Machine.execVrndRne d a m g s
  | .vrndRz d a m g => Sys2Proof.Machine.execVrndRz d a m g s
  | .vrndRd d a m g => Sys2Proof.Machine.execVrndRd d a m g s
  | .vrndRu d a m g => Sys2Proof.Machine.execVrndRu d a m g s
  | .vfexp2 d a m g => Sys2Proof.Machine.execVfexp2 d a m g s
  | .vscale d a b m g => Sys2Proof.Machine.execVscale d a b m g s
  | .vrcp d a m g => Sys2Proof.Machine.execVrcp d a m g s
  | .vrsq d a m g => Sys2Proof.Machine.execVrsq d a m g s
  | .vcmpEq d a b m g => Sys2Proof.Machine.execVcmpEq d a b m g s
  | .vcmpNe d a b m g => Sys2Proof.Machine.execVcmpNe d a b m g s
  | .vcmpLt d a b m g => Sys2Proof.Machine.execVcmpLt d a b m g s
  | .vcmpLe d a b m g => Sys2Proof.Machine.execVcmpLe d a b m g s
  | .vcmpGt d a b m g => Sys2Proof.Machine.execVcmpGt d a b m g s
  | .vcmpGe d a b m g => Sys2Proof.Machine.execVcmpGe d a b m g s
  | .vcmpUn d a b m g => Sys2Proof.Machine.execVcmpUn d a b m g s
  | .vcmpOr d a b m g => Sys2Proof.Machine.execVcmpOr d a b m g s
  | .vsel d a b m g => Sys2Proof.Machine.execVsel d a b m g s
  | .viadd d a b m g => Sys2Proof.Machine.execViadd d a b m g s
  | .visub d a b m g => Sys2Proof.Machine.execVisub d a b m g s
  | .vimul d a b m g => Sys2Proof.Machine.execVimul d a b m g s
  | .vand d a b m g => Sys2Proof.Machine.execVand d a b m g s
  | .vor d a b m g => Sys2Proof.Machine.execVor d a b m g s
  | .vxor d a b m g => Sys2Proof.Machine.execVxor d a b m g s
  | .vshl d a b m g => Sys2Proof.Machine.execVshl d a b m g s
  | .vshr d a b m g => Sys2Proof.Machine.execVshr d a b m g s
  | .vshrS d a b m g => Sys2Proof.Machine.execVshrS d a b m g s
  | .vrsum d a m g => Sys2Proof.Machine.execVrsum d a m g s
  | .vnzc d a m g => Sys2Proof.Machine.execVnzc d a m g s
  | .vnzb d a m g => Sys2Proof.Machine.execVnzb d a m g s
  | .vperm d a b m g => Sys2Proof.Machine.execVperm d a b m g s
  | .vslide k d a b m g => Sys2Proof.Machine.execVslide k d a b m g s
  | .vcvtF2i d a m g => Sys2Proof.Machine.execVcvtF2i d a m g s
  | .vcvtF2iRz d a m g => Sys2Proof.Machine.execVcvtF2iRz d a m g s
  | .vcvtI2f d a m g => Sys2Proof.Machine.execVcvtI2f d a m g s
  | .vcvtF2b d a m g => Sys2Proof.Machine.execVcvtF2b d a m g s
  | .vcvtB2f d a m g => Sys2Proof.Machine.execVcvtB2f d a m g s
  | .vcvtF2h d a m g => Sys2Proof.Machine.execVcvtF2h d a m g s
  | .vcvtH2f d a m g => Sys2Proof.Machine.execVcvtH2f d a m g s
  | .vld v a g => Sys2Proof.Machine.execVld v a g s
  | .vst v a g => Sys2Proof.Machine.execVst v a g s
  | .vlds v a b g => Sys2Proof.Machine.execVlds v a b g s
  | .vldx v a g => Sys2Proof.Machine.execVldx v a g s
  | .vldb v a b g => Sys2Proof.Machine.execVldb v a b g s
  | .vstb v a b g => Sys2Proof.Machine.execVstb v a b g s
  | .vputs v a g => Sys2Proof.Machine.execVputs v a g s
  | .vgets v a g => Sys2Proof.Machine.execVgets v a g s
  | .vcfg r a g => Sys2Proof.Machine.execVcfg r a g s
  | .vget r a g => Sys2Proof.Machine.execVget r a g s
  | .ccopy a b g => Sys2Proof.Machine.execCcopy a b g s
  | .cfill a g => Sys2Proof.Machine.execCfill a g s
  | .ctcopy a b g => Sys2Proof.Machine.execCtcopy a b g s
  | .cgather a b g => Sys2Proof.Machine.execCgather a b g s
  | .cscatter a b g => Sys2Proof.Machine.execCscatter a b g s
  | .ccopyF a b g => Sys2Proof.Machine.execCcopyF a b g s
  | .ccfg r a g => Sys2Proof.Machine.execCcfg r a g s
  | .cget r a g => Sys2Proof.Machine.execCget r a g s
  | .halloc a b g => Sys2Proof.Machine.execHalloc a b g s
  | .hfree a g => Sys2Proof.Machine.execHfree a g s
  | .hwiden a b g => Sys2Proof.Machine.execHwiden a b g s
  | .hpin a b g => Sys2Proof.Machine.execHpin a b g s
  | .hunpin a g => Sys2Proof.Machine.execHunpin a g s
  | .hstageA a b g => Sys2Proof.Machine.execHstageA a b g s
  | .hstageB a b g => Sys2Proof.Machine.execHstageB a b g s
  | .hstageNc a b g => Sys2Proof.Machine.execHstageNc a b g s
  | .hstageNr a b g => Sys2Proof.Machine.execHstageNr a b g s
  | .hinfo a b g => Sys2Proof.Machine.execHinfo a b g s
  | .hown a b g => Sys2Proof.Machine.execHown a b g s
  | .hsync a g => Sys2Proof.Machine.execHsync a g s
  | .hopRowsum a b g => Sys2Proof.Machine.execHopRowsum a b g s
  | .hopColsum a b g => Sys2Proof.Machine.execHopColsum a b g s
  | .hopScale a b g => Sys2Proof.Machine.execHopScale a b g s
  | .hopAddh a b g => Sys2Proof.Machine.execHopAddh a b g s
  | .hopMulh a b g => Sys2Proof.Machine.execHopMulh a b g s
  | .hopAxpy a b g => Sys2Proof.Machine.execHopAxpy a b g s
  | .hopFill a b g => Sys2Proof.Machine.execHopFill a b g s
  | .hopFillImg a b g => Sys2Proof.Machine.execHopFillImg a b g s
  | .hopTranspose a b g => Sys2Proof.Machine.execHopTranspose a b g s
  | .hopCopyin a b g => Sys2Proof.Machine.execHopCopyin a b g s
  | .hopCopyout a b g => Sys2Proof.Machine.execHopCopyout a b g s
  | .hopGrows a b g => Sys2Proof.Machine.execHopGrows a b g s
  | .hopSrows a b g => Sys2Proof.Machine.execHopSrows a b g s
  | .nmc a b g => Sys2Proof.Machine.execNmc a b g s
  | .nmload a b g => Sys2Proof.Machine.execNmload a b g s
  | .nmrow a b g => Sys2Proof.Machine.execNmrow a b g s
  | .nmstat a b g => Sys2Proof.Machine.execNmstat a b g s
  | .trap a g => Sys2Proof.Machine.execTrap a g s
  | .tret g => Sys2Proof.Machine.execTret g s
  | .mfs r a g => Sys2Proof.Machine.execMfs r a g s
  | .mts r a g => Sys2Proof.Machine.execMts r a g s
  | .mtsWdog a g => Sys2Proof.Machine.execMtsWdog a g s
  | .bkpt g => Sys2Proof.Machine.execBkpt g s
  | .idle g => Sys2Proof.Machine.execIdle g s
  | .idleT a g => Sys2Proof.Machine.execIdleT a g s
  | .tload a b g => Sys2Proof.Machine.execTload a b g s
  | .synci a b g => Sys2Proof.Machine.execSynci a b g s
  | .harvest a b g => Sys2Proof.Machine.execHarvest a b g s
  | .ctxswap a b g => Sys2Proof.Machine.execCtxswap a b g s
  | .nop => Sys2Proof.Machine.execNop s
  | .ill => Sys2Proof.Machine.execIll s
  | .hostLaunchWrite page off words => Sys2Proof.Machine.execHostLaunchWrite page off words s
  | .launchAdmission req => Sys2Proof.Machine.execLaunchAdmission req s
  | .threadPlacement => Sys2Proof.Machine.execThreadPlacement s
  | .localContextExchange core ctx => Sys2Proof.Machine.execLocalContextExchange core ctx s
  | .engineContextExchange core ctx => Sys2Proof.Machine.execEngineContextExchange core ctx s
  | .launchAgeing key => Sys2Proof.Machine.execLaunchAgeing key s
  | .dispatchPreemption => Sys2Proof.Machine.execDispatchPreemption s
  | .threadPreemption uid => Sys2Proof.Machine.execThreadPreemption uid s
  | .slotFill core => Sys2Proof.Machine.execSlotFill core s
  | .loadBalance core => Sys2Proof.Machine.execLoadBalance core s
  | .spawnPacketAccept p => Sys2Proof.Machine.execSpawnPacketAccept p s
  | .migrationDeparture uid owner mask => Sys2Proof.Machine.execMigrationDeparture uid owner mask s
  | .migrationArrival uid owner => Sys2Proof.Machine.execMigrationArrival uid owner s
  | .replyArrival uid reg value => Sys2Proof.Machine.execReplyArrival uid reg value s
  | .portWordDelivery core entry value ctl => Sys2Proof.Machine.execPortWordDelivery core entry value ctl s
  | .messageArrival core msg => Sys2Proof.Machine.execMessageArrival core msg s
  | .messageHandlerStart core => Sys2Proof.Machine.execMessageHandlerStart core s
  | .lightHandlerStart core => Sys2Proof.Machine.execLightHandlerStart core s
  | .chunkCommit uid => Sys2Proof.Machine.execChunkCommit uid s
  | .waitaTimeout uid stamp => Sys2Proof.Machine.execWaitaTimeout uid stamp s
  | .idleTimeout uid stamp => Sys2Proof.Machine.execIdleTimeout uid stamp s
  | .barrierRelease uid stamp => Sys2Proof.Machine.execBarrierRelease uid stamp s
  | .fullEmptyHomeAccess acc => Sys2Proof.Machine.execFullEmptyHomeAccess acc s
  | .remoteAccessArrival acc => Sys2Proof.Machine.execRemoteAccessArrival acc s
  | .atomicApply acc => Sys2Proof.Machine.execAtomicApply acc s
  | .rfillDelivery uid reg target value => Sys2Proof.Machine.execRfillDelivery uid reg target value s
  | .postedStoreApply core entry => Sys2Proof.Machine.execPostedStoreApply core entry s
  | .postedStoreAck core entry => Sys2Proof.Machine.execPostedStoreAck core entry s
  | .postedStoreRefusal core entry => Sys2Proof.Machine.execPostedStoreRefusal core entry s
  | .faultQueueResolution ctx page ok => Sys2Proof.Machine.execFaultQueueResolution ctx page ok s
  | .fenceCompletion uid scope => Sys2Proof.Machine.execFenceCompletion uid scope s
  | .xfenceCompletion uid ctx base len stamp => Sys2Proof.Machine.execXfenceCompletion uid ctx base len stamp s
  | .engineCommandStart core eng => Sys2Proof.Machine.execEngineCommandStart core eng s
  | .vectorCommandCompletion core => Sys2Proof.Machine.execVectorCommandCompletion core s
  | .matrixCommandCompletion core => Sys2Proof.Machine.execMatrixCommandCompletion core s
  | .mringStepStart core => Sys2Proof.Machine.execMringStepStart core s
  | .tileDelivery core => Sys2Proof.Machine.execTileDelivery core s
  | .copyCommandCompletion core => Sys2Proof.Machine.execCopyCommandCompletion core s
  | .handleCommandAdmission cmd => Sys2Proof.Machine.execHandleCommandAdmission cmd s
  | .handleOperationCompletion ctx hnum => Sys2Proof.Machine.execHandleOperationCompletion ctx hnum s
  | .dresserRedress ctx hnum => Sys2Proof.Machine.execDresserRedress ctx hnum s
  | .redressStart ctx hnum => Sys2Proof.Machine.execRedressStart ctx hnum s
  | .redressComplete ctx hnum => Sys2Proof.Machine.execRedressComplete ctx hnum s
  | .tloadBuildComplete core table => Sys2Proof.Machine.execTloadBuildComplete core table s
  | .nmProgramStart sett => Sys2Proof.Machine.execNmProgramStart sett s
  | .nmProgramStop sett state info => Sys2Proof.Machine.execNmProgramStop sett state info s
  | .nmrowStop sett => Sys2Proof.Machine.execNmrowStop sett s
  | .watchdogExpiry ctx => Sys2Proof.Machine.execWatchdogExpiry ctx s
  | .contextStart page => Sys2Proof.Machine.execContextStart page s
  | .contextStopDispatch page => Sys2Proof.Machine.execContextStopDispatch page s
  | .contextEnd page => Sys2Proof.Machine.execContextEnd page s
  | .hostWdogWrite page value => Sys2Proof.Machine.execHostWdogWrite page value s
  | .hostErrClear page => Sys2Proof.Machine.execHostErrClear page s
  | .hostMessagePush page off words => Sys2Proof.Machine.execHostMessagePush page off words s
  | .hostRegisterWrite off value => Sys2Proof.Machine.execHostRegisterWrite off value s
  | .translationInvalidation page => Sys2Proof.Machine.execTranslationInvalidation page s
  | .translationInvalidationComplete page => Sys2Proof.Machine.execTranslationInvalidationComplete page s
  | .debugHalt page value => Sys2Proof.Machine.execDebugHalt page value s
  | .debugView page uid => Sys2Proof.Machine.execDebugView page uid s
  | .debugResume page value => Sys2Proof.Machine.execDebugResume page value s
  | .debugDetach page => Sys2Proof.Machine.execDebugDetach page s
  | .faceFence mask => Sys2Proof.Machine.execFaceFence mask s
  | .faceFailure face => Sys2Proof.Machine.execFaceFailure face s
  | .faceReset mask => Sys2Proof.Machine.execFaceReset mask s
  | .freezeRequest => Sys2Proof.Machine.execFreezeRequest s
  | .freezeFaceTimeout face => Sys2Proof.Machine.execFreezeFaceTimeout face s
  | .freezeComplete => Sys2Proof.Machine.execFreezeComplete s
  | .freezeResume bad => Sys2Proof.Machine.execFreezeResume bad s
  | .attestationRequest => Sys2Proof.Machine.execAttestationRequest s
  | .hostCxlWrite off bytes => Sys2Proof.Machine.execHostCxlWrite off bytes s
  | .hostCxlRead off n => Sys2Proof.Machine.execHostCxlRead off n s
  | .remoteDeviceAccess dev rctx acc => Sys2Proof.Machine.execRemoteDeviceAccess dev rctx acc s
  | .helvenLinkLoss link => Sys2Proof.Machine.execHelvenLinkLoss link s
  | .linkLossTimeout dev => Sys2Proof.Machine.execLinkLossTimeout dev s
  | .stackLoss stack => Sys2Proof.Machine.execStackLoss stack s
  | .hostPortLoss port => Sys2Proof.Machine.execHostPortLoss port s
  | .thermalTrip cause face => Sys2Proof.Machine.execThermalTrip cause face s
  | .moduleReset => Sys2Proof.Machine.execModuleReset s
  | .throttleInterval limits => Sys2Proof.Machine.execThrottleInterval limits s
  | .activeBankLimitChange stack limit => Sys2Proof.Machine.execActiveBankLimitChange stack limit s
  | .ageingUpdate records => Sys2Proof.Machine.execAgeingUpdate records s
  | .scrubRead line outcome => Sys2Proof.Machine.execScrubRead line outcome s
  | .rowDisturbanceAlert sett row source => Sys2Proof.Machine.execRowDisturbanceAlert sett row source s
  | .refreshWindowEnd stack => Sys2Proof.Machine.execRefreshWindowEnd stack s
  | .coreCycle core => Sys2Proof.Machine.execCoreCycle core s
  | .overlayLoadComplete sett base => Sys2Proof.Machine.execOverlayLoadComplete sett base s
  | .debuggerRegisterWrite page uid reg value => Sys2Proof.Machine.execDebuggerRegisterWrite page uid reg value s
  | .bedLoss => Sys2Proof.Machine.execBedLoss s

end Sys2Proof.Machine
end

