-- ==== Sys2Proof/Machine/Fetch.lean ====
section
/-!
DEFINITION. What comes before an instruction at a thread's issue turn: traps that have arrived (R393), halts (R285), pre-emptions (R396),
the fetch of its words (R27, R100, R273, R275, R315) and their decoding; and which pending step of the device comes next.
-/
namespace Sys2Proof

/-- Where an instruction's own access to memory starts: its address register, or none for the constant window, the displacement in bytes, and the
guard (R137, R149, R309). None for an instruction that accesses no memory itself. -/
def Instr.access : Instr → Option (Option (BitVec 5) × Int × BitVec 5)
  | .const _ c g => some (none, 8 * c.toNat, g)
  | .ldB _ a i g => some (some a, i.toInt, g)
  | .ldBMig _ a i g => some (some a, i.toInt, g)
  | .stB _ a i g => some (some a, i.toInt, g)
  | .stBMig _ a i g => some (some a, i.toInt, g)
  | .ldH _ a i g => some (some a, 2 * i.toInt, g)
  | .ldHMig _ a i g => some (some a, 2 * i.toInt, g)
  | .stH _ a i g => some (some a, 2 * i.toInt, g)
  | .stHMig _ a i g => some (some a, 2 * i.toInt, g)
  | .ldW _ a i g => some (some a, 4 * i.toInt, g)
  | .ldWMig _ a i g => some (some a, 4 * i.toInt, g)
  | .stW _ a i g => some (some a, 4 * i.toInt, g)
  | .stWMig _ a i g => some (some a, 4 * i.toInt, g)
  | .ldD _ a i g => some (some a, 8 * i.toInt, g)
  | .ldDMig _ a i g => some (some a, 8 * i.toInt, g)
  | .stD _ a i g => some (some a, 8 * i.toInt, g)
  | .stDMig _ a i g => some (some a, 8 * i.toInt, g)
  | .lde _ a i g => some (some a, 8 * i.toInt, g)
  | .ldf _ a i g => some (some a, 8 * i.toInt, g)
  | .stf _ a i g => some (some a, 8 * i.toInt, g)
  | .sts _ a i g => some (some a, 8 * i.toInt, g)
  | .clre a i g => some (some a, 8 * i.toInt, g)
  | .aadd _ a _ g => some (some a, 0, g)
  | .aminS _ a _ g => some (some a, 0, g)
  | .aminN _ a _ g => some (some a, 0, g)
  | .amaxS _ a _ g => some (some a, 0, g)
  | .amaxN _ a _ g => some (some a, 0, g)
  | .aand _ a _ g => some (some a, 0, g)
  | .aor _ a _ g => some (some a, 0, g)
  | .axor _ a _ g => some (some a, 0, g)
  | .aswp _ a _ g => some (some a, 0, g)
  | .acas _ a _ g => some (some a, 0, g)
  | .afadd _ a _ g => some (some a, 0, g)
  | .pst a _ g => some (some a, 0, g)
  | .pstF a _ g => some (some a, 0, g)
  | .waitaEq a _ g => some (some a, 0, g)
  | .waitaNe a _ g => some (some a, 0, g)
  | .waitaHs a _ g => some (some a, 0, g)
  | .waitaEqT _ a _ g => some (some a, 0, g)
  | .waitaNeT _ a _ g => some (some a, 0, g)
  | .waitaHsT _ a _ g => some (some a, 0, g)
  | .watch _ a g => some (some a, 0, g)
  | .nmc a _ g => some (some a, 0, g)
  | .nmrow a _ g => some (some a, 0, g)
  | _ => none

end Sys2Proof

namespace Sys2Proof.Machine

/-! ## Before the fetch -/

/-- The first trap that has arrived and can be taken now: posted-store and execution traps wait for the end of a handler (R393). -/
def Thread.arrivedTrap (t : Thread) : Option (Nat × Word) :=
  t.async.find? (fun e : Nat × Word => !(decide (e.1 = 0x16) || decide (e.1 = 0x17)) || !t.inTrap)

/-- Takes the trap that has arrived: the chunk ends, and FPC is the instruction that would have been issued (R282). -/
def Act.takeArrived (cause : Nat) (fval : Word) : Act Unit := do
  Act.endChunk
  Act.modMe (fun t => { t with async := t.async.erase (cause, fval) })
  -- it issues another instruction now, and waits in no queue's list (R358)
  modify (fun s => s.leaveQueues s.cur)
  let t ← Act.me
  modify (fun s => s.enterTrap s.cur cause fval t.pc)
  Act.stop

/-- A halt at the issue turn (R285); a solo attempt gives its lines back and starts again, and a counted GBAR arrival is withdrawn
(R286). DEDUCED: log 76. -/
def Act.takeHalt : Act Unit := do
  modify (fun s =>
    match s.thread? s.cur with
    | none => s
    | some t =>
      let s := if t.alone then s.restartSolo s.cur else s
      (s.withdraw s.cur (fun _ => true)).haltThread s.cur)
  Act.stop

/-- What comes before the fetch, at the issue turn of a thread; sett cores are never halted (R408). -/
def Act.beforeFetch : Act Unit := do
  let t ← Act.me
  match (if t.settOn.isSome then none else t.arrivedTrap) with
  | some (k, v) => Act.takeArrived k v
  | none =>
    if t.haltReq && t.settOn.isNone then Act.takeHalt
    else if t.preempt && t.settOn.isNone then do
      modify (fun s => s.takeThread s.cur)
      Act.stop
    else pure ()

/-! ## The fetch -/

/-- One instruction word of a thread on a core: a word outside the global windows is an illegal word; its page may hold the thread; a
poisoned line is reported (R110, R315, R316, R422). DEDUCED: log 12. -/
def Act.codeWord (va : Nat) : Act Half := do
  let t ← Act.me
  let s ← get
  if 14 ≤ windowOf va then Act.fault 0x01 (BitVec.ofNat 64 (2 ^ 63 + t.pc))
  else
    match s.globalSpot t.attr.ctx va .ex with
    | .absent => Act.hold va
    | .bad k => Act.fault k (BitVec.ofNat 64 va)
    | .global e loc => do
      Act.clean va loc
      modify (fun s => s.useEntry e false)
      let s ← get
      pure (BitVec.ofNat 32 (Store.read s.mem loc 4))
    | .near loc => pure (BitVec.ofNat 32 (Store.read s.mem loc 4))
    | .remote _ loc => pure (BitVec.ofNat 32 (Store.read s.mem loc 4))

/-- The program of a near-memory command stops at its fetch. -/
def Act.stopProgram (n state at' : Nat) : Act Half := do
  Act.modMe (fun t => { t with wait := .reply })
  modify (fun s => s.push (.nmProgramStop n state (BitVec.ofNat 64 at')))
  Act.stop

/-- The overlay in which a thread of a sett core can run: a program's own, and a migrated thread's when it is the image of its context
(R275). -/
def State.overlayFor (s : State) (n : Nat) (t : Thread) : Option Nat :=
  match (s.sett n).ovl with
  | some b => if t.program || decide ((s.sett n).ovlFrom = s.imageLines t.attr.ctx b) then some b else none
  | none => none
/-- The instruction word that stands at an address of a context, where it is mapped. -/
def State.wordOf (s : State) (ctx va : Nat) : Option Half :=
  match s.globalSpot ctx va .rd with
  | .global _ l => some (BitVec.ofNat 32 (Store.read s.mem l 4))
  | _ => none

/-- One instruction word on a sett core (R273, R275): the overlay's. Past its end, an instruction that was fallen into or whose words pass
it stops a program with STATE 3 and sends a migrated thread back, with the instruction's word; a transfer or an arrival there is an overlay
miss. DESIGN CHOICE: log 86. -/
def Act.overlayWord (n va : Nat) : Act Half := do
  let t ← Act.me
  let s ← get
  match s.overlayFor n t with
  | some b =>
    if b ≤ va ∧ va < b + 4096 then pure (BitVec.ofNat 32 (Store.read (s.sett n).code (va - b) 4))
    else if va ≠ t.pc ∨ (va = b + 4096 ∧ t.ilen ≠ 0) then
      if t.program then Act.stopProgram n 3 t.pc
      else
        let (f, s) : Word × State := if va ≠ t.pc then (s.iword.setWidth 64, s) else
          match s.wordOf t.attr.ctx va with
          | some w => (w.setWidth 64, s)
          | none =>
            let (v, s) := s.freeWord
            ((v.setWidth 32).setWidth 64, s)
        do
          set (s.carryBack s.cur (some (0x01, f)))
          Act.stop
    else if t.program then Act.stopProgram n 4 t.pc
    else do
      modify (fun s => s.overlayMiss s.cur n t)
      Act.stop
  | none => do
    if t.program then Act.stopProgram n 4 t.pc
    else do
      modify (fun s => s.overlayMiss s.cur n t)
      Act.stop

/-- One instruction word, wherever the thread runs. -/
def Act.word (va : Nat) : Act Half := do
  let t ← Act.me
  match t.settOn with
  | some n => Act.overlayWord n va
  | none => Act.codeWord va

/-- The instruction of the thread whose turn it is: its word, its literal words (R107), and their meaning; an illegal word is reported (R110),
after the literal words have been read. DESIGN CHOICE: log 120. -/
noncomputable def Act.fetch : Act Instr := do
  let t ← Act.me
  let w ← Act.word t.pc
  modify (fun s : State => { s with iword := w })
  let n := wordCount w
  let l1 ← if 1 < n then Act.word (t.pc + 4) else pure 0#32
  let l2 ← if 2 < n then Act.word (t.pc + 8) else pure 0#32
  match decode w l1 l2 with
  | some i => pure i
  | none => Act.illegal

/-- Everything before the instruction takes effect. -/
noncomputable def Act.prepare : Act Instr := do
  Act.beforeFetch
  Act.fetch

/-! ## Turns -/

/-- Whether a turn that was given can still be taken. -/
def State.canIssue (s : State) (u : Nat) : Bool :=
  match s.thread? u with
  | none => false
  | some t => t.inRotation && (match t.place with
    | .slot c _ => !s.coreFenced c
    | .sett _ => true
    | _ => false)

/-! ## The banks of local memory (R30, R309) -/

/-- Whether an instruction accesses its core's local memory itself. -/
def State.usesBank (s : State) (t : Thread) (i : Instr) : Bool :=
  match i.access with
  | none => false
  | some (a, off, g) =>
    let base : Word := match a with
      | none => BitVec.ofNat 64 (15 * 2 ^ 44)
      | some r => if isPort r then ((s.wordsFor t t.core r.toNat).headD (0#64, false)).1 else (t.reg r.toNat).val
    t.guard g && !isRef base && ownLocal t.core ((base.toNat % 2 ^ 48 : Nat) + off).toNat

/-- Whether the instruction of the thread whose turn it is loses its bank of local memory to an engine at work (R30, R309): at which cycles an
engine uses which bank, the spec does not say. DESIGN CHOICE: log 27. -/
def State.losesBank (s : State) (i : Instr) : Bool × State :=
  match s.thread? s.cur with
  | none => (false, s)
  | some t =>
    if t.settOn.isNone && (s.core t.core).atWork && s.usesBank t i then
      let (k, s) := s.choose 2
      (decide (k = 1), if k = 1 then s.count t.core 2 1 else s)
    else (false, s)

/-! ## Which step of the device comes next -/

/-- The next step at the end of a core's cycle (R359): its freed slots are filled, then its handler slot. -/
def State.closing (s : State) : Option Event × State :=
  match s.ending with
  | none => (none, s)
  | some c =>
    let fill (e : Event) : Bool := decide (e = .slotFill c)
    let mine (e : Event) : Bool := decide (e.closes = some c)
    match (if s.device.still ∨ s.inReset then none else (s.pending.find? fill).orElse (fun _ => s.pending.find? mine)) with
    | some e => (some e, { s with pending := s.pending.erase e })
    | none => (none, { s with ending := none })

/-- The pending step at an index, or an earlier one of its lane. DESIGN CHOICE: log 1. -/
def laneHead (l : List Event) (k : Nat) : Option Event :=
  match l[k]? with
  | none => none
  | some e => l.find? (fun d => decide (d.lane = e.lane))

/-- The first step that is due at its cycle (R40, R356). -/
def State.due (s : State) : Option (Nat × Event) :=
  if s.device.still ∨ s.inReset then none else s.timers.find? (fun t : Nat × Event => decide (t.1 ≤ s.cycle))

/-- Whether a step of the device comes next, and which: between two cycles of the cores, so that what arrives in a cycle comes before the issue
choices of it (R359), a due one; else a pending one, of which the device itself decides how long each is under way.
DESIGN CHOICE: log 1, 2, 11. -/
def State.nextPending (s : State) : Option Event × State :=
  if s.scan ≠ 0 then (none, s) else
  match s.due with
  | some t => (some t.2, { s with timers := s.timers.erase t })
  | none =>
  let l := if s.inReset then s.pending.filter Event.resets
    else if s.device.still then s.pending.filter Event.whileFrozen
    else s.pending.filter (fun e => e.closes.isNone)
  match l with
  | [] => (none, s)
  | _ =>
    let (k, s) := s.choose (l.length + 1)
    match laneHead l k with
    | none => (none, s)
    | some e => (some e, { s with pending := s.pending.erase e })

/-! ## Placing an instruction -/

/-- The thread that a placed instruction runs in: all 28 registers, at address 0x10000 of context 0, in slot 0 of core 0.
DESIGN CHOICE: log 10. -/
def placedThread (co : Nat) : Thread :=
  Thread.fresh (.slot 0 0)
    { ctx := 0, header := 0, handler := 0, mask := 0#28, seq := 0, tid := 0#32, count := 28, prio := 0, isSealed := false, restart := false }
    0x10000 0#64 co

/-- The translation of its page: a frame of this device with every permission. DESIGN CHOICE: log 10. -/
def placedEntry (devid : BitVec 12) : TEntry :=
  ⟨0, 1, devid.toNat * 2 ^ 40, false, true, true, true, 2, 0, 0x8000000000000000#64, 0⟩

/-- Places 12 bytes of instruction words, as a launch from outside would have, and gives their thread the next turn.
DESIGN CHOICE: log 10. -/
def State.place (s : State) (v : Nat) : State :=
  let e := placedEntry s.device.devid
  let e : TEntry := { e with slice := s.homeSlice e 0x10000 }
  let loc := s.placeIn e 0x10000
  let u := s.nextUid
  { s with
    mem := Store.write s.mem loc 12 v
    poison := Store.put s.poison (loc / 64) 0#1
    lostStacks := s.lostStacks.filter (fun k => decide (k ≠ settOf loc / 64))
    tcache := e :: s.tcache
    threads := Tab.insert (s.threads.filter (fun t : Nat × Thread => decide (t.2.place ≠ .slot 0 0))) u (placedThread s.co)
    nextUid := u + 1
    device := { s.device with fenced := s.device.fenced &&& 0xFE#8, boot := if s.inReset then 0x80#8 else s.device.boot }
    bedLost := false
    turns := [u] }

end Sys2Proof.Machine
end

