-- ==== Sys2Proof/Machine/Step.lean ====
section
/-!
DEFINITION. One step of the device: a thread's issue turn that has been given, else what ends the cycle of a core, else a pending step of the
device, else the cycle of the next core. A device that has lost its Bed only resumes or resets (R26).
-/
namespace Sys2Proof.Machine

/-- An issue turn of thread `u`: what comes before the instruction may end it, and so does a bank lost to an engine, which forfeits the turn
(R30); otherwise the instruction is executed. DESIGN CHOICE: log 1, 27. -/
noncomputable def turn (u : Nat) (s : State) : Host.Outcome State Fault Refusal :=
  if s.canIssue u then
    match Act.prepare { s with cur := u } with
    | .ok i s =>
      match s.losesBank i with
      | (true, s) => .next s
      | (false, s) => exec i s
    | .error _ s => .next s
  else .next s

/-- One step. DESIGN CHOICE: log 1. -/
noncomputable def step (s : State) : Host.Outcome State Fault Refusal :=
  if s.bedLost then
    match s.pending.find? Event.withoutBed with
    | some e => exec e.instr { s with pending := s.pending.erase e }
    | none => .fault .deviceStopped
  else
    match s.turns with
    | u :: rest => turn u { s with turns := rest }
    | [] =>
      match s.closing with
      | (some e, s) => exec e.instr s
      | (none, s) =>
        match s.nextPending with
        | (some e, s) => exec e.instr s
        | (none, s) => exec (.coreCycle s.scan) s

/-- The state with the instruction of an opcode table's row, literal words zero, placed where the next step fetches.
DESIGN CHOICE: log 10. -/
def State.withFetchWord (s : State) (nbits w : Nat) : State := s.place (w % 2 ^ nbits)

end Sys2Proof.Machine
end

