-- ==== Sys2Proof/Safety.lean ====
section
/-!
DEFINITION. What counts as a safe state and a safe run, in the terms the statements use: the invariant, the conditions under which
an instruction takes its effect, and the state of its thread before and after it.
-/
namespace Sys2Proof.Machine

/-- The tables of a device are in canonical form: the bytes of its memory, its full/empty bits (R150), and its threads and cores by
number. -/
def Dev.Canon (d : Dev) : Prop :=
  Memory.wf d.mem ∧ Tab.wf 0#1 d.empty = true ∧ Tab.rising d.threads = true ∧ Tab.rising d.cores = true
/-- The device, and the image of it that the host holds, have their tables in canonical form. -/
def State.Inv (s : State) : Prop := s.toDev.Canon ∧ ∀ d, s.frozen = some d → d.Canon

/-! ## The thread whose turn it is -/

/-- The state with the thread whose turn it is replaced. -/
def State.withThread (s : State) (t : Thread) : State := { s with threads := Tab.insert s.threads s.cur t }

/-- The value of a register field. -/
def Thread.val (t : Thread) (r : BitVec 5) : Word := (t.reg r.toNat).val
/-- The value of source B (R107, R125). -/
def Thread.source (t : Thread) : Src → Word
  | .reg r => t.val r
  | .lit32 v => v.signExtend 64
  | .lit64 v => v
/-- The registers of some fields are full (R48). -/
def Thread.Holds (t : Thread) (rs : List (BitVec 5)) : Prop := ∀ r ∈ rs, (t.reg r.toNat).full = true
/-- The word `x` gives an access its address: the packet of its .mig instruction brought it (R45), or register A holds it. -/
def Thread.Base (t : Thread) (mig : Bool) (a : BitVec 5) (x : Word) : Prop :=
  t.brought mig = some x ∨ (t.brought mig = none ∧ t.Holds [a] ∧ x = t.val a)
/-- The thread owns the registers of some fields, and none of them is a port (R105). -/
def Thread.Owns (t : Thread) (rs : List (BitVec 5)) : Prop := ∀ r ∈ rs, r.toNat < 28 ∧ r.toNat < t.attr.count

/-- The thread with its instruction of `len` bytes begun inside its chunk; an idle chunk starts here (R50). -/
def Thread.opened (t : Thread) (co len : Nat) : Thread :=
  { t with ilen := len, chunk := if t.settOn.isNone && t.chunk.idle then t.reopen co else t.chunk }
/-- The thread past an instruction of its chunk (R49). -/
def Thread.passed (t : Thread) : Thread :=
  { t with pc := (t.pc + t.ilen) % 2 ^ 48, chunk := { t.chunk with count := t.chunk.count + 1 } }
/-- The thread at the target of a transfer of its chunk. -/
def Thread.jumped (t : Thread) (target : Nat) : Thread :=
  { t with pc := target, ilen := 0, chunk := { t.chunk with count := t.chunk.count + 1 } }
/-- The thread after an instruction of its chunk, which may have been a taken transfer. -/
def Thread.moved (t : Thread) : Option Nat → Thread
  | some n => t.jumped n
  | none => t.passed
/-- The thread with an instruction of `len` bytes begun that ends its chunk before it. -/
def Thread.begun (t : Thread) (len : Nat) : Thread := { t with ilen := len }
/-- The thread past such an instruction. -/
def Thread.done (t : Thread) (len : Nat) : Thread := { t with pc := (t.pc + len) % 2 ^ 48 }
/-- The thread with the bytes of a store buffered in its chunk (R50, R153): newer bytes stand before older ones of their address. -/
def Thread.buffered (t : Thread) (es : List WEntry) : Thread :=
  { t with chunk := { t.chunk with writes := es ++ t.chunk.writes.filter (fun w => !es.any (fun e => decide (e.va = w.va))) } }
/-- Whether a chunk and a footprint have room for some bytes (R49, R54). -/
def Thread.Takes (t : Thread) (es : List WEntry) : Prop :=
  ({ t.chunk with writes := es ++ t.chunk.writes } : Chunk).words ≤ 64 ∧ (t.attr.isSealed = true → t.footOver es = false)
/-- The thread parked at its instruction (R32). -/
def Thread.parked (t : Thread) (w : Wait) : Thread := { t with wait := w, stamp := t.stamp + 1 }
/-- The state in which the thread is parked: its core counts it (R383). -/
def State.waits (s : State) (t : Thread) (w : Wait) : State :=
  match t.place with
  | .slot c _ => (s.withThread (t.parked w)).count c 7 1
  | _ => s.withThread (t.parked w)
/-- The register awaits its result (R48). -/
def Thread.awaits (t : Thread) (r : BitVec 5) : Thread := t.putReg r.toNat { t.reg r.toNat with pend := true }
/-- Writes a predicate (R126). -/
def Thread.setPred (t : Thread) (k : BitVec 4) (v : Bool) : Thread :=
  { t with preds := if v then t.preds ||| (1#16 <<< k.toNat) else t.preds &&& ~~~(1#16 <<< k.toNat) }
/-- Sets sticky flags of FFLAGS (R68). -/
def Thread.flagged (t : Thread) (f : Flags) : Thread := { t with fflags := t.fflags ||| (f &&& 0x17#6).setWidth 64 }

/-- The targets a transfer may go to (R143). -/
def LegalTarget (n : Int) : Prop := 0 ≤ n ∧ n < 2 ^ 48 ∧ n % 4 = 0 ∧ n / 2 ^ 44 < 14
/-- The thread after an instruction of `len` bytes of its chunk that writes `v` to D. -/
def Thread.wrote (t : Thread) (co len : Nat) (d : BitVec 5) (v : Word) : Thread := ((t.opened co len).setReg d.toNat v).passed

/-- An instruction inside a chunk need not wait and does not end it: the chunk has room for one more after it (R49), and a solo one does not begin
while another is at the arbiters (R328). -/
abbrev Thread.Roomy (t : Thread) : Prop :=
  t.settOn.isSome = true ∨ (t.chunk.count + 1 < t.limit ∧ (t.solo && t.prev.isSome) = false)
/-- The thread whose turn it is may run an instruction inside its chunk: it owns the registers of the fields, its guard holds,
and the chunk has room. -/
structure Inside (s : State) (t : Thread) (fields : List (BitVec 5)) (g : BitVec 5) : Prop where
  here  : s.thread? s.cur = some t
  owns  : t.Owns fields
  guard : t.guard g = true
  room  : t.Roomy

/-- The same for an instruction that ends the chunk before it, on a general core: the chunk has committed, which leaves `s₁`
and the thread `t` there (R329). Fields may name ports. -/
structure Closed (s s₁ : State) (t : Thread) (fields : List (BitVec 5)) (len : Nat) (g : BitVec 5) : Prop where
  before : ∃ t₀, s.thread? s.cur = some t₀ ∧ t₀.settOn = none ∧ (∀ r ∈ fields, t₀.beyond r = false) ∧ t₀.guard g = true ∧
    (s.withThread (t₀.begun len)).commitAll s.cur = (.done, s₁)
  here   : s₁.thread? s₁.cur = some t
  length : t.ilen = len
  guard  : t.guard g = true

/-- The same for an instruction whose fields name no port, and whose source registers are full. -/
structure Ends (s s₁ : State) (t : Thread) (fields sources : List (BitVec 5)) (len : Nat) (g : BitVec 5) : Prop
    extends Closed s s₁ t fields len g where
  regs : fields.any isPort = false
  full : t.Holds sources

/-- A word's full bit set or cleared as one event of the commit order (R159, R324). -/
def State.bitEvent (s : State) (loc : Nat) (f : Bool) : State :=
  { s.setFull (loc / 8) f with co := s.co + 1, stamps := Tab.insert s.stamps (loc / 8) (s.co + 1) }
/-- Whether an address is the thread's own local memory, in either spelling (R305). -/
def Thread.OwnLocal (t : Thread) (va : Nat) : Prop :=
  t.core < Config.cores ∧ (windowOf va = 15 ∨ (windowOf va = 14 ∧ va / 2 ^ 16 % 2 ^ 14 = t.core))
/-- The place of an own-local address. -/
def Thread.localPlace (t : Thread) (va : Nat) : Nat := localLoc t.core (va % 2 ^ 16)
/-- Memory differs at most in the `n` bytes from `loc` up. -/
def SameBut (m m' : List Host.Cell) (loc n : Nat) : Prop := ∀ a, a < loc ∨ loc + n ≤ a → Store.get m' a = Store.get m a

/-- An access of thread `u` on its way to a word. -/
def Thread.access (t : Thread) (u : Nat) (kind : AccessKind) (reg : BitVec 5) (va loc size : Nat) (data expd : Word) : Access where
  kind := kind
  uid := u
  reg := reg
  ctx := t.attr.ctx
  core := t.core
  va := va
  loc := loc
  size := size
  fmt := 0
  data := data
  expd := expd
  pc := t.pc
/-- A checked address leads to a place: near, at another core that serves the thread, or in a page, whose translation is then remembered
(R304, R305, R315). -/
def State.Leads (s s' : State) (t : Thread) (va : Nat) (p : Perm) (loc : Nat) : Prop :=
  (s.spot t va p false = .near loc ∧ s' = s) ∨ (∃ c, s.spot t va p false = .remote c loc ∧ s' = s) ∨
  ∃ e, s.spot t va p false = .global e loc ∧ s' = s.useEntry e (decide (p = .wr))

/-- The state after an instruction that ended its chunk, with the thread `t` past it: its context has made progress (R388). -/
def State.pastEnd (s : State) (t : Thread) (len : Nat) : State := (s.withThread (t.done len)).progress t.attr.ctx

/-- The packet of a SPAWN of thread `u` (R170, R36): the registers of the run with their values and full bits. -/
def Thread.childPacket (t : Thread) (u core start : Nat) (run : List (BitVec 5)) : SpawnPacket where
  parent := u
  core := core
  start := start
  attr := t.attr
  tvec := t.tvec
  run := run.map (fun r => (r.toNat, (t.reg r.toNat).val, (t.reg r.toNat).full))
  held := t.attr.isSealed
  pc := t.pc
/-- The request of a LAUNCH (R178): the address of its record as the Bed reads it. -/
def Thread.request (t : Thread) (u : Nat) (d : BitVec 5) (va : Nat) : LaunchReq where
  ctx := t.attr.ctx
  words := []
  dev := true
  uid := u
  reg := d
  core := t.core
  addr := if windowOf va = 15 then 14 * 2 ^ 44 + t.core * 2 ^ 16 + va % 2 ^ 16 else va
  pc := t.pc
  held := false
/-- The message of a SEND (R175): its sender's device, slot and core. -/
def Thread.message (t : Thread) (dev : Nat) (words : List Word) : Message where
  ctx := t.attr.ctx
  sender := BitVec.ofNat 64 (dev * 2 ^ 32 + t.slot * 2 ^ 20 + t.core)
  words := words
/-- The state with one more watch (R176). -/
def State.watching (s : State) (w : Watch) : State := { s with watches := s.watches ++ [w], nextWatch := (s.nextWatch + 1) % 2 ^ 32 }
/-- The thread published: it goes on unsealed, with nothing held (R54). -/
def Thread.published (t : Thread) : Thread :=
  { t with attr := { t.attr with isSealed := false, restart := false }, foot := [], footFull := [], held := [], allocs := [], copied := 0 }
/-- An instruction of an engine on a general core may take a queue entry: the engine state carries the thread's context, the queue has
room and nobody waits for it (R183, R299). -/
structure Engages (s s₁ : State) (t : Thread) (fields sources : List (BitVec 5)) (g : BitVec 5) (e : Engine) : Prop
    extends Ends s s₁ t fields sources 4 g where
  general : t.settOn = none
  canon   : s₁.Inv
  tag     : (s₁.core t.core).etag = some t.attr.ctx
  free    : ((s₁.core t.core).queue e).length < 2
  first   : (s₁.core t.core).qwait e = []
/-- A command that owns and reads some lines of addresses has entered an engine's queue of the thread's core, and nothing else has changed
but the thread, the core's counters, the records of the pages it names (R292) and the progress of the context: an idle engine starts
(R183, R184). -/
structure Admitted (s s' : State) (t : Thread) (e : Engine) (cmd : Cmd) (dst src : List Nat) : Prop where
  core   : ∃ perf, s'.core t.core = { (s.core t.core).setCmds e ((s.core t.core).queue e ++ [cmd]) with perf := perf }
  cores  : ∀ k, k ≠ t.core → s'.core k = s.core k
  starts : s'.pending = s.pending ++ (if ((s.core t.core).queue e).isEmpty then [.engineCommandStart t.core e] else [])
  others : ∀ u, u ≠ s.cur → s'.thread? u = s.thread? u
  pages  : s'.ctxs = s.ctxs ∨ s'.ctxs = (s.restartDog t.attr.ctx).ctxs
  rest   : s' = { (s.usePages t.attr.ctx dst true).usePages t.attr.ctx src false with
    co := s.co + 1, cores := s'.cores, pending := s'.pending, threads := s'.threads, ctxs := s'.ctxs }
/-- The thread past a form whose register awaits the engine (R186). -/
def Thread.expects (t : Thread) (r : BitVec 5) : Thread := t.putReg r.toNat ⟨0#64, false, false, true⟩
/-- A span that a form reaches from a pointer passes its checks (R149, R305). -/
def State.OpenExtent (s : State) (t : Thread) (p : Perm) (a : Word) (unit n : Nat) : Prop :=
  ∃ va, checkAddr a 0 unit false = .ok va ∧ va + n ≤ 2 ^ 48 ∧ spanWhole va n = true ∧ ∀ k, s.coreSpot t.core t.attr.ctx va p ≠ .bad k
/-- A decode table that a format names, if any, is not being built (R74). -/
def State.TableReady (s : State) (t : Thread) (code : Nat) : Prop :=
  ∀ k n, elemTable code = some (k, n) → (s.core t.core).eng.building.contains k = false

/-- The command that a handle form sends to the handle table (R262): its result register, or 31, and its operands. -/
def Thread.command (t : Thread) (u : Nat) (op : HandleOp) (reg : BitVec 5) (a b : Word) : HandleCmd where
  op := op
  uid := u
  ctx := t.attr.ctx
  core := t.core
  reg := reg
  a := a
  b := b
  index := 0
  size := 0
  data := 0#64
  pc := t.pc
  held := false
  seq := t.attr.seq
  tid := t.attr.tid.toNat
/-- Some handles apart, the state is the same but for what waits, the counters and the progress of a context. -/
def State.SameMemory (s s' : State) : Prop := s'.mem = s.mem ∧ s'.empty = s.empty ∧ s'.cores = s.cores ∧ s'.setts = s.setts

/-- The chunk of a thread has ended: none is at the arbiters and the open one is idle. -/
def Thread.Ended (t : Thread) : Prop := t.prev = none ∧ t.chunk.idle = true

end Sys2Proof.Machine
end

