-- ==== Sys2Proof/Certificates/Slice0/Obligations.lean ====
section
/-!
DEFINITION. The statements for the provers: what the instructions and the device's own steps do, what they leave alone, how words decode,
and what every step keeps.
-/
open Sys2Proof Sys2Proof.Machine

/-- Inside a chunk, each two-source integer form with full sources (any register, literal or repeated register) completes: D becomes the result of R130 and R89 modulo 2^64, the pc passes the instruction, and the rest of the state is unchanged. Inside a chunk, each immediate form and MOV with immediate completes: D becomes the operation of a and the sign-extended immediate, and the rest of the state is unchanged. -/
def Obligations.IntegerAndImmediateResults : Prop :=
  (
    ∀ (s : State) (t : Thread) (d a : BitVec 5) (b : Src) (g : BitVec 5),
      Inside s t (d :: a :: b.fields) g → t.Holds (a :: b.fields) →
      let x := t.val a
      let y := t.source b
      let n := y.toNat % 64
      ∀ p ∈ ([(.add d a b g, x + y), (.sub d a b g, x - y), (.mul d a b g, x * y),
          (.mulhS d a b g, BitVec.ofInt 64 (x.toInt * y.toInt / 2 ^ 64)), (.mulhN d a b g, BitVec.ofNat 64 (x.toNat * y.toNat / 2 ^ 64)),
          (.divS d a b g, if y = 0#64 then BitVec.allOnes 64 else BitVec.ofInt 64 (x.toInt.tdiv y.toInt)),
          (.divN d a b g, if y = 0#64 then BitVec.allOnes 64 else BitVec.ofNat 64 (x.toNat / y.toNat)),
          (.remS d a b g, if y = 0#64 then x else BitVec.ofInt 64 (x.toInt.tmod y.toInt)),
          (.remN d a b g, if y = 0#64 then x else BitVec.ofNat 64 (x.toNat % y.toNat)),
          (.minS d a b g, if y.toInt < x.toInt then y else x), (.minN d a b g, if y.toNat < x.toNat then y else x),
          (.maxS d a b g, if x.toInt < y.toInt then y else x), (.maxN d a b g, if x.toNat < y.toNat then y else x),
          (.and d a b g, x &&& y), (.or d a b g, x ||| y), (.xor d a b g, x ^^^ y), (.andn d a b g, x &&& ~~~y),
          (.shl d a b g, x <<< n), (.shr d a b g, x >>> n), (.sar d a b g, x.sshiftRight n),
          (.rol d a b g, x.rotateLeft n)] : List (Instr × Word)),
        exec p.1 s = .next (s.withThread (t.wrote s.co b.len d p.2))) ∧
  (
    ∀ (s : State) (t : Thread) (d a : BitVec 5) (i : BitVec 10) (g : BitVec 5),
      let x := t.val a
      let y : Word := i.signExtend 64
      let n := y.toNat % 64
      (Inside s t [d, a] g → t.Holds [a] →
        ∀ p ∈ ([(.addImm d a i g, x + y), (.andImm d a i g, x &&& y), (.orImm d a i g, x ||| y), (.xorImm d a i g, x ^^^ y),
            (.shlImm d a i g, x <<< n), (.shrImm d a i g, x >>> n), (.sarImm d a i g, x.sshiftRight n),
            (.rolImm d a i g, x.rotateLeft n), (.mulImm d a i g, x * y)] : List (Instr × Word)),
          exec p.1 s = .next (s.withThread (t.wrote s.co 4 d p.2))) ∧
      (Inside s t [d] g → exec (.movImm d i g) s = .next (s.withThread (t.wrote s.co 4 d y))))

/-- Inside a chunk, each one-source form but MOV.CTL, EXT, EXT.s, INS and SEL completes with the result of R133, R134 and R135: the counts of leading and trailing zeros name the first and last bit that is set, and are 64 when none is, bit i of BREV is bit 63 - i, EXT takes (a div 2^pos) mod 2^w, INS replaces the field of d, and SEL takes a when pk differs from the negate bit. -/
def Obligations.UnaryAndFieldResults : Prop :=
  ∀ (s : State) (t : Thread) (d a : BitVec 5) (b : Src) (k : BitVec 4) (n : BitVec 1) (g : BitVec 5),
    let x := t.val a
    let y := t.source b
    let pos := y.toNat % 64
    let w := min (if y.toNat / 256 % 64 = 0 then 64 else y.toNat / 256 % 64) (64 - pos)
    let fld := x.toNat / 2 ^ pos % 2 ^ w
    (Inside s t (d :: b.fields) g → t.Holds b.fields →
      ∀ p ∈ ([(.mov d b g, y), (.neg d b g, 0 - y), (.abs d b g, if y.toInt < 0 then 0 - y else y),
          (.clz d b g, countLead y), (.ctz d b g, countTrail y), (.popc d b g, popCount y), (.brev d b g, bitReverse y)] : List (Instr × Word)),
        exec p.1 s = .next (s.withThread (t.wrote s.co b.len d p.2))) ∧
    (Inside s t (d :: a :: b.fields) g → t.Holds (a :: b.fields) →
      exec (.ext d a b g) s = .next (s.withThread (t.wrote s.co b.len d (BitVec.ofNat 64 fld))) ∧
      exec (.extS d a b g) s = .next (s.withThread (t.wrote s.co b.len d
        (if 2 ^ w ≤ 2 * fld then BitVec.ofInt 64 (fld - 2 ^ w : Int) else BitVec.ofNat 64 fld))) ∧
      (t.Holds [d] → ∃ v : Word, exec (.ins d a b g) s = .next (s.withThread (t.wrote s.co b.len d v)) ∧
        ∀ j, j < 64 → v.getLsbD j = if pos ≤ j ∧ j < pos + w then x.getLsbD (j - pos) else (t.val d).getLsbD j) ∧
      exec (.sel d a b k n g) s = .next (s.withThread (t.wrote s.co b.len d
        (if t.pred k.toNat != decide (n = 1#1) then x else y)))) ∧
    (∀ j, j < 64 → (bitReverse y).getLsbD j = y.getLsbD (63 - j)) ∧
    (countLead y).toNat ≤ 64 ∧ (∀ j, 64 - (countLead y).toNat ≤ j → y.getLsbD j = false) ∧
      (y ≠ 0#64 → y.getLsbD (63 - (countLead y).toNat) = true) ∧ countLead 0#64 = 64#64 ∧ countTrail 0#64 = 64#64 ∧
    (countTrail y).toNat ≤ 64 ∧ (∀ j, j < (countTrail y).toNat → y.getLsbD j = false) ∧
      (y ≠ 0#64 → y.getLsbD (countTrail y).toNat = true) ∧
    (popCount y).toNat = ((List.range 64).filter (fun j => y.getLsbD j)).length

/-- Inside a chunk, CMP in each of its ten conditions and eight immediate forms completes: pD becomes 1 when the condition of R136 holds and 0 otherwise, other predicates keep their values, and the rest of the state is unchanged. Inside a chunk, PAND, POR, PXOR, PNOT and PMOV complete: pD becomes the combination of pA and pB, p0 reads as 1, and the rest of the state is unchanged. -/
def Obligations.ComparesAndPredicates : Prop :=
  (
    ∀ (s : State) (t : Thread) (k : BitVec 4) (a : BitVec 5) (b : Src) (i : BitVec 10) (g : BitVec 5),
      let x := t.val a
      let y := t.source b
      let z : Word := i.signExtend 64
      (Inside s t (a :: b.fields) g → t.Holds (a :: b.fields) →
        ∀ p ∈ ([(.cmpEq k a b g, decide (x = y)), (.cmpNe k a b g, decide (x ≠ y)), (.cmpLt k a b g, decide (x.toInt < y.toInt)),
            (.cmpGe k a b g, decide (y.toInt ≤ x.toInt)), (.cmpLe k a b g, decide (x.toInt ≤ y.toInt)),
            (.cmpGt k a b g, decide (y.toInt < x.toInt)), (.cmpLo k a b g, decide (x.toNat < y.toNat)),
            (.cmpHs k a b g, decide (y.toNat ≤ x.toNat)), (.cmpLs k a b g, decide (x.toNat ≤ y.toNat)),
            (.cmpHi k a b g, decide (y.toNat < x.toNat))] : List (Instr × Bool)),
          exec p.1 s = .next (s.withThread ((t.opened s.co b.len).setPred k p.2).passed)) ∧
      (Inside s t [a] g → t.Holds [a] →
        ∀ p ∈ ([(.cmpEqImm k a i g, decide (x = z)), (.cmpNeImm k a i g, decide (x ≠ z)), (.cmpLtImm k a i g, decide (x.toInt < z.toInt)),
            (.cmpGeImm k a i g, decide (z.toInt ≤ x.toInt)), (.cmpLeImm k a i g, decide (x.toInt ≤ z.toInt)),
            (.cmpGtImm k a i g, decide (z.toInt < x.toInt)), (.cmpLoImm k a i g, decide (x.toNat < z.toNat)),
            (.cmpHsImm k a i g, decide (z.toNat ≤ x.toNat))] : List (Instr × Bool)),
          exec p.1 s = .next (s.withThread ((t.opened s.co 4).setPred k p.2).passed)) ∧
      ∀ (v : Bool) (j : Nat), j < 16 → (t.setPred k v).preds.getLsbD j = if j = k.toNat then v else t.preds.getLsbD j) ∧
  (
    ∀ (s : State) (t : Thread) (d a b : BitVec 4) (g : BitVec 5), Inside s t [] g →
      let x := if a = 0#4 then true else t.preds.getLsbD a.toNat
      let y := if b = 0#4 then true else t.preds.getLsbD b.toNat
      ∀ p ∈ ([(.pand d a b g, x && y), (.por d a b g, x || y), (.pxor d a b g, x ^^ y), (.pnot d a g, !x), (.pmov d a g, x)] : List (Instr × Bool)),
        exec p.1 s = .next (s.withThread ((t.opened s.co 4).setPred d p.2).passed))

/-- Inside a chunk, ADDA and SUBA step bits 47-0 of a pointer or bits 39-0 of a reference and keep the bits above; PTAG, PFMT, HREF, LWIN and LWIN.own build the values of R139, R140 and R141 while their operands are in range. -/
def Obligations.PointerResults : Prop :=
  ∀ (s : State) (t : Thread) (d a : BitVec 5) (b : Src) (i : BitVec 10) (g : BitVec 5),
    let x := t.val a
    let y := t.source b
    let w := if x.getLsbD 63 then 40 else 48
    let stepped (off : Int) : Word := BitVec.ofNat 64 (x.toNat / 2 ^ w * 2 ^ w + ((x.toNat % 2 ^ w : Nat) + off).toNat)
    let fits (off : Int) : Prop := 0 ≤ (x.toNat % 2 ^ w : Nat) + off ∧ (x.toNat % 2 ^ w : Nat) + off < 2 ^ w
    (Inside s t (d :: a :: b.fields) g → t.Holds (a :: b.fields) →
      (fits y.toInt → exec (.adda d a b g) s = .next (s.withThread (t.wrote s.co b.len d (stepped y.toInt)))) ∧
      (fits (-y.toInt) → exec (.suba d a b g) s = .next (s.withThread (t.wrote s.co b.len d (stepped (-y.toInt))))) ∧
      (x.getLsbD 63 = false → y.toNat % 32 ≤ 12 → y.toNat / 256 % 16 ≤ 12 →
        exec (.ptag d a b g) s = .next (s.withThread (t.wrote s.co b.len d
          (BitVec.ofNat 64 (x.toNat % 2 ^ 48 + 2 ^ 52 * (y.toNat % 32) + 2 ^ 48 * (y.toNat / 256 % 16)))))) ∧
      (x.toNat < 2 ^ 23 → y.toNat < 2 ^ 40 →
        exec (.href d a b g) s = .next (s.withThread (t.wrote s.co b.len d (BitVec.ofNat 64 (2 ^ 63 + 2 ^ 40 * x.toNat + y.toNat))))) ∧
      (x.toNat ≤ 16383 → y.toNat ≤ 0xFFFF →
        exec (.lwin d a b g) s = .next (s.withThread (t.wrote s.co b.len d
          (BitVec.ofNat 64 (14 * 2 ^ 44 + 2 ^ 16 * x.toNat + y.toNat)))))) ∧
    (Inside s t [d, a] g → t.Holds [a] →
      (fits i.toInt → exec (.addaImm d a i g) s = .next (s.withThread (t.wrote s.co 4 d (stepped i.toInt)))) ∧
      (fits (-i.toInt) → exec (.subaImm d a i g) s = .next (s.withThread (t.wrote s.co 4 d (stepped (-i.toInt))))) ∧
      exec (.pfmt d a g) s = .next (s.withThread (t.wrote s.co 4 d (pointerFormat x)))) ∧
    (Inside s t (d :: b.fields) g → t.Holds b.fields → y.toNat ≤ 0xFFFF →
      exec (.lwinOwn d b g) s = .next (s.withThread (t.wrote s.co b.len d (BitVec.ofNat 64 (15 * 2 ^ 44 + y.toNat)))))

/-- On a general core, ADDA and SUBA out of range fault with cause 0x04 and the operand, PTAG of a reference or with codes above 12 and HREF out of range with cause 0x03 and the operand that failed, LWIN and LWIN.own out of range with cause 0x04 (where both operands of PTAG, HREF or LWIN fail, the first is named, by the model's choice, log 118): the chunk ends and the trap is entered at the instruction, nothing else being written. On a general core, BR, CALL, JMP, CALLR and a taken LOOP whose target is negative, at or above 2^48, not a multiple of 4, or in window 0xE or 0xF take the illegal-instruction trap at the instruction, with FVAL = 2^63 + (t mod 2^63); neither the link nor the count is written. -/
def Obligations.PointerAndTargetFaults : Prop :=
  (
    ∀ (s s₁ : State) (t : Thread) (d a : BitVec 5) (b : Src) (i : BitVec 10) (g : BitVec 5), t.settOn = none →
      let x := t.val a
      let y := t.source b
      let w := if x.getLsbD 63 then 40 else 48
      let leaves (off : Int) : Prop := (x.toNat % 2 ^ w : Nat) + off < 0 ∨ 2 ^ w ≤ (x.toNat % 2 ^ w : Nat) + off
      let faults (j : Instr) (cause : Nat) (v : Word) : Prop := exec j s = .next (s₁.enterTrap s₁.cur cause v t.pc)
      (Inside s t (d :: a :: b.fields) g → t.Holds (a :: b.fields) →
        (s.withThread (t.opened s.co b.len)).commitAll s.cur = (.done, s₁) →
        (leaves y.toInt → faults (.adda d a b g) 0x04 x) ∧ (leaves (-y.toInt) → faults (.suba d a b g) 0x04 x) ∧
        (x.getLsbD 63 = true → faults (.ptag d a b g) 0x03 x) ∧
        (x.getLsbD 63 = false → (12 < y.toNat % 32 ∨ 12 < y.toNat / 256 % 16) → faults (.ptag d a b g) 0x03 y) ∧
        (2 ^ 23 ≤ x.toNat → faults (.href d a b g) 0x03 x) ∧
        (x.toNat < 2 ^ 23 → 2 ^ 40 ≤ y.toNat → faults (.href d a b g) 0x03 y) ∧
        (16383 < x.toNat → faults (.lwin d a b g) 0x04 x) ∧
        (x.toNat ≤ 16383 → 0xFFFF < y.toNat → faults (.lwin d a b g) 0x04 y)) ∧
      (Inside s t [d, a] g → t.Holds [a] → (s.withThread (t.opened s.co 4)).commitAll s.cur = (.done, s₁) →
        (leaves i.toInt → faults (.addaImm d a i g) 0x04 x) ∧ (leaves (-i.toInt) → faults (.subaImm d a i g) 0x04 x)) ∧
      (Inside s t (d :: b.fields) g → t.Holds b.fields → (s.withThread (t.opened s.co b.len)).commitAll s.cur = (.done, s₁) →
        0xFFFF < y.toNat → faults (.lwinOwn d b g) 0x04 y)) ∧
  (
    ∀ (s s₁ : State) (t : Thread) (d : BitVec 5) (b : Src) (o : BitVec 20) (i : BitVec 10) (g : BitVec 5), t.settOn = none →
      let faults (j : Instr) (n : Int) : Prop :=
        exec j s = .next (s₁.enterTrap s₁.cur 0x01 (BitVec.ofInt 64 (2 ^ 63 + n % 2 ^ 63)) t.pc)
      let near : Int := t.pc + 4 * o.toInt
      let back : Int := t.pc + 4 * i.toInt
      let y : Int := (t.source b).toNat
      (Inside s t [] g → ¬ LegalTarget near → (s.withThread (t.opened s.co 4)).commitAll s.cur = (.done, s₁) →
        faults (.br o g) near ∧ faults (.call o g) near) ∧
      (Inside s t (d :: b.fields) g → t.Holds b.fields → ¬ LegalTarget y →
        (s.withThread (t.opened s.co b.len)).commitAll s.cur = (.done, s₁) → faults (.jmp b g) y ∧ faults (.callr d b g) y) ∧
      (Inside s t [d] g → t.Holds [d] → t.val d - 1#64 ≠ 0#64 → ¬ LegalTarget back →
        (s.withThread (t.opened s.co 4)).commitAll s.cur = (.done, s₁) → faults (.loop d i g) back))

/-- Inside a chunk, FADD, FSUB, FMUL, FFMA, FMIN and FMAX, the eight FCMP conditions and the eleven FCVT kinds complete: the low half of each source is read as F32 after fz, the exact result is rounded once under the thread's fz and sat, D or pD is written, FFLAGS gains the flags raised and loses none, and the rest of the state is unchanged. -/
def Obligations.FloatResults : Prop :=
  ∀ (s : State) (t : Thread) (d a : BitVec 5) (k : BitVec 4) (b : Src) (m : BitVec 2) (g : BitVec 5),
    let fz := t.fflags.getLsbD 8
    let sat := t.fflags.getLsbD 9
    let f32 (v : Word) : FV := (value F32 (v.toNat % 2 ^ 32)).flush fz
    let x := f32 (t.val a)
    let y := f32 (t.source b)
    let b64 := t.source b
    let low (f : Fmt) (n : Nat) : FV := (value f (b64.toNat % 2 ^ n)).flush fz
    let rnd (f : Fmt) (v : FV) : Word × Flags := let r := round f fz sat v; (BitVec.ofNat 64 r.1, r.2)
    let exact (v : FV) : Word × Flags := let r := round F32 false false v; (BitVec.ofNat 64 r.1, r.2)
    let toInt (lo hi : Int) : Word × Flags := let r := f2i y m.toNat lo hi; (BitVec.ofInt 64 r.1, r.2)
    let gives (t : Thread) (r : Word × Flags) : Thread := ((t.opened s.co b.len).flagged r.2).setReg d.toNat r.1
    (Inside s t (d :: a :: b.fields) g → t.Holds (a :: b.fields) →
      (∀ p ∈ ([(.fadd d a b g, rnd F32 (x.add y)), (.fsub d a b g, rnd F32 (x.add y.negate)), (.fmul d a b g, rnd F32 (x.mul y)),
          (.fmin d a b g, ((exact (FV.pick false x y)).1, (exact (FV.pick false x y)).2 &&& flagNV)),
          (.fmax d a b g, ((exact (FV.pick true x y)).1, (exact (FV.pick true x y)).2 &&& flagNV))] : List (Instr × (Word × Flags))),
        exec p.1 s = .next (s.withThread (gives t p.2).passed)) ∧
      (t.Holds [d] → exec (.ffma d a b g) s = .next (s.withThread (gives t (rnd F32 ((x.mul y).add (f32 (t.val d))))).passed))) ∧
    (Inside s t (a :: b.fields) g → t.Holds (a :: b.fields) →
      let un := x.isNan || y.isNan
      let nv := if x = .nan true ∨ y = .nan true then flagNV else 0#6
      ∀ p ∈ ([(.fcmpEq k a b g, x.eq y), (.fcmpNe k a b g, !x.eq y), (.fcmpLt k a b g, x.lt y), (.fcmpLe k a b g, x.le y),
          (.fcmpGt k a b g, y.lt x), (.fcmpGe k a b g, y.le x), (.fcmpUn k a b g, un), (.fcmpOr k a b g, !un)] : List (Instr × Bool)),
        exec p.1 s = .next (s.withThread (((t.opened s.co b.len).flagged nv).setPred k p.2).passed)) ∧
    (Inside s t (d :: b.fields) g → t.Holds b.fields →
      let whole := roundint y m.toNat
      ∀ p ∈ ([(.fcvtF2i d b m g, toInt (-2 ^ 63) (2 ^ 63 - 1)), (.fcvtF2n d b m g, toInt 0 (2 ^ 64 - 1)),
          (.fcvtFint d b m g, ((rnd F32 whole.1).1, (rnd F32 whole.1).2 ||| whole.2)),
          (.fcvtI2f d b g, rnd F32 (.ofInt b64.toInt)), (.fcvtN2f d b g, rnd F32 (.ofInt b64.toNat)),
          (.fcvtF2h d b g, rnd F16 y), (.fcvtH2f d b g, exact (low F16 16)), (.fcvtF2b d b g, rnd BF16 y), (.fcvtB2f d b g, exact (low BF16 16)),
          (.fcvtF2w d b g, rnd W19 y), (.fcvtW2f d b g, exact (low W19 19))] : List (Instr × (Word × Flags))),
        exec p.1 s = .next (s.withThread (gives t p.2).passed)) ∧
    ∀ (f : Flags) (j : Nat), (t.flagged f).fflags.getLsbD j = (t.fflags.getLsbD j || (decide (j ∈ [0, 1, 2, 4]) && f.getLsbD j))

/-- Inside a chunk, BR, CALL, JMP and CALLR go to their target when R143 allows it, CALL linking in g1 and CALLR in D the address after the instruction; LOOP writes d - 1 and goes to its target unless that is 0, when it passes. The rest of the state is unchanged. -/
def Obligations.TransferResults : Prop :=
  ∀ (s : State) (t : Thread) (d : BitVec 5) (b : Src) (o : BitVec 20) (i : BitVec 10) (g : BitVec 5),
    let near : Int := t.pc + 4 * o.toInt
    let back : Int := t.pc + 4 * i.toInt
    let y := t.source b
    let x := t.val d
    (Inside s t [] g → LegalTarget near →
      exec (.br o g) s = .next (s.withThread ((t.opened s.co 4).jumped near.toNat)) ∧
      exec (.call o g) s = .next (s.withThread (((t.opened s.co 4).setReg 1 (BitVec.ofNat 64 (t.pc + 4))).jumped near.toNat))) ∧
    (Inside s t b.fields g → t.Holds b.fields → LegalTarget y.toNat →
      exec (.jmp b g) s = .next (s.withThread ((t.opened s.co b.len).jumped y.toNat))) ∧
    (Inside s t (d :: b.fields) g → t.Holds b.fields → LegalTarget y.toNat →
      exec (.callr d b g) s = .next (s.withThread (((t.opened s.co b.len).setReg d.toNat (BitVec.ofNat 64 (t.pc + b.len))).jumped y.toNat))) ∧
    (Inside s t [d] g → t.Holds [d] →
      (x - 1#64 = 0#64 → exec (.loop d i g) s = .next (s.withThread (t.wrote s.co 4 d 0#64))) ∧
      (x - 1#64 ≠ 0#64 → LegalTarget back →
        exec (.loop d i g) s = .next (s.withThread (((t.opened s.co 4).setReg d.toNat (x - 1#64)).jumped back.toNat))))

/-- On a general core and inside a chunk, each load (and its .mig form) whose checked address is in the thread's own local memory completes, the address coming from register A or from the packet that brought the thread here for this .mig form (R45): D becomes the bytes the thread sees there, its own buffered bytes before committed ones, unconverted for codes 0 and 1 and as R154 converts them otherwise; the read is recorded in the chunk and the rest of the state, all of memory included, is unchanged. The line is neither poisoned nor owned by an engine command, and no table being built is named. -/
def Obligations.LocalLoads : Prop :=
  ∀ (s : State) (t : Thread) (d a : BitVec 5) (i : BitVec 10) (g : BitVec 5) (va : Nat) (x : Word),
    Inside s t [d, a] g → t.settOn = none → t.solo = false →
    let loc := localLoc t.core (va % 2 ^ 16)
    ∀ p ∈ ([(.ldB d a i g, 1, false), (.ldH d a i g, 2, false), (.ldW d a i g, 4, false), (.ldD d a i g, 8, false), (.ldBMig d a i g, 1, true), (.ldHMig d a i g, 2, true), (.ldWMig d a i g, 4, true), (.ldDMig d a i g, 8, true)] : List (Instr × Nat × Bool)), t.Base p.2.2 a x →
      checkAddr x (i.toInt * p.2.1) p.2.1 false = .ok va → sizeFits (fmtOf x) p.2.1 = true →
      (windowOf va = 15 ∨ (windowOf va = 14 ∧ va / 2 ^ 16 % 2 ^ 14 = t.core)) →
      (∀ k q, elemTable (fmtOf x) = some (k, q) → (s.core t.core).eng.building.contains k = false) →
      s.owned (loc / 64) = false → s.poisoned loc = false →
      let r := loadValue (s.tableOf t.core) (fmtOf x) t.fz (s.see t (t.spell va) loc p.2.1)
      exec p.1 s = .next (s.withThread ((((t.opened s.co 4).noteRead loc none).flagged r.2).setReg d.toNat r.1).passed) ∧
      (fmtOf x < 2 → r = (BitVec.ofNat 64 (s.see t (t.spell va) loc p.2.1), 0#6))

/-- On a general core and inside a chunk, each store (and its .mig form) whose checked address is in the thread's own local memory completes, the address coming from register A or from the packet of this .mig form (R45): the bytes of d, converted as R154 says, stand in the chunk's buffer at the address the form computes, before older bytes of the same address; no byte of memory changes and the rest of the state is unchanged. The chunk has room for the bytes. -/
def Obligations.LocalStores : Prop :=
  ∀ (s : State) (t : Thread) (d a : BitVec 5) (i : BitVec 10) (g : BitVec 5) (va : Nat) (x : Word),
    Inside s t [d, a] g → t.Holds [d] → t.settOn = none → t.solo = false →
    let loc := localLoc t.core (va % 2 ^ 16)
    ∀ p ∈ ([(.stB d a i g, 1, false), (.stH d a i g, 2, false), (.stW d a i g, 4, false), (.stD d a i g, 8, false), (.stBMig d a i g, 1, true), (.stHMig d a i g, 2, true), (.stWMig d a i g, 4, true), (.stDMig d a i g, 8, true)] : List (Instr × Nat × Bool)), t.Base p.2.2 a x →
      checkAddr x (i.toInt * p.2.1) p.2.1 false = .ok va → sizeFits (fmtOf x) p.2.1 = true →
      (windowOf va = 15 ∨ (windowOf va = 14 ∧ va / 2 ^ 16 % 2 ^ 14 = t.core)) →
      (∀ k q, elemTable (fmtOf x) = some (k, q) → (s.core t.core).eng.building.contains k = false) →
      s.owned (loc / 64) = false →
      let r := storeValue (s.tableOf t.core) (fmtOf x) t.fz t.sat (t.val d)
      let es := entriesAt (t.spell va) loc r.1 p.2.1
      t.Takes es →
      exec p.1 s = .next (s.withThread (((t.opened s.co 4).buffered es).flagged r.2).passed) ∧
      (fmtOf x < 2 → r = ((t.val d).toNat, 0#6)) ∧
      ∀ k, k < p.2.1 → (⟨t.spell va + k, loc + k, BitVec.ofNat 8 (r.1 / 256 ^ k)⟩ : WEntry) ∈ es

/-- On a general core and inside a chunk, each load whose checked address leads to a readable global page of this device (for the .mig forms, one that no other core owns, the address coming from register A or from the packet, R45) touches its line (R334), reads its bytes, records the read and the page, counts as an instruction of the chunk, awaits D and parks for the reply that carries the converted value; memory is unchanged unless near memory has passed the line by, and of a line without an error not met yet all that the touch leaves is that the LLC holds it (logs 128 and 129, the model's reading). The line is neither owned nor poisoned once touched. -/
def Obligations.GlobalLoads : Prop :=
  ∀ (s : State) (t : Thread) (d a : BitVec 5) (i : BitVec 10) (g : BitVec 5) (va : Nat) (x : Word) (e : TEntry) (loc : Nat),
    Inside s t [d, a] g → t.settOn = none → t.solo = false →
    ∀ p ∈ ([(.ldB d a i g, 1, false), (.ldH d a i g, 2, false), (.ldW d a i g, 4, false), (.ldD d a i g, 8, false), (.ldBMig d a i g, 1, true), (.ldHMig d a i g, 2, true), (.ldWMig d a i g, 4, true), (.ldDMig d a i g, 8, true)] : List (Instr × Nat × Bool)), t.Base p.2.2 a x →
      checkAddr x (i.toInt * p.2.1) p.2.1 false = .ok va → sizeFits (fmtOf x) p.2.1 = true →
      windowOf va < 14 → s.globalSpot t.attr.ctx va .rd = .global e loc → remoteDev loc = none →
      (∀ o, s.migOwner t.attr.ctx t.core va = some o → o = t.core) →
      (∀ k q, elemTable (fmtOf x) = some (k, q) → (s.core t.core).eng.building.contains k = false) →
      (s.useEntry e false).owned (loc / 64) = false →
      let q := (s.useEntry e false).touchPlaces [loc]
      q.poisoned loc = false →
      let r := loadValue (s.tableOf t.core) (fmtOf x) t.fz (q.see t va loc p.2.1)
      let t' := ((((t.opened s.co 4).noteRead loc (some e.page)).flagged r.2).awaits d)
      exec p.1 s = .next ((q.push (.replyArrival s.cur d r.1)).waits
        { t' with chunk := { t'.chunk with count := t'.chunk.count + 1 } } .reply) ∧
      (s.staleLine (loc / 64) = false → q.mem = s.mem) ∧
      (s.openLine (loc / 64) = false → q = { s.useEntry e false with
        cached := if isHbm loc then Store.put s.cached (loc / 64) 1#1 else s.cached })

/-- On a general core and inside a chunk, with a line that no engine command owns: a store whose checked address (from register A, or from the packet of its .mig form, R45) leads to a writable page, of this device or another, or to another core's local memory, buffers the converted bytes of d in the chunk, notes the page it used and passes, with every byte of memory unchanged; a load that leads to another core's local memory or to another device sends its access and waits for the reply, D awaited, the instruction counted. Through a reference the access ends the chunk and goes to the handle table as an element command, with its index, size, data and FFLAGS, and waits; D awaits a load's element. Checks at the other end follow (R155, R305, R419). -/
def Obligations.FarAccesses : Prop :=
  (∀ (s : State) (t : Thread) (d a : BitVec 5) (i : BitVec 10) (g : BitVec 5) (va loc : Nat) (x : Word),
    Inside s t [d, a] g → t.settOn = none → t.solo = false →
    (∀ p ∈ ([(.stB d a i g, 1, false), (.stH d a i g, 2, false), (.stW d a i g, 4, false), (.stD d a i g, 8, false), (.stBMig d a i g, 1, true), (.stHMig d a i g, 2, true), (.stWMig d a i g, 4, true), (.stDMig d a i g, 8, true)] : List (Instr × Nat × Bool)), t.Base p.2.2 a x → t.Holds [d] →
      checkAddr x (i.toInt * p.2.1) p.2.1 false = .ok va → sizeFits (fmtOf x) p.2.1 = true → s.TableReady t (fmtOf x) →
      (p.2.2 = true → ∀ o, s.migOwner t.attr.ctx t.core va = some o → o = t.core) →
      let r := storeValue (s.tableOf t.core) (fmtOf x) t.fz t.sat (t.val d)
      let es := entriesAt (t.spell va) loc r.1 p.2.1
      let b := (t.opened s.co 4).buffered es
      t.Takes es → s.owned (loc / 64) = false →
      (∀ e, s.spot t va .wr p.2.2 = .global e loc →
        exec p.1 s = .next ((s.useEntry e true).withThread (({ b with chunk := { b.chunk with pages := setAdd b.chunk.pages e.page } }).flagged r.2).passed) ∧
        (s.useEntry e true).mem = s.mem) ∧
      (∀ c, s.spot t va .wr p.2.2 = .remote c loc → exec p.1 s = .next (s.withThread (b.flagged r.2).passed))) ∧
    (∀ p ∈ ([(.ldB d a i g, 1, false), (.ldH d a i g, 2, false), (.ldW d a i g, 4, false), (.ldD d a i g, 8, false), (.ldBMig d a i g, 1, true), (.ldHMig d a i g, 2, true), (.ldWMig d a i g, 4, true), (.ldDMig d a i g, 8, true)] : List (Instr × Nat × Bool)), t.Base p.2.2 a x →
      checkAddr x (i.toInt * p.2.1) p.2.1 false = .ok va → sizeFits (fmtOf x) p.2.1 = true → s.TableReady t (fmtOf x) →
      (p.2.2 = true → ∀ o, s.migOwner t.attr.ctx t.core va = some o → o = t.core) → s.owned (loc / 64) = false →
      let w := (t.opened s.co 4).awaits d
      let w := { w with chunk := { w.chunk with count := w.chunk.count + 1 } }
      let sent : Access := { t.access s.cur .load d va loc p.2.1 0#64 0#64 with fmt := fmtOf x }
      (∀ c, s.spot t va .rd p.2.2 = .remote c loc → exec p.1 s = .next ((s.push (.remoteAccessArrival sent)).waits w .reply)) ∧
      (∀ e dev, s.spot t va .rd p.2.2 = .global e loc → remoteDev loc = some dev →
        exec p.1 s = .next (((s.useEntry e false).push (.remoteAccessArrival sent)).waits w .reply)))) ∧
  (∀ (s s₁ : State) (t t₁ : Thread) (d a : BitVec 5) (i : BitVec 10) (g : BitVec 5) (x : Word),
    Inside s t [d, a] g → t.settOn = none → (s.withThread (t.opened s.co 4)).commitAll s.cur = (.done, s₁) → s₁.thread? s₁.cur = some t₁ →
    x.getLsbD 63 = true →
    let at0 : Int := (x.toNat % 2 ^ 40 : Nat) + i.toInt
    let n := if at0 < 0 then 2 ^ 48 else at0.toNat
    (∀ p ∈ ([(.ldB d a i g, 1, false), (.ldH d a i g, 2, false), (.ldW d a i g, 4, false), (.ldD d a i g, 8, false), (.ldBMig d a i g, 1, true), (.ldHMig d a i g, 2, true), (.ldWMig d a i g, 4, true), (.ldDMig d a i g, 8, true)] : List (Instr × Nat × Bool)), t.Base p.2.2 a x →
      exec p.1 s = .next ((s₁.push (.handleCommandAdmission
        { t.command s₁.cur .elemRead d x t.fflags with index := n, size := p.2.1, pc := t.pc })).waits (t₁.awaits d) .handle)) ∧
    (∀ p ∈ ([(.stB d a i g, 1, false), (.stH d a i g, 2, false), (.stW d a i g, 4, false), (.stD d a i g, 8, false), (.stBMig d a i g, 1, true), (.stHMig d a i g, 2, true), (.stWMig d a i g, 4, true), (.stDMig d a i g, 8, true)] : List (Instr × Nat × Bool)), t.Base p.2.2 a x → t.Holds [d] →
      exec p.1 s = .next ((s₁.push (.handleCommandAdmission
        { t.command s₁.cur .elemWrite 31#5 x t.fflags with index := n, size := p.2.1, data := t.val d, pc := t.pc })).waits t₁ .handle)))

/-- On a general core, a load or store through a pointer (in register A, or in the packet of a .mig form, R45) faults, the chunk ended and no byte moved, with the first failing check of R149: pointer tag (0x03, the operand), escape (0x04, the operand), alignment (0x05, the effective address), window straddle (0x06, the address), then a format code that does not allow the access size (0x03, the operand). -/
def Obligations.AccessFaults : Prop :=
  ∀ (s s₁ : State) (t : Thread) (d a : BitVec 5) (i : BitVec 10) (g : BitVec 5) (x : Word),
    Inside s t [d, a] g → t.Holds [d] → t.settOn = none → (s.withThread (t.opened s.co 4)).commitAll s.cur = (.done, s₁) →
    x.getLsbD 63 = false →
    ∀ p ∈ ([(.ldB d a i g, 1, false), (.ldH d a i g, 2, false), (.ldW d a i g, 4, false), (.ldD d a i g, 8, false), (.ldBMig d a i g, 1, true), (.ldHMig d a i g, 2, true), (.ldWMig d a i g, 4, true), (.ldDMig d a i g, 8, true)] ++ [(.stB d a i g, 1, false), (.stH d a i g, 2, false), (.stW d a i g, 4, false), (.stD d a i g, 8, false), (.stBMig d a i g, 1, true), (.stHMig d a i g, 2, true), (.stWMig d a i g, 4, true), (.stDMig d a i g, 8, true)] : List (Instr × Nat × Bool)), t.Base p.2.2 a x →
      let ea : Int := (x.toNat % 2 ^ 48 : Nat) + i.toInt * p.2.1
      let n := ea.toNat
      let faults (cause : Nat) (v : Word) : Prop := exec p.1 s = .next (s₁.enterTrap s₁.cur cause v t.pc)
      let badTag : Prop := x.toNat / 2 ^ 57 % 64 ≠ 0 ∨ 12 < x.toNat / 2 ^ 52 % 32
      let escapes : Prop := ea < 0 ∨ 2 ^ 48 ≤ ea
      let hole : Prop := 0xC000 ≤ n % 2 ^ 16
      let straddle : Prop := (n / 2 ^ 44 = 14 ∧ (n / 2 ^ 30 % 2 ^ 14 ≠ 0 ∨ hole)) ∨ (n / 2 ^ 44 = 15 ∧ (n / 2 ^ 16 % 2 ^ 28 ≠ 0 ∨ hole))
      let c := x.toNat / 2 ^ 52 % 32
      let fits : Prop := c = 0 ∨ (c = 1 ∧ p.2.1 = 4) ∨ ((c = 2 ∨ c = 3) ∧ p.2.1 = 2) ∨ (4 ≤ c ∧ p.2.1 = 1)
      (badTag → faults 0x03 x) ∧
      (¬ badTag → escapes → faults 0x04 x) ∧
      (¬ badTag → ¬ escapes → n % p.2.1 ≠ 0 → faults 0x05 (BitVec.ofNat 64 n)) ∧
      (¬ badTag → ¬ escapes → n % p.2.1 = 0 → straddle → faults 0x06 (BitVec.ofNat 64 n)) ∧
      (¬ badTag → ¬ escapes → n % p.2.1 = 0 → ¬ straddle → ¬ fits → faults 0x03 x)

/-- On a general core, NOP passes; PREF of a register or a port passes, whatever it holds, and takes no port word; and CHEND with an open chunk and none at the arbiters passes, hands the chunk over to commit and begins the next. On a general core with the chunk ended, FENCE.core, FENCE.dev and FENCE.sys of an unsealed thread and XFENCE of a range of global addresses leave the rotation until their completion; a fence of a sealed thread and an XFENCE of no bytes pass at once, and a sealed thread's XFENCE is held and passes. Memory is unchanged. That XFENCE takes bits 47-0 of its operand as the base, whatever its tag, is the model's choice (log 14). -/
def Obligations.HintsAndFences : Prop :=
  (
    ∀ (s : State) (t : Thread) (a : BitVec 5) (i : BitVec 10) (g : BitVec 5), t.settOn = none →
      (Inside s t [] 0#5 → exec .nop s = .next (s.withThread (t.opened s.co 4).passed)) ∧
      (Inside s t (if isPort a then [] else [a]) g → exec (.pref a i g) s = .next (s.withThread (t.opened s.co 4).passed)) ∧
      (∀ (s₀ : State) (t₀ : Thread), s₀.thread? s₀.cur = some t₀ → t₀.settOn = none → t₀.prev = none → t₀.chunk.idle = false →
        t₀.chunk.count < t₀.limit →
        let t₁ := (t₀.begun 4).done 4
        exec (.chend g) s₀ = .next ((s₀.withThread { t₁ with prev := some t₁.chunk, chunk := t₁.newChunk s₀.co }).push (.chunkCommit s₀.cur)))) ∧
  (
    ∀ (s s₁ : State) (t : Thread) (a : BitVec 5) (b : Src) (g : BitVec 5),
      (Ends s s₁ t [] [] 4 g → ∀ p ∈ ([(.fenceCore g, 0), (.fenceDev g, 1), (.fenceSys g, 2)] : List (Instr × Nat)),
        exec p.1 s = .next (if t.attr.isSealed then s₁.pastEnd t 4 else (s₁.push (.fenceCompletion s₁.cur p.2)).waits t .fence)) ∧
      (Ends s s₁ t (a :: b.fields) (a :: b.fields) b.len g →
        let base := (t.val a).toNat % 2 ^ 48
        let len := (t.source b).toNat
        (len = 0 → exec (.xfence a b g) s = .next (s₁.pastEnd t b.len)) ∧
        (len ≠ 0 → base + len ≤ 14 * 2 ^ 44 → exec (.xfence a b g) s = .next (
          if t.attr.isSealed then
            s₁.pastEnd { t with held := t.held ++ [⟨.step (.xfenceCompletion s₁.cur t.attr.ctx base len 0), t.pc, t.val a⟩] } b.len
          else (s₁.push (.xfenceCompletion s₁.cur t.attr.ctx base len (t.stamp + 1))).waits t .xfence))))

/-- On a general core with the chunk ended, LDE and LDF of a full word of own local memory that nothing waits for complete at once (LDE when no chunk has reserved the line and no engine command has yet to read it): D is filled with the word in the register and in its slot shadow, the pc passes the instruction, LDE sets the word empty as one event and LDF leaves it full, and the context makes progress (R388); the value in memory and the rest of the state are unchanged. On a general core with the chunk ended, STF, and STS of an empty word, of own local memory write d to the word and set it full, and CLRE sets it empty and keeps its value; the thread passes the instruction, every byte of memory outside the word and every other full bit is unchanged. Nothing waits for the word, and no chunk has reserved its line nor has an engine command it to write or yet to read. -/
def Obligations.SyncAccesses : Prop :=
  (
    ∀ (s s₁ : State) (t : Thread) (d a : BitVec 5) (i : BitVec 10) (g : BitVec 5) (va : Nat),
      Ends s s₁ t [d, a] [a] 4 g → t.settOn = none → t.attr.isSealed = false → t.OwnLocal va →
      checkAddr (t.val a) (i.toInt * 8) 8 false = .ok va → fmtOf (t.val a) = 0 →
      let loc := t.localPlace va
      s₁.owned (loc / 64) = false → s₁.poisoned loc = false → s₁.full (loc / 8) = true →
      let v := BitVec.ofNat 64 (s₁.see t (t.spell va) loc 8)
      let t' := (((t.awaits d).parked .word).fillReg d.toNat v).finish
      (s₁.waiters = [] → s₁.heldBack s₁.cur [loc / 64] = false → exec (.lde d a i g) s = .next (((s₁.bitEvent loc false).withThread t').progress t.attr.ctx)) ∧
      (s₁.waiters = [] → exec (.ldf d a i g) s = .next ((s₁.withThread t').progress t.attr.ctx)) ∧
      t'.reg d.toNat = ⟨v, true, false, false⟩ ∧ t'.pc = t.pc + 4 ∧ (s₁.bitEvent loc false).full (loc / 8) = false ∧
      ∀ w, w ≠ loc / 8 → (s₁.bitEvent loc false).full w = s₁.full w) ∧
  (
    ∀ (s s₁ : State) (t : Thread) (d a : BitVec 5) (i : BitVec 10) (g : BitVec 5) (va : Nat),
      t.settOn = none → t.attr.isSealed = false → t.OwnLocal va → s₁.Inv →
      checkAddr (t.val a) (i.toInt * 8) 8 false = .ok va → fmtOf (t.val a) = 0 →
      let loc := t.localPlace va
      s₁.heldBack s₁.cur [loc / 64] = false → s₁.waiters = [] →
      (Ends s s₁ t [d, a] [a, d] 4 g →
        ∀ j ∈ ([.stf d a i g] ++ (if s₁.full (loc / 8) then [] else [.sts d a i g]) : List Instr), ∃ s',
          exec j s = .next s' ∧ s'.thread? s₁.cur = some (t.parked .word).finish ∧ s'.readLoc loc 8 = (t.val d).toNat ∧
          SameBut s₁.mem s'.mem loc 8 ∧ s'.full (loc / 8) = true ∧ (∀ w, w ≠ loc / 8 → s'.full w = s₁.full w)) ∧
      (Ends s s₁ t [a] [a] 4 g →
        exec (.clre a i g) s = .next (((s₁.bitEvent loc false).withThread (t.parked .word).finish).progress t.attr.ctx)))

/-- On a general core with the chunk ended, LDE and LDF of an empty own-local word and STS of a full one leave the rotation: the access waits at the word behind those already there, the thread stays at its instruction (an STS names the register of its address, so that a port would still hold it), and neither the word nor its bit changes. -/
def Obligations.SyncWaits : Prop :=
  ∀ (s s₁ : State) (t : Thread) (d a : BitVec 5) (i : BitVec 10) (g : BitVec 5) (va : Nat) (c k : Nat),
    t.settOn = none → t.place = .slot c k → t.attr.isSealed = false → t.OwnLocal va →
    checkAddr (t.val a) (i.toInt * 8) 8 false = .ok va → fmtOf (t.val a) = 0 →
    let loc := t.localPlace va
    let acc (kind : AccessKind) (v x : Word) : Access := t.access s₁.cur kind d va loc 8 v x
    s₁.heldBack s₁.cur [loc / 64] = false →
    let waiting (kind : AccessKind) (v x : Word) (t' : Thread) : State :=
      { (s₁.withThread (t'.parked .word)).count c 7 1 with waiters := s₁.waiters ++ [acc kind v x] }
    (Ends s s₁ t [d, a] [a] 4 g → s₁.poisoned loc = false → s₁.full (loc / 8) = false →
      exec (.lde d a i g) s = .next (waiting .lde 0#64 0#64 (t.awaits d)) ∧ exec (.ldf d a i g) s = .next (waiting .ldf 0#64 0#64 (t.awaits d))) ∧
    (Ends s s₁ t [d, a] [a, d] 4 g → s₁.full (loc / 8) = true →
      exec (.sts d a i g) s = .next (waiting .sts (t.val d) (a.setWidth 64) t))

/-- On a general core with the chunk ended, each atomic whose checked address leads to a writable word touches its line (R334), sends one access with its operation, b and, for ACAS, the expected d, awaits D and leaves the rotation; its source registers and the rest of the state are unchanged. The line is neither owned nor, once touched, poisoned. At a home that serves the context, an atomic of an unsealed thread reads its word, writes the new value R163 gives for it, and sends the old value back to D; every byte of memory outside the word is unchanged. The line is neither held nor poisoned, and holds nothing more than it shows: near memory has not passed it by, and it has no error not met yet. -/
def Obligations.Atomics : Prop :=
  (
    ∀ (s s₁ s₂ : State) (t : Thread) (d a : BitVec 5) (b : Src) (g : BitVec 5) (va loc : Nat), t.settOn = none →
      ∀ p ∈ ([(.aadd d a b g, .add), (.aminS d a b g, .minS), (.aminN d a b g, .minN), (.amaxS d a b g, .maxS), (.amaxN d a b g, .maxN), (.aand d a b g, .and), (.aor d a b g, .or), (.axor d a b g, .xor), (.aswp d a b g, .swp), (.acas d a b g, .cas), (.afadd d a b g, .fadd)] : List (Instr × AtomOp)),
        let size := if p.2 = .fadd then 4 else 8
        Ends s s₁ t (d :: a :: b.fields) (a :: b.fields ++ if p.2 = .cas then [d] else []) b.len g →
        checkAddr (t.val a) 0 size false = .ok va → (fmtOf (t.val a) = 0 ∨ (p.2 = .fadd ∧ fmtOf (t.val a) = 1)) →
        s₁.Leads s₂ t va .wr loc → s₂.owned (loc / 64) = false → (s₂.touchPlaces [loc]).poisoned loc = false →
        exec p.1 s = .next (((s₂.touchPlaces [loc]).push (.atomicApply (t.access s₁.cur (.atomic p.2) d va loc size (t.source b)
          (if p.2 = .cas then t.val d else 0#64)))).waits (t.awaits d) .reply)) ∧
  (
    ∀ (s : State) (t : Thread) (op : AtomOp) (a : Access), s.thread? a.uid = some t → a.kind = .atomic op → t.attr.isSealed = false →
      t.chunk.writes = [] → s.Inv → t.settOn = none → a.size = (if op = .fadd then 4 else 8) →
      s.homeServes a.loc a.ctx = true → s.writeHeld a.uid a.loc = false → s.poisoned a.loc = false →
      (∀ k, k < a.size → s.openLine ((a.loc + k) / 64) = false) →
      let old := BitVec.ofNat 64 (s.readLoc a.loc a.size)
      let x := a.data
      let new : Word := match op with
        | .add => old + x
        | .minS => if x.toInt < old.toInt then x else old
        | .minN => if x.toNat < old.toNat then x else old
        | .maxS => if old.toInt < x.toInt then x else old
        | .maxN => if old.toNat < x.toNat then x else old
        | .and => old &&& x
        | .or => old ||| x
        | .xor => old ^^^ x
        | .swp => x
        | .cas => if old = a.expd then x else old
        | .fadd => BitVec.ofNat 64 (round F32 false false ((value F32 (old.toNat % 2 ^ 32)).add (value F32 (x.toNat % 2 ^ 32)))).1
      ∃ s', exec (.atomicApply a) s = .next s' ∧ s'.readLoc a.loc a.size = new.toNat % 256 ^ a.size ∧ SameBut s.mem s'.mem a.loc a.size ∧
        .replyArrival a.uid a.reg old ∈ s'.pending ∧ s'.empty = s.empty ∧ s'.cores = s.cores)

/-- On a general core with the chunk ended, PST and PST.F of an unsealed thread to an own-local word, with no earlier posted store of the thread on its way to the core, write b there and pass, PST.F setting the word full, with every other byte and bit unchanged; to any other address they take the lowest free journal entry, send the store on its way and pass, with memory unchanged. -/
def Obligations.PostedStores : Prop :=
  ∀ (s s₁ : State) (t : Thread) (a : BitVec 5) (b : Src) (g : BitVec 5) (va : Nat),
    Ends s s₁ t (a :: b.fields) (a :: b.fields) b.len g → t.settOn = none → t.attr.isSealed = false →
    checkAddr (t.val a) 0 8 false = .ok va → fmtOf (t.val a) = 0 →
    ∀ p ∈ ([(.pst a b g, false), (.pstF a b g, true)] : List (Instr × Bool)),
      (t.OwnLocal va → s₁.Inv → s₁.heldBack s₁.cur [t.localPlace va / 64] = false →
        s₁.postsTo s₁.cur t.core = false → s₁.waiters = [] → t.wait = .running → ∃ s',
        exec p.1 s = .next s' ∧ s'.thread? s₁.cur = some (t.done b.len) ∧ s'.readLoc (t.localPlace va) 8 = (t.source b).toNat ∧
        SameBut s₁.mem s'.mem (t.localPlace va) 8 ∧ s'.full (t.localPlace va / 8) = (p.2 || s₁.full (t.localPlace va / 8)) ∧
        ∀ w, w ≠ t.localPlace va / 8 → s'.full w = s₁.full w) ∧
      (∀ k, (∀ loc, s₁.spot t va .wr false ≠ .near loc) → (s₁.core t.core).freeEntry = some k → ∃ s',
        exec p.1 s = .next s' ∧ s'.thread? s₁.cur = some (t.done b.len) ∧ s'.mem = s₁.mem ∧ s'.empty = s₁.empty ∧
        s'.pending = s₁.pending ++ [.postedStoreApply t.core k] ∧
        ∃ e, Tab.find? (s'.core t.core).journal k = some e ∧ e.uid = s₁.cur ∧ e.spent = false ∧ e.acc.va = va ∧
          e.acc.data = t.source b ∧ e.acc.kind = (if p.2 then .pstf else .pst) ∧
          ∀ x ∈ (s₁.core t.core).journal, x.2.order < e.order)

/-- On a general core with the chunk ended, each WAITA whose checked address leads to a readable word touches the line (R334) and compares the word the thread sees with b: if the condition (equal, not equal, at or above as unsigned) holds it passes, the timed form writing 1 to D; otherwise the thread leaves the rotation for that word and value, the timed form with a limit of d cycles. -/
def Obligations.WaitaCompletes : Prop :=
  ∀ (s s₁ s₂ : State) (t : Thread) (d a : BitVec 5) (b : Src) (g : BitVec 5) (va loc : Nat), t.settOn = none →
    checkAddr (t.val a) 0 8 false = .ok va → fmtOf (t.val a) = 0 → s₁.Leads s₂ t va .rd loc →
    s₂.owned (loc / 64) = false →
    let s₃ := s₂.touchPlaces [loc]
    s₃.poisoned loc = false →
    let v := BitVec.ofNat 64 (s₃.see t (t.spell va) loc 8)
    let y := t.source b
    ∀ p ∈ ([(.waitaEq a b g, .waitaEqT d a b g, 0, decide (v = y)), (.waitaNe a b g, .waitaNeT d a b g, 1, decide (v ≠ y)),
        (.waitaHs a b g, .waitaHsT d a b g, 2, decide (y.toNat ≤ v.toNat))] : List (Instr × Instr × Nat × Bool)),
      (Ends s s₁ t (a :: b.fields) (a :: b.fields) b.len g →
        exec p.1 s = .next (if p.2.2.2 then s₃.pastEnd t b.len else s₃.waits t (.addr loc va p.2.2.1 y none))) ∧
      (Ends s s₁ t (d :: a :: b.fields) (a :: b.fields ++ [d]) b.len g → t.val d ≠ 0#64 → (t.val d).toNat < 2 ^ 32 →
        exec p.2.1 s = .next (if p.2.2.2 then s₃.pastEnd (t.setReg d.toNat 1#64) b.len
          else (s₃.after (t.val d).toNat (.waitaTimeout s₁.cur (t.stamp + 1))).waits t (.addr loc va p.2.2.1 y (some d.toNat))))

/-- Inside a chunk on a general core ARM makes D empty, armed and 0 and passes; with the chunk ended RFILL sends b to the register that a names, awaits D and leaves the rotation. Nothing else changes. -/
def Obligations.ArmAndFill : Prop :=
  ∀ (s s₁ : State) (t : Thread) (d a : BitVec 5) (b : Src) (g : BitVec 5), t.settOn = none →
    (Inside s t [d] g → exec (.arm d g) s = .next (s.withThread
      ((t.opened s.co 4).putReg d.toNat ⟨0#64, false, true, (t.reg d.toNat).pend⟩).passed)) ∧
    (Ends s s₁ t (d :: a :: b.fields) (a :: b.fields) b.len g →
      exec (.rfill d a b g) s = .next ((s₁.push (.rfillDelivery s₁.cur d (t.val a) (t.source b))).waits (t.awaits d) .reply))

/-- On a general core with the chunk ended, QUIT of an unsealed thread, HEND in the handler slot and SDROP of a sealed thread complete: the thread is gone and its context has made progress; SDROP first discards the footprint and the held commands. No byte of memory and no full bit changes. -/
def Obligations.ThreadEnds : Prop :=
  ∀ (s s₁ : State) (t : Thread) (g : BitVec 5), Ends s s₁ t [] [] 4 g → t.settOn = none → s₁.Inv →
    (t.handler = false → t.attr.isSealed = false → exec (.quit g) s = .next ((s₁.progress t.attr.ctx).endThread s₁.cur)) ∧
    (t.handler = true → exec (.hend g) s = .next ((s₁.progress t.attr.ctx).endThread s₁.cur)) ∧
    (t.handler = false → t.attr.isSealed = true → exec (.sdrop g) s = .next ((s₁.progress t.attr.ctx).loseThread s₁.cur)) ∧
    ∀ s' ∈ [(s₁.progress t.attr.ctx).endThread s₁.cur, (s₁.progress t.attr.ctx).loseThread s₁.cur],
      s'.thread? s₁.cur = none ∧ s'.mem = s₁.mem ∧ s'.empty = s₁.empty

/-- PUBL of a sealed thread whose footprint leads where it led, at lines that nothing holds, completes: every byte of the footprint is committed, the newest of each place, every other byte is unchanged, and the thread is unsealed with nothing held. Without held commands it goes on past the instruction; otherwise they leave in program order, one at a time, each once the one before it has taken effect, and the thread waits for the last. No thread waits at a full/empty word, no watch is set, and near memory has passed by no line of the footprint. QUIT publishes the same way and ends the thread. -/
def Obligations.Publication : Prop :=
  (∀ (s s₁ : State) (t : Thread) (g : BitVec 5),
    Ends s s₁ t [] [] 4 g → t.settOn = none → t.handler = false → t.attr.isSealed = true → t.wait = .running → s₁.Inv →
    s₁.waiters = [] → s₁.watches = [] → (∀ w ∈ t.foot, s₁.relocate t.attr.ctx w = some w ∧ s₁.staleLine (w.loc / 64) = false) →
    s₁.heldBack s₁.cur (linesOf (t.foot.map (·.loc))) = false → (∀ o ∈ s₁.outbox, o.uid ≠ s₁.cur) →
    ∃ s', exec (.publ g) s = .next s' ∧
      s'.thread? s₁.cur = some (if t.held = [] then t.published.done 4 else t.published.parked .xfence) ∧
      s'.mem = t.foot.foldr (fun w m => Store.put m w.loc w.val) s₁.mem ∧ s'.pending = s₁.pending ∧
      s'.outbox = s₁.outbox ++ (if t.held = [] then [] else [⟨s₁.cur, t.attr, t.core, t.slot, none, t.held⟩]) ∧
      ∃ s'', exec (.quit g) s = .next s'' ∧ s''.thread? s₁.cur = none ∧ s''.mem = s'.mem ∧ s''.outbox = s'.outbox) ∧
  (∀ (s : State) (o : Outbox),
    (o.now.any s.underway = true → s.pumpBox o = (some o, s)) ∧
    (o.now.any s.underway = false →
      (∀ r pc x hs, o.rest = ⟨.step (.launchAdmission r), pc, x⟩ :: hs →
        s.pumpBox o = (some { o with now := some (.launchAdmission r), rest := hs }, s.push (.launchAdmission r))) ∧
      (∀ t, o.rest = [] → s.thread? o.uid = some t → t.wait = .xfence →
        s.pumpBox o = (none, { s with threads := Tab.insert s.threads o.uid t.finish }))))

/-- On a general core with the chunk ended: JOIN makes the thread a member of set a modulo 2^32, which it makes with step b when it does not exist; LEAVE takes it out of its set, or does nothing; GBAR of a member leaves the rotation, counts its arrival in the open round, opening one of all members when none is open, and completes the round when every counted member has arrived; one that is counted already waits on, and one whose round of this set completed while it was away passes, or waits until its own release time. JOIN of a new set past 4,096 and GBAR of a set without the thread fault with 0x13. -/
def Obligations.GroupSets : Prop :=
  ∀ (s s₁ : State) (t : Thread) (a : BitVec 5) (b : Src) (g : BitVec 5) (c k : Nat), t.settOn = none → t.place = .slot c k → t.Ended →
    let num := (t.val a).toNat % 2 ^ 32
    let set := s₁.group? t.attr.ctx num
    let me : Member := .thread s₁.cur
    let faults := .next (s₁.enterTrap s₁.cur 0x13 (BitVec.ofNat 64 num) t.pc)
    (Ends s s₁ t (a :: b.fields) (a :: b.fields) b.len g →
      let s₂ := s₁.joinSet t.attr.ctx num ((t.source b).toNat % 256) [me]
      exec (.join a b g) s = (if set = none ∧ 4096 ≤ s₁.liveSets t.attr.ctx then faults else .next (s₂.pastEnd t b.len)) ∧
      ∃ gr, s₂.group? t.attr.ctx num = some gr ∧ me ∈ gr.members ∧
        (∀ g₀, set = some g₀ → gr.step = g₀.step ∧ gr.round = g₀.round ∧ gr.arrived = g₀.arrived ∧ ∀ m, m ∈ gr.members ↔ m = me ∨ m ∈ g₀.members) ∧
        (set = none → gr = ⟨t.attr.ctx, num, (t.source b).toNat % 256, [me], none, []⟩)) ∧
    (Ends s s₁ t [a] [a] 4 g →
      (∃ s₂, exec (.leave a g) s = .next (s₂.pastEnd t 4) ∧ (∀ gr, s₂.group? t.attr.ctx num = some gr → me ∉ gr.members) ∧
        ((∀ gr, set = some gr → me ∉ gr.members) → s₂ = s₁)) ∧
      (∀ gr, set = some gr → me ∈ gr.members →
        ((∀ r ∈ t.released, r.1 ≠ num) →
          (s₁.cur ∉ gr.arrived → exec (.gbar a g) s = .next ((((s₁.withThread (t.parked (.gbar num))).checkRound
            { gr with round := some (gr.round.getD gr.members), arrived := gr.arrived ++ [s₁.cur] }).progress t.attr.ctx).count c 7 1)) ∧
          (s₁.cur ∈ gr.arrived → exec (.gbar a g) s = .next (s₁.waits t (.gbar num)))) ∧
        (∀ k, t.released = [(num, k)] → exec (.gbar a g) s = .next (
          if k ≤ s₁.cycle then s₁.pastEnd { t with released := [] } 4
          else (s₁.after (k - s₁.cycle) (.barrierRelease s₁.cur (t.stamp + 1))).waits { t with released := [] } (.gbar num)))) ∧
      ((∀ gr, set = some gr → me ∉ gr.members) → exec (.gbar a g) s = faults))

/-- Recording an arrival changes the set and nothing else while a counted member is missing. When all have arrived in slots, each waits step × ((x + 2y) mod 16) cycles, one that is not at its GBAR keeping the release with its time (R40, R286), and no member that joined during the round is released with it unless the next round is complete too; BARRIER_RELEASE of a thread that still waits there passes its GBAR, and its context makes progress. -/
def Obligations.BarrierRounds : Prop :=
  (∀ (s : State) (gr : Group), gr.complete = false → s.checkRound gr = s.putGroup gr) ∧
  (∀ (s : State) (gr : Group) (ms : List Member), gr.round = some ms → gr.complete = true → (∀ m ∈ ms, ∃ u, m = .thread u) →
    (∀ u ∈ gr.arrived, ∃ t c k, s.thread? u = some t ∧ t.place = .slot c k) → gr.arrived.Nodup →
    (∀ u, .thread u ∈ ms → ∀ t c k, s.thread? u = some t → t.place = .slot c k →
      let d := gr.step * ((xOf c + 2 * yOf c) % 16)
      (t.wait = .gbar gr.num → (s.cycle + d, .barrierRelease u t.stamp) ∈ (s.checkRound gr).timers ∧ (s.checkRound gr).thread? u = some t) ∧
      (t.wait ≠ .gbar gr.num → (s.checkRound gr).thread? u = some { t with released := t.released ++ [(gr.num, s.cycle + d)] })) ∧
    (gr.next.complete = false → ∀ u, .thread u ∉ ms → (s.checkRound gr).thread? u = s.thread? u)) ∧
  (∀ (s : State) (u : Nat) (t : Thread) (num : Nat), s.thread? u = some t → t.wait = .gbar num →
    exec (.barrierRelease u t.stamp) s = .next (({ s with threads := Tab.insert s.threads u t.finish } : State).progress t.attr.ctx))

/-- On a general core with the chunk ended, YIELD without an eligible stockpile thread passes; with one of equal or higher priority that fits, that thread takes the slot and this one waits in the stockpile past its YIELD. MIGR of a sealed thread, to its own core or to an address without an owner passes; otherwise, with at most 10 registers in its mask, the thread goes past it and waits to depart to the owner; with more it faults. An address whose page is absent has no owner yet and holds it, and a core that does not hold the context is refused with 0x07. That a sealed thread's passes whatever its mask (log 19) and that refusal (log 18) are the model's choices. -/
def Obligations.ThreadsMove : Prop :=
  ∀ (s s₁ : State) (t : Thread) (a : BitVec 5) (b : Src) (g : BitVec 5) (c k : Nat), t.settOn = none → t.place = .slot c k → t.Ended →
    (Ends s s₁ t [] [] 4 g → t.handler = false → k ≠ Config.handlerSlot →
      (s₁.stockOf c = [] → exec (.yield g) s = .next (s₁.pastEnd t 4)) ∧
      (∀ u o, s₁.stockOf c = [(u, o)] → s₁.thread? u = some o → u ≠ s₁.cur → o.inRotation = true → o.handler = false → o.toPlace = false → o.ceded = false → o.attr.ctx = t.attr.ctx →
        t.attr.prio ≤ o.attr.prio → o.attr.count ≤ s₁.freeRegs c + t.attr.count → ∃ s' o' t',
        exec (.yield g) s = .next s' ∧ s'.thread? u = some o' ∧ o'.place = .slot c k ∧ o'.pc = o.pc ∧ o'.attr = o.attr ∧
        s'.thread? s₁.cur = some t' ∧ t'.place = .stock c ∧ t'.pc = (t.pc + 4) % 2 ^ 48 ∧ t'.regs = t.regs ∧ t'.attr = t.attr)) ∧
    (∀ va, Ends s s₁ t (a :: b.fields) (a :: b.fields) b.len g → checkAddr (t.val a) 0 8 false = .ok va →
      let mask : BitVec 28 := (t.source b).setWidth 28
      (t.attr.isSealed = true → exec (.migr a b g) s = .next (s₁.pastEnd t b.len)) ∧
      (t.attr.isSealed = false → t.program = false →
        (10 < maskCount mask → exec (.migr a b g) s = .next (s₁.enterTrap s₁.cur 0x0A (mask.setWidth 64) t.pc)) ∧
        (maskCount mask ≤ 10 →
          (windowOf va < 14 → s₁.lookup t.attr.ctx va = none →
            exec (.migr a b g) s = .next (((s₁.count c 8 1).faultWait t.attr.ctx (va / 2 ^ 16) (.thread s₁.cur)).waits t (.page va))) ∧
          ((windowOf va < 14 → s₁.lookup t.attr.ctx va ≠ none) → s₁.migOwner t.attr.ctx c va = none ∨ s₁.migOwner t.attr.ctx c va = some c →
            exec (.migr a b g) s = .next (s₁.pastEnd t b.len)) ∧
          (∀ o, s₁.migOwner t.attr.ctx c va = some o → o ≠ c → windowOf va = 14 → s₁.serves o t.attr.ctx = false →
            exec (.migr a b g) s = .next (s₁.enterTrap s₁.cur 0x07 (BitVec.ofNat 64 va) t.pc)) ∧
          (∀ o, s₁.migOwner t.attr.ctx c va = some o → o ≠ c → (windowOf va < 14 → s₁.lookup t.attr.ctx va ≠ none) →
            (windowOf va = 14 → s₁.serves o t.attr.ctx = true) → exec (.migr a b g) s = .next ((s₁.push (.migrationDeparture s₁.cur o mask)).waits { t.done b.len with packet := none } .depart)))))

/-- On a general core with the chunk ended and an unsealed thread: SPAWN to an allowed core sends a packet with the run of registers, the start address and the thread's attributes and waits; SEND to a core that holds its context queues its message and passes, or waits while 8 are on their way; LAUNCH touches the record's line (R334), sends the record's address to the Bed and waits for its status in D. A core not allowed is refused with 0x11 or 0x12. -/
def Obligations.PacketsAndMessages : Prop :=
  ∀ (s s₁ s₂ : State) (t : Thread) (d a : BitVec 5) (b : Src) (n g : BitVec 5), t.settOn = none → t.Ended → t.attr.isSealed = false →
    let run : List (BitVec 5) := (List.range n.toNat).map (fun k => d + BitVec.ofNat 5 k)
    let x := t.val a
    (Ends s s₁ t (a :: b.fields ++ run) (a :: b.fields) b.len g → LegalTarget (t.source b).toNat →
      exec (.spawn d a b n g) s = .next (if s₁.spawnRefused t.attr.ctx x.toNat then s₁.enterTrap s₁.cur 0x11 x t.pc else
        (s₁.push (.spawnPacketAccept (t.childPacket s₁.cur x.toNat (t.source b).toNat run))).waits t .reply)) ∧
    (Ends s s₁ t (a :: run) (a :: run) 4 g → x.toNat / 2 ^ 44 = 0 → x.toNat / 2 ^ 14 % 2 ^ 18 = 0 →
      x.toNat / 2 ^ 32 = s₁.device.devid.toNat →
      let words := run.map t.val
      let c := x.toNat % 2 ^ 14
      legalTarget (words.headD 0#64).toNat = true →
      exec (.send d a n g) s = .next (if s₁.sendRefused t.attr.ctx c then s₁.enterTrap s₁.cur 0x12 x t.pc
        else if 8 ≤ s₁.messageLoad c then s₁.waits t (.send c)
        else (s₁.push (.messageArrival c (t.message s₁.device.devid.toNat words))).pastEnd t 4)) ∧
    (∀ va loc, Ends s s₁ t [d, a] [a] 4 g → checkAddr x 0 64 false = .ok va → s₁.Leads s₂ t va .rd loc → (s₂.touchPlaces [loc]).poisoned loc = false →
      exec (.launch d a g) s = .next (((s₂.touchPlaces [loc]).push (.launchAdmission (t.request s₁.cur d va))).waits (t.awaits d) .reply))

/-- On a general core with the chunk ended, WATCH of a well-formed descriptor in own local memory, on lines that are clean and that no engine command owns (R332), adds a watch on its page's slice, sends its id to D and waits; a descriptor that R176 refuses, and a slice that already holds 16, answer all ones and change nothing else. UNWATCH removes the context's watch of that id and passes. That the descriptor's pointer is 8-byte aligned and has format code 0 is the model's choice (log 15). -/
def Obligations.Watches : Prop :=
  ∀ (s s₁ : State) (t : Thread) (d a : BitVec 5) (g : BitVec 5) (va : Nat), t.settOn = none →
    (Ends s s₁ t [d, a] [a] 4 g → checkAddr (t.val a) 0 8 false = .ok va → fmtOf (t.val a) = 0 → windowOf (t.spell va) = 15 →
      t.spell va % 2 ^ 16 + 40 ≤ 0xC000 →
      (∀ k ∈ [0, 39], s₁.owned ((localLoc t.core (t.spell va % 2 ^ 16) + k) / 64) = false ∧ s₁.poisoned (localLoc t.core (t.spell va % 2 ^ 16) + k) = false) →
      let w (k : Nat) : Nat := s₁.see t (t.spell va + 8 * k) (localLoc t.core (t.spell va % 2 ^ 16 + 8 * k)) 8
      let good := w 0 % 8 = 0 ∧ w 0 < 14 * 2 ^ 44 ∧ 8 ≤ w 1 ∧ w 1 ≤ 65536 ∧ w 1 % 8 = 0 ∧ LegalTarget (w 4)
      let answers (s' : State) (v : Word) : Prop := exec (.watch d a g) s = .next ((s'.push (.replyArrival s₁.cur d v)).waits (t.awaits d) .reply)
      (¬ good → answers s₁ (BitVec.allOnes 64)) ∧
      (∀ e, good → s₁.lookup t.attr.ctx (w 0) = some e →
        let size := if e.level = 2 then 2 ^ 30 else if e.level = 1 then 2 ^ 21 else 2 ^ 16
        let slice := s₁.homeSlice e (w 0)
        if w 0 / size ≠ (w 0 + w 1 - 1) / size ∨ 16 ≤ (s₁.watches.filter (fun x => decide (x.slice = slice))).length
        then answers s₁ (BitVec.allOnes 64)
        else answers ((s₁.useEntry e false).watching
          ⟨t.attr.ctx, s₁.nextWatch, t.core, slice, w 0, w 1, BitVec.ofNat 64 (w 2), BitVec.ofNat 64 (w 3), BitVec.ofNat 64 (w 4)⟩)
          (BitVec.ofNat 64 s₁.nextWatch))) ∧
    (Ends s s₁ t [a] [a] 4 g →
      let left := s₁.watches.filter (fun w => !(decide (w.ctx = t.attr.ctx) && decide (w.id = (t.val a).toNat)))
      exec (.unwatch a g) s = .next ({ s₁ with watches := left }.pastEnd t 4))

/-- CONST inside a chunk on a general core reads word c of own local memory, on a line that is not poisoned, into D. With the chunk ended, MOV.CTL and MOV to a downstream port with a target and fewer than four words there send the source, with control bit 1 or 0, to arrive 2 cycles later, wait while there are four, and fault with 0x15 without a target; MOV from an upstream port takes its oldest word into D (first one that came for the thread while it was saved), and waits while none stands there from before this cycle or a waiting STS keeps it. PORT_WORD_DELIVERY appends the word to the queue and lets threads at that core look again; a saved thread that waited for it takes it with it. Nothing else changes. Which saved thread takes an arriving word, and that it takes one word for each wait, is the model's choice (log 111). -/
def Obligations.ConstAndPorts : Prop :=
  ∀ (s s₁ : State) (t : Thread) (d : BitVec 5) (n : BitVec 8) (g : BitVec 5), t.settOn = none →
    (Inside s t [d] g → t.solo = false →
      let loc := localLoc t.core (8 * n.toNat)
      s.owned (loc / 64) = false → s.poisoned loc = false →
      exec (.const d n g) s = .next (s.withThread ((((t.opened s.co 4).noteRead loc none).setReg d.toNat
        (BitVec.ofNat 64 (s.see t (15 * 2 ^ 44 + 8 * n.toNat) loc 8))).passed))) ∧
    (∀ (b : Src) (o : BitVec 1), b.fields.any isPort = false → t.Holds b.fields → t.Ended →
      let port : BitVec 5 := if o = 0#1 then 30#5 else 31#5
      ∀ p ∈ ([(.movCtl o b g, true), (.mov port b g, false)] : List (Instr × Bool)),
      Closed s s₁ t (port :: b.fields) b.len g →
        (s₁.portTarget t.core port.toNat = none → exec p.1 s = .next (s₁.enterTrap s₁.cur 0x15 (port.setWidth 64) t.pc)) ∧
        (∀ q, s₁.portTarget t.core port.toNat = some q → exec p.1 s = .next (
          if 4 ≤ s₁.portLoad q (port.toNat - 2) then s₁.waits t (.portOut port.toNat)
          else (s₁.sendWord q (port.toNat - 2) (t.source b) p.2 (sideOf t.core q)).pastEnd t b.len))) ∧
    (∀ (q n : Nat) (v : Word) (ctl : Bool) (side : Nat),
      (s.cycle + 2, .portWordDelivery q (n + 32 * side) v ctl) ∈ (s.sendWord q n v ctl side).timers ∧
      (∀ e ∈ s.timers, e ∈ (s.sendWord q n v ctl side).timers) ∧
      { s.sendWord q n v ctl side with timers := s.timers } = s) ∧
    (∀ p : BitVec 5, (p = 28#5 ∨ p = 29#5) → d.toNat < 28 → t.wait = .running → Closed s s₁ t [d, p] 4 g →
      let words := s₁.wordsFor t t.core p.toNat
      let new := (s₁.core t.core).newWords p.toNat
      (words.length ≤ new ∨ s₁.portHeld t.core p.toNat = true → exec (.mov d (.reg p) g) s = .next (s₁.waits t (.portIn p.toNat))) ∧
      (∀ v rest, s₁.portHeld t.core p.toNat = false → words = (v, false) :: rest → new < words.length →
        (t.stashed p.toNat = [] → exec (.mov d (.reg p) g) s = .next ((((s₁.modCore t.core (fun q => q.setQueue p.toNat rest)).wakeAll
          (fun _ u => match u.wait with | .portOut _ => true | _ => false)).wakePorts t.core).pastEnd (t.setReg d.toNat v) 4)) ∧
        (t.stashed p.toNat ≠ [] → exec (.mov d (.reg p) g) s = .next ((s₁.wakePorts t.core).pastEnd
          ({ t with stash := t.stash.eraseP (fun w => decide (w.1 = p.toNat)) }.setReg d.toNat v) 4)))) ∧
    (∀ (c p : Nat) (v : Word) (ctl : Bool) (side : Nat), p < 32 → s.coreFenced c = false →
      (s.savedReader c p = none → exec (.portWordDelivery c (p + 32 * side) v ctl) s = .next ((s.modCore c (fun q => q.enqueue p v ctl)).wakePorts c)) ∧
      (∀ u t, s.savedReader c p = some u → s.thread? u = some t → exec (.portWordDelivery c (p + 32 * side) v ctl) s =
        .next { s with threads := Tab.insert s.threads u { t with stash := t.stash ++ [(p, v, ctl)], portWait := none } }) ∧
      ∀ q : Core, (q.enqueue p v ctl).inQueue p = q.inQueue p ++ [(v, ctl)])

/-- On a general core, a form inside the chunk whose guard is false counts as an instruction of the chunk and the pc passes it, with no other change, whether its registers are full or not; a chunk-ending form whose guard is false hands an open chunk to the arbiters and passes, without progress of its context, and waits only while an earlier chunk is still there. How such a form hands the chunk over, waits and makes no progress is the model's reading (log 106). -/
def Obligations.FalseGuards : Prop :=
  ∀ (s : State) (t : Thread) (d a : BitVec 5) (b : Src) (i : BitVec 10) (o : BitVec 20) (v : BitVec 4) (r : BitVec 8) (g : BitVec 5), t.guard g = false → t.settOn = none →
    s.thread? s.cur = some t →
    (t.Owns (d :: a :: b.fields) → t.Roomy →
      ∀ p ∈ ([(.add d a b g, b.len), (.cmpEq v a b g, b.len), (.addImm d a i g, 4), (.fadd d a b g, b.len), (.pand v v v g, 4),
          (.adda d a b g, b.len), (.br o g, 4), (.loop d i g, 4), (.ldD d a i g, 4), (.stD d a i g, 4), (.arm d g, 4), (.mfs r a g, 4)] : List (Instr × Nat)),
        exec p.1 s = .next (s.withThread (t.opened s.co p.2).passed)) ∧
    (∀ p ∈ ([(.aadd d a b g, [d, a] ++ b.fields, b.len), (.lde d a i g, [d, a], 4), (.pst a b g, a :: b.fields, b.len), (.fenceDev g, [], 4),
        (.quit g, [], 4), (.join a b g, a :: b.fields, b.len), (.trap a g, [a], 4)] : List (Instr × List (BitVec 5) × Nat)),
      (∀ r ∈ p.2.1, t.beyond r = false) →
      let t' := t.begun p.2.2
      exec p.1 s = .next (
        if t.chunk.idle then s.withThread (t'.done p.2.2)
        else if t.prev.isSome then s.waits t' .commit
        else (s.withThread ({ t' with prev := some t.chunk, chunk := t'.newChunk s.co }.done p.2.2)).push (.chunkCommit s.cur)))

/-- CHUNK_COMMIT of an unsealed thread's chunk that no committed write has met (a solo one in any case): when nothing holds its lines, its bytes are committed as one event, every other byte is unchanged, and the thread goes on with the next chunk; when something holds a line, it stays pending, but a solo one gives up the lines it reserved and starts again, uncounted. A chunk that read a word committed since it began gives back its slot shadow, starts again at its first instruction with one more squash counted, the fourth in a row making it solo, and no byte of memory changes; a solo chunk starts again uncounted when a translation it used is gone. A chunk whose signatures could overlap falsely either commits or is squashed. -/
def Obligations.ChunkCommits : Prop :=
  ∀ (s : State) (u : Nat) (t : Thread) (c : Chunk), s.thread? u = some t → t.prev = some c → t.attr.isSealed = false → s.Inv →
    let lines := linesOf (c.writes.map (·.loc))
    let commits (s' : State) : Prop :=
      s'.mem = c.writes.foldr (fun w m => Store.put m w.loc w.val) s.mem ∧ s'.empty = s.empty ∧
      let t' : Thread := { t with prev := none, packet := none }
      s'.thread? u = some (if t.wait = .commit then t'.wake else t')
    let restarts (s' : State) (n : Nat) (b : Bool) : Prop := s'.mem = s.mem ∧ s'.empty = s.empty ∧ ∃ t', s'.thread? u = some t' ∧
      t'.pc = c.startPc ∧ t'.regs = c.shadow.regs ∧ t'.preds = c.shadow.preds ∧ t'.fflags = c.shadow.fflags ∧ t'.tvec = c.shadow.tvec ∧
      t'.sq = n ∧ t'.solo = b ∧ t'.prev = none ∧ t'.chunk.writes = [] ∧ t'.chunk.reads = [] ∧ t'.chunk.count = 0
    (c.lost = false → (c.solo = true ∨ s.conflict c = false) →
      (s.heldBack u lines = false → (∀ w ∈ c.writes, s.staleLine (w.loc / 64) = false) → (∀ l v k x r, t.wait ≠ .addr l v k x r) →
        (∀ l, t.wait ≠ .nmstat l) → t.wait ≠ .owned → ∃ s', exec (.chunkCommit u) s = .next s' ∧
          (commits s' ∨ (c.solo = false ∧ s.mayOverlap c = true ∧ restarts s' (c.sq + 1) (decide (4 ≤ c.sq + 1)))) ∧
          (c.solo = true ∨ s.mayOverlap c = false → commits s')) ∧
      (s.heldBack u lines = true →
        (c.solo = false → exec (.chunkCommit u) s = .next (s.push (.chunkCommit u))) ∧
        (c.solo = true → ∃ s', exec (.chunkCommit u) s = .next s' ∧ restarts s' c.sq true ∧ ∀ r ∈ s'.reserved, r.2 ≠ u))) ∧
    ((c.lost = true ∨ (c.solo = false ∧ s.conflict c = true)) → ∃ s', exec (.chunkCommit u) s = .next s' ∧
      restarts s' (if c.solo then c.sq else c.sq + 1) (c.solo || decide (4 ≤ c.sq + 1)))

/-- On a general core with the chunk ended, outside a handler and with TVEC set: TRAP (cause 0x18, its operand, returning past it), BKPT without a debugger (cause 0x19) and the all-zero word (cause 0x01) save cause with bit 63, value and return address in CAUSE, FVAL and FPC and go on at TVEC, bits [1:0] of which the pc does not hold (the model's reading, log 107); every register, predicate and other field of the thread, and the rest of the state, is unchanged. TRET clears bit 63 of CAUSE and goes on at FPC; outside a handler it is illegal. BKPT with a debugger halts the thread past it. -/
def Obligations.TrapsEnter : Prop :=
  ∀ (s s₁ : State) (t : Thread) (a g : BitVec 5), t.settOn = none → t.Ended → s₁.thread? s₁.cur = some t →
    let entered (cause : Nat) (v : Word) (ret : Nat) : State := s₁.withThread
      { t with cause := BitVec.ofNat 64 (2 ^ 63 + cause), fval := v, fpc := BitVec.ofNat 64 (ret % 2 ^ 48), pc := t.tvec.toNat % 2 ^ 48 / 4 * 4, wait := .running, packet := none, drain := none }
    (t.inTrap = false → t.tvec ≠ 0#64 →
      (Ends s s₁ t [a] [a] 4 g → exec (.trap a g) s = .next (entered 0x18 (t.val a) (t.pc + 4))) ∧
      (Ends s s₁ t [] [] 4 g → s₁.debugger t.attr.ctx = none → exec (.bkpt g) s = .next (entered 0x19 0#64 (t.pc + 4))) ∧
      (s.commitAll s.cur = (.done, s₁) → (∃ t₀, s.thread? s.cur = some t₀ ∧ t₀.settOn = none ∧ t₀.pc = t.pc) → s₁.cur = s.cur →
        exec .ill s = .next (entered 0x01 0#64 t.pc)) ∧
      (Ends s s₁ t [] [] 4 g → exec (.tret g) s = .next (entered 0x01 (s₁.iword.setWidth 64) t.pc))) ∧
    (t.inTrap = true → LegalTarget t.fpc.toNat → Ends s s₁ t [] [] 4 g →
      exec (.tret g) s = .next ((s₁.withThread { t with pc := t.fpc.toNat, ilen := 0, cause := t.cause &&& 0x7FFFFFFFFFFFFFFF#64 }).progress t.attr.ctx)) ∧
    (∀ i, Ends s s₁ t [] [] 4 g → s₁.debugger t.attr.ctx = some i →
      exec (.bkpt g) s = .next ((((s₁.withThread { t with halted := true, haltReq := false }).push (.debugView i s₁.cur)).after
        (10 * Config.cyclesPerMicro) (.debugView i s₁.cur)).pastEnd { t with halted := true, haltReq := false } 4))

/-- A trap of a thread that is in its handler, or whose TVEC is 0, ends the thread; when its context's fault window has room, the entry at its head becomes the 64-byte record of KIND 1 with the cause, the context, slot and core, sequence number, TID, value and pc, the head advances, and every other byte of host memory and of the device is unchanged; a full window counts the record as lost and writes nothing. TRAP in a handler is such a trap. That a sealed thread's double fault discards its footprint too is the model's choice (log 37). -/
def Obligations.DoubleFault : Prop :=
  ∀ (s : State) (u cause ret : Nat) (v : Word) (t : Thread) (i : Nat) (p : CtxPage), s.thread? u = some t → s.Inv →
    (t.inTrap = true ∨ t.tvec = 0#64) → s.page? t.attr.ctx = some (i, p) →
    let s' := s.enterTrap u cause v ret
    let at0 := hostLoc (p.fwbase.toNat + 64 * (p.fwhead.toNat % p.fwsize.toNat))
    let w0 := 2 ^ 56 + cause % 256 * 2 ^ 48 + t.attr.ctx % 65536 * 2 ^ 32 + t.slot % 32 * 2 ^ 16 + t.core % 16384
    s'.thread? u = none ∧ s'.empty = s.empty ∧
    ((p.fwhead - p.fwtail).toNat = p.fwsize.toNat → s'.mem = s.mem) ∧
    ((p.fwhead - p.fwtail).toNat ≠ p.fwsize.toNat → t.pc < 2 ^ 64 → t.attr.seq < 2 ^ 64 →
      SameBut s.mem s'.mem at0 64 ∧
      (List.range 8).map (fun k => s'.readLoc (at0 + 8 * k) 8) = [w0, t.attr.seq, t.attr.tid.toNat, v.toNat, t.pc, 0, 0, 0]) ∧
    (∀ (s₀ : State) (a g : BitVec 5), Ends s₀ s t [a] [a] 4 g → t.settOn = none → t.Ended → s.cur = u →
      exec (.trap a g) s₀ = .next (s.enterTrap u 0x18 (t.val a) (t.pc + 4)))

/-- Inside a chunk on a general core MFS of register r writes to A what R297 and R298 give register r (TID, core, cluster, Face, device, context, priority and slot, capacity, cluster load, chunk state, FFLAGS, CAUSE, FVAL, FPC, TVEC, WDOG), and MTS writes FFLAGS, CAUSE, FVAL, FPC and TVEC without their reserved bits; nothing else changes. With the chunk ended MTS to WDOG sets the context's watchdog period, clamped to 1,000 to 60,000,000 microseconds, and is progress: the count returns to 0 unless it stands still. -/
def Obligations.SystemRegisters : Prop :=
  ∀ (s s₁ : State) (t : Thread) (a g : BitVec 5), t.settOn = none →
    let c := t.core
    let n (k : Nat) : Word := BitVec.ofNat 64 k
    (Inside s t [a] g → ∀ p ∈ ([(0#8, t.attr.tid.setWidth 64), (1#8, n c), (2#8, n (c % 2048 / 128 * 8 + c % 32 / 4)), (3#8, n (c / 2048)),
        (4#8, s.device.devid.setWidth 64), (5#8, n t.attr.ctx), (6#8, n (t.attr.prio % 64 * 256 + t.slot % 32)), (7#8, n (s.core c).cap),
        (8#8, (s.withThread (t.opened s.co 4)).cload c),
        (9#8, n ((if t.prev.isSome then 1024 else 0) + (if t.solo then 512 else 0) + t.sq % 8)), (10#8, t.fflags), (11#8, t.cause),
        (12#8, t.fval), (13#8, t.fpc), (14#8, t.tvec),
        (15#8, match s.page? t.attr.ctx with | some (_, q) => q.wdog | none => 0#64)] : List (BitVec 8 × Word)),
      exec (.mfs p.1 a g) s = .next (s.withThread (t.wrote s.co 4 a p.2))) ∧
    (Inside s t [a] g → t.Holds [a] →
      let x := t.val a
      let o := t.opened s.co 4
      ∀ p ∈ ([(10#8, { o with fflags := x &&& 0x317#64 }), (11#8, { o with cause := x &&& 0x80000000000000FF#64 }), (12#8, { o with fval := x }),
          (13#8, { o with fpc := x &&& 0xFFFFFFFFFFFF#64 }), (14#8, { o with tvec := x &&& 0xFFFFFFFFFFFF#64 })] : List (BitVec 8 × Thread)),
        exec (.mts p.1 a g) s = .next (s.withThread p.2.passed)) ∧
    (Ends s s₁ t [a] [a] 4 g → exec (.mtsWdog a g) s = .next (((s₁.modCtx t.attr.ctx (fun p => { p with
      wdog := n (max 1000 (min 60000000 (t.val a).toNat)) })).progress t.attr.ctx).pastEnd t 4)) ∧
    (∀ x i p, s.page? x = some (i, p) → ∃ q, (s.progress x).ctxPage i = q ∧
      (s.dogStill x = false → q = { s.ctxPage i with count := 0, expired := false }) ∧ (s.dogStill x = true → q = s.ctxPage i))

/-- On a general core with the chunk ended and outside the handler slot, IDLE and IDLE.t with a limit of 1 to 2^32 - 1 cycles pass when a message or light handler is queued at the core and otherwise wait, IDLE.t with its limit set. IDLE_TIMEOUT and WAITA_TIMEOUT of the wait that is on let the thread pass, WAITA.t with 0 in its register and progress of its context; those of an earlier wait do nothing. -/
def Obligations.IdleAndLimits : Prop :=
  (∀ (s s₁ : State) (t : Thread) (a g : BitVec 5), t.settOn = none → t.handler = false →
    let work := (s₁.core t.core).msgs ≠ [] ∨ (s₁.core t.core).lights ≠ []
    (Ends s s₁ t [] [] 4 g → exec (.idle g) s = .next (if work then s₁.pastEnd t 4 else s₁.waits t (.idle false))) ∧
    (Ends s s₁ t [a] [a] 4 g → t.val a ≠ 0#64 → (t.val a).toNat < 2 ^ 32 →
      exec (.idleT a g) s = .next (if work then s₁.pastEnd t 4 else
        (s₁.after (t.val a).toNat (.idleTimeout s₁.cur (t.stamp + 1))).waits t (.idle true)))) ∧
  (∀ (s : State) (u k : Nat) (t : Thread), s.thread? u = some t → s.Inv →
    (t.wait = .idle true → exec (.idleTimeout u k) s =
      .next (if t.stamp = k then { s with threads := Tab.insert s.threads u t.finish } else s)) ∧
    (∀ loc va n v r, t.wait = .addr loc va n v (some r) → exec (.waitaTimeout u k) s =
      .next (if t.stamp = k then ({ s with threads := Tab.insert s.threads u (t.fillReg r 0#64).finish } : State).progress t.attr.ctx else s)))

/-- On a general core with the chunk ended and no vector or matrix command left there that was admitted before it, TLOAD of table 0 to 3 from 1,032 readable bytes that no engine owns, clean once their lines are touched (R334), stores the table they give in the core's engine state, marks it as being built for 256 cycles, remembers the pages it used and passes; TLOAD_BUILD_COMPLETE ends one building of the table and lets waiting conversions, and exchanges that wait for the engines, look again. SYNCI of an empty range, or of one inside the global windows, passes. That SYNCI takes bits 47-0 of its operand as the base, whatever its tag (log 14), and that it only checks its range and passes (log 12), are the model's choices. -/
def Obligations.TablesAndCode : Prop :=
  (∀ (s s₁ : State) (t : Thread) (a b g : BitVec 5), t.settOn = none → Ends s s₁ t [a, b] [a, b] 4 g →
    (∀ va locs, (t.val a).toNat ≤ 3 → checkAddr (t.val b) 0 8 false = .ok va → fmtOf (t.val b) = 0 → spanWhole va 1032 = true →
      (∀ k ∈ (s₁.core t.core).vq ++ (s₁.core t.core).mq, t.drain.getD s₁.co < k.mark) → s₁.reach t va .rd 1032 = .ok locs →
      (∀ l ∈ locs, s₁.owned (l / 64) = false) →
      let k := (t.val a).toNat
      let r := s₁.touchPlaces locs
      (∀ l ∈ locs, r.poisoned l = false) →
      exec (.tload a b g) s = .next (((((r.usePages t.attr.ctx (spanLines 1032 [va]) false).modCore t.core (fun q => { q with eng := { q.eng with
        tables := Tab.put DTable.reset q.eng.tables k (DTable.ofImage (locs.map (Store.get r.mem))), building := q.eng.building ++ [k] } })).after 256
        (.tloadBuildComplete t.core k))).pastEnd { t with drain := none } 4)) ∧
    ((t.val b = 0#64 ∨ (t.val a).toNat % 2 ^ 48 + (t.val b).toNat ≤ 14 * 2 ^ 44) → exec (.synci a b g) s = .next (s₁.pastEnd t 4))) ∧
  (∀ (s : State) (c k : Nat), exec (.tloadBuildComplete c k) s = .next
    ((s.modCore c (fun q => { q with eng := { q.eng with building := q.eng.building.erase k } })).wakeAll
      (fun _ t => (decide (t.wait = .table) || decide (t.wait = .engines)) && decide (t.core = c))))

/-- On a general core with the chunk ended: HARVEST of one 64 KiB by a privileged context sets bit 59 of the leaf entry of the page that holds it when that page was used and bit 60 when write ownership was granted, forgets both records, changes no other byte, and passes, once nothing holds the line of the entry (R328, R332); an unprivileged one faults with 0x14. CTXSWAP of an index at or above 128, or one that no ready entry has, writes the status to A; of a fitting ready entry of the same context, that thread takes the slot and this one waits in the stockpile past its CTXSWAP. -/
def Obligations.PagesAndContexts : Prop :=
  ∀ (s s₁ : State) (t : Thread) (a b g : BitVec 5) (c k : Nat), t.settOn = none → t.place = .slot c k → t.Ended → s₁.Inv →
    (Ends s s₁ t [a, b] [a, b] 4 g →
      (s₁.privileged t.attr.ctx = false → exec (.harvest a b g) s = .next (s₁.enterTrap s₁.cur 0x14 0#64 t.pc)) ∧
      (∀ i p pa level, s₁.privileged t.attr.ctx = true → s₁.page? t.attr.ctx = some (i, p) → (t.val a).toNat < 2 ^ 48 →
        (t.val a).toNat % 2 ^ 16 = 0 → t.val b = 65536#64 → s₁.leafEntry (t.val a).toNat 4 p.ptroot.toNat = some (level, pa) →
        pa / 2 ^ 40 = s₁.device.devid.toNat → s₁.staleLine (interleaved ((pa + 7) % 2 ^ 40) / 64) = false → s₁.busyLine (interleaved ((pa + 7) % 2 ^ 40) / 64) = false → t.wait = .running →
        let loc := interleaved ((pa + 7) % 2 ^ 40)
        let page := (t.attr.ctx, pageBase level ((t.val a).toNat / 2 ^ 16))
        ∃ s', exec (.harvest a b g) s = .next s' ∧ s'.thread? s₁.cur = some (t.done 4) ∧ SameBut s₁.mem s'.mem loc 1 ∧
          Store.get s'.mem loc = (Store.get s₁.mem loc ||| BitVec.ofNat 8
            ((if s₁.grants.contains page then 16 else 0) + (if s₁.used.contains page then 8 else 0))) ∧
          s'.grants = s₁.grants.erase page ∧ s'.used = s₁.used.erase page)) ∧
    (Ends s s₁ t [a, b] [b] 4 g →
      (128 ≤ (t.val b).toNat → exec (.ctxswap a b g) s = .next (s₁.pastEnd (t.setReg a.toNat (BitVec.ofNat 64 (2 ^ 63 + 3))) 4)) ∧
      ((t.val b).toNat < 128 → (∀ e ∈ s₁.clusterStock c, e.2.index ≠ some (t.val b).toNat) →
        exec (.ctxswap a b g) s = .next (s₁.pastEnd (t.setReg a.toNat (BitVec.ofNat 64 (2 ^ 63 + 1))) 4)) ∧
      (∀ u o, (t.val b).toNat < 128 → s₁.thread? u = some o → u ≠ s₁.cur → s₁.clusterStock c = [(u, o)] → o.index = some (t.val b).toNat →
        o.place = .stock c → o.toPlace = false → o.ceded = false → o.inRotation = true → o.attr.ctx = t.attr.ctx → o.attr.count ≤ s₁.freeRegs c + t.attr.count → k ≠ Config.handlerSlot → ∃ s' o' t',
        exec (.ctxswap a b g) s = .next s' ∧ s'.thread? u = some o' ∧ o'.place = .slot c k ∧ o'.pc = o.pc ∧ o'.attr = o.attr ∧
        s'.thread? s₁.cur = some t' ∧ t'.place = .stock c ∧ t'.swapReg = some a.toNat ∧ t'.pc = (t.pc + 4) % 2 ^ 48 ∧ t'.regs = t.regs))

/-- On a general core whose engine state carries the thread's context, with room in the vector queue and nobody waiting for it, each V form, VCFG of a legal value and VGET (whose register then awaits the value) enters the queue as one command, an idle engine starts, and the thread passes; so do VLD, VST, VLDS, VLDX, VLDB, VSTB, VPUTS and VGETS whose addresses and codes pass their checks, a load with exactly the lines of its lanes and scale run still to read (VLDX when the engine's state ahead of it is known: those of its active lanes), a store owning exactly those it will write and keeping those of which it reads a part. Memory, the engine's state and everything else are unchanged, but for the records of the pages that those lines name. -/
def Obligations.VectorCommands : Prop :=
  ∀ (s s₁ : State) (t : Thread) (g : BitVec 5),
    let queued (i : Instr) (t' : Thread) (op : EngOp) (r : Nat) (x y : Word) (dst src : List Nat) : Prop := ∃ s',
      exec i s = .next s' ∧ Admitted s₁ s' t .vector (s₁.newCmd t op r x y dst src) dst src ∧ s'.thread? s₁.cur = some (t'.done 4)
    (∀ (n d a b : BitVec 4) (k m : BitVec 2), Engages s s₁ t [] [] g .vector →
      ∀ p ∈ ([(.vadd d a b m g, .vfun .add d a b m), (.vsub d a b m g, .vfun .sub d a b m), (.vmul d a b m g, .vfun .mul d a b m),
        (.vfma d a b m g, .vfun .fma d a b m), (.vmin d a b m g, .vfun .min d a b m), (.vmax d a b m g, .vfun .max d a b m),
        (.vabs d a m g, .vfun .abs d a 0#4 m), (.vneg d a m g, .vfun .neg d a 0#4 m), (.vrndRne d a m g, .vfun (.rnd 0) d a 0#4 m),
        (.vrndRz d a m g, .vfun (.rnd 1) d a 0#4 m), (.vrndRd d a m g, .vfun (.rnd 2) d a 0#4 m), (.vrndRu d a m g, .vfun (.rnd 3) d a 0#4 m),
        (.vfexp2 d a m g, .vfun .exp2 d a 0#4 m), (.vscale d a b m g, .vfun .scale d a b m), (.vrcp d a m g, .vfun .rcp d a 0#4 m),
        (.vrsq d a m g, .vfun .rsq d a 0#4 m), (.vcmpEq k a b m g, .vcmp 0 k a b m), (.vcmpNe k a b m g, .vcmp 1 k a b m),
        (.vcmpLt k a b m g, .vcmp 2 k a b m), (.vcmpLe k a b m g, .vcmp 3 k a b m), (.vcmpGt k a b m g, .vcmp 4 k a b m),
        (.vcmpGe k a b m g, .vcmp 5 k a b m), (.vcmpUn k a b m g, .vcmp 6 k a b m), (.vcmpOr k a b m g, .vcmp 7 k a b m),
        (.vsel d a b m g, .vsel d a b m), (.viadd d a b m g, .vfun .iadd d a b m), (.visub d a b m g, .vfun .isub d a b m),
        (.vimul d a b m g, .vfun .imul d a b m), (.vand d a b m g, .vfun .and d a b m), (.vor d a b m g, .vfun .or d a b m),
        (.vxor d a b m g, .vfun .xor d a b m), (.vshl d a b m g, .vfun .shl d a b m), (.vshr d a b m g, .vfun .shr d a b m),
        (.vshrS d a b m g, .vfun .shrS d a b m), (.vrsum d a m g, .vfun .rsum d a 0#4 m), (.vnzc d a m g, .vfun .nzc d a 0#4 m),
        (.vnzb d a m g, .vfun .nzb d a 0#4 m), (.vperm d a b m g, .vfun .perm d a b m), (.vslide n d a b m g, .vslide n d a b m),
        (.vcvtF2i d a m g, .vfun .f2i d a 0#4 m), (.vcvtF2iRz d a m g, .vfun .f2iRz d a 0#4 m), (.vcvtI2f d a m g, .vfun .i2f d a 0#4 m),
        (.vcvtF2b d a m g, .vfun .f2b d a 0#4 m), (.vcvtB2f d a m g, .vfun .b2f d a 0#4 m), (.vcvtF2h d a m g, .vfun .f2h d a 0#4 m),
        (.vcvtH2f d a m g, .vfun .h2f d a 0#4 m)] : List (Instr × EngOp)), queued p.1 t p.2 0 0#64 0#64 [] []) ∧
    (∀ (r : BitVec 6) (a : BitVec 5), Engages s s₁ t [a] [a] g .vector →
      (r = 0#6 → t.val a &&& ~~~0xFF3#64 = 0#64 ∧ (t.val a).toNat / 16 % 16 ≤ 4) → queued (.vcfg r a g) t (.vcfg r) 0 (t.val a) 0#64 [] []) ∧
    (∀ (r : BitVec 6) (a : BitVec 5), Engages s s₁ t [a] [] g .vector → queued (.vget r a g) (t.expects a) (.vget r) a.toNat 0#64 0#64 [] []) ∧
    (∀ (v : BitVec 4) (a b : BitVec 5),
      let x := t.val a
      let y := t.val b
      let z := elemBytes (fmtOf x)
      let run := spanLines 16 [y.toNat % 2 ^ 48]
      let here := spanLines 16 [x.toNat % 2 ^ 48]
      let runs (p : Perm) (w : Word) : Prop := s₁.OpenExtent t p w 16 16 ∧ fmtOf w = 0
      let lanes (p : Perm) (off : Nat → Int) (va : Nat → Nat) : Prop := ∀ i, i < 16 → checkAddr x (off i) z false = .ok (va i) ∧
        ∀ k, s₁.coreSpot t.core t.attr.ctx (va i) p ≠ .bad k
      let lines (va : Nat → Nat) : List Nat := spanLines z ((List.range 16).map va)
      let kept (va : Nat → Nat) : List Nat := if isH4 (fmtOf x) then lines va else []
      let flat (i : Nat) : Int := elemOffset (fmtOf x) i
      (Engages s s₁ t [a] [a] g .vector → ∀ va,
        (lanes .rd flat va → queued (.vld v a g) t (.vld v) 0 x 0#64 [] (lines va).eraseDups) ∧
        (lanes .wr flat va → queued (.vst v a g) t (.vst v) 0 x 0#64 (lines va).eraseDups (kept va).eraseDups)) ∧
      (Engages s s₁ t [a] [a] g .vector →
        (badTag x = false → isRef x = false → isH4 (fmtOf x) = false → ∀ ve, s₁.veAhead t.core = some ve → queued (.vldx v a g) t (.vldx v) 0 x 0#64
          [] (spanLines z (((List.range 16).filter (ve.active ve.mms)).filterMap (ve.laneAddr v x)))) ∧
        (runs .wr x → queued (.vputs v a g) t (.vputs v) 0 x 0#64 here []) ∧
        (runs .rd x → queued (.vgets v a g) t (.vgets v) 0 x 0#64 [] here)) ∧
      (Engages s s₁ t [a, b] [a, b] g .vector → ∀ va,
        (lanes .rd (fun i => i * y.toInt) va → isH4 (fmtOf x) = false → queued (.vlds v a b g) t (.vlds v) 0 x y [] (lines va).eraseDups) ∧
        (lanes .rd flat va → fmtOf x ≠ 0 → 1 ≤ blkOf x → blkOf x ≤ 12 → runs .rd y →
          queued (.vldb v a b g) t (.vldb v) 0 x y [] (lines va ++ run).eraseDups) ∧
        (lanes .wr flat va → fmtOf x ≠ 0 → 1 ≤ blkOf x → blkOf x ≤ 4 → runs .wr y →
          queued (.vstb v a b g) t (.vstb v) 0 x y (lines va ++ run).eraseDups (kept va ++ run).eraseDups)))

/-- On a general core whose engine state carries the thread's context, with room in the matrix queue and nobody waiting for it, each compute form whose operands pass their checks enters the queue with the settings it copies and the lines it reads or owns, an idle engine starts, and the thread leaves the rotation until completion. MCFG of a legal value writes the register and MGET reads it, at once; MGET of a register reads what MCFG wrote there. Nothing else changes but the records of the pages named. -/
def Obligations.MatrixCommands : Prop :=
  ∀ (s s₁ : State) (t : Thread) (g : BitVec 5),
    let c := t.core
    let m := s₁.mat c
    let f := m.cfg
    let w := 32 * f.ks
    let queued (i : Instr) (op : EngOp) (r : Nat) (x y : Word) (dst src : List Nat) : Prop := ∃ s',
      exec i s = .next s' ∧ Admitted s₁ s' t .matrix (s₁.newCmd t op r x y dst src) dst src ∧ s'.thread? s₁.cur = some (t.parked .matrix)
    let tile (x : Word) (rows stride first cols : Nat) : Prop := tileFault x rows stride first cols = none ∧ s₁.TableReady t (fmtOf x)
    let stream (x : Word) (n : Nat) : Prop := s₁.OpenExtent t .rd x (elemBytes (fmtOf x)) (streamBytes (fmtOf x) n) ∧ s₁.TableReady t (fmtOf x)
    let at0 (x : Word) (n : Nat) : List Nat := spanLines n [x.toNat % 2 ^ 48]
    (∀ n : BitVec 1, Engages s s₁ t [] [] g .matrix → queued (.mzero n g) (.mzero n) 0 0#64 0#64 [] [] ∧
      queued (.snormClr g) .snormClr 0 0#64 0#64 [] [] ∧ queued (.salias g) .salias 0 0#64 0#64 [] []) ∧
    (∀ (n : BitVec 1) (a b : BitVec 5), (Engages s s₁ t [a] [a] g .matrix → queued (.sseed a g) .sseed 0 (t.val a) 0#64 [] []) ∧
      (Engages s s₁ t [a] [] g .matrix → queued (.svar n a g) (.svar n) a.toNat 0#64 0#64 [] []) ∧
      (Engages s s₁ t [a, b] [b] g .matrix → queued (.aread a b g) .aread a.toNat 0#64 (t.val b) [] [])) ∧
    (∀ (n : BitVec 1) (a b : BitVec 5), Engages s s₁ t [a, b] [a, b] g .matrix →
      let x := t.val a
      let y := t.val b
      let k := f.sk.toNat
      let codes (z : Word) : Prop := 2 ≤ fmtOf z ∧ fmtOf z ≤ 12
      (tile x 16 f.astr.toNat 0 w → tile y w f.bstr.toNat 0 16 → queued (.mma n a b g) (.mma n) 0 x y []
        (tileLines x 16 f.astr.toNat 0 w ++ tileLines y w f.bstr.toNat 0 16).eraseDups) ∧
      (tile x 16 f.astr.toNat 0 k → tile y k f.bstr.toNat 0 16 → m.kt ≠ 0 → k = m.kt → queued (.srun n a b g) (.srun n) 0 x y []
        (tileLines x 16 f.astr.toNat 0 k ++ tileLines y k f.bstr.toNat 0 16).eraseDups) ∧
      (tile x 16 f.astr.toNat 0 w → y.toNat + w ≤ 4096 → queued (.snormA a b g) .snormA 0 x y [] (tileLines x 16 f.astr.toNat 0 w)) ∧
      (tile x w f.bstr.toNat 0 16 → y.toNat + w ≤ 4096 → queued (.snormB a b g) .snormB 0 x y [] (tileLines x w f.bstr.toNat 0 16)) ∧
      (f.neurons * f.rank + f.rank * f.din ≤ 32768 → stream x (f.neurons * f.rank) → stream y (f.rank * f.din) →
        4 ≤ fmtOf x → fmtOf x ≤ 11 → 4 ≤ fmtOf y → fmtOf y ≤ 11 → queued (.pload a b g) .pload 0 x y []
        (at0 x (streamBytes (fmtOf x) (f.neurons * f.rank)) ++ at0 y (streamBytes (fmtOf y) (f.rank * f.din))).eraseDups) ∧
      (stream x (f.neurons * f.din) → stream y (f.outs * f.neurons) → codes x → codes y → queued (.assay n a b g) (.assay n) 0 x y []
        (at0 x (streamBytes (fmtOf x) (f.neurons * f.din)) ++ at0 y (streamBytes (fmtOf y) (f.outs * f.neurons)) ++ s₁.inputLines c).eraseDups)) ∧
    (∀ (n : BitVec 1) (a : BitVec 5), Engages s s₁ t [a] [a] g .matrix →
      let x := t.val a
      let q := f.sk.toNat
      let p := (f.pos + (f.ringLen + 1) - m.rstep.toNat) % (f.ringLen + 1)
      let words (k : Nat) (pm : Perm) : Prop := s₁.OpenExtent t pm x 4 (4 * k) ∧ fmtOf x = 1
      (f.ks ≤ 8 → m.rstep = 0#64 → tile x w f.bstr.toNat 0 16 → queued (.mldb a g) .mldb 0 x 0#64 [] (tileLines x w f.bstr.toNat 0 16)) ∧
      (f.ks ≤ 8 → f.pos ≤ f.ringLen → m.rstep.toNat ≤ f.ringLen → (m.rstep = 0#64 → m.current ≠ none) → m.lost = false →
        tile x 16 f.astr.toNat (w * p) w → queued (.mring n a g) (.mring n) 0 x 0#64 [] (tileLines x 16 f.astr.toNat (w * p) w)) ∧
      (s₁.OpenExtent t .rd x 4 3072 → fmtOf x = 0 →
        queued (.maccLd n a g) (.maccLd n) 0 x 0#64 [] (at0 x 3072) ∧ queued (.maccAdd n a g) (.maccAdd n) 0 x 0#64 [] (at0 x 3072)) ∧
      (words q .wr →
        queued (.sngetA a g) .sngetA 0 x 0#64 (at0 x (4 * q)) [] ∧ queued (.sngetB a g) .sngetB 0 x 0#64 (at0 x (4 * q)) []) ∧
      (words q .rd →
        queued (.snputA a g) .snputA 0 x 0#64 [] (at0 x (4 * q)) ∧ queued (.snputB a g) .snputB 0 x 0#64 [] (at0 x (4 * q))) ∧
      (m.pshape = some f.shape → stream x f.din → 2 ≤ fmtOf x → fmtOf x ≤ 12 →
        queued (.pscore a g) .pscore 0 x 0#64 [] (at0 x (streamBytes (fmtOf x) f.din))) ∧
      (s₁.OpenExtent t .wr x 8 ((f.neurons + 63) / 64 * 8) → fmtOf x = 0 →
        queued (.psel a g) .psel 0 x 0#64 (at0 x ((f.neurons + 63) / 64 * 8)) []) ∧
      (badTag x = false → isRef x = false → blkOf x = 0 → (isH4 (fmtOf x) = true → f.wc % 2 = 1) → s₁.TableReady t (fmtOf x) →
        let z := if fmtOf x = 0 then 4 else elemBytes (fmtOf x)
        (∀ o ∈ storeOffsets f (fmtOf x), checkAddr x o z false = .ok (addrPlus x o) ∧ ∀ k, s₁.coreSpot c t.attr.ctx (addrPlus x o) .wr ≠ .bad k) →
        queued (.mstore n a g) (.mstore n) 0 x 0#64 (spanLines z ((storeOffsets f (fmtOf x)).map (addrPlus x))) [])) ∧
    (∀ (r : BitVec 6) (a : BitVec 5), t.settOn = none → (s₁.core c).etag = some t.attr.ctx →
      (Ends s s₁ t [a] [a] 4 g → meRefuses m r.toNat (t.val a) = false →
        exec (.mcfg r a g) s = .next ((s₁.modMat c (fun q => q.putReg r.toNat (t.val a))).pastEnd t 4)) ∧
      (Ends s s₁ t [a] [] 4 g → exec (.mget r a g) s = .next (s₁.pastEnd (t.setReg a.toNat (m.getReg r.toNat)) 4)) ∧
      (r.toNat < 8 ∨ (16 ≤ r.toNat ∧ r.toNat ≤ 36) → ∀ q v, (MeState.putReg q r.toNat v).getReg r.toNat = v))

/-- On a general core whose engine state carries the thread's context, with room in the copy queue and nobody waiting for it, CCOPY, CFILL, CTCOPY, CGATHER, CSCATTER and CCOPY.f whose pointers, spans, alignments, completion word and overlap pass the checks of R255, R257 and R258 enter the queue with the settings they copy, owning the lines of their destination pieces and with those of their source pieces and row list still to read, and the thread passes. CGET makes its register await the value; CCFG of a legal value writes the register at once, ce.len keeping 40 bits. Nothing else changes but the records of the pages named. The rows of a listed form are those its list gives, which no command still owns, or none where the list cannot be read: that they are known at issue (log 42), and that there are none where the list cannot be read then (log 114), are the model's choices. -/
def Obligations.CopyCommands : Prop :=
  ∀ (s s₁ : State) (t : Thread) (g : BitVec 5),
    let c := t.core
    let queued (i : Instr) (t' : Thread) (op : EngOp) (r : Nat) (x y : Word) (dst src : List Nat) : Prop := ∃ s',
      exec i s = .next s' ∧ Admitted s₁ s' t .copy (s₁.newCmd t op r x y dst src) dst src ∧ s'.thread? s₁.cur = some (t'.done 4)
    let cfg := (s₁.core c).eng.ce
    let pointer (w : Word) : Prop := badTag w = false ∧ isRef w = false
    let span (w : Word) (sp : Option (Int × Int)) (p : Perm) : Prop := ∀ lo hi, sp = some (lo, hi) → s₁.spanFault c t.attr.ctx w lo hi p = none
    (∀ (a b : BitVec 5), ∀ p ∈ ([(.ccopy a b g, .ccopy, [a, b]), (.cfill a g, .cfill, [a]), (.ctcopy a b g, .ctcopy, [a, b]),
        (.cgather a b g, .cgather, [a, b]), (.cscatter a b g, .cscatter, [a, b]), (.ccopyF a b g, .ccopyF, [a, b])] : List (Instr × EngOp × List (BitVec 5))),
      Engages s s₁ t p.2.2 p.2.2 g .copy →
      let op := p.2.1
      let listed := decide (op = .cgather) || decide (op = .cscatter)
      let x := t.val a
      let y := if op = .cfill then 0#64 else t.val b
      let cmd := s₁.newCmd t op 0 x y [] []
      let va (w : Word) : Nat := w.toNat % 2 ^ 48
      let list := if listed then spanLines cfg.listBytes [va cfg.idx] else []
      ∀ rows : List Nat,
      (listed = false → rows = []) →
      (listed = true → (∀ v ∈ list, ∀ l, s₁.lineAt c t.attr.ctx .rd v = some l → s₁.owned l = false) ∧
        (s₁.copyRows c cmd false = .ok rows ∨ ((∃ e, s₁.copyRows c cmd false = .error e) ∧ rows = []))) →
      let segs := copySegs op cfg rows
      let dspan := (copySpans op cfg rows).1
      let sspan := (copySpans op cfg rows).2
      pointer x → (op ≠ .cfill → pointer y) →
      (cfg.caddr ≠ 0#64 → pointer cfg.caddr ∧ span cfg.caddr (some (0, 8)) .wr ∧ cfg.caddr.toNat % 8 = 0 ∧
        meets (spanAt t cfg.caddr (some (0, 8))) (spanAt t x dspan) = false) →
      (listed = true → pointer cfg.idx ∧ span cfg.idx (some (0, (cfg.listBytes : Int))) .rd) →
      (op ≠ .cscatter → span x dspan .wr) → (op ≠ .cgather → op ≠ .cfill → span y sspan .rd) →
      (op = .ctcopy → va x % cfg.esz = 0 ∧ va y % cfg.esz = 0 ∧ ∀ k, k < 4 → cfg.sst k % cfg.esz = 0 ∧ cfg.dst k % cfg.esz = 0) →
      (op = .ccopyF → va x % 8 = 0 ∧ cfg.len.toNat % 8 = 0) →
      (op = .ctcopy ∨ listed = true → ∀ lo hi, spanAt t y sspan = some (lo, hi) → meets (spanAt t y sspan) (spanAt t x dspan) = true → hi - lo ≤ 1048576) →
      queued p.1 t op 0 x y (segLines x (·.dst) segs) ((if op = .cfill then [] else segLines y (·.src) segs) ++ list).eraseDups) ∧
    (∀ (r : BitVec 6) (a : BitVec 5),
      (Engages s s₁ t [a] [] g .copy → queued (.cget r a g) (t.expects a) (.cget r) a.toNat 0#64 0#64 [] []) ∧
      (Ends s s₁ t [a] [a] 4 g → t.settOn = none → (s₁.core c).etag = some t.attr.ctx → ceRefuses r.toNat (t.val a) = false →
        exec (.ccfg r a g) s = .next ((s₁.modCore c (fun q => { q with eng := { q.eng with ce := q.eng.ce.putReg r.toNat (t.val a) } })).pastEnd t 4)) ∧
      (r.toNat < 13 → ∀ (q : CeCfg) (v : Word), (q.putReg r.toNat v).getReg r.toNat = if r = 2#6 then v &&& 0xFFFFFFFFFF#64 else v))

/-- ENGINE_COMMAND_START of the vector engine, for a V form at the head that nothing holds back, keeps what the form will leave and sets its completion on its way: for the lane forms, active lanes get the result of R199, R200, R201, R204 and R205 (one rounding each, after the flush of FZ; VSCALE's exponent held to ±600, past which every product has overflowed or become a zero), other lanes keep theirs, and the flags of the active lanes are raised; VCMP gives each active mask bit its condition and keeps the others; VSEL, VPERM and VSLIDE move lanes; VRSUM leaves the tree sum of the active lanes in lane 0, VNZC the number of nonzero codes there, and +0 in the other lanes; VNZB leaves bit c mod 32 of lane c div 32 for each nonzero code c, every other bit 0. Memory, other cores and the engine itself are unchanged until completion; the lines of its sources, if it has any, are touched (R334) and the pages of those that were not mapped at admission are recorded. -/
def Obligations.VectorResults : Prop :=
  ∀ (s : State) (c : Nat) (cmd : Cmd) (rest : List Cmd), s.Inv → (s.core c).vq = cmd :: rest → cmd.result = none → s.engWaits c .vector cmd = false →
    let ve := (s.core c).eng.ve
    let fz := ve.fz
    let sat := ve.sat
    let lane (v : BitVec 4) (i : Nat) : Half := (ve.reg v).getD i 0#32
    let leaves (ve' : VeState) : Prop := ∃ cmd', cmd'.result = some { EngResult.nothing with ve := some ve' } ∧ cmd'.op = cmd.op ∧ cmd'.uid = cmd.uid ∧
      exec (.engineCommandStart c .vector) s =
        .next (((((s.touchSource cmd).usePages cmd.ctx cmd.vsrc false).modHead c .vector (fun _ => cmd')).push (.vectorCommandCompletion c)).wakeOwned)
    let rnd (k : Nat) (x _ _ : Half) : Half × Flags :=
      let r := roundint (laneF fz x) k
      ((laneR fz sat r.1).1, (laneR fz sat r.1).2 ||| r.2)
    let with' (r : Half × Flags) (f : Flags) : Half × Flags := (r.1, r.2 ||| f)
    let toInt (k : Nat) (x : FV) : Half × Flags := (BitVec.ofInt 32 (f2i x k (-2147483648) 2147483647).1, (f2i x k (-2147483648) 2147483647).2)
    let narrow (r : Nat × Flags) : Half × Flags := (BitVec.ofNat 32 r.1, r.2)
    -- 2^x for −1 ≤ x ≤ 1, and a NaN that sets NV outside (R201)
    let expTwo (x : FV) : FV := match x with
      | .inf _ => .nan true
      | .num q => if Q.lt ⟨1, 0, 1⟩ q || q.lt ⟨-1, 0, 1⟩ then .nan true else x.pow2
      | v => v.pow2
    let rootOver (x : FV) : FV := match x with
      | .zero n => .inf n
      | v => FV.div (.ofInt 1) v.sqrt
    ∀ (d a b : BitVec 4) (k m : BitVec 2) (n : BitVec 4),
      let add (x y : FV) : Nat × Flags := round F32 fz sat (x.add y)
      -- the tree of R84: 16 values, 8, 4 and 2 sums
      let v0 (i : Nat) : FV := if ve.active m i then laneF fz (lane a i) else .zero true
      let v1 (i : Nat) : FV := value F32 (add (v0 (2 * i)) (v0 (2 * i + 1))).1
      let v2 (i : Nat) : FV := value F32 (add (v1 (2 * i)) (v1 (2 * i + 1))).1
      let v3 (i : Nat) : FV := value F32 (add (v2 (2 * i)) (v2 (2 * i + 1))).1
      let sums (k : Nat) (v : Nat → FV) : Flags := (List.range k).foldl (fun f i => f ||| (add (v (2 * i)) (v (2 * i + 1))).2) 0#6
      let first (x : Half) : List Half := x :: List.replicate 15 0#32
      let bits := nzBits ve.nzk
      let codes := (List.range (512 / bits)).filter (fun e => ve.active m (e / (32 / bits)) &&
        nzCode ve.nzk ((s.core c).tab ve.nzt) ((lane a (e / (32 / bits))).toNat / 2 ^ (bits * (e % (32 / bits))) % 2 ^ bits))
      (cmd.op = .vfun .rsum d a b m → leaves ((ve.setReg d (first (BitVec.ofNat 32 (add (v3 0) (v3 1)).1))).raise
        (sums 8 v0 ||| sums 4 v1 ||| sums 2 v2 ||| sums 1 v3))) ∧
      (cmd.op = .vfun .nzc d a b m → leaves (ve.setReg d (first (BitVec.ofNat 32 codes.length)))) ∧
      (cmd.op = .vfun .nzb d a b m → ∃ l : List Half, leaves (ve.setReg d l) ∧ l.length = 16 ∧
        ∀ i j, i < 16 → j < 32 → (l.getD i 0#32).getLsbD j = decide (32 * i + j ∈ codes)) ∧
      (∀ p ∈ ([(.add, fun x y _ => laneR fz sat ((laneF fz x).add (laneF fz y))), (.sub, fun x y _ => laneR fz sat ((laneF fz x).add (laneF fz y).negate)),
        (.mul, fun x y _ => laneR fz sat ((laneF fz x).mul (laneF fz y))),
        (.fma, fun x y o => laneR fz sat (((laneF fz x).mul (laneF fz y)).add (laneF fz o))),
        (.min, fun x y _ => laneR false false (FV.pick false (laneF fz x) (laneF fz y))), (.max, fun x y _ => laneR false false (FV.pick true (laneF fz x) (laneF fz y))),
        (.abs, fun x _ _ => (x &&& 0x7FFFFFFF#32, 0#6)), (.neg, fun x _ _ => (x ^^^ 0x80000000#32, 0#6)),
        (.iadd, fun x y _ => (x + y, 0#6)), (.isub, fun x y _ => (x - y, 0#6)), (.imul, fun x y _ => (x * y, 0#6)),
        (.and, fun x y _ => (x &&& y, 0#6)), (.or, fun x y _ => (x ||| y, 0#6)), (.xor, fun x y _ => (x ^^^ y, 0#6)),
        (.shl, fun x y _ => (x <<< (y.toNat % 32), 0#6)), (.shr, fun x y _ => (x >>> (y.toNat % 32), 0#6)),
        (.shrS, fun x y _ => (x.sshiftRight (y.toNat % 32), 0#6)),
        (.rnd 0, rnd 0), (.rnd 1, rnd 1), (.rnd 2, rnd 2), (.rnd 3, rnd 3), (.exp2, fun x _ _ => laneR fz sat (expTwo (laneF fz x))),
        (.scale, fun x y _ => laneR fz sat ((laneF fz x).scale (max (-600) (min 600 y.toInt)))),
        (.rcp, fun x _ _ => with' (laneR fz sat (FV.div (.ofInt 1) (laneF fz x))) (if (laneF fz x).isZero then flagDZ else 0#6)),
        (.rsq, fun x _ _ => with' (laneR fz sat (rootOver (laneF fz x))) (if (laneF fz x).isZero then flagDZ else 0#6)),
        (.f2i, fun x _ _ => toInt 0 (laneF fz x)), (.f2iRz, fun x _ _ => toInt 1 (laneF fz x)), (.i2f, fun x _ _ => laneR fz sat (.ofInt x.toInt)),
        (.f2b, fun x _ _ => narrow (round BF16 fz sat (laneF fz x))), (.f2h, fun x _ _ => narrow (round F16 fz sat (laneF fz x))),
        (.b2f, fun x _ _ => laneR false false ((value BF16 (x.toNat % 65536)).flush fz)),
        (.h2f, fun x _ _ => laneR false false ((value F16 (x.toNat % 65536)).flush fz))] : List (VFun × (Half → Half → Half → Half × Flags))),
        cmd.op = .vfun p.1 d a b m →
        let out (i : Nat) : Half × Flags := if ve.active m i then p.2 (lane a i) (lane b i) (lane d i) else (lane d i, 0#6)
        leaves ((ve.setReg d ((List.range 16).map (fun i => (out i).1))).raise ((List.range 16).foldl (fun f i => f ||| (out i).2) 0#6))) ∧
      (∀ j, cmd.op = .vcmp j k a b m → ∃ ve', leaves ve' ∧ ve'.lanes = ve.lanes ∧ ∀ i, i < 16 →
        (ve'.mask k).getLsbD i = if ve.active m i then (vecCond j).holds (laneF fz (lane a i)) (laneF fz (lane b i)) else (ve.mask k).getLsbD i) ∧
      (cmd.op = .vsel d a b m → leaves (ve.setReg d ((List.range 16).map (fun i => if (ve.mask m).getLsbD i then lane a i else lane b i)))) ∧
      (cmd.op = .vfun .perm d a b m → leaves (ve.setReg d ((List.range 16).map (fun i =>
        if ve.active m i then lane a ((lane b i).toNat % 16) else lane d i)))) ∧
      (cmd.op = .vslide n d a b m → leaves (ve.setReg d ((List.range 16).map (fun i => if ve.active m i then
        (if i + n.toNat < 16 then lane a (i + n.toNat) else lane b (i + n.toNat - 16)) else lane d i))))

/-- ENGINE_COMMAND_START of a command at the head that nothing holds back touches the lines it reads (R334) and keeps what it will leave. MMA with readable tiles adds, k-step by k-step, to each entry of its accumulator the exact sum of 32 products with one rounding in A96, and touches no entry of the other accumulator; MZERO leaves every entry of its accumulator +0 and its divisor 1; MLDB leaves its tile in the current latch buffer and me.rstep 0; MACC.ld leaves the images in the accumulator and its divisor 1, MACC.add adds each image with one rounding; MSTORE writes its rows, entry by entry as its format code says. A copy whose bytes are reachable and clean leaves one byte for each byte of its destination stream, in order: the source's, or for CFILL that of ce.fill at the byte's address modulo 8; the stream of CCOPY, CCOPY.f and CFILL is ce.len bytes, that of CTCOPY its elements, innermost dimension first, those of CGATHER and CSCATTER the selected rows; CCOPY.f fills the words of its destination, and the completion word follows where ce.caddr is not 0. -/
def Obligations.MatrixAndCopyResults : Prop :=
  (∀ (s : State) (c : Nat) (cmd : Cmd) (rest : List Cmd), s.Inv → (s.core c).mq = cmd :: rest → cmd.result = none → cmd.going = false →
    s.engWaits c .matrix cmd = false →
    let q := s.touchSource cmd
    let me := s.mat c
    let f := cmd.mcfg
    let tab := (s.core c).tab
    let gives (r : EngResult) : Prop := ∃ cmd', cmd'.result = some r ∧ cmd'.op = cmd.op ∧ cmd'.uid = cmd.uid ∧
      exec (.engineCommandStart c .matrix) s = .next (((((q.usePages cmd.ctx cmd.vsrc false).usePages cmd.ctx (linesOf (r.writes.map (·.va))) true).modHead
        c .matrix (fun _ => cmd')).push (.matrixCommandCompletion c)).wakeOwned)
    let leaves (me' : MeState) : Prop := ∃ r, gives r ∧ r.me = some me' ∧ r.writes = [] ∧ r.fault = none ∧ r.scalar = none
    let stores (me' : Option MeState) (ws : List WEntry) : Prop := ∃ r, gives r ∧ r.me = me' ∧ r.writes = ws ∧ r.fault = none
    let others (n : BitVec 1) (me' : MeState) : Prop :=
      ∀ e, (e < 256 * n.toNat ∨ 256 * n.toNat + 256 ≤ e) → Store.get me'.acc e = Store.get me.acc e
    (∀ (n : BitVec 1) (rs cs : Nat → List (List FV)), cmd.op = .mma n →
      (∀ k, k < f.ks → q.rowsOf c cmd false cmd.a (32 * k) = .ok (rs k) ∧ q.colsOf c cmd false cmd.b (32 * k) = .ok (cs k)) →
      leaves ((List.range f.ks).foldl (fun m k => m.kstep n (rs k) (cs k)) me)) ∧
    (∀ n : BitVec 1, cmd.op = .mzero n → Tab.wf 0#96 me.acc = true → ∃ me', leaves me' ∧ me'.divisor n = 1 ∧
      (∀ e, e < 256 → Store.get me'.acc (256 * n.toNat + e) = 0#96) ∧ others n me') ∧
    (∀ xs : List FV, cmd.op = .mldb →
      q.tileElems c cmd false cmd.a f.bstr.toNat ((List.range (512 * f.ks)).map (fun e => (e / 16, e % 16))) = .ok xs →
      leaves { me with
        current := some ⟨f.ks, Store.putCells [] 0 (xs.map (fun x => BitVec.ofNat 19 (round W19 false false x).1))⟩, rstep := 0#64 }) ∧
    (∀ (n : BitVec 1) (bs : Nat → List Byte), Tab.wf 0#96 me.acc = true →
      (∀ e, e < 256 → q.engRead c cmd false (addrPlus cmd.a ((e * 12 : Nat) : Int)) 12 = .ok (bs e)) →
      (cmd.op = .maccLd n → ∃ me', leaves me' ∧ me'.divisor n = 1 ∧ others n me' ∧
        ∀ e, e < 256 → Store.get me'.acc (256 * n.toNat + e) = BitVec.ofNat 96 (leValue (bs e))) ∧
      (cmd.op = .maccAdd n → ∃ me', leaves me' ∧ me' = { me with acc := me'.acc } ∧ others n me' ∧
        ∀ e, e < 256 → Store.get me'.acc (256 * n.toNat + e) =
          BitVec.ofNat 96 (round A96 false false ((me.entry n (e / 16) (e % 16)).add (value A96 (leValue (bs e))))).1)) ∧
    (∀ (n : BitVec 1) (es : Nat → List WEntry), cmd.op = .mstore n →
      let code := fmtOf cmd.a
      let entry (i j : Nat) : Nat :=
        let bits := (Store.get me.acc (256 * n.toNat + 16 * i + j)).toNat
        let x := ((value A96 bits).mul (value F32 (f.wscale.toNat % 2 ^ 32))).div (.ofInt (me.divisor n))
        if code = 0 then bits
        else if code = 1 then (round F32 f.fz f.sat x).1
        else if code = 2 then (round BF16 f.fz f.sat x).1
        else if code = 3 then (round F16 f.fz f.sat x).1
        else if code = 12 then (BitVec.ofInt 8 (f2i x 0 (-128) 127).1).toNat
        else (encodeElem code tab f.fz f.sat x).1
      let row (i : Nat) : List Byte :=
        if isH4 code then packNibbles ((List.range (f.wc + 1)).map (entry i))
        else (List.range (f.wc + 1)).flatMap (fun j => leBytes (entry i j) (if code = 0 then 12 else elemBytes code))
      (∀ i, i ≤ f.wr → q.engWrite c cmd false (addrPlus cmd.a ((i * f.wstr.toNat : Nat) : Int)) (row i) = .ok (es i)) →
      stores none ((List.range (f.wr + 1)).flatMap es))) ∧
  (∀ (me : MeState) (n : BitVec 1) (rows cols : List (List FV)), Tab.wf 0#96 me.acc = true →
    let me' := me.kstep n rows cols
    me' = { me with acc := me'.acc } ∧
    (∀ i j, i < 16 → j < 16 → Store.get me'.acc (256 * n.toNat + 16 * i + j) = BitVec.ofNat 96
      (round A96 false false ((me.entry n i j).add (exactSum (List.zipWith FV.mul (rows.getD i []) (cols.getD j []))))).1) ∧
    (∀ e, (e < 256 * n.toNat ∨ 256 * n.toNat + 256 ≤ e) → Store.get me'.acc e = Store.get me.acc e)) ∧
  (∀ (s : State) (c : Nat) (cmd : Cmd) (rest : List Cmd) (dl sl : Nat → Nat) (bs : List Byte), s.Inv → (s.core c).cq = cmd :: rest → cmd.result = none →
    s.engWaits c .copy cmd = false → cmd.op ∈ [.ccopy, .cfill, .ccopyF, .ctcopy, .cgather, .cscatter] →
    let q := s.touchSource cmd
    let cfg := cmd.ccfg
    let listed := decide (cmd.op = .cgather) || decide (cmd.op = .cscatter)
    (listed = true → q.engRead c cmd false (cfg.idx.toNat % 2 ^ 48) cfg.listBytes = .ok bs) →
    let rows := if cfg.mask then (List.range cfg.count).filter (fun i => (bs.getD (i / 8) 0#8).getLsbD (i % 8))
      else (List.range cfg.count).map (fun i => leValue ((bs.drop (4 * i)).take 4))
    -- the pieces of the stream: offsets from the two pointers, and the length
    let at4 (i : Nat × Nat × Nat × Nat) (st : Nat → Int) : Int := i.1 * st 0 + i.2.1 * st 1 + i.2.2.1 * st 2 + i.2.2.2 * st 3
    let segs : List (Int × Int × Nat) :=
      if cmd.op = .ctcopy then
        ((List.range (cfg.dim 3)).flatMap (fun i3 => (List.range (cfg.dim 2)).flatMap (fun i2 => (List.range (cfg.dim 1)).flatMap (fun i1 =>
          (List.range (cfg.dim 0)).map (fun i0 => (i0, i1, i2, i3)))))).map (fun i => (at4 i cfg.dst, at4 i cfg.sst, cfg.esz))
      else if cmd.op = .cgather then rows.zipIdx.map (fun r => (((r.2 * cfg.rlen : Nat) : Int), r.1 * cfg.rstr.toInt, cfg.rlen))
      else if cmd.op = .cscatter then rows.zipIdx.map (fun r => (r.1 * cfg.rstr.toInt, ((r.2 * cfg.rlen : Nat) : Int), cfg.rlen))
      else [(0, 0, cfg.len.toNat)]
    let stream : List (Nat × Nat) := segs.flatMap (fun g => (List.range g.2.2).map (fun (j : Nat) => (addrPlus cmd.a (g.1 + j), addrPlus cmd.b (g.2.1 + j))))
    (cmd.op = .cgather → ∀ g ∈ segs, q.spanFault c cmd.ctx cmd.b g.2.1 (g.2.1 + g.2.2) .rd = none) →
    (cmd.op = .cscatter → ∀ g ∈ segs, q.spanFault c cmd.ctx cmd.a g.1 (g.1 + g.2.2) .wr = none) →
    (∀ x ∈ stream, q.engPlace c cmd false x.1 .wr = .ok (dl x.1) ∧
      (cmd.op ≠ .cfill → q.engPlace c cmd false x.2 .rd = .ok (sl x.2) ∧ q.poisoned (sl x.2) = false)) →
    ∀ word : Option (WEntry × Word × Bool),
    (if cfg.caddr = 0#64 then word = none
      else ∃ l, q.engPlace c cmd false (cfg.caddr.toNat % 2 ^ 48) .wr = .ok l ∧ q.poisoned l = false ∧
        word = some (⟨cfg.caddr.toNat % 2 ^ 48, l, 0#8⟩, cfg.cval, cfg.cfull)) →
    ∃ cmd' r, cmd'.result = some r ∧ r.fault = none ∧ r.done = stream.length ∧ r.cword = word ∧
      r.writes = stream.map (fun x => ⟨x.1, dl x.1, if cmd.op = .cfill then cfg.fill.extractLsb' (8 * (x.1 % 8)) 8 else q.engByte cmd (sl x.2)⟩) ∧
      r.fills = (if cmd.op = .ccopyF then wordsOf (r.writes.map (·.loc)) else []) ∧
      exec (.engineCommandStart c .copy) s = .next (((((q.usePages cmd.ctx cmd.vsrc false).usePages cmd.ctx (linesOf (r.writes.map (·.va))) true).modHead
        c .copy (fun _ => cmd')).push (.copyCommandCompletion c)).wakeOwned))

/-- ENGINE_COMMAND_START of a command at the head that nothing holds back touches the lines it reads (R334) and, for readable operands, keeps what it will leave. SNORM.clr zeroes the norm state; SNORM.a and .b add the squares of a column of A, or of a row of B, to each entry in order, one rounding each; SNGET writes K entries and SNPUT takes K words; SALIAS builds the table of the weights, or faults at the first entry that is a NaN, negative or infinite, or at K where the weights sum to infinity; SSEED sets the seed and zeroes count and status; SVAR answers the variance, and +0 before the first sample; PLOAD fills the predictor store; PSCORE leaves the scores of every neuron and its input's pointer in me.px; PSEL writes the mask of the selected neurons, lists the doubtful ones and counts the three classes; AREAD answers an entry of the list, or all ones beyond it. SRUN and ASSAY run in parts: SRUN with Z = 0 or with its count at SMAX ends at once, and each of its samples adds the sampled column's products, scaled, to every entry; ASSAY ends where the mass left is within the bound or the list is over, and otherwise replays one neuron. A part that ends sets the completion on its way, and one that goes on is followed by the next part. -/
def Obligations.SamplingResults : Prop :=
  (∀ (s : State) (c : Nat) (cmd : Cmd) (rest : List Cmd), s.Inv → (s.core c).mq = cmd :: rest → cmd.result = none → cmd.going = false →
    s.engWaits c .matrix cmd = false →
    let q := s.touchSource cmd
    let me := s.mat c
    let f := cmd.mcfg
    let k := f.sk.toNat
    let va := cmd.a.toNat % 2 ^ 48
    let gives (r : EngResult) : Prop := ∃ cmd', cmd'.result = some r ∧ cmd'.op = cmd.op ∧ cmd'.uid = cmd.uid ∧
      exec (.engineCommandStart c .matrix) s = .next (((((q.usePages cmd.ctx cmd.vsrc false).usePages cmd.ctx (linesOf (r.writes.map (·.va))) true).modHead
        c .matrix (fun _ => cmd')).push (.matrixCommandCompletion c)).wakeOwned)
    let leaves (me' : MeState) : Prop := ∃ r, gives r ∧ r.me = some me' ∧ r.writes = [] ∧ r.fault = none ∧ r.scalar = none
    let stores (me' : Option MeState) (ws : List WEntry) : Prop := ∃ r, gives r ∧ r.me = me' ∧ r.writes = ws ∧ r.fault = none
    let answers (me' : Option MeState) (v : Word) : Prop := ∃ r, gives r ∧ r.me = me' ∧ r.scalar = some v ∧ r.writes = [] ∧ r.fault = none
    (cmd.op = .snormClr → leaves { me with qa := [], qb := [] }) ∧
    (∀ xs : Nat → List FV,
      let m := 32 * f.ks
      let add (n : Store 32) : Store 32 := (List.range m).foldl (fun n j => Store.put n (cmd.b.toNat + j) (BitVec.ofNat 32
        (f32Bits ((xs j).foldl (fun v x => f32 (v.add (x.mul x))) (value F32 (Store.get n (cmd.b.toNat + j)).toNat))))) n
      (cmd.op = .snormA → (∀ j, j < m → q.tileElems c cmd false cmd.a f.astr.toNat ((List.range 16).map (fun i => (i, j))) = .ok (xs j)) →
        leaves { me with qa := add me.qa }) ∧
      (cmd.op = .snormB → (∀ j, j < m → q.tileElems c cmd false cmd.a f.bstr.toNat ((List.range 16).map (fun i => (j, i))) = .ok (xs j)) →
        leaves { me with qb := add me.qb })) ∧
    (∀ dl : Nat → Nat, (∀ j, j < 4 * k → q.engPlace c cmd false (va + j) .wr = .ok (dl j)) →
      let ws (n : Store 32) : List WEntry :=
        (List.range (4 * k)).map (fun j => ⟨va + j, dl j, (Store.get n (j / 4)).extractLsb' (8 * (j % 4)) 8⟩)
      (cmd.op = .sngetA → stores none (ws me.qa)) ∧ (cmd.op = .sngetB → stores none (ws me.qb))) ∧
    (∀ bs : Nat → List Byte, (∀ i, i < k → q.engRead c cmd false (addrPlus cmd.a ((i * 4 : Nat) : Int)) 4 = .ok (bs i)) →
      let took (n : Store 32) : Store 32 := Store.putCells n 0 ((List.range k).map (fun i => BitVec.ofNat 32 (leValue (bs i))))
      (cmd.op = .snputA → leaves { me with qa := took me.qa }) ∧ (cmd.op = .snputB → leaves { me with qb := took me.qb })) ∧
    (cmd.op = .salias →
      let qa (i : Nat) : FV := value F32 (Store.get me.qa i).toNat
      let qb (i : Nat) : FV := value F32 (Store.get me.qb i).toNat
      let bad (i : Nat) : Bool := badNorm (qa i) || badNorm (qb i)
      let w (i : Nat) : FV := f32 ((qa i).mul (qb i)).sqrt
      let z := (List.range k).foldl (fun z i => f32 (z.add (w i))) (.zero false)
      let faults (i : Nat) : Prop := ∃ r, gives r ∧ r.me = some me ∧ r.writes = [] ∧ r.fault = some (0x0E, BitVec.ofNat 64 i)
      (∀ i, i < k → bad i = true → (∀ j, j < i → bad j = false) → faults i) ∧
      ((∀ i, i < k → bad i = false) → z = .inf false → faults k) ∧
      ((∀ i, i < k → bad i = false) → z ≠ .inf false → Tab.wf 0#32 me.weight = true → Tab.wf 0#32 me.prob = true → Tab.wf 0#12 me.als = true →
        ∃ me', leaves me' ∧ me'.kt = k ∧ me'.sz = BitVec.ofNat 64 (f32Bits z) ∧ me'.qa = me.qa ∧ me'.qb = me.qb ∧ me'.acc = me.acc ∧
          (∀ i, i < k → Store.get me'.weight i = BitVec.ofNat 32 (f32Bits (w i))) ∧
          (z.isZero = true → ∀ i, i < k → Store.get me'.prob i = 0xFFFFFFFF#32 ∧ Store.get me'.als i = BitVec.ofNat 12 i) ∧
          (z.isZero = false →
            let p (i : Nat) : Nat := aliasShare (w i) k z
            (me'.prob, me'.als) = aliasPairs (k + 1) ((List.range k).filter (fun i => decide (p i < 2 ^ 32)))
              ((List.range k).filter (fun i => decide (2 ^ 32 ≤ p i))) ((List.range k).map (fun i => (i, p i))) me.prob me.als))) ∧
    (cmd.op = .sseed → leaves { me with seed := cmd.a, scnt := 0#64, sstat := 0#64 }) ∧
    (∀ n : BitVec 1, cmd.op = .svar n →
      let g := (List.range 256).foldl (fun g e => let x := f32 ((me.entry n (e / 16) (e % 16)).div (.ofInt me.scnt.toNat)); f32 (g.add (x.mul x))) (.zero false)
      let z := wordF32 me.sz
      let v := f32 ((f32 ((f32 (z.mul z)).add g.negate)).div (.ofInt me.scnt.toNat))
      let v := if v.neg then .zero false else v
      (me.scnt = 0#64 → answers none 0#64) ∧
      (me.scnt ≠ 0#64 → answers (some { me with svar := BitVec.ofNat 64 (f32Bits v), sfro := BitVec.ofNat 64 (f32Bits g) }) (BitVec.ofNat 64 (f32Bits v)))) ∧
    (∀ u v : Nat → FV, cmd.op = .pload →
      (∀ i, i < f.neurons * f.rank → q.tileElem c cmd false cmd.a 0 0 i = .ok (u i)) → (∀ i, i < f.rank * f.din → q.tileElem c cmd false cmd.b 0 0 i = .ok (v i)) →
      leaves { me with
        pshape := some (f.neurons, f.rank, f.din)
        pred := Store.putCells [] 0 (((List.range (f.neurons * f.rank)).map u ++ (List.range (f.rank * f.din)).map v).map
          (fun x => BitVec.ofNat 19 (round W19 false false x).1)) }) ∧
    (∀ x : Nat → FV, cmd.op = .pscore → (∀ i, i < f.din → q.tileElem c cmd false cmd.a 0 0 i = .ok (x i)) →
      let xs := (List.range f.din).map x
      let row (i n : Nat) : List FV := (List.range n).map (fun j => value W19 (Store.get me.pred (i + j)).toNat)
      let t2 := (List.range f.rank).map (fun m => w19 (dot (row (f.neurons * f.rank + m * f.din) f.din) xs))
      leaves { me with
        px := cmd.a
        score := Store.putCells me.score 0 ((List.range f.neurons).map (fun i => BitVec.ofNat 32 (f32Bits (dot (row (i * f.rank) f.rank) t2)))) }) ∧
    (∀ dl : Nat → Nat, cmd.op = .psel →
      let words := (f.neurons + 63) / 64
      (∀ j, j < 8 * words → q.engPlace c cmd false (va + j) .wr = .ok (dl j)) →
      let sc (i : Nat) : FV := value F32 (Store.get me.score i).toNat
      let sel (i : Nat) : Bool := (wordF32 f.ptheta).le (sc i)
      let out (i : Nat) : Bool := ((sc i).add (wordF32 f.pdelta)).le (.zero false)
      let neurons (p : Nat → Bool) : List Nat := (List.range f.neurons).filter p
      let doubtful := neurons (fun i => !sel i && !out i)
      ∃ mask : Nat → Byte, (∀ j i, i < 8 → (mask j).getLsbD i = (decide (8 * j + i < f.neurons) && sel (8 * j + i))) ∧
        stores (some { me with
          doubt := doubtful.foldl (fun l i => insertDoubt (i, Store.get me.score i) l) [], apos := 0#64
          pcnt := BitVec.ofNat 64 ((neurons (fun i => !sel i && out i)).length * 2 ^ 32 + doubtful.length * 2 ^ 16 + (neurons sel).length) })
          ((List.range (8 * words)).map (fun j => ⟨va + j, dl j, mask j⟩))) ∧
    (cmd.op = .aread → answers none (if me.pcnt.toNat / 2 ^ 16 % 2 ^ 16 ≤ cmd.b.toNat then 0xFFFFFFFFFFFFFFFF#64
      else let e := me.doubt.getD cmd.b.toNat (0, 0#32); BitVec.ofNat 64 (e.2.toNat * 2 ^ 32 + e.1)))) ∧
  -- the parts of SRUN and ASSAY
  (∀ (s : State) (c : Nat) (cmd : Cmd) (rest : List Cmd) (n : BitVec 1) (m : MatRun), s.Inv → (s.core c).mq = cmd :: rest → cmd.result = none →
    cmd.going = false →
    let own := if cmd.op = .assay n then s.withInput c cmd else cmd
    let s₁ := if cmd.op = .assay n then s.modHead c .matrix (fun _ => own) else s
    s₁.engWaits c .matrix own = false →
    let q := s₁.touchSource own
    let part := if cmd.op = .assay n then q.assayPart c own false n (s.mat c) else q.srunPart c own false n (s.mat c)
    (cmd.op = .srun n ∨ cmd.op = .assay n) →
    (part = .ok (m, .done) → ∃ cmd' r, cmd'.result = some r ∧ r.me = some m.me ∧ r.regs = m.regs ∧ r.fault = none ∧ r.writes = [] ∧ cmd'.going = false ∧
      exec (.engineCommandStart c .matrix) s = .next (((q.modHead c .matrix (fun _ => cmd')).push (.matrixCommandCompletion c)).wakeOwned)) ∧
    (part = .ok (m, .more) → (∀ t, q.thread? cmd.uid = some t → t.preempt = false ∧ t.haltReq = false ∧ t.halted = false) → q.thread? cmd.uid ≠ none →
      ∃ cmd' r, cmd'.result = some r ∧ r.me = some m.me ∧ r.regs = m.regs ∧ cmd'.going = true ∧
      exec (.engineCommandStart c .matrix) s = .next ((q.modHead c .matrix (fun _ => cmd')).push (.engineCommandStart c .matrix)))) ∧
  (∀ (q : State) (c : Nat) (cmd : Cmd) (n : BitVec 1) (me : MeState), cmd.going = false →
    let f := cmd.mcfg
    let smin := f.slim.toNat % 65536
    let smax := f.slim.toNat / 65536
    let ends (part : Except EngStop (MatRun × PartEnd)) (me' : MeState) : Prop := ∃ m, part = .ok (m, .done) ∧ m.me = me'
    let goesOn (part : Except EngStop (MatRun × PartEnd)) (me' : MeState) : Prop := ∃ m, part = .ok (m, .more) ∧ m.me = me'
    let S := me.scnt.toNat
    (me.kt ≠ 0 → f.sk.toNat = me.kt →
      ((wordF32 me.sz).isZero = true → ends (q.srunPart c cmd false n me) (({ me with sstat := 3#64, svar := 0#64 } : MeState).setDiv n (max S 1))) ∧
      ((wordF32 me.sz).isZero = false → smax ≤ S → ends (q.srunPart c cmd false n me) (({ me with sstat := 2#64 } : MeState).setDiv n (max S 1))) ∧
      ((wordF32 me.sz).isZero = false → S < smax → q.srunPart c cmd false n me = q.drawSamples c cmd false n 16 ⟨me, 0, 0, []⟩)) ∧
    (∀ (fuel : Nat) (r : MatRun) (xs ys : List FV), r.me = me → Tab.wf 0#96 me.acc = true →
      let k := me.column (mix me.seed S)
      let w := value F32 (Store.get me.weight k).toNat
      let g := if w.isZero then .zero false else f32 ((wordF32 me.sz).div w)
      q.tileElems c cmd false cmd.a f.astr.toNat ((List.range 16).map (fun i => (i, k))) = .ok xs →
      q.tileElems c cmd false cmd.b f.bstr.toNat ((List.range 16).map (fun j => (k, j))) = .ok ys →
      ∃ me' : MeState, me' = { me with acc := me'.acc, scnt := BitVec.ofNat 64 (S + 1) } ∧
        (∀ i j, i < 16 → j < 16 → Store.get me'.acc (256 * n.toNat + 16 * i + j) = BitVec.ofNat 96 (round A96 false false
          ((me.entry n i j).add (((xs.getD i (.zero false)).mul (ys.getD j (.zero false))).mul g))).1) ∧
        (∀ e, (e < 256 * n.toNat ∨ 256 * n.toNat + 256 ≤ e) → Store.get me'.acc e = Store.get me.acc e) ∧
        let (v, F) := me'.variance n (S + 1)
        let seen : MeState := { me' with svar := BitVec.ofNat 64 (f32Bits v), sfro := BitVec.ofNat 64 (f32Bits F) }
        let seen := seen.setDiv n (S + 1)
        if (S + 1) % 16 = 0 ∨ smax ≤ S + 1 then
          if smin ≤ S + 1 ∧ v.le (f32 ((wordF32 f.stau).mul F)) = true then ends (q.drawSamples c cmd false n (fuel + 1) r) { seen with sstat := 1#64 }
          else if smax ≤ S + 1 then ends (q.drawSamples c cmd false n (fuel + 1) r) { seen with sstat := 2#64 }
          else goesOn (q.drawSamples c cmd false n (fuel + 1) r) seen
        else q.drawSamples c cmd false n (fuel + 1) r = q.drawSamples c cmd false n fuel ⟨me', r.steps + 1, r.skips, r.regs ++ [18]⟩) ∧
    (let L := me.pcnt.toNat / 2 ^ 16 % 2 ^ 16
      let j := me.apos.toNat % 2 ^ 16
      let item (j : Nat) : Nat := (me.doubt.getD j (0, 0#32)).1
      let bound (j : Nat) : FV :=
        let sc := value F32 (Store.get me.score (item j)).toNat
        let qa := value F32 (Store.get me.qa (item j)).toNat
        if sc.isNan || qa.isNan then .inf false else f32 ((sc.add (wordF32 f.pdelta)).mul qa.sqrt)
      -- the mass from a position on, summed from the end
      let mass (j : Nat) : FV := ((List.range (L - j)).reverse).foldl (fun m i => f32 (m.add (bound (j + i)))) (.zero false)
      let y (o : Nat) : FV := me.entry n (o / 16) (o % 16)
      let F := (List.range f.outs).foldl (fun g o => f32 (g.add ((f32 (y o)).mul (f32 (y o))))) (.zero false)
      let ny := f32 F.sqrt
      let seen : MeState := { me with amass := BitVec.ofNat 64 (f32Bits (mass j)), anorm := BitVec.ofNat 64 (f32Bits ny) }
      let within := (mass j).le (f32 ((wordF32 f.peps).mul ny)) || decide (L ≤ j)
      (me.apos.getLsbD 16 = true → ends (q.assayPart c cmd false n me) me) ∧
      (me.apos.getLsbD 16 = false → within = true → j ≤ L → ends (q.assayPart c cmd false n me)
        { seen with cskip := me.cskip + BitVec.ofNat 64 (L - j), apos := BitVec.ofNat 64 (2 ^ 16 + j) }) ∧
      (∀ (x w : Nat → FV) (ys : List FV), me.apos.getLsbD 16 = false → within = false → Tab.wf 0#96 me.acc = true → f.outs ≤ 256 →
        (∀ i, i < f.din → q.tileElem c cmd false me.px 0 0 i = .ok (x i) ∧ q.tileElem c cmd false cmd.a 0 0 (item j * f.din + i) = .ok (w i)) →
        let z := dot ((List.range f.din).map w) ((List.range f.din).map x)
        let a2 := w19 (if z.isNan || z.neg || z.isZero then .zero false else if f.act = 1 then z.mul z else z)
        (a2.isZero = false → q.tileElems c cmd false cmd.b 0 ((List.range f.outs).map (fun o => (0, o * f.neurons + item j))) = .ok ys) →
        ∃ me' : MeState, goesOn (q.assayPart c cmd false n me) me' ∧
          me' = { seen with
            acc := me'.acc, creplay := if a2.isZero then me.creplay else me.creplay + 1, cassay := me.cassay + 1
            apos := BitVec.ofNat 64 ((j + 1) % 2 ^ 16) } ∧
          (∀ e, (a2.isZero = true ∨ e < 256 * n.toNat ∨ 256 * n.toNat + f.outs ≤ e) → Store.get me'.acc e = Store.get me.acc e) ∧
          (a2.isZero = false → ∀ o, o < f.outs → Store.get me'.acc (256 * n.toNat + o) =
            BitVec.ofNat 96 (round A96 false false ((y o).add (a2.mul (ys.getD o (.zero false))))).1))))

/-- Completion of an unsealed thread's vector, matrix or copy command that found no fault, whose lines nothing holds, none of it committed at an earlier stop: its bytes are committed and every other byte is unchanged, the engine holds the state it left (the matrix registers that the command did not write stand as MCFG left them), ce.done is the bytes written, the result register is filled, the command leaves its queue, and a thread that waits for its matrix command goes on. A copy with a completion word commits it as a later event of its own, after its payload, and sets its full bit where ce.geom.CFULL is 1; CCOPY.f sets the full bit of every word of its payload. An MRING step whose tile has come, with the geometry it expects, multiplies its part of A with the tile and sets the tile out or ends the round; TILE_DELIVERY moves the outgoing tile to the downstream core that expects it, or discards it when that core is fenced or holds no thread of the context: that the downstream core is the one me.ring names at delivery, and that a thread waiting in the stockpile for that core counts as one it holds, are the model's choices (log 131). -/
def Obligations.EngineCompletions : Prop :=
  (∀ (s : State) (c : Nat) (e : Engine) (cmd : Cmd) (rest : List Cmd) (r : EngResult) (t : Thread), s.Inv → (s.core c).queue e = cmd :: rest →
    cmd.result = some r → cmd.void = false → cmd.going = false → s.engHeld cmd (linesOf (r.writes.map (·.loc))) = false → r.fault = none →
    r.cword = none → r.fills = [] → (e = .copy → cmd.boxes = []) → (∀ w ∈ r.writes, s.staleLine (w.loc / 64) = false) →
    s.thread? cmd.uid = some t → t.attr.isSealed = false → t.wait = (if e = .matrix then .matrix else .running) →
    (e ≠ .vector → r.ve = none) → (e ≠ .matrix → r.me = none) →
    let fin : Instr := match e with
      | .vector => .vectorCommandCompletion c
      | .matrix => .matrixCommandCompletion c
      | .copy => .copyCommandCompletion c
    let q := s.core c
    let t' := match r.scalar with | some v => t.fillReg cmd.reg v | none => t
    ∃ s', exec fin s = .next s' ∧ s'.mem = r.writes.foldl (fun m w => Store.put m w.loc w.val) s.mem ∧ s'.empty = s.empty ∧
      (s'.core c).queue e = rest ∧ (∀ f, f ≠ e → (s'.core c).queue f = q.queue f) ∧ (∀ k, k ≠ c → s'.core k = s.core k) ∧
      (s'.core c).eng.ve = r.ve.getD q.eng.ve ∧ (s'.core c).eng.ce = q.eng.ce ∧ (s'.core c).eng.tables = q.eng.tables ∧
      (s'.core c).eng.me = (match r.me with | some m => q.eng.me.merge m r.regs | none => q.eng.me) ∧
      (e = .copy → (∀ k, cmd.op ≠ .cget k) → (s'.core c).eng.done = BitVec.ofNat 64 r.done) ∧
      s'.thread? cmd.uid = some (if e = .matrix then t'.finish else t') ∧
      (rest ≠ [] → .engineCommandStart c e ∈ s'.pending)) ∧
  (∀ (s : State) (c : Nat) (cmd : Cmd) (rest : List Cmd) (r : EngResult) (t : Thread), s.Inv → (s.core c).cq = cmd :: rest →
    cmd.result = some r → cmd.void = false → cmd.boxes = [] → cmd.op ∈ [.ccopy, .cfill, .ccopyF, .ctcopy, .cgather, .cscatter] → r.fault = none → r.scalar = none →
    let word := r.cword.toList.map (fun w => w.1.loc)
    s.engHeld cmd (linesOf (r.writes.map (·.loc)) ++ word.map (· / 64)) = false →
    (∀ l ∈ r.writes.map (·.loc) ++ word, s.staleLine (l / 64) = false) → (∀ l ∈ word, l % 8 = 0) → s.waiters = [] →
    s.thread? cmd.uid = some t → t.attr.isSealed = false →
    ∃ s', exec (.copyCommandCompletion c) s = .next s' ∧ (s'.core c).cq = rest ∧ (s'.core c).eng.done = BitVec.ofNat 64 r.done ∧
      (let paid := r.writes.foldl (fun m w => Store.put m w.loc w.val) s.mem;
        s'.mem = match r.cword with
          | none => paid
          | some (w, v, _) => Store.write paid w.loc 8 v.toNat) ∧
      (∀ w, s'.full w = (s.full w || r.fills.contains w || (match r.cword with | some (x, _, f) => f && decide (x.loc / 8 = w) | none => false)))) ∧
  (∀ (s : State) (c : Nat) (cmd : Cmd) (rest : List Cmd) (n : BitVec 1) (tile : Tile) (rs : Nat → List (List FV)), s.Inv →
    (s.core c).mq = cmd :: rest → cmd.op = .mring n → cmd.result = none → s.engWaits c .matrix cmd = false →
    let me := s.mat c
    let k := me.rstep.toNat
    let len := cmd.mcfg.ringLen
    let ks := cmd.mcfg.ks
    let p := (cmd.mcfg.pos + (len + 1) - k % (len + 1)) % (len + 1)
    let r₀ := s.touchSource cmd
    let s₁ := if k = 0 then r₀ else r₀.modMat c (fun m => { m with current := m.tileIn, tileIn := none })
    me.lost = false → (if k = 0 then me.current else me.tileIn) = some tile → (k < len → me.tileOut = none) → tile.ks = ks →
    tileFault cmd.a 16 cmd.mcfg.astr.toNat (32 * ks * p) (32 * ks) = none →
    (∀ j, j < ks → s₁.rowsOf c cmd false cmd.a (32 * ks * p + 32 * j) = .ok (rs j)) →
    let m := (List.range ks).foldl (fun m j => m.kstep n (rs j) (tile.cols (32 * j))) (s₁.mat c)
    ∃ r, r.fault = none ∧ r.writes = [] ∧ r.me = some (if k < len then { m with tileOut := some tile, rstep := BitVec.ofNat 64 (k + 1) }
        else { m with current := none, rstep := 0#64 }) ∧
      exec (.mringStepStart c) s = .next (((s₁.modHead c .matrix (fun x => { x with result := some r, src := [], vsrc := [] })).push
        (.matrixCommandCompletion c)).wakeOwned)) ∧
  (∀ (s : State) (c ctx : Nat) (tile : Tile), (s.mat c).tileOut = some tile → (s.core c).etag = some ctx →
    let d := (s.mat c).cfg.down
    let out := s.modMat c (fun m => { m with tileOut := none })
    if s.coreFenced d = true ∨ s.holdsCtx d ctx = false then
      exec (.tileDelivery c) s = .next ((s.modMat c (fun m => { m with tileOut := none, lost := true })).pokeRing c)
    else if (s.core d).etag = some ctx ∧ (s.mat d).tileIn = none ∧ (s.mat d).cfg.up = c then
      exec (.tileDelivery c) s = .next (((out.modMat d (fun m => { m with tileIn := some tile })).pokeRing c).pokeRing d)
    else exec (.tileDelivery c) s = .next (s.push (.tileDelivery c)))

/-- On a general core with the chunk ended, each handle form with full operands sends one command with its operands, its result register (for HALLOC, HPIN, HINFO and HOWN, which then awaits the answer) and the thread's context to the handle table, and leaves the rotation until the command is admitted or, for the forms that answer, complete. The rest of the state is unchanged. That a sealed thread's command goes to the table for its checks at issue too, its thread waiting (log 45), and the order of those checks (log 51), are the model's choices. -/
def Obligations.HandleCommands : Prop :=
  ∀ (s s₁ : State) (t : Thread) (a b g : BitVec 5), t.settOn = none →
    ∀ p ∈ ([(.halloc a b g, .alloc, [a, b], true), (.hpin a b g, .pin, [a, b], true), (.hinfo a b g, .info, [a, b], true), (.hown a b g, .own, [a, b], true),
      (.hfree a g, .free, [a], false), (.hunpin a g, .unpin, [a], false), (.hsync a g, .sync, [a], false), (.hwiden a b g, .widen, [a, b], false),
      (.hstageA a b g, .stageA, [a, b], false), (.hstageB a b g, .stageB, [a, b], false), (.hstageNc a b g, .stageNc, [a, b], false),
      (.hstageNr a b g, .stageNr, [a, b], false), (.hopRowsum a b g, .rowsum, [a, b], false), (.hopColsum a b g, .colsum, [a, b], false),
      (.hopScale a b g, .scale, [a, b], false), (.hopAddh a b g, .addh, [a, b], false), (.hopMulh a b g, .mulh, [a, b], false),
      (.hopAxpy a b g, .axpy, [a, b], false), (.hopFill a b g, .fill, [a, b], false), (.hopFillImg a b g, .fillImg, [a, b], false),
      (.hopTranspose a b g, .transpose, [a, b], false), (.hopCopyin a b g, .copyin, [a, b], false), (.hopCopyout a b g, .copyout, [a, b], false),
      (.hopGrows a b g, .grows, [a, b], false), (.hopSrows a b g, .srows, [a, b], false)] : List (Instr × HandleOp × List (BitVec 5) × Bool)),
      Ends s s₁ t p.2.2.1 (if p.2.2.2 then [b] else p.2.2.1) 4 g →
      let y := if p.2.2.1.length = 2 then t.val b else 0#64
      let c := if p.2.2.2 then t.command s₁.cur p.2.1 a 0#64 y else t.command s₁.cur p.2.1 31#5 (t.val a) y
      exec p.1 s = .next ((s₁.push (.handleCommandAdmission c)).waits (if p.2.2.2 then t.awaits a else t) .handle)

/-- At the handle table, a command whose reference names no live handle is refused with 0x0D, and one of an unsealed thread and of a class its handle lacks with 0x0C, its record naming handle, class and generation, and the class is asked for; HALLOC over its quota answers 1, and otherwise the new handle's reference or 4 (which of the two is the device's own affair, log 44), once no earlier command owns a line of its descriptor and with the lines it reads touched (R334); an admitted SCALE or FILL of an unsealed thread stands last in its handle's order, bound to the generation that the re-dresses before it leave, and its thread is told. HANDLE_COMMAND_ADMISSION so answers a next state. No byte of ordinary memory changes. -/
def Obligations.HandleAdmission : Prop :=
  (∀ (s : State) (c : HandleCmd), c.held = false → ∀ p ∈ ([(.scale, 7), (.fill, 2), (.fillImg, 2), (.stageNc, 15), (.stageNr, 16)] : List (HandleOp × Nat)),
    c.op = p.1 →
    (s.liveRef c.ctx c.a = none → exec (.handleCommandAdmission c) s = .next (s.faultThread c.uid c.reg.toNat 0x0D c.a)) ∧
    (∀ key h, s.liveRef c.ctx c.a = some (key, h) → h.has p.2 = false → (∀ t, s.thread? c.uid = some t → t.attr.isSealed = false) →
      exec (.handleCommandAdmission c) s = .next ((s.modHandle key (fun h => { h with asked := h.asked ||| BitVec.ofNat 32 (2 ^ p.2) })).faultThread
        c.uid c.reg.toNat 0x0C (BitVec.ofNat 64 (refNum c.a * 2 ^ 41 + p.2 * 2 ^ 36 + h.gen.toNat)))) ∧
    (∀ key h t v, (p.1 = .scale ∨ p.1 = .fill) → s.liveRef c.ctx c.a = some (key, h) → h.has p.2 = true → scalarOf c.b = some v →
      s.thread? c.uid = some t → t.attr.isSealed = false → ∃ s' e, exec (.handleCommandAdmission c) s = .next s' ∧
        Tab.find? s'.handles key = some { h with order := h.order ++ [e] } ∧ e.cmd = c ∧ e.redress = false ∧
        e.gen = h.gen + BitVec.ofNat 32 (h.order.filter (·.redress)).length ∧
        .replyArrival c.uid 31#5 0#64 ∈ s'.pending ∧ s.SameMemory s' ∧
        (h.order = [] → .handleOperationCompletion c.ctx (refNum c.a) ∈ s'.pending))) ∧
  (∀ (s : State) (c : HandleCmd) (h : Handle) (i : Nat) (p : CtxPage), c.op = .alloc → s.blockOwned c = false →
    let q := s.touchPlaces (s.piecePlaces c (s.descPieces c))
    q.describe c false = .ok (some h) → s.page? c.ctx = some (i, p) → p.nextH < 2 ^ 23 →
    let mine := s.handles.filter (fun e => decide (e.1 / 2 ^ 23 = c.ctx) && decide (e.2.state ≠ .dead))
    let bytes := mine.foldl (fun n e => n + e.2.charge) 0
    if p.hqmax.toNat < mine.length + 1 ∨ p.hqbytes.toNat < bytes + h.charge then
      exec (.handleCommandAdmission c) s = .next (q.push (.replyArrival c.uid c.reg 1#64))
    else ∃ s', exec (.handleCommandAdmission c) s = .next s' ∧ q.SameMemory s' ∧
      (s'.pending = s.pending ++ [.replyArrival c.uid c.reg 4#64] ∧ s'.handles = s.handles ∨
        ∃ d, s'.pending = s.pending ++ [.replyArrival c.uid c.reg (BitVec.ofNat 64 (2 ^ 63 + p.nextH * 2 ^ 40))] ∧
          s'.handles = Tab.insert s.handles (handleKey c.ctx p.nextH) { h with dress := d }))

/-- HANDLE_OPERATION_COMPLETION of an operation at the head of its handle's order answers a next state: SCALE and FILL give each element that this device holds its rounded value and keep the others, HINFO answers, with the operation set that the operations before it have left, and HFREE ends the handle, and the next operation follows. REDRESS_START of a re-dress at the head begins the build, at once for a handle that is not pinned; for a pinned one never beyond the residency quota, and otherwise at once or later (log 44); one whose classes no dress can meet waits (log 130, the model's reading). REDRESS_COMPLETE raises the generation by one and keeps every element and norm; DRESSER_REDRESS puts a re-dress last in a live handle's order, at most once in 10 ms after the one before. No byte of ordinary memory changes. -/
def Obligations.HandleCompletion : Prop :=
  (∀ (s : State) (ctx num : Nat) (h : Handle) (e : HEntry) (rest : List HEntry), num < 2 ^ 23 →
    let key := handleKey ctx num
    let c := e.cmd
    Tab.find? s.handles key = some h → h.order = e :: rest →
    (e.redress = false → e.other = none → c.ctx = ctx → refNum c.target = num →
      (∀ p ∈ ([(.scale, fun i v => (h.val i).mul v), (.fill, fun _ v => v)] : List (HandleOp × (Nat → FV → FV))), ∀ v, c.op = p.1 → scalarOf c.b = some v →
        Tab.wf 0#32 h.codes = true → (p.1 = .scale → s.poisonedFor c h key = false) →
        ∃ s' h', exec (.handleOperationCompletion ctx num) s = .next s' ∧ Tab.find? s'.handles key = some h' ∧
        (∀ i, h'.code i = if i < h.count ∧ s.keeps h i = true then h.rnd (p.2 i v) % 2 ^ 32 else h.code i) ∧
        h'.opset = h.opset ∧ h'.gen = h.gen ∧ h'.state = h.state ∧ h'.order = rest ∧ s'.mem = s.mem ∧ s'.empty = s.empty ∧
        (s.syncs = [] → h'.hops = h.hops + 1 ∧
          (if h.inLlc then h'.slicex = h.slicex + 1 ∧ h'.settx = h.settx else h'.settx = h.settx + 1))) ∧
      (c.op = .info → c.held = false → ∃ s' h', exec (.handleOperationCompletion ctx num) s = .next s' ∧ Tab.find? s'.handles key = some h' ∧
        h'.codes = h.codes ∧ h'.order = rest ∧ s'.mem = s.mem ∧ s'.empty = s.empty ∧
        .replyArrival c.uid c.reg (match refIndex c.b with
          | 0 => BitVec.ofNat 64 ((h.order.foldl (fun m o => if o.cmd.op = .widen then m &&& ~~~(o.cmd.b.setWidth 32) else m) h.opset).toNat + 2 ^ 32 * h.fmt + 2 ^ 40 * (h.ndim - 1))
          | 1 => h.gen.setWidth 64
          | 2 => BitVec.ofNat 64 (h.dims.getD 0 0 + 2 ^ 32 * h.dims.getD 1 0)
          | _ => BitVec.ofNat 64 (h.dims.getD 2 0 + 2 ^ 32 * h.dims.getD 3 0)) ∈ s'.pending) ∧
      (c.op = .free → ∃ s' h', exec (.handleOperationCompletion ctx num) s = .next s' ∧ Tab.find? s'.handles key = some h' ∧
        h'.state = .dead ∧ h'.pin = false ∧ h'.charge = 0 ∧ h'.order = rest ∧ s'.mem = s.mem ∧ s'.empty = s.empty)) ∧
    (e.redress = true → e.built = false → ∃ s', exec (.redressStart ctx num) s = .next s' ∧ s.SameMemory s' ∧
      (h.pin = false → h.dressable = true → s' = (s.modHandle key (fun h => { h with order := { e with built := true } :: rest })).push (.redressComplete ctx num)) ∧
      (s'.pending = s.pending ++ [.redressStart ctx num] ∧ s'.handles = s.handles ∨
        s'.pending = s.pending ++ [.redressComplete ctx num] ∧
        Tab.find? s'.handles key = some { h with order := { e with built := true } :: rest } ∧
        h.dressable = true ∧ (h.pin = true → s.pinned ctx ≤ match s.page? ctx with | some (_, p) => p.rquota.toNat | none => 0))) ∧
    (e.redress = true → e.built = true → ∃ s' h', exec (.redressComplete ctx num) s = .next s' ∧ Tab.find? s'.handles key = some h' ∧
      h'.gen = h.gen + 1 ∧ h'.redress = h.redress + 1 ∧ h'.codes = h.codes ∧ h'.normC = h.normC ∧ h'.normR = h.normR ∧
      h'.opset = h.opset ∧ h'.order = rest ∧ s'.mem = s.mem ∧ s'.empty = s.empty)) ∧
  (∀ (s : State) (ctx num : Nat) (h : Handle), Tab.find? s.handles (handleKey ctx num) = some h →
    if h.state ≠ .live ∨ (∃ k, h.dressedAt = some k ∧ s.cycle < k + 30000000) then exec (.dresserRedress ctx num) s = .next s
    else ∃ s' e, exec (.dresserRedress ctx num) s = .next s' ∧ s.SameMemory s' ∧
      Tab.find? s'.handles (handleKey ctx num) = some { h with dressedAt := some s.cycle, order := h.order ++ [e] } ∧ e.redress = true ∧ e.built = false)

/-- HANDLE_OPERATION_COMPLETION of an operation at the head of every order it stands in touches the lines it reads (R334) and answers a next state, the operation gone from its handle's order. ADDH, MULH, AXPY and TRANSPOSE give each element of A that this device holds its rounded value and keep the others; FILL.img and COPYIN give it the element of the packed image, COPYIN decoded by the pointer's format and rounded; SROWS gives the selected rows those of the packed rows, in order; an element write stores its codes. ROWSUM, COLSUM and the norm staging forms write F32 words; COPYOUT, GROWS and tile staging write packed elements, a byte set in part keeping the rest, and every other byte is unchanged. HOWN, and an element read of an element that this device holds, answer; HPIN answers 0, 1 or 2, pinning the handle for 0 only, and HUNPIN unpins it. That which of 0 and 2 HPIN answers is free (log 44), what a sum over a sharded handle takes in (log 49), and that a row index beyond the handle reads a free value (log 46), are the model's choices. -/
def Obligations.HandleResults : Prop :=
  ∀ (s : State) (ctx num : Nat) (h : Handle) (e : HEntry) (rest : List HEntry), num < 2 ^ 23 →
    let key := handleKey ctx num
    let c := e.cmd
    let va (w : Word) : Nat := w.toNat % 2 ^ 48
    Tab.find? s.handles key = some h → h.order = e :: rest → e.redress = false → c.ctx = ctx → refNum c.target = num →
    (∀ k, e.other = some k → ∃ o f r, Tab.find? s.handles k = some o ∧ o.order = f :: r ∧ f.cmd = c ∧ f.mark = e.mark) →
    let q := s.touchPlaces (s.piecePlaces c (c.srcPieces h))
    let ends (s' : State) (h' : Handle) : Prop := exec (.handleOperationCompletion ctx num) s = .next s' ∧ Tab.find? s'.handles key = some h' ∧
      h'.order = rest ∧ h'.opset = h.opset ∧ h'.gen = h.gen ∧ h'.state = h.state ∧ s'.empty = s.empty
    let codes (v : Nat → Nat) : Prop := Tab.wf 0#32 h.codes = true → ∃ s' h', ends s' h' ∧ s'.mem = q.mem ∧
      ∀ i, h'.code i = if i < h.count ∧ s.keeps h i = true then v i % 2 ^ 32 else h.code i
    let replies (v : Word) (ff : Flags) : Prop := c.held = false → ∃ s' h', ends s' h' ∧ h'.codes = h.codes ∧ s'.mem = s.mem ∧
      .replyArrival c.uid c.reg v ∈ s'.pending ∧ ∀ t t', s.thread? c.uid = some t → s'.thread? c.uid = some t' →
        t'.fflags = t.fflags ||| (ff &&& 0x17#6).setWidth 64
    -- bytes at offsets from an address, each with the bits it sets
    let writes (a : Nat) (items : List (Nat × Nat × Nat)) : Prop := ∀ dl : Nat → Nat,
      (∀ i ∈ items, i.2.1 ≠ 0 → q.engPlace c.core c.reader false (a + i.1) .wr = .ok (dl i.1) ∧ q.poisoned (dl i.1) = false ∧ q.staleLine (dl i.1 / 64) = false ∧
        (i.2.1 ≠ 255 → q.engPlace c.core c.reader false (a + i.1) .rd = .ok (dl i.1))) →
      let out := items.filter (fun i => decide (i.2.1 ≠ 0))
      q.engHeld { c.reader with mark := e.mark } (linesOf (out.map (fun i => dl i.1))) = false →
      ∃ s' h', ends s' h' ∧ h'.codes = h.codes ∧ s'.mem = out.foldl (fun m i => Store.put m (dl i.1)
        (BitVec.ofNat 8 i.2.2 ||| (q.engByte c.reader (dl i.1) &&& ~~~(BitVec.ofNat 8 i.2.1)))) q.mem
    let words (ws : List Nat) : List (Nat × Nat × Nat) := ws.zipIdx.flatMap (fun w => (List.range 4).map (fun b => (4 * w.2 + b, 255, w.1 / 2 ^ (8 * b) % 256)))
    let f32Of (i : Nat) : FV := value F32 (round F32 false false (h.val i)).1
    let kept (i : Nat) : Bool := s.keeps h i
    (∀ x, Tab.find? s.handles (handleKey ctx (refNum c.b)) = some x → q.poisonedFor c x (handleKey ctx (refNum c.b)) = false →
      (q.poisonedFor c h key = false →
        (c.op = .addh → codes (fun i => h.rnd ((h.val i).add (x.val i)))) ∧
        (c.op = .mulh → codes (fun i => h.rnd ((h.val i).mul (x.val i)))) ∧
        (∀ v, c.op = .axpy → scalarOf c.data = some v → codes (fun i => h.rnd ((v.mul (x.val i)).add (h.val i))))) ∧
      (c.op = .transpose →
        let n := x.cols
        let m := (twoShape x.used).reverse.getD 1 1
        codes (fun i => h.rnd (x.val (i / (m * n) * (m * n) + i % (m * n) % m * n + i % (m * n) / m))))) ∧
    (∀ bs : List Byte,
      (c.op = .fillImg → q.engRead c.core c.reader false (va c.b) (packedBytes h.fmt h.count) = .ok bs → codes (unpackAt h.fmt bs)) ∧
      (c.op = .copyin → s.building c.core (fmtOf c.b) = false → q.engRead c.core c.reader false (va c.b) (packedBytes (fmtOf c.b) h.count) = .ok bs →
        codes (fun i => h.rnd (decodeElem (fmtOf c.b) (s.core c.core).tab (unpackAt (fmtOf c.b) bs i)))) ∧
      (∀ lb : List Byte, q.engRead c.core c.reader false (va c.data) c.listBytes = .ok lb →
        let rows := selectedRows c.mask c.rowCount lb
        let at' (k : Nat) : Nat := rows.getD (k / max 1 h.cols) 0 * h.cols + k % max 1 h.cols
        (c.op = .srows → q.engRead c.core c.reader false (va c.b) (packedBytes h.fmt (rows.length * h.cols)) = .ok bs → ∃ s' h', ends s' h' ∧ s'.mem = q.mem ∧
          h'.codes = (List.range (rows.length * h.cols)).foldl (fun st k =>
            if at' k < h.count ∧ kept (at' k) = true then Store.put st (at' k) (BitVec.ofNat 32 (unpackAt h.fmt bs k)) else st) h.codes) ∧
        (c.op = .grows → q.poisonedFor c h key = false → writes (va c.a) (packItems h.fmt (rows.length * h.cols) (fun k =>
          if at' k < h.count then (if kept (at' k) then some (h.code (at' k)) else none)
          else some ((Config.freeWord (q.free + k)).toNat % 2 ^ elemBits h.fmt)))))) ∧
    (q.poisonedFor c h key = false →
      (c.op = .rowsum → writes (va c.a) (words ((List.range h.rows).map (fun r =>
        sumF32 (.zero true) ((((List.range h.cols).map (fun k => r * h.cols + k)).filter kept).map f32Of))))) ∧
      (c.op = .colsum → writes (va c.a) (words ((List.range h.cols).map (fun k =>
        sumF32 (.zero true) ((((List.range h.rows).map (fun r => r * h.cols + k)).filter kept).map f32Of))))) ∧
      (c.op = .stageNc → writes (va c.b) (words ((List.range h.cols).map (fun k => (Store.get h.normC k).toNat)))) ∧
      (c.op = .stageNr → writes (va c.b) (words ((List.range h.rows).map (fun r => (Store.get h.normR r).toNat)))) ∧
      (c.op = .copyout → s.building c.core (fmtOf c.a) = false → writes (va c.a) (packItems (fmtOf c.a) h.count (fun i =>
        if kept i then some (encodeElem (fmtOf c.a) (s.core c.core).tab false false (h.val i)).1 else none))) ∧
      (c.op = .stageA ∨ c.op = .stageB →
        let first := (c.tileShape h).2.2
        let limit := if c.op = .stageB then (c.tileShape h).1 else min (c.tileShape h).1 (c.tilePart h)
        writes (va c.b) ((List.range (c.tileShape h).1).flatMap (fun i => (packItems h.fmt (c.tileShape h).2.1 (fun k =>
          some (if i < limit ∧ first + i < h.rows ∧ k < h.cols then h.code ((first + i) * h.cols + k) else 0))).map (fun x => (i * c.data.toNat + x.1, x.2))))) ∧
      (c.op = .elemRead → kept c.index = true → replies (h.elemGet c.b c.index).1 (h.elemGet c.b c.index).2)) ∧
    (c.op = .elemWrite → ∃ s' h', ends s' h' ∧ s'.mem = s.mem ∧
      h'.codes = ((h.elemPut c.b c.index c.data).1.filter (fun x => kept x.1)).foldl (fun st x => Store.put st x.1 (BitVec.ofNat 32 x.2)) h.codes) ∧
    (c.op = .own → replies (match h.owner (refIndex c.b) with
      | some w => BitVec.ofNat 64 (w.toNat % 4096)
      | none => s.device.devid.setWidth 64) 0#6) ∧
    (c.op = .unpin → ∃ s' h', ends s' h' ∧ h'.pin = false ∧ h'.codes = h.codes ∧ s'.mem = s.mem) ∧
    (c.op = .pin → c.held = false → ∃ s' h' v, ends s' h' ∧ h'.codes = h.codes ∧ s'.mem = s.mem ∧ .replyArrival c.uid c.reg (BitVec.ofNat 64 v) ∈ s'.pending ∧
      let quota := match s.page? ctx with | some (_, p) => p.rquota.toNat | none => 0
      if h.pin = true then v = 0 ∧ h'.pin = true
      else if quota < s.pinned ctx + h.charge / 64 then v = 1 ∧ h'.pin = false
      else (v = 0 ∧ h'.pin = true) ∨ (v = 2 ∧ h'.pin = false))

/-- On a general core with the chunk ended and an unsealed thread: NMC with a readable block and a writable record, whose lines nothing holds, zeroes the record and is refused with STATE 5, or its command stands last in the queue of the sett core that holds its range, and the thread passes; NMLOAD of a readable image, clean once its lines are touched (R334), enters that core's queue and waits; NMROW is admitted the same way; NMSTAT touches the record's line, writes a nonzero status word to A and otherwise waits. A sett core that runs nothing starts the head command when its overlay is loaded, with the command's values in g0 to g7 and at its entry, whose bits [1:0] do not count (log 53, the model's choice), and has the overlay loaded first otherwise; a loaded overlay holds the image's 4 KiB. A program that stops leaves STATE, value and g3, its stored value even where it is empty (log 57, the model's choice), in its record and the next command is looked at; a zeroing row command leaves zeros in its rows and STATE 1 in its record. Every other byte is unchanged. -/
def Obligations.NearMemory : Prop :=
  (∀ (s s₁ s₂ s₃ : State) (t : Thread) (a b g : BitVec 5) (la lb : Nat), t.settOn = none → t.attr.isSealed = false → t.wait = .running →
    let x := t.val a
    let y := t.val b
    let va (w : Word) : Nat := w.toNat % 2 ^ 48
    let usable (w : Word) : Prop := ∃ key h, s₁.liveRef t.attr.ctx w = some (key, h) ∧ h.has 20 = true
    let free (r : State) (n : Nat) : Prop := r.owned (la / 64) = false ∧ r.owned ((la + n) / 64) = false ∧ r.heldBack s₁.cur [lb / 64] = false
    (Ends s s₁ t [a, b] [a, b] 4 g → s₁.Leads s₂ t (va x) .rd la →
      (s₁.recordFault t.core t.attr.ctx y .wr = none → s₂.Leads s₃ t (va y) .wr lb →
        (s₁.ownFault t.core t.attr.ctx x 64 8 .rd = none → free s₃ 63 →
          (isRef (BitVec.ofNat 64 (s₃.see t (t.spell (va x) + 16) (la + 16) 8)) = true → usable (BitVec.ofNat 64 (s₃.see t (t.spell (va x) + 16) (la + 16) 8))) →
          exec (.nmc a b g) s = .next ((s₃.admitNmc s₁.cur t.attr.ctx t.core la lb (va y)).pastEnd t 4)) ∧
        (s₁.ownFault t.core t.attr.ctx x 32 8 .rd = none → free s₃ 31 → s₃.blockAbsent t.attr.ctx (fun k => BitVec.ofNat 64 (s₃.readLoc (la + 8 * k) 8)) = none →
          exec (.nmrow a b g) s = .next ((s₃.admitRows s₁.cur t.attr.ctx t.core la lb).pastEnd t 4)))) ∧
    (Ends s s₁ t [a, b] [a, b] 4 g → (isRef x = true → usable x) →
      (isRef x = false → badTag x = false ∧ va x < 14 * 2 ^ 44 ∧ ∃ e, s₁.lookup t.attr.ctx (va x) = some e ∧ e.kind = 3) →
      imageFits y = true → fmtOf y = 0 → s₁.Leads s₂ t (va y) .rd lb →
      let q := s₂.touchPlaces (s₂.imageLines t.attr.ctx (va y))
      q.badImage t.attr.ctx (va y) = none →
      exec (.nmload a b g) s = .next ((q.admitLoad s₁.cur t.attr.ctx t.core x y).waits t .nmload)) ∧
    (Ends s s₁ t [a, b] [b] 4 g → s₁.recordFault t.core t.attr.ctx y .rd = none → s₁.Leads s₂ t (va y) .rd lb →
      s₂.owned (lb / 64) = false →
      let q := s₂.touchPlaces [lb]
      q.poisoned lb = false →
      let v := BitVec.ofNat 64 (q.see t (t.spell (va y)) lb 8)
      exec (.nmstat a b g) s = .next (if v.toNat / 2 ^ 60 = 0 then q.waits t (.nmstat lb) else q.pastEnd (t.setReg a.toNat v) 4))) ∧
  (∀ (s : State) (u ctx core la lb va : Nat), s.Inv → lb % 16 = 0 → s.staleLine (lb / 64) = false →
    let w (k : Nat) : Nat := s.readLoc (la + 8 * k) 8
    let s' := s.admitNmc u ctx core la lb va
    let record (v : Nat) : Prop := s'.readLoc lb 8 = v ∧ s'.readLoc (lb + 8) 8 = 0 ∧ SameBut s.mem s'.mem lb 16
    (s.nmRange ctx (BitVec.ofNat 64 (w 2)) (w 3) = none → record (5 * 2 ^ 60 + 1)) ∧
    (∀ n, s.nmRange ctx (BitVec.ofNat 64 (w 2)) (w 3) = some (n, none) →
      (imageFits (BitVec.ofNat 64 (w 1)) = false → record (5 * 2 ^ 60 + 2)) ∧
      (imageFits (BitVec.ofNat 64 (w 1)) = true → s.lostStacks.contains (n / 64) = true → record (5 * 2 ^ 60 + 3)) ∧
      (imageFits (BitVec.ofNat 64 (w 1)) = true → s.lostStacks.contains (n / 64) = false → record 0 ∧ ∃ c,
        (s'.sett n).queue = (s.sett n).queue ++ [c] ∧ c.uid = u ∧ c.ctx = ctx ∧ c.core = core ∧ c.loadOnly = false ∧ c.hnd = none ∧ c.status = lb ∧ c.statusVa = va ∧
        c.entry = w 0 % 2 ^ 48 / 4 * 4 ∧ c.image = w 1 % 2 ^ 48 ∧ c.base = w 2 % 2 ^ 48 ∧ c.len = w 3 ∧
        c.off.toNat = w 4 ∧ c.arg0.toNat = w 5 ∧ c.arg1.toNat = w 6 ∧ c.arg2.toNat = w 7))) ∧
  (∀ (s : State) (n : Nat) (c : NmCmd) (rest : List NmCmd), (s.sett n).running = none → (s.sett n).queue = c :: rest →
    let lines := s.imageLines c.ctx c.image
    let q := s.touchPlaces lines
    (c.loadOnly = true ∨ (s.sett n).ovl ≠ some c.image ∨ (s.sett n).ovlFrom ≠ lines → q.imageAt c.ctx c.image = .ready lines →
      exec (.nmProgramStart n) s = .next (q.push (.overlayLoadComplete n c.image))) ∧
    (c.loadOnly = false → (s.sett n).ovl = some c.image → (s.sett n).ovlFrom = lines → s.imageAt c.ctx c.image ≠ .absent → ∃ s' t,
      exec (.nmProgramStart n) s = .next s' ∧
      (s'.sett n).running = some s.nextUid ∧ s'.thread? s.nextUid = some t ∧ t.place = .sett n ∧ t.pc = c.entry ∧ t.program = true ∧
      (List.range 8).map (fun k => (t.reg k).val) = [BitVec.ofNat 64 c.base, BitVec.ofNat 64 c.len, c.off, c.arg0, c.arg1, c.arg2, BitVec.ofNat 64 n, 0#64] ∧
      s'.mem = s.mem) ∧
    (c.loadOnly = false → q.imageAt c.ctx c.image = .ready lines → ∃ s', exec (.overlayLoadComplete n c.image) s = .next s' ∧
      (s'.sett n).ovl = some c.image ∧ (s'.sett n).queue = c :: rest ∧
      (∀ i, i < 4096 → Store.get (s'.sett n).code i = Store.get q.mem (lines.getD (i / 64) 0 + i % 64)) ∧ .nmProgramStart n ∈ s'.pending ∧ s'.mem = q.mem)) ∧
  (∀ (s : State) (n u state : Nat) (info : Word) (c : NmCmd) (rest : List NmCmd) (t : Thread), s.Inv → Tab.rising s.setts = true → (s.sett n).running = some u → (s.sett n).queue = c :: rest →
    s.thread? u = some t → t.wait = .reply → c.status % 16 = 0 → s.recordHeld c.status = false → s.staleLine (c.status / 64) = false → state < 16 → ∃ s', exec (.nmProgramStop n state info) s = .next s' ∧
    s'.readLoc c.status 8 = state * 2 ^ 60 + (if state = 1 then 0 else info.toNat % 2 ^ 48) ∧ s'.readLoc (c.status + 8) 8 = (t.reg 3).val.toNat ∧
    SameBut s.mem s'.mem c.status 16 ∧ s'.thread? u = none ∧ (s'.sett n).queue = rest ∧ (s'.sett n).running = none ∧
    (rest ≠ [] → .nmProgramStart n ∈ s'.pending)) ∧
  (∀ (s : State) (n : Nat) (c : RowCmd) (rest : List RowCmd), s.Inv → (s.sett n).rows = c :: rest → c.copy = false → c.status % 16 = 0 → s.recordHeld c.status = false → s.staleLine (c.status / 64) = false →
    (∀ d ∈ c.dst, c.status + 16 ≤ d ∨ d + 1024 ≤ c.status) → ∃ s', exec (.nmrowStop n) s = .next s' ∧
    s'.readLoc c.status 8 = 2 ^ 60 ∧ s'.readLoc (c.status + 8) 8 = 0 ∧ (∀ d ∈ c.dst, ∀ i, i < 1024 → Store.get s'.mem (d + i) = 0#8) ∧
    (∀ l, (l < c.status ∨ c.status + 16 ≤ l) → (∀ d ∈ c.dst, l < d ∨ d + 1024 ≤ l) → Store.get s'.mem l = Store.get s.mem l))

/-- A 64-byte write to the launch window of a context that is not free, on a device that serves more than its device page, pushes one record, and any other leaves one KIND 11 record. The Bed answers a refused record with its status (a host's with a KIND 7 record) and an admitted one with 0: the launch it describes stands under the next key with the next sequence number and nothing placed. Placement puts the next thread of a fitting record into the free slot of the chosen core, with empty registers, its TID, entry and trap vector, and writes the launch image and the identity words of the constant window full. A pre-emption takes a thread at least 8 levels lower, which leaves its slot for the stockpile with its pc and registers. Ageing raises a record and its threads by one level up to the ceiling. That word 202 is two thirds of the cycle count (log 101), and that a record without a thread names CORE 0, SLOT 31 and sequence number 0 (log 82), are the model's choices. -/
def Obligations.LaunchEvents : Prop :=
  (∀ (s : State) (page off : Nat) (words : List Word),
    let p := s.ctxPage page
    (p.state = 0 ∨ s.pageOnly = true → exec (.hostLaunchWrite page off words) s = .next s) ∧
    (p.state ≠ 0 → s.pageOnly = false → off = 0 → words.length = 8 →
      exec (.hostLaunchWrite page off words) s = .next (s.push (.launchAdmission ⟨p.num, words, false, 0, 31#5, 0, 0, 0, false⟩))) ∧
    (s.Inv → s.pageOnly = false → s.page? p.num = some (page, p) → (off ≠ 0 ∨ words.length ≠ 8) → (p.fwhead - p.fwtail).toNat ≠ p.fwsize.toNat →
      let at0 := hostLoc (p.fwbase.toNat + 64 * (p.fwhead.toNat % p.fwsize.toNat))
      ∃ s', exec (.hostLaunchWrite page off words) s = .next s' ∧ (s'.ctxPage page).fwhead = p.fwhead + 1#64 ∧
        s'.readLoc at0 8 = 11 * 2 ^ 56 + p.num % 65536 * 2 ^ 32 + 31 * 2 ^ 16 ∧ SameBut s.mem s'.mem at0 64)) ∧
  (∀ (s : State) (r : LaunchReq),
    let w (k : Nat) : Nat := (r.words.getD k 0#64).toNat
    (r.dev = false → w 0 % 64 ≠ 0 → exec (.launchAdmission r) s = .next (s.record r.ctx 7 1 0 31 0 0 0 0 (w 0) (w 1))) ∧
    (∀ k, r.dev = true → r.held = false → s.judge r false = .ok (.error k) →
      exec (.launchAdmission r) s = .next (s.push (.replyArrival r.uid r.reg (BitVec.ofNat 64 k)))) ∧
    (∀ l, s.judge r false = .ok (.ok l) → ∃ s' i p, exec (.launchAdmission r) s = .next s' ∧ s.page? r.ctx = some (i, p) ∧
      Tab.find? s'.launches s.nextKey = some l ∧ s'.nextKey = s.nextKey + 1 ∧ .threadPlacement ∈ s'.pending ∧
      (s'.ctxPage i).nextSeq = (s.ctxPage i).nextSeq + 1 ∧ l.attr.ctx = r.ctx ∧ l.attr.seq = p.nextSeq ∧ l.next = 0 ∧ l.live = 0 ∧
      l.requeue = [] ∧ 0 < l.threads ∧ l.prio ≤ p.ceil ∧ l.attr.prio = l.prio ∧ s.SameMemory s' ∧
      (r.dev = true → r.held = false → .replyArrival r.uid r.reg 0#64 ∈ s'.pending) ∧
      (r.dev = false → l.threads = w 1 % 2 ^ 32 ∧ l.place.toNat = w 2 ∧ l.gate = w 3 ∧ l.group = w 4 % 2 ^ 32))) ∧
  (∀ (s : State) (key c k : Nat) (l : Launch), s.Inv → s.launches = [(key, l)] → l.next < l.threads → l.requeue = [] → s.eligible l = true →
    s.bestCore l (s.fitting key l) = some c → s.freeSlot c = some k → (s.core c).tag = some l.attr.ctx → s.waiters = [] →
    let id := [c, xOf c + 2 ^ 8 * yOf c + 2 ^ 16 * faceOf c + 2 ^ 24 * clusterOf c, s.device.devid.toNat, l.attr.ctx, l.threads, l.attr.header,
      l.group, l.attr.seq, l.image.length, (s.core c).cap, s.cycle * 2 / 3]
    ∃ s' t, exec .threadPlacement s = .next s' ∧ s'.thread? s.nextUid = some t ∧ t.place = .slot c k ∧ t.pc = l.entry ∧ t.tvec = l.tvec ∧
      t.regs = [] ∧ t.attr.tid = BitVec.ofNat 32 l.next ∧ t.attr.ctx = l.attr.ctx ∧ t.attr.seq = l.attr.seq ∧
      s'.launches = [(key, { l with next := l.next + 1, live := l.live + 1 })] ∧ .threadPlacement ∈ s'.pending ∧
      (s'.core c).claim = (if l.claims then some key else (s.core c).claim) ∧
      (∀ j, j < 64 → s'.readLoc (localLoc c (8 * (192 + j))) 8 = id.getD j 0 % 2 ^ 64 ∧ s'.full (localLoc c (8 * (192 + j)) / 8) = true) ∧
      (∀ j v, j < 192 → l.image[j]? = some v → s'.readLoc (localLoc c (8 * j)) 8 = v.toNat ∧ s'.full (localLoc c (8 * j) / 8) = true) ∧
      (∀ a, a < localLoc c 0 ∨ localLoc c (8 * max 256 l.image.length) ≤ a → Store.get s'.mem a = Store.get s.mem a)) ∧
  (∀ (s : State) (u : Nat),
    (s.launches = [] → exec .threadPlacement s = .next s) ∧
    (s.dispatch = none → s.preemptor = some u → s.pending.contains .dispatchPreemption = false →
      exec .threadPlacement s = .next (s.push .dispatchPreemption)) ∧
    (s.preemptor = some u → exec .dispatchPreemption s = .next ((s.modThread u (fun t => { t with preempt := true, ceded := true })).push (.threadPreemption u)) ∧
      ∃ key l t c k, (key, l) ∈ s.launches ∧ (u, t) ∈ s.threads ∧ t.place = .slot c k ∧ k < 16 ∧ t.handler = false ∧ t.attr.prio + 8 ≤ l.prio)) ∧
  (∀ (s : State) (u c k : Nat) (t : Thread), s.thread? u = some t → t.place = .slot c k → t.solo = false → t.Ended → u < s.nextUid →
    (t.preempt = false ∨ t.inRotation = true → exec (.threadPreemption u) s = .next s) ∧
    (t.preempt = true → t.wait ≠ .running → t.wait.forReply = false → s.replyOnly u = false → (t.halted = false ∨ s.freezing = true) → ∃ s' t', exec (.threadPreemption u) s = .next s' ∧
      s'.thread? u = some t' ∧ t'.place = .stock c ∧ t'.pc = t.pc ∧ t'.wait = .running ∧ t'.preempt = false ∧ t'.preds = t.preds ∧
      (∀ r, (t'.reg r).val = (t.reg r).val ∧ (t'.reg r).full = (t.reg r).full) ∧ .slotFill c ∈ s'.pending)) ∧
  (∀ (s : State) (key i : Nat) (l : Launch) (p : CtxPage), Tab.find? s.launches key = some l → s.page? l.attr.ctx = some (i, p) →
    (p.ceil ≤ l.prio → exec (.launchAgeing key) s = .next s) ∧
    (l.prio < p.ceil → ∃ s', exec (.launchAgeing key) s = .next s' ∧ Tab.find? s'.launches key = some { l with prio := l.prio + 1 } ∧
      (∀ u, s'.thread? u = (s.thread? u).map (fun t => if t.attr.ctx = l.attr.ctx ∧ t.attr.seq = l.attr.seq then
        { t with attr := { t.attr with prio := max t.attr.prio (l.prio + 1) } } else t)) ∧
      s' = { s with launches := s'.launches, threads := s'.threads }))

/-- A freed slot takes the one ready stockpile entry that fits, may live beside the launches that claim the core and gave no slot up to a record that still waits (log 110), with its pc and registers, no sooner than the slot's turn comes round again, and a fenced or freezing core takes none. Balancing moves the one movable thread of a core with at least 12 ready slots to the only idle core of its cluster, with its full registers. An exchange on a vacant, quiet core saves the local memory of its context, loads that of the new one, or zeroes, and tags the core, its message and light-handler queues empty (log 60, the model's choice); one for a core that is not vacant or is fenced is given up; the engine exchange does the same for the engine state alone. An accepted SPAWN packet for a core where no thread of a claiming launch with broadcast words lives, with nothing holding the lines of its constant window, makes a thread at its start with the registers of the run, and a refused one faults the parent with 0x11. A departing thread leaves with its full registers under the mask once none is awaited, and arrives at the owner's slot, or on the owner's sett core. -/
def Obligations.SlotEvents : Prop :=
  (∀ (s : State) (u c k : Nat) (t : Thread),
    ((s.coreFenced c = true ∨ s.freezing = true) → exec (.slotFill c) s = .next s) ∧
    (s.coreFenced c = false → s.freezing = false → s.thread? u = some t → s.stockOf c = [(u, t)] → t.inRotation = true → t.handler = false →
      t.swapReg = none → t.toPlace = false → s.mayEnter t c = true → s.waitsFor t c = false → s.freeSlot c = some k → t.attr.count ≤ s.freeRegs c →
      (s.core c).tag = some t.attr.ctx →
      ∃ s' t', exec (.slotFill c) s = .next s' ∧ s'.thread? u = some t' ∧ t'.place = .slot c k ∧ t'.pc = t.pc ∧ t'.regs = t.regs ∧
        t'.attr = t.attr ∧ Tab.find? (s'.core c).turnAt k = some (max (Tab.get 0 (s.core c).turnAt k) (s.cycle + 1)) ∧ .slotFill c ∈ s'.pending ∧ s'.mem = s.mem)) ∧
  (∀ (s : State) (u c d k : Nat) (t : Thread),
    (s.readySlots c < 12 → exec (.loadBalance c) s = .next s) ∧
    (12 ≤ s.readySlots c → d ∈ clusterCores (clusterId c) → s.readySlots d < 4 → (∀ x ∈ clusterCores (clusterId c), x ≠ d → 4 ≤ s.readySlots x) →
      s.coreFenced d = false → s.freezing = false → (s.core d).tag = some t.attr.ctx → (s.core c).tag = some t.attr.ctx →
      (s.inSlots c).filter (fun e => e.2.movable && decide (e.2.slot < 16)) = [(u, t)] → s.thread? u = some t → t.swapReg = none → t.toPlace = false → t.ceded = false → s.freeSlot d = some k →
      t.attr.count ≤ s.freeRegs d → ∃ s' t', exec (.loadBalance c) s = .next s' ∧ s'.thread? u = some t' ∧ t'.place = .slot d k ∧ t'.pc = t.pc ∧
        t'.preds = t.preds ∧ t'.attr = t.attr ∧ (∀ r, (t.reg r).full = true → t'.reg r = t.reg r) ∧ .slotFill c ∈ s'.pending ∧ s'.mem = s.mem)) ∧
  (∀ (s : State) (c x ctx : Nat),
    (s.vacant c = false ∨ s.coreFenced c = true → exec (.localContextExchange c ctx) s = .next (match (s.core c).tag with
      | some y => s.modCtx y (fun p => { p with saving := none })
      | none => s)) ∧
    (s.vacant c = true → s.coreFenced c = false → s.Inv → c < 16384 → (s.core c).tag = some x → x ≠ ctx → (s.core c).quiet = true → ∃ s' i, exec (.localContextExchange c ctx) s = .next s' ∧
      (s'.core c).tag = some ctx ∧ (s'.core c).etag = some ctx ∧ (s'.core c).msgs = [] ∧ (s'.core c).lights = [] ∧
      Tab.find? s'.saved (savedKey x c) = some i ∧ i.eng = (s.core c).eng ∧ (∀ o, o < 2 ^ 16 → Store.get i.bytes o = Store.get s.mem (localLoc c o)) ∧
      (Tab.find? s.saved (savedKey ctx c) = none → (s'.core c).eng = EngState.reset c ∧ (∀ o, o < 2 ^ 16 → Store.get s'.mem (localLoc c o) = 0#8) ∧
        (∀ a, a < localLoc c 0 ∨ localLoc c (2 ^ 16) ≤ a → Store.get s'.mem a = Store.get s.mem a)) ∧
      (∀ j, Tab.find? s.saved (savedKey ctx c) = some j → Memory.wf j.bytes → (s'.core c).eng = j.eng ∧
        ∀ o, o < 2 ^ 16 → Store.get s'.mem (localLoc c o) = Store.get j.bytes o))) ∧
  (∀ (s : State) (c x ctx : Nat), (s.core c).etag = some x → x ≠ ctx →
    ((s.core c).quiet = false → ∃ s', exec (.engineContextExchange c ctx) s = .next s' ∧ s'.cores = s.cores ∧
      .engineContextExchange c ctx ∈ s'.pending) ∧
    ((s.core c).quiet = true → ∃ s' i, exec (.engineContextExchange c ctx) s = .next s' ∧ (s'.core c).etag = some ctx ∧
      (s'.core c).tag = (s.core c).tag ∧ Tab.find? s'.saved (savedKey x c) = some i ∧ i.eng = (s.core c).eng ∧
      (s'.core c).eng = (match Tab.find? s.saved (savedKey ctx c) with
        | some j => j.eng
        | none => EngState.reset c) ∧ s'.mem = s.mem)) ∧
  (∀ (s : State) (p : SpawnPacket) (k : Nat),
    (p.held = false → s.spawnRefused p.attr.ctx p.core = true →
      exec (.spawnPacketAccept p) s = .next (s.faultThread p.parent 31 0x11 (BitVec.ofNat 64 p.core))) ∧
    (s.spawnRefused p.attr.ctx p.core = false → (p.run.map (·.1)).Nodup → s.freezing = false → s.freeSlot p.core = some k →
      p.attr.count ≤ s.freeRegs p.core → (s.core p.core).tag = some p.attr.ctx → (∀ e ∈ s.threads, e.1 ≠ s.nextUid) →
      s.waiters = [] → (∀ e ∈ s.claimants p.core p.attr.ctx, e.2.image = []) →
      (∀ j l, s.launchOf p.attr = some (j, l) → s.windowBusy l.image.length p.core = false) →
      ∃ s' t', exec (.spawnPacketAccept p) s = .next s' ∧ s'.thread? s.nextUid = some t' ∧ t'.place = .slot p.core k ∧ t'.pc = p.start ∧
        t'.tvec = p.tvec ∧ t'.attr = p.attr ∧ (∀ r v, (r, v, true) ∈ p.run → t'.reg r = ⟨v, true, false, false⟩) ∧
        (∀ r, (∀ v, (r, v, true) ∉ p.run) → t'.reg r = Reg.empty) ∧
        (p.held = false → .replyArrival p.parent 31#5 0#64 ∈ s'.pending))) ∧
  (∀ (s : State) (u c k n owner : Nat) (mask : BitVec 28) (t : Thread), s.thread? u = some t →
    (t.wait = .depart → t.regs.any (fun r => r.2.pend) = true →
      exec (.migrationDeparture u owner mask) s = .next (s.push (.migrationDeparture u owner mask))) ∧
    (t.wait = .depart → t.regs.any (fun r => r.2.pend) = false → t.place = .slot c k → k < 16 →
      ∃ s' t', exec (.migrationDeparture u owner mask) s = .next s' ∧ s'.thread? u = some t' ∧ t'.place = .transit ∧ t'.wait = .running ∧
        t'.pc = t.pc ∧ t'.preds = t.preds ∧ (∀ r, (t.reg r).full = true → mask.getLsbD r = true → t'.reg r = t.reg r) ∧
        .slotFill c ∈ s'.pending ∧ .migrationArrival u owner ∈ s'.pending ∧ s'.mem = s.mem) ∧
    (t.place = .transit → t.handler = false → t.swapReg = none → t.toPlace = false → t.ceded = false → owner < 16384 → s.freeSlot owner = some k → t.attr.count ≤ s.freeRegs owner →
      (s.core owner).tag = some t.attr.ctx → s.coreFenced owner = false → s.freezing = false →
      ∃ s' t', exec (.migrationArrival u owner) s = .next s' ∧ s'.thread? u = some t' ∧ t'.place = .slot owner k ∧ t'.pc = t.pc ∧
        t'.regs = t.regs ∧ s'.mem = s.mem) ∧
    (t.place = .transit → exec (.migrationArrival u (16384 + n)) s = .next
      ((s.modThread u (fun t => { t with place := .sett n, ilen := 0 })).modSett n (fun q => { q with visitors := q.visitors ++ [u] }))))

/-- A reply to a thread that waits for it fills its register and the thread goes on past its instruction; one for a register that is pending fills it, and any other changes nothing. A message for a core of its context enters the queue, ends the IDLE of threads there and starts a handler if the slot is empty; one for a fenced core or another context is dropped, and one for a full queue waits. A handler starts in slot 16 of the live launch with the sender in g0 and the words after the first in g1 and up, at the first word; a light handler at the launch's handler with its two words. A remote fill fills an armed register and answers 0, answers 1 for one that is not, and 3 for a fenced core. A resolved page wakes its thread, one that cannot be resolved gives it 0x08. A fence completes when the posted stores it waits for, within the device for FENCE.dev and all for FENCE.sys, have been applied, and an XFENCE writes back and invalidates the lines of its range. That a message for a core of another context, and a sett core's for a core without a live launch, are discarded (log 58), and that one for a full queue is sent again in its order (log 65), are the model's choices. -/
def Obligations.ArrivalEvents : Prop :=
  (∀ (s : State) (u : Nat) (reg : BitVec 5) (v : Word) (t : Thread), s.thread? u = some t →
    (t.wait = .reply ∨ t.wait = .handle → exec (.replyArrival u reg v) s = .next { s with
      threads := Tab.insert s.threads u (if reg.toNat < 28 then t.fillReg reg.toNat v else t).finish }) ∧
    (t.wait ≠ .reply → t.wait ≠ .handle → reg.toNat < 28 → (t.reg reg.toNat).pend = true → ∃ s' t', exec (.replyArrival u reg v) s = .next s' ∧
      s'.thread? u = some t' ∧ t'.reg reg.toNat = ⟨v, true, false, false⟩ ∧ t'.pc = t.pc ∧ s' = { s with threads := s'.threads }) ∧
    (t.wait ≠ .reply → t.wait ≠ .handle → (reg.toNat < 28 → (t.reg reg.toNat).pend = false) → exec (.replyArrival u reg v) s = .next s)) ∧
  (∀ (s : State) (c : Nat) (m : Message), s.Inv →
    ((s.coreFenced c = true ∨ (s.core c).tag ≠ some m.ctx) → isWatchMessage m = false → exec (.messageArrival c m) s = .next s) ∧
    (s.coreFenced c = false → (s.core c).tag = some m.ctx → isSettMessage m = true → s.liveLaunch c = none → exec (.messageArrival c m) s = .next s) ∧
    (s.coreFenced c = false → (s.core c).tag = some m.ctx → (isSettMessage m = false ∨ s.liveLaunch c ≠ none) → 8 ≤ (s.core c).msgs.length → ∃ s', exec (.messageArrival c m) s = .next s' ∧
      .messageArrival c m ∈ s'.pending ∧ s' = { s with pending := s'.pending }) ∧
    (s.coreFenced c = false → (s.core c).tag = some m.ctx → (isSettMessage m = false ∨ s.liveLaunch c ≠ none) → (s.core c).msgs.length < 8 → ∃ s', exec (.messageArrival c m) s = .next s' ∧
      s'.core c = { s.core c with msgs := (s.core c).msgs ++ [m] } ∧ (∀ d, d ≠ c → s'.core d = s.core d) ∧
      (s.inSlot c 16 = none → (s.core c).lights = [] → .messageHandlerStart c ∈ s'.pending) ∧
      (∀ u t k b, s.thread? u = some t → t.wait = .idle b → t.place = .slot c k → s'.thread? u = some t.finish) ∧
      s' = { s with cores := s'.cores, threads := s'.threads, pending := s'.pending })) ∧
  (∀ (s : State) (c : Nat) (m : Message) (rest : List Message) (l : Launch) (x : Nat) (g0 g1 : Word) (more : List (Nat × Word × Word)), s.Inv → s.waiters = [] →
    s.handlerFree c = true →
    ((s.core c).lights = [] → (s.core c).msgs = m :: rest → s.liveLaunch c = some l → ∃ s' t, exec (.messageHandlerStart c) s = .next s' ∧
      s'.thread? s.nextUid = some t ∧ t.place = .slot c 16 ∧ t.handler = true ∧ t.pc = (m.words.headD 0#64).toNat % 2 ^ 48 ∧ t.tvec = l.tvec ∧
      t.attr.ctx = l.attr.ctx ∧ t.attr.seq = l.attr.seq ∧ t.attr.count = 8 ∧ t.reg 0 = ⟨m.sender, true, false, false⟩ ∧
      (∀ j v, m.words[j + 1]? = some v → t.reg (j + 1) = ⟨v, true, false, false⟩) ∧ (s'.core c).msgs = rest ∧ s'.mem = s.mem) ∧
    ((s.core c).lights = (x, g0, g1) :: more → Tab.find? s.launches x = some l →
      ∃ s' t, exec (.lightHandlerStart c) s = .next s' ∧
      s'.thread? s.nextUid = some t ∧ t.place = .slot c 16 ∧ t.handler = true ∧ t.pc = l.attr.handler ∧ t.attr.ctx = l.attr.ctx ∧
      t.reg 0 = ⟨g0, true, false, false⟩ ∧ t.reg 1 = ⟨g1, true, false, false⟩ ∧ (s'.core c).lights = more ∧ s'.mem = s.mem)) ∧
  (∀ (s : State) (u w c k r : Nat) (reg : BitVec 5) (target v : Word) (t o : Thread), s.thread? u = some t →
    target.toNat = c + 2 ^ 16 * k + 2 ^ 24 * r + 2 ^ 32 * s.device.devid.toNat → c < 16384 → k ≤ 16 → r < 28 →
    (s.coreFenced c = true → exec (.rfillDelivery u reg target v) s = .next ((s.progress t.attr.ctx).push (.replyArrival u reg 3#64))) ∧
    (s.coreFenced c = false → s.inSlot c k = some (w, o) → o.attr.ctx = t.attr.ctx → r < o.attr.count →
      ((o.reg r).armed = true → (o.reg r).full = false → exec (.rfillDelivery u reg target v) s =
        .next (((s.modThread w (fun t => if t.wait = .reg r then (t.fillReg r v).wake else t.fillReg r v)).progress t.attr.ctx).push (.replyArrival u reg 0#64))) ∧
      (s.fillTarget t.attr.ctx c k r = none → exec (.rfillDelivery u reg target v) s = .next ((s.progress t.attr.ctx).push (.replyArrival u reg 1#64))))) ∧
  (∀ (s : State) (ctx page u va : Nat) (t : Thread), s.faultq = [⟨ctx, page, [.thread u]⟩] → s.thread? u = some t → t.wait = .page va →
    exec (.faultQueueResolution ctx page true) s = .next { s with faultq := [], threads := Tab.insert s.threads u t.wake } ∧
    (t.settOn = none → exec (.faultQueueResolution ctx page false) s = .next { s with
      faultq := [], threads := Tab.insert s.threads u { t with async := (0x08, BitVec.ofNat 64 va) :: t.async, wait := .running, back := true } })) ∧
  (∀ (s : State) (u scope : Nat) (t : Thread), s.thread? u = some t → t.wait = .fence →
    let busy := s.postsOpen u (decide (scope = 2))
    (scope ≠ 0 → busy = true → exec (.fenceCompletion u scope) s = .next (s.push (.fenceCompletion u scope))) ∧
    (scope = 0 ∨ busy = false → exec (.fenceCompletion u scope) s = .next (({ s with
      co := s.co + 1, threads := Tab.insert s.threads u t.finish } : State).progress t.attr.ctx))) ∧
  (∀ (s : State) (u ctx base len : Nat) (t : Thread), s.thread? u = some t → t.wait = .xfence → s.Inv → Tab.rising s.near = true →
    s.nearBusy (((s.rangeLines ctx base len).map (fun l => settOf (64 * l))).eraseDups) = false →
    ∃ s', exec (.xfenceCompletion u ctx base len t.stamp) s = .next s' ∧
    s'.thread? u = some t.finish ∧
    (∀ a, a / 64 ∈ s.rangeLines ctx base len → s'.hbmByte a = Store.get s'.mem a ∧ Tab.find? s'.near a = none) ∧
    (∀ a, a / 64 ∉ s.rangeLines ctx base len → Store.get s'.mem a = Store.get s.mem a ∧ Tab.find? s'.near a = Tab.find? s.near a) ∧
    (∀ a n, a / 64 ∈ s.rangeLines ctx base len → (Tab.find? s.near a = none ∨ (Tab.find? s.near a = some n ∧ n.getLsbD 8 = true)) →
      Store.get s'.mem a = Store.get s.mem a))

/-- At a home that serves the context, which touches the word's line (R334), with the line neither held nor poisoned and nothing waiting, an LDE or LDF of a full word answers its value, LDE clearing the bit, and of an empty word waits; STF and an STS of an empty word write the word and set it full, CLRE clears it; each makes progress of its context (R388); a home that does not serve the context gives 0x07. A remote load answers the word and notes its read, but for one that read a port (R329). A posted store is written at its destination and acknowledged, a refused one marks its entry; the acknowledgement frees the entry and wakes its waiters, and a refusal traps the thread with 0x16 and the entry. Every other byte is unchanged. -/
def Obligations.HomeEvents : Prop :=
  (∀ (s : State) (a : Access) (t : Thread), s.thread? a.uid = some t →
    let fills := a.kind = .lde ∨ a.kind = .ldf
    let e : Instr := .fullEmptyHomeAccess a
    (s.homeServes a.loc a.ctx = false → (a.kind = .lde ∨ a.kind = .ldf) → exec e s = .next ((s.faultThread a.uid a.reg.toNat 0x07 (BitVec.ofNat 64 a.va)).wakePorts a.core)) ∧
    (s.homeServes a.loc a.ctx = true → s.writeHeld a.uid a.loc = false → t.attr.isSealed = false → s.waiters = [] → localCore a.loc ≠ some t.core →
      let q := s.touchPlaces [a.loc]
      let v := BitVec.ofNat 64 (q.see t (t.spell a.va) a.loc 8)
      let replied (s : State) (reg : BitVec 5) (v : Word) : State :=
        ((s.progress t.attr.ctx).modThread a.uid (fun t => { t with wait := .reply })).push (.replyArrival a.uid reg v)
      (fills → q.poisoned a.loc = true → exec e s = .next (q.faultThread a.uid a.reg.toNat 0x09 (BitVec.ofNat 64 (a.va / 64 * 64)))) ∧
      (fills → q.poisoned a.loc = false → q.full (a.loc / 8) = false → exec e s = .next { q with waiters := [a] }) ∧
      (a.kind = .lde → q.poisoned a.loc = false → q.full (a.loc / 8) = true → exec e s = .next (replied (q.bitEvent a.loc false) a.reg v)) ∧
      (a.kind = .ldf → q.poisoned a.loc = false → q.full (a.loc / 8) = true → exec e s = .next (replied q a.reg v)) ∧
      (a.kind = .clre → exec e s = .next (replied (q.bitEvent a.loc false) 31#5 0#64)) ∧
      (a.kind = .sts → q.full (a.loc / 8) = true → exec e s = .next { q with waiters := [a] }) ∧
      ((a.kind = .stf ∨ (a.kind = .sts ∧ s.full (a.loc / 8) = false ∧ keptPorts a = [])) → s.Inv → a.loc % 8 = 0 → s.staleLine (a.loc / 64) = false →
        t.wait = .word → ∃ s' t', exec e s = .next s' ∧ s'.readLoc a.loc 8 = a.data.toNat ∧ SameBut s.mem s'.mem a.loc 8 ∧
        s'.full (a.loc / 8) = true ∧ (∀ w, w ≠ a.loc / 8 → s'.full w = s.full w) ∧ s'.thread? a.uid = some t' ∧ t'.wait = .reply ∧ t'.pc = t.pc ∧
        .replyArrival a.uid 31#5 0#64 ∈ s'.pending))) ∧
  (∀ (s : State) (a : Access) (t : Thread), s.thread? a.uid = some t →
    (s.homeServes a.loc a.ctx = false → exec (.remoteAccessArrival a) s = .next (s.faultThread a.uid a.reg.toNat 0x07 (BitVec.ofNat 64 a.va))) ∧
    (s.homeServes a.loc a.ctx = true → s.owned (a.loc / 64) = false → s.poisoned a.loc = false → a.fmt < 2 → t.settOn = none →
      ∃ s' t', exec (.remoteAccessArrival a) s = .next s' ∧ s'.thread? a.uid = some t' ∧
        (if a.expd = 1#64 then t'.chunk = t.chunk else a.loc / 8 ∈ t'.chunk.reads) ∧ t'.fflags = t.fflags ∧
        t'.pc = t.pc ∧ t'.regs = t.regs ∧ t'.chunk.writes = t.chunk.writes ∧
        s' = { s with threads := s'.threads, pending := s.pending ++ [.replyArrival a.uid a.reg (BitVec.ofNat 64 (s.see t a.va a.loc a.size))] })) ∧
  (∀ (s : State) (c k loc : Nat) (e : JEntry), s.Inv → c < 16384 → (s.core c).journal = [(k, e)] → e.spent = false →
    (∀ q ∈ s.cores, ∀ x ∈ q.2.journal, x.2.uid = e.uid → x.2.spent = false → e.order ≤ x.2.order) →
    (∀ x, s.coreSpot c e.acc.ctx e.acc.va .wr = .bad x → ∃ s', exec (.postedStoreApply c k) s = .next s' ∧ s'.mem = s.mem ∧ s'.empty = s.empty ∧
      (s'.core c).journal = [(k, { e with spent := true })] ∧ s'.pending = s.pending ++ [.postedStoreRefusal c k]) ∧
    ((s.coreSpot c e.acc.ctx e.acc.va .wr = .near loc ∨ ∃ d, s.coreSpot c e.acc.ctx e.acc.va .wr = .remote d loc ∧ s.holds d e.acc.ctx = true) →
      s.heldBack e.uid [loc / 64] = false → s.poisoned loc = false → (∀ t, s.thread? e.uid = some t → t.attr.isSealed = false) → s.waiters = [] →
      loc % 8 = 0 → e.acc.kind = .pst ∨ e.acc.kind = .pstf → ∃ s', exec (.postedStoreApply c k) s = .next s' ∧ s'.readLoc loc 8 = e.acc.data.toNat ∧
      SameBut s.mem s'.mem loc 8 ∧ s'.full (loc / 8) = (decide (e.acc.kind = .pstf) || s.full (loc / 8)) ∧ (∀ w, w ≠ loc / 8 → s'.full w = s.full w) ∧
      (s'.core c).journal = [(k, { e with spent := true })] ∧ .postedStoreAck c k ∈ s'.pending)) ∧
  (∀ (s : State) (c k : Nat) (e : JEntry), s.Inv → Tab.rising (s.core c).journal = true → Tab.find? (s.core c).journal k = some e →
    (∃ s', exec (.postedStoreAck c k) s = .next s' ∧ Tab.find? (s'.core c).journal k = none ∧
      (∀ j, j ≠ k → Tab.find? (s'.core c).journal j = Tab.find? (s.core c).journal j) ∧ (∀ d, d ≠ c → s'.core d = s.core d) ∧
      (∀ u t, s.thread? u = some t → s'.thread? u = some (if t.wait = .journal ∧ t.core = c then t.wake else t)) ∧
      s' = { s with cores := s'.cores, threads := s'.threads }) ∧
    (∀ t, s.thread? e.uid = some t → t.wait ≠ .journal → ∃ s' t', exec (.postedStoreRefusal c k) s = .next s' ∧ Tab.find? (s'.core c).journal k = none ∧
      s'.thread? e.uid = some t' ∧ t' = { t with async := t.async ++ [(0x16, BitVec.ofNat 64 k)] } ∧
      s' = { s with cores := s'.cores, threads := s'.threads }))

/-- CMD 1 starts a free or stopped context after bring-up and CMD 2 stops a running one; otherwise ERR is set. CMD 3 ends a context: no thread, launch or live handle of it is left, one KIND 8 record is written and every other byte of memory is unchanged. WDOG is clamped and its count returns to 0, ERR is cleared. A 64-byte write to MSGW with a good header pushes one message, a bad one leaves a KIND 12 record and a write of another size a KIND 11 record. A write to a register with a step of its own leads to that step, registers marked stopped are written only then, and a misaligned write does nothing; a read returns the register: IDENT, the fenced Faces, STATE with ERR, the six words of the handle report (all ones for a number that is no handle of the context), and in the counter window the counters of every core and pseudo-channel and the ageing records; while the firmware has not been verified, nothing that reaches a context page does anything. A step that a register write is comes before the host's later ones. A write of DEVID in step 4 of bring-up leaves that step's registers set and the port windows locked (log 73, 127, the model's choice), and step 4 then fails or ends bring-up. TGO drops the translations of the range, squashes the chunks that used one, and reads 0 once nothing translated is in flight. At the watchdog's first expiry threads waiting at HSYNC, IDLE or NMSTAT get trap 0x1A; the second ends the context. The model's choices, no rule's words: ERR for a CMD out of place (log 71), what DEVID begins (log 73, 127), the sequence numbers that begin again at a context's end (log 70), what starting or ending a context that an aborted save stopped does (log 117), and CORE 0, SLOT 31 and SEQ 0 in records that name no thread (log 82). -/
def Obligations.HostRegisters : Prop :=
  (∀ (s : State) (i u off : Nat) (v : Word) (reg : BitVec 6) (words : List Word), s.pageOnly = true →
    ∀ e ∈ ([.contextStart i, .contextStopDispatch i, .contextEnd i, .hostWdogWrite i v, .hostErrClear i, .hostMessagePush i off words, .translationInvalidation i,
      .debugHalt i v, .debugResume i v, .debugDetach i, .debuggerRegisterWrite i u reg v] : List Instr), exec e s = .next s) ∧
  (∀ (s : State) (i : Nat), s.pageOnly = false →
    let p := s.ctxPage i
    (s.device.boot = 0x80#8 → (p.state = 0 ∨ p.state = 2) → ∃ s', exec (.contextStart i) s = .next s' ∧
      s' = ((s.releaseAborted i).modPage i (fun p => { p with state := 1, stopped := false, count := 0, expired := false })).push .threadPlacement ∧
      (p.aborted = false → s'.ctxPage i = { p with state := 1, stopped := false, count := 0, expired := false } ∧ (∀ j, j ≠ i → s'.ctxPage j = s.ctxPage j) ∧
        s' = { s with ctxs := s'.ctxs, pending := s.pending ++ [.threadPlacement] })) ∧
    ((s.device.boot ≠ 0x80#8 ∨ (p.state ≠ 0 ∧ p.state ≠ 2)) → ∃ s', exec (.contextStart i) s = .next s' ∧
      s'.ctxPage i = { p with err := true } ∧ s' = { s with ctxs := s'.ctxs }) ∧
    (p.state = 1 → ∃ s', exec (.contextStopDispatch i) s = .next s' ∧ s'.ctxPage i = { p with state := 2, stopped := true } ∧ s' = { s with ctxs := s'.ctxs }) ∧
    (p.state ≠ 1 → ∃ s', exec (.contextStopDispatch i) s = .next s' ∧ s'.ctxPage i = { p with err := true } ∧ s' = { s with ctxs := s'.ctxs }) ∧
    (p.state = 0 → ∃ s', exec (.contextEnd i) s = .next s' ∧ s'.ctxPage i = { p with err := true } ∧ s' = { s with ctxs := s'.ctxs }) ∧
    (s.Inv → Tab.rising s.ctxs = true → s.page? p.num = some (i, p) → p.aborted = false → (p.fwhead - p.fwtail).toNat ≠ p.fwsize.toNat →
      let at0 := hostLoc (p.fwbase.toNat + 64 * (p.fwhead.toNat % p.fwsize.toNat))
      ∃ s', exec (.contextEnd i) s = .next s' ∧ (s'.ctxPage i).state = 0 ∧ (s'.ctxPage i).nextSeq = 0 ∧ (s'.ctxPage i).fwhead = p.fwhead + 1 ∧
        (∀ u t, s'.thread? u = some t → t.attr.ctx ≠ p.num) ∧ (∀ e ∈ s'.launches, e.2.attr.ctx ≠ p.num) ∧
        (∀ key h, Tab.find? s'.handles key = some h → key / 2 ^ 23 = p.num → h.state = .dead) ∧
        s'.readLoc at0 8 = 8 * 2 ^ 56 + p.num % 65536 * 2 ^ 32 + 31 * 2 ^ 16 ∧ SameBut s.mem s'.mem at0 64)) ∧
  (∀ (s : State) (i off : Nat) (v : Word) (words : List Word), s.pageOnly = false →
    let p := s.ctxPage i
    let hdr := p.msghdr.toNat
    let c := hdr % 2 ^ 14
    let n := hdr / 2 ^ 16 % 16
    exec (.hostWdogWrite i v) s = .next (s.modPage i (fun p => { p with
      wdog := if v.toNat < 1000 then 1000#64 else if 60000000 < v.toNat then 60000000#64 else v, count := 0, expired := false })) ∧
    exec (.hostErrClear i) s = .next (s.modPage i (fun p => { p with err := false })) ∧
    ((off ≠ 0 ∨ words.length ≠ 8) → exec (.hostMessagePush i off words) s = .next (s.record p.num 11 0 0 31 0 0 0 0 0 0)) ∧
    (words.length = 8 → (n = 0 ∨ 8 < n ∨ s.sendRefused p.num c = true ∨ ¬ LegalTarget (words.headD 0#64).toNat) →
      exec (.hostMessagePush i 0 words) s = .next (s.record p.num 12 0x12 c 31 0 0 0 0 hdr 0)) ∧
    (words.length = 8 → hdr = c + n * 2 ^ 16 → 1 ≤ n → n ≤ 8 → s.sendRefused p.num c = false → LegalTarget (words.headD 0#64).toNat →
      exec (.hostMessagePush i 0 words) s = .next (s.push (.messageArrival c
        ⟨p.num, BitVec.ofNat 64 (s.device.devid.toNat * 2 ^ 32 + 3 * 2 ^ 30), words.take n⟩)))) ∧
  (∀ (s : State) (i off : Nat) (v : Word),
    let at0 := 0x10000 + 4096 * i
    (off % 8 ≠ 0 → exec (.hostRegisterWrite off v) s = .next s) ∧
    (s.pageOnly = true → 0x10000 ≤ off → exec (.hostRegisterWrite off v) s = .next s) ∧
    (i < 256 → s.pageOnly = false → ∀ p ∈ ([(at0 + 0xE0, 1, .contextStart i), (at0 + 0xE0, 2, .contextStopDispatch i), (at0 + 0xE0, 3, .contextEnd i), (at0 + 0x88, v, .hostWdogWrite i v),
        (at0 + 0xD0, 1, .translationInvalidation i), (0x20, v, .faceFence (v.setWidth 8)), (0x28, v, .faceReset (v.setWidth 8)), (0x48, 1, .freezeRequest),
        (0x140, 1, .attestationRequest)] : List (Nat × Word × Event)),
      exec (.hostRegisterWrite p.1 p.2.1) s = .next (s.pushFirst p.2.2)) ∧
    exec (.hostRegisterWrite 0x48 4) s = (if s.device.fzctl = 1#64 then .next s
      else .next ({ s with device := { s.device with fzctl := 5#64 } }.pushFirst (.freezeResume []))) ∧
    (s.pushFirst .freezeRequest = { s with pending := .freezeRequest :: s.pending }) ∧
    (i < 256 → s.pageOnly = false → (s.ctxPage i).state = 1 → ∀ o ∈ [0x40, 0x50, 0x90, 0x98], exec (.hostRegisterWrite (at0 + o) v) s = .next (s.modPage i (fun p => { p with err := true }))) ∧
    (i < 256 → s.pageOnly = false → (s.ctxPage i).state = 0 ∨ (s.ctxPage i).state = 2 →
      exec (.hostRegisterWrite (at0 + 0x40) v) s = .next (s.modPage i (fun p => { p with num := v.toNat % 2 ^ 16 })) ∧
      exec (.hostRegisterWrite (at0 + 0x90) v) s = .next (s.modPage i (fun p => { p with fwbase := v })) ∧
      exec (.hostRegisterWrite (at0 + 0x98) v) s = .next (s.modPage i (fun p => { p with fwsize := v }))) ∧
    (i < 256 → s.pageOnly = false → exec (.hostRegisterWrite (at0 + 0x68) v) s = .next (s.modPage i (fun p => { p with hqmax := v })) ∧
      exec (.hostRegisterWrite (at0 + 0xA8) v) s = .next (s.modPage i (fun p => { p with fwtail := v }))) ∧
    exec (.hostRegisterWrite 0x50 v) s = .next { s with device := { s.device with capw := if v.toNat < 1500 then 1500#64 else if 3000 < v.toNat then 3000#64 else v } } ∧
    (s.device.boot = 4#8 → ∃ s', exec (.hostRegisterWrite 0x08 v) s = .next s' ∧ s' = { s with device := s'.device, free := s'.free } ∧
      s'.device = { s.device with devid := v.setWidth 12, windows := s'.device.windows, locked := true } ∧ (s.device.locked = true → s'.device.windows = s.device.windows) ∧
      s'.bringUp.device.boot ∈ [4#8, 0x80#8, 0x84#8] ∧ s'.bringUp = { s' with device := { s'.device with boot := s'.bringUp.device.boot }, free := s'.free + 1 }) ∧
    (s.device.boot ≠ 4#8 → s.device.boot ≠ 0x80#8 → exec (.hostRegisterWrite 0x08 v) s = .next { s with device := { s.device with devid := v.setWidth 12 } }) ∧
    (s.device.boot = 0x80#8 → exec (.hostRegisterWrite 0x08 v) s = .next s)) ∧
  (∀ (s : State) (i k : Nat), i < 256 → s.pageOnly = false → k < 6 →
    let p := s.ctxPage i
    let at0 := 0x10000 + 4096 * i
    s.hostRead 0 = BitVec.ofNat 64 (0x4C524E35 + s.device.stepping.toNat * 2 ^ 32) ∧ s.hostRead 0x20 = s.device.fenced.setWidth 64 ∧
    s.hostRead 0x48 = s.device.fzctl ∧ s.hostRead 0x70 = s.device.trip ∧
    s.hostRead (at0 + 0x48) = BitVec.ofNat 64 (p.state + (if p.err = true then 256 else 0)) ∧
    s.hostRead (at0 + 0xA0) = p.fwhead ∧ s.hostRead (at0 + 0xB0) = p.fwlost ∧ s.hostRead (at0 + 0xD0) = p.tgo ∧
    (p.dbg = true → s.hostRead (at0 + 0x218) = p.vseq ∧ s.hostRead (at0 + 0x220) = 0#64) ∧
    (Tab.find? s.handles (p.num * 2 ^ 23 + p.hrepn.toNat) = none → s.hostRead (at0 + 0x188 + 8 * k) = BitVec.allOnes 64) ∧
    (∀ h, Tab.find? s.handles (p.num * 2 ^ 23 + p.hrepn.toNat) = some h → s.hostRead (at0 + 0x188) = h.hops ∧ s.hostRead (at0 + 0x190) = h.redress ∧
      s.hostRead (at0 + 0x198) = h.slicex ∧ s.hostRead (at0 + 0x1A0) = h.settx ∧ s.hostRead (at0 + 0x1A8) = h.asked.setWidth 64 ∧
      (h.state = .live → s.hostRead (at0 + 0x1B0) = 1#64) ∧ (h.state = .dead → s.hostRead (at0 + 0x1B0) = 0#64)) ∧
    (∀ c n, c < 16384 → n < 16 → s.hostRead (0x200000 + 128 * c + 8 * n) = Store.get (s.core c).perf n) ∧
    (∀ m, m < 768 → s.hostRead (0x400000 + 32 * m) = (s.sett m).mitctl ∧ s.hostRead (0x400018 + 32 * m) = (s.sett m).pabcut) ∧
    (∀ n, n < 9 → s.hostRead (0x406000 + 8 * n) = s.ageing.getD n 0#64) ∧
    (∀ off, 0x406048 ≤ off → off < 0x410000 → s.hostRead off = 0#64)) ∧
  (∀ (s : State) (i : Nat), s.Inv → s.pageOnly = false →
    let p := s.ctxPage i
    (∃ s', exec (.translationInvalidation i) s = .next s' ∧ (s'.ctxPage i).tgo = 1#64 ∧ s'.mem = s.mem ∧
      s'.tcache = s.tcache.filter (fun e => !(decide (e.ctx = p.num) && p.covers e.page)) ∧ .translationInvalidationComplete i ∈ s'.pending ∧
      (∀ u t, s.thread? u = some t → t.attr.ctx = p.num → t.prev = none → t.chunk.pages.any p.covers = true → ∃ t', s'.thread? u = some t' ∧
        t'.pc = t.chunk.startPc ∧ t'.preds = t.chunk.shadow.preds ∧ t'.chunk.idle = true ∧ t'.wait = .running)) ∧
    (s.pending.any p.inFlight = false → s.cores.any (fun c => c.2.cmds.any (fun k => decide (k.ctx = p.num) && k.result.isSome)) = false →
      s.setts.any (fun n => n.2.rows.any (fun r => decide (r.ctx = p.num)) || n.2.queue.any (fun c => decide (c.ctx = p.num) && !c.loadOnly && p.covers (c.statusVa / 2 ^ 16))) = false →
      exec (.translationInvalidationComplete i) s = .next (s.modPage i (fun p => { p with tgo := 0#64 }))) ∧
    (s.pending.any p.inFlight = true → exec (.translationInvalidationComplete i) s = .next (s.push (.translationInvalidationComplete i)))) ∧
  (∀ (s : State) (ctx i : Nat) (p : CtxPage), s.Inv → s.pageOnly = false → s.page? ctx = some (i, p) → s.ctxPage i = p →
    (p.count < p.wdog.toNat ∨ s.dogStill ctx = true → exec (.watchdogExpiry ctx) s = .next s) ∧
    (p.wdog.toNat ≤ p.count → s.dogStill ctx = false → p.saving = none →
      (p.expired = true → p.aborted = false → exec (.watchdogExpiry ctx) s = exec (.contextEnd i) s) ∧
      (p.expired = false → ∃ s', exec (.watchdogExpiry ctx) s = .next s' ∧ (s'.ctxPage i).count = 0 ∧ (s'.ctxPage i).expired = true ∧
        ∀ u t c k, s.thread? u = some t → t.attr.ctx = ctx → t.place = .slot c k → (t.wait = .hsync ∨ t.wait = .idle false ∨ ∃ l, t.wait = .nmstat l) →
          ∃ t', s'.thread? u = some t' ∧ t'.wait = .running ∧ t'.pc = t.pc ∧ t'.async = (0x1A, p.wdog) :: t.async)))

/-- With debugging off HALT, RESUME and register writes set ERR. HALT makes a running thread halt at its next turn and halts one that waits for a reply where it stands; the view holds what R287 lists, writes 4 KiB at VIEWBASE (their layout is left open, log 74) and counts VSEQ; RESUME and detaching let threads go on; a debugger writes a register or the pc of a halted thread only, and the end of a wait then leaves that pc. A freeze with enough room marks every thread in a slot for pre-emption and reads 1, one without room reads 3; a Face that has not stopped in time is fenced; a device that has not stopped asks its threads again; a stopped device writes its lines back, writes FZNEED bytes to the grant, is imaged and reads 2, its running contexts frozen. Resumption, once bring-up has ended, gives back the threads, handles, local memory and HBM of the image and keeps host memory. An attestation writes nonce, IDENT, DEVID and measurements to host memory and nothing else. The model's choices, no rule's words: register 32 as the pc (log 75), the halt of a waiting thread where it stands (log 76), the layout of the report (log 77), and what the grant's bytes are, the image that stands in the state, and a resumption in one step, before which FZCTL reads 5 (log 83). -/
def Obligations.DebugAndFreeze : Prop :=
  (∀ (s : State) (i u : Nat) (v : Word) (reg : BitVec 6) (t : Thread),
    s.pageOnly = false →
    let p := s.ctxPage i
    (p.dbg = false → ∀ e ∈ ([.debugHalt i v, .debugResume i v] : List Instr), exec e s = .next (s.modPage i (fun p => { p with err := true }))) ∧
    (p.dbg = true → s.named p.num v = [u] → s.thread? u = some t →
      (t.halted = false → t.wait = .running → exec (.debugHalt i v) s = .next { s with threads := Tab.insert s.threads u { t with haltReq := true } }) ∧
      (t.halted = false → t.wait = .reply → (∃ c k, t.place = .slot c k) → ∃ s', exec (.debugHalt i v) s = .next s' ∧
        s'.threads = Tab.insert s.threads u { t with halted := true, haltReq := false } ∧ s'.mem = s.mem ∧
        ∀ j, s.debugger t.attr.ctx = some j → s'.pending = s.pending ++ [.debugView j u] ∧ s'.timers = s.timers ++ [(s.cycle + 30000, .debugView j u)]) ∧
      exec (.debugResume i v) s = .next { s with threads := Tab.insert s.threads u { t with halted := false, haltReq := false } }) ∧
    (p.dbg = true → s.Inv → s.thread? u = some t → t.halted = true → s.cores.any (fun c => c.2.cmds.any (fun k => decide (k.uid = u))) = false →
      ∃ s', exec (.debugView i u) s = .next s' ∧ (s'.ctxPage i).vseq = p.vseq + 1 ∧ s'.view = some (s.viewOf i u t) ∧ SameBut s.mem s'.mem (hostLoc p.viewbase.toNat) 4096 ∧
        .debugView i u ∉ s'.timers.map (·.2)) ∧
    (s.Inv → Tab.rising s.ctxs = true → ∃ s', exec (.debugDetach i) s = .next s' ∧ (s'.ctxPage i).dbg = false ∧
      (∀ w, s'.thread? w = (s.thread? w).map (fun t => if t.attr.ctx = p.num then { t with halted := false, haltReq := false } else t)) ∧
      s' = { s with threads := s'.threads, ctxs := s'.ctxs }) ∧
    (s.thread? u = some t →
      (p.dbg = false → exec (.debuggerRegisterWrite i u reg v) s = .next (s.modPage i (fun p => { p with err := true }))) ∧
      (p.dbg = true → (t.halted = false ∨ t.attr.ctx ≠ p.num) → exec (.debuggerRegisterWrite i u reg v) s = .next s) ∧
      (p.dbg = true → t.halted = true → t.attr.ctx = p.num →
        (reg.toNat < t.attr.count → reg.toNat < 28 → exec (.debuggerRegisterWrite i u reg v) s =
          .next { s with threads := Tab.insert s.threads u (t.putReg reg.toNat { t.reg reg.toNat with val := v, full := true, armed := false }) }) ∧
        (reg = 32#6 → exec (.debuggerRegisterWrite i u reg v) s =
          .next { s with threads := Tab.insert s.threads u { t with pc := v.toNat % 2 ^ 48 / 4 * 4, ilen := 0 } })))) ∧
  (∀ (s : State) (face : Nat),
    (s.freezeNeed % 65536 = 0 ∧ s.hostRead 0x40 = BitVec.ofNat 64 s.freezeNeed) ∧
    (s.freezing = true → exec .freezeRequest s = .next s) ∧
    (s.freezing = false → s.device.fzlen.toNat < s.freezeNeed → exec .freezeRequest s = .next { s with device := { s.device with fzctl := 3#64 } }) ∧
    (s.Inv → s.freezing = false → s.freezeNeed ≤ s.device.fzlen.toNat → ∃ s', exec .freezeRequest s = .next s' ∧ s'.mem = s.mem ∧
      s'.device = { s.device with fzctl := 1#64 } ∧ .freezeComplete ∈ s'.pending ∧ ∀ u t c k, s.thread? u = some t → t.place = .slot c k →
        s'.thread? u = some { t with preempt := true } ∧ .threadPreemption u ∈ s'.pending) ∧
    (s.device.fzctl ≠ 1#64 → exec (.freezeFaceTimeout face) s = .next s) ∧
    (s.device.fzctl = 1#64 → face < 8 →
      ((∀ e ∈ s.cores, faceOf e.1 = face → s.coreStopped e.1 e.2 = true) → exec (.freezeFaceTimeout face) s = .next s) ∧
      ((∃ e ∈ s.cores, faceOf e.1 = face ∧ s.coreStopped e.1 e.2 = false) → exec (.freezeFaceTimeout face) s = exec (.faceFence (BitVec.ofNat 8 (2 ^ face))) s)) ∧
    (s.device.fzctl ≠ 1#64 → exec .freezeComplete s = .next s) ∧
    (s.device.fzctl = 1#64 → ((∃ e ∈ s.cores, s.coreStopped e.1 e.2 = false) ∨ (∃ e ∈ s.threads, e.2.place = .transit) ∨
        (∃ e ∈ s.handles, ∃ o, e.2.order.head? = some o ∧ o.redress = false)) → exec .freezeComplete s = .next (s.askAgain.push .freezeComplete)) ∧
    (s.device.fzctl = 1#64 → (∀ e ∈ s.cores, s.coreStopped e.1 e.2 = true ∧ e.2.vq = [] ∧ e.2.mq = [] ∧ e.2.cq = []) → (∀ e ∈ s.handles, e.2.order = []) →
      (∀ e ∈ s.threads, e.2.place ≠ .transit) → (∀ c, .tileDelivery c ∉ s.pending) →
      let w := ((s.cached.map (·.1)).foldl State.writeBackLine s).sealImages
      exec .freezeComplete s = .next { w with
        frozen := some w.toDev
        ctxs := w.ctxs.map (fun e => (e.1, if e.2.state = 1 then { e.2 with state := 3 } else e.2))
        device := { w.device with fzctl := 2#64, still := true } })) ∧
  (∀ (s : State) (d : Dev), s.frozen = some d → s.device.boot ≠ 0x80#8 → exec (.freezeResume []) s = .next (if s.device.fzctl = 5#64 then
    { s with device := { s.device with fzctl := if s.device.still = true then 2#64 else 0#64 } } else s)) ∧
  (∀ (s : State) (d : Dev), s.Inv → s.frozen = some d → s.device.boot = 0x80#8 → (s.device.still = true ∨ s.bedLost = true ∨ ∀ e ∈ s.ctxs, e.2.aborted = false) →
    (∀ k ∈ s.lostStacks, k ∈ d.lostStacks) → ∃ s', exec (.freezeResume []) s = .next s' ∧ s'.threads = d.threads ∧ s'.handles = d.handles ∧
    s'.empty = d.empty ∧ s'.device.fzctl = 0#64 ∧ s'.device.still = false ∧ s'.cycle = s.cycle ∧ s'.frozen = s.frozen ∧ .threadPlacement ∈ s'.pending ∧
    (∀ a, a < 2 ^ 56 ∨ 2 ^ 58 ≤ a → Store.get s'.mem a = Store.get d.mem a) ∧
    (∀ a, 2 ^ 56 ≤ a → a < 2 ^ 58 → Store.get s'.mem a = Store.get s.mem a)) ∧
  (∀ (s : State), s.Inv → ∃ s', exec .attestationRequest s = .next s' ∧ SameBut s.mem s'.mem (hostLoc s.device.attaddr.toNat) 7811 ∧
    (∀ k, k < 8 → s'.readLoc (hostLoc (s.device.attaddr.toNat + 8 * k)) 8 = (s.device.nonce.getD k 0#64).toNat) ∧
    s'.readLoc (hostLoc (s.device.attaddr.toNat + 64)) 8 = 0x4C524E35 + s.device.stepping.toNat * 2 ^ 32 ∧
    s'.readLoc (hostLoc (s.device.attaddr.toNat + 72)) 8 = s.device.devid.toNat ∧
    (∀ k, k < 64 → s'.readLoc (hostLoc (s.device.attaddr.toNat + 80 + 8 * k)) 8 = (s.device.measure.getD k 0#64).toNat))

/-- Fencing Faces adds them to FENCED, ends every thread of their cores, and their local memory reads 0; without such threads every other byte is unchanged, and Faces fenced already stay as they are. A failed Face is fenced alike, and a reset gives fenced Faces back. A lost stack's lines are poisoned, a handle whose every copy lies on lost stacks whole is poisoned whole, one whose copies have each lost some lines is poisoned in lines that free values pick (log 126, the model's choice: the spec lays no copy out over the stacks), and one with a copy left whole is re-dressed. A lost link changes nothing committed, and a device whose links are lost for the limit is lost. A lost port loses only host steps that are under way (which, and under what KIND they are reported, is the model's choice, log 78). Without its Bed the device stops with a fault until it is resumed or reset. A trip records its cause, which a module reset keeps, as it keeps ageing records, cores' capacities and host memory, while all of the device's own memory reads 0; bring-up stops at step 4 or fails. -/
def Obligations.Failures : Prop :=
  (∀ (s : State) (mask : BitVec 8) (face : Nat),
    let m := mask &&& ~~~s.device.fenced
    (m = 0#8 → exec (.faceFence mask) s = .next s) ∧
    (m ≠ 0#8 → s.Inv → ∃ s', exec (.faceFence mask) s = .next s' ∧ s'.device.fenced = s.device.fenced ||| mask ∧ .threadPlacement ∈ s'.pending ∧
      (∀ c o, c < 16384 → m.getLsbD (faceOf c) = true → o < 2 ^ 16 → Store.get s'.mem (localLoc c o) = 0#8) ∧
      (∀ u t c k, s'.thread? u = some t → t.place = .slot c k → m.getLsbD (faceOf c) = false) ∧
      ((∀ e ∈ s.threads, s.threadOn m e.1 e.2 = false) → ∀ a, localOn m a = false → Store.get s'.mem a = Store.get s.mem a)) ∧
    (face < 8 → exec (.faceFailure face) s = exec (.faceFence (BitVec.ofNat 8 (2 ^ face))) s) ∧
    (8 ≤ face → exec (.faceFailure face) s = .next s) ∧
    exec (.faceReset mask) s = .next { s with
      device := { s.device with fenced := s.device.fenced &&& ~~~mask }, pending := s.pending ++ [.threadPlacement] }) ∧
  (∀ (s : State) (k : Nat), k < 12 → s.lostStacks.contains k = false → Tab.rising s.handles = true → ∃ s', exec (.stackLoss k) s = .next s' ∧
    s'.mem = s.mem ∧ s'.lostStacks = s.lostStacks ++ [k] ∧ (∀ a, isHbm a = true → settOf a / 64 = k → s'.poisoned a = true) ∧
    (∀ a, isHbm a = true → settOf a / 64 ≠ k → s'.poisoned a = s.poisoned a) ∧
    (∀ l, Store.get s'.poison l ≠ Store.get s.poison l → ∃ key h, Tab.find? s.handles key = some h ∧ h.state ≠ .dead ∧ l ∈ h.lines key ∧
      ∀ c ∈ h.dress.copies, ∃ j ∈ c, j = k ∨ j ∈ s.lostStacks) ∧
    (∀ key h, Tab.find? s.handles key = some h → h.state ≠ .dead → (∃ c ∈ h.dress.copies, k ∈ c) →
      ((∀ c ∈ h.dress.copies, c ≠ [] ∧ ∀ j ∈ c, j = k ∨ j ∈ s.lostStacks) → Tab.find? s'.handles key = some { h with bad := true }) ∧
      ((∃ c ∈ h.dress.copies, ∃ j ∈ c, j ≠ k ∧ j ∉ s.lostStacks) → (∀ c ∈ h.dress.copies, ∃ j ∈ c, j = k ∨ j ∈ s.lostStacks) →
        Tab.find? s'.handles key = some h) ∧
      (h.state = .live → (∃ c ∈ h.dress.copies, ∀ j ∈ c, j ≠ k ∧ j ∉ s.lostStacks) → ∃ e, e.redress = true ∧
        Tab.find? s'.handles key = some { h with order := h.order ++ [e] })) ∧
    (∀ key h, Tab.find? s.handles key = some h → (h.state = .dead ∨ ∀ c ∈ h.dress.copies, k ∉ c) → Tab.find? s'.handles key = some h)) ∧
  (∀ (s : State) (link dev port ctx va : Nat) (e : TEntry) (p : Perm),
    exec (.helvenLinkLoss link) s = .next { s with lostLinks := if s.lostLinks.contains link then s.lostLinks else s.lostLinks ++ [link] } ∧
    (s.lookup ctx va = some e → e.allows p = true → remoteDev (s.placeIn e va) = some dev → ∃ s', exec (.linkLossTimeout dev) s = .next s' ∧
      s' = { s with lostDevs := s'.lostDevs } ∧ s'.globalSpot ctx va p = .bad 0x07) ∧
    (∃ s', exec (.hostPortLoss port) s = .next s' ∧ port ∈ s'.lostPorts ∧ s'.cores = s.cores ∧ s'.handles = s.handles ∧
      (∀ e ∈ s.pending, hostStep e = none → e ∈ s'.pending) ∧ (∀ a, a < 2 ^ 56 → s.Inv → Store.get s'.mem a = Store.get s.mem a)) ∧
    exec .bedLoss s = .next { s with bedLost := true } ∧
    (s.pending.find? Event.withoutBed = none → step { s with bedLost := true } = .fault .deviceStopped)) ∧
  (∀ (s : State) (cause : BitVec 4) (face : BitVec 3), Tab.rising s.cores = true →
    let blank (s' : State) : Prop := s'.threads = [] ∧ s'.handles = [] ∧ s'.launches = [] ∧ s'.ctxs = [] ∧ s'.tcache = [] ∧ s'.empty = [] ∧ s'.setts = [] ∧
      s'.device.fenced = 0#8 ∧ s'.device.fzctl = 0#64 ∧ s'.device.still = false ∧ s'.cached = [] ∧ s'.frozen = s.frozen ∧ s'.ageing = s.ageing ∧ (∀ c, (s'.core c).cap = (s.core c).cap) ∧
      (∀ a, Store.get s'.mem a = if 2 ^ 56 ≤ a ∧ a < 2 ^ 58 then Store.get s.mem a else 0#8)
    (∃ s', exec (.thermalTrip cause face) s = .next s' ∧ blank s' ∧ s'.pending = [.moduleReset] ∧
      s'.device.trip = BitVec.ofNat 64 (cause.toNat + face.toNat * 2 ^ 8)) ∧
    (∃ s', exec .moduleReset s = .next s' ∧ blank s' ∧ s'.pending = [] ∧ s'.device.trip = s.device.trip ∧
      s'.device.boot ∈ [4#8, 0x81#8, 0x82#8, 0x83#8]))

/-- Each limiting interval counts THROT; a lowered bank limit counts PABCUT of the stack's pseudo-channels; ageing records are replaced but those of fenced Faces; a corrected error counts ECCC, an uncorrectable one ECCU and poisons its line, wherever it is (but a handle's, which another copy may serve), one that no check has found yet stands in its HBM line until an ordinary access fills the line from there, which counts and poisons it (log 129), or, in what is held of a thread, ends the thread with a KIND 5 record of CODE 0x09; an alert counts its source and clears its row, and a window's end clears all rows of its stack. A host write through CXL.mem waits for lines that are owned, to be read or reserved; to others it leaves its bytes and nothing else, and a read returns the bytes, or poison. An access of another device is served only under a paired context. In the cycle of a core that is neither fenced nor held in reset CYC advances, and the first ready slot after the last turn's gets the turn, not to be ready again for 8 cycles, or NOREADY advances; what fills the core's slots comes next; after the last core's cycle the device's cycle advances. A thread of another device's access that is an RFILL or a message reaches a core as one of this device does (log 22 and 84, the model's reading). -/
def Obligations.MonitorsAndCycles : Prop :=
  (∀ (s : State) (stack limit old line n row : Nat) (ws : List Word),
    exec (.throttleInterval true) s = .next { s with device := { s.device with throt := s.device.throt + 1 } } ∧
    exec (.throttleInterval false) s = .next s ∧
    (Tab.find? s.bankLimit stack = some old → limit < old → Tab.rising s.setts = true → ∃ s', exec (.activeBankLimitChange stack limit) s = .next s' ∧
      Tab.find? s'.bankLimit stack = some limit ∧ (∀ k, k < 64 → (s'.sett (64 * stack + k)).pabcut = (s.sett (64 * stack + k)).pabcut + 1) ∧
      s'.mem = s.mem) ∧
    (Tab.find? s.bankLimit stack = some old → old ≤ limit → exec (.activeBankLimitChange stack limit) s =
      .next { s with bankLimit := Tab.insert s.bankLimit stack limit }) ∧
    (∃ s', exec (.ageingUpdate ws) s = .next s' ∧ s' = { s with ageing := s'.ageing } ∧ s'.ageing.length = 9 ∧
      ∀ k, k < 9 → s'.ageing.getD k 0#64 = if k < 8 ∧ s.device.fenced.getLsbD k = true then s.ageing.getD k 0#64
        else if (ws.getD k 0#64).toNat / 2 ^ 48 = 0 then 0xFFFFFFFF#64 else ws.getD k 0#64 &&& 0xFFFF0000FFFFFFFF#64) ∧
    exec (.scrubRead line .clean) s = .next s ∧
    exec (.scrubRead line .corrected) s = .next { s with device := { s.device with eccc := s.device.eccc + 1 } } ∧
    (handleAt (64 * line) = none → ∃ s', exec (.scrubRead line .uncorrectable) s = .next s' ∧ s'.device.eccu = s.device.eccu + 1 ∧
      (∀ o, o < 64 → s'.poisoned (64 * line + o) = true) ∧ (∀ a, a / 64 ≠ line → s'.poisoned a = s.poisoned a) ∧ s'.mem = s.mem) ∧
    exec (.scrubRead line .latent) s = .next (if isHbm (64 * line) = true then { s with latent := Store.put s.latent line 1#1 } else s) ∧
    (Store.get s.latent line = 1#1 → s.holdsLine line = false → s.staleLine line = false → (s.touchLine line).mem = s.mem ∧
      (s.touchLine line).holdsLine line = true ∧ Store.get (s.touchLine line).latent line = 0#1 ∧ (s.touchLine line).device.eccu = s.device.eccu + 1 ∧
      (∀ o, o < 64 → (s.touchLine line).poisoned (64 * line + o) = true)) ∧
    (∀ u, s.thread? u = none → exec (.scrubRead line (.thread u)) s = .next { s with device := { s.device with eccu := s.device.eccu + 1 } }) ∧
    (∀ u t i p, s.Inv → s.thread? u = some t → s.page? t.attr.ctx = some (i, p) → (p.fwhead - p.fwtail).toNat ≠ p.fwsize.toNat →
      ∃ s', exec (.scrubRead line (.thread u)) s = .next s' ∧ s'.thread? u = none ∧ s'.device.eccu = s.device.eccu + 1 ∧
        s'.readLoc (hostLoc (p.fwbase.toNat + 64 * (p.fwhead.toNat % p.fwsize.toNat))) 8 / 2 ^ 48 = 0x0509) ∧
    (Tab.rising s.setts = true → Tab.rising (s.sett n).acts = true →
      ∀ p ∈ ([(.controller, 1, 0, 0), (.settCore, 0, 1, 0), (.sequencer, 0, 0, 1)] : List (ActSource × Word × Word × Word)), ∃ s',
        exec (.rowDisturbanceAlert n row p.1) s = .next s' ∧ (s'.sett n).mitctl = (s.sett n).mitctl + p.2.1 ∧
        (s'.sett n).mitsett = (s.sett n).mitsett + p.2.2.1 ∧ (s'.sett n).mitseq = (s.sett n).mitseq + p.2.2.2 ∧
        Tab.find? (s'.sett n).acts row = none ∧ s' = { s with setts := s'.setts }) ∧
    (Tab.rising s.setts = true → ∃ s', exec (.refreshWindowEnd stack) s = .next s' ∧ (∀ k, k < 64 → (s'.sett (64 * stack + k)).acts = []) ∧
      (∀ j, j / 64 ≠ stack → s'.sett j = s.sett j) ∧ s' = { s with setts := s'.setts })) ∧
  (∀ (s : State) (off loc : Nat) (b : Byte), s.Inv → cxlPlace off = some loc → s.staleLine (loc / 64) = false → s.pageOnly = false →
    (s.busyLine (loc / 64) = false → ∃ s', exec (.hostCxlWrite off [b]) s = .next s' ∧
      Store.get s'.mem loc = b ∧ SameBut s.mem s'.mem loc 1 ∧ s'.empty = s.empty ∧ s'.cores = s.cores) ∧
    (s.owned (loc / 64) = true ∨ s.unread (loc / 64) = true ∨ (∃ r ∈ s.reserved, r.1 = loc / 64) →
      exec (.hostCxlWrite off [b]) s = .next (s.pushFirst (.hostCxlWrite off [b]))) ∧
    (let q := s.touchPlaces [loc];
      exec (.hostCxlRead off 1) s = .next { q with cxlData := if q.poisoned loc then none else some [Store.get q.mem loc] } ∧ q.mem = s.mem)) ∧
  (∀ (s : State) (off n : Nat) (bs : List Byte), s.pageOnly = true →
    exec (.hostCxlWrite off bs) s = .next s ∧ exec (.hostCxlRead off n) s = .next s) ∧
  (∀ (s : State) (dev rctx ctx : Nat) (a : Access),
    (s.freezing = true → exec (.remoteDeviceAccess dev rctx a) s = .next (s.push (.remoteDeviceAccess dev rctx a))) ∧
    (s.freezing = false → s.pairedWith dev rctx = none → exec (.remoteDeviceAccess dev rctx a) s = .next s) ∧
    (s.freezing = false → s.pairedWith dev rctx = some ctx → a.kind = .rfill →
      exec (.remoteDeviceAccess dev rctx a) s = .next (s.remoteFill ctx (BitVec.ofNat 64 a.va) a.data).2) ∧
    (∀ ws, s.freezing = false → s.pairedWith dev rctx = some ctx → a.kind = .message ws →
      let x : Word := BitVec.ofNat 64 a.va
      let refused := badSend x ⟨ctx, a.data, ws⟩ || s.sendRefused ctx (targetCore x)
      (refused = true → exec (.remoteDeviceAccess dev rctx a) s = .next s) ∧
      (refused = false → 1 ≤ ws.length → ws.length ≤ 8 →
        exec (.remoteDeviceAccess dev rctx a) s = .next (s.push (.messageArrival (targetCore x) ⟨ctx, a.data, ws⟩)))) ∧
    (s.freezing = false → s.pairedWith dev rctx = some ctx → a.kind ≠ .rfill → (∀ ws, a.kind ≠ .message ws) → a.va.testBit 63 = false → a.loc < 0x9000000000 →
      let loc := interleaved a.loc
      let held := s.busyLine (loc / 64)
      (held = true → exec (.remoteDeviceAccess dev rctx a) s = .next (s.push (.remoteDeviceAccess dev rctx a))) ∧
      (held = false → a.kind = .load → exec (.remoteDeviceAccess dev rctx a) s = .next (s.touchPlaces [loc])) ∧
      (held = false → a.kind = .pst → a.size = 8 → a.loc % 8 = 0 → s.Inv → s.openLine (loc / 64) = false → s.poisoned loc = false →
        ∃ s', exec (.remoteDeviceAccess dev rctx a) s = .next s' ∧ s'.readLoc loc 8 = a.data.toNat ∧ SameBut s.mem s'.mem loc 8 ∧ s'.empty = s.empty))) ∧
  (∀ (s : State) (c : Nat), s.Inv → c < 16384 → s.coreFenced c = false → s.inReset = false → s.device.still = false → Tab.wf 0#64 (s.core c).perf = true →
    ((∀ k, k < 17 → s.readySlot c k = none) → ∃ s', exec (.coreCycle c) s = .next s' ∧
      Store.get (s'.core c).perf 0 = Store.get (s.core c).perf 0 + 1 ∧ Store.get (s'.core c).perf 3 = Store.get (s.core c).perf 3 + 1 ∧
      (∀ d, d ≠ c → s'.core d = s.core d) ∧ s' = { s with cores := s'.cores, scan := c + 1, ending := some c }) ∧
    (∀ i u, i < 17 → (∀ j, j < i → s.readySlot c (((s.core c).last + 1 + j) % 17) = none) →
      s.readySlot c (((s.core c).last + 1 + i) % 17) = some u → ∃ s', exec (.coreCycle c) s = .next s' ∧
        (s'.core c).last = ((s.core c).last + 1 + i) % 17 ∧ Tab.find? (s'.core c).turnAt (((s.core c).last + 1 + i) % 17) = some (s.cycle + 8) ∧
        Store.get (s'.core c).perf 0 = Store.get (s.core c).perf 0 + 1 ∧ Store.get (s'.core c).perf 1 = Store.get (s.core c).perf 1 + 1 ∧
        (∀ d, d ≠ c → s'.core d = s.core d) ∧ s' = { s with cores := s'.cores, turns := s.turns ++ [u], scan := c + 1, ending := some c })) ∧
  (∀ (s : State) (c : Nat), 16384 ≤ c → ∃ s', exec (.coreCycle c) s = .next s' ∧ s'.cycle = s.cycle + 1 ∧ s'.scan = 0 ∧ s'.frozen = s.frozen)

/-- When a turn has been given to a thread in the rotation with no trap arrived, no halt asked and no pre-emption, and the words at its pc (in executable, unpoisoned places on a general core; inside the overlay on a sett core) are those of a well-formed instruction, step is exec of that instruction at the state in which the turn is taken, the thread is the one whose turn it is, its first word is noted, the lines read are touched (R334), and the translations used are remembered; exec itself moves past the instruction. While an engine of its core is at work, an instruction that accesses its own local memory may instead lose its bank and so its turn, which counts a forfeit (when, is free: log 27, the model's choice). Without turns, what fills a slot, then the handler slot, of the core whose cycle ends comes first (R359); then, between two cycles of the cores, the first due step, else some pending step, or the next core's cycle; within a cycle the next core's. That one step follows another in this order, and which pending step is taken, is the model's choice (log 1), as is the fetch of committed bytes (log 12). -/
def Obligations.StepRunsDecodedInstruction : Prop :=
  ∀ (s : State) (u : Nat) (rest : List Nat) (t : Thread) (i : Instr) (es : List (TEntry × Nat)), s.bedLost = false →
    (s.turns = u :: rest → s.thread? u = some t → s.canIssue u = true → t.haltReq = false → t.preempt = false → t.async = [] → i.wf = true →
      let ws := encode i
      (t.settOn = none → es.length = ws.length →
        (∀ k e loc, es[k]? = some (e, loc) →
          let r := (es.take k).foldl (fun s p => (s.reachLine t p.2).useEntry p.1 false) s
          t.pc + 4 * k < 14 * 2 ^ 44 ∧ r.globalSpot t.attr.ctx (t.pc + 4 * k) .ex = .global e loc ∧
          (r.reachLine t loc).poisoned loc = false ∧ Store.read (r.reachLine t loc).mem loc 4 = (ws.getD k 0#32).toNat) →
        let r : State := { es.foldl (fun s p => (s.reachLine t p.2).useEntry p.1 false) { s with turns := rest, cur := u } with iword := ws.getD 0 0#32 }
        (((r.core t.core).atWork = false ∨ r.usesBank t i = false) → step s = exec i r) ∧
        (step s = exec i r ∨ step s = exec i { r with free := r.free + 1 } ∨
          ((r.core t.core).atWork = true ∧ r.usesBank t i = true ∧ step s = .next ({ r with free := r.free + 1 }.count t.core 2 1)))) ∧
      (∀ n b, t.settOn = some n → s.overlayFor n t = some b → b ≤ t.pc → t.pc + 4 * ws.length ≤ b + 4096 →
        (∀ k, k < ws.length → Store.read (s.sett n).code (t.pc - b + 4 * k) 4 = (ws.getD k 0#32).toNat) →
        step s = exec i { s with turns := rest, cur := u, iword := ws.getD 0 0#32 })) ∧
    (s.turns = [] → s.inReset = false → s.device.still = false →
      (∀ c, s.ending = some c →
        (.slotFill c ∈ s.pending → step s = exec (.slotFill c) { s with pending := s.pending.erase (.slotFill c) }) ∧
        (∀ e, .slotFill c ∉ s.pending → s.pending.find? (fun e => decide (e.closes = some c)) = some e →
          step s = exec e.instr { s with pending := s.pending.erase e }) ∧
        ((∀ e ∈ s.pending, e.closes ≠ some c) → .slotFill c ∉ s.pending → step s = step { s with ending := none })) ∧
      (s.ending = none →
        (s.scan ≠ 0 → step s = exec (.coreCycle s.scan) s) ∧
        (s.scan = 0 →
          (∀ x, s.timers.find? (fun x => decide (x.1 ≤ s.cycle)) = some x → step s = exec x.2.instr { s with timers := s.timers.erase x }) ∧
          ((∀ x ∈ s.timers, s.cycle < x.1) → ((∀ e ∈ s.pending, e.closes ≠ none) → step s = exec (.coreCycle 0) s) ∧
          (step s = exec (.coreCycle 0) s ∨ step s = exec (.coreCycle 0) { s with free := s.free + 1 } ∨
            ∃ e ∈ s.pending, step s = exec e.instr { s with free := s.free + 1, pending := s.pending.erase e })))))

/-- Twelve words, written field by field from the formats and the opcode map, decode to the instructions they stand for, a literal word included, and three words with a reserved field, a reserved guard or an unassigned opcode are refused. -/
def Obligations.WordsDecode : Prop :=
  decode (0x01#7 ++ 3#5 ++ 4#5 ++ 5#5 ++ 0#5 ++ 0#5) 0 0 = some (.add 3#5 4#5 (.reg 5#5) 0#5) ∧
  decode (0x01#7 ++ 3#5 ++ 4#5 ++ 31#5 ++ 1#5 ++ 6#5) 0xFFFFFFFF#32 0 = some (.sub 3#5 4#5 (.lit32 0xFFFFFFFF#32) 6#5) ∧
  decode (0x03#7 ++ 3#5 ++ 4#5 ++ 0x3FF#10 ++ 0#5) 0 0 = some (.addImm 3#5 4#5 0x3FF#10 0#5) ∧
  decode (0x3F#7 ++ 7#5 ++ 8#5 ++ 2#10 ++ 0#5) 0 0 = some (.ldD 7#5 8#5 2#10 0#5) ∧
  decode (0x43#7 ++ 7#5 ++ 8#5 ++ 0x3FE#10 ++ 0#5) 0 0 = some (.stD 7#5 8#5 0x3FE#10 0#5) ∧
  decode (0x4D#7 ++ 7#5 ++ 8#5 ++ 0#10 ++ 0#5) 0 0 = some (.lde 7#5 8#5 0#10 0#5) ∧
  decode (0x18#7 ++ 2#5 ++ 0xC1#8 ++ 0#7 ++ 0#5) 0 0 = some (.const 2#5 0xC1#8 0#5) ∧
  decode (0x5C#7 ++ 1#5 ++ 2#5 ++ 0#5 ++ 3#5 ++ 0#5) 0 0 = some (.send 1#5 2#5 3#5 0#5) ∧
  decode (0x62#7 ++ 3#6 ++ 3#4 ++ 1#4 ++ 2#4 ++ 0#2 ++ 0#5) 0 0 = some (.vfma 3#4 1#4 2#4 0#2 0#5) ∧
  decode (0x60#7 ++ 0x03#8 ++ 6#5 ++ 7#5 ++ 0#2 ++ 0#5) 0 0 = some (.mma 1#1 6#5 7#5 0#5) ∧
  decode (0x64#7 ++ 0x00#8 ++ 9#5 ++ 10#5 ++ 0#2 ++ 0#5) 0 0 = some (.ccopy 9#5 10#5 0#5) ∧
  decode (0x66#7 ++ 0x03#8 ++ 3#5 ++ 8#5 ++ 0#2 ++ 0#5) 0 0 = some (.nmstat 3#5 8#5 0#5) ∧
  decode (0x01#7 ++ 3#5 ++ 4#5 ++ 5#5 ++ 0#5 ++ 1#5) 0 0 = none ∧
  decode (0x18#7 ++ 2#5 ++ 0xC1#8 ++ 1#7 ++ 0#5) 0 0 = none ∧
  decode (0x7F#7 ++ 0#25) 0 0 = none

/-- The words of every well-formed instruction, whatever words follow them, decode to it, with every operand at every value the encoding admits; and every word that decodes gives a well-formed instruction whose words are that word and the literal words read after it, so that each word has one meaning. -/
def Obligations.WordsAndInstructions : Prop :=
  (∀ i : Instr, i.wf = true → 1 ≤ (encode i).length ∧ (encode i).length ≤ 3 ∧
    ∀ l1 l2 : Half, decode ((encode i).getD 0 0#32) ((encode i).getD 1 l1) ((encode i).getD 2 l2) = some i) ∧
  (∀ (w l1 l2 : Half) (i : Instr), decode w l1 l2 = some i → i.wf = true ∧ encode i = [w, l1, l2].take (encode i).length)

/-- From every state whose memory, full/empty bits, threads and cores, and those of the freeze image, are in canonical form, a step that goes on leads to such a state. -/
def Obligations.StepKeepsInvariant : Prop :=
  ∀ s s' : State, s.Inv → step s = .next s' → s'.Inv

/-- The state after reset meets the invariant; no thread, handle, launch or context is there, every core has 512 registers, no tag, slot 16 as its last turn and its engines' registers at their reset values, every context page is free with WDOG 2,000,000, and the device page reads CAPW 3,000, no Face fenced and no freeze. The model's choices, no rule's words: slot 16 as the last turn (log 5), 512 registers in every core (log 119), and the values of CAPW, WDOG and the nonce, for which the spec gives none (log 9). -/
def Obligations.ResetState : Prop :=
  State.reset.Inv ∧ State.reset.threads = [] ∧ State.reset.handles = [] ∧ State.reset.launches = [] ∧ State.reset.groups = [] ∧
  (∀ c, let q := State.reset.core c
    q.cap = 512 ∧ q.tag = none ∧ q.etag = none ∧ q.last = 16 ∧ q.in0 = [] ∧ q.in1 = [] ∧ q.msgs = [] ∧
    q.eng.ve.m0 = 0xFFFF#16 ∧ q.eng.ve.m3 = 0xFFFF#16 ∧ q.eng.ve.mode = 0#64 ∧ q.eng.me.cfg.geom = 0xFF01#64 ∧ q.eng.me.cfg.astr = 64#64 ∧
    q.eng.me.cfg.bstr = 32#64 ∧ q.eng.me.cfg.wscale = 0x3F800000#64 ∧ q.eng.ce.geom = 0xC00#64 ∧ q.eng.ce.shape = 0x0001000100010001#64) ∧
  (∀ i, (State.reset.ctxPage i).state = 0 ∧ (State.reset.ctxPage i).wdog = 2000000#64 ∧ (State.reset.ctxPage i).err = false) ∧
  State.reset.device.capw = 3000#64 ∧ State.reset.device.fenced = 0#8 ∧ State.reset.device.fzctl = 0#64 ∧ State.reset.device.boot = 0#8 ∧ State.reset.device.nonce = List.replicate 8 0#64 ∧ State.reset.cached = [] ∧
  (∀ w, State.reset.full w = true)
end

