-- ==== Sys2Proof/Laws/Tab.lean ====
section
/-!
SUPPORT. Laws of sparse tables: a read after a write, a write leaves the other keys alone, and every operation keeps the
canonical form.
-/
namespace Sys2Proof

variable {α : Type}

/-! ## Reading after writing -/

theorem Tab.find?_insert_same (m : Tab α) (k : Nat) (v : α) : Tab.find? (Tab.insert m k v) k = some v := by
  induction m with
  | nil => simp [Tab.insert, Tab.find?]
  | cons e m ih =>
    obtain ⟨j, u⟩ := e
    by_cases h1 : k < j
    · simp [Tab.insert, h1, Tab.find?]
    · by_cases h2 : k = j
      · simp [Tab.insert, h2, Tab.find?]
      · simp [Tab.insert, h1, h2, Tab.find?, Ne.symm h2, ih]

theorem Tab.find?_insert_other (m : Tab α) {k i : Nat} (v : α) (h : i ≠ k) : Tab.find? (Tab.insert m k v) i = Tab.find? m i := by
  induction m with
  | nil => simp [Tab.insert, Tab.find?, Ne.symm h]
  | cons e m ih =>
    obtain ⟨j, u⟩ := e
    by_cases h1 : k < j
    · simp [Tab.insert, h1, Tab.find?, Ne.symm h]
    · by_cases h2 : k = j
      · subst h2; simp [Tab.insert, Tab.find?, Ne.symm h]
      · simp only [Tab.insert, h1, h2, if_false, Tab.find?, ih]

/-- Keys at the head of a rising table are below all the others. -/
theorem Tab.rising_cons {j : Nat} {u : α} {m : Tab α} :
    Tab.rising ((j, u) :: m) = true ↔ (∀ e ∈ m, j < e.1) ∧ Tab.rising m = true := by
  induction m generalizing j u with
  | nil => simp [Tab.rising]
  | cons e m ih =>
    obtain ⟨k, v⟩ := e
    rw [Tab.rising, Bool.and_eq_true, decide_eq_true_eq]
    constructor
    · rintro ⟨h, r⟩
      refine ⟨fun e he => ?_, r⟩
      rcases List.mem_cons.1 he with rfl | he
      · exact h
      · exact Nat.lt_trans h ((ih.1 r).1 e he)
    · rintro ⟨h, r⟩
      exact ⟨h (k, v) (List.mem_cons_self ..), r⟩

theorem Tab.find?_none {m : Tab α} {k : Nat} (h : ∀ e ∈ m, e.1 ≠ k) : Tab.find? m k = none := by
  induction m with
  | nil => rfl
  | cons e m ih =>
    obtain ⟨j, u⟩ := e
    have := h (j, u) (List.mem_cons_self ..)
    simp only [Tab.find?]
    rw [if_neg this]
    exact ih (fun e he => h e (List.mem_cons_of_mem _ he))

theorem Tab.find?_erase_same {m : Tab α} (h : Tab.rising m = true) (k : Nat) : Tab.find? (Tab.erase m k) k = none := by
  induction m with
  | nil => rfl
  | cons e m ih =>
    obtain ⟨j, u⟩ := e
    obtain ⟨hj, hm⟩ := Tab.rising_cons.1 h
    by_cases h1 : j = k
    · subst h1
      simp only [Tab.erase, if_true]
      exact Tab.find?_none (fun e he => Nat.ne_of_gt (hj e he))
    · simp only [Tab.erase, h1, if_false, Tab.find?, ih hm]

theorem Tab.find?_erase_other (m : Tab α) {k i : Nat} (h : i ≠ k) : Tab.find? (Tab.erase m k) i = Tab.find? m i := by
  induction m with
  | nil => rfl
  | cons e m ih =>
    obtain ⟨j, u⟩ := e
    by_cases h1 : j = k
    · subst h1; simp [Tab.erase, Tab.find?, Ne.symm h]
    · simp only [Tab.erase, h1, if_false, Tab.find?, ih]

theorem Tab.get_put_other [DecidableEq α] (d : α) (m : Tab α) {k i : Nat} (v : α) (h : i ≠ k) :
    Tab.get d (Tab.put d m k v) i = Tab.get d m i := by
  unfold Tab.get Tab.put
  split
  · rw [Tab.find?_erase_other m h]
  · rw [Tab.find?_insert_other m v h]

theorem Tab.get_put_same [DecidableEq α] (d : α) {m : Tab α} (hm : Tab.rising m = true) (k : Nat) (v : α) :
    Tab.get d (Tab.put d m k v) k = v := by
  unfold Tab.get Tab.put
  split
  · rename_i h; rw [Tab.find?_erase_same hm, h]; rfl
  · rw [Tab.find?_insert_same]; rfl

/-! ## The canonical form -/

theorem Tab.mem_insert {m : Tab α} {k : Nat} {v : α} {e : Nat × α} (h : e ∈ Tab.insert m k v) : e = (k, v) ∨ e ∈ m := by
  induction m with
  | nil => simpa [Tab.insert] using h
  | cons f m ih =>
    obtain ⟨j, u⟩ := f
    simp only [Tab.insert] at h
    split at h
    · simpa using h
    · split at h
      · rcases List.mem_cons.1 h with h | h
        · exact .inl h
        · exact .inr (List.mem_cons_of_mem _ h)
      · rcases List.mem_cons.1 h with h | h
        · exact .inr (h ▸ List.mem_cons_self ..)
        · rcases ih h with h | h
          · exact .inl h
          · exact .inr (List.mem_cons_of_mem _ h)

theorem Tab.rising_insert {m : Tab α} (h : Tab.rising m = true) (k : Nat) (v : α) : Tab.rising (Tab.insert m k v) = true := by
  induction m with
  | nil => rfl
  | cons f m ih =>
    obtain ⟨j, u⟩ := f
    obtain ⟨hj, hm⟩ := Tab.rising_cons.1 h
    simp only [Tab.insert]
    split
    · rename_i h1
      refine Tab.rising_cons.2 ⟨fun e he => ?_, h⟩
      rcases List.mem_cons.1 he with rfl | he
      · exact h1
      · exact Nat.lt_trans h1 (hj e he)
    · split
      · rename_i _ h2
        exact Tab.rising_cons.2 ⟨fun e he => h2 ▸ hj e he, hm⟩
      · rename_i h1 h2
        refine Tab.rising_cons.2 ⟨fun e he => ?_, ih hm⟩
        rcases Tab.mem_insert he with rfl | he
        · show j < k
          omega
        · exact hj e he

theorem Tab.mem_erase {m : Tab α} {k : Nat} {e : Nat × α} (h : e ∈ Tab.erase m k) : e ∈ m := by
  induction m with
  | nil => exact h
  | cons f m ih =>
    obtain ⟨j, u⟩ := f
    simp only [Tab.erase] at h
    split at h
    · exact List.mem_cons_of_mem _ h
    · rcases List.mem_cons.1 h with h | h
      · exact h ▸ List.mem_cons_self ..
      · exact List.mem_cons_of_mem _ (ih h)

theorem Tab.rising_erase {m : Tab α} (h : Tab.rising m = true) (k : Nat) : Tab.rising (Tab.erase m k) = true := by
  induction m with
  | nil => rfl
  | cons f m ih =>
    obtain ⟨j, u⟩ := f
    obtain ⟨hj, hm⟩ := Tab.rising_cons.1 h
    simp only [Tab.erase]
    split
    · exact hm
    · exact Tab.rising_cons.2 ⟨fun e he => hj e (Tab.mem_erase he), ih hm⟩

theorem Tab.rising_filter {m : Tab α} (h : Tab.rising m = true) (p : Nat × α → Bool) : Tab.rising (m.filter p) = true := by
  induction m with
  | nil => rfl
  | cons f m ih =>
    obtain ⟨j, u⟩ := f
    obtain ⟨hj, hm⟩ := Tab.rising_cons.1 h
    rw [List.filter_cons]
    split
    · exact Tab.rising_cons.2 ⟨fun e he => hj e (List.mem_filter.1 he).1, ih hm⟩
    · exact ih hm

theorem Tab.wf_iff [DecidableEq α] {d : α} {m : Tab α} :
    Tab.wf d m = true ↔ Tab.rising m = true ∧ ∀ e ∈ m, e.2 ≠ d := by
  simp [Tab.wf]

/-- The empty table is canonical. -/
theorem Tab.wf_nil [DecidableEq α] (d : α) : Tab.wf d ([] : Tab α) = true := rfl

/-- A write keeps the canonical form. -/
theorem Tab.wf_put [DecidableEq α] {d : α} {m : Tab α} (h : Tab.wf d m = true) (k : Nat) (v : α) : Tab.wf d (Tab.put d m k v) = true := by
  obtain ⟨r, n⟩ := Tab.wf_iff.1 h
  unfold Tab.put
  split
  · exact Tab.wf_iff.2 ⟨Tab.rising_erase r k, fun e he => n e (Tab.mem_erase he)⟩
  · rename_i hv
    refine Tab.wf_iff.2 ⟨Tab.rising_insert r k v, fun e he => ?_⟩
    rcases Tab.mem_insert he with rfl | he
    · exact hv
    · exact n e he

/-- A selection of entries keeps the canonical form. -/
theorem Tab.wf_filter [DecidableEq α] {d : α} {m : Tab α} (h : Tab.wf d m = true) (p : Nat × α → Bool) :
    Tab.wf d (m.filter p) = true := by
  obtain ⟨r, n⟩ := Tab.wf_iff.1 h
  exact Tab.wf_iff.2 ⟨Tab.rising_filter r p, fun e he => n e (List.mem_filter.1 he).1⟩

/-- Two canonical tables whose keys lie apart, one after the other, are canonical. -/
theorem Tab.wf_append [DecidableEq α] {d : α} {m n : Tab α} (hm : Tab.wf d m = true) (hn : Tab.wf d n = true)
    (h : ∀ e ∈ m, ∀ f ∈ n, e.1 < f.1) : Tab.wf d (m ++ n) = true := by
  obtain ⟨rm, nm⟩ := Tab.wf_iff.1 hm
  obtain ⟨rn, nn⟩ := Tab.wf_iff.1 hn
  refine Tab.wf_iff.2 ⟨?_, fun e he => (List.mem_append.1 he).elim (nm e) (nn e)⟩
  clear hm hn nm nn
  induction m with
  | nil => exact rn
  | cons f m ih =>
    obtain ⟨j, u⟩ := f
    obtain ⟨hj, hm⟩ := Tab.rising_cons.1 rm
    refine Tab.rising_cons.2 ⟨fun e he => ?_, ih (fun e he => h e (List.mem_cons_of_mem _ he)) hm⟩
    rcases List.mem_append.1 he with he | he
    · exact hj e he
    · exact h (j, u) (List.mem_cons_self ..) e he

/-! ## Stores -/

variable {w : Nat}

theorem Store.get_put_other (m : Store w) {k i : Nat} (v : BitVec w) (h : i ≠ k) : Store.get (Store.put m k v) i = Store.get m i :=
  Tab.get_put_other _ m v h

theorem Store.get_put_same {m : Store w} (h : Tab.wf 0#w m = true) (k : Nat) (v : BitVec w) : Store.get (Store.put m k v) k = v :=
  Tab.get_put_same _ (Tab.wf_iff.1 h).1 k v

theorem Store.wf_put {m : Store w} (h : Tab.wf 0#w m = true) (k : Nat) (v : BitVec w) : Tab.wf 0#w (Store.put m k v) = true :=
  Tab.wf_put h k v

theorem Store.wf_write {m : Store 8} (h : Tab.wf 0#8 m = true) (k n v : Nat) : Tab.wf 0#8 (Store.write m k n v) = true := by
  induction n generalizing m k v with
  | zero => exact h
  | succ n ih => exact ih (Store.wf_put h _ _) _ _

/-- Writing a list of cells one by one keeps the canonical form. -/
theorem Store.wf_foldl {β : Type} {m : Store w} (h : Tab.wf 0#w m = true) (l : List β) (k : β → Nat) (v : β → BitVec w) :
    Tab.wf 0#w (l.foldl (fun m b => Store.put m (k b) (v b)) m) = true := by
  induction l generalizing m with
  | nil => exact h
  | cons b l ih => exact ih (Store.wf_put h _ _)

end Sys2Proof
end

