-- ==== Sys2Proof/Laws/State.lean ====
section
/-!
SUPPORT. What each update of the state and of a thread leaves of each field.
-/
set_option Elab.async false

namespace Sys2Proof.Machine

/-! ## The thread whose turn it is -/

theorem State.modThread_of (s : State) (u : Nat) (f : Thread → Thread) {t : Thread} (h : s.thread? u = some t) :
    s.modThread u f = { s with threads := Tab.insert s.threads u (f t) } := by
  unfold State.modThread; rw [h]
theorem State.modThread_here {s : State} {t : Thread} (h : s.thread? s.cur = some t) (f : Thread → Thread) :
    s.modThread s.cur f = s.withThread (f t) := by
  rw [State.modThread_of s s.cur f h]; rfl
theorem State.modThread_none {s : State} {u : Nat} (h : s.thread? u = none) (f : Thread → Thread) : s.modThread u f = s := by
  unfold State.modThread; rw [h]
@[simp] theorem State.thread?_withThread (s : State) (t : Thread) : (s.withThread t).thread? s.cur = some t := by
  simp [State.thread?, State.withThread, Tab.find?_insert_same]
theorem Tab.insert_insert {α : Type} (m : Tab α) (k : Nat) (u v : α) : Tab.insert (Tab.insert m k u) k v = Tab.insert m k v := by
  induction m with
  | nil => simp [Tab.insert]
  | cons e m ih =>
    obtain ⟨j, w⟩ := e
    simp only [Tab.insert]
    split
    · simp [Tab.insert]
    · split
      · simp [Tab.insert]
      · rename_i h1 h2; simp [Tab.insert, h1, h2, ih]
@[simp] theorem State.withThread_withThread (s : State) (t t' : Thread) : (s.withThread t).withThread t' = s.withThread t' := by
  simp [State.withThread, Tab.insert_insert]
@[simp] theorem State.cur_withThread (s : State) (t : Thread) : (s.withThread t).cur = s.cur := rfl
@[simp] theorem State.thread?_withThread_other (s : State) (t : Thread) {u : Nat} (h : u ≠ s.cur) :
    (s.withThread t).thread? u = s.thread? u := by
  simp [State.thread?, State.withThread, Tab.find?_insert_other _ _ h]

/-! ## Other parts change beside the thread -/

theorem State.withThread_push (s : State) (t : Thread) (e : Event) : (s.withThread t).push e = (s.push e).withThread t := rfl
theorem State.withThread_after (s : State) (t : Thread) (n : Nat) (e : Event) : (s.withThread t).after n e = (s.after n e).withThread t := rfl
theorem State.withThread_modCore (s : State) (t : Thread) (c : Nat) (f : Core → Core) :
    (s.withThread t).modCore c f = (s.modCore c f).withThread t := rfl
theorem State.withThread_count (s : State) (t : Thread) (c i n : Nat) : (s.withThread t).count c i n = (s.count c i n).withThread t := rfl
theorem State.withThread_setFull (s : State) (t : Thread) (w : Nat) (f : Bool) :
    (s.withThread t).setFull w f = (s.setFull w f).withThread t := rfl
theorem State.withThread_modPage (s : State) (t : Thread) (i : Nat) (f : CtxPage → CtxPage) :
    (s.withThread t).modPage i f = (s.modPage i f).withThread t := rfl
theorem State.withThread_modCtx (s : State) (t : Thread) (c : Nat) (f : CtxPage → CtxPage) :
    (s.withThread t).modCtx c f = (s.modCtx c f).withThread t := by
  unfold State.modCtx
  have : (s.withThread t).page? c = s.page? c := rfl
  rw [this]
  split <;> rfl
/-- A part of a table that a new value of a key does not change. -/
theorem Tab.any_insert {α : Type} (m : Tab α) (k : Nat) {u v : α} (p : Nat × α → Bool) (h : Tab.find? m k = some u) (e : p (k, u) = p (k, v)) :
    List.any (Tab.insert m k v) p = List.any m p := by
  induction m with
  | nil => simp [Tab.find?] at h
  | cons x m ih =>
    obtain ⟨j, w⟩ := x
    by_cases hj : j = k
    · subst hj
      have hw : w = u := by simpa [Tab.find?] using h
      subst hw
      simp [Tab.insert, e]
    · have hm : Tab.find? m k = some u := by simpa [Tab.find?, hj] using h
      have hs := ih hm
      simp only [Tab.insert]
      split
      · have : List.any m p = (p (k, v) || List.any m p) := by
          cases hp : p (k, v)
          · simp
          · have hu : p (k, u) = true := by rw [e, hp]
            have : List.any m p = true := by
              clear hs ih
              induction m with
              | nil => simp [Tab.find?] at hm
              | cons y m ih2 =>
                obtain ⟨i, z⟩ := y
                by_cases hi : i = k
                · subst hi
                  have : z = u := by simpa [Tab.find?] using hm
                  subst this
                  simp [hu]
                · have h2 : Tab.find? m k = some u := by simpa [Tab.find?, hi] using hm
                  have h3 : Tab.find? ((j, w) :: m) k = some u := by simp [Tab.find?, hj, h2]
                  simp [ih2 h3 h2]
            simp [this]
        simp only [List.any_cons]
        rw [this]
        cases p (k, v) <;> cases p (j, w) <;> simp
      · split
        · rename_i h1 h2; exact absurd h2.symm hj
        · simp [hs]
/-- The watchdog of a context stands still or not as before, when the thread keeps its place and its halt (R389). -/
theorem State.dogStill_withThread (s : State) {t t' : Thread} (h : s.thread? s.cur = some t) (hp : t'.place = t.place)
    (hh : t'.halted = t.halted) (ha : t'.attr = t.attr) (c : Nat) : (s.withThread t').dogStill c = s.dogStill c := by
  have f : Tab.find? s.threads s.cur = some t := h
  simp only [State.dogStill, State.dogHeld, State.withThread, List.any_filter]
  rw [Tab.any_insert s.threads s.cur _ f (by simp [hh, ha]), Tab.any_insert s.threads s.cur _ f (by simp [hp, ha])]
  rfl
theorem State.withThread_progress (s : State) {t t' : Thread} (h : s.thread? s.cur = some t) (hp : t'.place = t.place)
    (hh : t'.halted = t.halted) (ha : t'.attr = t.attr) (c : Nat) : (s.withThread t').progress c = (s.progress c).withThread t' := by
  unfold State.progress
  rw [State.dogStill_withThread s h hp hh ha]
  split
  · rfl
  · exact State.withThread_modCtx s t' c _

/-! ## withThread -/

@[simp] theorem State.mem_withThread (s : State) (t : Thread) : (s.withThread t).mem = s.mem := rfl
@[simp] theorem State.empty_withThread (s : State) (t : Thread) : (s.withThread t).empty = s.empty := rfl
@[simp] theorem State.poison_withThread (s : State) (t : Thread) : (s.withThread t).poison = s.poison := rfl
@[simp] theorem State.near_withThread (s : State) (t : Thread) : (s.withThread t).near = s.near := rfl
@[simp] theorem State.cached_withThread (s : State) (t : Thread) : (s.withThread t).cached = s.cached := rfl
@[simp] theorem State.latent_withThread (s : State) (t : Thread) : (s.withThread t).latent = s.latent := rfl
@[simp] theorem State.co_withThread (s : State) (t : Thread) : (s.withThread t).co = s.co := rfl
@[simp] theorem State.stamps_withThread (s : State) (t : Thread) : (s.withThread t).stamps = s.stamps := rfl
@[simp] theorem State.reserved_withThread (s : State) (t : Thread) : (s.withThread t).reserved = s.reserved := rfl
@[simp] theorem State.cores_withThread (s : State) (t : Thread) : (s.withThread t).cores = s.cores := rfl
@[simp] theorem State.setts_withThread (s : State) (t : Thread) : (s.withThread t).setts = s.setts := rfl
@[simp] theorem State.tcache_withThread (s : State) (t : Thread) : (s.withThread t).tcache = s.tcache := rfl
@[simp] theorem State.grants_withThread (s : State) (t : Thread) : (s.withThread t).grants = s.grants := rfl
@[simp] theorem State.used_withThread (s : State) (t : Thread) : (s.withThread t).used = s.used := rfl
@[simp] theorem State.mapped_withThread (s : State) (t : Thread) : (s.withThread t).mapped = s.mapped := rfl
@[simp] theorem State.faultq_withThread (s : State) (t : Thread) : (s.withThread t).faultq = s.faultq := rfl
@[simp] theorem State.waiters_withThread (s : State) (t : Thread) : (s.withThread t).waiters = s.waiters := rfl
@[simp] theorem State.watches_withThread (s : State) (t : Thread) : (s.withThread t).watches = s.watches := rfl
@[simp] theorem State.nextWatch_withThread (s : State) (t : Thread) : (s.withThread t).nextWatch = s.nextWatch := rfl
@[simp] theorem State.groups_withThread (s : State) (t : Thread) : (s.withThread t).groups = s.groups := rfl
@[simp] theorem State.outbox_withThread (s : State) (t : Thread) : (s.withThread t).outbox = s.outbox := rfl
@[simp] theorem State.launches_withThread (s : State) (t : Thread) : (s.withThread t).launches = s.launches := rfl
@[simp] theorem State.nextKey_withThread (s : State) (t : Thread) : (s.withThread t).nextKey = s.nextKey := rfl
@[simp] theorem State.served_withThread (s : State) (t : Thread) : (s.withThread t).served = s.served := rfl
@[simp] theorem State.handles_withThread (s : State) (t : Thread) : (s.withThread t).handles = s.handles := rfl
@[simp] theorem State.syncs_withThread (s : State) (t : Thread) : (s.withThread t).syncs = s.syncs := rfl
@[simp] theorem State.saved_withThread (s : State) (t : Thread) : (s.withThread t).saved = s.saved := rfl
@[simp] theorem State.ctxs_withThread (s : State) (t : Thread) : (s.withThread t).ctxs = s.ctxs := rfl
@[simp] theorem State.device_withThread (s : State) (t : Thread) : (s.withThread t).device = s.device := rfl
@[simp] theorem State.ageing_withThread (s : State) (t : Thread) : (s.withThread t).ageing = s.ageing := rfl
@[simp] theorem State.bankLimit_withThread (s : State) (t : Thread) : (s.withThread t).bankLimit = s.bankLimit := rfl
@[simp] theorem State.threshold_withThread (s : State) (t : Thread) : (s.withThread t).threshold = s.threshold := rfl
@[simp] theorem State.lostStacks_withThread (s : State) (t : Thread) : (s.withThread t).lostStacks = s.lostStacks := rfl
@[simp] theorem State.lostLinks_withThread (s : State) (t : Thread) : (s.withThread t).lostLinks = s.lostLinks := rfl
@[simp] theorem State.lostDevs_withThread (s : State) (t : Thread) : (s.withThread t).lostDevs = s.lostDevs := rfl
@[simp] theorem State.lostPorts_withThread (s : State) (t : Thread) : (s.withThread t).lostPorts = s.lostPorts := rfl
@[simp] theorem State.lostHomes_withThread (s : State) (t : Thread) : (s.withThread t).lostHomes = s.lostHomes := rfl
@[simp] theorem State.renewed_withThread (s : State) (t : Thread) : (s.withThread t).renewed = s.renewed := rfl
@[simp] theorem State.bedLost_withThread (s : State) (t : Thread) : (s.withThread t).bedLost = s.bedLost := rfl
@[simp] theorem State.pending_withThread (s : State) (t : Thread) : (s.withThread t).pending = s.pending := rfl
@[simp] theorem State.timers_withThread (s : State) (t : Thread) : (s.withThread t).timers = s.timers := rfl
@[simp] theorem State.turns_withThread (s : State) (t : Thread) : (s.withThread t).turns = s.turns := rfl
@[simp] theorem State.iword_withThread (s : State) (t : Thread) : (s.withThread t).iword = s.iword := rfl
@[simp] theorem State.cycle_withThread (s : State) (t : Thread) : (s.withThread t).cycle = s.cycle := rfl
@[simp] theorem State.scan_withThread (s : State) (t : Thread) : (s.withThread t).scan = s.scan := rfl
@[simp] theorem State.ending_withThread (s : State) (t : Thread) : (s.withThread t).ending = s.ending := rfl
@[simp] theorem State.free_withThread (s : State) (t : Thread) : (s.withThread t).free = s.free := rfl
@[simp] theorem State.nextUid_withThread (s : State) (t : Thread) : (s.withThread t).nextUid = s.nextUid := rfl
@[simp] theorem State.frozen_withThread (s : State) (t : Thread) : (s.withThread t).frozen = s.frozen := rfl
@[simp] theorem State.view_withThread (s : State) (t : Thread) : (s.withThread t).view = s.view := rfl
@[simp] theorem State.cxlData_withThread (s : State) (t : Thread) : (s.withThread t).cxlData = s.cxlData := rfl

/-! ## modThread -/

@[simp] theorem State.mem_modThread (s : State) (u : Nat) (f : Thread → Thread) : (s.modThread u f).mem = s.mem := by unfold State.modThread; split <;> rfl
@[simp] theorem State.empty_modThread (s : State) (u : Nat) (f : Thread → Thread) : (s.modThread u f).empty = s.empty := by unfold State.modThread; split <;> rfl
@[simp] theorem State.poison_modThread (s : State) (u : Nat) (f : Thread → Thread) : (s.modThread u f).poison = s.poison := by unfold State.modThread; split <;> rfl
@[simp] theorem State.near_modThread (s : State) (u : Nat) (f : Thread → Thread) : (s.modThread u f).near = s.near := by unfold State.modThread; split <;> rfl
@[simp] theorem State.cached_modThread (s : State) (u : Nat) (f : Thread → Thread) : (s.modThread u f).cached = s.cached := by unfold State.modThread; split <;> rfl
@[simp] theorem State.latent_modThread (s : State) (u : Nat) (f : Thread → Thread) : (s.modThread u f).latent = s.latent := by unfold State.modThread; split <;> rfl
@[simp] theorem State.co_modThread (s : State) (u : Nat) (f : Thread → Thread) : (s.modThread u f).co = s.co := by unfold State.modThread; split <;> rfl
@[simp] theorem State.stamps_modThread (s : State) (u : Nat) (f : Thread → Thread) : (s.modThread u f).stamps = s.stamps := by unfold State.modThread; split <;> rfl
@[simp] theorem State.reserved_modThread (s : State) (u : Nat) (f : Thread → Thread) : (s.modThread u f).reserved = s.reserved := by unfold State.modThread; split <;> rfl
@[simp] theorem State.cores_modThread (s : State) (u : Nat) (f : Thread → Thread) : (s.modThread u f).cores = s.cores := by unfold State.modThread; split <;> rfl
@[simp] theorem State.setts_modThread (s : State) (u : Nat) (f : Thread → Thread) : (s.modThread u f).setts = s.setts := by unfold State.modThread; split <;> rfl
@[simp] theorem State.tcache_modThread (s : State) (u : Nat) (f : Thread → Thread) : (s.modThread u f).tcache = s.tcache := by unfold State.modThread; split <;> rfl
@[simp] theorem State.grants_modThread (s : State) (u : Nat) (f : Thread → Thread) : (s.modThread u f).grants = s.grants := by unfold State.modThread; split <;> rfl
@[simp] theorem State.used_modThread (s : State) (u : Nat) (f : Thread → Thread) : (s.modThread u f).used = s.used := by unfold State.modThread; split <;> rfl
@[simp] theorem State.mapped_modThread (s : State) (u : Nat) (f : Thread → Thread) : (s.modThread u f).mapped = s.mapped := by unfold State.modThread; split <;> rfl
@[simp] theorem State.faultq_modThread (s : State) (u : Nat) (f : Thread → Thread) : (s.modThread u f).faultq = s.faultq := by unfold State.modThread; split <;> rfl
@[simp] theorem State.waiters_modThread (s : State) (u : Nat) (f : Thread → Thread) : (s.modThread u f).waiters = s.waiters := by unfold State.modThread; split <;> rfl
@[simp] theorem State.watches_modThread (s : State) (u : Nat) (f : Thread → Thread) : (s.modThread u f).watches = s.watches := by unfold State.modThread; split <;> rfl
@[simp] theorem State.nextWatch_modThread (s : State) (u : Nat) (f : Thread → Thread) : (s.modThread u f).nextWatch = s.nextWatch := by unfold State.modThread; split <;> rfl
@[simp] theorem State.groups_modThread (s : State) (u : Nat) (f : Thread → Thread) : (s.modThread u f).groups = s.groups := by unfold State.modThread; split <;> rfl
@[simp] theorem State.outbox_modThread (s : State) (u : Nat) (f : Thread → Thread) : (s.modThread u f).outbox = s.outbox := by unfold State.modThread; split <;> rfl
@[simp] theorem State.launches_modThread (s : State) (u : Nat) (f : Thread → Thread) : (s.modThread u f).launches = s.launches := by unfold State.modThread; split <;> rfl
@[simp] theorem State.nextKey_modThread (s : State) (u : Nat) (f : Thread → Thread) : (s.modThread u f).nextKey = s.nextKey := by unfold State.modThread; split <;> rfl
@[simp] theorem State.served_modThread (s : State) (u : Nat) (f : Thread → Thread) : (s.modThread u f).served = s.served := by unfold State.modThread; split <;> rfl
@[simp] theorem State.handles_modThread (s : State) (u : Nat) (f : Thread → Thread) : (s.modThread u f).handles = s.handles := by unfold State.modThread; split <;> rfl
@[simp] theorem State.syncs_modThread (s : State) (u : Nat) (f : Thread → Thread) : (s.modThread u f).syncs = s.syncs := by unfold State.modThread; split <;> rfl
@[simp] theorem State.saved_modThread (s : State) (u : Nat) (f : Thread → Thread) : (s.modThread u f).saved = s.saved := by unfold State.modThread; split <;> rfl
@[simp] theorem State.ctxs_modThread (s : State) (u : Nat) (f : Thread → Thread) : (s.modThread u f).ctxs = s.ctxs := by unfold State.modThread; split <;> rfl
@[simp] theorem State.device_modThread (s : State) (u : Nat) (f : Thread → Thread) : (s.modThread u f).device = s.device := by unfold State.modThread; split <;> rfl
@[simp] theorem State.ageing_modThread (s : State) (u : Nat) (f : Thread → Thread) : (s.modThread u f).ageing = s.ageing := by unfold State.modThread; split <;> rfl
@[simp] theorem State.bankLimit_modThread (s : State) (u : Nat) (f : Thread → Thread) : (s.modThread u f).bankLimit = s.bankLimit := by unfold State.modThread; split <;> rfl
@[simp] theorem State.threshold_modThread (s : State) (u : Nat) (f : Thread → Thread) : (s.modThread u f).threshold = s.threshold := by unfold State.modThread; split <;> rfl
@[simp] theorem State.lostStacks_modThread (s : State) (u : Nat) (f : Thread → Thread) : (s.modThread u f).lostStacks = s.lostStacks := by unfold State.modThread; split <;> rfl
@[simp] theorem State.lostLinks_modThread (s : State) (u : Nat) (f : Thread → Thread) : (s.modThread u f).lostLinks = s.lostLinks := by unfold State.modThread; split <;> rfl
@[simp] theorem State.lostDevs_modThread (s : State) (u : Nat) (f : Thread → Thread) : (s.modThread u f).lostDevs = s.lostDevs := by unfold State.modThread; split <;> rfl
@[simp] theorem State.lostPorts_modThread (s : State) (u : Nat) (f : Thread → Thread) : (s.modThread u f).lostPorts = s.lostPorts := by unfold State.modThread; split <;> rfl
@[simp] theorem State.lostHomes_modThread (s : State) (u : Nat) (f : Thread → Thread) : (s.modThread u f).lostHomes = s.lostHomes := by unfold State.modThread; split <;> rfl
@[simp] theorem State.renewed_modThread (s : State) (u : Nat) (f : Thread → Thread) : (s.modThread u f).renewed = s.renewed := by unfold State.modThread; split <;> rfl
@[simp] theorem State.bedLost_modThread (s : State) (u : Nat) (f : Thread → Thread) : (s.modThread u f).bedLost = s.bedLost := by unfold State.modThread; split <;> rfl
@[simp] theorem State.pending_modThread (s : State) (u : Nat) (f : Thread → Thread) : (s.modThread u f).pending = s.pending := by unfold State.modThread; split <;> rfl
@[simp] theorem State.timers_modThread (s : State) (u : Nat) (f : Thread → Thread) : (s.modThread u f).timers = s.timers := by unfold State.modThread; split <;> rfl
@[simp] theorem State.turns_modThread (s : State) (u : Nat) (f : Thread → Thread) : (s.modThread u f).turns = s.turns := by unfold State.modThread; split <;> rfl
@[simp] theorem State.cur_modThread (s : State) (u : Nat) (f : Thread → Thread) : (s.modThread u f).cur = s.cur := by unfold State.modThread; split <;> rfl
@[simp] theorem State.iword_modThread (s : State) (u : Nat) (f : Thread → Thread) : (s.modThread u f).iword = s.iword := by unfold State.modThread; split <;> rfl
@[simp] theorem State.cycle_modThread (s : State) (u : Nat) (f : Thread → Thread) : (s.modThread u f).cycle = s.cycle := by unfold State.modThread; split <;> rfl
@[simp] theorem State.scan_modThread (s : State) (u : Nat) (f : Thread → Thread) : (s.modThread u f).scan = s.scan := by unfold State.modThread; split <;> rfl
@[simp] theorem State.ending_modThread (s : State) (u : Nat) (f : Thread → Thread) : (s.modThread u f).ending = s.ending := by unfold State.modThread; split <;> rfl
@[simp] theorem State.free_modThread (s : State) (u : Nat) (f : Thread → Thread) : (s.modThread u f).free = s.free := by unfold State.modThread; split <;> rfl
@[simp] theorem State.nextUid_modThread (s : State) (u : Nat) (f : Thread → Thread) : (s.modThread u f).nextUid = s.nextUid := by unfold State.modThread; split <;> rfl
@[simp] theorem State.frozen_modThread (s : State) (u : Nat) (f : Thread → Thread) : (s.modThread u f).frozen = s.frozen := by unfold State.modThread; split <;> rfl
@[simp] theorem State.view_modThread (s : State) (u : Nat) (f : Thread → Thread) : (s.modThread u f).view = s.view := by unfold State.modThread; split <;> rfl
@[simp] theorem State.cxlData_modThread (s : State) (u : Nat) (f : Thread → Thread) : (s.modThread u f).cxlData = s.cxlData := by unfold State.modThread; split <;> rfl

/-! ## modCore -/

@[simp] theorem State.mem_modCore (s : State) (c : Nat) (f : Core → Core) : (s.modCore c f).mem = s.mem := rfl
@[simp] theorem State.empty_modCore (s : State) (c : Nat) (f : Core → Core) : (s.modCore c f).empty = s.empty := rfl
@[simp] theorem State.poison_modCore (s : State) (c : Nat) (f : Core → Core) : (s.modCore c f).poison = s.poison := rfl
@[simp] theorem State.near_modCore (s : State) (c : Nat) (f : Core → Core) : (s.modCore c f).near = s.near := rfl
@[simp] theorem State.cached_modCore (s : State) (c : Nat) (f : Core → Core) : (s.modCore c f).cached = s.cached := rfl
@[simp] theorem State.latent_modCore (s : State) (c : Nat) (f : Core → Core) : (s.modCore c f).latent = s.latent := rfl
@[simp] theorem State.co_modCore (s : State) (c : Nat) (f : Core → Core) : (s.modCore c f).co = s.co := rfl
@[simp] theorem State.stamps_modCore (s : State) (c : Nat) (f : Core → Core) : (s.modCore c f).stamps = s.stamps := rfl
@[simp] theorem State.reserved_modCore (s : State) (c : Nat) (f : Core → Core) : (s.modCore c f).reserved = s.reserved := rfl
@[simp] theorem State.threads_modCore (s : State) (c : Nat) (f : Core → Core) : (s.modCore c f).threads = s.threads := rfl
@[simp] theorem State.setts_modCore (s : State) (c : Nat) (f : Core → Core) : (s.modCore c f).setts = s.setts := rfl
@[simp] theorem State.tcache_modCore (s : State) (c : Nat) (f : Core → Core) : (s.modCore c f).tcache = s.tcache := rfl
@[simp] theorem State.grants_modCore (s : State) (c : Nat) (f : Core → Core) : (s.modCore c f).grants = s.grants := rfl
@[simp] theorem State.used_modCore (s : State) (c : Nat) (f : Core → Core) : (s.modCore c f).used = s.used := rfl
@[simp] theorem State.mapped_modCore (s : State) (c : Nat) (f : Core → Core) : (s.modCore c f).mapped = s.mapped := rfl
@[simp] theorem State.faultq_modCore (s : State) (c : Nat) (f : Core → Core) : (s.modCore c f).faultq = s.faultq := rfl
@[simp] theorem State.waiters_modCore (s : State) (c : Nat) (f : Core → Core) : (s.modCore c f).waiters = s.waiters := rfl
@[simp] theorem State.watches_modCore (s : State) (c : Nat) (f : Core → Core) : (s.modCore c f).watches = s.watches := rfl
@[simp] theorem State.nextWatch_modCore (s : State) (c : Nat) (f : Core → Core) : (s.modCore c f).nextWatch = s.nextWatch := rfl
@[simp] theorem State.groups_modCore (s : State) (c : Nat) (f : Core → Core) : (s.modCore c f).groups = s.groups := rfl
@[simp] theorem State.outbox_modCore (s : State) (c : Nat) (f : Core → Core) : (s.modCore c f).outbox = s.outbox := rfl
@[simp] theorem State.launches_modCore (s : State) (c : Nat) (f : Core → Core) : (s.modCore c f).launches = s.launches := rfl
@[simp] theorem State.nextKey_modCore (s : State) (c : Nat) (f : Core → Core) : (s.modCore c f).nextKey = s.nextKey := rfl
@[simp] theorem State.served_modCore (s : State) (c : Nat) (f : Core → Core) : (s.modCore c f).served = s.served := rfl
@[simp] theorem State.handles_modCore (s : State) (c : Nat) (f : Core → Core) : (s.modCore c f).handles = s.handles := rfl
@[simp] theorem State.syncs_modCore (s : State) (c : Nat) (f : Core → Core) : (s.modCore c f).syncs = s.syncs := rfl
@[simp] theorem State.saved_modCore (s : State) (c : Nat) (f : Core → Core) : (s.modCore c f).saved = s.saved := rfl
@[simp] theorem State.ctxs_modCore (s : State) (c : Nat) (f : Core → Core) : (s.modCore c f).ctxs = s.ctxs := rfl
@[simp] theorem State.device_modCore (s : State) (c : Nat) (f : Core → Core) : (s.modCore c f).device = s.device := rfl
@[simp] theorem State.ageing_modCore (s : State) (c : Nat) (f : Core → Core) : (s.modCore c f).ageing = s.ageing := rfl
@[simp] theorem State.bankLimit_modCore (s : State) (c : Nat) (f : Core → Core) : (s.modCore c f).bankLimit = s.bankLimit := rfl
@[simp] theorem State.threshold_modCore (s : State) (c : Nat) (f : Core → Core) : (s.modCore c f).threshold = s.threshold := rfl
@[simp] theorem State.lostStacks_modCore (s : State) (c : Nat) (f : Core → Core) : (s.modCore c f).lostStacks = s.lostStacks := rfl
@[simp] theorem State.lostLinks_modCore (s : State) (c : Nat) (f : Core → Core) : (s.modCore c f).lostLinks = s.lostLinks := rfl
@[simp] theorem State.lostDevs_modCore (s : State) (c : Nat) (f : Core → Core) : (s.modCore c f).lostDevs = s.lostDevs := rfl
@[simp] theorem State.lostPorts_modCore (s : State) (c : Nat) (f : Core → Core) : (s.modCore c f).lostPorts = s.lostPorts := rfl
@[simp] theorem State.lostHomes_modCore (s : State) (c : Nat) (f : Core → Core) : (s.modCore c f).lostHomes = s.lostHomes := rfl
@[simp] theorem State.renewed_modCore (s : State) (c : Nat) (f : Core → Core) : (s.modCore c f).renewed = s.renewed := rfl
@[simp] theorem State.bedLost_modCore (s : State) (c : Nat) (f : Core → Core) : (s.modCore c f).bedLost = s.bedLost := rfl
@[simp] theorem State.pending_modCore (s : State) (c : Nat) (f : Core → Core) : (s.modCore c f).pending = s.pending := rfl
@[simp] theorem State.timers_modCore (s : State) (c : Nat) (f : Core → Core) : (s.modCore c f).timers = s.timers := rfl
@[simp] theorem State.turns_modCore (s : State) (c : Nat) (f : Core → Core) : (s.modCore c f).turns = s.turns := rfl
@[simp] theorem State.cur_modCore (s : State) (c : Nat) (f : Core → Core) : (s.modCore c f).cur = s.cur := rfl
@[simp] theorem State.iword_modCore (s : State) (c : Nat) (f : Core → Core) : (s.modCore c f).iword = s.iword := rfl
@[simp] theorem State.cycle_modCore (s : State) (c : Nat) (f : Core → Core) : (s.modCore c f).cycle = s.cycle := rfl
@[simp] theorem State.scan_modCore (s : State) (c : Nat) (f : Core → Core) : (s.modCore c f).scan = s.scan := rfl
@[simp] theorem State.ending_modCore (s : State) (c : Nat) (f : Core → Core) : (s.modCore c f).ending = s.ending := rfl
@[simp] theorem State.free_modCore (s : State) (c : Nat) (f : Core → Core) : (s.modCore c f).free = s.free := rfl
@[simp] theorem State.nextUid_modCore (s : State) (c : Nat) (f : Core → Core) : (s.modCore c f).nextUid = s.nextUid := rfl
@[simp] theorem State.frozen_modCore (s : State) (c : Nat) (f : Core → Core) : (s.modCore c f).frozen = s.frozen := rfl
@[simp] theorem State.view_modCore (s : State) (c : Nat) (f : Core → Core) : (s.modCore c f).view = s.view := rfl
@[simp] theorem State.cxlData_modCore (s : State) (c : Nat) (f : Core → Core) : (s.modCore c f).cxlData = s.cxlData := rfl

/-! ## modSett -/

@[simp] theorem State.mem_modSett (s : State) (n : Nat) (f : Sett → Sett) : (s.modSett n f).mem = s.mem := rfl
@[simp] theorem State.empty_modSett (s : State) (n : Nat) (f : Sett → Sett) : (s.modSett n f).empty = s.empty := rfl
@[simp] theorem State.poison_modSett (s : State) (n : Nat) (f : Sett → Sett) : (s.modSett n f).poison = s.poison := rfl
@[simp] theorem State.near_modSett (s : State) (n : Nat) (f : Sett → Sett) : (s.modSett n f).near = s.near := rfl
@[simp] theorem State.cached_modSett (s : State) (n : Nat) (f : Sett → Sett) : (s.modSett n f).cached = s.cached := rfl
@[simp] theorem State.latent_modSett (s : State) (n : Nat) (f : Sett → Sett) : (s.modSett n f).latent = s.latent := rfl
@[simp] theorem State.co_modSett (s : State) (n : Nat) (f : Sett → Sett) : (s.modSett n f).co = s.co := rfl
@[simp] theorem State.stamps_modSett (s : State) (n : Nat) (f : Sett → Sett) : (s.modSett n f).stamps = s.stamps := rfl
@[simp] theorem State.reserved_modSett (s : State) (n : Nat) (f : Sett → Sett) : (s.modSett n f).reserved = s.reserved := rfl
@[simp] theorem State.threads_modSett (s : State) (n : Nat) (f : Sett → Sett) : (s.modSett n f).threads = s.threads := rfl
@[simp] theorem State.cores_modSett (s : State) (n : Nat) (f : Sett → Sett) : (s.modSett n f).cores = s.cores := rfl
@[simp] theorem State.tcache_modSett (s : State) (n : Nat) (f : Sett → Sett) : (s.modSett n f).tcache = s.tcache := rfl
@[simp] theorem State.grants_modSett (s : State) (n : Nat) (f : Sett → Sett) : (s.modSett n f).grants = s.grants := rfl
@[simp] theorem State.used_modSett (s : State) (n : Nat) (f : Sett → Sett) : (s.modSett n f).used = s.used := rfl
@[simp] theorem State.mapped_modSett (s : State) (n : Nat) (f : Sett → Sett) : (s.modSett n f).mapped = s.mapped := rfl
@[simp] theorem State.faultq_modSett (s : State) (n : Nat) (f : Sett → Sett) : (s.modSett n f).faultq = s.faultq := rfl
@[simp] theorem State.waiters_modSett (s : State) (n : Nat) (f : Sett → Sett) : (s.modSett n f).waiters = s.waiters := rfl
@[simp] theorem State.watches_modSett (s : State) (n : Nat) (f : Sett → Sett) : (s.modSett n f).watches = s.watches := rfl
@[simp] theorem State.nextWatch_modSett (s : State) (n : Nat) (f : Sett → Sett) : (s.modSett n f).nextWatch = s.nextWatch := rfl
@[simp] theorem State.groups_modSett (s : State) (n : Nat) (f : Sett → Sett) : (s.modSett n f).groups = s.groups := rfl
@[simp] theorem State.outbox_modSett (s : State) (n : Nat) (f : Sett → Sett) : (s.modSett n f).outbox = s.outbox := rfl
@[simp] theorem State.launches_modSett (s : State) (n : Nat) (f : Sett → Sett) : (s.modSett n f).launches = s.launches := rfl
@[simp] theorem State.nextKey_modSett (s : State) (n : Nat) (f : Sett → Sett) : (s.modSett n f).nextKey = s.nextKey := rfl
@[simp] theorem State.served_modSett (s : State) (n : Nat) (f : Sett → Sett) : (s.modSett n f).served = s.served := rfl
@[simp] theorem State.handles_modSett (s : State) (n : Nat) (f : Sett → Sett) : (s.modSett n f).handles = s.handles := rfl
@[simp] theorem State.syncs_modSett (s : State) (n : Nat) (f : Sett → Sett) : (s.modSett n f).syncs = s.syncs := rfl
@[simp] theorem State.saved_modSett (s : State) (n : Nat) (f : Sett → Sett) : (s.modSett n f).saved = s.saved := rfl
@[simp] theorem State.ctxs_modSett (s : State) (n : Nat) (f : Sett → Sett) : (s.modSett n f).ctxs = s.ctxs := rfl
@[simp] theorem State.device_modSett (s : State) (n : Nat) (f : Sett → Sett) : (s.modSett n f).device = s.device := rfl
@[simp] theorem State.ageing_modSett (s : State) (n : Nat) (f : Sett → Sett) : (s.modSett n f).ageing = s.ageing := rfl
@[simp] theorem State.bankLimit_modSett (s : State) (n : Nat) (f : Sett → Sett) : (s.modSett n f).bankLimit = s.bankLimit := rfl
@[simp] theorem State.threshold_modSett (s : State) (n : Nat) (f : Sett → Sett) : (s.modSett n f).threshold = s.threshold := rfl
@[simp] theorem State.lostStacks_modSett (s : State) (n : Nat) (f : Sett → Sett) : (s.modSett n f).lostStacks = s.lostStacks := rfl
@[simp] theorem State.lostLinks_modSett (s : State) (n : Nat) (f : Sett → Sett) : (s.modSett n f).lostLinks = s.lostLinks := rfl
@[simp] theorem State.lostDevs_modSett (s : State) (n : Nat) (f : Sett → Sett) : (s.modSett n f).lostDevs = s.lostDevs := rfl
@[simp] theorem State.lostPorts_modSett (s : State) (n : Nat) (f : Sett → Sett) : (s.modSett n f).lostPorts = s.lostPorts := rfl
@[simp] theorem State.lostHomes_modSett (s : State) (n : Nat) (f : Sett → Sett) : (s.modSett n f).lostHomes = s.lostHomes := rfl
@[simp] theorem State.renewed_modSett (s : State) (n : Nat) (f : Sett → Sett) : (s.modSett n f).renewed = s.renewed := rfl
@[simp] theorem State.bedLost_modSett (s : State) (n : Nat) (f : Sett → Sett) : (s.modSett n f).bedLost = s.bedLost := rfl
@[simp] theorem State.pending_modSett (s : State) (n : Nat) (f : Sett → Sett) : (s.modSett n f).pending = s.pending := rfl
@[simp] theorem State.timers_modSett (s : State) (n : Nat) (f : Sett → Sett) : (s.modSett n f).timers = s.timers := rfl
@[simp] theorem State.turns_modSett (s : State) (n : Nat) (f : Sett → Sett) : (s.modSett n f).turns = s.turns := rfl
@[simp] theorem State.cur_modSett (s : State) (n : Nat) (f : Sett → Sett) : (s.modSett n f).cur = s.cur := rfl
@[simp] theorem State.iword_modSett (s : State) (n : Nat) (f : Sett → Sett) : (s.modSett n f).iword = s.iword := rfl
@[simp] theorem State.cycle_modSett (s : State) (n : Nat) (f : Sett → Sett) : (s.modSett n f).cycle = s.cycle := rfl
@[simp] theorem State.scan_modSett (s : State) (n : Nat) (f : Sett → Sett) : (s.modSett n f).scan = s.scan := rfl
@[simp] theorem State.ending_modSett (s : State) (n : Nat) (f : Sett → Sett) : (s.modSett n f).ending = s.ending := rfl
@[simp] theorem State.free_modSett (s : State) (n : Nat) (f : Sett → Sett) : (s.modSett n f).free = s.free := rfl
@[simp] theorem State.nextUid_modSett (s : State) (n : Nat) (f : Sett → Sett) : (s.modSett n f).nextUid = s.nextUid := rfl
@[simp] theorem State.frozen_modSett (s : State) (n : Nat) (f : Sett → Sett) : (s.modSett n f).frozen = s.frozen := rfl
@[simp] theorem State.view_modSett (s : State) (n : Nat) (f : Sett → Sett) : (s.modSett n f).view = s.view := rfl
@[simp] theorem State.cxlData_modSett (s : State) (n : Nat) (f : Sett → Sett) : (s.modSett n f).cxlData = s.cxlData := rfl

/-! ## modPage -/

@[simp] theorem State.mem_modPage (s : State) (i : Nat) (f : CtxPage → CtxPage) : (s.modPage i f).mem = s.mem := rfl
@[simp] theorem State.empty_modPage (s : State) (i : Nat) (f : CtxPage → CtxPage) : (s.modPage i f).empty = s.empty := rfl
@[simp] theorem State.poison_modPage (s : State) (i : Nat) (f : CtxPage → CtxPage) : (s.modPage i f).poison = s.poison := rfl
@[simp] theorem State.near_modPage (s : State) (i : Nat) (f : CtxPage → CtxPage) : (s.modPage i f).near = s.near := rfl
@[simp] theorem State.cached_modPage (s : State) (i : Nat) (f : CtxPage → CtxPage) : (s.modPage i f).cached = s.cached := rfl
@[simp] theorem State.latent_modPage (s : State) (i : Nat) (f : CtxPage → CtxPage) : (s.modPage i f).latent = s.latent := rfl
@[simp] theorem State.co_modPage (s : State) (i : Nat) (f : CtxPage → CtxPage) : (s.modPage i f).co = s.co := rfl
@[simp] theorem State.stamps_modPage (s : State) (i : Nat) (f : CtxPage → CtxPage) : (s.modPage i f).stamps = s.stamps := rfl
@[simp] theorem State.reserved_modPage (s : State) (i : Nat) (f : CtxPage → CtxPage) : (s.modPage i f).reserved = s.reserved := rfl
@[simp] theorem State.threads_modPage (s : State) (i : Nat) (f : CtxPage → CtxPage) : (s.modPage i f).threads = s.threads := rfl
@[simp] theorem State.cores_modPage (s : State) (i : Nat) (f : CtxPage → CtxPage) : (s.modPage i f).cores = s.cores := rfl
@[simp] theorem State.setts_modPage (s : State) (i : Nat) (f : CtxPage → CtxPage) : (s.modPage i f).setts = s.setts := rfl
@[simp] theorem State.tcache_modPage (s : State) (i : Nat) (f : CtxPage → CtxPage) : (s.modPage i f).tcache = s.tcache := rfl
@[simp] theorem State.grants_modPage (s : State) (i : Nat) (f : CtxPage → CtxPage) : (s.modPage i f).grants = s.grants := rfl
@[simp] theorem State.used_modPage (s : State) (i : Nat) (f : CtxPage → CtxPage) : (s.modPage i f).used = s.used := rfl
@[simp] theorem State.mapped_modPage (s : State) (i : Nat) (f : CtxPage → CtxPage) : (s.modPage i f).mapped = s.mapped := rfl
@[simp] theorem State.faultq_modPage (s : State) (i : Nat) (f : CtxPage → CtxPage) : (s.modPage i f).faultq = s.faultq := rfl
@[simp] theorem State.waiters_modPage (s : State) (i : Nat) (f : CtxPage → CtxPage) : (s.modPage i f).waiters = s.waiters := rfl
@[simp] theorem State.watches_modPage (s : State) (i : Nat) (f : CtxPage → CtxPage) : (s.modPage i f).watches = s.watches := rfl
@[simp] theorem State.nextWatch_modPage (s : State) (i : Nat) (f : CtxPage → CtxPage) : (s.modPage i f).nextWatch = s.nextWatch := rfl
@[simp] theorem State.groups_modPage (s : State) (i : Nat) (f : CtxPage → CtxPage) : (s.modPage i f).groups = s.groups := rfl
@[simp] theorem State.outbox_modPage (s : State) (i : Nat) (f : CtxPage → CtxPage) : (s.modPage i f).outbox = s.outbox := rfl
@[simp] theorem State.launches_modPage (s : State) (i : Nat) (f : CtxPage → CtxPage) : (s.modPage i f).launches = s.launches := rfl
@[simp] theorem State.nextKey_modPage (s : State) (i : Nat) (f : CtxPage → CtxPage) : (s.modPage i f).nextKey = s.nextKey := rfl
@[simp] theorem State.served_modPage (s : State) (i : Nat) (f : CtxPage → CtxPage) : (s.modPage i f).served = s.served := rfl
@[simp] theorem State.handles_modPage (s : State) (i : Nat) (f : CtxPage → CtxPage) : (s.modPage i f).handles = s.handles := rfl
@[simp] theorem State.syncs_modPage (s : State) (i : Nat) (f : CtxPage → CtxPage) : (s.modPage i f).syncs = s.syncs := rfl
@[simp] theorem State.saved_modPage (s : State) (i : Nat) (f : CtxPage → CtxPage) : (s.modPage i f).saved = s.saved := rfl
@[simp] theorem State.device_modPage (s : State) (i : Nat) (f : CtxPage → CtxPage) : (s.modPage i f).device = s.device := rfl
@[simp] theorem State.ageing_modPage (s : State) (i : Nat) (f : CtxPage → CtxPage) : (s.modPage i f).ageing = s.ageing := rfl
@[simp] theorem State.bankLimit_modPage (s : State) (i : Nat) (f : CtxPage → CtxPage) : (s.modPage i f).bankLimit = s.bankLimit := rfl
@[simp] theorem State.threshold_modPage (s : State) (i : Nat) (f : CtxPage → CtxPage) : (s.modPage i f).threshold = s.threshold := rfl
@[simp] theorem State.lostStacks_modPage (s : State) (i : Nat) (f : CtxPage → CtxPage) : (s.modPage i f).lostStacks = s.lostStacks := rfl
@[simp] theorem State.lostLinks_modPage (s : State) (i : Nat) (f : CtxPage → CtxPage) : (s.modPage i f).lostLinks = s.lostLinks := rfl
@[simp] theorem State.lostDevs_modPage (s : State) (i : Nat) (f : CtxPage → CtxPage) : (s.modPage i f).lostDevs = s.lostDevs := rfl
@[simp] theorem State.lostPorts_modPage (s : State) (i : Nat) (f : CtxPage → CtxPage) : (s.modPage i f).lostPorts = s.lostPorts := rfl
@[simp] theorem State.lostHomes_modPage (s : State) (i : Nat) (f : CtxPage → CtxPage) : (s.modPage i f).lostHomes = s.lostHomes := rfl
@[simp] theorem State.renewed_modPage (s : State) (i : Nat) (f : CtxPage → CtxPage) : (s.modPage i f).renewed = s.renewed := rfl
@[simp] theorem State.bedLost_modPage (s : State) (i : Nat) (f : CtxPage → CtxPage) : (s.modPage i f).bedLost = s.bedLost := rfl
@[simp] theorem State.pending_modPage (s : State) (i : Nat) (f : CtxPage → CtxPage) : (s.modPage i f).pending = s.pending := rfl
@[simp] theorem State.timers_modPage (s : State) (i : Nat) (f : CtxPage → CtxPage) : (s.modPage i f).timers = s.timers := rfl
@[simp] theorem State.turns_modPage (s : State) (i : Nat) (f : CtxPage → CtxPage) : (s.modPage i f).turns = s.turns := rfl
@[simp] theorem State.cur_modPage (s : State) (i : Nat) (f : CtxPage → CtxPage) : (s.modPage i f).cur = s.cur := rfl
@[simp] theorem State.iword_modPage (s : State) (i : Nat) (f : CtxPage → CtxPage) : (s.modPage i f).iword = s.iword := rfl
@[simp] theorem State.cycle_modPage (s : State) (i : Nat) (f : CtxPage → CtxPage) : (s.modPage i f).cycle = s.cycle := rfl
@[simp] theorem State.scan_modPage (s : State) (i : Nat) (f : CtxPage → CtxPage) : (s.modPage i f).scan = s.scan := rfl
@[simp] theorem State.ending_modPage (s : State) (i : Nat) (f : CtxPage → CtxPage) : (s.modPage i f).ending = s.ending := rfl
@[simp] theorem State.free_modPage (s : State) (i : Nat) (f : CtxPage → CtxPage) : (s.modPage i f).free = s.free := rfl
@[simp] theorem State.nextUid_modPage (s : State) (i : Nat) (f : CtxPage → CtxPage) : (s.modPage i f).nextUid = s.nextUid := rfl
@[simp] theorem State.frozen_modPage (s : State) (i : Nat) (f : CtxPage → CtxPage) : (s.modPage i f).frozen = s.frozen := rfl
@[simp] theorem State.view_modPage (s : State) (i : Nat) (f : CtxPage → CtxPage) : (s.modPage i f).view = s.view := rfl
@[simp] theorem State.cxlData_modPage (s : State) (i : Nat) (f : CtxPage → CtxPage) : (s.modPage i f).cxlData = s.cxlData := rfl

/-! ## modCtx -/

@[simp] theorem State.mem_modCtx (s : State) (c : Nat) (f : CtxPage → CtxPage) : (s.modCtx c f).mem = s.mem := by unfold State.modCtx; split <;> rfl
@[simp] theorem State.empty_modCtx (s : State) (c : Nat) (f : CtxPage → CtxPage) : (s.modCtx c f).empty = s.empty := by unfold State.modCtx; split <;> rfl
@[simp] theorem State.poison_modCtx (s : State) (c : Nat) (f : CtxPage → CtxPage) : (s.modCtx c f).poison = s.poison := by unfold State.modCtx; split <;> rfl
@[simp] theorem State.near_modCtx (s : State) (c : Nat) (f : CtxPage → CtxPage) : (s.modCtx c f).near = s.near := by unfold State.modCtx; split <;> rfl
@[simp] theorem State.cached_modCtx (s : State) (c : Nat) (f : CtxPage → CtxPage) : (s.modCtx c f).cached = s.cached := by unfold State.modCtx; split <;> rfl
@[simp] theorem State.latent_modCtx (s : State) (c : Nat) (f : CtxPage → CtxPage) : (s.modCtx c f).latent = s.latent := by unfold State.modCtx; split <;> rfl
@[simp] theorem State.co_modCtx (s : State) (c : Nat) (f : CtxPage → CtxPage) : (s.modCtx c f).co = s.co := by unfold State.modCtx; split <;> rfl
@[simp] theorem State.stamps_modCtx (s : State) (c : Nat) (f : CtxPage → CtxPage) : (s.modCtx c f).stamps = s.stamps := by unfold State.modCtx; split <;> rfl
@[simp] theorem State.reserved_modCtx (s : State) (c : Nat) (f : CtxPage → CtxPage) : (s.modCtx c f).reserved = s.reserved := by unfold State.modCtx; split <;> rfl
@[simp] theorem State.threads_modCtx (s : State) (c : Nat) (f : CtxPage → CtxPage) : (s.modCtx c f).threads = s.threads := by unfold State.modCtx; split <;> rfl
@[simp] theorem State.cores_modCtx (s : State) (c : Nat) (f : CtxPage → CtxPage) : (s.modCtx c f).cores = s.cores := by unfold State.modCtx; split <;> rfl
@[simp] theorem State.setts_modCtx (s : State) (c : Nat) (f : CtxPage → CtxPage) : (s.modCtx c f).setts = s.setts := by unfold State.modCtx; split <;> rfl
@[simp] theorem State.tcache_modCtx (s : State) (c : Nat) (f : CtxPage → CtxPage) : (s.modCtx c f).tcache = s.tcache := by unfold State.modCtx; split <;> rfl
@[simp] theorem State.grants_modCtx (s : State) (c : Nat) (f : CtxPage → CtxPage) : (s.modCtx c f).grants = s.grants := by unfold State.modCtx; split <;> rfl
@[simp] theorem State.used_modCtx (s : State) (c : Nat) (f : CtxPage → CtxPage) : (s.modCtx c f).used = s.used := by unfold State.modCtx; split <;> rfl
@[simp] theorem State.mapped_modCtx (s : State) (c : Nat) (f : CtxPage → CtxPage) : (s.modCtx c f).mapped = s.mapped := by unfold State.modCtx; split <;> rfl
@[simp] theorem State.faultq_modCtx (s : State) (c : Nat) (f : CtxPage → CtxPage) : (s.modCtx c f).faultq = s.faultq := by unfold State.modCtx; split <;> rfl
@[simp] theorem State.waiters_modCtx (s : State) (c : Nat) (f : CtxPage → CtxPage) : (s.modCtx c f).waiters = s.waiters := by unfold State.modCtx; split <;> rfl
@[simp] theorem State.watches_modCtx (s : State) (c : Nat) (f : CtxPage → CtxPage) : (s.modCtx c f).watches = s.watches := by unfold State.modCtx; split <;> rfl
@[simp] theorem State.nextWatch_modCtx (s : State) (c : Nat) (f : CtxPage → CtxPage) : (s.modCtx c f).nextWatch = s.nextWatch := by unfold State.modCtx; split <;> rfl
@[simp] theorem State.groups_modCtx (s : State) (c : Nat) (f : CtxPage → CtxPage) : (s.modCtx c f).groups = s.groups := by unfold State.modCtx; split <;> rfl
@[simp] theorem State.outbox_modCtx (s : State) (c : Nat) (f : CtxPage → CtxPage) : (s.modCtx c f).outbox = s.outbox := by unfold State.modCtx; split <;> rfl
@[simp] theorem State.launches_modCtx (s : State) (c : Nat) (f : CtxPage → CtxPage) : (s.modCtx c f).launches = s.launches := by unfold State.modCtx; split <;> rfl
@[simp] theorem State.nextKey_modCtx (s : State) (c : Nat) (f : CtxPage → CtxPage) : (s.modCtx c f).nextKey = s.nextKey := by unfold State.modCtx; split <;> rfl
@[simp] theorem State.served_modCtx (s : State) (c : Nat) (f : CtxPage → CtxPage) : (s.modCtx c f).served = s.served := by unfold State.modCtx; split <;> rfl
@[simp] theorem State.handles_modCtx (s : State) (c : Nat) (f : CtxPage → CtxPage) : (s.modCtx c f).handles = s.handles := by unfold State.modCtx; split <;> rfl
@[simp] theorem State.syncs_modCtx (s : State) (c : Nat) (f : CtxPage → CtxPage) : (s.modCtx c f).syncs = s.syncs := by unfold State.modCtx; split <;> rfl
@[simp] theorem State.saved_modCtx (s : State) (c : Nat) (f : CtxPage → CtxPage) : (s.modCtx c f).saved = s.saved := by unfold State.modCtx; split <;> rfl
@[simp] theorem State.device_modCtx (s : State) (c : Nat) (f : CtxPage → CtxPage) : (s.modCtx c f).device = s.device := by unfold State.modCtx; split <;> rfl
@[simp] theorem State.ageing_modCtx (s : State) (c : Nat) (f : CtxPage → CtxPage) : (s.modCtx c f).ageing = s.ageing := by unfold State.modCtx; split <;> rfl
@[simp] theorem State.bankLimit_modCtx (s : State) (c : Nat) (f : CtxPage → CtxPage) : (s.modCtx c f).bankLimit = s.bankLimit := by unfold State.modCtx; split <;> rfl
@[simp] theorem State.threshold_modCtx (s : State) (c : Nat) (f : CtxPage → CtxPage) : (s.modCtx c f).threshold = s.threshold := by unfold State.modCtx; split <;> rfl
@[simp] theorem State.lostStacks_modCtx (s : State) (c : Nat) (f : CtxPage → CtxPage) : (s.modCtx c f).lostStacks = s.lostStacks := by unfold State.modCtx; split <;> rfl
@[simp] theorem State.lostLinks_modCtx (s : State) (c : Nat) (f : CtxPage → CtxPage) : (s.modCtx c f).lostLinks = s.lostLinks := by unfold State.modCtx; split <;> rfl
@[simp] theorem State.lostDevs_modCtx (s : State) (c : Nat) (f : CtxPage → CtxPage) : (s.modCtx c f).lostDevs = s.lostDevs := by unfold State.modCtx; split <;> rfl
@[simp] theorem State.lostPorts_modCtx (s : State) (c : Nat) (f : CtxPage → CtxPage) : (s.modCtx c f).lostPorts = s.lostPorts := by unfold State.modCtx; split <;> rfl
@[simp] theorem State.lostHomes_modCtx (s : State) (c : Nat) (f : CtxPage → CtxPage) : (s.modCtx c f).lostHomes = s.lostHomes := by unfold State.modCtx; split <;> rfl
@[simp] theorem State.renewed_modCtx (s : State) (c : Nat) (f : CtxPage → CtxPage) : (s.modCtx c f).renewed = s.renewed := by unfold State.modCtx; split <;> rfl
@[simp] theorem State.bedLost_modCtx (s : State) (c : Nat) (f : CtxPage → CtxPage) : (s.modCtx c f).bedLost = s.bedLost := by unfold State.modCtx; split <;> rfl
@[simp] theorem State.pending_modCtx (s : State) (c : Nat) (f : CtxPage → CtxPage) : (s.modCtx c f).pending = s.pending := by unfold State.modCtx; split <;> rfl
@[simp] theorem State.timers_modCtx (s : State) (c : Nat) (f : CtxPage → CtxPage) : (s.modCtx c f).timers = s.timers := by unfold State.modCtx; split <;> rfl
@[simp] theorem State.turns_modCtx (s : State) (c : Nat) (f : CtxPage → CtxPage) : (s.modCtx c f).turns = s.turns := by unfold State.modCtx; split <;> rfl
@[simp] theorem State.cur_modCtx (s : State) (c : Nat) (f : CtxPage → CtxPage) : (s.modCtx c f).cur = s.cur := by unfold State.modCtx; split <;> rfl
@[simp] theorem State.iword_modCtx (s : State) (c : Nat) (f : CtxPage → CtxPage) : (s.modCtx c f).iword = s.iword := by unfold State.modCtx; split <;> rfl
@[simp] theorem State.cycle_modCtx (s : State) (c : Nat) (f : CtxPage → CtxPage) : (s.modCtx c f).cycle = s.cycle := by unfold State.modCtx; split <;> rfl
@[simp] theorem State.scan_modCtx (s : State) (c : Nat) (f : CtxPage → CtxPage) : (s.modCtx c f).scan = s.scan := by unfold State.modCtx; split <;> rfl
@[simp] theorem State.ending_modCtx (s : State) (c : Nat) (f : CtxPage → CtxPage) : (s.modCtx c f).ending = s.ending := by unfold State.modCtx; split <;> rfl
@[simp] theorem State.free_modCtx (s : State) (c : Nat) (f : CtxPage → CtxPage) : (s.modCtx c f).free = s.free := by unfold State.modCtx; split <;> rfl
@[simp] theorem State.nextUid_modCtx (s : State) (c : Nat) (f : CtxPage → CtxPage) : (s.modCtx c f).nextUid = s.nextUid := by unfold State.modCtx; split <;> rfl
@[simp] theorem State.frozen_modCtx (s : State) (c : Nat) (f : CtxPage → CtxPage) : (s.modCtx c f).frozen = s.frozen := by unfold State.modCtx; split <;> rfl
@[simp] theorem State.view_modCtx (s : State) (c : Nat) (f : CtxPage → CtxPage) : (s.modCtx c f).view = s.view := by unfold State.modCtx; split <;> rfl
@[simp] theorem State.cxlData_modCtx (s : State) (c : Nat) (f : CtxPage → CtxPage) : (s.modCtx c f).cxlData = s.cxlData := by unfold State.modCtx; split <;> rfl

/-! ## push -/

@[simp] theorem State.mem_push (s : State) (e : Event) : (s.push e).mem = s.mem := rfl
@[simp] theorem State.empty_push (s : State) (e : Event) : (s.push e).empty = s.empty := rfl
@[simp] theorem State.poison_push (s : State) (e : Event) : (s.push e).poison = s.poison := rfl
@[simp] theorem State.near_push (s : State) (e : Event) : (s.push e).near = s.near := rfl
@[simp] theorem State.cached_push (s : State) (e : Event) : (s.push e).cached = s.cached := rfl
@[simp] theorem State.latent_push (s : State) (e : Event) : (s.push e).latent = s.latent := rfl
@[simp] theorem State.co_push (s : State) (e : Event) : (s.push e).co = s.co := rfl
@[simp] theorem State.stamps_push (s : State) (e : Event) : (s.push e).stamps = s.stamps := rfl
@[simp] theorem State.reserved_push (s : State) (e : Event) : (s.push e).reserved = s.reserved := rfl
@[simp] theorem State.threads_push (s : State) (e : Event) : (s.push e).threads = s.threads := rfl
@[simp] theorem State.cores_push (s : State) (e : Event) : (s.push e).cores = s.cores := rfl
@[simp] theorem State.setts_push (s : State) (e : Event) : (s.push e).setts = s.setts := rfl
@[simp] theorem State.tcache_push (s : State) (e : Event) : (s.push e).tcache = s.tcache := rfl
@[simp] theorem State.grants_push (s : State) (e : Event) : (s.push e).grants = s.grants := rfl
@[simp] theorem State.used_push (s : State) (e : Event) : (s.push e).used = s.used := rfl
@[simp] theorem State.mapped_push (s : State) (e : Event) : (s.push e).mapped = s.mapped := rfl
@[simp] theorem State.faultq_push (s : State) (e : Event) : (s.push e).faultq = s.faultq := rfl
@[simp] theorem State.waiters_push (s : State) (e : Event) : (s.push e).waiters = s.waiters := rfl
@[simp] theorem State.watches_push (s : State) (e : Event) : (s.push e).watches = s.watches := rfl
@[simp] theorem State.nextWatch_push (s : State) (e : Event) : (s.push e).nextWatch = s.nextWatch := rfl
@[simp] theorem State.groups_push (s : State) (e : Event) : (s.push e).groups = s.groups := rfl
@[simp] theorem State.outbox_push (s : State) (e : Event) : (s.push e).outbox = s.outbox := rfl
@[simp] theorem State.launches_push (s : State) (e : Event) : (s.push e).launches = s.launches := rfl
@[simp] theorem State.nextKey_push (s : State) (e : Event) : (s.push e).nextKey = s.nextKey := rfl
@[simp] theorem State.served_push (s : State) (e : Event) : (s.push e).served = s.served := rfl
@[simp] theorem State.handles_push (s : State) (e : Event) : (s.push e).handles = s.handles := rfl
@[simp] theorem State.syncs_push (s : State) (e : Event) : (s.push e).syncs = s.syncs := rfl
@[simp] theorem State.saved_push (s : State) (e : Event) : (s.push e).saved = s.saved := rfl
@[simp] theorem State.ctxs_push (s : State) (e : Event) : (s.push e).ctxs = s.ctxs := rfl
@[simp] theorem State.device_push (s : State) (e : Event) : (s.push e).device = s.device := rfl
@[simp] theorem State.ageing_push (s : State) (e : Event) : (s.push e).ageing = s.ageing := rfl
@[simp] theorem State.bankLimit_push (s : State) (e : Event) : (s.push e).bankLimit = s.bankLimit := rfl
@[simp] theorem State.threshold_push (s : State) (e : Event) : (s.push e).threshold = s.threshold := rfl
@[simp] theorem State.lostStacks_push (s : State) (e : Event) : (s.push e).lostStacks = s.lostStacks := rfl
@[simp] theorem State.lostLinks_push (s : State) (e : Event) : (s.push e).lostLinks = s.lostLinks := rfl
@[simp] theorem State.lostDevs_push (s : State) (e : Event) : (s.push e).lostDevs = s.lostDevs := rfl
@[simp] theorem State.lostPorts_push (s : State) (e : Event) : (s.push e).lostPorts = s.lostPorts := rfl
@[simp] theorem State.lostHomes_push (s : State) (e : Event) : (s.push e).lostHomes = s.lostHomes := rfl
@[simp] theorem State.renewed_push (s : State) (e : Event) : (s.push e).renewed = s.renewed := rfl
@[simp] theorem State.bedLost_push (s : State) (e : Event) : (s.push e).bedLost = s.bedLost := rfl
@[simp] theorem State.timers_push (s : State) (e : Event) : (s.push e).timers = s.timers := rfl
@[simp] theorem State.turns_push (s : State) (e : Event) : (s.push e).turns = s.turns := rfl
@[simp] theorem State.cur_push (s : State) (e : Event) : (s.push e).cur = s.cur := rfl
@[simp] theorem State.iword_push (s : State) (e : Event) : (s.push e).iword = s.iword := rfl
@[simp] theorem State.cycle_push (s : State) (e : Event) : (s.push e).cycle = s.cycle := rfl
@[simp] theorem State.scan_push (s : State) (e : Event) : (s.push e).scan = s.scan := rfl
@[simp] theorem State.ending_push (s : State) (e : Event) : (s.push e).ending = s.ending := rfl
@[simp] theorem State.free_push (s : State) (e : Event) : (s.push e).free = s.free := rfl
@[simp] theorem State.nextUid_push (s : State) (e : Event) : (s.push e).nextUid = s.nextUid := rfl
@[simp] theorem State.frozen_push (s : State) (e : Event) : (s.push e).frozen = s.frozen := rfl
@[simp] theorem State.view_push (s : State) (e : Event) : (s.push e).view = s.view := rfl
@[simp] theorem State.cxlData_push (s : State) (e : Event) : (s.push e).cxlData = s.cxlData := rfl

/-! ## after -/

@[simp] theorem State.mem_after (s : State) (n : Nat) (e : Event) : (s.after n e).mem = s.mem := rfl
@[simp] theorem State.empty_after (s : State) (n : Nat) (e : Event) : (s.after n e).empty = s.empty := rfl
@[simp] theorem State.poison_after (s : State) (n : Nat) (e : Event) : (s.after n e).poison = s.poison := rfl
@[simp] theorem State.near_after (s : State) (n : Nat) (e : Event) : (s.after n e).near = s.near := rfl
@[simp] theorem State.cached_after (s : State) (n : Nat) (e : Event) : (s.after n e).cached = s.cached := rfl
@[simp] theorem State.latent_after (s : State) (n : Nat) (e : Event) : (s.after n e).latent = s.latent := rfl
@[simp] theorem State.co_after (s : State) (n : Nat) (e : Event) : (s.after n e).co = s.co := rfl
@[simp] theorem State.stamps_after (s : State) (n : Nat) (e : Event) : (s.after n e).stamps = s.stamps := rfl
@[simp] theorem State.reserved_after (s : State) (n : Nat) (e : Event) : (s.after n e).reserved = s.reserved := rfl
@[simp] theorem State.threads_after (s : State) (n : Nat) (e : Event) : (s.after n e).threads = s.threads := rfl
@[simp] theorem State.cores_after (s : State) (n : Nat) (e : Event) : (s.after n e).cores = s.cores := rfl
@[simp] theorem State.setts_after (s : State) (n : Nat) (e : Event) : (s.after n e).setts = s.setts := rfl
@[simp] theorem State.tcache_after (s : State) (n : Nat) (e : Event) : (s.after n e).tcache = s.tcache := rfl
@[simp] theorem State.grants_after (s : State) (n : Nat) (e : Event) : (s.after n e).grants = s.grants := rfl
@[simp] theorem State.used_after (s : State) (n : Nat) (e : Event) : (s.after n e).used = s.used := rfl
@[simp] theorem State.mapped_after (s : State) (n : Nat) (e : Event) : (s.after n e).mapped = s.mapped := rfl
@[simp] theorem State.faultq_after (s : State) (n : Nat) (e : Event) : (s.after n e).faultq = s.faultq := rfl
@[simp] theorem State.waiters_after (s : State) (n : Nat) (e : Event) : (s.after n e).waiters = s.waiters := rfl
@[simp] theorem State.watches_after (s : State) (n : Nat) (e : Event) : (s.after n e).watches = s.watches := rfl
@[simp] theorem State.nextWatch_after (s : State) (n : Nat) (e : Event) : (s.after n e).nextWatch = s.nextWatch := rfl
@[simp] theorem State.groups_after (s : State) (n : Nat) (e : Event) : (s.after n e).groups = s.groups := rfl
@[simp] theorem State.outbox_after (s : State) (n : Nat) (e : Event) : (s.after n e).outbox = s.outbox := rfl
@[simp] theorem State.launches_after (s : State) (n : Nat) (e : Event) : (s.after n e).launches = s.launches := rfl
@[simp] theorem State.nextKey_after (s : State) (n : Nat) (e : Event) : (s.after n e).nextKey = s.nextKey := rfl
@[simp] theorem State.served_after (s : State) (n : Nat) (e : Event) : (s.after n e).served = s.served := rfl
@[simp] theorem State.handles_after (s : State) (n : Nat) (e : Event) : (s.after n e).handles = s.handles := rfl
@[simp] theorem State.syncs_after (s : State) (n : Nat) (e : Event) : (s.after n e).syncs = s.syncs := rfl
@[simp] theorem State.saved_after (s : State) (n : Nat) (e : Event) : (s.after n e).saved = s.saved := rfl
@[simp] theorem State.ctxs_after (s : State) (n : Nat) (e : Event) : (s.after n e).ctxs = s.ctxs := rfl
@[simp] theorem State.device_after (s : State) (n : Nat) (e : Event) : (s.after n e).device = s.device := rfl
@[simp] theorem State.ageing_after (s : State) (n : Nat) (e : Event) : (s.after n e).ageing = s.ageing := rfl
@[simp] theorem State.bankLimit_after (s : State) (n : Nat) (e : Event) : (s.after n e).bankLimit = s.bankLimit := rfl
@[simp] theorem State.threshold_after (s : State) (n : Nat) (e : Event) : (s.after n e).threshold = s.threshold := rfl
@[simp] theorem State.lostStacks_after (s : State) (n : Nat) (e : Event) : (s.after n e).lostStacks = s.lostStacks := rfl
@[simp] theorem State.lostLinks_after (s : State) (n : Nat) (e : Event) : (s.after n e).lostLinks = s.lostLinks := rfl
@[simp] theorem State.lostDevs_after (s : State) (n : Nat) (e : Event) : (s.after n e).lostDevs = s.lostDevs := rfl
@[simp] theorem State.lostPorts_after (s : State) (n : Nat) (e : Event) : (s.after n e).lostPorts = s.lostPorts := rfl
@[simp] theorem State.lostHomes_after (s : State) (n : Nat) (e : Event) : (s.after n e).lostHomes = s.lostHomes := rfl
@[simp] theorem State.renewed_after (s : State) (n : Nat) (e : Event) : (s.after n e).renewed = s.renewed := rfl
@[simp] theorem State.bedLost_after (s : State) (n : Nat) (e : Event) : (s.after n e).bedLost = s.bedLost := rfl
@[simp] theorem State.pending_after (s : State) (n : Nat) (e : Event) : (s.after n e).pending = s.pending := rfl
@[simp] theorem State.turns_after (s : State) (n : Nat) (e : Event) : (s.after n e).turns = s.turns := rfl
@[simp] theorem State.cur_after (s : State) (n : Nat) (e : Event) : (s.after n e).cur = s.cur := rfl
@[simp] theorem State.iword_after (s : State) (n : Nat) (e : Event) : (s.after n e).iword = s.iword := rfl
@[simp] theorem State.cycle_after (s : State) (n : Nat) (e : Event) : (s.after n e).cycle = s.cycle := rfl
@[simp] theorem State.scan_after (s : State) (n : Nat) (e : Event) : (s.after n e).scan = s.scan := rfl
@[simp] theorem State.ending_after (s : State) (n : Nat) (e : Event) : (s.after n e).ending = s.ending := rfl
@[simp] theorem State.free_after (s : State) (n : Nat) (e : Event) : (s.after n e).free = s.free := rfl
@[simp] theorem State.nextUid_after (s : State) (n : Nat) (e : Event) : (s.after n e).nextUid = s.nextUid := rfl
@[simp] theorem State.frozen_after (s : State) (n : Nat) (e : Event) : (s.after n e).frozen = s.frozen := rfl
@[simp] theorem State.view_after (s : State) (n : Nat) (e : Event) : (s.after n e).view = s.view := rfl
@[simp] theorem State.cxlData_after (s : State) (n : Nat) (e : Event) : (s.after n e).cxlData = s.cxlData := rfl

/-! ## count -/

@[simp] theorem State.mem_count (s : State) (c i n : Nat) : (s.count c i n).mem = s.mem := rfl
@[simp] theorem State.empty_count (s : State) (c i n : Nat) : (s.count c i n).empty = s.empty := rfl
@[simp] theorem State.poison_count (s : State) (c i n : Nat) : (s.count c i n).poison = s.poison := rfl
@[simp] theorem State.near_count (s : State) (c i n : Nat) : (s.count c i n).near = s.near := rfl
@[simp] theorem State.cached_count (s : State) (c i n : Nat) : (s.count c i n).cached = s.cached := rfl
@[simp] theorem State.latent_count (s : State) (c i n : Nat) : (s.count c i n).latent = s.latent := rfl
@[simp] theorem State.co_count (s : State) (c i n : Nat) : (s.count c i n).co = s.co := rfl
@[simp] theorem State.stamps_count (s : State) (c i n : Nat) : (s.count c i n).stamps = s.stamps := rfl
@[simp] theorem State.reserved_count (s : State) (c i n : Nat) : (s.count c i n).reserved = s.reserved := rfl
@[simp] theorem State.threads_count (s : State) (c i n : Nat) : (s.count c i n).threads = s.threads := rfl
@[simp] theorem State.setts_count (s : State) (c i n : Nat) : (s.count c i n).setts = s.setts := rfl
@[simp] theorem State.tcache_count (s : State) (c i n : Nat) : (s.count c i n).tcache = s.tcache := rfl
@[simp] theorem State.grants_count (s : State) (c i n : Nat) : (s.count c i n).grants = s.grants := rfl
@[simp] theorem State.used_count (s : State) (c i n : Nat) : (s.count c i n).used = s.used := rfl
@[simp] theorem State.mapped_count (s : State) (c i n : Nat) : (s.count c i n).mapped = s.mapped := rfl
@[simp] theorem State.faultq_count (s : State) (c i n : Nat) : (s.count c i n).faultq = s.faultq := rfl
@[simp] theorem State.waiters_count (s : State) (c i n : Nat) : (s.count c i n).waiters = s.waiters := rfl
@[simp] theorem State.watches_count (s : State) (c i n : Nat) : (s.count c i n).watches = s.watches := rfl
@[simp] theorem State.nextWatch_count (s : State) (c i n : Nat) : (s.count c i n).nextWatch = s.nextWatch := rfl
@[simp] theorem State.groups_count (s : State) (c i n : Nat) : (s.count c i n).groups = s.groups := rfl
@[simp] theorem State.outbox_count (s : State) (c i n : Nat) : (s.count c i n).outbox = s.outbox := rfl
@[simp] theorem State.launches_count (s : State) (c i n : Nat) : (s.count c i n).launches = s.launches := rfl
@[simp] theorem State.nextKey_count (s : State) (c i n : Nat) : (s.count c i n).nextKey = s.nextKey := rfl
@[simp] theorem State.served_count (s : State) (c i n : Nat) : (s.count c i n).served = s.served := rfl
@[simp] theorem State.handles_count (s : State) (c i n : Nat) : (s.count c i n).handles = s.handles := rfl
@[simp] theorem State.syncs_count (s : State) (c i n : Nat) : (s.count c i n).syncs = s.syncs := rfl
@[simp] theorem State.saved_count (s : State) (c i n : Nat) : (s.count c i n).saved = s.saved := rfl
@[simp] theorem State.ctxs_count (s : State) (c i n : Nat) : (s.count c i n).ctxs = s.ctxs := rfl
@[simp] theorem State.device_count (s : State) (c i n : Nat) : (s.count c i n).device = s.device := rfl
@[simp] theorem State.ageing_count (s : State) (c i n : Nat) : (s.count c i n).ageing = s.ageing := rfl
@[simp] theorem State.bankLimit_count (s : State) (c i n : Nat) : (s.count c i n).bankLimit = s.bankLimit := rfl
@[simp] theorem State.threshold_count (s : State) (c i n : Nat) : (s.count c i n).threshold = s.threshold := rfl
@[simp] theorem State.lostStacks_count (s : State) (c i n : Nat) : (s.count c i n).lostStacks = s.lostStacks := rfl
@[simp] theorem State.lostLinks_count (s : State) (c i n : Nat) : (s.count c i n).lostLinks = s.lostLinks := rfl
@[simp] theorem State.lostDevs_count (s : State) (c i n : Nat) : (s.count c i n).lostDevs = s.lostDevs := rfl
@[simp] theorem State.lostPorts_count (s : State) (c i n : Nat) : (s.count c i n).lostPorts = s.lostPorts := rfl
@[simp] theorem State.lostHomes_count (s : State) (c i n : Nat) : (s.count c i n).lostHomes = s.lostHomes := rfl
@[simp] theorem State.renewed_count (s : State) (c i n : Nat) : (s.count c i n).renewed = s.renewed := rfl
@[simp] theorem State.bedLost_count (s : State) (c i n : Nat) : (s.count c i n).bedLost = s.bedLost := rfl
@[simp] theorem State.pending_count (s : State) (c i n : Nat) : (s.count c i n).pending = s.pending := rfl
@[simp] theorem State.timers_count (s : State) (c i n : Nat) : (s.count c i n).timers = s.timers := rfl
@[simp] theorem State.turns_count (s : State) (c i n : Nat) : (s.count c i n).turns = s.turns := rfl
@[simp] theorem State.cur_count (s : State) (c i n : Nat) : (s.count c i n).cur = s.cur := rfl
@[simp] theorem State.iword_count (s : State) (c i n : Nat) : (s.count c i n).iword = s.iword := rfl
@[simp] theorem State.cycle_count (s : State) (c i n : Nat) : (s.count c i n).cycle = s.cycle := rfl
@[simp] theorem State.scan_count (s : State) (c i n : Nat) : (s.count c i n).scan = s.scan := rfl
@[simp] theorem State.ending_count (s : State) (c i n : Nat) : (s.count c i n).ending = s.ending := rfl
@[simp] theorem State.free_count (s : State) (c i n : Nat) : (s.count c i n).free = s.free := rfl
@[simp] theorem State.nextUid_count (s : State) (c i n : Nat) : (s.count c i n).nextUid = s.nextUid := rfl
@[simp] theorem State.frozen_count (s : State) (c i n : Nat) : (s.count c i n).frozen = s.frozen := rfl
@[simp] theorem State.view_count (s : State) (c i n : Nat) : (s.count c i n).view = s.view := rfl
@[simp] theorem State.cxlData_count (s : State) (c i n : Nat) : (s.count c i n).cxlData = s.cxlData := rfl

/-! ## progress -/

@[simp] theorem State.mem_progress (s : State) (c : Nat) : (s.progress c).mem = s.mem := by unfold State.progress State.restartDog; split <;> simp
@[simp] theorem State.empty_progress (s : State) (c : Nat) : (s.progress c).empty = s.empty := by unfold State.progress State.restartDog; split <;> simp
@[simp] theorem State.poison_progress (s : State) (c : Nat) : (s.progress c).poison = s.poison := by unfold State.progress State.restartDog; split <;> simp
@[simp] theorem State.near_progress (s : State) (c : Nat) : (s.progress c).near = s.near := by unfold State.progress State.restartDog; split <;> simp
@[simp] theorem State.cached_progress (s : State) (c : Nat) : (s.progress c).cached = s.cached := by unfold State.progress State.restartDog; split <;> simp
@[simp] theorem State.latent_progress (s : State) (c : Nat) : (s.progress c).latent = s.latent := by unfold State.progress State.restartDog; split <;> simp
@[simp] theorem State.co_progress (s : State) (c : Nat) : (s.progress c).co = s.co := by unfold State.progress State.restartDog; split <;> simp
@[simp] theorem State.stamps_progress (s : State) (c : Nat) : (s.progress c).stamps = s.stamps := by unfold State.progress State.restartDog; split <;> simp
@[simp] theorem State.reserved_progress (s : State) (c : Nat) : (s.progress c).reserved = s.reserved := by unfold State.progress State.restartDog; split <;> simp
@[simp] theorem State.threads_progress (s : State) (c : Nat) : (s.progress c).threads = s.threads := by unfold State.progress State.restartDog; split <;> simp
@[simp] theorem State.cores_progress (s : State) (c : Nat) : (s.progress c).cores = s.cores := by unfold State.progress State.restartDog; split <;> simp
@[simp] theorem State.setts_progress (s : State) (c : Nat) : (s.progress c).setts = s.setts := by unfold State.progress State.restartDog; split <;> simp
@[simp] theorem State.tcache_progress (s : State) (c : Nat) : (s.progress c).tcache = s.tcache := by unfold State.progress State.restartDog; split <;> simp
@[simp] theorem State.grants_progress (s : State) (c : Nat) : (s.progress c).grants = s.grants := by unfold State.progress State.restartDog; split <;> simp
@[simp] theorem State.used_progress (s : State) (c : Nat) : (s.progress c).used = s.used := by unfold State.progress State.restartDog; split <;> simp
@[simp] theorem State.mapped_progress (s : State) (c : Nat) : (s.progress c).mapped = s.mapped := by unfold State.progress State.restartDog; split <;> simp
@[simp] theorem State.faultq_progress (s : State) (c : Nat) : (s.progress c).faultq = s.faultq := by unfold State.progress State.restartDog; split <;> simp
@[simp] theorem State.waiters_progress (s : State) (c : Nat) : (s.progress c).waiters = s.waiters := by unfold State.progress State.restartDog; split <;> simp
@[simp] theorem State.watches_progress (s : State) (c : Nat) : (s.progress c).watches = s.watches := by unfold State.progress State.restartDog; split <;> simp
@[simp] theorem State.nextWatch_progress (s : State) (c : Nat) : (s.progress c).nextWatch = s.nextWatch := by unfold State.progress State.restartDog; split <;> simp
@[simp] theorem State.groups_progress (s : State) (c : Nat) : (s.progress c).groups = s.groups := by unfold State.progress State.restartDog; split <;> simp
@[simp] theorem State.outbox_progress (s : State) (c : Nat) : (s.progress c).outbox = s.outbox := by unfold State.progress State.restartDog; split <;> simp
@[simp] theorem State.launches_progress (s : State) (c : Nat) : (s.progress c).launches = s.launches := by unfold State.progress State.restartDog; split <;> simp
@[simp] theorem State.nextKey_progress (s : State) (c : Nat) : (s.progress c).nextKey = s.nextKey := by unfold State.progress State.restartDog; split <;> simp
@[simp] theorem State.served_progress (s : State) (c : Nat) : (s.progress c).served = s.served := by unfold State.progress State.restartDog; split <;> simp
@[simp] theorem State.handles_progress (s : State) (c : Nat) : (s.progress c).handles = s.handles := by unfold State.progress State.restartDog; split <;> simp
@[simp] theorem State.syncs_progress (s : State) (c : Nat) : (s.progress c).syncs = s.syncs := by unfold State.progress State.restartDog; split <;> simp
@[simp] theorem State.saved_progress (s : State) (c : Nat) : (s.progress c).saved = s.saved := by unfold State.progress State.restartDog; split <;> simp
@[simp] theorem State.device_progress (s : State) (c : Nat) : (s.progress c).device = s.device := by unfold State.progress State.restartDog; split <;> simp
@[simp] theorem State.ageing_progress (s : State) (c : Nat) : (s.progress c).ageing = s.ageing := by unfold State.progress State.restartDog; split <;> simp
@[simp] theorem State.bankLimit_progress (s : State) (c : Nat) : (s.progress c).bankLimit = s.bankLimit := by unfold State.progress State.restartDog; split <;> simp
@[simp] theorem State.threshold_progress (s : State) (c : Nat) : (s.progress c).threshold = s.threshold := by unfold State.progress State.restartDog; split <;> simp
@[simp] theorem State.lostStacks_progress (s : State) (c : Nat) : (s.progress c).lostStacks = s.lostStacks := by unfold State.progress State.restartDog; split <;> simp
@[simp] theorem State.lostLinks_progress (s : State) (c : Nat) : (s.progress c).lostLinks = s.lostLinks := by unfold State.progress State.restartDog; split <;> simp
@[simp] theorem State.lostDevs_progress (s : State) (c : Nat) : (s.progress c).lostDevs = s.lostDevs := by unfold State.progress State.restartDog; split <;> simp
@[simp] theorem State.lostPorts_progress (s : State) (c : Nat) : (s.progress c).lostPorts = s.lostPorts := by unfold State.progress State.restartDog; split <;> simp
@[simp] theorem State.lostHomes_progress (s : State) (c : Nat) : (s.progress c).lostHomes = s.lostHomes := by unfold State.progress State.restartDog; split <;> simp
@[simp] theorem State.renewed_progress (s : State) (c : Nat) : (s.progress c).renewed = s.renewed := by unfold State.progress State.restartDog; split <;> simp
@[simp] theorem State.bedLost_progress (s : State) (c : Nat) : (s.progress c).bedLost = s.bedLost := by unfold State.progress State.restartDog; split <;> simp
@[simp] theorem State.pending_progress (s : State) (c : Nat) : (s.progress c).pending = s.pending := by unfold State.progress State.restartDog; split <;> simp
@[simp] theorem State.timers_progress (s : State) (c : Nat) : (s.progress c).timers = s.timers := by unfold State.progress State.restartDog; split <;> simp
@[simp] theorem State.turns_progress (s : State) (c : Nat) : (s.progress c).turns = s.turns := by unfold State.progress State.restartDog; split <;> simp
@[simp] theorem State.cur_progress (s : State) (c : Nat) : (s.progress c).cur = s.cur := by unfold State.progress State.restartDog; split <;> simp
@[simp] theorem State.iword_progress (s : State) (c : Nat) : (s.progress c).iword = s.iword := by unfold State.progress State.restartDog; split <;> simp
@[simp] theorem State.cycle_progress (s : State) (c : Nat) : (s.progress c).cycle = s.cycle := by unfold State.progress State.restartDog; split <;> simp
@[simp] theorem State.scan_progress (s : State) (c : Nat) : (s.progress c).scan = s.scan := by unfold State.progress State.restartDog; split <;> simp
@[simp] theorem State.ending_progress (s : State) (c : Nat) : (s.progress c).ending = s.ending := by unfold State.progress State.restartDog; split <;> simp
@[simp] theorem State.free_progress (s : State) (c : Nat) : (s.progress c).free = s.free := by unfold State.progress State.restartDog; split <;> simp
@[simp] theorem State.nextUid_progress (s : State) (c : Nat) : (s.progress c).nextUid = s.nextUid := by unfold State.progress State.restartDog; split <;> simp
@[simp] theorem State.frozen_progress (s : State) (c : Nat) : (s.progress c).frozen = s.frozen := by unfold State.progress State.restartDog; split <;> simp
@[simp] theorem State.view_progress (s : State) (c : Nat) : (s.progress c).view = s.view := by unfold State.progress State.restartDog; split <;> simp
@[simp] theorem State.cxlData_progress (s : State) (c : Nat) : (s.progress c).cxlData = s.cxlData := by unfold State.progress State.restartDog; split <;> simp

/-! ## setFull -/

@[simp] theorem State.mem_setFull (s : State) (w : Nat) (f : Bool) : (s.setFull w f).mem = s.mem := rfl
@[simp] theorem State.poison_setFull (s : State) (w : Nat) (f : Bool) : (s.setFull w f).poison = s.poison := rfl
@[simp] theorem State.near_setFull (s : State) (w : Nat) (f : Bool) : (s.setFull w f).near = s.near := rfl
@[simp] theorem State.cached_setFull (s : State) (w : Nat) (f : Bool) : (s.setFull w f).cached = s.cached := rfl
@[simp] theorem State.latent_setFull (s : State) (w : Nat) (f : Bool) : (s.setFull w f).latent = s.latent := rfl
@[simp] theorem State.co_setFull (s : State) (w : Nat) (f : Bool) : (s.setFull w f).co = s.co := rfl
@[simp] theorem State.stamps_setFull (s : State) (w : Nat) (f : Bool) : (s.setFull w f).stamps = s.stamps := rfl
@[simp] theorem State.reserved_setFull (s : State) (w : Nat) (f : Bool) : (s.setFull w f).reserved = s.reserved := rfl
@[simp] theorem State.threads_setFull (s : State) (w : Nat) (f : Bool) : (s.setFull w f).threads = s.threads := rfl
@[simp] theorem State.cores_setFull (s : State) (w : Nat) (f : Bool) : (s.setFull w f).cores = s.cores := rfl
@[simp] theorem State.setts_setFull (s : State) (w : Nat) (f : Bool) : (s.setFull w f).setts = s.setts := rfl
@[simp] theorem State.tcache_setFull (s : State) (w : Nat) (f : Bool) : (s.setFull w f).tcache = s.tcache := rfl
@[simp] theorem State.grants_setFull (s : State) (w : Nat) (f : Bool) : (s.setFull w f).grants = s.grants := rfl
@[simp] theorem State.used_setFull (s : State) (w : Nat) (f : Bool) : (s.setFull w f).used = s.used := rfl
@[simp] theorem State.mapped_setFull (s : State) (w : Nat) (f : Bool) : (s.setFull w f).mapped = s.mapped := rfl
@[simp] theorem State.faultq_setFull (s : State) (w : Nat) (f : Bool) : (s.setFull w f).faultq = s.faultq := rfl
@[simp] theorem State.waiters_setFull (s : State) (w : Nat) (f : Bool) : (s.setFull w f).waiters = s.waiters := rfl
@[simp] theorem State.watches_setFull (s : State) (w : Nat) (f : Bool) : (s.setFull w f).watches = s.watches := rfl
@[simp] theorem State.nextWatch_setFull (s : State) (w : Nat) (f : Bool) : (s.setFull w f).nextWatch = s.nextWatch := rfl
@[simp] theorem State.groups_setFull (s : State) (w : Nat) (f : Bool) : (s.setFull w f).groups = s.groups := rfl
@[simp] theorem State.outbox_setFull (s : State) (w : Nat) (f : Bool) : (s.setFull w f).outbox = s.outbox := rfl
@[simp] theorem State.launches_setFull (s : State) (w : Nat) (f : Bool) : (s.setFull w f).launches = s.launches := rfl
@[simp] theorem State.nextKey_setFull (s : State) (w : Nat) (f : Bool) : (s.setFull w f).nextKey = s.nextKey := rfl
@[simp] theorem State.served_setFull (s : State) (w : Nat) (f : Bool) : (s.setFull w f).served = s.served := rfl
@[simp] theorem State.handles_setFull (s : State) (w : Nat) (f : Bool) : (s.setFull w f).handles = s.handles := rfl
@[simp] theorem State.syncs_setFull (s : State) (w : Nat) (f : Bool) : (s.setFull w f).syncs = s.syncs := rfl
@[simp] theorem State.saved_setFull (s : State) (w : Nat) (f : Bool) : (s.setFull w f).saved = s.saved := rfl
@[simp] theorem State.ctxs_setFull (s : State) (w : Nat) (f : Bool) : (s.setFull w f).ctxs = s.ctxs := rfl
@[simp] theorem State.device_setFull (s : State) (w : Nat) (f : Bool) : (s.setFull w f).device = s.device := rfl
@[simp] theorem State.ageing_setFull (s : State) (w : Nat) (f : Bool) : (s.setFull w f).ageing = s.ageing := rfl
@[simp] theorem State.bankLimit_setFull (s : State) (w : Nat) (f : Bool) : (s.setFull w f).bankLimit = s.bankLimit := rfl
@[simp] theorem State.threshold_setFull (s : State) (w : Nat) (f : Bool) : (s.setFull w f).threshold = s.threshold := rfl
@[simp] theorem State.lostStacks_setFull (s : State) (w : Nat) (f : Bool) : (s.setFull w f).lostStacks = s.lostStacks := rfl
@[simp] theorem State.lostLinks_setFull (s : State) (w : Nat) (f : Bool) : (s.setFull w f).lostLinks = s.lostLinks := rfl
@[simp] theorem State.lostDevs_setFull (s : State) (w : Nat) (f : Bool) : (s.setFull w f).lostDevs = s.lostDevs := rfl
@[simp] theorem State.lostPorts_setFull (s : State) (w : Nat) (f : Bool) : (s.setFull w f).lostPorts = s.lostPorts := rfl
@[simp] theorem State.lostHomes_setFull (s : State) (w : Nat) (f : Bool) : (s.setFull w f).lostHomes = s.lostHomes := rfl
@[simp] theorem State.renewed_setFull (s : State) (w : Nat) (f : Bool) : (s.setFull w f).renewed = s.renewed := rfl
@[simp] theorem State.bedLost_setFull (s : State) (w : Nat) (f : Bool) : (s.setFull w f).bedLost = s.bedLost := rfl
@[simp] theorem State.pending_setFull (s : State) (w : Nat) (f : Bool) : (s.setFull w f).pending = s.pending := rfl
@[simp] theorem State.timers_setFull (s : State) (w : Nat) (f : Bool) : (s.setFull w f).timers = s.timers := rfl
@[simp] theorem State.turns_setFull (s : State) (w : Nat) (f : Bool) : (s.setFull w f).turns = s.turns := rfl
@[simp] theorem State.cur_setFull (s : State) (w : Nat) (f : Bool) : (s.setFull w f).cur = s.cur := rfl
@[simp] theorem State.iword_setFull (s : State) (w : Nat) (f : Bool) : (s.setFull w f).iword = s.iword := rfl
@[simp] theorem State.cycle_setFull (s : State) (w : Nat) (f : Bool) : (s.setFull w f).cycle = s.cycle := rfl
@[simp] theorem State.scan_setFull (s : State) (w : Nat) (f : Bool) : (s.setFull w f).scan = s.scan := rfl
@[simp] theorem State.ending_setFull (s : State) (w : Nat) (f : Bool) : (s.setFull w f).ending = s.ending := rfl
@[simp] theorem State.free_setFull (s : State) (w : Nat) (f : Bool) : (s.setFull w f).free = s.free := rfl
@[simp] theorem State.nextUid_setFull (s : State) (w : Nat) (f : Bool) : (s.setFull w f).nextUid = s.nextUid := rfl
@[simp] theorem State.frozen_setFull (s : State) (w : Nat) (f : Bool) : (s.setFull w f).frozen = s.frozen := rfl
@[simp] theorem State.view_setFull (s : State) (w : Nat) (f : Bool) : (s.setFull w f).view = s.view := rfl
@[simp] theorem State.cxlData_setFull (s : State) (w : Nat) (f : Bool) : (s.setFull w f).cxlData = s.cxlData := rfl

end Sys2Proof.Machine
end

