-- ==== Sys2Proof/Laws/Act.lean ====
section
/-!
SUPPORT. How an action runs: its primitive steps, and the issue of an instruction whose thread may run it.
-/
set_option Elab.async false

namespace Sys2Proof.Machine

/-! ## Primitive steps -/

theorem Act.bind_run {α β : Type} (m : Act α) (f : α → Act β) (s : State) :
    (m >>= f) s = match m s with
      | .ok a t => f a t
      | .error e t => .error e t := by
  show EStateM.bind m f s = _
  unfold EStateM.bind
  cases m s <;> rfl
theorem Act.bind_ok {α β : Type} {m : Act α} {f : α → Act β} {s t : State} {a : α} (h : m s = .ok a t) : (m >>= f) s = f a t := by
  rw [Act.bind_run, h]
theorem Act.bind_error {α β : Type} {m : Act α} {f : α → Act β} {s t : State} {e : Unit} (h : m s = .error e t) :
    (m >>= f) s = .error e t := by
  rw [Act.bind_run, h]
@[simp] theorem Act.pure_run {α : Type} (a : α) (s : State) : (pure a : Act α) s = .ok a s := rfl
@[simp] theorem Act.get_bind {β : Type} (f : State → Act β) (s : State) : ((get : Act State) >>= f) s = f s s := rfl
@[simp] theorem Act.get_run (s : State) : (get : Act State) s = .ok s s := rfl
@[simp] theorem Act.set_run (t s : State) : (set t : Act PUnit) s = .ok ⟨⟩ t := rfl
@[simp] theorem Act.set_bind {β : Type} (t s : State) (f : PUnit → Act β) : ((set t : Act PUnit) >>= f) s = f ⟨⟩ t := rfl
@[simp] theorem Act.modify_run (f : State → State) (s : State) : (modify f : Act PUnit) s = .ok ⟨⟩ (f s) := rfl
@[simp] theorem Act.modify_bind {β : Type} (f : State → State) (g : PUnit → Act β) (s : State) :
    ((modify f : Act PUnit) >>= g) s = g ⟨⟩ (f s) := rfl
@[simp] theorem Act.pure_bind' {α β : Type} (a : α) (f : α → Act β) (s : State) : ((pure a : Act α) >>= f) s = f a s := rfl
@[simp] theorem Act.stop_run {α : Type} (s : State) : (Act.stop : Act α) s = .error () s := rfl
@[simp] theorem Act.stop_bind {α β : Type} (f : α → Act β) (s : State) : ((Act.stop : Act α) >>= f) s = .error () s := rfl
theorem Act.assoc {α β γ : Type} (m : Act α) (f : α → Act β) (g : β → Act γ) (s : State) :
    ((m >>= f) >>= g) s = (m >>= fun a => f a >>= g) s := by
  simp only [Act.bind_run]; cases m s <;> rfl

theorem Act.me_run {s : State} {t : Thread} (h : s.thread? s.cur = some t) : Act.me s = .ok t s := by
  unfold Act.me; simp [h]
theorem Act.me_bind {β : Type} {s : State} {t : Thread} (h : s.thread? s.cur = some t) (f : Thread → Act β) :
    (Act.me >>= f) s = f t s := Act.bind_ok (Act.me_run h)
theorem Act.modMe_run {s : State} {t : Thread} (h : s.thread? s.cur = some t) (f : Thread → Thread) :
    Act.modMe f s = .ok () (s.withThread (f t)) := by
  unfold Act.modMe; rw [Act.modify_run, State.modThread_here h]
theorem Act.modMe_bind {β : Type} {s : State} {t : Thread} (h : s.thread? s.cur = some t) (f : Thread → Thread) (g : Unit → Act β) :
    (Act.modMe f >>= g) s = g () (s.withThread (f t)) := Act.bind_ok (Act.modMe_run h f)

/-- An action that ends well goes on to its state. -/
theorem Act.go_ok {m : Act Unit} {s t : State} (h : m s = .ok () t) : Act.go m s = .next t := by
  unfold Act.go Act.done; rw [h]
/-- An action that ends early leaves its state too. -/
theorem Act.go_error {m : Act Unit} {s t : State} (h : m s = .error () t) : Act.go m s = .next t := by
  unfold Act.go Act.done; rw [h]

/-! ## The thread after an instruction has begun -/

section opened
variable (t : Thread) (co len : Nat)
@[simp] theorem Thread.opened_regs : (t.opened co len).regs = t.regs := rfl
@[simp] theorem Thread.opened_preds : (t.opened co len).preds = t.preds := rfl
@[simp] theorem Thread.opened_pc : (t.opened co len).pc = t.pc := rfl
@[simp] theorem Thread.opened_ilen : (t.opened co len).ilen = len := rfl
@[simp] theorem Thread.opened_fflags : (t.opened co len).fflags = t.fflags := rfl
@[simp] theorem Thread.opened_place : (t.opened co len).place = t.place := rfl
@[simp] theorem Thread.opened_attr : (t.opened co len).attr = t.attr := rfl
@[simp] theorem Thread.opened_solo : (t.opened co len).solo = t.solo := by
  unfold Thread.opened Thread.solo; split <;> rfl
@[simp] theorem Thread.opened_prev : (t.opened co len).prev = t.prev := rfl
@[simp] theorem Thread.opened_program : (t.opened co len).program = t.program := rfl
@[simp] theorem Thread.opened_foot : (t.opened co len).foot = t.foot := rfl
@[simp] theorem Thread.opened_reg (k : Nat) : (t.opened co len).reg k = t.reg k := rfl
@[simp] theorem Thread.opened_val (r : BitVec 5) : (t.opened co len).val r = t.val r := rfl
@[simp] theorem Thread.opened_settOn : (t.opened co len).settOn = t.settOn := rfl
@[simp] theorem Thread.opened_core : (t.opened co len).core = t.core := rfl
@[simp] theorem Thread.opened_limit : (t.opened co len).limit = t.limit := by
  unfold Thread.limit Thread.alone; rw [Thread.opened_solo]; rfl
@[simp] theorem Thread.opened_guard (g : BitVec 5) : (t.opened co len).guard g = t.guard g := rfl
theorem Thread.opened_count : (t.opened co len).chunk.count = t.chunk.count := by
  unfold Thread.opened
  split
  · rename_i h
    simp only [Bool.and_eq_true, Chunk.idle, decide_eq_true_eq] at h
    simp [Thread.reopen, Thread.newChunk, h.2.1]
  · rfl
@[simp] theorem Thread.opened_writes : (t.opened co len).chunk.writes = t.chunk.writes := by
  unfold Thread.opened
  split
  · rename_i h
    simp only [Bool.and_eq_true, Chunk.idle, List.isEmpty_iff] at h
    simp [Thread.reopen, Thread.newChunk, h.2.1.2]
  · rfl
end opened

/-! ## Fields that name registers -/

theorem Thread.Owns.noPort {t : Thread} {rs : List (BitVec 5)} (h : t.Owns rs) : rs.any isPort = false := by
  rw [List.any_eq_false]
  intro r hr
  have := (h r hr).1
  simp [Sys2Proof.Machine.isPort]; omega
theorem Thread.Owns.beyond {t : Thread} {rs : List (BitVec 5)} (h : t.Owns rs) : rs.any t.beyond = false := by
  rw [List.any_eq_false]
  intro r hr
  have := (h r hr).2
  simp [Thread.beyond]; omega
theorem Thread.Owns.port {t : Thread} {rs : List (BitVec 5)} (h : t.Owns rs) {r : BitVec 5} (hr : r ∈ rs) : isPort r = false := by
  have := (h r hr).1
  simp [Sys2Proof.Machine.isPort]; omega
theorem Thread.Owns.sub {t : Thread} {rs qs : List (BitVec 5)} (h : t.Owns rs) (hq : qs ⊆ rs) : t.Owns qs := fun r hr => h r (hq hr)

/-! ## Reading and writing registers -/

theorem Act.needAll_full {s : State} {t : Thread} (h : s.thread? s.cur = some t) :
    ∀ rs : List (BitVec 5), t.Holds rs → Act.needAll rs s = .ok () s
  | [], _ => rfl
  | r :: rs, hf => by
    have ih := Act.needAll_full h rs (fun q hq => hf q (List.mem_cons_of_mem _ hq))
    have hr := hf r List.mem_cons_self
    unfold Act.needAll
    by_cases hp : isPort r = true
    · simp [hp, ih]
    · simp only [hp]
      rw [if_neg (by simp), Act.bind_ok (a := ()) (t := s)]
      · exact ih
      · unfold Act.needReg; rw [Act.me_bind h]; simp [hr]
theorem Act.needRoom_regs {s : State} {t : Thread} (h : s.thread? s.cur = some t) :
    ∀ ds : List (BitVec 5), ds.any isPort = false → Act.needRoom ds s = .ok () s
  | [], _ => rfl
  | d :: ds, hp => by
    simp only [List.any_cons, Bool.or_eq_false_iff] at hp
    have ih := Act.needRoom_regs h ds hp.2
    unfold Act.needRoom
    rw [Act.me_bind h]; simp [hp.1, ih]
theorem Act.needWords_regs (s : State) {rs : List (BitVec 5)} (hp : rs.any isPort = false) : Act.needWords rs s = .ok () s := by
  unfold Act.needWords; simp [hp]
/-- Full registers, and no port: an instruction is ready (R48). -/
theorem Act.ready_full {s : State} {t : Thread} (h : s.thread? s.cur = some t) {rs ds : List (BitVec 5)} (hf : t.Holds rs)
    (hr : rs.any isPort = false) (hd : ds.any isPort = false) : Act.ready rs ds s = .ok () s := by
  unfold Act.ready
  rw [Act.bind_ok (Act.needAll_full h rs hf), Act.bind_ok (Act.needRoom_regs h ds hd), Act.needWords_regs s hr]
theorem Act.ready_bind {β : Type} {s : State} {t : Thread} (h : s.thread? s.cur = some t) {rs ds : List (BitVec 5)} (hf : t.Holds rs)
    (hr : rs.any isPort = false) (hd : ds.any isPort = false) (f : Unit → Act β) : (Act.ready rs ds >>= f) s = f () s :=
  Act.bind_ok (Act.ready_full h hf hr hd)
theorem Act.read_reg {s : State} {t : Thread} (h : s.thread? s.cur = some t) (l : List (BitVec 5)) {r : BitVec 5}
    (hp : isPort r = false) : Act.read l r s = .ok (t.val r) s := by
  unfold Act.read; rw [Act.me_bind h]; simp [hp, Thread.val]
theorem Act.read_bind {β : Type} {s : State} {t : Thread} (h : s.thread? s.cur = some t) (l : List (BitVec 5)) {r : BitVec 5}
    (hp : isPort r = false) (f : Word → Act β) : (Act.read l r >>= f) s = f (t.val r) s := Act.bind_ok (Act.read_reg h l hp)
theorem Act.readSrc_reg {s : State} {t : Thread} (h : s.thread? s.cur = some t) (l : List (BitVec 5)) {b : Src}
    (hp : b.fields.any isPort = false) : Act.readSrc l b s = .ok (t.source b) s := by
  cases b with
  | reg r => exact Act.read_reg h l (by simpa [Src.fields] using hp)
  | lit32 v => rfl
  | lit64 v => rfl
theorem Act.readSrc_bind {β : Type} {s : State} {t : Thread} (h : s.thread? s.cur = some t) (l : List (BitVec 5)) {b : Src}
    (hp : b.fields.any isPort = false) (f : Word → Act β) : (Act.readSrc l b >>= f) s = f (t.source b) s :=
  Act.bind_ok (Act.readSrc_reg h l hp)
theorem Act.pop_regs (s : State) : ∀ {rs : List (BitVec 5)}, rs.any isPort = false → Act.pop rs s = .ok () s
  | [], _ => rfl
  | r :: rs, hp => by
    simp only [List.any_cons, Bool.or_eq_false_iff] at hp
    unfold Act.pop; simp [hp.1, Act.pop_regs s hp.2]
theorem Act.pop_bind {β : Type} (s : State) {rs : List (BitVec 5)} (hp : rs.any isPort = false) (f : Unit → Act β) :
    (Act.pop rs >>= f) s = f () s := Act.bind_ok (Act.pop_regs s hp)
theorem Act.write_reg {s : State} {t : Thread} (h : s.thread? s.cur = some t) {d : BitVec 5} (hp : isPort d = false) (v : Word) :
    Act.write d v s = .ok () (s.withThread (t.setReg d.toNat v)) := by
  unfold Act.write Act.writeCtl; rw [Act.me_bind h]; simp [hp, Act.modMe_run h]
theorem Act.writePred_run {s : State} {t : Thread} (h : s.thread? s.cur = some t) (k : BitVec 4) (v : Bool) :
    Act.writePred k v s = .ok () (s.withThread (t.setPred k v)) := Act.modMe_run h _
theorem Act.raise_run {s : State} {t : Thread} (h : s.thread? s.cur = some t) (f : Flags) :
    Act.raise f s = .ok () (s.withThread (t.flagged f)) := Act.modMe_run h _
theorem Act.raise_bind {β : Type} {s : State} {t : Thread} (h : s.thread? s.cur = some t) (f : Flags) (g : Unit → Act β) :
    (Act.raise f >>= g) s = g () (s.withThread (t.flagged f)) := Act.bind_ok (Act.raise_run h f)

/-! ## Issue inside a chunk -/

theorem Thread.Roomy.space {t : Thread} (h : t.Roomy) : t.settOn.isSome = true ∨ t.chunk.count + 1 < t.limit :=
  h.imp_right And.left
theorem Act.openChunk_run (s : State) {t : Thread} (hr : t.Roomy) :
    Act.openChunk (s.withThread t) = .ok () (s.withThread { t with chunk := if t.settOn.isNone && t.chunk.idle then t.reopen s.co else t.chunk }) := by
  unfold Act.openChunk
  have h := State.thread?_withThread s t
  rw [Act.me_bind h]
  by_cases hsett : t.settOn.isSome = true
  · rw [if_pos hsett, Act.pure_run]
    congr 1
    have : t.settOn.isNone = false := by cases hh : t.settOn <;> simp_all
    simp only [this, Bool.false_and, Bool.false_eq_true, if_false]
  · rw [if_neg hsett]
    have hl : ¬ t.limit ≤ t.chunk.count := by have := (hr.resolve_left hsett).1; omega
    simp only [hl, (hr.resolve_left hsett).2, Bool.false_eq_true, if_false]
    have hn : t.settOn.isNone = true := by cases hh : t.settOn <;> simp_all
    rw [Act.get_bind]
    rw [Act.modMe_run h, State.withThread_withThread]
    simp only [hn, Bool.true_and]
    congr 2
    split <;> rfl

/-- What comes before the guard, for an instruction that stays inside its chunk. -/
theorem Act.begin_inside {s : State} {t : Thread} {fields : List (BitVec 5)} (h : s.thread? s.cur = some t) (ho : t.Owns fields)
    (hr : t.Roomy) (onSett : Bool) (hs : onSett = true ∨ t.settOn = none) (len : Nat)
    (live : Thread → Bool) : Act.begin ⟨false, onSett⟩ len fields live s = .ok () (s.withThread (t.opened s.co len)) := by
  unfold Act.begin
  have hc1 : (t.settOn.isSome && (!onSett || fields.any isPort)) = false := by
    rcases hs with rfl | hs
    · simp [ho.noPort]
    · simp [hs]
  rw [Act.me_bind h, Act.modMe_bind h, hc1, ho.beyond, ho.noPort]
  simp only [Bool.false_eq_true, if_false, Bool.or_false]
  rw [Act.openChunk_run s (t := { t with ilen := len }) hr]
  rfl

theorem Act.retire_inside {s : State} {t : Thread} (h : s.thread? s.cur = some t)
    (hr : t.settOn.isSome = true ∨ t.chunk.count + 1 < t.limit) (len : Nat) (hl : t.ilen = len) (live : Bool) (target : Option Nat) :
    Act.retire false live len target s = .ok () (s.withThread (t.moved target)) := by
  unfold Act.retire
  rw [Act.modMe_bind h, Act.me_bind (State.thread?_withThread _ _)]
  subst hl
  have hc : ¬ (t.settOn.isNone && decide (t.limit ≤ t.chunk.count + 1)) = true := by
    rcases hr with hr | hr
    · simp [Option.isSome_iff_ne_none.mp hr]
    · simp; omega
  cases target <;>
  · simp only [Bool.false_eq_true, if_false]
    rw [if_neg]
    · rfl
    · exact hc

/-- The issue of an instruction inside a chunk, from what its body does (R49, R104). -/
theorem Act.issueTo_inside {s s' : State} {t t' : Thread} {fields : List (BitVec 5)} {g : BitVec 5} (h : Inside s t fields g)
    (onSett : Bool) (hs : onSett = true ∨ t.settOn = none) (len : Nat) {body : Act (Option Nat)} {target : Option Nat}
    (hb : body (s.withThread (t.opened s.co len)) = .ok target s') (ht : s'.thread? s'.cur = some t') (hl : t'.ilen = len)
    (hr : t'.settOn.isSome = true ∨ t'.chunk.count + 1 < t'.limit) :
    Act.issueTo ⟨false, onSett⟩ len fields g body s = .ok () (s'.withThread (t'.moved target)) := by
  unfold Act.issueTo
  rw [Act.bind_ok (Act.begin_inside h.here h.owns h.room onSett hs len _), Act.me_bind (State.thread?_withThread _ _)]
  have hg : (t.opened s.co len).guard g = true := h.guard
  have hp : ((⟨false, onSett⟩ : Form).ends || fields.any isPort) = false := by simp [h.owns.noPort]
  rw [if_pos hg, Act.bind_ok hb]; show Act.retire _ _ len target s' = _; rw [hp, Act.retire_inside ht hr len hl _ target]
theorem Act.issue_inside {s s' : State} {t t' : Thread} {fields : List (BitVec 5)} {g : BitVec 5} (h : Inside s t fields g)
    (onSett : Bool) (hs : onSett = true ∨ t.settOn = none) (len : Nat) {body : Act Unit}
    (hb : body (s.withThread (t.opened s.co len)) = .ok () s') (ht : s'.thread? s'.cur = some t') (hl : t'.ilen = len)
    (hr : t'.settOn.isSome = true ∨ t'.chunk.count + 1 < t'.limit) :
    Act.issue ⟨false, onSett⟩ len fields g body s = .ok () (s'.withThread t'.passed) :=
  Act.issueTo_inside h onSett hs len (target := none) (by rw [Act.bind_ok hb, Act.pure_run]) ht hl hr
/-- The same when the body ends the step itself: a wait begun, a fault taken. -/
theorem Act.issueTo_inside_stops {s s₂ : State} {t : Thread} {fields : List (BitVec 5)} {g : BitVec 5} (h : Inside s t fields g)
    (onSett : Bool) (hs : onSett = true ∨ t.settOn = none) (len : Nat) {body : Act (Option Nat)}
    (hb : body (s.withThread (t.opened s.co len)) = .error () s₂) :
    Act.issueTo ⟨false, onSett⟩ len fields g body s = .error () s₂ := by
  unfold Act.issueTo
  rw [Act.bind_ok (Act.begin_inside h.here h.owns h.room onSett hs len _), Act.me_bind (State.thread?_withThread _ _)]
  have hg : (t.opened s.co len).guard g = true := h.guard
  rw [if_pos hg]
  exact Act.bind_error hb
theorem Act.issue_inside_stops {s s₂ : State} {t : Thread} {fields : List (BitVec 5)} {g : BitVec 5} (h : Inside s t fields g)
    (onSett : Bool) (hs : onSett = true ∨ t.settOn = none) (len : Nat) {body : Act Unit}
    (hb : body (s.withThread (t.opened s.co len)) = .error () s₂) : Act.issue ⟨false, onSett⟩ len fields g body s = .error () s₂ :=
  Act.issueTo_inside_stops h onSett hs len (Act.bind_error hb)
/-- A false guard: the instruction only passes (R104). -/
theorem Act.issueTo_false {s : State} {t : Thread} {fields : List (BitVec 5)} {g : BitVec 5} (h : s.thread? s.cur = some t)
    (ho : t.Owns fields) (hr : t.Roomy) (hg : t.guard g = false)
    (onSett : Bool) (hs : onSett = true ∨ t.settOn = none) (len : Nat) (body : Act (Option Nat)) :
    Act.issueTo ⟨false, onSett⟩ len fields g body s = .ok () (s.withThread (t.opened s.co len).passed) := by
  unfold Act.issueTo
  rw [Act.bind_ok (Act.begin_inside h ho hr onSett hs len _), Act.me_bind (State.thread?_withThread _ _)]
  have hp : ((⟨false, onSett⟩ : Form).ends || fields.any isPort) = false := by simp [ho.noPort]
  have hg' : ¬ (t.opened s.co len).guard g = true := by simp [hg]
  rw [if_neg hg', Act.pure_bind']; show Act.retire _ _ len none _ = _; rw [hp, Act.retire_inside (State.thread?_withThread _ _) ?_ len rfl _ none]
  · simp only [State.withThread_withThread]; rfl
  · simpa [Thread.opened_count] using hr.space

/-! ## Issue after the chunk's end -/

theorem Act.endChunk_core {s s₁ : State} {t : Thread} (h : s.thread? s.cur = some t) (hs : t.settOn = none)
    (hc : s.commitAll s.cur = (.done, s₁)) : Act.endChunk s = .ok () s₁ := by
  unfold Act.endChunk
  rw [Act.get_bind, Act.me_bind h, if_neg (by simp [hs]), hc]
  rfl
theorem Act.begin_closed {s s₁ : State} {t : Thread} {fields : List (BitVec 5)} {len : Nat} {g : BitVec 5}
    (h : Closed s s₁ t fields len g) (f : Form) (hf : (f.ends || fields.any isPort) = true) :
    Act.begin f len fields (fun t => t.guard g) s = .ok () s₁ := by
  obtain ⟨t₀, h0, hs, ho, hl, hc⟩ := h.before
  unfold Act.begin
  have hb : fields.any t₀.beyond = false := by
    rw [List.any_eq_false]; intro r hr; simp [ho r hr]
  rw [Act.me_bind h0, Act.modMe_bind h0, hs, hb, hf]
  simp only [Option.isSome_none, Bool.false_and, Bool.false_eq_true, if_false, if_true, hl]
  exact Act.endChunk_core (t := t₀.begun len) (State.thread?_withThread _ _) hs hc
/-- The issue of an instruction that ends its chunk, from what its body does (R329, R104). -/
theorem Act.issueTo_closed {s s₁ s₂ : State} {t t₂ : Thread} {fields : List (BitVec 5)} {len : Nat} {g : BitVec 5}
    (h : Closed s s₁ t fields len g) (f : Form) (hf : (f.ends || fields.any isPort) = true) {body : Act (Option Nat)}
    {target : Option Nat} (hb : body s₁ = .ok target s₂) (ht : s₂.thread? s₂.cur = some t₂) :
    Act.issueTo f len fields g body s = .ok () ((s₂.withThread { t₂ with
      pc := target.getD ((t₂.pc + len) % 2 ^ 48), ilen := if target.isSome then 0 else t₂.ilen }).progress t₂.attr.ctx) := by
  unfold Act.issueTo
  rw [Act.bind_ok (Act.begin_closed h f hf), Act.me_bind h.here, if_pos h.guard, Act.bind_ok hb]
  show Act.retire _ _ len target s₂ = _
  rw [hf, h.guard]
  unfold Act.retire
  rw [Act.modMe_bind ht, Act.me_bind (State.thread?_withThread _ _), if_pos rfl, if_pos rfl, Act.modify_run]
  rfl
theorem Act.issue_closed {s s₁ s₂ : State} {t t₂ : Thread} {fields : List (BitVec 5)} {len : Nat} {g : BitVec 5}
    (h : Closed s s₁ t fields len g) (f : Form) (hf : (f.ends || fields.any isPort) = true) {body : Act Unit}
    (hb : body s₁ = .ok () s₂) (ht : s₂.thread? s₂.cur = some t₂) :
    Act.issue f len fields g body s = .ok () (s₂.pastEnd t₂ len) :=
  Act.issueTo_closed h f hf (target := none) (by rw [Act.bind_ok hb, Act.pure_run]) ht
/-- The same when the body ends the step itself: a wait begun, a trap taken. -/
theorem Act.issue_stops {s s₁ s₂ : State} {t : Thread} {fields : List (BitVec 5)} {len : Nat} {g : BitVec 5}
    (h : Closed s s₁ t fields len g) (f : Form) (hf : (f.ends || fields.any isPort) = true) {body : Act Unit}
    (hb : body s₁ = .error () s₂) : Act.issue f len fields g body s = .error () s₂ := by
  unfold Act.issue Act.issueTo
  rw [Act.bind_ok (Act.begin_closed h f hf), Act.me_bind h.here, if_pos h.guard]
  exact Act.bind_error (Act.bind_error hb)
/-- A false guard of an instruction that ends its chunk (R104), on a thread whose chunk holds nothing: the instruction only passes. -/
theorem Act.issueTo_closed_false {s : State} {t : Thread} {fields : List (BitVec 5)} {len : Nat} {g : BitVec 5} (h : s.thread? s.cur = some t)
    (hs : t.settOn = none) (ho : ∀ r ∈ fields, t.beyond r = false) (hg : t.guard g = false) (hi : t.chunk.idle = true) (f : Form)
    (hf : (f.ends || fields.any isPort) = true) (body : Act (Option Nat)) :
    Act.issueTo f len fields g body s = .ok () (s.withThread ((t.begun len).done len)) := by
  have hb : fields.any t.beyond = false := by
    rw [List.any_eq_false]; intro r hr; simp [ho r hr]
  have h1 := State.thread?_withThread s { t with ilen := len }
  have hbegin : Act.begin f len fields (fun t => t.guard g) s = .ok () (s.withThread { t with ilen := len }) := by
    unfold Act.begin
    rw [Act.me_bind h, Act.modMe_bind h, hs, hb, hf]
    simp only [Option.isSome_none, Bool.false_and, Bool.false_eq_true, if_false, if_true, hg]
    unfold Act.endIdly
    rw [Act.me_bind h1, if_pos (by simp [hi])]
    rfl
  unfold Act.issueTo
  have hg' : ¬ ({ t with ilen := len } : Thread).guard g = true := by simpa [Thread.guard, Thread.pred] using hg
  rw [Act.bind_ok hbegin, Act.me_bind h1, if_neg hg', Act.pure_bind']
  show Act.retire _ _ len none _ = _
  rw [hf]
  unfold Act.retire
  rw [Act.modMe_bind h1, State.withThread_withThread, Act.me_bind (State.thread?_withThread s _), if_pos rfl, if_neg hg']
  rfl

/-! ## Waits and traps -/

/-- A wait begins (R32). -/
theorem Act.park_run {α : Type} {s : State} {t : Thread} (h : s.thread? s.cur = some t) (w : Wait) :
    (Act.park w : Act α) s = .error () (s.waits t w) := by
  unfold Act.park State.waits
  rw [Act.me_bind h, Act.modMe_bind h, Act.modify_bind]
  rfl
/-- A precise trap on a general core, its chunk committed (R282). -/
theorem Act.trap_core {α : Type} {s s₁ : State} {t : Thread} (h : s.thread? s.cur = some t) (hs : t.settOn = none)
    (hc : s.commitAll s.cur = (.done, s₁)) (cause : Nat) (fval : Word) (ret : Nat) :
    (Act.trap cause fval ret : Act α) s = .error () (s₁.enterTrap s₁.cur cause fval ret) := by
  unfold Act.trap
  rw [Act.me_bind h, hs]
  show (Act.endChunk >>= _) s = _
  rw [Act.bind_ok (Act.endChunk_core h hs hc)]
  rfl
theorem Act.fault_core {α : Type} {s s₁ : State} {t : Thread} (h : s.thread? s.cur = some t) (hs : t.settOn = none)
    (hc : s.commitAll s.cur = (.done, s₁)) (cause : Nat) (fval : Word) :
    (Act.fault cause fval : Act α) s = .error () (s₁.enterTrap s₁.cur cause fval t.pc) := by
  unfold Act.fault
  rw [Act.me_bind h]
  exact Act.trap_core h hs hc cause fval t.pc

end Sys2Proof.Machine
end

