-- ==== Sys2Proof/Laws/Fields.lean ====
section
/-!
SUPPORT. Reading a field of an assembled word gives the field back, for each of the word formats (R101).
-/
set_option linter.unusedSimpArgs false

namespace Sys2Proof

section TFormat
variable (op : BitVec 7) (d a b fn g : BitVec 5)
@[simp] theorem fOp_encT : fOp (encT op d a b fn g) = op := by
  simp (disch := omega) only [fOp, encT, BitVec.extractLsb'_append_eq_of_le, BitVec.extractLsb'_append_eq_of_add_le,
    BitVec.extractLsb'_eq_self, Nat.sub_self, Nat.reduceSub]
@[simp] theorem fD_encT : fD (encT op d a b fn g) = d := by
  simp (disch := omega) only [fD, encT, BitVec.extractLsb'_append_eq_of_le, BitVec.extractLsb'_append_eq_of_add_le,
    BitVec.extractLsb'_eq_self, Nat.sub_self, Nat.reduceSub]
@[simp] theorem fA_encT : fA (encT op d a b fn g) = a := by
  simp (disch := omega) only [fA, encT, BitVec.extractLsb'_append_eq_of_le, BitVec.extractLsb'_append_eq_of_add_le,
    BitVec.extractLsb'_eq_self, Nat.sub_self, Nat.reduceSub]
@[simp] theorem fB_encT : fB (encT op d a b fn g) = b := by
  simp (disch := omega) only [fB, encT, BitVec.extractLsb'_append_eq_of_le, BitVec.extractLsb'_append_eq_of_add_le,
    BitVec.extractLsb'_eq_self, Nat.sub_self, Nat.reduceSub]
@[simp] theorem fFn_encT : fFn (encT op d a b fn g) = fn := by
  simp (disch := omega) only [fFn, encT, BitVec.extractLsb'_append_eq_of_le, BitVec.extractLsb'_append_eq_of_add_le,
    BitVec.extractLsb'_eq_self, Nat.sub_self, Nat.reduceSub]
@[simp] theorem fG_encT : fG (encT op d a b fn g) = g := by
  simp (disch := omega) only [fG, encT, BitVec.extractLsb'_append_eq_of_le, BitVec.extractLsb'_append_eq_of_add_le,
    BitVec.extractLsb'_eq_self, Nat.sub_self, Nat.reduceSub]
end TFormat

section IFormat
variable (op : BitVec 7) (d a : BitVec 5) (i : BitVec 10) (g : BitVec 5)
@[simp] theorem fOp_encI : fOp (encI op d a i g) = op := by
  simp (disch := omega) only [fOp, encI, BitVec.extractLsb'_append_eq_of_le, BitVec.extractLsb'_append_eq_of_add_le,
    BitVec.extractLsb'_eq_self, Nat.sub_self, Nat.reduceSub]
@[simp] theorem fD_encI : fD (encI op d a i g) = d := by
  simp (disch := omega) only [fD, encI, BitVec.extractLsb'_append_eq_of_le, BitVec.extractLsb'_append_eq_of_add_le,
    BitVec.extractLsb'_eq_self, Nat.sub_self, Nat.reduceSub]
@[simp] theorem fA_encI : fA (encI op d a i g) = a := by
  simp (disch := omega) only [fA, encI, BitVec.extractLsb'_append_eq_of_le, BitVec.extractLsb'_append_eq_of_add_le,
    BitVec.extractLsb'_eq_self, Nat.sub_self, Nat.reduceSub]
@[simp] theorem fImm_encI : fImm (encI op d a i g) = i := by
  simp (disch := omega) only [fImm, encI, BitVec.extractLsb'_append_eq_of_le, BitVec.extractLsb'_append_eq_of_add_le,
    BitVec.extractLsb'_eq_self, Nat.sub_self, Nat.reduceSub]
@[simp] theorem fG_encI : fG (encI op d a i g) = g := by
  simp (disch := omega) only [fG, encI, BitVec.extractLsb'_append_eq_of_le, BitVec.extractLsb'_append_eq_of_add_le,
    BitVec.extractLsb'_eq_self, Nat.sub_self, Nat.reduceSub]
end IFormat

section KFormat
variable (op : BitVec 7) (d : BitVec 5) (c : BitVec 8) (g : BitVec 5)
@[simp] theorem fOp_encK : fOp (encK op d c g) = op := by
  simp (disch := omega) only [fOp, encK, BitVec.extractLsb'_append_eq_of_le, BitVec.extractLsb'_append_eq_of_add_le,
    BitVec.extractLsb'_eq_self, Nat.sub_self, Nat.reduceSub]
@[simp] theorem fD_encK : fD (encK op d c g) = d := by
  simp (disch := omega) only [fD, encK, BitVec.extractLsb'_append_eq_of_le, BitVec.extractLsb'_append_eq_of_add_le,
    BitVec.extractLsb'_eq_self, Nat.sub_self, Nat.reduceSub]
@[simp] theorem fC_encK : fC (encK op d c g) = c := by
  simp (disch := omega) only [fC, encK, BitVec.extractLsb'_append_eq_of_le, BitVec.extractLsb'_append_eq_of_add_le,
    BitVec.extractLsb'_eq_self, Nat.sub_self, Nat.reduceSub]
@[simp] theorem fG_encK : fG (encK op d c g) = g := by
  simp (disch := omega) only [fG, encK, BitVec.extractLsb'_append_eq_of_le, BitVec.extractLsb'_append_eq_of_add_le,
    BitVec.extractLsb'_eq_self, Nat.sub_self, Nat.reduceSub]
end KFormat

section BFormat
variable (op : BitVec 7) (o : BitVec 20) (g : BitVec 5)
@[simp] theorem fOp_encB : fOp (encB op o g) = op := by
  simp (disch := omega) only [fOp, encB, BitVec.extractLsb'_append_eq_of_le, BitVec.extractLsb'_append_eq_of_add_le,
    BitVec.extractLsb'_eq_self, Nat.sub_self, Nat.reduceSub]
@[simp] theorem fOff_encB : fOff (encB op o g) = o := by
  simp (disch := omega) only [fOff, encB, BitVec.extractLsb'_append_eq_of_le, BitVec.extractLsb'_append_eq_of_add_le,
    BitVec.extractLsb'_eq_self, Nat.sub_self, Nat.reduceSub]
@[simp] theorem fG_encB : fG (encB op o g) = g := by
  simp (disch := omega) only [fG, encB, BitVec.extractLsb'_append_eq_of_le, BitVec.extractLsb'_append_eq_of_add_le,
    BitVec.extractLsb'_eq_self, Nat.sub_self, Nat.reduceSub]
end BFormat

section EFormat
variable (op : BitVec 7) (e : BitVec 8) (a b g : BitVec 5)
@[simp] theorem fOp_encE : fOp (encE op e a b g) = op := by
  simp (disch := omega) only [fOp, encE, BitVec.extractLsb'_append_eq_of_le, BitVec.extractLsb'_append_eq_of_add_le,
    BitVec.extractLsb'_eq_self, Nat.sub_self, Nat.reduceSub]
@[simp] theorem fEop_encE : fEop (encE op e a b g) = e := by
  simp (disch := omega) only [fEop, encE, BitVec.extractLsb'_append_eq_of_le, BitVec.extractLsb'_append_eq_of_add_le,
    BitVec.extractLsb'_eq_self, Nat.sub_self, Nat.reduceSub]
@[simp] theorem fEa_encE : fEa (encE op e a b g) = a := by
  simp (disch := omega) only [fEa, encE, BitVec.extractLsb'_append_eq_of_le, BitVec.extractLsb'_append_eq_of_add_le,
    BitVec.extractLsb'_eq_self, Nat.sub_self, Nat.reduceSub]
@[simp] theorem fEb_encE : fEb (encE op e a b g) = b := by
  simp (disch := omega) only [fEb, encE, BitVec.extractLsb'_append_eq_of_le, BitVec.extractLsb'_append_eq_of_add_le,
    BitVec.extractLsb'_eq_self, Nat.sub_self, Nat.reduceSub]
@[simp] theorem fG_encE : fG (encE op e a b g) = g := by
  simp (disch := omega) only [fG, encE, BitVec.extractLsb'_append_eq_of_le, BitVec.extractLsb'_append_eq_of_add_le,
    BitVec.extractLsb'_eq_self, Nat.sub_self, Nat.reduceSub]
end EFormat

section VFormat
variable (op : BitVec 7) (e : BitVec 6) (d a b : BitVec 4) (m : BitVec 2) (g : BitVec 5)
@[simp] theorem fOp_encV : fOp (encV op e d a b m g) = op := by
  simp (disch := omega) only [fOp, encV, BitVec.extractLsb'_append_eq_of_le, BitVec.extractLsb'_append_eq_of_add_le,
    BitVec.extractLsb'_eq_self, Nat.sub_self, Nat.reduceSub]
@[simp] theorem fVop_encV : fVop (encV op e d a b m g) = e := by
  simp (disch := omega) only [fVop, encV, BitVec.extractLsb'_append_eq_of_le, BitVec.extractLsb'_append_eq_of_add_le,
    BitVec.extractLsb'_eq_self, Nat.sub_self, Nat.reduceSub]
@[simp] theorem fVd_encV : fVd (encV op e d a b m g) = d := by
  simp (disch := omega) only [fVd, encV, BitVec.extractLsb'_append_eq_of_le, BitVec.extractLsb'_append_eq_of_add_le,
    BitVec.extractLsb'_eq_self, Nat.sub_self, Nat.reduceSub]
@[simp] theorem fVa_encV : fVa (encV op e d a b m g) = a := by
  simp (disch := omega) only [fVa, encV, BitVec.extractLsb'_append_eq_of_le, BitVec.extractLsb'_append_eq_of_add_le,
    BitVec.extractLsb'_eq_self, Nat.sub_self, Nat.reduceSub]
@[simp] theorem fVb_encV : fVb (encV op e d a b m g) = b := by
  simp (disch := omega) only [fVb, encV, BitVec.extractLsb'_append_eq_of_le, BitVec.extractLsb'_append_eq_of_add_le,
    BitVec.extractLsb'_eq_self, Nat.sub_self, Nat.reduceSub]
@[simp] theorem fVm_encV : fVm (encV op e d a b m g) = m := by
  simp (disch := omega) only [fVm, encV, BitVec.extractLsb'_append_eq_of_le, BitVec.extractLsb'_append_eq_of_add_le,
    BitVec.extractLsb'_eq_self, Nat.sub_self, Nat.reduceSub]
@[simp] theorem fG_encV : fG (encV op e d a b m g) = g := by
  simp (disch := omega) only [fG, encV, BitVec.extractLsb'_append_eq_of_le, BitVec.extractLsb'_append_eq_of_add_le,
    BitVec.extractLsb'_eq_self, Nat.sub_self, Nat.reduceSub]
end VFormat

/-- The low part of a field. -/
@[simp] theorem low_append {m n : Nat} (x : BitVec m) (y : BitVec n) : (x ++ y).extractLsb' 0 n = y := by
  rw [BitVec.extractLsb'_append_eq_of_add_le (by omega), BitVec.extractLsb'_eq_self]
/-- The high part of a field. -/
@[simp] theorem high_append {m n : Nat} (x : BitVec m) (y : BitVec n) : (x ++ y).extractLsb' n m = x := by
  rw [BitVec.extractLsb'_append_eq_of_le (by omega), Nat.sub_self, BitVec.extractLsb'_eq_self]

/-- A B source is read back from its code and the literal words. -/
theorem srcOf_code (b : Src) (x y : Half) (h : b.ok = true) : srcOf b.code (b.words.getD 0 x) (b.words.getD 1 y) = b := by
  cases b with
  | reg n =>
    simp only [Src.ok, decide_eq_true_eq] at h
    have h1 : n ≠ 30#5 := by rintro rfl; simp at h
    have h2 : n ≠ 31#5 := by rintro rfl; simp at h
    simp [srcOf, Src.code, h1, h2]
  | lit32 v => simp [srcOf, Src.code, Src.words]
  | lit64 v =>
    have h : v.extractLsb' 32 32 ++ v.extractLsb' 0 32 = v := by
      rw [BitVec.extractLsb'_append_extractLsb'_eq_extractLsb' (by omega), BitVec.extractLsb'_eq_self]
    simp [srcOf, Src.code, Src.words, h]

/-- A word that its candidate assembles to decodes to it. -/
theorem decode_of {i : Instr} {w x y : Half} (c : candidate w x y = some i) (e : (encode i).headD 0#32 = w) (h : i.wf = true) :
    decode w x y = some i := by
  simp only [decode, c, e, h, decide_true, Bool.and_self, if_true]

end Sys2Proof
end

