-- ==== Sys2Proof/Laws/Scalar.lean ====
section
/-!
SUPPORT. What each shape of scalar instruction does when its thread may run it: one lemma for each shared shape.
-/
set_option Elab.async false

namespace Sys2Proof.Machine

variable {s : State} {t : Thread} {g : BitVec 5}

theorem Inside.opened {fields : List (BitVec 5)} (h : Inside s t fields g) (len : Nat) :
    (t.opened s.co len).settOn.isSome = true ∨ (t.opened s.co len).chunk.count + 1 < (t.opened s.co len).limit := by
  have := h.room.space
  simpa [Thread.opened_count] using this
theorem Inside.now (s : State) (t : Thread) (len : Nat) :
    (s.withThread (t.opened s.co len)).thread? (s.withThread (t.opened s.co len)).cur = some (t.opened s.co len) :=
  State.thread?_withThread _ _

theorem Thread.source_opened (t : Thread) (co len : Nat) (b : Src) : (t.opened co len).source b = t.source b := by
  cases b <;> rfl

/-- The issue of an instruction that changes its thread only. -/
theorem Act.plain {fields : List (BitVec 5)} {len : Nat} {body : Act Unit} {t' : Thread} (h : Inside s t fields g)
    (hb : body (s.withThread (t.opened s.co len)) = .ok () (s.withThread t')) (hl : t'.ilen = len)
    (hr : t'.settOn.isSome = true ∨ t'.chunk.count + 1 < t'.limit) :
    Act.issue .plain len fields g body s = .ok () (s.withThread t'.passed) := by
  have := Act.issue_inside h true (.inl rfl) len hb (State.thread?_withThread _ _) hl hr
  rw [State.withThread_withThread] at this
  exact this

section shapes
variable {d a : BitVec 5} {b : Src} {i : BitVec 10}

theorem owns3 (ho : t.Owns (d :: a :: b.fields)) :
    isPort d = false ∧ isPort a = false ∧ b.fields.any isPort = false ∧ (a :: b.fields).any isPort = false ∧ [d].any isPort = false := by
  have h1 : isPort d = false := ho.port (by simp)
  have h2 : isPort a = false := ho.port (by simp)
  have h3 : b.fields.any isPort = false := Thread.Owns.noPort (ho.sub (by intro x hx; simp [hx]))
  simp [h1, h2, h3]
theorem owns2 (ho : t.Owns (d :: b.fields)) : isPort d = false ∧ b.fields.any isPort = false ∧ [d].any isPort = false := by
  have h1 : isPort d = false := ho.port (by simp)
  have h3 : b.fields.any isPort = false := Thread.Owns.noPort (ho.sub (by intro x hx; simp [hx]))
  simp [h1, h3]

theorem Act.op2_inside (h : Inside s t (d :: a :: b.fields) g) (hf : t.Holds (a :: b.fields)) (f : Word → Word → Word) :
    Act.op2 d a b g f s = .ok () (s.withThread (t.wrote s.co b.len d (f (t.val a) (t.source b)))) := by
  obtain ⟨hd, ha, hb, hab, hd'⟩ := owns3 h.owns
  have hn := Inside.now s t b.len
  refine Act.plain h ?_ rfl (h.opened b.len)
  rw [Act.ready_bind hn hf hab hd', Act.read_bind hn _ ha, Act.readSrc_bind hn _ hb, Act.pop_bind _ hab, Act.write_reg hn hd]
  simp only [State.withThread_withThread, Thread.source_opened, Thread.opened_val]

theorem Act.opI_inside (h : Inside s t [d, a] g) (hf : t.Holds [a]) (f : Word → Word → Word) :
    Act.opI d a i g f s = .ok () (s.withThread (t.wrote s.co 4 d (f (t.val a) (i.signExtend 64)))) := by
  have hn := Inside.now s t 4
  have hd : isPort d = false := h.owns.port (by simp)
  have ha : isPort a = false := h.owns.port (by simp)
  refine Act.plain h ?_ rfl (h.opened 4)
  rw [Act.ready_bind hn hf (by simp [ha]) (by simp [hd]), Act.read_bind hn _ ha, Act.pop_bind _ (by simp [ha]), Act.write_reg hn hd]
  simp only [State.withThread_withThread, Thread.opened_val]
theorem execMovImm_inside (h : Inside s t [d] g) :
    execMovImm d i g s = .next (s.withThread (t.wrote s.co 4 d (i.signExtend 64))) := by
  have hn := Inside.now s t 4
  have hd : isPort d = false := h.owns.port (by simp)
  refine Act.go_ok (Act.plain h ?_ rfl (h.opened 4))
  rw [Act.ready_bind hn (by intro r hr; cases hr) (by simp) (by simp [hd]), Act.write_reg hn hd]
  simp only [State.withThread_withThread]
theorem Act.op1_inside (h : Inside s t (d :: b.fields) g) (hf : t.Holds b.fields) (f : Word → Word) :
    Act.op1 d b g f s = .ok () (s.withThread (t.wrote s.co b.len d (f (t.source b)))) := by
  obtain ⟨hd, hb, hd'⟩ := owns2 h.owns
  have hn := Inside.now s t b.len
  refine Act.plain h ?_ rfl (h.opened b.len)
  rw [Act.ready_bind hn hf hb hd', Act.readSrc_bind hn _ hb, Act.pop_bind _ hb, Act.write_reg hn hd]
  simp only [State.withThread_withThread, Thread.source_opened]
theorem Act.op2E_inside (h : Inside s t (d :: a :: b.fields) g) (hf : t.Holds (a :: b.fields))
    {f : Word → Word → Except (Nat × Word) Word} {r : Word} (hr : f (t.val a) (t.source b) = .ok r) :
    Act.op2E d a b g f s = .ok () (s.withThread (t.wrote s.co b.len d r)) := by
  obtain ⟨hd, ha, hb, hab, hd'⟩ := owns3 h.owns
  have hn := Inside.now s t b.len
  refine Act.plain h ?_ rfl (h.opened b.len)
  rw [Act.ready_bind hn hf hab hd', Act.read_bind hn _ ha, Act.readSrc_bind hn _ hb, Thread.source_opened, Thread.opened_val, hr]
  show (Act.pop _ >>= _) _ = _
  rw [Act.pop_bind _ hab, Act.write_reg hn hd]
  simp only [State.withThread_withThread]
theorem Act.cmp_inside {k : BitVec 4} (h : Inside s t (a :: b.fields) g) (hf : t.Holds (a :: b.fields)) (f : Word → Word → Bool) :
    Act.cmp k a b g f s = .ok () (s.withThread ((t.opened s.co b.len).setPred k (f (t.val a) (t.source b))).passed) := by
  have hab := h.owns.noPort
  obtain ⟨ha, hb, -⟩ := owns2 h.owns
  have hn := Inside.now s t b.len
  refine Act.plain h ?_ rfl (h.opened b.len)
  rw [Act.ready_bind hn hf hab (by simp), Act.read_bind hn _ ha, Act.readSrc_bind hn _ hb, Act.pop_bind _ hab, Act.writePred_run hn]
  simp only [State.withThread_withThread, Thread.source_opened, Thread.opened_val]
theorem Act.cmpI_inside {k : BitVec 4} (h : Inside s t [a] g) (hf : t.Holds [a]) (f : Word → Word → Bool) :
    Act.cmpI k a i g f s = .ok () (s.withThread ((t.opened s.co 4).setPred k (f (t.val a) (i.signExtend 64))).passed) := by
  have ha : isPort a = false := h.owns.port (by simp)
  have hn := Inside.now s t 4
  refine Act.plain h ?_ rfl (h.opened 4)
  rw [Act.ready_bind hn hf (by simp [ha]) (by simp), Act.read_bind hn _ ha, Act.pop_bind _ (by simp [ha]), Act.writePred_run hn]
  simp only [State.withThread_withThread, Thread.opened_val]
theorem Act.pred2_inside {k p q : BitVec 4} (h : Inside s t [] g) (f : Bool → Bool → Bool) :
    Act.pred2 k p q g f s = .ok () (s.withThread ((t.opened s.co 4).setPred k (f (t.pred p.toNat) (t.pred q.toNat))).passed) := by
  have hn := Inside.now s t 4
  refine Act.plain h ?_ rfl (h.opened 4)
  rw [Act.me_bind hn, Act.writePred_run hn]
  simp only [State.withThread_withThread]; rfl
theorem execIns_inside (h : Inside s t (d :: a :: b.fields) g) (hf : t.Holds (d :: a :: b.fields)) :
    execIns d a b g s = .next (s.withThread (t.wrote s.co b.len d (insertField (t.val d) (t.val a) (t.source b)))) := by
  obtain ⟨hd, ha, hb, hab, hd'⟩ := owns3 h.owns
  have hn := Inside.now s t b.len
  refine Act.go_ok (Act.plain h ?_ rfl (h.opened b.len))
  rw [Act.ready_bind hn hf h.owns.noPort (by simp), Act.read_bind hn _ hd, Act.read_bind hn _ ha, Act.readSrc_bind hn _ hb,
    Act.pop_bind _ hab, Act.write_reg hn hd]
  simp only [State.withThread_withThread, Thread.source_opened, Thread.opened_val]
theorem execSel_inside {k : BitVec 4} {n : BitVec 1} (h : Inside s t (d :: a :: b.fields) g) (hf : t.Holds (a :: b.fields)) :
    execSel d a b k n g s = .next (s.withThread (t.wrote s.co b.len d
      (if t.pred k.toNat != decide (n = 1#1) then t.val a else t.source b))) := by
  obtain ⟨hd, ha, hb, hab, hd'⟩ := owns3 h.owns
  have hn := Inside.now s t b.len
  refine Act.go_ok (Act.plain h ?_ rfl (h.opened b.len))
  rw [Act.ready_bind hn hf hab hd', Act.me_bind hn, Act.read_bind hn _ ha, Act.readSrc_bind hn _ hb, Act.pop_bind _ hab,
    Act.write_reg hn hd]
  simp only [State.withThread_withThread, Thread.source_opened, Thread.opened_val]; rfl
theorem Act.stepI_inside {off : Int} (h : Inside s t [d, a] g) (hf : t.Holds [a]) {r : Word} (hr : stepPointer (t.val a) off = .ok r) :
    Act.stepI d a off g s = .ok () (s.withThread (t.wrote s.co 4 d r)) := by
  have hn := Inside.now s t 4
  have hd : isPort d = false := h.owns.port (by simp)
  have ha : isPort a = false := h.owns.port (by simp)
  refine Act.plain h ?_ rfl (h.opened 4)
  rw [Act.ready_bind hn hf (by simp [ha]) (by simp [hd]), Act.read_bind hn _ ha, Thread.opened_val, hr]
  show (Act.pop _ >>= _) _ = _
  rw [Act.pop_bind _ (by simp [ha]), Act.write_reg hn hd]
  simp only [State.withThread_withThread]
theorem execPfmt_inside (h : Inside s t [d, a] g) (hf : t.Holds [a]) :
    execPfmt d a g s = .next (s.withThread (t.wrote s.co 4 d (pointerFormat (t.val a)))) := by
  have hn := Inside.now s t 4
  have hd : isPort d = false := h.owns.port (by simp)
  have ha : isPort a = false := h.owns.port (by simp)
  refine Act.go_ok (Act.plain h ?_ rfl (h.opened 4))
  rw [Act.ready_bind hn hf (by simp [ha]) (by simp [hd]), Act.read_bind hn _ ha, Act.pop_bind _ (by simp [ha]), Act.write_reg hn hd]
  simp only [State.withThread_withThread, Thread.opened_val]
theorem execLwinOwn_inside (h : Inside s t (d :: b.fields) g) (hf : t.Holds b.fields) (hr : (t.source b).toNat ≤ 0xFFFF) :
    execLwinOwn d b g s = .next (s.withThread (t.wrote s.co b.len d (BitVec.ofNat 64 (15 * 2 ^ 44 + (t.source b).toNat)))) := by
  obtain ⟨hd, hb, hd'⟩ := owns2 h.owns
  have hn := Inside.now s t b.len
  refine Act.go_ok (Act.plain h ?_ rfl (h.opened b.len))
  rw [Act.ready_bind hn hf hb hd', Act.readSrc_bind hn _ hb, Thread.source_opened, if_neg (by omega), Act.pop_bind _ hb,
    Act.write_reg hn hd]
  simp only [State.withThread_withThread]

/-! ## FP32 (R145-R148) -/

theorem Act.fop_inside (h : Inside s t (d :: a :: b.fields) g) (hf : t.Holds (a :: b.fields)) (f : FV → FV → FV) :
    Act.fop d a b g f s = .ok () (s.withThread
      (let r := round F32 t.fz t.sat (f (operandF t.fz (t.val a)) (operandF t.fz (t.source b)))
       (((t.opened s.co b.len).flagged r.2).setReg d.toNat (BitVec.ofNat 64 r.1)).passed)) := by
  obtain ⟨hd, ha, hb, hab, hd'⟩ := owns3 h.owns
  have hn := Inside.now s t b.len
  refine Act.plain h ?_ rfl (h.opened b.len)
  rw [Act.ready_bind hn hf hab hd', Act.me_bind hn, Act.read_bind hn _ ha, Act.readSrc_bind hn _ hb, Act.pop_bind _ hab]
  show (Act.raise _ >>= _) _ = _
  rw [Act.raise_bind hn, Act.write_reg (State.thread?_withThread _ _) hd]
  simp only [State.withThread_withThread, Thread.source_opened, Thread.opened_val]; rfl
theorem Act.fpick_inside (big : Bool) (h : Inside s t (d :: a :: b.fields) g) (hf : t.Holds (a :: b.fields)) :
    Act.fpick d a b g big s = .ok () (s.withThread
      (let r := round F32 false false (FV.pick big (operandF t.fz (t.val a)) (operandF t.fz (t.source b)))
       (((t.opened s.co b.len).flagged (r.2 &&& flagNV)).setReg d.toNat (BitVec.ofNat 64 r.1)).passed)) := by
  obtain ⟨hd, ha, hb, hab, hd'⟩ := owns3 h.owns
  have hn := Inside.now s t b.len
  refine Act.plain h ?_ rfl (h.opened b.len)
  rw [Act.ready_bind hn hf hab hd', Act.me_bind hn, Act.read_bind hn _ ha, Act.readSrc_bind hn _ hb, Act.pop_bind _ hab]
  show (Act.raise _ >>= _) _ = _
  rw [Act.raise_bind hn, Act.write_reg (State.thread?_withThread _ _) hd]
  simp only [State.withThread_withThread, Thread.source_opened, Thread.opened_val]; rfl
theorem execFfma_inside (h : Inside s t (d :: a :: b.fields) g) (hf : t.Holds (d :: a :: b.fields)) :
    execFfma d a b g s = .next (s.withThread
      (let r := round F32 t.fz t.sat (((operandF t.fz (t.val a)).mul (operandF t.fz (t.source b))).add (operandF t.fz (t.val d)))
       (((t.opened s.co b.len).flagged r.2).setReg d.toNat (BitVec.ofNat 64 r.1)).passed)) := by
  obtain ⟨hd, ha, hb, hab, hd'⟩ := owns3 h.owns
  have hn := Inside.now s t b.len
  refine Act.go_ok (Act.plain h ?_ rfl (h.opened b.len))
  rw [Act.ready_bind hn hf h.owns.noPort (by simp), Act.me_bind hn, Act.read_bind hn _ hd, Act.read_bind hn _ ha,
    Act.readSrc_bind hn _ hb, Act.pop_bind _ hab]
  show (Act.raise _ >>= _) _ = _
  rw [Act.raise_bind hn, Act.write_reg (State.thread?_withThread _ _) hd]
  simp only [State.withThread_withThread, Thread.source_opened, Thread.opened_val]; rfl
theorem Act.fcmp_inside {k : BitVec 4} (c : FCond) (h : Inside s t (a :: b.fields) g) (hf : t.Holds (a :: b.fields)) :
    Act.fcmp k a b g c s = .ok () (s.withThread
      (((t.opened s.co b.len).flagged (cmpFlags (operandF t.fz (t.val a)) (operandF t.fz (t.source b)))).setPred k
        (c.holds (operandF t.fz (t.val a)) (operandF t.fz (t.source b)))).passed) := by
  have hab := h.owns.noPort
  obtain ⟨ha, hb, -⟩ := owns2 h.owns
  have hn := Inside.now s t b.len
  refine Act.plain h ?_ rfl (h.opened b.len)
  rw [Act.ready_bind hn hf hab (by simp), Act.me_bind hn, Act.read_bind hn _ ha, Act.readSrc_bind hn _ hb, Act.pop_bind _ hab,
    Act.raise_bind hn, Act.writePred_run (State.thread?_withThread _ _)]
  simp only [State.withThread_withThread, Thread.source_opened, Thread.opened_val]; rfl
theorem Act.fcvt_inside (h : Inside s t (d :: b.fields) g) (hf : t.Holds b.fields) (f : Bool → Bool → Word → Word × Flags) :
    Act.fcvt d b g f s = .ok () (s.withThread
      (let r := f t.fz t.sat (t.source b)
       (((t.opened s.co b.len).flagged r.2).setReg d.toNat r.1).passed)) := by
  obtain ⟨hd, hb, hd'⟩ := owns2 h.owns
  have hn := Inside.now s t b.len
  refine Act.plain h ?_ rfl (h.opened b.len)
  rw [Act.ready_bind hn hf hb hd', Act.me_bind hn, Act.readSrc_bind hn _ hb, Act.pop_bind _ hb]
  show (Act.raise _ >>= _) _ = _
  rw [Act.raise_bind hn, Act.write_reg (State.thread?_withThread _ _) hd]
  simp only [State.withThread_withThread, Thread.source_opened]; rfl

/-! ## Transfers (R143, R144) -/

/-- The issue of a transfer that changes its thread only. -/
theorem Act.plainTo {fields : List (BitVec 5)} {len : Nat} {body : Act (Option Nat)} {target : Option Nat} {t' : Thread}
    (h : Inside s t fields g) (hb : body (s.withThread (t.opened s.co len)) = .ok target (s.withThread t')) (hl : t'.ilen = len)
    (hr : t'.settOn.isSome = true ∨ t'.chunk.count + 1 < t'.limit) :
    Act.issueTo .plain len fields g body s = .ok () (s.withThread (t'.moved target)) := by
  have := Act.issueTo_inside h true (.inl rfl) len hb (State.thread?_withThread _ _) hl hr
  rw [State.withThread_withThread] at this
  exact this
theorem Act.target_legal {n : Int} (h : LegalTarget n) (s : State) : Act.target n s = .ok n.toNat s := by
  obtain ⟨h0, h1, h2, h3⟩ := h
  obtain ⟨k, rfl⟩ := Int.eq_ofNat_of_zero_le h0
  unfold Act.target
  rw [if_pos]
  · rfl
  · refine ⟨h0, ?_⟩
    simp only [legalTarget, windowOf, Bool.and_eq_true, decide_eq_true_eq, Int.toNat_natCast]
    refine ⟨⟨?_, ?_⟩, ?_⟩
    · omega
    · omega
    · exact decide_eq_true (by omega)
theorem Act.target_bind {β : Type} {n : Int} (h : LegalTarget n) (s : State) (f : Nat → Act β) :
    (Act.target n >>= f) s = f n.toNat s := Act.bind_ok (Act.target_legal h s)

theorem execBr_inside {o : BitVec 20} (h : Inside s t [] g) (hT : LegalTarget (t.pc + 4 * o.toInt)) :
    execBr o g s = .next (s.withThread ((t.opened s.co 4).jumped (t.pc + 4 * o.toInt).toNat)) := by
  have hn := Inside.now s t 4
  refine Act.go_ok (Act.plainTo h (target := some (t.pc + 4 * o.toInt).toNat) ?_ rfl (h.opened 4))
  rw [Act.me_bind hn]
  exact Act.target_bind hT _ _
theorem execCall_inside {o : BitVec 20} (h : Inside s t [] g) (hT : LegalTarget (t.pc + 4 * o.toInt)) :
    execCall o g s = .next (s.withThread (((t.opened s.co 4).setReg 1 (BitVec.ofNat 64 (t.pc + 4))).jumped
      (t.pc + 4 * o.toInt).toNat)) := by
  have hn := Inside.now s t 4
  refine Act.go_ok (Act.plainTo h (target := some (t.pc + 4 * o.toInt).toNat) ?_ rfl (h.opened 4))
  rw [Act.me_bind hn, Thread.opened_pc]
  refine (Act.target_bind hT _ _).trans ?_
  rw [Act.bind_ok (Act.write_reg hn (by decide) _)]
  simp only [State.withThread_withThread]; rfl
theorem execJmp_inside (h : Inside s t b.fields g) (hf : t.Holds b.fields) (hT : LegalTarget (t.source b).toNat) :
    execJmp b g s = .next (s.withThread ((t.opened s.co b.len).jumped (t.source b).toNat)) := by
  have hb := h.owns.noPort
  have hn := Inside.now s t b.len
  refine Act.go_ok (Act.plainTo h (target := some (t.source b).toNat) ?_ rfl (h.opened b.len))
  rw [Act.ready_bind hn hf hb (by simp), Act.readSrc_bind hn _ hb, Thread.source_opened]
  refine (Act.target_bind hT _ _).trans ?_
  rw [Act.pop_bind _ hb]; rfl
theorem execCallr_inside (h : Inside s t (d :: b.fields) g) (hf : t.Holds b.fields) (hT : LegalTarget (t.source b).toNat) :
    execCallr d b g s = .next (s.withThread (((t.opened s.co b.len).setReg d.toNat (BitVec.ofNat 64 (t.pc + b.len))).jumped
      (t.source b).toNat)) := by
  obtain ⟨hd, hb, -⟩ := owns2 h.owns
  have hn := Inside.now s t b.len
  refine Act.go_ok (Act.plainTo h (target := some (t.source b).toNat) ?_ rfl (h.opened b.len))
  rw [Act.ready_bind hn hf hb (by simp), Act.me_bind hn, Act.readSrc_bind hn _ hb, Thread.source_opened]
  refine (Act.target_bind hT _ _).trans ?_
  rw [Act.pop_bind _ hb, Act.bind_ok (Act.write_reg hn hd _)]
  simp only [State.withThread_withThread]; rfl
theorem execLoop_taken (h : Inside s t [d] g) (hf : t.Holds [d]) (hx : t.val d - 1#64 ≠ 0#64)
    (hT : LegalTarget (t.pc + 4 * i.toInt)) :
    execLoop d i g s = .next (s.withThread (((t.opened s.co 4).setReg d.toNat (t.val d - 1#64)).jumped
      (t.pc + 4 * i.toInt).toNat)) := by
  have hd : isPort d = false := h.owns.port (by simp)
  have hn := Inside.now s t 4
  refine Act.go_ok (Act.plainTo h (target := some (t.pc + 4 * i.toInt).toNat) ?_ rfl (h.opened 4))
  rw [Act.ready_bind hn hf (by simp [hd]) (by simp), Act.me_bind hn, Act.read_bind hn _ hd, Thread.opened_val, if_neg hx,
    Thread.opened_pc]
  refine (Act.target_bind hT _ _).trans ?_
  rw [Act.bind_ok (Act.write_reg hn hd _)]
  simp only [State.withThread_withThread]; rfl
theorem execLoop_over (h : Inside s t [d] g) (hf : t.Holds [d]) (hx : t.val d - 1#64 = 0#64) :
    execLoop d i g s = .next (s.withThread (t.wrote s.co 4 d 0#64)) := by
  have hd : isPort d = false := h.owns.port (by simp)
  have hn := Inside.now s t 4
  refine Act.go_ok (Act.plainTo h (target := none) ?_ rfl (h.opened 4))
  rw [Act.ready_bind hn hf (by simp [hd]) (by simp), Act.me_bind hn, Act.read_bind hn _ hd, Thread.opened_val, if_pos hx,
    Act.bind_ok (Act.write_reg hn hd _)]
  simp only [State.withThread_withThread]; rfl

end shapes
end Sys2Proof.Machine
end

