-- ==== Sys2Proof/Laws/Local.lean ====
section
/-!
SUPPORT. What a load and a store of an own-local word do inside a chunk (R153, R154), and the checks of an address (R149).
-/
set_option Elab.async false

namespace Sys2Proof.Machine

variable {s : State} {t : Thread} {g : BitVec 5} {d a : BitVec 5} {i : BitVec 10}

theorem Act.address_ok {x : Word} {off : Int} {unit va : Nat} {codes : Nat → Bool} (h : checkAddr x off unit false = .ok va)
    (hc : codes (fmtOf x) = true) (s : State) : Act.address x off unit codes s = .ok va s := by
  unfold Act.address; rw [h]; simp [hc]
theorem Act.address_bind {β : Type} {x : Word} {off : Int} {unit va : Nat} {codes : Nat → Bool}
    (h : checkAddr x off unit false = .ok va) (hc : codes (fmtOf x) = true) (s : State) (f : Nat → Act β) :
    (Act.address x off unit codes >>= f) s = f va s := Act.bind_ok (Act.address_ok h hc s)
theorem checkAddr_ref {x : Word} {off : Int} {unit va : Nat} (h : checkAddr x off unit false = .ok va) : isRef x = false := by
  by_contra hr
  simp only [Bool.not_eq_false] at hr
  unfold checkAddr badTag at h
  simp [hr] at h

/-- A step taken on a condition, which changes nothing. -/
theorem Act.optional {β : Type} {s : State} {c : Bool} {m : Act Unit} {k : Unit → Act β} (hm : c = true → m s = .ok () s) :
    (if c = true then (do let r ← m; k r) else k ()) s = k () s := by
  cases c with
  | true => rw [if_pos rfl]; exact Act.bind_ok (hm rfl)
  | false => rw [if_neg (by simp)]

theorem Act.reserve_off {s : State} {t : Thread} (h : s.thread? s.cur = some t) (hs : t.solo = false) (loc : Nat) :
    Act.reserve loc s = .ok () s := by
  unfold Act.reserve; rw [Act.me_bind h]; simp [Thread.alone, hs]
theorem Act.recall_free {s : State} {loc : Nat} (ho : s.owned (loc / 64) = false) : Act.recall loc s = .ok () s := by
  unfold Act.recall; rw [Act.get_bind]; simp [ho]
/-- An access of a chunk that is not solo, to a line that no engine owns, goes on. -/
theorem Act.claim_bind {β : Type} {s : State} {t : Thread} (h : s.thread? s.cur = some t) (hs : t.solo = false) {loc : Nat}
    (ho : s.owned (loc / 64) = false) (single : Bool) (f : Unit → Act β) : (Act.claim single loc >>= f) s = f () s := by
  refine Act.bind_ok ?_
  unfold Act.claim
  cases single with
  | true => exact Act.recall_free ho
  | false => exact (Act.bind_ok (Act.reserve_off h hs loc)).trans (Act.recall_free ho)
/-- A word of local memory lies in no HBM line. -/
theorem isHbm_localLoc (c o : Nat) : isHbm (localLoc c o) = false := by
  unfold isHbm localLoc; rw [decide_eq_false_iff_not]; omega
theorem State.reachLine_local (s : State) (t : Thread) {loc : Nat} (hl : isHbm loc = false) : s.reachLine t loc = s := by
  simp [State.reachLine, hl]
/-- An access to a word outside HBM, whose line is not poisoned, only reads it. -/
theorem Act.clean_bind {β : Type} {s : State} {t : Thread} (h : s.thread? s.cur = some t) {va loc : Nat} (hl : isHbm loc = false)
    (hp : s.poisoned loc = false) (f : Unit → Act β) : (Act.clean va loc >>= f) s = f () s :=
  Act.bind_ok (by
    unfold Act.clean
    rw [Act.me_bind h]
    show (modify _ >>= _ : Act Unit) s = _
    have hm : (modify (fun s : State => s.reachLine t loc) : Act Unit) s = .ok () s := by
      show EStateM.Result.ok () (s.reachLine t loc) = _
      rw [State.reachLine_local s t hl]
    rw [Act.bind_ok hm, Act.get_bind]
    simp [hp])
theorem Act.needTable_core {s : State} {t : Thread} (h : s.thread? s.cur = some t) (hs : t.settOn = none) (x : Word) {code : Nat}
    (hb : ∀ k q, elemTable code = some (k, q) → (s.core t.core).eng.building.contains k = false) :
    Act.needTable x code s = .ok () s := by
  unfold Act.needTable
  rw [Act.me_bind h]
  cases he : elemTable code with
  | none => rfl
  | some p =>
    obtain ⟨k, q⟩ := p
    have hk := hb k q he
    show (if t.settOn.isSome = true then _ else _ : Act Unit) s = _
    simp only [hs, Option.isSome_none, Bool.false_eq_true, if_false, Act.get_bind, hk, Act.pure_run]

/-- Where an own-local address leads (R304, R305). -/
theorem State.spot_local {s : State} {t : Thread} (hs : t.settOn = none) {va : Nat} (p : Perm) (m : Bool)
    (hv : windowOf va = 15 ∨ (windowOf va = 14 ∧ va / 2 ^ 16 % 2 ^ 14 = t.core)) :
    s.spot t va p m = .near (localLoc t.core (va % 2 ^ 16)) := by
  unfold State.spot; rw [hs]
  rcases hv with hv | ⟨hv, hc⟩
  · simp [State.coreSpot, hv]
  · simp only [State.coreSpot, hv]; simp only [if_pos hc, if_true]; rfl
theorem Thread.here_core {t : Thread} (hs : t.settOn = none) : t.here = t.core := by unfold Thread.here; rw [hs]
theorem Act.maybeTravel_local {s : State} {t : Thread} {x : Word} (h : s.thread? s.cur = some t) (hs : t.settOn = none) {va : Nat}
    (hv : windowOf va = 15 ∨ (windowOf va = 14 ∧ va / 2 ^ 16 % 2 ^ 14 = t.core)) : Act.maybeTravel va x a s = .ok () s := by
  unfold Act.maybeTravel
  rw [Act.me_bind h, Act.get_bind]
  have : s.migOwner t.attr.ctx t.here va = some t.here := by
    unfold State.migOwner
    rw [Thread.here_core hs]
    rcases hv with hv | ⟨hv, hc⟩
    · simp [hv]
    · rw [if_neg (by rw [hv]; decide), if_pos hv, hc]
  rw [this]; simp

@[simp] theorem Thread.noteRead_core {t : Thread} (loc : Nat) (p : Option Nat) : (t.noteRead loc p).core = t.core := by
  unfold Thread.noteRead; split <;> rfl

theorem State.seeByte_opened (s : State) (t : Thread) (co len va loc : Nat) :
    s.seeByte (t.opened co len) va loc = s.seeByte t va loc := by
  unfold State.seeByte Thread.over
  simp only [Thread.opened_writes, Thread.opened_attr, Thread.opened_foot, Thread.opened_settOn]
  rfl
theorem State.see_opened (s : State) (t : Thread) (co len : Nat) : ∀ (n va loc : Nat),
    s.see (t.opened co len) va loc n = s.see t va loc n
  | 0, _, _ => rfl
  | n + 1, va, loc => by
    unfold State.see; rw [State.seeByte_opened, State.see_opened s t co len n]
theorem State.see_withThread (s : State) (u t : Thread) : ∀ (n va loc : Nat), (s.withThread u).see t va loc n = s.see t va loc n
  | 0, _, _ => rfl
  | n + 1, va, loc => by
    unfold State.see; rw [State.see_withThread s u t n]; rfl

/-- An opened chunk changes nothing in what the packet brought. -/
@[simp] theorem Thread.brought_opened (t : Thread) (co len : Nat) (mig : Bool) : (t.opened co len).brought mig = t.brought mig := by
  cases mig with
  | false => rfl
  | true =>
    simp only [Thread.brought, if_true]
    unfold Thread.carried Thread.opened
    by_cases hi : (t.settOn.isNone && t.chunk.idle) = true
    · rw [if_pos hi]
      have hz : t.chunk.count = 0 := by
        simp only [Bool.and_eq_true, Chunk.idle, decide_eq_true_eq] at hi
        exact hi.2.1.1
      simp only [hz]; rfl
    · rw [if_neg hi]
@[simp] theorem Thread.baseFields_opened (t : Thread) (co len : Nat) (mig : Bool) (a : BitVec 5) :
    (t.opened co len).baseFields mig a = t.baseFields mig a := by
  unfold Thread.baseFields; rw [Thread.brought_opened]
theorem Thread.base_opened {t : Thread} {mig : Bool} {a : BitVec 5} {x : Word} (h : t.Base mig a x) (co len : Nat) :
    (t.opened co len).Base mig a x := by
  unfold Thread.Base at h ⊢; rw [Thread.brought_opened]; exact h
theorem Thread.baseFields_regs {t : Thread} (mig : Bool) {a : BitVec 5} (ha : isPort a = false) :
    (t.baseFields mig a).any isPort = false := by
  unfold Thread.baseFields; split <;> simp [ha]
theorem Thread.Base.holds {t : Thread} {mig : Bool} {a : BitVec 5} {x : Word} (h : t.Base mig a x) : t.Holds (t.baseFields mig a) := by
  unfold Thread.baseFields
  rcases h with h | ⟨h, hf, -⟩
  · rw [h]; intro r hr; simp at hr
  · rw [h]; exact hf
theorem Act.base_bind {β : Type} {s : State} {t : Thread} (h : s.thread? s.cur = some t) {mig : Bool} {a : BitVec 5} {x : Word}
    (hb : t.Base mig a x) (ha : isPort a = false) {more : List (BitVec 5)} (hm : t.Holds more) (hp : more.any isPort = false)
    (f : Word → Act β) : (Act.base mig a more >>= f) s = f x s := by
  refine Act.bind_ok ?_
  unfold Act.base
  rw [Act.me_bind h]
  rcases hb with hb | ⟨hb, hf, rfl⟩
  · rw [hb]; rfl
  · rw [hb]
    have hall : t.Holds (a :: more) := by
      intro r hr
      rcases List.mem_cons.1 hr with rfl | hr
      · exact hf _ (by simp)
      · exact hm _ hr
    show (Act.ready (a :: more) [] >>= fun _ => Act.read [] a) s = _
    rw [Act.ready_bind h hall (by simp [ha]; simpa using hp) (by simp)]
    exact Act.read_reg h [] ha

theorem Act.load_local {size va : Nat} {x : Word} (mig : Bool) (h : Inside s t [d, a] g) (hf : t.Base mig a x) (hs : t.settOn = none)
    (hso : t.solo = false) (hc : checkAddr x (i.toInt * size) size false = .ok va)
    (hfit : sizeFits (fmtOf x) size = true)
    (hv : windowOf va = 15 ∨ (windowOf va = 14 ∧ va / 2 ^ 16 % 2 ^ 14 = t.core))
    (hb : ∀ k q, elemTable (fmtOf x) = some (k, q) → (s.core t.core).eng.building.contains k = false)
    (ho : s.owned (localLoc t.core (va % 2 ^ 16) / 64) = false) (hp : s.poisoned (localLoc t.core (va % 2 ^ 16)) = false) :
    Act.load size mig d a i g s = .ok () (s.withThread
      (let loc := localLoc t.core (va % 2 ^ 16)
       let r := loadValue (s.tableOf t.core) (fmtOf x) t.fz (s.see t (t.spell va) loc size)
       ((((t.opened s.co 4).noteRead loc none).flagged r.2).setReg d.toNat r.1).passed)) := by
  have hd : isPort d = false := h.owns.port (by simp)
  have ha : isPort a = false := h.owns.port (by simp)
  have hn := Inside.now s t 4
  have hroom := h.opened 4
  unfold Act.load
  refine Act.plain h ?_ ?_ ?_
  · rw [Act.base_bind hn (Thread.base_opened hf _ _) ha (by intro r hr; cases hr) (by simp), if_neg (by simp [checkAddr_ref hc])]
    refine (Act.address_bind hc (by simpa using hfit) _ _).trans ?_
    refine (Act.optional (fun _ => Act.maybeTravel_local hn hs hv)).trans ?_
    refine (Act.bind_ok (Act.needTable_core hn hs _ hb)).trans ?_
    refine (Act.me_bind hn _).trans ?_
    rw [Act.get_bind]
    have hspot : (s.withThread (t.opened s.co 4)).spot (t.opened s.co 4) va .rd mig = .near (localLoc t.core (va % 2 ^ 16)) :=
      State.spot_local hs _ _ hv
    rw [hspot]
    refine (Act.claim_bind hn (by simpa using hso) ho _ _).trans ?_
    refine (Act.clean_bind hn (isHbm_localLoc _ _) hp _).trans ?_
    rw [Act.get_bind, if_neg (by simp [ha])]
    refine (Act.modMe_bind hn _ _).trans ?_
    refine (Act.pop_bind _ (Thread.baseFields_regs mig ha) _).trans ?_
    refine (Act.raise_bind (State.thread?_withThread _ _) _ _).trans ?_
    refine (Act.write_reg (State.thread?_withThread _ _) hd _).trans ?_
    simp only [State.withThread_withThread, State.see_withThread, State.see_opened]
    rfl
  · have : ((t.opened s.co 4).noteRead (localLoc t.core (va % 2 ^ 16)) none).ilen = 4 := by unfold Thread.noteRead; split <;> rfl
    exact this
  · have := hroom
    show ((t.opened s.co 4).noteRead (localLoc t.core (va % 2 ^ 16)) none).settOn.isSome = true ∨
      ((t.opened s.co 4).noteRead (localLoc t.core (va % 2 ^ 16)) none).chunk.count + 1 <
      ((t.opened s.co 4).noteRead (localLoc t.core (va % 2 ^ 16)) none).limit
    unfold Thread.noteRead; split <;> exact this

theorem Thread.opened_chunk_eta (t : Thread) (co len : Nat) (es : List WEntry) :
    ({ (t.opened co len).chunk with writes := es ++ (t.opened co len).chunk.writes } : Chunk).words =
    ({ t.chunk with writes := es ++ t.chunk.writes } : Chunk).words := by
  unfold Chunk.words; simp only [Thread.opened_writes]
theorem Act.buffer_takes {s : State} {t : Thread} (h : s.thread? s.cur = some t) {es : List WEntry}
    (hw : ({ t.chunk with writes := es ++ t.chunk.writes } : Chunk).words ≤ 64) (hf : t.attr.isSealed = true → t.footOver es = false) :
    Act.buffer es none s = .ok () (s.withThread (t.buffered es)) := by
  unfold Act.buffer
  rw [Act.me_bind h]
  have hc : (t.attr.isSealed && t.footOver es) = false := by
    cases hse : t.attr.isSealed with
    | false => rfl
    | true => simp [hf hse]
  have hl : ¬ 64 < ({ t.chunk with writes := es ++ t.chunk.writes } : Chunk).words := by omega
  simp only [hc, Bool.false_eq_true, if_false, hl]
  exact Act.modMe_run h _

theorem Act.store_local {size va : Nat} {x : Word} (mig : Bool) (h : Inside s t [d, a] g) (hf : t.Base mig a x) (hfd : t.Holds [d]) (hs : t.settOn = none)
    (hso : t.solo = false) (hc : checkAddr x (i.toInt * size) size false = .ok va)
    (hfit : sizeFits (fmtOf x) size = true)
    (hv : windowOf va = 15 ∨ (windowOf va = 14 ∧ va / 2 ^ 16 % 2 ^ 14 = t.core))
    (hb : ∀ k q, elemTable (fmtOf x) = some (k, q) → (s.core t.core).eng.building.contains k = false)
    (ho : s.owned (localLoc t.core (va % 2 ^ 16) / 64) = false)
    (ht : t.Takes (entriesAt (t.spell va) (localLoc t.core (va % 2 ^ 16))
      (storeValue (s.tableOf t.core) (fmtOf x) t.fz t.sat (t.val d)).1 size)) :
    Act.store size mig d a i g s = .ok () (s.withThread
      (let loc := localLoc t.core (va % 2 ^ 16)
       let r := storeValue (s.tableOf t.core) (fmtOf x) t.fz t.sat (t.val d)
       (((t.opened s.co 4).buffered (entriesAt (t.spell va) loc r.1 size)).flagged r.2).passed)) := by
  have hd : isPort d = false := h.owns.port (by simp)
  have ha : isPort a = false := h.owns.port (by simp)
  have hn := Inside.now s t 4
  have hroom := h.opened 4
  have had : ((t.opened s.co 4).baseFields mig a ++ [d]).any isPort = false := by
    rw [List.any_append, Thread.baseFields_regs mig ha]; simp [hd]
  have hall : (t.opened s.co 4).Holds ((t.opened s.co 4).baseFields mig a ++ [d]) := by
    intro r hr
    rcases List.mem_append.1 hr with hr | hr
    · exact (Thread.base_opened hf s.co 4).holds r hr
    · exact hfd r hr
  have hmore : (t.opened s.co 4).Holds (if mig = true then [] else [d]) := by
    cases mig
    · exact hfd
    · intro r hr; cases hr
  have hmp : (if mig = true then [] else [d] : List (BitVec 5)).any isPort = false := by cases mig <;> simp [hd]
  unfold Act.store
  refine Act.plain h ?_ rfl ?_
  · rw [Act.base_bind hn (Thread.base_opened hf _ _) ha hmore hmp, if_neg (by simp [checkAddr_ref hc])]
    refine (Act.address_bind hc (by simpa using hfit) _ _).trans ?_
    refine (Act.optional (fun _ => Act.maybeTravel_local hn hs hv)).trans ?_
    refine (Act.me_bind hn _).trans ?_
    refine (Act.ready_bind hn hall had (by simp) _).trans ?_
    refine (Act.bind_ok (Act.needTable_core hn hs _ hb)).trans ?_
    rw [Act.get_bind]
    refine (Act.read_bind hn _ hd _).trans ?_
    have hspot : (s.withThread (t.opened s.co 4)).spot (t.opened s.co 4) va .wr mig = .near (localLoc t.core (va % 2 ^ 16)) :=
      State.spot_local hs _ _ hv
    have hss : (t.opened s.co 4).settOn.isSome = false := by simp [hs]
    simp only [hspot]
    show (if (t.opened s.co 4).settOn.isSome = true then _ else _ : Act Unit) _ = _
    rw [if_neg (by rw [hss]; exact Bool.false_ne_true), if_neg (by simp [ha, hd])]
    refine (Act.claim_bind hn (by simpa using hso) ho _ _).trans ?_
    have ht' := ht.1
    rw [← Thread.opened_chunk_eta t s.co 4] at ht'
    have hfo : (t.opened s.co 4).attr.isSealed = true → (t.opened s.co 4).footOver
        (entriesAt (t.spell va) (localLoc t.core (va % 2 ^ 16))
          (storeValue (s.tableOf t.core) (fmtOf x) t.fz t.sat (t.val d)).1 size) = false := by
      intro hse
      have := ht.2 hse
      unfold Thread.footOver Thread.unpublished at this ⊢
      simpa only [Thread.opened_writes, Thread.opened_foot, Thread.opened_prev] using this
    refine (Act.bind_ok (Act.buffer_takes hn ht' hfo)).trans ?_
    refine (Act.pop_bind _ had _).trans ?_
    refine (Act.raise_run (State.thread?_withThread _ _) _).trans ?_
    simp only [State.withThread_withThread]
    rfl
  · exact hroom

end Sys2Proof.Machine
end

