-- ==== Sys2Proof/Laws/Memory.lean ====
section
/-!
SUPPORT. What the commit of bytes does to memory and what it leaves alone (R313, R334), and that memory keeps its canonical form.
-/
set_option Elab.async false

namespace Sys2Proof.Machine

/-- A fold keeps whatever each of its steps keeps. -/
theorem foldl_keeps {α β γ : Type} {f : β → α → β} {p : β → γ} (h : ∀ s a, p (f s a) = p s) : ∀ (l : List α) (s : β), p (l.foldl f s) = p s
  | [], _ => rfl
  | a :: l, s => by rw [List.foldl_cons, foldl_keeps h l, h]
/-- A fold keeps an invariant of its steps. -/
theorem foldl_inv {α β : Type} {f : β → α → β} {P : β → Prop} (h : ∀ s a, P s → P (f s a)) : ∀ (l : List α) (s : β), P s → P (l.foldl f s)
  | [], _, hs => hs
  | a :: l, s, hs => foldl_inv h l (f s a) (h s a hs)

/-! ## What each operation leaves alone -/

@[simp] theorem State.mem_choose (s : State) (n : Nat) : ((s.choose n).2).mem = s.mem := rfl
@[simp] theorem State.empty_choose (s : State) (n : Nat) : ((s.choose n).2).empty = s.empty := rfl
@[simp] theorem State.poison_choose (s : State) (n : Nat) : ((s.choose n).2).poison = s.poison := rfl
@[simp] theorem State.near_choose (s : State) (n : Nat) : ((s.choose n).2).near = s.near := rfl
@[simp] theorem State.cached_choose (s : State) (n : Nat) : ((s.choose n).2).cached = s.cached := rfl
@[simp] theorem State.latent_choose (s : State) (n : Nat) : ((s.choose n).2).latent = s.latent := rfl
@[simp] theorem State.co_choose (s : State) (n : Nat) : ((s.choose n).2).co = s.co := rfl
@[simp] theorem State.stamps_choose (s : State) (n : Nat) : ((s.choose n).2).stamps = s.stamps := rfl
@[simp] theorem State.reserved_choose (s : State) (n : Nat) : ((s.choose n).2).reserved = s.reserved := rfl
@[simp] theorem State.threads_choose (s : State) (n : Nat) : ((s.choose n).2).threads = s.threads := rfl
@[simp] theorem State.cores_choose (s : State) (n : Nat) : ((s.choose n).2).cores = s.cores := rfl
@[simp] theorem State.setts_choose (s : State) (n : Nat) : ((s.choose n).2).setts = s.setts := rfl
@[simp] theorem State.tcache_choose (s : State) (n : Nat) : ((s.choose n).2).tcache = s.tcache := rfl
@[simp] theorem State.grants_choose (s : State) (n : Nat) : ((s.choose n).2).grants = s.grants := rfl
@[simp] theorem State.used_choose (s : State) (n : Nat) : ((s.choose n).2).used = s.used := rfl
@[simp] theorem State.mapped_choose (s : State) (n : Nat) : ((s.choose n).2).mapped = s.mapped := rfl
@[simp] theorem State.faultq_choose (s : State) (n : Nat) : ((s.choose n).2).faultq = s.faultq := rfl
@[simp] theorem State.waiters_choose (s : State) (n : Nat) : ((s.choose n).2).waiters = s.waiters := rfl
@[simp] theorem State.watches_choose (s : State) (n : Nat) : ((s.choose n).2).watches = s.watches := rfl
@[simp] theorem State.nextWatch_choose (s : State) (n : Nat) : ((s.choose n).2).nextWatch = s.nextWatch := rfl
@[simp] theorem State.groups_choose (s : State) (n : Nat) : ((s.choose n).2).groups = s.groups := rfl
@[simp] theorem State.outbox_choose (s : State) (n : Nat) : ((s.choose n).2).outbox = s.outbox := rfl
@[simp] theorem State.launches_choose (s : State) (n : Nat) : ((s.choose n).2).launches = s.launches := rfl
@[simp] theorem State.nextKey_choose (s : State) (n : Nat) : ((s.choose n).2).nextKey = s.nextKey := rfl
@[simp] theorem State.served_choose (s : State) (n : Nat) : ((s.choose n).2).served = s.served := rfl
@[simp] theorem State.handles_choose (s : State) (n : Nat) : ((s.choose n).2).handles = s.handles := rfl
@[simp] theorem State.syncs_choose (s : State) (n : Nat) : ((s.choose n).2).syncs = s.syncs := rfl
@[simp] theorem State.saved_choose (s : State) (n : Nat) : ((s.choose n).2).saved = s.saved := rfl
@[simp] theorem State.ctxs_choose (s : State) (n : Nat) : ((s.choose n).2).ctxs = s.ctxs := rfl
@[simp] theorem State.device_choose (s : State) (n : Nat) : ((s.choose n).2).device = s.device := rfl
@[simp] theorem State.ageing_choose (s : State) (n : Nat) : ((s.choose n).2).ageing = s.ageing := rfl
@[simp] theorem State.bankLimit_choose (s : State) (n : Nat) : ((s.choose n).2).bankLimit = s.bankLimit := rfl
@[simp] theorem State.threshold_choose (s : State) (n : Nat) : ((s.choose n).2).threshold = s.threshold := rfl
@[simp] theorem State.lostStacks_choose (s : State) (n : Nat) : ((s.choose n).2).lostStacks = s.lostStacks := rfl
@[simp] theorem State.lostLinks_choose (s : State) (n : Nat) : ((s.choose n).2).lostLinks = s.lostLinks := rfl
@[simp] theorem State.lostDevs_choose (s : State) (n : Nat) : ((s.choose n).2).lostDevs = s.lostDevs := rfl
@[simp] theorem State.lostPorts_choose (s : State) (n : Nat) : ((s.choose n).2).lostPorts = s.lostPorts := rfl
@[simp] theorem State.lostHomes_choose (s : State) (n : Nat) : ((s.choose n).2).lostHomes = s.lostHomes := rfl
@[simp] theorem State.renewed_choose (s : State) (n : Nat) : ((s.choose n).2).renewed = s.renewed := rfl
@[simp] theorem State.bedLost_choose (s : State) (n : Nat) : ((s.choose n).2).bedLost = s.bedLost := rfl
@[simp] theorem State.pending_choose (s : State) (n : Nat) : ((s.choose n).2).pending = s.pending := rfl
@[simp] theorem State.timers_choose (s : State) (n : Nat) : ((s.choose n).2).timers = s.timers := rfl
@[simp] theorem State.turns_choose (s : State) (n : Nat) : ((s.choose n).2).turns = s.turns := rfl
@[simp] theorem State.cur_choose (s : State) (n : Nat) : ((s.choose n).2).cur = s.cur := rfl
@[simp] theorem State.iword_choose (s : State) (n : Nat) : ((s.choose n).2).iword = s.iword := rfl
@[simp] theorem State.cycle_choose (s : State) (n : Nat) : ((s.choose n).2).cycle = s.cycle := rfl
@[simp] theorem State.scan_choose (s : State) (n : Nat) : ((s.choose n).2).scan = s.scan := rfl
@[simp] theorem State.ending_choose (s : State) (n : Nat) : ((s.choose n).2).ending = s.ending := rfl
@[simp] theorem State.nextUid_choose (s : State) (n : Nat) : ((s.choose n).2).nextUid = s.nextUid := rfl
@[simp] theorem State.frozen_choose (s : State) (n : Nat) : ((s.choose n).2).frozen = s.frozen := rfl
@[simp] theorem State.view_choose (s : State) (n : Nat) : ((s.choose n).2).view = s.view := rfl
@[simp] theorem State.cxlData_choose (s : State) (n : Nat) : ((s.choose n).2).cxlData = s.cxlData := rfl
@[simp] theorem State.mem_freeWord (s : State) : (s.freeWord.2).mem = s.mem := rfl
@[simp] theorem State.empty_freeWord (s : State) : (s.freeWord.2).empty = s.empty := rfl
@[simp] theorem State.poison_freeWord (s : State) : (s.freeWord.2).poison = s.poison := rfl
@[simp] theorem State.near_freeWord (s : State) : (s.freeWord.2).near = s.near := rfl
@[simp] theorem State.cached_freeWord (s : State) : (s.freeWord.2).cached = s.cached := rfl
@[simp] theorem State.latent_freeWord (s : State) : (s.freeWord.2).latent = s.latent := rfl
@[simp] theorem State.co_freeWord (s : State) : (s.freeWord.2).co = s.co := rfl
@[simp] theorem State.stamps_freeWord (s : State) : (s.freeWord.2).stamps = s.stamps := rfl
@[simp] theorem State.reserved_freeWord (s : State) : (s.freeWord.2).reserved = s.reserved := rfl
@[simp] theorem State.threads_freeWord (s : State) : (s.freeWord.2).threads = s.threads := rfl
@[simp] theorem State.cores_freeWord (s : State) : (s.freeWord.2).cores = s.cores := rfl
@[simp] theorem State.setts_freeWord (s : State) : (s.freeWord.2).setts = s.setts := rfl
@[simp] theorem State.tcache_freeWord (s : State) : (s.freeWord.2).tcache = s.tcache := rfl
@[simp] theorem State.grants_freeWord (s : State) : (s.freeWord.2).grants = s.grants := rfl
@[simp] theorem State.used_freeWord (s : State) : (s.freeWord.2).used = s.used := rfl
@[simp] theorem State.mapped_freeWord (s : State) : (s.freeWord.2).mapped = s.mapped := rfl
@[simp] theorem State.faultq_freeWord (s : State) : (s.freeWord.2).faultq = s.faultq := rfl
@[simp] theorem State.waiters_freeWord (s : State) : (s.freeWord.2).waiters = s.waiters := rfl
@[simp] theorem State.watches_freeWord (s : State) : (s.freeWord.2).watches = s.watches := rfl
@[simp] theorem State.nextWatch_freeWord (s : State) : (s.freeWord.2).nextWatch = s.nextWatch := rfl
@[simp] theorem State.groups_freeWord (s : State) : (s.freeWord.2).groups = s.groups := rfl
@[simp] theorem State.outbox_freeWord (s : State) : (s.freeWord.2).outbox = s.outbox := rfl
@[simp] theorem State.launches_freeWord (s : State) : (s.freeWord.2).launches = s.launches := rfl
@[simp] theorem State.nextKey_freeWord (s : State) : (s.freeWord.2).nextKey = s.nextKey := rfl
@[simp] theorem State.served_freeWord (s : State) : (s.freeWord.2).served = s.served := rfl
@[simp] theorem State.handles_freeWord (s : State) : (s.freeWord.2).handles = s.handles := rfl
@[simp] theorem State.syncs_freeWord (s : State) : (s.freeWord.2).syncs = s.syncs := rfl
@[simp] theorem State.saved_freeWord (s : State) : (s.freeWord.2).saved = s.saved := rfl
@[simp] theorem State.ctxs_freeWord (s : State) : (s.freeWord.2).ctxs = s.ctxs := rfl
@[simp] theorem State.device_freeWord (s : State) : (s.freeWord.2).device = s.device := rfl
@[simp] theorem State.ageing_freeWord (s : State) : (s.freeWord.2).ageing = s.ageing := rfl
@[simp] theorem State.bankLimit_freeWord (s : State) : (s.freeWord.2).bankLimit = s.bankLimit := rfl
@[simp] theorem State.threshold_freeWord (s : State) : (s.freeWord.2).threshold = s.threshold := rfl
@[simp] theorem State.lostStacks_freeWord (s : State) : (s.freeWord.2).lostStacks = s.lostStacks := rfl
@[simp] theorem State.lostLinks_freeWord (s : State) : (s.freeWord.2).lostLinks = s.lostLinks := rfl
@[simp] theorem State.lostDevs_freeWord (s : State) : (s.freeWord.2).lostDevs = s.lostDevs := rfl
@[simp] theorem State.lostPorts_freeWord (s : State) : (s.freeWord.2).lostPorts = s.lostPorts := rfl
@[simp] theorem State.lostHomes_freeWord (s : State) : (s.freeWord.2).lostHomes = s.lostHomes := rfl
@[simp] theorem State.renewed_freeWord (s : State) : (s.freeWord.2).renewed = s.renewed := rfl
@[simp] theorem State.bedLost_freeWord (s : State) : (s.freeWord.2).bedLost = s.bedLost := rfl
@[simp] theorem State.pending_freeWord (s : State) : (s.freeWord.2).pending = s.pending := rfl
@[simp] theorem State.timers_freeWord (s : State) : (s.freeWord.2).timers = s.timers := rfl
@[simp] theorem State.turns_freeWord (s : State) : (s.freeWord.2).turns = s.turns := rfl
@[simp] theorem State.cur_freeWord (s : State) : (s.freeWord.2).cur = s.cur := rfl
@[simp] theorem State.iword_freeWord (s : State) : (s.freeWord.2).iword = s.iword := rfl
@[simp] theorem State.cycle_freeWord (s : State) : (s.freeWord.2).cycle = s.cycle := rfl
@[simp] theorem State.scan_freeWord (s : State) : (s.freeWord.2).scan = s.scan := rfl
@[simp] theorem State.ending_freeWord (s : State) : (s.freeWord.2).ending = s.ending := rfl
@[simp] theorem State.nextUid_freeWord (s : State) : (s.freeWord.2).nextUid = s.nextUid := rfl
@[simp] theorem State.frozen_freeWord (s : State) : (s.freeWord.2).frozen = s.frozen := rfl
@[simp] theorem State.view_freeWord (s : State) : (s.freeWord.2).view = s.view := rfl
@[simp] theorem State.cxlData_freeWord (s : State) : (s.freeWord.2).cxlData = s.cxlData := rfl
@[simp] theorem State.empty_writeBackByte (s : State) (l : Nat) : (s.writeBackByte l).empty = s.empty := by unfold State.writeBackByte; split <;> (try split) <;> rfl
@[simp] theorem State.poison_writeBackByte (s : State) (l : Nat) : (s.writeBackByte l).poison = s.poison := by unfold State.writeBackByte; split <;> (try split) <;> rfl
@[simp] theorem State.cached_writeBackByte (s : State) (l : Nat) : (s.writeBackByte l).cached = s.cached := by unfold State.writeBackByte; split <;> (try split) <;> rfl
@[simp] theorem State.latent_writeBackByte (s : State) (l : Nat) : (s.writeBackByte l).latent = s.latent := by unfold State.writeBackByte; split <;> (try split) <;> rfl
@[simp] theorem State.co_writeBackByte (s : State) (l : Nat) : (s.writeBackByte l).co = s.co := by unfold State.writeBackByte; split <;> (try split) <;> rfl
@[simp] theorem State.reserved_writeBackByte (s : State) (l : Nat) : (s.writeBackByte l).reserved = s.reserved := by unfold State.writeBackByte; split <;> (try split) <;> rfl
@[simp] theorem State.threads_writeBackByte (s : State) (l : Nat) : (s.writeBackByte l).threads = s.threads := by unfold State.writeBackByte; split <;> (try split) <;> rfl
@[simp] theorem State.cores_writeBackByte (s : State) (l : Nat) : (s.writeBackByte l).cores = s.cores := by unfold State.writeBackByte; split <;> (try split) <;> rfl
@[simp] theorem State.setts_writeBackByte (s : State) (l : Nat) : (s.writeBackByte l).setts = s.setts := by unfold State.writeBackByte; split <;> (try split) <;> rfl
@[simp] theorem State.tcache_writeBackByte (s : State) (l : Nat) : (s.writeBackByte l).tcache = s.tcache := by unfold State.writeBackByte; split <;> (try split) <;> rfl
@[simp] theorem State.grants_writeBackByte (s : State) (l : Nat) : (s.writeBackByte l).grants = s.grants := by unfold State.writeBackByte; split <;> (try split) <;> rfl
@[simp] theorem State.used_writeBackByte (s : State) (l : Nat) : (s.writeBackByte l).used = s.used := by unfold State.writeBackByte; split <;> (try split) <;> rfl
@[simp] theorem State.mapped_writeBackByte (s : State) (l : Nat) : (s.writeBackByte l).mapped = s.mapped := by unfold State.writeBackByte; split <;> (try split) <;> rfl
@[simp] theorem State.faultq_writeBackByte (s : State) (l : Nat) : (s.writeBackByte l).faultq = s.faultq := by unfold State.writeBackByte; split <;> (try split) <;> rfl
@[simp] theorem State.waiters_writeBackByte (s : State) (l : Nat) : (s.writeBackByte l).waiters = s.waiters := by unfold State.writeBackByte; split <;> (try split) <;> rfl
@[simp] theorem State.watches_writeBackByte (s : State) (l : Nat) : (s.writeBackByte l).watches = s.watches := by unfold State.writeBackByte; split <;> (try split) <;> rfl
@[simp] theorem State.nextWatch_writeBackByte (s : State) (l : Nat) : (s.writeBackByte l).nextWatch = s.nextWatch := by unfold State.writeBackByte; split <;> (try split) <;> rfl
@[simp] theorem State.groups_writeBackByte (s : State) (l : Nat) : (s.writeBackByte l).groups = s.groups := by unfold State.writeBackByte; split <;> (try split) <;> rfl
@[simp] theorem State.outbox_writeBackByte (s : State) (l : Nat) : (s.writeBackByte l).outbox = s.outbox := by unfold State.writeBackByte; split <;> (try split) <;> rfl
@[simp] theorem State.launches_writeBackByte (s : State) (l : Nat) : (s.writeBackByte l).launches = s.launches := by unfold State.writeBackByte; split <;> (try split) <;> rfl
@[simp] theorem State.nextKey_writeBackByte (s : State) (l : Nat) : (s.writeBackByte l).nextKey = s.nextKey := by unfold State.writeBackByte; split <;> (try split) <;> rfl
@[simp] theorem State.served_writeBackByte (s : State) (l : Nat) : (s.writeBackByte l).served = s.served := by unfold State.writeBackByte; split <;> (try split) <;> rfl
@[simp] theorem State.handles_writeBackByte (s : State) (l : Nat) : (s.writeBackByte l).handles = s.handles := by unfold State.writeBackByte; split <;> (try split) <;> rfl
@[simp] theorem State.syncs_writeBackByte (s : State) (l : Nat) : (s.writeBackByte l).syncs = s.syncs := by unfold State.writeBackByte; split <;> (try split) <;> rfl
@[simp] theorem State.saved_writeBackByte (s : State) (l : Nat) : (s.writeBackByte l).saved = s.saved := by unfold State.writeBackByte; split <;> (try split) <;> rfl
@[simp] theorem State.ctxs_writeBackByte (s : State) (l : Nat) : (s.writeBackByte l).ctxs = s.ctxs := by unfold State.writeBackByte; split <;> (try split) <;> rfl
@[simp] theorem State.device_writeBackByte (s : State) (l : Nat) : (s.writeBackByte l).device = s.device := by unfold State.writeBackByte; split <;> (try split) <;> rfl
@[simp] theorem State.ageing_writeBackByte (s : State) (l : Nat) : (s.writeBackByte l).ageing = s.ageing := by unfold State.writeBackByte; split <;> (try split) <;> rfl
@[simp] theorem State.bankLimit_writeBackByte (s : State) (l : Nat) : (s.writeBackByte l).bankLimit = s.bankLimit := by unfold State.writeBackByte; split <;> (try split) <;> rfl
@[simp] theorem State.threshold_writeBackByte (s : State) (l : Nat) : (s.writeBackByte l).threshold = s.threshold := by unfold State.writeBackByte; split <;> (try split) <;> rfl
@[simp] theorem State.lostStacks_writeBackByte (s : State) (l : Nat) : (s.writeBackByte l).lostStacks = s.lostStacks := by unfold State.writeBackByte; split <;> (try split) <;> rfl
@[simp] theorem State.lostLinks_writeBackByte (s : State) (l : Nat) : (s.writeBackByte l).lostLinks = s.lostLinks := by unfold State.writeBackByte; split <;> (try split) <;> rfl
@[simp] theorem State.lostDevs_writeBackByte (s : State) (l : Nat) : (s.writeBackByte l).lostDevs = s.lostDevs := by unfold State.writeBackByte; split <;> (try split) <;> rfl
@[simp] theorem State.lostPorts_writeBackByte (s : State) (l : Nat) : (s.writeBackByte l).lostPorts = s.lostPorts := by unfold State.writeBackByte; split <;> (try split) <;> rfl
@[simp] theorem State.lostHomes_writeBackByte (s : State) (l : Nat) : (s.writeBackByte l).lostHomes = s.lostHomes := by unfold State.writeBackByte; split <;> (try split) <;> rfl
@[simp] theorem State.renewed_writeBackByte (s : State) (l : Nat) : (s.writeBackByte l).renewed = s.renewed := by unfold State.writeBackByte; split <;> (try split) <;> rfl
@[simp] theorem State.bedLost_writeBackByte (s : State) (l : Nat) : (s.writeBackByte l).bedLost = s.bedLost := by unfold State.writeBackByte; split <;> (try split) <;> rfl
@[simp] theorem State.pending_writeBackByte (s : State) (l : Nat) : (s.writeBackByte l).pending = s.pending := by unfold State.writeBackByte; split <;> (try split) <;> rfl
@[simp] theorem State.timers_writeBackByte (s : State) (l : Nat) : (s.writeBackByte l).timers = s.timers := by unfold State.writeBackByte; split <;> (try split) <;> rfl
@[simp] theorem State.turns_writeBackByte (s : State) (l : Nat) : (s.writeBackByte l).turns = s.turns := by unfold State.writeBackByte; split <;> (try split) <;> rfl
@[simp] theorem State.cur_writeBackByte (s : State) (l : Nat) : (s.writeBackByte l).cur = s.cur := by unfold State.writeBackByte; split <;> (try split) <;> rfl
@[simp] theorem State.iword_writeBackByte (s : State) (l : Nat) : (s.writeBackByte l).iword = s.iword := by unfold State.writeBackByte; split <;> (try split) <;> rfl
@[simp] theorem State.cycle_writeBackByte (s : State) (l : Nat) : (s.writeBackByte l).cycle = s.cycle := by unfold State.writeBackByte; split <;> (try split) <;> rfl
@[simp] theorem State.scan_writeBackByte (s : State) (l : Nat) : (s.writeBackByte l).scan = s.scan := by unfold State.writeBackByte; split <;> (try split) <;> rfl
@[simp] theorem State.ending_writeBackByte (s : State) (l : Nat) : (s.writeBackByte l).ending = s.ending := by unfold State.writeBackByte; split <;> (try split) <;> rfl
@[simp] theorem State.free_writeBackByte (s : State) (l : Nat) : (s.writeBackByte l).free = s.free := by unfold State.writeBackByte; split <;> (try split) <;> rfl
@[simp] theorem State.nextUid_writeBackByte (s : State) (l : Nat) : (s.writeBackByte l).nextUid = s.nextUid := by unfold State.writeBackByte; split <;> (try split) <;> rfl
@[simp] theorem State.frozen_writeBackByte (s : State) (l : Nat) : (s.writeBackByte l).frozen = s.frozen := by unfold State.writeBackByte; split <;> (try split) <;> rfl
@[simp] theorem State.view_writeBackByte (s : State) (l : Nat) : (s.writeBackByte l).view = s.view := by unfold State.writeBackByte; split <;> (try split) <;> rfl
@[simp] theorem State.cxlData_writeBackByte (s : State) (l : Nat) : (s.writeBackByte l).cxlData = s.cxlData := by unfold State.writeBackByte; split <;> (try split) <;> rfl
@[simp] theorem State.empty_writeBackLine (s : State) (l : Nat) : (s.writeBackLine l).empty = s.empty := by unfold State.writeBackLine; generalize List.range 64 = ls; exact foldl_keeps (p := fun s : State => s.empty) (by intro s a; simp) _ _
@[simp] theorem State.poison_writeBackLine (s : State) (l : Nat) : (s.writeBackLine l).poison = s.poison := by unfold State.writeBackLine; generalize List.range 64 = ls; exact foldl_keeps (p := fun s : State => s.poison) (by intro s a; simp) _ _
@[simp] theorem State.reserved_writeBackLine (s : State) (l : Nat) : (s.writeBackLine l).reserved = s.reserved := by unfold State.writeBackLine; generalize List.range 64 = ls; exact foldl_keeps (p := fun s : State => s.reserved) (by intro s a; simp) _ _
@[simp] theorem State.threads_writeBackLine (s : State) (l : Nat) : (s.writeBackLine l).threads = s.threads := by unfold State.writeBackLine; generalize List.range 64 = ls; exact foldl_keeps (p := fun s : State => s.threads) (by intro s a; simp) _ _
@[simp] theorem State.cores_writeBackLine (s : State) (l : Nat) : (s.writeBackLine l).cores = s.cores := by unfold State.writeBackLine; generalize List.range 64 = ls; exact foldl_keeps (p := fun s : State => s.cores) (by intro s a; simp) _ _
@[simp] theorem State.setts_writeBackLine (s : State) (l : Nat) : (s.writeBackLine l).setts = s.setts := by unfold State.writeBackLine; generalize List.range 64 = ls; exact foldl_keeps (p := fun s : State => s.setts) (by intro s a; simp) _ _
@[simp] theorem State.tcache_writeBackLine (s : State) (l : Nat) : (s.writeBackLine l).tcache = s.tcache := by unfold State.writeBackLine; generalize List.range 64 = ls; exact foldl_keeps (p := fun s : State => s.tcache) (by intro s a; simp) _ _
@[simp] theorem State.grants_writeBackLine (s : State) (l : Nat) : (s.writeBackLine l).grants = s.grants := by unfold State.writeBackLine; generalize List.range 64 = ls; exact foldl_keeps (p := fun s : State => s.grants) (by intro s a; simp) _ _
@[simp] theorem State.used_writeBackLine (s : State) (l : Nat) : (s.writeBackLine l).used = s.used := by unfold State.writeBackLine; generalize List.range 64 = ls; exact foldl_keeps (p := fun s : State => s.used) (by intro s a; simp) _ _
@[simp] theorem State.mapped_writeBackLine (s : State) (l : Nat) : (s.writeBackLine l).mapped = s.mapped := by unfold State.writeBackLine; generalize List.range 64 = ls; exact foldl_keeps (p := fun s : State => s.mapped) (by intro s a; simp) _ _
@[simp] theorem State.faultq_writeBackLine (s : State) (l : Nat) : (s.writeBackLine l).faultq = s.faultq := by unfold State.writeBackLine; generalize List.range 64 = ls; exact foldl_keeps (p := fun s : State => s.faultq) (by intro s a; simp) _ _
@[simp] theorem State.waiters_writeBackLine (s : State) (l : Nat) : (s.writeBackLine l).waiters = s.waiters := by unfold State.writeBackLine; generalize List.range 64 = ls; exact foldl_keeps (p := fun s : State => s.waiters) (by intro s a; simp) _ _
@[simp] theorem State.watches_writeBackLine (s : State) (l : Nat) : (s.writeBackLine l).watches = s.watches := by unfold State.writeBackLine; generalize List.range 64 = ls; exact foldl_keeps (p := fun s : State => s.watches) (by intro s a; simp) _ _
@[simp] theorem State.nextWatch_writeBackLine (s : State) (l : Nat) : (s.writeBackLine l).nextWatch = s.nextWatch := by unfold State.writeBackLine; generalize List.range 64 = ls; exact foldl_keeps (p := fun s : State => s.nextWatch) (by intro s a; simp) _ _
@[simp] theorem State.groups_writeBackLine (s : State) (l : Nat) : (s.writeBackLine l).groups = s.groups := by unfold State.writeBackLine; generalize List.range 64 = ls; exact foldl_keeps (p := fun s : State => s.groups) (by intro s a; simp) _ _
@[simp] theorem State.outbox_writeBackLine (s : State) (l : Nat) : (s.writeBackLine l).outbox = s.outbox := by unfold State.writeBackLine; generalize List.range 64 = ls; exact foldl_keeps (p := fun s : State => s.outbox) (by intro s a; simp) _ _
@[simp] theorem State.launches_writeBackLine (s : State) (l : Nat) : (s.writeBackLine l).launches = s.launches := by unfold State.writeBackLine; generalize List.range 64 = ls; exact foldl_keeps (p := fun s : State => s.launches) (by intro s a; simp) _ _
@[simp] theorem State.nextKey_writeBackLine (s : State) (l : Nat) : (s.writeBackLine l).nextKey = s.nextKey := by unfold State.writeBackLine; generalize List.range 64 = ls; exact foldl_keeps (p := fun s : State => s.nextKey) (by intro s a; simp) _ _
@[simp] theorem State.served_writeBackLine (s : State) (l : Nat) : (s.writeBackLine l).served = s.served := by unfold State.writeBackLine; generalize List.range 64 = ls; exact foldl_keeps (p := fun s : State => s.served) (by intro s a; simp) _ _
@[simp] theorem State.handles_writeBackLine (s : State) (l : Nat) : (s.writeBackLine l).handles = s.handles := by unfold State.writeBackLine; generalize List.range 64 = ls; exact foldl_keeps (p := fun s : State => s.handles) (by intro s a; simp) _ _
@[simp] theorem State.syncs_writeBackLine (s : State) (l : Nat) : (s.writeBackLine l).syncs = s.syncs := by unfold State.writeBackLine; generalize List.range 64 = ls; exact foldl_keeps (p := fun s : State => s.syncs) (by intro s a; simp) _ _
@[simp] theorem State.saved_writeBackLine (s : State) (l : Nat) : (s.writeBackLine l).saved = s.saved := by unfold State.writeBackLine; generalize List.range 64 = ls; exact foldl_keeps (p := fun s : State => s.saved) (by intro s a; simp) _ _
@[simp] theorem State.ctxs_writeBackLine (s : State) (l : Nat) : (s.writeBackLine l).ctxs = s.ctxs := by unfold State.writeBackLine; generalize List.range 64 = ls; exact foldl_keeps (p := fun s : State => s.ctxs) (by intro s a; simp) _ _
@[simp] theorem State.device_writeBackLine (s : State) (l : Nat) : (s.writeBackLine l).device = s.device := by unfold State.writeBackLine; generalize List.range 64 = ls; exact foldl_keeps (p := fun s : State => s.device) (by intro s a; simp) _ _
@[simp] theorem State.ageing_writeBackLine (s : State) (l : Nat) : (s.writeBackLine l).ageing = s.ageing := by unfold State.writeBackLine; generalize List.range 64 = ls; exact foldl_keeps (p := fun s : State => s.ageing) (by intro s a; simp) _ _
@[simp] theorem State.bankLimit_writeBackLine (s : State) (l : Nat) : (s.writeBackLine l).bankLimit = s.bankLimit := by unfold State.writeBackLine; generalize List.range 64 = ls; exact foldl_keeps (p := fun s : State => s.bankLimit) (by intro s a; simp) _ _
@[simp] theorem State.threshold_writeBackLine (s : State) (l : Nat) : (s.writeBackLine l).threshold = s.threshold := by unfold State.writeBackLine; generalize List.range 64 = ls; exact foldl_keeps (p := fun s : State => s.threshold) (by intro s a; simp) _ _
@[simp] theorem State.lostStacks_writeBackLine (s : State) (l : Nat) : (s.writeBackLine l).lostStacks = s.lostStacks := by unfold State.writeBackLine; generalize List.range 64 = ls; exact foldl_keeps (p := fun s : State => s.lostStacks) (by intro s a; simp) _ _
@[simp] theorem State.lostLinks_writeBackLine (s : State) (l : Nat) : (s.writeBackLine l).lostLinks = s.lostLinks := by unfold State.writeBackLine; generalize List.range 64 = ls; exact foldl_keeps (p := fun s : State => s.lostLinks) (by intro s a; simp) _ _
@[simp] theorem State.lostDevs_writeBackLine (s : State) (l : Nat) : (s.writeBackLine l).lostDevs = s.lostDevs := by unfold State.writeBackLine; generalize List.range 64 = ls; exact foldl_keeps (p := fun s : State => s.lostDevs) (by intro s a; simp) _ _
@[simp] theorem State.lostPorts_writeBackLine (s : State) (l : Nat) : (s.writeBackLine l).lostPorts = s.lostPorts := by unfold State.writeBackLine; generalize List.range 64 = ls; exact foldl_keeps (p := fun s : State => s.lostPorts) (by intro s a; simp) _ _
@[simp] theorem State.lostHomes_writeBackLine (s : State) (l : Nat) : (s.writeBackLine l).lostHomes = s.lostHomes := by unfold State.writeBackLine; generalize List.range 64 = ls; exact foldl_keeps (p := fun s : State => s.lostHomes) (by intro s a; simp) _ _
@[simp] theorem State.renewed_writeBackLine (s : State) (l : Nat) : (s.writeBackLine l).renewed = s.renewed := by unfold State.writeBackLine; generalize List.range 64 = ls; exact foldl_keeps (p := fun s : State => s.renewed) (by intro s a; simp) _ _
@[simp] theorem State.bedLost_writeBackLine (s : State) (l : Nat) : (s.writeBackLine l).bedLost = s.bedLost := by unfold State.writeBackLine; generalize List.range 64 = ls; exact foldl_keeps (p := fun s : State => s.bedLost) (by intro s a; simp) _ _
@[simp] theorem State.pending_writeBackLine (s : State) (l : Nat) : (s.writeBackLine l).pending = s.pending := by unfold State.writeBackLine; generalize List.range 64 = ls; exact foldl_keeps (p := fun s : State => s.pending) (by intro s a; simp) _ _
@[simp] theorem State.timers_writeBackLine (s : State) (l : Nat) : (s.writeBackLine l).timers = s.timers := by unfold State.writeBackLine; generalize List.range 64 = ls; exact foldl_keeps (p := fun s : State => s.timers) (by intro s a; simp) _ _
@[simp] theorem State.turns_writeBackLine (s : State) (l : Nat) : (s.writeBackLine l).turns = s.turns := by unfold State.writeBackLine; generalize List.range 64 = ls; exact foldl_keeps (p := fun s : State => s.turns) (by intro s a; simp) _ _
@[simp] theorem State.cur_writeBackLine (s : State) (l : Nat) : (s.writeBackLine l).cur = s.cur := by unfold State.writeBackLine; generalize List.range 64 = ls; exact foldl_keeps (p := fun s : State => s.cur) (by intro s a; simp) _ _
@[simp] theorem State.iword_writeBackLine (s : State) (l : Nat) : (s.writeBackLine l).iword = s.iword := by unfold State.writeBackLine; generalize List.range 64 = ls; exact foldl_keeps (p := fun s : State => s.iword) (by intro s a; simp) _ _
@[simp] theorem State.cycle_writeBackLine (s : State) (l : Nat) : (s.writeBackLine l).cycle = s.cycle := by unfold State.writeBackLine; generalize List.range 64 = ls; exact foldl_keeps (p := fun s : State => s.cycle) (by intro s a; simp) _ _
@[simp] theorem State.scan_writeBackLine (s : State) (l : Nat) : (s.writeBackLine l).scan = s.scan := by unfold State.writeBackLine; generalize List.range 64 = ls; exact foldl_keeps (p := fun s : State => s.scan) (by intro s a; simp) _ _
@[simp] theorem State.ending_writeBackLine (s : State) (l : Nat) : (s.writeBackLine l).ending = s.ending := by unfold State.writeBackLine; generalize List.range 64 = ls; exact foldl_keeps (p := fun s : State => s.ending) (by intro s a; simp) _ _
@[simp] theorem State.free_writeBackLine (s : State) (l : Nat) : (s.writeBackLine l).free = s.free := by unfold State.writeBackLine; generalize List.range 64 = ls; exact foldl_keeps (p := fun s : State => s.free) (by intro s a; simp) _ _
@[simp] theorem State.nextUid_writeBackLine (s : State) (l : Nat) : (s.writeBackLine l).nextUid = s.nextUid := by unfold State.writeBackLine; generalize List.range 64 = ls; exact foldl_keeps (p := fun s : State => s.nextUid) (by intro s a; simp) _ _
@[simp] theorem State.frozen_writeBackLine (s : State) (l : Nat) : (s.writeBackLine l).frozen = s.frozen := by unfold State.writeBackLine; generalize List.range 64 = ls; exact foldl_keeps (p := fun s : State => s.frozen) (by intro s a; simp) _ _
@[simp] theorem State.view_writeBackLine (s : State) (l : Nat) : (s.writeBackLine l).view = s.view := by unfold State.writeBackLine; generalize List.range 64 = ls; exact foldl_keeps (p := fun s : State => s.view) (by intro s a; simp) _ _
@[simp] theorem State.cxlData_writeBackLine (s : State) (l : Nat) : (s.writeBackLine l).cxlData = s.cxlData := by unfold State.writeBackLine; generalize List.range 64 = ls; exact foldl_keeps (p := fun s : State => s.cxlData) (by intro s a; simp) _ _
@[simp] theorem State.mem_meetError (s : State) (l : Nat) : (s.meetError l).mem = s.mem := by unfold State.meetError; split <;> rfl
@[simp] theorem State.empty_meetError (s : State) (l : Nat) : (s.meetError l).empty = s.empty := by unfold State.meetError; split <;> rfl
@[simp] theorem State.near_meetError (s : State) (l : Nat) : (s.meetError l).near = s.near := by unfold State.meetError; split <;> rfl
@[simp] theorem State.cached_meetError (s : State) (l : Nat) : (s.meetError l).cached = s.cached := by unfold State.meetError; split <;> rfl
@[simp] theorem State.co_meetError (s : State) (l : Nat) : (s.meetError l).co = s.co := by unfold State.meetError; split <;> rfl
@[simp] theorem State.stamps_meetError (s : State) (l : Nat) : (s.meetError l).stamps = s.stamps := by unfold State.meetError; split <;> rfl
@[simp] theorem State.reserved_meetError (s : State) (l : Nat) : (s.meetError l).reserved = s.reserved := by unfold State.meetError; split <;> rfl
@[simp] theorem State.threads_meetError (s : State) (l : Nat) : (s.meetError l).threads = s.threads := by unfold State.meetError; split <;> rfl
@[simp] theorem State.cores_meetError (s : State) (l : Nat) : (s.meetError l).cores = s.cores := by unfold State.meetError; split <;> rfl
@[simp] theorem State.setts_meetError (s : State) (l : Nat) : (s.meetError l).setts = s.setts := by unfold State.meetError; split <;> rfl
@[simp] theorem State.tcache_meetError (s : State) (l : Nat) : (s.meetError l).tcache = s.tcache := by unfold State.meetError; split <;> rfl
@[simp] theorem State.grants_meetError (s : State) (l : Nat) : (s.meetError l).grants = s.grants := by unfold State.meetError; split <;> rfl
@[simp] theorem State.used_meetError (s : State) (l : Nat) : (s.meetError l).used = s.used := by unfold State.meetError; split <;> rfl
@[simp] theorem State.mapped_meetError (s : State) (l : Nat) : (s.meetError l).mapped = s.mapped := by unfold State.meetError; split <;> rfl
@[simp] theorem State.faultq_meetError (s : State) (l : Nat) : (s.meetError l).faultq = s.faultq := by unfold State.meetError; split <;> rfl
@[simp] theorem State.waiters_meetError (s : State) (l : Nat) : (s.meetError l).waiters = s.waiters := by unfold State.meetError; split <;> rfl
@[simp] theorem State.watches_meetError (s : State) (l : Nat) : (s.meetError l).watches = s.watches := by unfold State.meetError; split <;> rfl
@[simp] theorem State.nextWatch_meetError (s : State) (l : Nat) : (s.meetError l).nextWatch = s.nextWatch := by unfold State.meetError; split <;> rfl
@[simp] theorem State.groups_meetError (s : State) (l : Nat) : (s.meetError l).groups = s.groups := by unfold State.meetError; split <;> rfl
@[simp] theorem State.outbox_meetError (s : State) (l : Nat) : (s.meetError l).outbox = s.outbox := by unfold State.meetError; split <;> rfl
@[simp] theorem State.launches_meetError (s : State) (l : Nat) : (s.meetError l).launches = s.launches := by unfold State.meetError; split <;> rfl
@[simp] theorem State.nextKey_meetError (s : State) (l : Nat) : (s.meetError l).nextKey = s.nextKey := by unfold State.meetError; split <;> rfl
@[simp] theorem State.served_meetError (s : State) (l : Nat) : (s.meetError l).served = s.served := by unfold State.meetError; split <;> rfl
@[simp] theorem State.handles_meetError (s : State) (l : Nat) : (s.meetError l).handles = s.handles := by unfold State.meetError; split <;> rfl
@[simp] theorem State.syncs_meetError (s : State) (l : Nat) : (s.meetError l).syncs = s.syncs := by unfold State.meetError; split <;> rfl
@[simp] theorem State.saved_meetError (s : State) (l : Nat) : (s.meetError l).saved = s.saved := by unfold State.meetError; split <;> rfl
@[simp] theorem State.ctxs_meetError (s : State) (l : Nat) : (s.meetError l).ctxs = s.ctxs := by unfold State.meetError; split <;> rfl
@[simp] theorem State.ageing_meetError (s : State) (l : Nat) : (s.meetError l).ageing = s.ageing := by unfold State.meetError; split <;> rfl
@[simp] theorem State.bankLimit_meetError (s : State) (l : Nat) : (s.meetError l).bankLimit = s.bankLimit := by unfold State.meetError; split <;> rfl
@[simp] theorem State.threshold_meetError (s : State) (l : Nat) : (s.meetError l).threshold = s.threshold := by unfold State.meetError; split <;> rfl
@[simp] theorem State.lostStacks_meetError (s : State) (l : Nat) : (s.meetError l).lostStacks = s.lostStacks := by unfold State.meetError; split <;> rfl
@[simp] theorem State.lostLinks_meetError (s : State) (l : Nat) : (s.meetError l).lostLinks = s.lostLinks := by unfold State.meetError; split <;> rfl
@[simp] theorem State.lostDevs_meetError (s : State) (l : Nat) : (s.meetError l).lostDevs = s.lostDevs := by unfold State.meetError; split <;> rfl
@[simp] theorem State.lostPorts_meetError (s : State) (l : Nat) : (s.meetError l).lostPorts = s.lostPorts := by unfold State.meetError; split <;> rfl
@[simp] theorem State.lostHomes_meetError (s : State) (l : Nat) : (s.meetError l).lostHomes = s.lostHomes := by unfold State.meetError; split <;> rfl
@[simp] theorem State.renewed_meetError (s : State) (l : Nat) : (s.meetError l).renewed = s.renewed := by unfold State.meetError; split <;> rfl
@[simp] theorem State.bedLost_meetError (s : State) (l : Nat) : (s.meetError l).bedLost = s.bedLost := by unfold State.meetError; split <;> rfl
@[simp] theorem State.pending_meetError (s : State) (l : Nat) : (s.meetError l).pending = s.pending := by unfold State.meetError; split <;> rfl
@[simp] theorem State.timers_meetError (s : State) (l : Nat) : (s.meetError l).timers = s.timers := by unfold State.meetError; split <;> rfl
@[simp] theorem State.turns_meetError (s : State) (l : Nat) : (s.meetError l).turns = s.turns := by unfold State.meetError; split <;> rfl
@[simp] theorem State.cur_meetError (s : State) (l : Nat) : (s.meetError l).cur = s.cur := by unfold State.meetError; split <;> rfl
@[simp] theorem State.iword_meetError (s : State) (l : Nat) : (s.meetError l).iword = s.iword := by unfold State.meetError; split <;> rfl
@[simp] theorem State.cycle_meetError (s : State) (l : Nat) : (s.meetError l).cycle = s.cycle := by unfold State.meetError; split <;> rfl
@[simp] theorem State.scan_meetError (s : State) (l : Nat) : (s.meetError l).scan = s.scan := by unfold State.meetError; split <;> rfl
@[simp] theorem State.ending_meetError (s : State) (l : Nat) : (s.meetError l).ending = s.ending := by unfold State.meetError; split <;> rfl
@[simp] theorem State.free_meetError (s : State) (l : Nat) : (s.meetError l).free = s.free := by unfold State.meetError; split <;> rfl
@[simp] theorem State.nextUid_meetError (s : State) (l : Nat) : (s.meetError l).nextUid = s.nextUid := by unfold State.meetError; split <;> rfl
@[simp] theorem State.frozen_meetError (s : State) (l : Nat) : (s.meetError l).frozen = s.frozen := by unfold State.meetError; split <;> rfl
@[simp] theorem State.view_meetError (s : State) (l : Nat) : (s.meetError l).view = s.view := by unfold State.meetError; split <;> rfl
@[simp] theorem State.cxlData_meetError (s : State) (l : Nat) : (s.meetError l).cxlData = s.cxlData := by unfold State.meetError; split <;> rfl
@[simp] theorem State.empty_mayEvict (s : State) (l : Nat) : (s.mayEvict l).empty = s.empty := by unfold State.mayEvict; split <;> simp; split <;> simp
@[simp] theorem State.poison_mayEvict (s : State) (l : Nat) : (s.mayEvict l).poison = s.poison := by unfold State.mayEvict; split <;> simp; split <;> simp
@[simp] theorem State.reserved_mayEvict (s : State) (l : Nat) : (s.mayEvict l).reserved = s.reserved := by unfold State.mayEvict; split <;> simp; split <;> simp
@[simp] theorem State.threads_mayEvict (s : State) (l : Nat) : (s.mayEvict l).threads = s.threads := by unfold State.mayEvict; split <;> simp; split <;> simp
@[simp] theorem State.cores_mayEvict (s : State) (l : Nat) : (s.mayEvict l).cores = s.cores := by unfold State.mayEvict; split <;> simp; split <;> simp
@[simp] theorem State.setts_mayEvict (s : State) (l : Nat) : (s.mayEvict l).setts = s.setts := by unfold State.mayEvict; split <;> simp; split <;> simp
@[simp] theorem State.tcache_mayEvict (s : State) (l : Nat) : (s.mayEvict l).tcache = s.tcache := by unfold State.mayEvict; split <;> simp; split <;> simp
@[simp] theorem State.grants_mayEvict (s : State) (l : Nat) : (s.mayEvict l).grants = s.grants := by unfold State.mayEvict; split <;> simp; split <;> simp
@[simp] theorem State.used_mayEvict (s : State) (l : Nat) : (s.mayEvict l).used = s.used := by unfold State.mayEvict; split <;> simp; split <;> simp
@[simp] theorem State.mapped_mayEvict (s : State) (l : Nat) : (s.mayEvict l).mapped = s.mapped := by unfold State.mayEvict; split <;> simp; split <;> simp
@[simp] theorem State.faultq_mayEvict (s : State) (l : Nat) : (s.mayEvict l).faultq = s.faultq := by unfold State.mayEvict; split <;> simp; split <;> simp
@[simp] theorem State.waiters_mayEvict (s : State) (l : Nat) : (s.mayEvict l).waiters = s.waiters := by unfold State.mayEvict; split <;> simp; split <;> simp
@[simp] theorem State.watches_mayEvict (s : State) (l : Nat) : (s.mayEvict l).watches = s.watches := by unfold State.mayEvict; split <;> simp; split <;> simp
@[simp] theorem State.nextWatch_mayEvict (s : State) (l : Nat) : (s.mayEvict l).nextWatch = s.nextWatch := by unfold State.mayEvict; split <;> simp; split <;> simp
@[simp] theorem State.groups_mayEvict (s : State) (l : Nat) : (s.mayEvict l).groups = s.groups := by unfold State.mayEvict; split <;> simp; split <;> simp
@[simp] theorem State.outbox_mayEvict (s : State) (l : Nat) : (s.mayEvict l).outbox = s.outbox := by unfold State.mayEvict; split <;> simp; split <;> simp
@[simp] theorem State.launches_mayEvict (s : State) (l : Nat) : (s.mayEvict l).launches = s.launches := by unfold State.mayEvict; split <;> simp; split <;> simp
@[simp] theorem State.nextKey_mayEvict (s : State) (l : Nat) : (s.mayEvict l).nextKey = s.nextKey := by unfold State.mayEvict; split <;> simp; split <;> simp
@[simp] theorem State.served_mayEvict (s : State) (l : Nat) : (s.mayEvict l).served = s.served := by unfold State.mayEvict; split <;> simp; split <;> simp
@[simp] theorem State.handles_mayEvict (s : State) (l : Nat) : (s.mayEvict l).handles = s.handles := by unfold State.mayEvict; split <;> simp; split <;> simp
@[simp] theorem State.syncs_mayEvict (s : State) (l : Nat) : (s.mayEvict l).syncs = s.syncs := by unfold State.mayEvict; split <;> simp; split <;> simp
@[simp] theorem State.saved_mayEvict (s : State) (l : Nat) : (s.mayEvict l).saved = s.saved := by unfold State.mayEvict; split <;> simp; split <;> simp
@[simp] theorem State.ctxs_mayEvict (s : State) (l : Nat) : (s.mayEvict l).ctxs = s.ctxs := by unfold State.mayEvict; split <;> simp; split <;> simp
@[simp] theorem State.device_mayEvict (s : State) (l : Nat) : (s.mayEvict l).device = s.device := by unfold State.mayEvict; split <;> simp; split <;> simp
@[simp] theorem State.ageing_mayEvict (s : State) (l : Nat) : (s.mayEvict l).ageing = s.ageing := by unfold State.mayEvict; split <;> simp; split <;> simp
@[simp] theorem State.bankLimit_mayEvict (s : State) (l : Nat) : (s.mayEvict l).bankLimit = s.bankLimit := by unfold State.mayEvict; split <;> simp; split <;> simp
@[simp] theorem State.threshold_mayEvict (s : State) (l : Nat) : (s.mayEvict l).threshold = s.threshold := by unfold State.mayEvict; split <;> simp; split <;> simp
@[simp] theorem State.lostStacks_mayEvict (s : State) (l : Nat) : (s.mayEvict l).lostStacks = s.lostStacks := by unfold State.mayEvict; split <;> simp; split <;> simp
@[simp] theorem State.lostLinks_mayEvict (s : State) (l : Nat) : (s.mayEvict l).lostLinks = s.lostLinks := by unfold State.mayEvict; split <;> simp; split <;> simp
@[simp] theorem State.lostDevs_mayEvict (s : State) (l : Nat) : (s.mayEvict l).lostDevs = s.lostDevs := by unfold State.mayEvict; split <;> simp; split <;> simp
@[simp] theorem State.lostPorts_mayEvict (s : State) (l : Nat) : (s.mayEvict l).lostPorts = s.lostPorts := by unfold State.mayEvict; split <;> simp; split <;> simp
@[simp] theorem State.lostHomes_mayEvict (s : State) (l : Nat) : (s.mayEvict l).lostHomes = s.lostHomes := by unfold State.mayEvict; split <;> simp; split <;> simp
@[simp] theorem State.renewed_mayEvict (s : State) (l : Nat) : (s.mayEvict l).renewed = s.renewed := by unfold State.mayEvict; split <;> simp; split <;> simp
@[simp] theorem State.bedLost_mayEvict (s : State) (l : Nat) : (s.mayEvict l).bedLost = s.bedLost := by unfold State.mayEvict; split <;> simp; split <;> simp
@[simp] theorem State.pending_mayEvict (s : State) (l : Nat) : (s.mayEvict l).pending = s.pending := by unfold State.mayEvict; split <;> simp; split <;> simp
@[simp] theorem State.timers_mayEvict (s : State) (l : Nat) : (s.mayEvict l).timers = s.timers := by unfold State.mayEvict; split <;> simp; split <;> simp
@[simp] theorem State.turns_mayEvict (s : State) (l : Nat) : (s.mayEvict l).turns = s.turns := by unfold State.mayEvict; split <;> simp; split <;> simp
@[simp] theorem State.cur_mayEvict (s : State) (l : Nat) : (s.mayEvict l).cur = s.cur := by unfold State.mayEvict; split <;> simp; split <;> simp
@[simp] theorem State.iword_mayEvict (s : State) (l : Nat) : (s.mayEvict l).iword = s.iword := by unfold State.mayEvict; split <;> simp; split <;> simp
@[simp] theorem State.cycle_mayEvict (s : State) (l : Nat) : (s.mayEvict l).cycle = s.cycle := by unfold State.mayEvict; split <;> simp; split <;> simp
@[simp] theorem State.scan_mayEvict (s : State) (l : Nat) : (s.mayEvict l).scan = s.scan := by unfold State.mayEvict; split <;> simp; split <;> simp
@[simp] theorem State.ending_mayEvict (s : State) (l : Nat) : (s.mayEvict l).ending = s.ending := by unfold State.mayEvict; split <;> simp; split <;> simp
@[simp] theorem State.nextUid_mayEvict (s : State) (l : Nat) : (s.mayEvict l).nextUid = s.nextUid := by unfold State.mayEvict; split <;> simp; split <;> simp
@[simp] theorem State.frozen_mayEvict (s : State) (l : Nat) : (s.mayEvict l).frozen = s.frozen := by unfold State.mayEvict; split <;> simp; split <;> simp
@[simp] theorem State.view_mayEvict (s : State) (l : Nat) : (s.mayEvict l).view = s.view := by unfold State.mayEvict; split <;> simp; split <;> simp
@[simp] theorem State.cxlData_mayEvict (s : State) (l : Nat) : (s.mayEvict l).cxlData = s.cxlData := by unfold State.mayEvict; split <;> simp; split <;> simp
@[simp] theorem State.empty_touchLine (s : State) (l : Nat) : (s.touchLine l).empty = s.empty := by unfold State.touchLine; simp only; split <;> simp
@[simp] theorem State.reserved_touchLine (s : State) (l : Nat) : (s.touchLine l).reserved = s.reserved := by unfold State.touchLine; simp only; split <;> simp
@[simp] theorem State.threads_touchLine (s : State) (l : Nat) : (s.touchLine l).threads = s.threads := by unfold State.touchLine; simp only; split <;> simp
@[simp] theorem State.cores_touchLine (s : State) (l : Nat) : (s.touchLine l).cores = s.cores := by unfold State.touchLine; simp only; split <;> simp
@[simp] theorem State.setts_touchLine (s : State) (l : Nat) : (s.touchLine l).setts = s.setts := by unfold State.touchLine; simp only; split <;> simp
@[simp] theorem State.tcache_touchLine (s : State) (l : Nat) : (s.touchLine l).tcache = s.tcache := by unfold State.touchLine; simp only; split <;> simp
@[simp] theorem State.grants_touchLine (s : State) (l : Nat) : (s.touchLine l).grants = s.grants := by unfold State.touchLine; simp only; split <;> simp
@[simp] theorem State.used_touchLine (s : State) (l : Nat) : (s.touchLine l).used = s.used := by unfold State.touchLine; simp only; split <;> simp
@[simp] theorem State.mapped_touchLine (s : State) (l : Nat) : (s.touchLine l).mapped = s.mapped := by unfold State.touchLine; simp only; split <;> simp
@[simp] theorem State.faultq_touchLine (s : State) (l : Nat) : (s.touchLine l).faultq = s.faultq := by unfold State.touchLine; simp only; split <;> simp
@[simp] theorem State.waiters_touchLine (s : State) (l : Nat) : (s.touchLine l).waiters = s.waiters := by unfold State.touchLine; simp only; split <;> simp
@[simp] theorem State.watches_touchLine (s : State) (l : Nat) : (s.touchLine l).watches = s.watches := by unfold State.touchLine; simp only; split <;> simp
@[simp] theorem State.nextWatch_touchLine (s : State) (l : Nat) : (s.touchLine l).nextWatch = s.nextWatch := by unfold State.touchLine; simp only; split <;> simp
@[simp] theorem State.groups_touchLine (s : State) (l : Nat) : (s.touchLine l).groups = s.groups := by unfold State.touchLine; simp only; split <;> simp
@[simp] theorem State.outbox_touchLine (s : State) (l : Nat) : (s.touchLine l).outbox = s.outbox := by unfold State.touchLine; simp only; split <;> simp
@[simp] theorem State.launches_touchLine (s : State) (l : Nat) : (s.touchLine l).launches = s.launches := by unfold State.touchLine; simp only; split <;> simp
@[simp] theorem State.nextKey_touchLine (s : State) (l : Nat) : (s.touchLine l).nextKey = s.nextKey := by unfold State.touchLine; simp only; split <;> simp
@[simp] theorem State.served_touchLine (s : State) (l : Nat) : (s.touchLine l).served = s.served := by unfold State.touchLine; simp only; split <;> simp
@[simp] theorem State.handles_touchLine (s : State) (l : Nat) : (s.touchLine l).handles = s.handles := by unfold State.touchLine; simp only; split <;> simp
@[simp] theorem State.syncs_touchLine (s : State) (l : Nat) : (s.touchLine l).syncs = s.syncs := by unfold State.touchLine; simp only; split <;> simp
@[simp] theorem State.saved_touchLine (s : State) (l : Nat) : (s.touchLine l).saved = s.saved := by unfold State.touchLine; simp only; split <;> simp
@[simp] theorem State.ctxs_touchLine (s : State) (l : Nat) : (s.touchLine l).ctxs = s.ctxs := by unfold State.touchLine; simp only; split <;> simp
@[simp] theorem State.ageing_touchLine (s : State) (l : Nat) : (s.touchLine l).ageing = s.ageing := by unfold State.touchLine; simp only; split <;> simp
@[simp] theorem State.bankLimit_touchLine (s : State) (l : Nat) : (s.touchLine l).bankLimit = s.bankLimit := by unfold State.touchLine; simp only; split <;> simp
@[simp] theorem State.threshold_touchLine (s : State) (l : Nat) : (s.touchLine l).threshold = s.threshold := by unfold State.touchLine; simp only; split <;> simp
@[simp] theorem State.lostStacks_touchLine (s : State) (l : Nat) : (s.touchLine l).lostStacks = s.lostStacks := by unfold State.touchLine; simp only; split <;> simp
@[simp] theorem State.lostLinks_touchLine (s : State) (l : Nat) : (s.touchLine l).lostLinks = s.lostLinks := by unfold State.touchLine; simp only; split <;> simp
@[simp] theorem State.lostDevs_touchLine (s : State) (l : Nat) : (s.touchLine l).lostDevs = s.lostDevs := by unfold State.touchLine; simp only; split <;> simp
@[simp] theorem State.lostPorts_touchLine (s : State) (l : Nat) : (s.touchLine l).lostPorts = s.lostPorts := by unfold State.touchLine; simp only; split <;> simp
@[simp] theorem State.lostHomes_touchLine (s : State) (l : Nat) : (s.touchLine l).lostHomes = s.lostHomes := by unfold State.touchLine; simp only; split <;> simp
@[simp] theorem State.renewed_touchLine (s : State) (l : Nat) : (s.touchLine l).renewed = s.renewed := by unfold State.touchLine; simp only; split <;> simp
@[simp] theorem State.bedLost_touchLine (s : State) (l : Nat) : (s.touchLine l).bedLost = s.bedLost := by unfold State.touchLine; simp only; split <;> simp
@[simp] theorem State.pending_touchLine (s : State) (l : Nat) : (s.touchLine l).pending = s.pending := by unfold State.touchLine; simp only; split <;> simp
@[simp] theorem State.timers_touchLine (s : State) (l : Nat) : (s.touchLine l).timers = s.timers := by unfold State.touchLine; simp only; split <;> simp
@[simp] theorem State.turns_touchLine (s : State) (l : Nat) : (s.touchLine l).turns = s.turns := by unfold State.touchLine; simp only; split <;> simp
@[simp] theorem State.cur_touchLine (s : State) (l : Nat) : (s.touchLine l).cur = s.cur := by unfold State.touchLine; simp only; split <;> simp
@[simp] theorem State.iword_touchLine (s : State) (l : Nat) : (s.touchLine l).iword = s.iword := by unfold State.touchLine; simp only; split <;> simp
@[simp] theorem State.cycle_touchLine (s : State) (l : Nat) : (s.touchLine l).cycle = s.cycle := by unfold State.touchLine; simp only; split <;> simp
@[simp] theorem State.scan_touchLine (s : State) (l : Nat) : (s.touchLine l).scan = s.scan := by unfold State.touchLine; simp only; split <;> simp
@[simp] theorem State.ending_touchLine (s : State) (l : Nat) : (s.touchLine l).ending = s.ending := by unfold State.touchLine; simp only; split <;> simp
@[simp] theorem State.nextUid_touchLine (s : State) (l : Nat) : (s.touchLine l).nextUid = s.nextUid := by unfold State.touchLine; simp only; split <;> simp
@[simp] theorem State.frozen_touchLine (s : State) (l : Nat) : (s.touchLine l).frozen = s.frozen := by unfold State.touchLine; simp only; split <;> simp
@[simp] theorem State.view_touchLine (s : State) (l : Nat) : (s.touchLine l).view = s.view := by unfold State.touchLine; simp only; split <;> simp
@[simp] theorem State.cxlData_touchLine (s : State) (l : Nat) : (s.touchLine l).cxlData = s.cxlData := by unfold State.touchLine; simp only; split <;> simp
@[simp] theorem State.empty_touchPlaces (s : State) (ls : List Nat) : (s.touchPlaces ls).empty = s.empty := by unfold State.touchPlaces; exact foldl_keeps (p := fun s : State => s.empty) (by intro s a; split <;> simp) _ _
@[simp] theorem State.reserved_touchPlaces (s : State) (ls : List Nat) : (s.touchPlaces ls).reserved = s.reserved := by unfold State.touchPlaces; exact foldl_keeps (p := fun s : State => s.reserved) (by intro s a; split <;> simp) _ _
@[simp] theorem State.threads_touchPlaces (s : State) (ls : List Nat) : (s.touchPlaces ls).threads = s.threads := by unfold State.touchPlaces; exact foldl_keeps (p := fun s : State => s.threads) (by intro s a; split <;> simp) _ _
@[simp] theorem State.cores_touchPlaces (s : State) (ls : List Nat) : (s.touchPlaces ls).cores = s.cores := by unfold State.touchPlaces; exact foldl_keeps (p := fun s : State => s.cores) (by intro s a; split <;> simp) _ _
@[simp] theorem State.setts_touchPlaces (s : State) (ls : List Nat) : (s.touchPlaces ls).setts = s.setts := by unfold State.touchPlaces; exact foldl_keeps (p := fun s : State => s.setts) (by intro s a; split <;> simp) _ _
@[simp] theorem State.tcache_touchPlaces (s : State) (ls : List Nat) : (s.touchPlaces ls).tcache = s.tcache := by unfold State.touchPlaces; exact foldl_keeps (p := fun s : State => s.tcache) (by intro s a; split <;> simp) _ _
@[simp] theorem State.grants_touchPlaces (s : State) (ls : List Nat) : (s.touchPlaces ls).grants = s.grants := by unfold State.touchPlaces; exact foldl_keeps (p := fun s : State => s.grants) (by intro s a; split <;> simp) _ _
@[simp] theorem State.used_touchPlaces (s : State) (ls : List Nat) : (s.touchPlaces ls).used = s.used := by unfold State.touchPlaces; exact foldl_keeps (p := fun s : State => s.used) (by intro s a; split <;> simp) _ _
@[simp] theorem State.mapped_touchPlaces (s : State) (ls : List Nat) : (s.touchPlaces ls).mapped = s.mapped := by unfold State.touchPlaces; exact foldl_keeps (p := fun s : State => s.mapped) (by intro s a; split <;> simp) _ _
@[simp] theorem State.faultq_touchPlaces (s : State) (ls : List Nat) : (s.touchPlaces ls).faultq = s.faultq := by unfold State.touchPlaces; exact foldl_keeps (p := fun s : State => s.faultq) (by intro s a; split <;> simp) _ _
@[simp] theorem State.waiters_touchPlaces (s : State) (ls : List Nat) : (s.touchPlaces ls).waiters = s.waiters := by unfold State.touchPlaces; exact foldl_keeps (p := fun s : State => s.waiters) (by intro s a; split <;> simp) _ _
@[simp] theorem State.watches_touchPlaces (s : State) (ls : List Nat) : (s.touchPlaces ls).watches = s.watches := by unfold State.touchPlaces; exact foldl_keeps (p := fun s : State => s.watches) (by intro s a; split <;> simp) _ _
@[simp] theorem State.nextWatch_touchPlaces (s : State) (ls : List Nat) : (s.touchPlaces ls).nextWatch = s.nextWatch := by unfold State.touchPlaces; exact foldl_keeps (p := fun s : State => s.nextWatch) (by intro s a; split <;> simp) _ _
@[simp] theorem State.groups_touchPlaces (s : State) (ls : List Nat) : (s.touchPlaces ls).groups = s.groups := by unfold State.touchPlaces; exact foldl_keeps (p := fun s : State => s.groups) (by intro s a; split <;> simp) _ _
@[simp] theorem State.outbox_touchPlaces (s : State) (ls : List Nat) : (s.touchPlaces ls).outbox = s.outbox := by unfold State.touchPlaces; exact foldl_keeps (p := fun s : State => s.outbox) (by intro s a; split <;> simp) _ _
@[simp] theorem State.launches_touchPlaces (s : State) (ls : List Nat) : (s.touchPlaces ls).launches = s.launches := by unfold State.touchPlaces; exact foldl_keeps (p := fun s : State => s.launches) (by intro s a; split <;> simp) _ _
@[simp] theorem State.nextKey_touchPlaces (s : State) (ls : List Nat) : (s.touchPlaces ls).nextKey = s.nextKey := by unfold State.touchPlaces; exact foldl_keeps (p := fun s : State => s.nextKey) (by intro s a; split <;> simp) _ _
@[simp] theorem State.served_touchPlaces (s : State) (ls : List Nat) : (s.touchPlaces ls).served = s.served := by unfold State.touchPlaces; exact foldl_keeps (p := fun s : State => s.served) (by intro s a; split <;> simp) _ _
@[simp] theorem State.handles_touchPlaces (s : State) (ls : List Nat) : (s.touchPlaces ls).handles = s.handles := by unfold State.touchPlaces; exact foldl_keeps (p := fun s : State => s.handles) (by intro s a; split <;> simp) _ _
@[simp] theorem State.syncs_touchPlaces (s : State) (ls : List Nat) : (s.touchPlaces ls).syncs = s.syncs := by unfold State.touchPlaces; exact foldl_keeps (p := fun s : State => s.syncs) (by intro s a; split <;> simp) _ _
@[simp] theorem State.saved_touchPlaces (s : State) (ls : List Nat) : (s.touchPlaces ls).saved = s.saved := by unfold State.touchPlaces; exact foldl_keeps (p := fun s : State => s.saved) (by intro s a; split <;> simp) _ _
@[simp] theorem State.ctxs_touchPlaces (s : State) (ls : List Nat) : (s.touchPlaces ls).ctxs = s.ctxs := by unfold State.touchPlaces; exact foldl_keeps (p := fun s : State => s.ctxs) (by intro s a; split <;> simp) _ _
@[simp] theorem State.ageing_touchPlaces (s : State) (ls : List Nat) : (s.touchPlaces ls).ageing = s.ageing := by unfold State.touchPlaces; exact foldl_keeps (p := fun s : State => s.ageing) (by intro s a; split <;> simp) _ _
@[simp] theorem State.bankLimit_touchPlaces (s : State) (ls : List Nat) : (s.touchPlaces ls).bankLimit = s.bankLimit := by unfold State.touchPlaces; exact foldl_keeps (p := fun s : State => s.bankLimit) (by intro s a; split <;> simp) _ _
@[simp] theorem State.threshold_touchPlaces (s : State) (ls : List Nat) : (s.touchPlaces ls).threshold = s.threshold := by unfold State.touchPlaces; exact foldl_keeps (p := fun s : State => s.threshold) (by intro s a; split <;> simp) _ _
@[simp] theorem State.lostStacks_touchPlaces (s : State) (ls : List Nat) : (s.touchPlaces ls).lostStacks = s.lostStacks := by unfold State.touchPlaces; exact foldl_keeps (p := fun s : State => s.lostStacks) (by intro s a; split <;> simp) _ _
@[simp] theorem State.lostLinks_touchPlaces (s : State) (ls : List Nat) : (s.touchPlaces ls).lostLinks = s.lostLinks := by unfold State.touchPlaces; exact foldl_keeps (p := fun s : State => s.lostLinks) (by intro s a; split <;> simp) _ _
@[simp] theorem State.lostDevs_touchPlaces (s : State) (ls : List Nat) : (s.touchPlaces ls).lostDevs = s.lostDevs := by unfold State.touchPlaces; exact foldl_keeps (p := fun s : State => s.lostDevs) (by intro s a; split <;> simp) _ _
@[simp] theorem State.lostPorts_touchPlaces (s : State) (ls : List Nat) : (s.touchPlaces ls).lostPorts = s.lostPorts := by unfold State.touchPlaces; exact foldl_keeps (p := fun s : State => s.lostPorts) (by intro s a; split <;> simp) _ _
@[simp] theorem State.lostHomes_touchPlaces (s : State) (ls : List Nat) : (s.touchPlaces ls).lostHomes = s.lostHomes := by unfold State.touchPlaces; exact foldl_keeps (p := fun s : State => s.lostHomes) (by intro s a; split <;> simp) _ _
@[simp] theorem State.renewed_touchPlaces (s : State) (ls : List Nat) : (s.touchPlaces ls).renewed = s.renewed := by unfold State.touchPlaces; exact foldl_keeps (p := fun s : State => s.renewed) (by intro s a; split <;> simp) _ _
@[simp] theorem State.bedLost_touchPlaces (s : State) (ls : List Nat) : (s.touchPlaces ls).bedLost = s.bedLost := by unfold State.touchPlaces; exact foldl_keeps (p := fun s : State => s.bedLost) (by intro s a; split <;> simp) _ _
@[simp] theorem State.pending_touchPlaces (s : State) (ls : List Nat) : (s.touchPlaces ls).pending = s.pending := by unfold State.touchPlaces; exact foldl_keeps (p := fun s : State => s.pending) (by intro s a; split <;> simp) _ _
@[simp] theorem State.timers_touchPlaces (s : State) (ls : List Nat) : (s.touchPlaces ls).timers = s.timers := by unfold State.touchPlaces; exact foldl_keeps (p := fun s : State => s.timers) (by intro s a; split <;> simp) _ _
@[simp] theorem State.turns_touchPlaces (s : State) (ls : List Nat) : (s.touchPlaces ls).turns = s.turns := by unfold State.touchPlaces; exact foldl_keeps (p := fun s : State => s.turns) (by intro s a; split <;> simp) _ _
@[simp] theorem State.cur_touchPlaces (s : State) (ls : List Nat) : (s.touchPlaces ls).cur = s.cur := by unfold State.touchPlaces; exact foldl_keeps (p := fun s : State => s.cur) (by intro s a; split <;> simp) _ _
@[simp] theorem State.iword_touchPlaces (s : State) (ls : List Nat) : (s.touchPlaces ls).iword = s.iword := by unfold State.touchPlaces; exact foldl_keeps (p := fun s : State => s.iword) (by intro s a; split <;> simp) _ _
@[simp] theorem State.cycle_touchPlaces (s : State) (ls : List Nat) : (s.touchPlaces ls).cycle = s.cycle := by unfold State.touchPlaces; exact foldl_keeps (p := fun s : State => s.cycle) (by intro s a; split <;> simp) _ _
@[simp] theorem State.scan_touchPlaces (s : State) (ls : List Nat) : (s.touchPlaces ls).scan = s.scan := by unfold State.touchPlaces; exact foldl_keeps (p := fun s : State => s.scan) (by intro s a; split <;> simp) _ _
@[simp] theorem State.ending_touchPlaces (s : State) (ls : List Nat) : (s.touchPlaces ls).ending = s.ending := by unfold State.touchPlaces; exact foldl_keeps (p := fun s : State => s.ending) (by intro s a; split <;> simp) _ _
@[simp] theorem State.nextUid_touchPlaces (s : State) (ls : List Nat) : (s.touchPlaces ls).nextUid = s.nextUid := by unfold State.touchPlaces; exact foldl_keeps (p := fun s : State => s.nextUid) (by intro s a; split <;> simp) _ _
@[simp] theorem State.frozen_touchPlaces (s : State) (ls : List Nat) : (s.touchPlaces ls).frozen = s.frozen := by unfold State.touchPlaces; exact foldl_keeps (p := fun s : State => s.frozen) (by intro s a; split <;> simp) _ _
@[simp] theorem State.view_touchPlaces (s : State) (ls : List Nat) : (s.touchPlaces ls).view = s.view := by unfold State.touchPlaces; exact foldl_keeps (p := fun s : State => s.view) (by intro s a; split <;> simp) _ _
@[simp] theorem State.cxlData_touchPlaces (s : State) (ls : List Nat) : (s.touchPlaces ls).cxlData = s.cxlData := by unfold State.touchPlaces; exact foldl_keeps (p := fun s : State => s.cxlData) (by intro s a; split <;> simp) _ _
@[simp] theorem State.empty_commitByte (s : State) (l : Nat) (v : Byte) : (s.commitByte l v).empty = s.empty := rfl
@[simp] theorem State.poison_commitByte (s : State) (l : Nat) (v : Byte) : (s.commitByte l v).poison = s.poison := rfl
@[simp] theorem State.cached_commitByte (s : State) (l : Nat) (v : Byte) : (s.commitByte l v).cached = s.cached := rfl
@[simp] theorem State.latent_commitByte (s : State) (l : Nat) (v : Byte) : (s.commitByte l v).latent = s.latent := rfl
@[simp] theorem State.co_commitByte (s : State) (l : Nat) (v : Byte) : (s.commitByte l v).co = s.co := rfl
@[simp] theorem State.reserved_commitByte (s : State) (l : Nat) (v : Byte) : (s.commitByte l v).reserved = s.reserved := rfl
@[simp] theorem State.threads_commitByte (s : State) (l : Nat) (v : Byte) : (s.commitByte l v).threads = s.threads := rfl
@[simp] theorem State.cores_commitByte (s : State) (l : Nat) (v : Byte) : (s.commitByte l v).cores = s.cores := rfl
@[simp] theorem State.setts_commitByte (s : State) (l : Nat) (v : Byte) : (s.commitByte l v).setts = s.setts := rfl
@[simp] theorem State.tcache_commitByte (s : State) (l : Nat) (v : Byte) : (s.commitByte l v).tcache = s.tcache := rfl
@[simp] theorem State.grants_commitByte (s : State) (l : Nat) (v : Byte) : (s.commitByte l v).grants = s.grants := rfl
@[simp] theorem State.used_commitByte (s : State) (l : Nat) (v : Byte) : (s.commitByte l v).used = s.used := rfl
@[simp] theorem State.mapped_commitByte (s : State) (l : Nat) (v : Byte) : (s.commitByte l v).mapped = s.mapped := rfl
@[simp] theorem State.faultq_commitByte (s : State) (l : Nat) (v : Byte) : (s.commitByte l v).faultq = s.faultq := rfl
@[simp] theorem State.waiters_commitByte (s : State) (l : Nat) (v : Byte) : (s.commitByte l v).waiters = s.waiters := rfl
@[simp] theorem State.watches_commitByte (s : State) (l : Nat) (v : Byte) : (s.commitByte l v).watches = s.watches := rfl
@[simp] theorem State.nextWatch_commitByte (s : State) (l : Nat) (v : Byte) : (s.commitByte l v).nextWatch = s.nextWatch := rfl
@[simp] theorem State.groups_commitByte (s : State) (l : Nat) (v : Byte) : (s.commitByte l v).groups = s.groups := rfl
@[simp] theorem State.outbox_commitByte (s : State) (l : Nat) (v : Byte) : (s.commitByte l v).outbox = s.outbox := rfl
@[simp] theorem State.launches_commitByte (s : State) (l : Nat) (v : Byte) : (s.commitByte l v).launches = s.launches := rfl
@[simp] theorem State.nextKey_commitByte (s : State) (l : Nat) (v : Byte) : (s.commitByte l v).nextKey = s.nextKey := rfl
@[simp] theorem State.served_commitByte (s : State) (l : Nat) (v : Byte) : (s.commitByte l v).served = s.served := rfl
@[simp] theorem State.handles_commitByte (s : State) (l : Nat) (v : Byte) : (s.commitByte l v).handles = s.handles := rfl
@[simp] theorem State.syncs_commitByte (s : State) (l : Nat) (v : Byte) : (s.commitByte l v).syncs = s.syncs := rfl
@[simp] theorem State.saved_commitByte (s : State) (l : Nat) (v : Byte) : (s.commitByte l v).saved = s.saved := rfl
@[simp] theorem State.ctxs_commitByte (s : State) (l : Nat) (v : Byte) : (s.commitByte l v).ctxs = s.ctxs := rfl
@[simp] theorem State.device_commitByte (s : State) (l : Nat) (v : Byte) : (s.commitByte l v).device = s.device := rfl
@[simp] theorem State.ageing_commitByte (s : State) (l : Nat) (v : Byte) : (s.commitByte l v).ageing = s.ageing := rfl
@[simp] theorem State.bankLimit_commitByte (s : State) (l : Nat) (v : Byte) : (s.commitByte l v).bankLimit = s.bankLimit := rfl
@[simp] theorem State.threshold_commitByte (s : State) (l : Nat) (v : Byte) : (s.commitByte l v).threshold = s.threshold := rfl
@[simp] theorem State.lostStacks_commitByte (s : State) (l : Nat) (v : Byte) : (s.commitByte l v).lostStacks = s.lostStacks := rfl
@[simp] theorem State.lostLinks_commitByte (s : State) (l : Nat) (v : Byte) : (s.commitByte l v).lostLinks = s.lostLinks := rfl
@[simp] theorem State.lostDevs_commitByte (s : State) (l : Nat) (v : Byte) : (s.commitByte l v).lostDevs = s.lostDevs := rfl
@[simp] theorem State.lostPorts_commitByte (s : State) (l : Nat) (v : Byte) : (s.commitByte l v).lostPorts = s.lostPorts := rfl
@[simp] theorem State.lostHomes_commitByte (s : State) (l : Nat) (v : Byte) : (s.commitByte l v).lostHomes = s.lostHomes := rfl
@[simp] theorem State.renewed_commitByte (s : State) (l : Nat) (v : Byte) : (s.commitByte l v).renewed = s.renewed := rfl
@[simp] theorem State.bedLost_commitByte (s : State) (l : Nat) (v : Byte) : (s.commitByte l v).bedLost = s.bedLost := rfl
@[simp] theorem State.pending_commitByte (s : State) (l : Nat) (v : Byte) : (s.commitByte l v).pending = s.pending := rfl
@[simp] theorem State.timers_commitByte (s : State) (l : Nat) (v : Byte) : (s.commitByte l v).timers = s.timers := rfl
@[simp] theorem State.turns_commitByte (s : State) (l : Nat) (v : Byte) : (s.commitByte l v).turns = s.turns := rfl
@[simp] theorem State.cur_commitByte (s : State) (l : Nat) (v : Byte) : (s.commitByte l v).cur = s.cur := rfl
@[simp] theorem State.iword_commitByte (s : State) (l : Nat) (v : Byte) : (s.commitByte l v).iword = s.iword := rfl
@[simp] theorem State.cycle_commitByte (s : State) (l : Nat) (v : Byte) : (s.commitByte l v).cycle = s.cycle := rfl
@[simp] theorem State.scan_commitByte (s : State) (l : Nat) (v : Byte) : (s.commitByte l v).scan = s.scan := rfl
@[simp] theorem State.ending_commitByte (s : State) (l : Nat) (v : Byte) : (s.commitByte l v).ending = s.ending := rfl
@[simp] theorem State.free_commitByte (s : State) (l : Nat) (v : Byte) : (s.commitByte l v).free = s.free := rfl
@[simp] theorem State.nextUid_commitByte (s : State) (l : Nat) (v : Byte) : (s.commitByte l v).nextUid = s.nextUid := rfl
@[simp] theorem State.frozen_commitByte (s : State) (l : Nat) (v : Byte) : (s.commitByte l v).frozen = s.frozen := rfl
@[simp] theorem State.view_commitByte (s : State) (l : Nat) (v : Byte) : (s.commitByte l v).view = s.view := rfl
@[simp] theorem State.cxlData_commitByte (s : State) (l : Nat) (v : Byte) : (s.commitByte l v).cxlData = s.cxlData := rfl
@[simp] theorem State.mem_afterCommit (s : State) (ws : List Nat) : (s.afterCommit ws).mem = s.mem := by unfold State.afterCommit; exact foldl_keeps (p := fun s : State => s.mem) (by intro s a; simp) _ _
@[simp] theorem State.empty_afterCommit (s : State) (ws : List Nat) : (s.afterCommit ws).empty = s.empty := by unfold State.afterCommit; exact foldl_keeps (p := fun s : State => s.empty) (by intro s a; simp) _ _
@[simp] theorem State.poison_afterCommit (s : State) (ws : List Nat) : (s.afterCommit ws).poison = s.poison := by unfold State.afterCommit; exact foldl_keeps (p := fun s : State => s.poison) (by intro s a; simp) _ _
@[simp] theorem State.near_afterCommit (s : State) (ws : List Nat) : (s.afterCommit ws).near = s.near := by unfold State.afterCommit; exact foldl_keeps (p := fun s : State => s.near) (by intro s a; simp) _ _
@[simp] theorem State.cached_afterCommit (s : State) (ws : List Nat) : (s.afterCommit ws).cached = s.cached := by unfold State.afterCommit; exact foldl_keeps (p := fun s : State => s.cached) (by intro s a; simp) _ _
@[simp] theorem State.latent_afterCommit (s : State) (ws : List Nat) : (s.afterCommit ws).latent = s.latent := by unfold State.afterCommit; exact foldl_keeps (p := fun s : State => s.latent) (by intro s a; simp) _ _
@[simp] theorem State.co_afterCommit (s : State) (ws : List Nat) : (s.afterCommit ws).co = s.co := by unfold State.afterCommit; exact foldl_keeps (p := fun s : State => s.co) (by intro s a; simp) _ _
@[simp] theorem State.stamps_afterCommit (s : State) (ws : List Nat) : (s.afterCommit ws).stamps = s.stamps := by unfold State.afterCommit; exact foldl_keeps (p := fun s : State => s.stamps) (by intro s a; simp) _ _
@[simp] theorem State.reserved_afterCommit (s : State) (ws : List Nat) : (s.afterCommit ws).reserved = s.reserved := by unfold State.afterCommit; exact foldl_keeps (p := fun s : State => s.reserved) (by intro s a; simp) _ _
@[simp] theorem State.cores_afterCommit (s : State) (ws : List Nat) : (s.afterCommit ws).cores = s.cores := by unfold State.afterCommit; exact foldl_keeps (p := fun s : State => s.cores) (by intro s a; simp) _ _
@[simp] theorem State.setts_afterCommit (s : State) (ws : List Nat) : (s.afterCommit ws).setts = s.setts := by unfold State.afterCommit; exact foldl_keeps (p := fun s : State => s.setts) (by intro s a; simp) _ _
@[simp] theorem State.tcache_afterCommit (s : State) (ws : List Nat) : (s.afterCommit ws).tcache = s.tcache := by unfold State.afterCommit; exact foldl_keeps (p := fun s : State => s.tcache) (by intro s a; simp) _ _
@[simp] theorem State.grants_afterCommit (s : State) (ws : List Nat) : (s.afterCommit ws).grants = s.grants := by unfold State.afterCommit; exact foldl_keeps (p := fun s : State => s.grants) (by intro s a; simp) _ _
@[simp] theorem State.used_afterCommit (s : State) (ws : List Nat) : (s.afterCommit ws).used = s.used := by unfold State.afterCommit; exact foldl_keeps (p := fun s : State => s.used) (by intro s a; simp) _ _
@[simp] theorem State.mapped_afterCommit (s : State) (ws : List Nat) : (s.afterCommit ws).mapped = s.mapped := by unfold State.afterCommit; exact foldl_keeps (p := fun s : State => s.mapped) (by intro s a; simp) _ _
@[simp] theorem State.faultq_afterCommit (s : State) (ws : List Nat) : (s.afterCommit ws).faultq = s.faultq := by unfold State.afterCommit; exact foldl_keeps (p := fun s : State => s.faultq) (by intro s a; simp) _ _
@[simp] theorem State.waiters_afterCommit (s : State) (ws : List Nat) : (s.afterCommit ws).waiters = s.waiters := by unfold State.afterCommit; exact foldl_keeps (p := fun s : State => s.waiters) (by intro s a; simp) _ _
@[simp] theorem State.watches_afterCommit (s : State) (ws : List Nat) : (s.afterCommit ws).watches = s.watches := by unfold State.afterCommit; exact foldl_keeps (p := fun s : State => s.watches) (by intro s a; simp) _ _
@[simp] theorem State.nextWatch_afterCommit (s : State) (ws : List Nat) : (s.afterCommit ws).nextWatch = s.nextWatch := by unfold State.afterCommit; exact foldl_keeps (p := fun s : State => s.nextWatch) (by intro s a; simp) _ _
@[simp] theorem State.groups_afterCommit (s : State) (ws : List Nat) : (s.afterCommit ws).groups = s.groups := by unfold State.afterCommit; exact foldl_keeps (p := fun s : State => s.groups) (by intro s a; simp) _ _
@[simp] theorem State.outbox_afterCommit (s : State) (ws : List Nat) : (s.afterCommit ws).outbox = s.outbox := by unfold State.afterCommit; exact foldl_keeps (p := fun s : State => s.outbox) (by intro s a; simp) _ _
@[simp] theorem State.launches_afterCommit (s : State) (ws : List Nat) : (s.afterCommit ws).launches = s.launches := by unfold State.afterCommit; exact foldl_keeps (p := fun s : State => s.launches) (by intro s a; simp) _ _
@[simp] theorem State.nextKey_afterCommit (s : State) (ws : List Nat) : (s.afterCommit ws).nextKey = s.nextKey := by unfold State.afterCommit; exact foldl_keeps (p := fun s : State => s.nextKey) (by intro s a; simp) _ _
@[simp] theorem State.served_afterCommit (s : State) (ws : List Nat) : (s.afterCommit ws).served = s.served := by unfold State.afterCommit; exact foldl_keeps (p := fun s : State => s.served) (by intro s a; simp) _ _
@[simp] theorem State.handles_afterCommit (s : State) (ws : List Nat) : (s.afterCommit ws).handles = s.handles := by unfold State.afterCommit; exact foldl_keeps (p := fun s : State => s.handles) (by intro s a; simp) _ _
@[simp] theorem State.syncs_afterCommit (s : State) (ws : List Nat) : (s.afterCommit ws).syncs = s.syncs := by unfold State.afterCommit; exact foldl_keeps (p := fun s : State => s.syncs) (by intro s a; simp) _ _
@[simp] theorem State.saved_afterCommit (s : State) (ws : List Nat) : (s.afterCommit ws).saved = s.saved := by unfold State.afterCommit; exact foldl_keeps (p := fun s : State => s.saved) (by intro s a; simp) _ _
@[simp] theorem State.device_afterCommit (s : State) (ws : List Nat) : (s.afterCommit ws).device = s.device := by unfold State.afterCommit; exact foldl_keeps (p := fun s : State => s.device) (by intro s a; simp) _ _
@[simp] theorem State.ageing_afterCommit (s : State) (ws : List Nat) : (s.afterCommit ws).ageing = s.ageing := by unfold State.afterCommit; exact foldl_keeps (p := fun s : State => s.ageing) (by intro s a; simp) _ _
@[simp] theorem State.bankLimit_afterCommit (s : State) (ws : List Nat) : (s.afterCommit ws).bankLimit = s.bankLimit := by unfold State.afterCommit; exact foldl_keeps (p := fun s : State => s.bankLimit) (by intro s a; simp) _ _
@[simp] theorem State.threshold_afterCommit (s : State) (ws : List Nat) : (s.afterCommit ws).threshold = s.threshold := by unfold State.afterCommit; exact foldl_keeps (p := fun s : State => s.threshold) (by intro s a; simp) _ _
@[simp] theorem State.lostStacks_afterCommit (s : State) (ws : List Nat) : (s.afterCommit ws).lostStacks = s.lostStacks := by unfold State.afterCommit; exact foldl_keeps (p := fun s : State => s.lostStacks) (by intro s a; simp) _ _
@[simp] theorem State.lostLinks_afterCommit (s : State) (ws : List Nat) : (s.afterCommit ws).lostLinks = s.lostLinks := by unfold State.afterCommit; exact foldl_keeps (p := fun s : State => s.lostLinks) (by intro s a; simp) _ _
@[simp] theorem State.lostDevs_afterCommit (s : State) (ws : List Nat) : (s.afterCommit ws).lostDevs = s.lostDevs := by unfold State.afterCommit; exact foldl_keeps (p := fun s : State => s.lostDevs) (by intro s a; simp) _ _
@[simp] theorem State.lostPorts_afterCommit (s : State) (ws : List Nat) : (s.afterCommit ws).lostPorts = s.lostPorts := by unfold State.afterCommit; exact foldl_keeps (p := fun s : State => s.lostPorts) (by intro s a; simp) _ _
@[simp] theorem State.lostHomes_afterCommit (s : State) (ws : List Nat) : (s.afterCommit ws).lostHomes = s.lostHomes := by unfold State.afterCommit; exact foldl_keeps (p := fun s : State => s.lostHomes) (by intro s a; simp) _ _
@[simp] theorem State.renewed_afterCommit (s : State) (ws : List Nat) : (s.afterCommit ws).renewed = s.renewed := by unfold State.afterCommit; exact foldl_keeps (p := fun s : State => s.renewed) (by intro s a; simp) _ _
@[simp] theorem State.bedLost_afterCommit (s : State) (ws : List Nat) : (s.afterCommit ws).bedLost = s.bedLost := by unfold State.afterCommit; exact foldl_keeps (p := fun s : State => s.bedLost) (by intro s a; simp) _ _
@[simp] theorem State.timers_afterCommit (s : State) (ws : List Nat) : (s.afterCommit ws).timers = s.timers := by unfold State.afterCommit; exact foldl_keeps (p := fun s : State => s.timers) (by intro s a; simp) _ _
@[simp] theorem State.turns_afterCommit (s : State) (ws : List Nat) : (s.afterCommit ws).turns = s.turns := by unfold State.afterCommit; exact foldl_keeps (p := fun s : State => s.turns) (by intro s a; simp) _ _
@[simp] theorem State.cur_afterCommit (s : State) (ws : List Nat) : (s.afterCommit ws).cur = s.cur := by unfold State.afterCommit; exact foldl_keeps (p := fun s : State => s.cur) (by intro s a; simp) _ _
@[simp] theorem State.iword_afterCommit (s : State) (ws : List Nat) : (s.afterCommit ws).iword = s.iword := by unfold State.afterCommit; exact foldl_keeps (p := fun s : State => s.iword) (by intro s a; simp) _ _
@[simp] theorem State.cycle_afterCommit (s : State) (ws : List Nat) : (s.afterCommit ws).cycle = s.cycle := by unfold State.afterCommit; exact foldl_keeps (p := fun s : State => s.cycle) (by intro s a; simp) _ _
@[simp] theorem State.scan_afterCommit (s : State) (ws : List Nat) : (s.afterCommit ws).scan = s.scan := by unfold State.afterCommit; exact foldl_keeps (p := fun s : State => s.scan) (by intro s a; simp) _ _
@[simp] theorem State.ending_afterCommit (s : State) (ws : List Nat) : (s.afterCommit ws).ending = s.ending := by unfold State.afterCommit; exact foldl_keeps (p := fun s : State => s.ending) (by intro s a; simp) _ _
@[simp] theorem State.free_afterCommit (s : State) (ws : List Nat) : (s.afterCommit ws).free = s.free := by unfold State.afterCommit; exact foldl_keeps (p := fun s : State => s.free) (by intro s a; simp) _ _
@[simp] theorem State.nextUid_afterCommit (s : State) (ws : List Nat) : (s.afterCommit ws).nextUid = s.nextUid := by unfold State.afterCommit; exact foldl_keeps (p := fun s : State => s.nextUid) (by intro s a; simp) _ _
@[simp] theorem State.frozen_afterCommit (s : State) (ws : List Nat) : (s.afterCommit ws).frozen = s.frozen := by unfold State.afterCommit; exact foldl_keeps (p := fun s : State => s.frozen) (by intro s a; simp) _ _
@[simp] theorem State.view_afterCommit (s : State) (ws : List Nat) : (s.afterCommit ws).view = s.view := by unfold State.afterCommit; exact foldl_keeps (p := fun s : State => s.view) (by intro s a; simp) _ _
@[simp] theorem State.cxlData_afterCommit (s : State) (ws : List Nat) : (s.afterCommit ws).cxlData = s.cxlData := by unfold State.afterCommit; exact foldl_keeps (p := fun s : State => s.cxlData) (by intro s a; simp) _ _
@[simp] theorem State.empty_commitBytes (s : State) (ws : List (Nat × Byte)) : (s.commitBytes ws).empty = s.empty := by
  unfold State.commitBytes
  rw [State.empty_afterCommit]
  rw [foldl_keeps (p := fun s : State => s.empty) (by intro s a; split <;> rfl)]
  rw [foldl_keeps (p := fun s : State => s.empty) (by intro s a; rfl)]
  rw [State.empty_touchPlaces]
@[simp] theorem State.reserved_commitBytes (s : State) (ws : List (Nat × Byte)) : (s.commitBytes ws).reserved = s.reserved := by
  unfold State.commitBytes
  rw [State.reserved_afterCommit]
  rw [foldl_keeps (p := fun s : State => s.reserved) (by intro s a; split <;> rfl)]
  rw [foldl_keeps (p := fun s : State => s.reserved) (by intro s a; rfl)]
  rw [State.reserved_touchPlaces]
@[simp] theorem State.cores_commitBytes (s : State) (ws : List (Nat × Byte)) : (s.commitBytes ws).cores = s.cores := by
  unfold State.commitBytes
  rw [State.cores_afterCommit]
  rw [foldl_keeps (p := fun s : State => s.cores) (by intro s a; split <;> rfl)]
  rw [foldl_keeps (p := fun s : State => s.cores) (by intro s a; rfl)]
  rw [State.cores_touchPlaces]
@[simp] theorem State.setts_commitBytes (s : State) (ws : List (Nat × Byte)) : (s.commitBytes ws).setts = s.setts := by
  unfold State.commitBytes
  rw [State.setts_afterCommit]
  rw [foldl_keeps (p := fun s : State => s.setts) (by intro s a; split <;> rfl)]
  rw [foldl_keeps (p := fun s : State => s.setts) (by intro s a; rfl)]
  rw [State.setts_touchPlaces]
@[simp] theorem State.tcache_commitBytes (s : State) (ws : List (Nat × Byte)) : (s.commitBytes ws).tcache = s.tcache := by
  unfold State.commitBytes
  rw [State.tcache_afterCommit]
  rw [foldl_keeps (p := fun s : State => s.tcache) (by intro s a; split <;> rfl)]
  rw [foldl_keeps (p := fun s : State => s.tcache) (by intro s a; rfl)]
  rw [State.tcache_touchPlaces]
@[simp] theorem State.grants_commitBytes (s : State) (ws : List (Nat × Byte)) : (s.commitBytes ws).grants = s.grants := by
  unfold State.commitBytes
  rw [State.grants_afterCommit]
  rw [foldl_keeps (p := fun s : State => s.grants) (by intro s a; split <;> rfl)]
  rw [foldl_keeps (p := fun s : State => s.grants) (by intro s a; rfl)]
  rw [State.grants_touchPlaces]
@[simp] theorem State.used_commitBytes (s : State) (ws : List (Nat × Byte)) : (s.commitBytes ws).used = s.used := by
  unfold State.commitBytes
  rw [State.used_afterCommit]
  rw [foldl_keeps (p := fun s : State => s.used) (by intro s a; split <;> rfl)]
  rw [foldl_keeps (p := fun s : State => s.used) (by intro s a; rfl)]
  rw [State.used_touchPlaces]
@[simp] theorem State.mapped_commitBytes (s : State) (ws : List (Nat × Byte)) : (s.commitBytes ws).mapped = s.mapped := by
  unfold State.commitBytes
  rw [State.mapped_afterCommit]
  rw [foldl_keeps (p := fun s : State => s.mapped) (by intro s a; split <;> rfl)]
  rw [foldl_keeps (p := fun s : State => s.mapped) (by intro s a; rfl)]
  rw [State.mapped_touchPlaces]
@[simp] theorem State.faultq_commitBytes (s : State) (ws : List (Nat × Byte)) : (s.commitBytes ws).faultq = s.faultq := by
  unfold State.commitBytes
  rw [State.faultq_afterCommit]
  rw [foldl_keeps (p := fun s : State => s.faultq) (by intro s a; split <;> rfl)]
  rw [foldl_keeps (p := fun s : State => s.faultq) (by intro s a; rfl)]
  rw [State.faultq_touchPlaces]
@[simp] theorem State.waiters_commitBytes (s : State) (ws : List (Nat × Byte)) : (s.commitBytes ws).waiters = s.waiters := by
  unfold State.commitBytes
  rw [State.waiters_afterCommit]
  rw [foldl_keeps (p := fun s : State => s.waiters) (by intro s a; split <;> rfl)]
  rw [foldl_keeps (p := fun s : State => s.waiters) (by intro s a; rfl)]
  rw [State.waiters_touchPlaces]
@[simp] theorem State.watches_commitBytes (s : State) (ws : List (Nat × Byte)) : (s.commitBytes ws).watches = s.watches := by
  unfold State.commitBytes
  rw [State.watches_afterCommit]
  rw [foldl_keeps (p := fun s : State => s.watches) (by intro s a; split <;> rfl)]
  rw [foldl_keeps (p := fun s : State => s.watches) (by intro s a; rfl)]
  rw [State.watches_touchPlaces]
@[simp] theorem State.nextWatch_commitBytes (s : State) (ws : List (Nat × Byte)) : (s.commitBytes ws).nextWatch = s.nextWatch := by
  unfold State.commitBytes
  rw [State.nextWatch_afterCommit]
  rw [foldl_keeps (p := fun s : State => s.nextWatch) (by intro s a; split <;> rfl)]
  rw [foldl_keeps (p := fun s : State => s.nextWatch) (by intro s a; rfl)]
  rw [State.nextWatch_touchPlaces]
@[simp] theorem State.groups_commitBytes (s : State) (ws : List (Nat × Byte)) : (s.commitBytes ws).groups = s.groups := by
  unfold State.commitBytes
  rw [State.groups_afterCommit]
  rw [foldl_keeps (p := fun s : State => s.groups) (by intro s a; split <;> rfl)]
  rw [foldl_keeps (p := fun s : State => s.groups) (by intro s a; rfl)]
  rw [State.groups_touchPlaces]
@[simp] theorem State.outbox_commitBytes (s : State) (ws : List (Nat × Byte)) : (s.commitBytes ws).outbox = s.outbox := by
  unfold State.commitBytes
  rw [State.outbox_afterCommit]
  rw [foldl_keeps (p := fun s : State => s.outbox) (by intro s a; split <;> rfl)]
  rw [foldl_keeps (p := fun s : State => s.outbox) (by intro s a; rfl)]
  rw [State.outbox_touchPlaces]
@[simp] theorem State.launches_commitBytes (s : State) (ws : List (Nat × Byte)) : (s.commitBytes ws).launches = s.launches := by
  unfold State.commitBytes
  rw [State.launches_afterCommit]
  rw [foldl_keeps (p := fun s : State => s.launches) (by intro s a; split <;> rfl)]
  rw [foldl_keeps (p := fun s : State => s.launches) (by intro s a; rfl)]
  rw [State.launches_touchPlaces]
@[simp] theorem State.nextKey_commitBytes (s : State) (ws : List (Nat × Byte)) : (s.commitBytes ws).nextKey = s.nextKey := by
  unfold State.commitBytes
  rw [State.nextKey_afterCommit]
  rw [foldl_keeps (p := fun s : State => s.nextKey) (by intro s a; split <;> rfl)]
  rw [foldl_keeps (p := fun s : State => s.nextKey) (by intro s a; rfl)]
  rw [State.nextKey_touchPlaces]
@[simp] theorem State.served_commitBytes (s : State) (ws : List (Nat × Byte)) : (s.commitBytes ws).served = s.served := by
  unfold State.commitBytes
  rw [State.served_afterCommit]
  rw [foldl_keeps (p := fun s : State => s.served) (by intro s a; split <;> rfl)]
  rw [foldl_keeps (p := fun s : State => s.served) (by intro s a; rfl)]
  rw [State.served_touchPlaces]
@[simp] theorem State.handles_commitBytes (s : State) (ws : List (Nat × Byte)) : (s.commitBytes ws).handles = s.handles := by
  unfold State.commitBytes
  rw [State.handles_afterCommit]
  rw [foldl_keeps (p := fun s : State => s.handles) (by intro s a; split <;> rfl)]
  rw [foldl_keeps (p := fun s : State => s.handles) (by intro s a; rfl)]
  rw [State.handles_touchPlaces]
@[simp] theorem State.syncs_commitBytes (s : State) (ws : List (Nat × Byte)) : (s.commitBytes ws).syncs = s.syncs := by
  unfold State.commitBytes
  rw [State.syncs_afterCommit]
  rw [foldl_keeps (p := fun s : State => s.syncs) (by intro s a; split <;> rfl)]
  rw [foldl_keeps (p := fun s : State => s.syncs) (by intro s a; rfl)]
  rw [State.syncs_touchPlaces]
@[simp] theorem State.saved_commitBytes (s : State) (ws : List (Nat × Byte)) : (s.commitBytes ws).saved = s.saved := by
  unfold State.commitBytes
  rw [State.saved_afterCommit]
  rw [foldl_keeps (p := fun s : State => s.saved) (by intro s a; split <;> rfl)]
  rw [foldl_keeps (p := fun s : State => s.saved) (by intro s a; rfl)]
  rw [State.saved_touchPlaces]
@[simp] theorem State.ageing_commitBytes (s : State) (ws : List (Nat × Byte)) : (s.commitBytes ws).ageing = s.ageing := by
  unfold State.commitBytes
  rw [State.ageing_afterCommit]
  rw [foldl_keeps (p := fun s : State => s.ageing) (by intro s a; split <;> rfl)]
  rw [foldl_keeps (p := fun s : State => s.ageing) (by intro s a; rfl)]
  rw [State.ageing_touchPlaces]
@[simp] theorem State.bankLimit_commitBytes (s : State) (ws : List (Nat × Byte)) : (s.commitBytes ws).bankLimit = s.bankLimit := by
  unfold State.commitBytes
  rw [State.bankLimit_afterCommit]
  rw [foldl_keeps (p := fun s : State => s.bankLimit) (by intro s a; split <;> rfl)]
  rw [foldl_keeps (p := fun s : State => s.bankLimit) (by intro s a; rfl)]
  rw [State.bankLimit_touchPlaces]
@[simp] theorem State.threshold_commitBytes (s : State) (ws : List (Nat × Byte)) : (s.commitBytes ws).threshold = s.threshold := by
  unfold State.commitBytes
  rw [State.threshold_afterCommit]
  rw [foldl_keeps (p := fun s : State => s.threshold) (by intro s a; split <;> rfl)]
  rw [foldl_keeps (p := fun s : State => s.threshold) (by intro s a; rfl)]
  rw [State.threshold_touchPlaces]
@[simp] theorem State.lostStacks_commitBytes (s : State) (ws : List (Nat × Byte)) : (s.commitBytes ws).lostStacks = s.lostStacks := by
  unfold State.commitBytes
  rw [State.lostStacks_afterCommit]
  rw [foldl_keeps (p := fun s : State => s.lostStacks) (by intro s a; split <;> rfl)]
  rw [foldl_keeps (p := fun s : State => s.lostStacks) (by intro s a; rfl)]
  rw [State.lostStacks_touchPlaces]
@[simp] theorem State.lostLinks_commitBytes (s : State) (ws : List (Nat × Byte)) : (s.commitBytes ws).lostLinks = s.lostLinks := by
  unfold State.commitBytes
  rw [State.lostLinks_afterCommit]
  rw [foldl_keeps (p := fun s : State => s.lostLinks) (by intro s a; split <;> rfl)]
  rw [foldl_keeps (p := fun s : State => s.lostLinks) (by intro s a; rfl)]
  rw [State.lostLinks_touchPlaces]
@[simp] theorem State.lostDevs_commitBytes (s : State) (ws : List (Nat × Byte)) : (s.commitBytes ws).lostDevs = s.lostDevs := by
  unfold State.commitBytes
  rw [State.lostDevs_afterCommit]
  rw [foldl_keeps (p := fun s : State => s.lostDevs) (by intro s a; split <;> rfl)]
  rw [foldl_keeps (p := fun s : State => s.lostDevs) (by intro s a; rfl)]
  rw [State.lostDevs_touchPlaces]
@[simp] theorem State.lostPorts_commitBytes (s : State) (ws : List (Nat × Byte)) : (s.commitBytes ws).lostPorts = s.lostPorts := by
  unfold State.commitBytes
  rw [State.lostPorts_afterCommit]
  rw [foldl_keeps (p := fun s : State => s.lostPorts) (by intro s a; split <;> rfl)]
  rw [foldl_keeps (p := fun s : State => s.lostPorts) (by intro s a; rfl)]
  rw [State.lostPorts_touchPlaces]
@[simp] theorem State.lostHomes_commitBytes (s : State) (ws : List (Nat × Byte)) : (s.commitBytes ws).lostHomes = s.lostHomes := by
  unfold State.commitBytes
  rw [State.lostHomes_afterCommit]
  rw [foldl_keeps (p := fun s : State => s.lostHomes) (by intro s a; split <;> rfl)]
  rw [foldl_keeps (p := fun s : State => s.lostHomes) (by intro s a; rfl)]
  rw [State.lostHomes_touchPlaces]
@[simp] theorem State.renewed_commitBytes (s : State) (ws : List (Nat × Byte)) : (s.commitBytes ws).renewed = s.renewed := by
  unfold State.commitBytes
  rw [State.renewed_afterCommit]
  rw [foldl_keeps (p := fun s : State => s.renewed) (by intro s a; split <;> rfl)]
  rw [foldl_keeps (p := fun s : State => s.renewed) (by intro s a; rfl)]
  rw [State.renewed_touchPlaces]
@[simp] theorem State.bedLost_commitBytes (s : State) (ws : List (Nat × Byte)) : (s.commitBytes ws).bedLost = s.bedLost := by
  unfold State.commitBytes
  rw [State.bedLost_afterCommit]
  rw [foldl_keeps (p := fun s : State => s.bedLost) (by intro s a; split <;> rfl)]
  rw [foldl_keeps (p := fun s : State => s.bedLost) (by intro s a; rfl)]
  rw [State.bedLost_touchPlaces]
@[simp] theorem State.timers_commitBytes (s : State) (ws : List (Nat × Byte)) : (s.commitBytes ws).timers = s.timers := by
  unfold State.commitBytes
  rw [State.timers_afterCommit]
  rw [foldl_keeps (p := fun s : State => s.timers) (by intro s a; split <;> rfl)]
  rw [foldl_keeps (p := fun s : State => s.timers) (by intro s a; rfl)]
  rw [State.timers_touchPlaces]
@[simp] theorem State.turns_commitBytes (s : State) (ws : List (Nat × Byte)) : (s.commitBytes ws).turns = s.turns := by
  unfold State.commitBytes
  rw [State.turns_afterCommit]
  rw [foldl_keeps (p := fun s : State => s.turns) (by intro s a; split <;> rfl)]
  rw [foldl_keeps (p := fun s : State => s.turns) (by intro s a; rfl)]
  rw [State.turns_touchPlaces]
@[simp] theorem State.cur_commitBytes (s : State) (ws : List (Nat × Byte)) : (s.commitBytes ws).cur = s.cur := by
  unfold State.commitBytes
  rw [State.cur_afterCommit]
  rw [foldl_keeps (p := fun s : State => s.cur) (by intro s a; split <;> rfl)]
  rw [foldl_keeps (p := fun s : State => s.cur) (by intro s a; rfl)]
  rw [State.cur_touchPlaces]
@[simp] theorem State.iword_commitBytes (s : State) (ws : List (Nat × Byte)) : (s.commitBytes ws).iword = s.iword := by
  unfold State.commitBytes
  rw [State.iword_afterCommit]
  rw [foldl_keeps (p := fun s : State => s.iword) (by intro s a; split <;> rfl)]
  rw [foldl_keeps (p := fun s : State => s.iword) (by intro s a; rfl)]
  rw [State.iword_touchPlaces]
@[simp] theorem State.cycle_commitBytes (s : State) (ws : List (Nat × Byte)) : (s.commitBytes ws).cycle = s.cycle := by
  unfold State.commitBytes
  rw [State.cycle_afterCommit]
  rw [foldl_keeps (p := fun s : State => s.cycle) (by intro s a; split <;> rfl)]
  rw [foldl_keeps (p := fun s : State => s.cycle) (by intro s a; rfl)]
  rw [State.cycle_touchPlaces]
@[simp] theorem State.scan_commitBytes (s : State) (ws : List (Nat × Byte)) : (s.commitBytes ws).scan = s.scan := by
  unfold State.commitBytes
  rw [State.scan_afterCommit]
  rw [foldl_keeps (p := fun s : State => s.scan) (by intro s a; split <;> rfl)]
  rw [foldl_keeps (p := fun s : State => s.scan) (by intro s a; rfl)]
  rw [State.scan_touchPlaces]
@[simp] theorem State.ending_commitBytes (s : State) (ws : List (Nat × Byte)) : (s.commitBytes ws).ending = s.ending := by
  unfold State.commitBytes
  rw [State.ending_afterCommit]
  rw [foldl_keeps (p := fun s : State => s.ending) (by intro s a; split <;> rfl)]
  rw [foldl_keeps (p := fun s : State => s.ending) (by intro s a; rfl)]
  rw [State.ending_touchPlaces]
@[simp] theorem State.nextUid_commitBytes (s : State) (ws : List (Nat × Byte)) : (s.commitBytes ws).nextUid = s.nextUid := by
  unfold State.commitBytes
  rw [State.nextUid_afterCommit]
  rw [foldl_keeps (p := fun s : State => s.nextUid) (by intro s a; split <;> rfl)]
  rw [foldl_keeps (p := fun s : State => s.nextUid) (by intro s a; rfl)]
  rw [State.nextUid_touchPlaces]
@[simp] theorem State.frozen_commitBytes (s : State) (ws : List (Nat × Byte)) : (s.commitBytes ws).frozen = s.frozen := by
  unfold State.commitBytes
  rw [State.frozen_afterCommit]
  rw [foldl_keeps (p := fun s : State => s.frozen) (by intro s a; split <;> rfl)]
  rw [foldl_keeps (p := fun s : State => s.frozen) (by intro s a; rfl)]
  rw [State.frozen_touchPlaces]
@[simp] theorem State.view_commitBytes (s : State) (ws : List (Nat × Byte)) : (s.commitBytes ws).view = s.view := by
  unfold State.commitBytes
  rw [State.view_afterCommit]
  rw [foldl_keeps (p := fun s : State => s.view) (by intro s a; split <;> rfl)]
  rw [foldl_keeps (p := fun s : State => s.view) (by intro s a; rfl)]
  rw [State.view_touchPlaces]
@[simp] theorem State.cxlData_commitBytes (s : State) (ws : List (Nat × Byte)) : (s.commitBytes ws).cxlData = s.cxlData := by
  unfold State.commitBytes
  rw [State.cxlData_afterCommit]
  rw [foldl_keeps (p := fun s : State => s.cxlData) (by intro s a; split <;> rfl)]
  rw [foldl_keeps (p := fun s : State => s.cxlData) (by intro s a; rfl)]
  rw [State.cxlData_touchPlaces]

/-- An ordinary access changes nothing of the device but its count of errors (R422). -/
theorem State.device_meetError (s : State) (l : Nat) : ∃ e, (s.meetError l).device = { s.device with eccu := e } := by
  unfold State.meetError; split
  · exact ⟨s.device.eccu, rfl⟩
  · exact ⟨_, rfl⟩
@[simp] theorem State.poisoned_writeBackLine (s : State) (l a : Nat) : (s.writeBackLine l).poisoned a = s.poisoned a := by simp [State.poisoned]

/-! ## A line that holds nothing more than it shows -/

/-- A held line that near memory has not passed by is never dropped unseen. -/
theorem State.mayEvict_fresh {s : State} {l : Nat} (h : s.staleLine l = false) : s.mayEvict l = s := by
  unfold State.mayEvict; simp [h]
theorem State.meetError_clean {s : State} {l : Nat} (h : Store.get s.latent l = 0#1) : s.meetError l = s := by
  unfold State.meetError; simp [h]
/-- A line that near memory has not passed by and that has no unmet error: all that an ordinary access leaves is that the LLC holds it. -/
theorem State.touchLine_closed {s : State} {l : Nat} (h : s.openLine l = false) :
    s.touchLine l = { s with cached := Store.put s.cached l 1#1 } := by
  unfold State.openLine at h
  simp only [Bool.or_eq_false_iff, decide_eq_false_iff_not, not_not] at h
  unfold State.touchLine
  simp only [State.mayEvict_fresh h.1]
  split
  · rfl
  · rw [State.meetError_clean h.2]
theorem State.mem_touchLine {s : State} {l : Nat} (h : s.staleLine l = false) : (s.touchLine l).mem = s.mem := by
  unfold State.touchLine; simp only [State.mayEvict_fresh h]; split <;> simp
theorem State.near_touchLine {s : State} {l : Nat} (h : s.staleLine l = false) : (s.touchLine l).near = s.near := by
  unfold State.touchLine; simp only [State.mayEvict_fresh h]; split <;> simp
theorem State.touchLines_closed (ls : List Nat) : ∀ s : State, (∀ l ∈ ls, isHbm (64 * l) = true → s.openLine l = false) →
    ls.foldl (fun s l => if isHbm (64 * l) then s.touchLine l else s) s
      = { s with cached := ls.foldl (fun c l => if isHbm (64 * l) then Store.put c l 1#1 else c) s.cached } := by
  induction ls with
  | nil => intro s _; rfl
  | cons l ls ih =>
    intro s h
    rw [List.foldl_cons, List.foldl_cons]
    have hl := h l List.mem_cons_self
    split
    · rename_i hh
      rw [State.touchLine_closed (hl hh), ih { s with cached := Store.put s.cached l 1#1 } (fun k hk hb => h k (List.mem_cons_of_mem _ hk) hb)]
    · exact ih _ (fun k hk hb => h k (List.mem_cons_of_mem _ hk) hb)
theorem State.mem_touchLines (ls : List Nat) : ∀ s : State, (∀ l ∈ ls, isHbm (64 * l) = true → s.staleLine l = false) →
    (ls.foldl (fun s l => if isHbm (64 * l) then s.touchLine l else s) s).mem = s.mem := by
  induction ls with
  | nil => intro s _; rfl
  | cons l ls ih =>
    intro s h
    rw [List.foldl_cons]
    split
    · rename_i hh
      have hs := h l List.mem_cons_self hh
      rw [ih, State.mem_touchLine hs]
      intro k hk hb
      have := h k (List.mem_cons_of_mem _ hk) hb
      unfold State.staleLine at this ⊢
      rw [State.near_touchLine hs]; exact this
    · exact ih _ (fun k hk hb => h k (List.mem_cons_of_mem _ hk) hb)

/-! ## Memory after a commit -/

theorem State.mem_commitFold (ws : List (Nat × Byte)) : ∀ s : State,
    (ws.foldl (fun s w => s.commitByte w.1 w.2) s).mem = ws.foldl (fun m w => Store.put m w.1 w.2) s.mem := by
  induction ws with
  | nil => intro s; rfl
  | cons w ws ih => intro s; rw [List.foldl_cons, ih]; rfl
theorem mem_linesOf {locs : List Nat} {l : Nat} (h : l ∈ linesOf locs) : ∃ a ∈ locs, a / 64 = l := by
  unfold linesOf at h
  simpa using h
/-- Some places lie in lines that satisfy something, if the lines of the places do. -/
theorem linesOf_all {P : Nat → Prop} {locs : List Nat} (h : ∀ a ∈ locs, isHbm a = true → P (a / 64)) :
    ∀ l ∈ linesOf locs, isHbm (64 * l) = true → P l := by
  intro l hl hh
  obtain ⟨a, ha, rfl⟩ := mem_linesOf hl
  refine h a ha ?_
  unfold isHbm at hh ⊢
  simp only [decide_eq_true_eq] at hh ⊢
  omega
/-- Ordinary accesses to lines that hold nothing more than they show. -/
theorem State.touchPlaces_closed (s : State) (locs : List Nat) (h : ∀ a ∈ locs, isHbm a = true → s.openLine (a / 64) = false) :
    s.touchPlaces locs = { s with cached := (linesOf locs).foldl (fun c l => if isHbm (64 * l) then Store.put c l 1#1 else c) s.cached } :=
  State.touchLines_closed _ s (linesOf_all (P := fun l => s.openLine l = false) h)
/-- No line that near memory has passed by is touched: the bytes are written in the order given, and no other byte changes. -/
theorem State.mem_commitBytes (s : State) (ws : List (Nat × Byte))
    (h : ∀ w ∈ ws, isHbm w.1 = true → s.staleLine (w.1 / 64) = false) :
    (s.commitBytes ws).mem = ws.foldl (fun m w => Store.put m w.1 w.2) s.mem := by
  unfold State.commitBytes State.touchPlaces
  rw [State.mem_afterCommit]
  rw [foldl_keeps (p := fun s : State => s.mem) (by intro s a; split <;> rfl)]
  rw [State.mem_commitFold]
  congr 1
  refine State.mem_touchLines _ _ (linesOf_all (P := fun l => ({ s with co := s.co + 1 } : State).staleLine l = false) ?_)
  intro a ha hb
  obtain ⟨w, hw, rfl⟩ := List.mem_map.mp ha
  exact h w hw hb

theorem Store.get_putFold_other {ws : List (Nat × Byte)} {a : Nat} (h : ∀ w ∈ ws, w.1 ≠ a) : ∀ m : Store 8,
    Store.get (ws.foldl (fun m w => Store.put m w.1 w.2) m) a = Store.get m a := by
  induction ws with
  | nil => intro m; rfl
  | cons w ws ih =>
    intro m
    rw [List.foldl_cons, ih (fun x hx => h x (List.mem_cons_of_mem _ hx)), Store.get_put_other _ _ (Ne.symm (h w List.mem_cons_self))]
theorem Store.wf_putFold (ws : List (Nat × Byte)) : ∀ m : Store 8, Tab.wf 0#8 m = true →
    Tab.wf 0#8 (ws.foldl (fun m w => Store.put m w.1 w.2) m) = true := by
  induction ws with
  | nil => intro m h; exact h
  | cons w ws ih => intro m h; rw [List.foldl_cons]; exact ih _ (Store.wf_put h _ _)
theorem bytesAt_loc {n loc v : Nat} {w : Nat × Byte} (h : w ∈ bytesAt loc v n) : loc ≤ w.1 ∧ w.1 < loc + n := by
  induction n generalizing loc v with
  | zero => simp [bytesAt] at h
  | succ n ih =>
    simp only [bytesAt, List.mem_cons] at h
    rcases h with rfl | h
    · simp
    · have := ih h; omega
/-- A word reads as what was written there. -/
theorem Store.read_bytesAt (n : Nat) : ∀ (m : Store 8) (loc v : Nat), Tab.wf 0#8 m = true →
    Store.read ((bytesAt loc v n).foldl (fun m w => Store.put m w.1 w.2) m) loc n = v % 256 ^ n := by
  induction n with
  | zero => intro m loc v _; simp [Store.read, Nat.mod_one]
  | succ n ih =>
    intro m loc v h
    rw [bytesAt, List.foldl_cons, Store.read]
    rw [ih _ _ _ (Store.wf_put h _ _)]
    rw [Store.get_putFold_other (by intro w hw; have := bytesAt_loc hw; omega), Store.get_put_same h]
    have e : (2 : Nat) ^ 8 = 256 := rfl
    rw [BitVec.toNat_ofNat, e, pow_succ', Nat.mod_mul]

theorem Tab.find?_map {α : Type} {k : Nat} (g : Nat × α → Nat × α) (hg : ∀ e, (g e).1 = e.1) : ∀ m : Tab α,
    Tab.find? (m.map g) k = (Tab.find? m k).map (fun v => (g (k, v)).2)
  | [] => rfl
  | (j, v) :: m => by
    rw [List.map_cons]
    rcases hgv : g (j, v) with ⟨j', v'⟩
    have hj := hg (j, v)
    rw [hgv] at hj
    simp only at hj
    subst hj
    simp only [Tab.find?]
    split
    · rename_i e; subst e; simp [hgv]
    · exact Tab.find?_map g hg m
/-- A thread that waits for no address and no status record is untouched by a commit (R167, R277). -/
theorem State.thread?_commitBytes {s : State} {u : Nat} {t : Thread} (h : s.thread? u = some t)
    (hw : ∀ l v c w r, t.wait ≠ .addr l v c w r) (hn : ∀ l, t.wait ≠ .nmstat l) (ws : List (Nat × Byte)) : (s.commitBytes ws).thread? u = some t := by
  have hmap := Tab.find?_map (α := Thread) (k := u)
  unfold State.commitBytes State.afterCommit State.thread?
  simp only
  rw [foldl_keeps (p := fun s : State => s.threads) (by intro s a; simp)]
  rw [hmap]
  swap
  · intro e; rfl
  have hth : ∀ x : State, x.threads = s.threads → Tab.find? x.threads u = some t := by
    intro x hx; rw [hx]; exact h
  rw [hth]
  · simp only [Option.map_some]
  · rw [foldl_keeps (p := fun s : State => s.threads) (by intro s a; split <;> rfl)]
    rw [foldl_keeps (p := fun s : State => s.threads) (by intro s a; rfl)]
    rw [State.threads_touchPlaces]

/-! ## The canonical form -/

theorem State.wf_writeBackByte {s : State} (h : Memory.wf s.mem) (l : Nat) : Memory.wf (s.writeBackByte l).mem := by
  unfold State.writeBackByte
  split
  · exact h
  · split
    · exact h
    · exact Store.wf_put h _ _
theorem State.wf_writeBackLine {s : State} (h : Memory.wf s.mem) (l : Nat) : Memory.wf (s.writeBackLine l).mem := by
  unfold State.writeBackLine
  generalize List.range 64 = ls
  exact foldl_inv (P := fun s : State => Memory.wf s.mem) (fun _ _ hs => State.wf_writeBackByte hs _) ls s h
theorem State.wf_mayEvict {s : State} (h : Memory.wf s.mem) (l : Nat) : Memory.wf (s.mayEvict l).mem := by
  unfold State.mayEvict
  split
  · simp only
    split
    · exact State.wf_writeBackLine (s := (s.choose 2).2) h _
    · exact h
  · exact h
theorem State.wf_touchLine {s : State} (h : Memory.wf s.mem) (l : Nat) : Memory.wf (s.touchLine l).mem := by
  have := State.wf_mayEvict h l
  unfold State.touchLine
  simp only
  split
  · exact this
  · simpa using this
theorem State.wf_touchPlaces {s : State} (h : Memory.wf s.mem) (ls : List Nat) : Memory.wf (s.touchPlaces ls).mem := by
  unfold State.touchPlaces
  refine foldl_inv (P := fun s : State => Memory.wf s.mem) (fun s l hs => ?_) _ _ h
  split
  · exact State.wf_touchLine hs _
  · exact hs
theorem State.wf_nearByte {s : State} (h : Memory.wf s.mem) (l : Nat) (v : Byte) (k : Bool) : Memory.wf (s.nearByte l v k).mem := by
  unfold State.nearByte
  split
  · exact h
  · exact Store.wf_put h _ _
theorem State.wf_commitBytes {s : State} (h : Memory.wf s.mem) (ws : List (Nat × Byte)) : Memory.wf (s.commitBytes ws).mem := by
  unfold State.commitBytes
  rw [State.mem_afterCommit]
  rw [foldl_keeps (p := fun s : State => s.mem) (by intro s a; split <;> rfl)]
  exact foldl_inv (P := fun s : State => Memory.wf s.mem) (fun _ _ hs => Store.wf_put hs _ _) _ _ (State.wf_touchPlaces (s := { s with co := s.co + 1 }) h _)

end Sys2Proof.Machine
end

