-- ==== Sys2Proof/Laws/PerInstr.lean ====
section
/-!
SUPPORT. For each instruction: the decoder reads from its words the instruction itself. A device step is no word, so
that nothing is asked of it.
-/
set_option Elab.async false
set_option linter.unusedSimpArgs false
set_option linter.unusedVariables false

namespace Sys2Proof

/-- The words of a well-formed instruction, whatever words follow them, decode to it. -/
def Laws.RoundTrip.Statement (i : Instr) : Prop :=
  i.wf = true → ∀ l1 l2 : Half, decode ((encode i).getD 0 0#32) ((encode i).getD 1 l1) ((encode i).getD 2 l2) = some i

theorem candidate_00 (w x y : Half) (h : fOp w = 0x00#7) : candidate w x y = some .ill := by
  unfold candidate; rw [h]; rfl
theorem candidate_01 (w x y : Half) (h : fOp w = 0x01#7) : candidate w x y = decode01 w x y := by
  unfold candidate; rw [h]; rfl
theorem candidate_02 (w x y : Half) (h : fOp w = 0x02#7) : candidate w x y = decode02 w x y := by
  unfold candidate; rw [h]; rfl
theorem candidate_03 (w x y : Half) (h : fOp w = 0x03#7) : candidate w x y = some (.addImm (fD w) (fA w) (fImm w) (fG w)) := by
  unfold candidate; rw [h]; rfl
theorem candidate_04 (w x y : Half) (h : fOp w = 0x04#7) : candidate w x y = some (.andImm (fD w) (fA w) (fImm w) (fG w)) := by
  unfold candidate; rw [h]; rfl
theorem candidate_05 (w x y : Half) (h : fOp w = 0x05#7) : candidate w x y = some (.orImm (fD w) (fA w) (fImm w) (fG w)) := by
  unfold candidate; rw [h]; rfl
theorem candidate_06 (w x y : Half) (h : fOp w = 0x06#7) : candidate w x y = some (.xorImm (fD w) (fA w) (fImm w) (fG w)) := by
  unfold candidate; rw [h]; rfl
theorem candidate_07 (w x y : Half) (h : fOp w = 0x07#7) : candidate w x y = some (.shlImm (fD w) (fA w) (fImm w) (fG w)) := by
  unfold candidate; rw [h]; rfl
theorem candidate_08 (w x y : Half) (h : fOp w = 0x08#7) : candidate w x y = some (.shrImm (fD w) (fA w) (fImm w) (fG w)) := by
  unfold candidate; rw [h]; rfl
theorem candidate_09 (w x y : Half) (h : fOp w = 0x09#7) : candidate w x y = some (.sarImm (fD w) (fA w) (fImm w) (fG w)) := by
  unfold candidate; rw [h]; rfl
theorem candidate_0A (w x y : Half) (h : fOp w = 0x0A#7) : candidate w x y = some (.rolImm (fD w) (fA w) (fImm w) (fG w)) := by
  unfold candidate; rw [h]; rfl
theorem candidate_0B (w x y : Half) (h : fOp w = 0x0B#7) : candidate w x y = some (.mulImm (fD w) (fA w) (fImm w) (fG w)) := by
  unfold candidate; rw [h]; rfl
theorem candidate_0C (w x y : Half) (h : fOp w = 0x0C#7) : candidate w x y = some (.movImm (fD w) (fImm w) (fG w)) := by
  unfold candidate; rw [h]; rfl
theorem candidate_0D (w x y : Half) (h : fOp w = 0x0D#7) : candidate w x y = decode0D w x y := by
  unfold candidate; rw [h]; rfl
theorem candidate_0E (w x y : Half) (h : fOp w = 0x0E#7) : candidate w x y = some (.sel (fD w) (fA w) (srcOf (fB w) x y) ((fFn w).extractLsb' 1 4) ((fFn w).extractLsb' 0 1) (fG w)) := by
  unfold candidate; rw [h]; rfl
theorem candidate_0F (w x y : Half) (h : fOp w = 0x0F#7) : candidate w x y = decode0F w x y := by
  unfold candidate; rw [h]; rfl
theorem candidate_10 (w x y : Half) (h : fOp w = 0x10#7) : candidate w x y = some (.cmpEqImm ((fD w).extractLsb' 0 4) (fA w) (fImm w) (fG w)) := by
  unfold candidate; rw [h]; rfl
theorem candidate_11 (w x y : Half) (h : fOp w = 0x11#7) : candidate w x y = some (.cmpNeImm ((fD w).extractLsb' 0 4) (fA w) (fImm w) (fG w)) := by
  unfold candidate; rw [h]; rfl
theorem candidate_12 (w x y : Half) (h : fOp w = 0x12#7) : candidate w x y = some (.cmpLtImm ((fD w).extractLsb' 0 4) (fA w) (fImm w) (fG w)) := by
  unfold candidate; rw [h]; rfl
theorem candidate_13 (w x y : Half) (h : fOp w = 0x13#7) : candidate w x y = some (.cmpGeImm ((fD w).extractLsb' 0 4) (fA w) (fImm w) (fG w)) := by
  unfold candidate; rw [h]; rfl
theorem candidate_14 (w x y : Half) (h : fOp w = 0x14#7) : candidate w x y = some (.cmpLeImm ((fD w).extractLsb' 0 4) (fA w) (fImm w) (fG w)) := by
  unfold candidate; rw [h]; rfl
theorem candidate_15 (w x y : Half) (h : fOp w = 0x15#7) : candidate w x y = some (.cmpGtImm ((fD w).extractLsb' 0 4) (fA w) (fImm w) (fG w)) := by
  unfold candidate; rw [h]; rfl
theorem candidate_16 (w x y : Half) (h : fOp w = 0x16#7) : candidate w x y = some (.cmpLoImm ((fD w).extractLsb' 0 4) (fA w) (fImm w) (fG w)) := by
  unfold candidate; rw [h]; rfl
theorem candidate_17 (w x y : Half) (h : fOp w = 0x17#7) : candidate w x y = some (.cmpHsImm ((fD w).extractLsb' 0 4) (fA w) (fImm w) (fG w)) := by
  unfold candidate; rw [h]; rfl
theorem candidate_18 (w x y : Half) (h : fOp w = 0x18#7) : candidate w x y = some (.const (fD w) (fC w) (fG w)) := by
  unfold candidate; rw [h]; rfl
theorem candidate_19 (w x y : Half) (h : fOp w = 0x19#7) : candidate w x y = decode19 w x y := by
  unfold candidate; rw [h]; rfl
theorem candidate_1A (w x y : Half) (h : fOp w = 0x1A#7) : candidate w x y = some (.addaImm (fD w) (fA w) (fImm w) (fG w)) := by
  unfold candidate; rw [h]; rfl
theorem candidate_1B (w x y : Half) (h : fOp w = 0x1B#7) : candidate w x y = some (.subaImm (fD w) (fA w) (fImm w) (fG w)) := by
  unfold candidate; rw [h]; rfl
theorem candidate_1C (w x y : Half) (h : fOp w = 0x1C#7) : candidate w x y = decode1C w x y := by
  unfold candidate; rw [h]; rfl
theorem candidate_1D (w x y : Half) (h : fOp w = 0x1D#7) : candidate w x y = some (.href (fD w) (fA w) (srcOf (fB w) x y) (fG w)) := by
  unfold candidate; rw [h]; rfl
theorem candidate_1E (w x y : Half) (h : fOp w = 0x1E#7) : candidate w x y = decode1E w x y := by
  unfold candidate; rw [h]; rfl
theorem candidate_20 (w x y : Half) (h : fOp w = 0x20#7) : candidate w x y = decode20 w x y := by
  unfold candidate; rw [h]; rfl
theorem candidate_21 (w x y : Half) (h : fOp w = 0x21#7) : candidate w x y = some (.ffma (fD w) (fA w) (srcOf (fB w) x y) (fG w)) := by
  unfold candidate; rw [h]; rfl
theorem candidate_22 (w x y : Half) (h : fOp w = 0x22#7) : candidate w x y = decode22 w x y := by
  unfold candidate; rw [h]; rfl
theorem candidate_23 (w x y : Half) (h : fOp w = 0x23#7) : candidate w x y = decode23 w x y := by
  unfold candidate; rw [h]; rfl
theorem candidate_2C (w x y : Half) (h : fOp w = 0x2C#7) : candidate w x y = decode2C w := by
  unfold candidate; rw [h]; rfl
theorem candidate_2D (w x y : Half) (h : fOp w = 0x2D#7) : candidate w x y = some (.br (fOff w) (fG w)) := by
  unfold candidate; rw [h]; rfl
theorem candidate_2E (w x y : Half) (h : fOp w = 0x2E#7) : candidate w x y = some (.call (fOff w) (fG w)) := by
  unfold candidate; rw [h]; rfl
theorem candidate_2F (w x y : Half) (h : fOp w = 0x2F#7) : candidate w x y = some (.jmp (srcOf (fB w) x y) (fG w)) := by
  unfold candidate; rw [h]; rfl
theorem candidate_30 (w x y : Half) (h : fOp w = 0x30#7) : candidate w x y = some (.callr (fD w) (srcOf (fB w) x y) (fG w)) := by
  unfold candidate; rw [h]; rfl
theorem candidate_31 (w x y : Half) (h : fOp w = 0x31#7) : candidate w x y = some (.loop (fD w) (fImm w) (fG w)) := by
  unfold candidate; rw [h]; rfl
theorem candidate_3C (w x y : Half) (h : fOp w = 0x3C#7) : candidate w x y = some (.ldB (fD w) (fA w) (fImm w) (fG w)) := by
  unfold candidate; rw [h]; rfl
theorem candidate_3D (w x y : Half) (h : fOp w = 0x3D#7) : candidate w x y = some (.ldH (fD w) (fA w) (fImm w) (fG w)) := by
  unfold candidate; rw [h]; rfl
theorem candidate_3E (w x y : Half) (h : fOp w = 0x3E#7) : candidate w x y = some (.ldW (fD w) (fA w) (fImm w) (fG w)) := by
  unfold candidate; rw [h]; rfl
theorem candidate_3F (w x y : Half) (h : fOp w = 0x3F#7) : candidate w x y = some (.ldD (fD w) (fA w) (fImm w) (fG w)) := by
  unfold candidate; rw [h]; rfl
theorem candidate_40 (w x y : Half) (h : fOp w = 0x40#7) : candidate w x y = some (.stB (fD w) (fA w) (fImm w) (fG w)) := by
  unfold candidate; rw [h]; rfl
theorem candidate_41 (w x y : Half) (h : fOp w = 0x41#7) : candidate w x y = some (.stH (fD w) (fA w) (fImm w) (fG w)) := by
  unfold candidate; rw [h]; rfl
theorem candidate_42 (w x y : Half) (h : fOp w = 0x42#7) : candidate w x y = some (.stW (fD w) (fA w) (fImm w) (fG w)) := by
  unfold candidate; rw [h]; rfl
theorem candidate_43 (w x y : Half) (h : fOp w = 0x43#7) : candidate w x y = some (.stD (fD w) (fA w) (fImm w) (fG w)) := by
  unfold candidate; rw [h]; rfl
theorem candidate_44 (w x y : Half) (h : fOp w = 0x44#7) : candidate w x y = some (.ldBMig (fD w) (fA w) (fImm w) (fG w)) := by
  unfold candidate; rw [h]; rfl
theorem candidate_45 (w x y : Half) (h : fOp w = 0x45#7) : candidate w x y = some (.ldHMig (fD w) (fA w) (fImm w) (fG w)) := by
  unfold candidate; rw [h]; rfl
theorem candidate_46 (w x y : Half) (h : fOp w = 0x46#7) : candidate w x y = some (.ldWMig (fD w) (fA w) (fImm w) (fG w)) := by
  unfold candidate; rw [h]; rfl
theorem candidate_47 (w x y : Half) (h : fOp w = 0x47#7) : candidate w x y = some (.ldDMig (fD w) (fA w) (fImm w) (fG w)) := by
  unfold candidate; rw [h]; rfl
theorem candidate_48 (w x y : Half) (h : fOp w = 0x48#7) : candidate w x y = some (.stBMig (fD w) (fA w) (fImm w) (fG w)) := by
  unfold candidate; rw [h]; rfl
theorem candidate_49 (w x y : Half) (h : fOp w = 0x49#7) : candidate w x y = some (.stHMig (fD w) (fA w) (fImm w) (fG w)) := by
  unfold candidate; rw [h]; rfl
theorem candidate_4A (w x y : Half) (h : fOp w = 0x4A#7) : candidate w x y = some (.stWMig (fD w) (fA w) (fImm w) (fG w)) := by
  unfold candidate; rw [h]; rfl
theorem candidate_4B (w x y : Half) (h : fOp w = 0x4B#7) : candidate w x y = some (.stDMig (fD w) (fA w) (fImm w) (fG w)) := by
  unfold candidate; rw [h]; rfl
theorem candidate_4C (w x y : Half) (h : fOp w = 0x4C#7) : candidate w x y = some (.pref (fA w) (fImm w) (fG w)) := by
  unfold candidate; rw [h]; rfl
theorem candidate_4D (w x y : Half) (h : fOp w = 0x4D#7) : candidate w x y = some (.lde (fD w) (fA w) (fImm w) (fG w)) := by
  unfold candidate; rw [h]; rfl
theorem candidate_4E (w x y : Half) (h : fOp w = 0x4E#7) : candidate w x y = some (.ldf (fD w) (fA w) (fImm w) (fG w)) := by
  unfold candidate; rw [h]; rfl
theorem candidate_4F (w x y : Half) (h : fOp w = 0x4F#7) : candidate w x y = some (.stf (fD w) (fA w) (fImm w) (fG w)) := by
  unfold candidate; rw [h]; rfl
theorem candidate_50 (w x y : Half) (h : fOp w = 0x50#7) : candidate w x y = some (.sts (fD w) (fA w) (fImm w) (fG w)) := by
  unfold candidate; rw [h]; rfl
theorem candidate_51 (w x y : Half) (h : fOp w = 0x51#7) : candidate w x y = some (.clre (fA w) (fImm w) (fG w)) := by
  unfold candidate; rw [h]; rfl
theorem candidate_52 (w x y : Half) (h : fOp w = 0x52#7) : candidate w x y = decode52 w x y := by
  unfold candidate; rw [h]; rfl
theorem candidate_53 (w x y : Half) (h : fOp w = 0x53#7) : candidate w x y = decode53 w x y := by
  unfold candidate; rw [h]; rfl
theorem candidate_54 (w x y : Half) (h : fOp w = 0x54#7) : candidate w x y = decode54 w x y := by
  unfold candidate; rw [h]; rfl
theorem candidate_55 (w x y : Half) (h : fOp w = 0x55#7) : candidate w x y = decode55 w x y := by
  unfold candidate; rw [h]; rfl
theorem candidate_56 (w x y : Half) (h : fOp w = 0x56#7) : candidate w x y = decode56 w x y := by
  unfold candidate; rw [h]; rfl
theorem candidate_58 (w x y : Half) (h : fOp w = 0x58#7) : candidate w x y = some (.spawn (fD w) (fA w) (srcOf (fB w) x y) (fFn w) (fG w)) := by
  unfold candidate; rw [h]; rfl
theorem candidate_59 (w x y : Half) (h : fOp w = 0x59#7) : candidate w x y = decode59 w := by
  unfold candidate; rw [h]; rfl
theorem candidate_5A (w x y : Half) (h : fOp w = 0x5A#7) : candidate w x y = decode5A w x y := by
  unfold candidate; rw [h]; rfl
theorem candidate_5B (w x y : Half) (h : fOp w = 0x5B#7) : candidate w x y = some (.migr (fA w) (srcOf (fB w) x y) (fG w)) := by
  unfold candidate; rw [h]; rfl
theorem candidate_5C (w x y : Half) (h : fOp w = 0x5C#7) : candidate w x y = some (.send (fD w) (fA w) (fFn w) (fG w)) := by
  unfold candidate; rw [h]; rfl
theorem candidate_5D (w x y : Half) (h : fOp w = 0x5D#7) : candidate w x y = decode5D w := by
  unfold candidate; rw [h]; rfl
theorem candidate_5E (w x y : Half) (h : fOp w = 0x5E#7) : candidate w x y = some (.launch (fD w) (fA w) (fG w)) := by
  unfold candidate; rw [h]; rfl
theorem candidate_60 (w x y : Half) (h : fOp w = 0x60#7) : candidate w x y = decode60 w := by
  unfold candidate; rw [h]; rfl
theorem candidate_61 (w x y : Half) (h : fOp w = 0x61#7) : candidate w x y = decode61 w := by
  unfold candidate; rw [h]; rfl
theorem candidate_62 (w x y : Half) (h : fOp w = 0x62#7) : candidate w x y = decode62 w := by
  unfold candidate; rw [h]; rfl
theorem candidate_63 (w x y : Half) (h : fOp w = 0x63#7) : candidate w x y = decode63 w := by
  unfold candidate; rw [h]; rfl
theorem candidate_64 (w x y : Half) (h : fOp w = 0x64#7) : candidate w x y = decode64 w := by
  unfold candidate; rw [h]; rfl
theorem candidate_65 (w x y : Half) (h : fOp w = 0x65#7) : candidate w x y = decode65 w := by
  unfold candidate; rw [h]; rfl
theorem candidate_66 (w x y : Half) (h : fOp w = 0x66#7) : candidate w x y = decode66 w := by
  unfold candidate; rw [h]; rfl
theorem candidate_70 (w x y : Half) (h : fOp w = 0x70#7) : candidate w x y = decode70 w := by
  unfold candidate; rw [h]; rfl
theorem candidate_71 (w x y : Half) (h : fOp w = 0x71#7) : candidate w x y = some (.mfs (fEop w) (fEa w) (fG w)) := by
  unfold candidate; rw [h]; rfl
theorem candidate_72 (w x y : Half) (h : fOp w = 0x72#7) : candidate w x y = decode72 w := by
  unfold candidate; rw [h]; rfl
theorem candidate_73 (w x y : Half) (h : fOp w = 0x73#7) : candidate w x y = some (.bkpt (fG w)) := by
  unfold candidate; rw [h]; rfl
theorem candidate_74 (w x y : Half) (h : fOp w = 0x74#7) : candidate w x y = decode74 w := by
  unfold candidate; rw [h]; rfl
theorem candidate_75 (w x y : Half) (h : fOp w = 0x75#7) : candidate w x y = some (.tload (fEa w) (fEb w) (fG w)) := by
  unfold candidate; rw [h]; rfl
theorem candidate_76 (w x y : Half) (h : fOp w = 0x76#7) : candidate w x y = some (.synci (fEa w) (fEb w) (fG w)) := by
  unfold candidate; rw [h]; rfl
theorem candidate_77 (w x y : Half) (h : fOp w = 0x77#7) : candidate w x y = some (.harvest (fEa w) (fEb w) (fG w)) := by
  unfold candidate; rw [h]; rfl
theorem candidate_78 (w x y : Half) (h : fOp w = 0x78#7) : candidate w x y = some (.ctxswap (fEa w) (fEb w) (fG w)) := by
  unfold candidate; rw [h]; rfl
theorem candidate_79 (w x y : Half) (h : fOp w = 0x79#7) : candidate w x y = some .nop := by
  unfold candidate; rw [h]; rfl

theorem Laws.RoundTrip.add (d a : BitVec 5) (b : Src) (g : BitVec 5) : Laws.RoundTrip.Statement (.add d a b g) := by
  intro h l1 l2
  refine decode_of ?_ rfl h
  have hb := srcOf_code b l1 l2 (Bool.and_eq_true_iff.mp h).2
  refine (candidate_01 _ _ _ (fOp_encT ..)).trans ?_
  change decode01 (encT 0x01 d a b.code 0#5 g) (b.words.getD 0 l1) (b.words.getD 1 l2) = _
  simp only [decode01, fFn_encT, fD_encT, fA_encT, fB_encT, fG_encT, hb, BitVec.toNat_ofNat, Nat.reducePow, Nat.reduceMod, Nat.zero_mod]
theorem Laws.RoundTrip.sub (d a : BitVec 5) (b : Src) (g : BitVec 5) : Laws.RoundTrip.Statement (.sub d a b g) := by
  intro h l1 l2
  refine decode_of ?_ rfl h
  have hb := srcOf_code b l1 l2 (Bool.and_eq_true_iff.mp h).2
  refine (candidate_01 _ _ _ (fOp_encT ..)).trans ?_
  change decode01 (encT 0x01 d a b.code 1#5 g) (b.words.getD 0 l1) (b.words.getD 1 l2) = _
  simp only [decode01, fFn_encT, fD_encT, fA_encT, fB_encT, fG_encT, hb, BitVec.toNat_ofNat, Nat.reducePow, Nat.reduceMod, Nat.zero_mod]
theorem Laws.RoundTrip.mul (d a : BitVec 5) (b : Src) (g : BitVec 5) : Laws.RoundTrip.Statement (.mul d a b g) := by
  intro h l1 l2
  refine decode_of ?_ rfl h
  have hb := srcOf_code b l1 l2 (Bool.and_eq_true_iff.mp h).2
  refine (candidate_01 _ _ _ (fOp_encT ..)).trans ?_
  change decode01 (encT 0x01 d a b.code 2#5 g) (b.words.getD 0 l1) (b.words.getD 1 l2) = _
  simp only [decode01, fFn_encT, fD_encT, fA_encT, fB_encT, fG_encT, hb, BitVec.toNat_ofNat, Nat.reducePow, Nat.reduceMod, Nat.zero_mod]
theorem Laws.RoundTrip.mulhS (d a : BitVec 5) (b : Src) (g : BitVec 5) : Laws.RoundTrip.Statement (.mulhS d a b g) := by
  intro h l1 l2
  refine decode_of ?_ rfl h
  have hb := srcOf_code b l1 l2 (Bool.and_eq_true_iff.mp h).2
  refine (candidate_01 _ _ _ (fOp_encT ..)).trans ?_
  change decode01 (encT 0x01 d a b.code 3#5 g) (b.words.getD 0 l1) (b.words.getD 1 l2) = _
  simp only [decode01, fFn_encT, fD_encT, fA_encT, fB_encT, fG_encT, hb, BitVec.toNat_ofNat, Nat.reducePow, Nat.reduceMod, Nat.zero_mod]
theorem Laws.RoundTrip.mulhN (d a : BitVec 5) (b : Src) (g : BitVec 5) : Laws.RoundTrip.Statement (.mulhN d a b g) := by
  intro h l1 l2
  refine decode_of ?_ rfl h
  have hb := srcOf_code b l1 l2 (Bool.and_eq_true_iff.mp h).2
  refine (candidate_01 _ _ _ (fOp_encT ..)).trans ?_
  change decode01 (encT 0x01 d a b.code 4#5 g) (b.words.getD 0 l1) (b.words.getD 1 l2) = _
  simp only [decode01, fFn_encT, fD_encT, fA_encT, fB_encT, fG_encT, hb, BitVec.toNat_ofNat, Nat.reducePow, Nat.reduceMod, Nat.zero_mod]
theorem Laws.RoundTrip.divS (d a : BitVec 5) (b : Src) (g : BitVec 5) : Laws.RoundTrip.Statement (.divS d a b g) := by
  intro h l1 l2
  refine decode_of ?_ rfl h
  have hb := srcOf_code b l1 l2 (Bool.and_eq_true_iff.mp h).2
  refine (candidate_01 _ _ _ (fOp_encT ..)).trans ?_
  change decode01 (encT 0x01 d a b.code 5#5 g) (b.words.getD 0 l1) (b.words.getD 1 l2) = _
  simp only [decode01, fFn_encT, fD_encT, fA_encT, fB_encT, fG_encT, hb, BitVec.toNat_ofNat, Nat.reducePow, Nat.reduceMod, Nat.zero_mod]
theorem Laws.RoundTrip.divN (d a : BitVec 5) (b : Src) (g : BitVec 5) : Laws.RoundTrip.Statement (.divN d a b g) := by
  intro h l1 l2
  refine decode_of ?_ rfl h
  have hb := srcOf_code b l1 l2 (Bool.and_eq_true_iff.mp h).2
  refine (candidate_01 _ _ _ (fOp_encT ..)).trans ?_
  change decode01 (encT 0x01 d a b.code 6#5 g) (b.words.getD 0 l1) (b.words.getD 1 l2) = _
  simp only [decode01, fFn_encT, fD_encT, fA_encT, fB_encT, fG_encT, hb, BitVec.toNat_ofNat, Nat.reducePow, Nat.reduceMod, Nat.zero_mod]
theorem Laws.RoundTrip.remS (d a : BitVec 5) (b : Src) (g : BitVec 5) : Laws.RoundTrip.Statement (.remS d a b g) := by
  intro h l1 l2
  refine decode_of ?_ rfl h
  have hb := srcOf_code b l1 l2 (Bool.and_eq_true_iff.mp h).2
  refine (candidate_01 _ _ _ (fOp_encT ..)).trans ?_
  change decode01 (encT 0x01 d a b.code 7#5 g) (b.words.getD 0 l1) (b.words.getD 1 l2) = _
  simp only [decode01, fFn_encT, fD_encT, fA_encT, fB_encT, fG_encT, hb, BitVec.toNat_ofNat, Nat.reducePow, Nat.reduceMod, Nat.zero_mod]
theorem Laws.RoundTrip.remN (d a : BitVec 5) (b : Src) (g : BitVec 5) : Laws.RoundTrip.Statement (.remN d a b g) := by
  intro h l1 l2
  refine decode_of ?_ rfl h
  have hb := srcOf_code b l1 l2 (Bool.and_eq_true_iff.mp h).2
  refine (candidate_01 _ _ _ (fOp_encT ..)).trans ?_
  change decode01 (encT 0x01 d a b.code 8#5 g) (b.words.getD 0 l1) (b.words.getD 1 l2) = _
  simp only [decode01, fFn_encT, fD_encT, fA_encT, fB_encT, fG_encT, hb, BitVec.toNat_ofNat, Nat.reducePow, Nat.reduceMod, Nat.zero_mod]
theorem Laws.RoundTrip.minS (d a : BitVec 5) (b : Src) (g : BitVec 5) : Laws.RoundTrip.Statement (.minS d a b g) := by
  intro h l1 l2
  refine decode_of ?_ rfl h
  have hb := srcOf_code b l1 l2 (Bool.and_eq_true_iff.mp h).2
  refine (candidate_01 _ _ _ (fOp_encT ..)).trans ?_
  change decode01 (encT 0x01 d a b.code 9#5 g) (b.words.getD 0 l1) (b.words.getD 1 l2) = _
  simp only [decode01, fFn_encT, fD_encT, fA_encT, fB_encT, fG_encT, hb, BitVec.toNat_ofNat, Nat.reducePow, Nat.reduceMod, Nat.zero_mod]
theorem Laws.RoundTrip.minN (d a : BitVec 5) (b : Src) (g : BitVec 5) : Laws.RoundTrip.Statement (.minN d a b g) := by
  intro h l1 l2
  refine decode_of ?_ rfl h
  have hb := srcOf_code b l1 l2 (Bool.and_eq_true_iff.mp h).2
  refine (candidate_01 _ _ _ (fOp_encT ..)).trans ?_
  change decode01 (encT 0x01 d a b.code 10#5 g) (b.words.getD 0 l1) (b.words.getD 1 l2) = _
  simp only [decode01, fFn_encT, fD_encT, fA_encT, fB_encT, fG_encT, hb, BitVec.toNat_ofNat, Nat.reducePow, Nat.reduceMod, Nat.zero_mod]
theorem Laws.RoundTrip.maxS (d a : BitVec 5) (b : Src) (g : BitVec 5) : Laws.RoundTrip.Statement (.maxS d a b g) := by
  intro h l1 l2
  refine decode_of ?_ rfl h
  have hb := srcOf_code b l1 l2 (Bool.and_eq_true_iff.mp h).2
  refine (candidate_01 _ _ _ (fOp_encT ..)).trans ?_
  change decode01 (encT 0x01 d a b.code 11#5 g) (b.words.getD 0 l1) (b.words.getD 1 l2) = _
  simp only [decode01, fFn_encT, fD_encT, fA_encT, fB_encT, fG_encT, hb, BitVec.toNat_ofNat, Nat.reducePow, Nat.reduceMod, Nat.zero_mod]
theorem Laws.RoundTrip.maxN (d a : BitVec 5) (b : Src) (g : BitVec 5) : Laws.RoundTrip.Statement (.maxN d a b g) := by
  intro h l1 l2
  refine decode_of ?_ rfl h
  have hb := srcOf_code b l1 l2 (Bool.and_eq_true_iff.mp h).2
  refine (candidate_01 _ _ _ (fOp_encT ..)).trans ?_
  change decode01 (encT 0x01 d a b.code 12#5 g) (b.words.getD 0 l1) (b.words.getD 1 l2) = _
  simp only [decode01, fFn_encT, fD_encT, fA_encT, fB_encT, fG_encT, hb, BitVec.toNat_ofNat, Nat.reducePow, Nat.reduceMod, Nat.zero_mod]
theorem Laws.RoundTrip.and (d a : BitVec 5) (b : Src) (g : BitVec 5) : Laws.RoundTrip.Statement (.and d a b g) := by
  intro h l1 l2
  refine decode_of ?_ rfl h
  have hb := srcOf_code b l1 l2 (Bool.and_eq_true_iff.mp h).2
  refine (candidate_01 _ _ _ (fOp_encT ..)).trans ?_
  change decode01 (encT 0x01 d a b.code 13#5 g) (b.words.getD 0 l1) (b.words.getD 1 l2) = _
  simp only [decode01, fFn_encT, fD_encT, fA_encT, fB_encT, fG_encT, hb, BitVec.toNat_ofNat, Nat.reducePow, Nat.reduceMod, Nat.zero_mod]
theorem Laws.RoundTrip.or (d a : BitVec 5) (b : Src) (g : BitVec 5) : Laws.RoundTrip.Statement (.or d a b g) := by
  intro h l1 l2
  refine decode_of ?_ rfl h
  have hb := srcOf_code b l1 l2 (Bool.and_eq_true_iff.mp h).2
  refine (candidate_01 _ _ _ (fOp_encT ..)).trans ?_
  change decode01 (encT 0x01 d a b.code 14#5 g) (b.words.getD 0 l1) (b.words.getD 1 l2) = _
  simp only [decode01, fFn_encT, fD_encT, fA_encT, fB_encT, fG_encT, hb, BitVec.toNat_ofNat, Nat.reducePow, Nat.reduceMod, Nat.zero_mod]
theorem Laws.RoundTrip.xor (d a : BitVec 5) (b : Src) (g : BitVec 5) : Laws.RoundTrip.Statement (.xor d a b g) := by
  intro h l1 l2
  refine decode_of ?_ rfl h
  have hb := srcOf_code b l1 l2 (Bool.and_eq_true_iff.mp h).2
  refine (candidate_01 _ _ _ (fOp_encT ..)).trans ?_
  change decode01 (encT 0x01 d a b.code 15#5 g) (b.words.getD 0 l1) (b.words.getD 1 l2) = _
  simp only [decode01, fFn_encT, fD_encT, fA_encT, fB_encT, fG_encT, hb, BitVec.toNat_ofNat, Nat.reducePow, Nat.reduceMod, Nat.zero_mod]
theorem Laws.RoundTrip.andn (d a : BitVec 5) (b : Src) (g : BitVec 5) : Laws.RoundTrip.Statement (.andn d a b g) := by
  intro h l1 l2
  refine decode_of ?_ rfl h
  have hb := srcOf_code b l1 l2 (Bool.and_eq_true_iff.mp h).2
  refine (candidate_01 _ _ _ (fOp_encT ..)).trans ?_
  change decode01 (encT 0x01 d a b.code 16#5 g) (b.words.getD 0 l1) (b.words.getD 1 l2) = _
  simp only [decode01, fFn_encT, fD_encT, fA_encT, fB_encT, fG_encT, hb, BitVec.toNat_ofNat, Nat.reducePow, Nat.reduceMod, Nat.zero_mod]
theorem Laws.RoundTrip.shl (d a : BitVec 5) (b : Src) (g : BitVec 5) : Laws.RoundTrip.Statement (.shl d a b g) := by
  intro h l1 l2
  refine decode_of ?_ rfl h
  have hb := srcOf_code b l1 l2 (Bool.and_eq_true_iff.mp h).2
  refine (candidate_01 _ _ _ (fOp_encT ..)).trans ?_
  change decode01 (encT 0x01 d a b.code 17#5 g) (b.words.getD 0 l1) (b.words.getD 1 l2) = _
  simp only [decode01, fFn_encT, fD_encT, fA_encT, fB_encT, fG_encT, hb, BitVec.toNat_ofNat, Nat.reducePow, Nat.reduceMod, Nat.zero_mod]
theorem Laws.RoundTrip.shr (d a : BitVec 5) (b : Src) (g : BitVec 5) : Laws.RoundTrip.Statement (.shr d a b g) := by
  intro h l1 l2
  refine decode_of ?_ rfl h
  have hb := srcOf_code b l1 l2 (Bool.and_eq_true_iff.mp h).2
  refine (candidate_01 _ _ _ (fOp_encT ..)).trans ?_
  change decode01 (encT 0x01 d a b.code 18#5 g) (b.words.getD 0 l1) (b.words.getD 1 l2) = _
  simp only [decode01, fFn_encT, fD_encT, fA_encT, fB_encT, fG_encT, hb, BitVec.toNat_ofNat, Nat.reducePow, Nat.reduceMod, Nat.zero_mod]
theorem Laws.RoundTrip.sar (d a : BitVec 5) (b : Src) (g : BitVec 5) : Laws.RoundTrip.Statement (.sar d a b g) := by
  intro h l1 l2
  refine decode_of ?_ rfl h
  have hb := srcOf_code b l1 l2 (Bool.and_eq_true_iff.mp h).2
  refine (candidate_01 _ _ _ (fOp_encT ..)).trans ?_
  change decode01 (encT 0x01 d a b.code 19#5 g) (b.words.getD 0 l1) (b.words.getD 1 l2) = _
  simp only [decode01, fFn_encT, fD_encT, fA_encT, fB_encT, fG_encT, hb, BitVec.toNat_ofNat, Nat.reducePow, Nat.reduceMod, Nat.zero_mod]
theorem Laws.RoundTrip.rol (d a : BitVec 5) (b : Src) (g : BitVec 5) : Laws.RoundTrip.Statement (.rol d a b g) := by
  intro h l1 l2
  refine decode_of ?_ rfl h
  have hb := srcOf_code b l1 l2 (Bool.and_eq_true_iff.mp h).2
  refine (candidate_01 _ _ _ (fOp_encT ..)).trans ?_
  change decode01 (encT 0x01 d a b.code 20#5 g) (b.words.getD 0 l1) (b.words.getD 1 l2) = _
  simp only [decode01, fFn_encT, fD_encT, fA_encT, fB_encT, fG_encT, hb, BitVec.toNat_ofNat, Nat.reducePow, Nat.reduceMod, Nat.zero_mod]
theorem Laws.RoundTrip.addImm (d a : BitVec 5) (i : BitVec 10) (g : BitVec 5) : Laws.RoundTrip.Statement (.addImm d a i g) := by
  intro h l1 l2
  refine decode_of ?_ rfl h
  refine (candidate_03 _ _ _ (fOp_encI ..)).trans ?_
  simp only [fD_encI, fA_encI, fImm_encI, fG_encI]
theorem Laws.RoundTrip.andImm (d a : BitVec 5) (i : BitVec 10) (g : BitVec 5) : Laws.RoundTrip.Statement (.andImm d a i g) := by
  intro h l1 l2
  refine decode_of ?_ rfl h
  refine (candidate_04 _ _ _ (fOp_encI ..)).trans ?_
  simp only [fD_encI, fA_encI, fImm_encI, fG_encI]
theorem Laws.RoundTrip.orImm (d a : BitVec 5) (i : BitVec 10) (g : BitVec 5) : Laws.RoundTrip.Statement (.orImm d a i g) := by
  intro h l1 l2
  refine decode_of ?_ rfl h
  refine (candidate_05 _ _ _ (fOp_encI ..)).trans ?_
  simp only [fD_encI, fA_encI, fImm_encI, fG_encI]
theorem Laws.RoundTrip.xorImm (d a : BitVec 5) (i : BitVec 10) (g : BitVec 5) : Laws.RoundTrip.Statement (.xorImm d a i g) := by
  intro h l1 l2
  refine decode_of ?_ rfl h
  refine (candidate_06 _ _ _ (fOp_encI ..)).trans ?_
  simp only [fD_encI, fA_encI, fImm_encI, fG_encI]
theorem Laws.RoundTrip.shlImm (d a : BitVec 5) (i : BitVec 10) (g : BitVec 5) : Laws.RoundTrip.Statement (.shlImm d a i g) := by
  intro h l1 l2
  refine decode_of ?_ rfl h
  refine (candidate_07 _ _ _ (fOp_encI ..)).trans ?_
  simp only [fD_encI, fA_encI, fImm_encI, fG_encI]
theorem Laws.RoundTrip.shrImm (d a : BitVec 5) (i : BitVec 10) (g : BitVec 5) : Laws.RoundTrip.Statement (.shrImm d a i g) := by
  intro h l1 l2
  refine decode_of ?_ rfl h
  refine (candidate_08 _ _ _ (fOp_encI ..)).trans ?_
  simp only [fD_encI, fA_encI, fImm_encI, fG_encI]
theorem Laws.RoundTrip.sarImm (d a : BitVec 5) (i : BitVec 10) (g : BitVec 5) : Laws.RoundTrip.Statement (.sarImm d a i g) := by
  intro h l1 l2
  refine decode_of ?_ rfl h
  refine (candidate_09 _ _ _ (fOp_encI ..)).trans ?_
  simp only [fD_encI, fA_encI, fImm_encI, fG_encI]
theorem Laws.RoundTrip.rolImm (d a : BitVec 5) (i : BitVec 10) (g : BitVec 5) : Laws.RoundTrip.Statement (.rolImm d a i g) := by
  intro h l1 l2
  refine decode_of ?_ rfl h
  refine (candidate_0A _ _ _ (fOp_encI ..)).trans ?_
  simp only [fD_encI, fA_encI, fImm_encI, fG_encI]
theorem Laws.RoundTrip.mulImm (d a : BitVec 5) (i : BitVec 10) (g : BitVec 5) : Laws.RoundTrip.Statement (.mulImm d a i g) := by
  intro h l1 l2
  refine decode_of ?_ rfl h
  refine (candidate_0B _ _ _ (fOp_encI ..)).trans ?_
  simp only [fD_encI, fA_encI, fImm_encI, fG_encI]
theorem Laws.RoundTrip.movImm (d : BitVec 5) (i : BitVec 10) (g : BitVec 5) : Laws.RoundTrip.Statement (.movImm d i g) := by
  intro h l1 l2
  refine decode_of ?_ rfl h
  refine (candidate_0C _ _ _ (fOp_encI ..)).trans ?_
  simp only [fD_encI, fA_encI, fImm_encI, fG_encI]
theorem Laws.RoundTrip.mov (d : BitVec 5) (b : Src) (g : BitVec 5) : Laws.RoundTrip.Statement (.mov d b g) := by
  intro h l1 l2
  refine decode_of ?_ rfl h
  have hb := srcOf_code b l1 l2 (Bool.and_eq_true_iff.mp h).2
  refine (candidate_02 _ _ _ (fOp_encT ..)).trans ?_
  change decode02 (encT 0x02 d 0#5 b.code 0#5 g) (b.words.getD 0 l1) (b.words.getD 1 l2) = _
  simp only [decode02, fFn_encT, fD_encT, fA_encT, fB_encT, fG_encT, hb, BitVec.toNat_ofNat, Nat.reducePow, Nat.reduceMod, Nat.zero_mod]
theorem Laws.RoundTrip.neg (d : BitVec 5) (b : Src) (g : BitVec 5) : Laws.RoundTrip.Statement (.neg d b g) := by
  intro h l1 l2
  refine decode_of ?_ rfl h
  have hb := srcOf_code b l1 l2 (Bool.and_eq_true_iff.mp h).2
  refine (candidate_02 _ _ _ (fOp_encT ..)).trans ?_
  change decode02 (encT 0x02 d 0#5 b.code 1#5 g) (b.words.getD 0 l1) (b.words.getD 1 l2) = _
  simp only [decode02, fFn_encT, fD_encT, fA_encT, fB_encT, fG_encT, hb, BitVec.toNat_ofNat, Nat.reducePow, Nat.reduceMod, Nat.zero_mod]
theorem Laws.RoundTrip.abs (d : BitVec 5) (b : Src) (g : BitVec 5) : Laws.RoundTrip.Statement (.abs d b g) := by
  intro h l1 l2
  refine decode_of ?_ rfl h
  have hb := srcOf_code b l1 l2 (Bool.and_eq_true_iff.mp h).2
  refine (candidate_02 _ _ _ (fOp_encT ..)).trans ?_
  change decode02 (encT 0x02 d 0#5 b.code 2#5 g) (b.words.getD 0 l1) (b.words.getD 1 l2) = _
  simp only [decode02, fFn_encT, fD_encT, fA_encT, fB_encT, fG_encT, hb, BitVec.toNat_ofNat, Nat.reducePow, Nat.reduceMod, Nat.zero_mod]
theorem Laws.RoundTrip.clz (d : BitVec 5) (b : Src) (g : BitVec 5) : Laws.RoundTrip.Statement (.clz d b g) := by
  intro h l1 l2
  refine decode_of ?_ rfl h
  have hb := srcOf_code b l1 l2 (Bool.and_eq_true_iff.mp h).2
  refine (candidate_02 _ _ _ (fOp_encT ..)).trans ?_
  change decode02 (encT 0x02 d 0#5 b.code 3#5 g) (b.words.getD 0 l1) (b.words.getD 1 l2) = _
  simp only [decode02, fFn_encT, fD_encT, fA_encT, fB_encT, fG_encT, hb, BitVec.toNat_ofNat, Nat.reducePow, Nat.reduceMod, Nat.zero_mod]
theorem Laws.RoundTrip.ctz (d : BitVec 5) (b : Src) (g : BitVec 5) : Laws.RoundTrip.Statement (.ctz d b g) := by
  intro h l1 l2
  refine decode_of ?_ rfl h
  have hb := srcOf_code b l1 l2 (Bool.and_eq_true_iff.mp h).2
  refine (candidate_02 _ _ _ (fOp_encT ..)).trans ?_
  change decode02 (encT 0x02 d 0#5 b.code 4#5 g) (b.words.getD 0 l1) (b.words.getD 1 l2) = _
  simp only [decode02, fFn_encT, fD_encT, fA_encT, fB_encT, fG_encT, hb, BitVec.toNat_ofNat, Nat.reducePow, Nat.reduceMod, Nat.zero_mod]
theorem Laws.RoundTrip.popc (d : BitVec 5) (b : Src) (g : BitVec 5) : Laws.RoundTrip.Statement (.popc d b g) := by
  intro h l1 l2
  refine decode_of ?_ rfl h
  have hb := srcOf_code b l1 l2 (Bool.and_eq_true_iff.mp h).2
  refine (candidate_02 _ _ _ (fOp_encT ..)).trans ?_
  change decode02 (encT 0x02 d 0#5 b.code 5#5 g) (b.words.getD 0 l1) (b.words.getD 1 l2) = _
  simp only [decode02, fFn_encT, fD_encT, fA_encT, fB_encT, fG_encT, hb, BitVec.toNat_ofNat, Nat.reducePow, Nat.reduceMod, Nat.zero_mod]
theorem Laws.RoundTrip.brev (d : BitVec 5) (b : Src) (g : BitVec 5) : Laws.RoundTrip.Statement (.brev d b g) := by
  intro h l1 l2
  refine decode_of ?_ rfl h
  have hb := srcOf_code b l1 l2 (Bool.and_eq_true_iff.mp h).2
  refine (candidate_02 _ _ _ (fOp_encT ..)).trans ?_
  change decode02 (encT 0x02 d 0#5 b.code 6#5 g) (b.words.getD 0 l1) (b.words.getD 1 l2) = _
  simp only [decode02, fFn_encT, fD_encT, fA_encT, fB_encT, fG_encT, hb, BitVec.toNat_ofNat, Nat.reducePow, Nat.reduceMod, Nat.zero_mod]
theorem Laws.RoundTrip.movCtl (d : BitVec 1) (b : Src) (g : BitVec 5) : Laws.RoundTrip.Statement (.movCtl d b g) := by
  intro h l1 l2
  refine decode_of ?_ rfl h
  have hb := srcOf_code b l1 l2 (Bool.and_eq_true_iff.mp h).2
  refine (candidate_02 _ _ _ (fOp_encT ..)).trans ?_
  change decode02 (encT 0x02 (15#4 ++ d) 0#5 b.code 7#5 g) (b.words.getD 0 l1) (b.words.getD 1 l2) = _
  simp only [decode02, fFn_encT, fD_encT, fA_encT, fB_encT, fG_encT, hb, low_append, high_append, BitVec.toNat_ofNat, Nat.reducePow, Nat.reduceMod, Nat.zero_mod]
theorem Laws.RoundTrip.ext (d a : BitVec 5) (b : Src) (g : BitVec 5) : Laws.RoundTrip.Statement (.ext d a b g) := by
  intro h l1 l2
  refine decode_of ?_ rfl h
  have hb := srcOf_code b l1 l2 (Bool.and_eq_true_iff.mp h).2
  refine (candidate_0D _ _ _ (fOp_encT ..)).trans ?_
  change decode0D (encT 0x0D d a b.code 0#5 g) (b.words.getD 0 l1) (b.words.getD 1 l2) = _
  simp only [decode0D, fFn_encT, fD_encT, fA_encT, fB_encT, fG_encT, hb, BitVec.toNat_ofNat, Nat.reducePow, Nat.reduceMod, Nat.zero_mod]
theorem Laws.RoundTrip.extS (d a : BitVec 5) (b : Src) (g : BitVec 5) : Laws.RoundTrip.Statement (.extS d a b g) := by
  intro h l1 l2
  refine decode_of ?_ rfl h
  have hb := srcOf_code b l1 l2 (Bool.and_eq_true_iff.mp h).2
  refine (candidate_0D _ _ _ (fOp_encT ..)).trans ?_
  change decode0D (encT 0x0D d a b.code 1#5 g) (b.words.getD 0 l1) (b.words.getD 1 l2) = _
  simp only [decode0D, fFn_encT, fD_encT, fA_encT, fB_encT, fG_encT, hb, BitVec.toNat_ofNat, Nat.reducePow, Nat.reduceMod, Nat.zero_mod]
theorem Laws.RoundTrip.ins (d a : BitVec 5) (b : Src) (g : BitVec 5) : Laws.RoundTrip.Statement (.ins d a b g) := by
  intro h l1 l2
  refine decode_of ?_ rfl h
  have hb := srcOf_code b l1 l2 (Bool.and_eq_true_iff.mp h).2
  refine (candidate_0D _ _ _ (fOp_encT ..)).trans ?_
  change decode0D (encT 0x0D d a b.code 2#5 g) (b.words.getD 0 l1) (b.words.getD 1 l2) = _
  simp only [decode0D, fFn_encT, fD_encT, fA_encT, fB_encT, fG_encT, hb, BitVec.toNat_ofNat, Nat.reducePow, Nat.reduceMod, Nat.zero_mod]
theorem Laws.RoundTrip.sel (d a : BitVec 5) (b : Src) (k : BitVec 4) (n : BitVec 1) (g : BitVec 5) : Laws.RoundTrip.Statement (.sel d a b k n g) := by
  intro h l1 l2
  refine decode_of ?_ rfl h
  have hb : srcOf b.code ((encode (.sel d a b k n g)).getD 1 l1) ((encode (.sel d a b k n g)).getD 2 l2) = b := srcOf_code b l1 l2 (Bool.and_eq_true_iff.mp (Bool.and_eq_true_iff.mp h).1).2
  refine (candidate_0E _ _ _ (fOp_encT ..)).trans ?_
  simp only [fFn_encT, fD_encT, fA_encT, fB_encT, fG_encT, hb, low_append, high_append]
theorem Laws.RoundTrip.cmpEq (d : BitVec 4) (a : BitVec 5) (b : Src) (g : BitVec 5) : Laws.RoundTrip.Statement (.cmpEq d a b g) := by
  intro h l1 l2
  refine decode_of ?_ rfl h
  have hb := srcOf_code b l1 l2 (Bool.and_eq_true_iff.mp (Bool.and_eq_true_iff.mp h).1).2
  refine (candidate_0F _ _ _ (fOp_encT ..)).trans ?_
  change decode0F (encT 0x0F (0#1 ++ d) a b.code 0#5 g) (b.words.getD 0 l1) (b.words.getD 1 l2) = _
  simp only [decode0F, fFn_encT, fD_encT, fA_encT, fB_encT, fG_encT, hb, low_append, high_append, BitVec.toNat_ofNat, Nat.reducePow, Nat.reduceMod, Nat.zero_mod]
theorem Laws.RoundTrip.cmpNe (d : BitVec 4) (a : BitVec 5) (b : Src) (g : BitVec 5) : Laws.RoundTrip.Statement (.cmpNe d a b g) := by
  intro h l1 l2
  refine decode_of ?_ rfl h
  have hb := srcOf_code b l1 l2 (Bool.and_eq_true_iff.mp (Bool.and_eq_true_iff.mp h).1).2
  refine (candidate_0F _ _ _ (fOp_encT ..)).trans ?_
  change decode0F (encT 0x0F (0#1 ++ d) a b.code 1#5 g) (b.words.getD 0 l1) (b.words.getD 1 l2) = _
  simp only [decode0F, fFn_encT, fD_encT, fA_encT, fB_encT, fG_encT, hb, low_append, high_append, BitVec.toNat_ofNat, Nat.reducePow, Nat.reduceMod, Nat.zero_mod]
theorem Laws.RoundTrip.cmpLt (d : BitVec 4) (a : BitVec 5) (b : Src) (g : BitVec 5) : Laws.RoundTrip.Statement (.cmpLt d a b g) := by
  intro h l1 l2
  refine decode_of ?_ rfl h
  have hb := srcOf_code b l1 l2 (Bool.and_eq_true_iff.mp (Bool.and_eq_true_iff.mp h).1).2
  refine (candidate_0F _ _ _ (fOp_encT ..)).trans ?_
  change decode0F (encT 0x0F (0#1 ++ d) a b.code 2#5 g) (b.words.getD 0 l1) (b.words.getD 1 l2) = _
  simp only [decode0F, fFn_encT, fD_encT, fA_encT, fB_encT, fG_encT, hb, low_append, high_append, BitVec.toNat_ofNat, Nat.reducePow, Nat.reduceMod, Nat.zero_mod]
theorem Laws.RoundTrip.cmpGe (d : BitVec 4) (a : BitVec 5) (b : Src) (g : BitVec 5) : Laws.RoundTrip.Statement (.cmpGe d a b g) := by
  intro h l1 l2
  refine decode_of ?_ rfl h
  have hb := srcOf_code b l1 l2 (Bool.and_eq_true_iff.mp (Bool.and_eq_true_iff.mp h).1).2
  refine (candidate_0F _ _ _ (fOp_encT ..)).trans ?_
  change decode0F (encT 0x0F (0#1 ++ d) a b.code 3#5 g) (b.words.getD 0 l1) (b.words.getD 1 l2) = _
  simp only [decode0F, fFn_encT, fD_encT, fA_encT, fB_encT, fG_encT, hb, low_append, high_append, BitVec.toNat_ofNat, Nat.reducePow, Nat.reduceMod, Nat.zero_mod]
theorem Laws.RoundTrip.cmpLe (d : BitVec 4) (a : BitVec 5) (b : Src) (g : BitVec 5) : Laws.RoundTrip.Statement (.cmpLe d a b g) := by
  intro h l1 l2
  refine decode_of ?_ rfl h
  have hb := srcOf_code b l1 l2 (Bool.and_eq_true_iff.mp (Bool.and_eq_true_iff.mp h).1).2
  refine (candidate_0F _ _ _ (fOp_encT ..)).trans ?_
  change decode0F (encT 0x0F (0#1 ++ d) a b.code 4#5 g) (b.words.getD 0 l1) (b.words.getD 1 l2) = _
  simp only [decode0F, fFn_encT, fD_encT, fA_encT, fB_encT, fG_encT, hb, low_append, high_append, BitVec.toNat_ofNat, Nat.reducePow, Nat.reduceMod, Nat.zero_mod]
theorem Laws.RoundTrip.cmpGt (d : BitVec 4) (a : BitVec 5) (b : Src) (g : BitVec 5) : Laws.RoundTrip.Statement (.cmpGt d a b g) := by
  intro h l1 l2
  refine decode_of ?_ rfl h
  have hb := srcOf_code b l1 l2 (Bool.and_eq_true_iff.mp (Bool.and_eq_true_iff.mp h).1).2
  refine (candidate_0F _ _ _ (fOp_encT ..)).trans ?_
  change decode0F (encT 0x0F (0#1 ++ d) a b.code 5#5 g) (b.words.getD 0 l1) (b.words.getD 1 l2) = _
  simp only [decode0F, fFn_encT, fD_encT, fA_encT, fB_encT, fG_encT, hb, low_append, high_append, BitVec.toNat_ofNat, Nat.reducePow, Nat.reduceMod, Nat.zero_mod]
theorem Laws.RoundTrip.cmpLo (d : BitVec 4) (a : BitVec 5) (b : Src) (g : BitVec 5) : Laws.RoundTrip.Statement (.cmpLo d a b g) := by
  intro h l1 l2
  refine decode_of ?_ rfl h
  have hb := srcOf_code b l1 l2 (Bool.and_eq_true_iff.mp (Bool.and_eq_true_iff.mp h).1).2
  refine (candidate_0F _ _ _ (fOp_encT ..)).trans ?_
  change decode0F (encT 0x0F (0#1 ++ d) a b.code 6#5 g) (b.words.getD 0 l1) (b.words.getD 1 l2) = _
  simp only [decode0F, fFn_encT, fD_encT, fA_encT, fB_encT, fG_encT, hb, low_append, high_append, BitVec.toNat_ofNat, Nat.reducePow, Nat.reduceMod, Nat.zero_mod]
theorem Laws.RoundTrip.cmpHs (d : BitVec 4) (a : BitVec 5) (b : Src) (g : BitVec 5) : Laws.RoundTrip.Statement (.cmpHs d a b g) := by
  intro h l1 l2
  refine decode_of ?_ rfl h
  have hb := srcOf_code b l1 l2 (Bool.and_eq_true_iff.mp (Bool.and_eq_true_iff.mp h).1).2
  refine (candidate_0F _ _ _ (fOp_encT ..)).trans ?_
  change decode0F (encT 0x0F (0#1 ++ d) a b.code 7#5 g) (b.words.getD 0 l1) (b.words.getD 1 l2) = _
  simp only [decode0F, fFn_encT, fD_encT, fA_encT, fB_encT, fG_encT, hb, low_append, high_append, BitVec.toNat_ofNat, Nat.reducePow, Nat.reduceMod, Nat.zero_mod]
theorem Laws.RoundTrip.cmpLs (d : BitVec 4) (a : BitVec 5) (b : Src) (g : BitVec 5) : Laws.RoundTrip.Statement (.cmpLs d a b g) := by
  intro h l1 l2
  refine decode_of ?_ rfl h
  have hb := srcOf_code b l1 l2 (Bool.and_eq_true_iff.mp (Bool.and_eq_true_iff.mp h).1).2
  refine (candidate_0F _ _ _ (fOp_encT ..)).trans ?_
  change decode0F (encT 0x0F (0#1 ++ d) a b.code 8#5 g) (b.words.getD 0 l1) (b.words.getD 1 l2) = _
  simp only [decode0F, fFn_encT, fD_encT, fA_encT, fB_encT, fG_encT, hb, low_append, high_append, BitVec.toNat_ofNat, Nat.reducePow, Nat.reduceMod, Nat.zero_mod]
theorem Laws.RoundTrip.cmpHi (d : BitVec 4) (a : BitVec 5) (b : Src) (g : BitVec 5) : Laws.RoundTrip.Statement (.cmpHi d a b g) := by
  intro h l1 l2
  refine decode_of ?_ rfl h
  have hb := srcOf_code b l1 l2 (Bool.and_eq_true_iff.mp (Bool.and_eq_true_iff.mp h).1).2
  refine (candidate_0F _ _ _ (fOp_encT ..)).trans ?_
  change decode0F (encT 0x0F (0#1 ++ d) a b.code 9#5 g) (b.words.getD 0 l1) (b.words.getD 1 l2) = _
  simp only [decode0F, fFn_encT, fD_encT, fA_encT, fB_encT, fG_encT, hb, low_append, high_append, BitVec.toNat_ofNat, Nat.reducePow, Nat.reduceMod, Nat.zero_mod]
theorem Laws.RoundTrip.cmpEqImm (d : BitVec 4) (a : BitVec 5) (i : BitVec 10) (g : BitVec 5) : Laws.RoundTrip.Statement (.cmpEqImm d a i g) := by
  intro h l1 l2
  refine decode_of ?_ rfl h
  refine (candidate_10 _ _ _ (fOp_encI ..)).trans ?_
  simp only [fD_encI, fA_encI, fImm_encI, fG_encI, low_append, high_append]
theorem Laws.RoundTrip.cmpNeImm (d : BitVec 4) (a : BitVec 5) (i : BitVec 10) (g : BitVec 5) : Laws.RoundTrip.Statement (.cmpNeImm d a i g) := by
  intro h l1 l2
  refine decode_of ?_ rfl h
  refine (candidate_11 _ _ _ (fOp_encI ..)).trans ?_
  simp only [fD_encI, fA_encI, fImm_encI, fG_encI, low_append, high_append]
theorem Laws.RoundTrip.cmpLtImm (d : BitVec 4) (a : BitVec 5) (i : BitVec 10) (g : BitVec 5) : Laws.RoundTrip.Statement (.cmpLtImm d a i g) := by
  intro h l1 l2
  refine decode_of ?_ rfl h
  refine (candidate_12 _ _ _ (fOp_encI ..)).trans ?_
  simp only [fD_encI, fA_encI, fImm_encI, fG_encI, low_append, high_append]
theorem Laws.RoundTrip.cmpGeImm (d : BitVec 4) (a : BitVec 5) (i : BitVec 10) (g : BitVec 5) : Laws.RoundTrip.Statement (.cmpGeImm d a i g) := by
  intro h l1 l2
  refine decode_of ?_ rfl h
  refine (candidate_13 _ _ _ (fOp_encI ..)).trans ?_
  simp only [fD_encI, fA_encI, fImm_encI, fG_encI, low_append, high_append]
theorem Laws.RoundTrip.cmpLeImm (d : BitVec 4) (a : BitVec 5) (i : BitVec 10) (g : BitVec 5) : Laws.RoundTrip.Statement (.cmpLeImm d a i g) := by
  intro h l1 l2
  refine decode_of ?_ rfl h
  refine (candidate_14 _ _ _ (fOp_encI ..)).trans ?_
  simp only [fD_encI, fA_encI, fImm_encI, fG_encI, low_append, high_append]
theorem Laws.RoundTrip.cmpGtImm (d : BitVec 4) (a : BitVec 5) (i : BitVec 10) (g : BitVec 5) : Laws.RoundTrip.Statement (.cmpGtImm d a i g) := by
  intro h l1 l2
  refine decode_of ?_ rfl h
  refine (candidate_15 _ _ _ (fOp_encI ..)).trans ?_
  simp only [fD_encI, fA_encI, fImm_encI, fG_encI, low_append, high_append]
theorem Laws.RoundTrip.cmpLoImm (d : BitVec 4) (a : BitVec 5) (i : BitVec 10) (g : BitVec 5) : Laws.RoundTrip.Statement (.cmpLoImm d a i g) := by
  intro h l1 l2
  refine decode_of ?_ rfl h
  refine (candidate_16 _ _ _ (fOp_encI ..)).trans ?_
  simp only [fD_encI, fA_encI, fImm_encI, fG_encI, low_append, high_append]
theorem Laws.RoundTrip.cmpHsImm (d : BitVec 4) (a : BitVec 5) (i : BitVec 10) (g : BitVec 5) : Laws.RoundTrip.Statement (.cmpHsImm d a i g) := by
  intro h l1 l2
  refine decode_of ?_ rfl h
  refine (candidate_17 _ _ _ (fOp_encI ..)).trans ?_
  simp only [fD_encI, fA_encI, fImm_encI, fG_encI, low_append, high_append]
theorem Laws.RoundTrip.const (d : BitVec 5) (c : BitVec 8) (g : BitVec 5) : Laws.RoundTrip.Statement (.const d c g) := by
  intro h l1 l2
  refine decode_of ?_ rfl h
  refine (candidate_18 _ _ _ (fOp_encK ..)).trans ?_
  simp only [fD_encK, fC_encK, fG_encK]
theorem Laws.RoundTrip.adda (d a : BitVec 5) (b : Src) (g : BitVec 5) : Laws.RoundTrip.Statement (.adda d a b g) := by
  intro h l1 l2
  refine decode_of ?_ rfl h
  have hb := srcOf_code b l1 l2 (Bool.and_eq_true_iff.mp h).2
  refine (candidate_19 _ _ _ (fOp_encT ..)).trans ?_
  change decode19 (encT 0x19 d a b.code 0#5 g) (b.words.getD 0 l1) (b.words.getD 1 l2) = _
  simp only [decode19, fFn_encT, fD_encT, fA_encT, fB_encT, fG_encT, hb, BitVec.toNat_ofNat, Nat.reducePow, Nat.reduceMod, Nat.zero_mod]
theorem Laws.RoundTrip.suba (d a : BitVec 5) (b : Src) (g : BitVec 5) : Laws.RoundTrip.Statement (.suba d a b g) := by
  intro h l1 l2
  refine decode_of ?_ rfl h
  have hb := srcOf_code b l1 l2 (Bool.and_eq_true_iff.mp h).2
  refine (candidate_19 _ _ _ (fOp_encT ..)).trans ?_
  change decode19 (encT 0x19 d a b.code 1#5 g) (b.words.getD 0 l1) (b.words.getD 1 l2) = _
  simp only [decode19, fFn_encT, fD_encT, fA_encT, fB_encT, fG_encT, hb, BitVec.toNat_ofNat, Nat.reducePow, Nat.reduceMod, Nat.zero_mod]
theorem Laws.RoundTrip.addaImm (d a : BitVec 5) (i : BitVec 10) (g : BitVec 5) : Laws.RoundTrip.Statement (.addaImm d a i g) := by
  intro h l1 l2
  refine decode_of ?_ rfl h
  refine (candidate_1A _ _ _ (fOp_encI ..)).trans ?_
  simp only [fD_encI, fA_encI, fImm_encI, fG_encI]
theorem Laws.RoundTrip.subaImm (d a : BitVec 5) (i : BitVec 10) (g : BitVec 5) : Laws.RoundTrip.Statement (.subaImm d a i g) := by
  intro h l1 l2
  refine decode_of ?_ rfl h
  refine (candidate_1B _ _ _ (fOp_encI ..)).trans ?_
  simp only [fD_encI, fA_encI, fImm_encI, fG_encI]
theorem Laws.RoundTrip.ptag (d a : BitVec 5) (b : Src) (g : BitVec 5) : Laws.RoundTrip.Statement (.ptag d a b g) := by
  intro h l1 l2
  refine decode_of ?_ rfl h
  have hb := srcOf_code b l1 l2 (Bool.and_eq_true_iff.mp h).2
  refine (candidate_1C _ _ _ (fOp_encT ..)).trans ?_
  change decode1C (encT 0x1C d a b.code 0#5 g) (b.words.getD 0 l1) (b.words.getD 1 l2) = _
  simp only [decode1C, fFn_encT, fD_encT, fA_encT, fB_encT, fG_encT, hb, BitVec.toNat_ofNat, Nat.reducePow, Nat.reduceMod, Nat.zero_mod]
theorem Laws.RoundTrip.pfmt (d a g : BitVec 5) : Laws.RoundTrip.Statement (.pfmt d a g) := by
  intro h l1 l2
  refine decode_of ?_ rfl h
  refine (candidate_1C _ _ _ (fOp_encT ..)).trans ?_
  change decode1C (encT 0x1C d a 0#5 1#5 g) l1 l2 = _
  simp only [decode1C, fFn_encT, fD_encT, fA_encT, fB_encT, fG_encT, BitVec.toNat_ofNat, Nat.reducePow, Nat.reduceMod, Nat.zero_mod]
theorem Laws.RoundTrip.href (d a : BitVec 5) (b : Src) (g : BitVec 5) : Laws.RoundTrip.Statement (.href d a b g) := by
  intro h l1 l2
  refine decode_of ?_ rfl h
  have hb : srcOf b.code ((encode (.href d a b g)).getD 1 l1) ((encode (.href d a b g)).getD 2 l2) = b := srcOf_code b l1 l2 (Bool.and_eq_true_iff.mp h).2
  refine (candidate_1D _ _ _ (fOp_encT ..)).trans ?_
  simp only [fFn_encT, fD_encT, fA_encT, fB_encT, fG_encT, hb]
theorem Laws.RoundTrip.lwin (d a : BitVec 5) (b : Src) (g : BitVec 5) : Laws.RoundTrip.Statement (.lwin d a b g) := by
  intro h l1 l2
  refine decode_of ?_ rfl h
  have hb := srcOf_code b l1 l2 (Bool.and_eq_true_iff.mp h).2
  refine (candidate_1E _ _ _ (fOp_encT ..)).trans ?_
  change decode1E (encT 0x1E d a b.code 0#5 g) (b.words.getD 0 l1) (b.words.getD 1 l2) = _
  simp only [decode1E, fFn_encT, fD_encT, fA_encT, fB_encT, fG_encT, hb, BitVec.toNat_ofNat, Nat.reducePow, Nat.reduceMod, Nat.zero_mod]
theorem Laws.RoundTrip.lwinOwn (d : BitVec 5) (b : Src) (g : BitVec 5) : Laws.RoundTrip.Statement (.lwinOwn d b g) := by
  intro h l1 l2
  refine decode_of ?_ rfl h
  have hb := srcOf_code b l1 l2 (Bool.and_eq_true_iff.mp h).2
  refine (candidate_1E _ _ _ (fOp_encT ..)).trans ?_
  change decode1E (encT 0x1E d 0#5 b.code 1#5 g) (b.words.getD 0 l1) (b.words.getD 1 l2) = _
  simp only [decode1E, fFn_encT, fD_encT, fA_encT, fB_encT, fG_encT, hb, BitVec.toNat_ofNat, Nat.reducePow, Nat.reduceMod, Nat.zero_mod]
theorem Laws.RoundTrip.fadd (d a : BitVec 5) (b : Src) (g : BitVec 5) : Laws.RoundTrip.Statement (.fadd d a b g) := by
  intro h l1 l2
  refine decode_of ?_ rfl h
  have hb := srcOf_code b l1 l2 (Bool.and_eq_true_iff.mp h).2
  refine (candidate_20 _ _ _ (fOp_encT ..)).trans ?_
  change decode20 (encT 0x20 d a b.code 0#5 g) (b.words.getD 0 l1) (b.words.getD 1 l2) = _
  simp only [decode20, fFn_encT, fD_encT, fA_encT, fB_encT, fG_encT, hb, BitVec.toNat_ofNat, Nat.reducePow, Nat.reduceMod, Nat.zero_mod]
theorem Laws.RoundTrip.fsub (d a : BitVec 5) (b : Src) (g : BitVec 5) : Laws.RoundTrip.Statement (.fsub d a b g) := by
  intro h l1 l2
  refine decode_of ?_ rfl h
  have hb := srcOf_code b l1 l2 (Bool.and_eq_true_iff.mp h).2
  refine (candidate_20 _ _ _ (fOp_encT ..)).trans ?_
  change decode20 (encT 0x20 d a b.code 1#5 g) (b.words.getD 0 l1) (b.words.getD 1 l2) = _
  simp only [decode20, fFn_encT, fD_encT, fA_encT, fB_encT, fG_encT, hb, BitVec.toNat_ofNat, Nat.reducePow, Nat.reduceMod, Nat.zero_mod]
theorem Laws.RoundTrip.fmul (d a : BitVec 5) (b : Src) (g : BitVec 5) : Laws.RoundTrip.Statement (.fmul d a b g) := by
  intro h l1 l2
  refine decode_of ?_ rfl h
  have hb := srcOf_code b l1 l2 (Bool.and_eq_true_iff.mp h).2
  refine (candidate_20 _ _ _ (fOp_encT ..)).trans ?_
  change decode20 (encT 0x20 d a b.code 2#5 g) (b.words.getD 0 l1) (b.words.getD 1 l2) = _
  simp only [decode20, fFn_encT, fD_encT, fA_encT, fB_encT, fG_encT, hb, BitVec.toNat_ofNat, Nat.reducePow, Nat.reduceMod, Nat.zero_mod]
theorem Laws.RoundTrip.fmin (d a : BitVec 5) (b : Src) (g : BitVec 5) : Laws.RoundTrip.Statement (.fmin d a b g) := by
  intro h l1 l2
  refine decode_of ?_ rfl h
  have hb := srcOf_code b l1 l2 (Bool.and_eq_true_iff.mp h).2
  refine (candidate_20 _ _ _ (fOp_encT ..)).trans ?_
  change decode20 (encT 0x20 d a b.code 3#5 g) (b.words.getD 0 l1) (b.words.getD 1 l2) = _
  simp only [decode20, fFn_encT, fD_encT, fA_encT, fB_encT, fG_encT, hb, BitVec.toNat_ofNat, Nat.reducePow, Nat.reduceMod, Nat.zero_mod]
theorem Laws.RoundTrip.fmax (d a : BitVec 5) (b : Src) (g : BitVec 5) : Laws.RoundTrip.Statement (.fmax d a b g) := by
  intro h l1 l2
  refine decode_of ?_ rfl h
  have hb := srcOf_code b l1 l2 (Bool.and_eq_true_iff.mp h).2
  refine (candidate_20 _ _ _ (fOp_encT ..)).trans ?_
  change decode20 (encT 0x20 d a b.code 4#5 g) (b.words.getD 0 l1) (b.words.getD 1 l2) = _
  simp only [decode20, fFn_encT, fD_encT, fA_encT, fB_encT, fG_encT, hb, BitVec.toNat_ofNat, Nat.reducePow, Nat.reduceMod, Nat.zero_mod]
theorem Laws.RoundTrip.ffma (d a : BitVec 5) (b : Src) (g : BitVec 5) : Laws.RoundTrip.Statement (.ffma d a b g) := by
  intro h l1 l2
  refine decode_of ?_ rfl h
  have hb : srcOf b.code ((encode (.ffma d a b g)).getD 1 l1) ((encode (.ffma d a b g)).getD 2 l2) = b := srcOf_code b l1 l2 (Bool.and_eq_true_iff.mp h).2
  refine (candidate_21 _ _ _ (fOp_encT ..)).trans ?_
  simp only [fFn_encT, fD_encT, fA_encT, fB_encT, fG_encT, hb]
theorem Laws.RoundTrip.fcmpEq (d : BitVec 4) (a : BitVec 5) (b : Src) (g : BitVec 5) : Laws.RoundTrip.Statement (.fcmpEq d a b g) := by
  intro h l1 l2
  refine decode_of ?_ rfl h
  have hb := srcOf_code b l1 l2 (Bool.and_eq_true_iff.mp (Bool.and_eq_true_iff.mp h).1).2
  refine (candidate_22 _ _ _ (fOp_encT ..)).trans ?_
  change decode22 (encT 0x22 (0#1 ++ d) a b.code 0#5 g) (b.words.getD 0 l1) (b.words.getD 1 l2) = _
  simp only [decode22, fFn_encT, fD_encT, fA_encT, fB_encT, fG_encT, hb, low_append, high_append, BitVec.toNat_ofNat, Nat.reducePow, Nat.reduceMod, Nat.zero_mod]
theorem Laws.RoundTrip.fcmpNe (d : BitVec 4) (a : BitVec 5) (b : Src) (g : BitVec 5) : Laws.RoundTrip.Statement (.fcmpNe d a b g) := by
  intro h l1 l2
  refine decode_of ?_ rfl h
  have hb := srcOf_code b l1 l2 (Bool.and_eq_true_iff.mp (Bool.and_eq_true_iff.mp h).1).2
  refine (candidate_22 _ _ _ (fOp_encT ..)).trans ?_
  change decode22 (encT 0x22 (0#1 ++ d) a b.code 1#5 g) (b.words.getD 0 l1) (b.words.getD 1 l2) = _
  simp only [decode22, fFn_encT, fD_encT, fA_encT, fB_encT, fG_encT, hb, low_append, high_append, BitVec.toNat_ofNat, Nat.reducePow, Nat.reduceMod, Nat.zero_mod]
theorem Laws.RoundTrip.fcmpLt (d : BitVec 4) (a : BitVec 5) (b : Src) (g : BitVec 5) : Laws.RoundTrip.Statement (.fcmpLt d a b g) := by
  intro h l1 l2
  refine decode_of ?_ rfl h
  have hb := srcOf_code b l1 l2 (Bool.and_eq_true_iff.mp (Bool.and_eq_true_iff.mp h).1).2
  refine (candidate_22 _ _ _ (fOp_encT ..)).trans ?_
  change decode22 (encT 0x22 (0#1 ++ d) a b.code 2#5 g) (b.words.getD 0 l1) (b.words.getD 1 l2) = _
  simp only [decode22, fFn_encT, fD_encT, fA_encT, fB_encT, fG_encT, hb, low_append, high_append, BitVec.toNat_ofNat, Nat.reducePow, Nat.reduceMod, Nat.zero_mod]
theorem Laws.RoundTrip.fcmpLe (d : BitVec 4) (a : BitVec 5) (b : Src) (g : BitVec 5) : Laws.RoundTrip.Statement (.fcmpLe d a b g) := by
  intro h l1 l2
  refine decode_of ?_ rfl h
  have hb := srcOf_code b l1 l2 (Bool.and_eq_true_iff.mp (Bool.and_eq_true_iff.mp h).1).2
  refine (candidate_22 _ _ _ (fOp_encT ..)).trans ?_
  change decode22 (encT 0x22 (0#1 ++ d) a b.code 3#5 g) (b.words.getD 0 l1) (b.words.getD 1 l2) = _
  simp only [decode22, fFn_encT, fD_encT, fA_encT, fB_encT, fG_encT, hb, low_append, high_append, BitVec.toNat_ofNat, Nat.reducePow, Nat.reduceMod, Nat.zero_mod]
theorem Laws.RoundTrip.fcmpGt (d : BitVec 4) (a : BitVec 5) (b : Src) (g : BitVec 5) : Laws.RoundTrip.Statement (.fcmpGt d a b g) := by
  intro h l1 l2
  refine decode_of ?_ rfl h
  have hb := srcOf_code b l1 l2 (Bool.and_eq_true_iff.mp (Bool.and_eq_true_iff.mp h).1).2
  refine (candidate_22 _ _ _ (fOp_encT ..)).trans ?_
  change decode22 (encT 0x22 (0#1 ++ d) a b.code 4#5 g) (b.words.getD 0 l1) (b.words.getD 1 l2) = _
  simp only [decode22, fFn_encT, fD_encT, fA_encT, fB_encT, fG_encT, hb, low_append, high_append, BitVec.toNat_ofNat, Nat.reducePow, Nat.reduceMod, Nat.zero_mod]
theorem Laws.RoundTrip.fcmpGe (d : BitVec 4) (a : BitVec 5) (b : Src) (g : BitVec 5) : Laws.RoundTrip.Statement (.fcmpGe d a b g) := by
  intro h l1 l2
  refine decode_of ?_ rfl h
  have hb := srcOf_code b l1 l2 (Bool.and_eq_true_iff.mp (Bool.and_eq_true_iff.mp h).1).2
  refine (candidate_22 _ _ _ (fOp_encT ..)).trans ?_
  change decode22 (encT 0x22 (0#1 ++ d) a b.code 5#5 g) (b.words.getD 0 l1) (b.words.getD 1 l2) = _
  simp only [decode22, fFn_encT, fD_encT, fA_encT, fB_encT, fG_encT, hb, low_append, high_append, BitVec.toNat_ofNat, Nat.reducePow, Nat.reduceMod, Nat.zero_mod]
theorem Laws.RoundTrip.fcmpUn (d : BitVec 4) (a : BitVec 5) (b : Src) (g : BitVec 5) : Laws.RoundTrip.Statement (.fcmpUn d a b g) := by
  intro h l1 l2
  refine decode_of ?_ rfl h
  have hb := srcOf_code b l1 l2 (Bool.and_eq_true_iff.mp (Bool.and_eq_true_iff.mp h).1).2
  refine (candidate_22 _ _ _ (fOp_encT ..)).trans ?_
  change decode22 (encT 0x22 (0#1 ++ d) a b.code 6#5 g) (b.words.getD 0 l1) (b.words.getD 1 l2) = _
  simp only [decode22, fFn_encT, fD_encT, fA_encT, fB_encT, fG_encT, hb, low_append, high_append, BitVec.toNat_ofNat, Nat.reducePow, Nat.reduceMod, Nat.zero_mod]
theorem Laws.RoundTrip.fcmpOr (d : BitVec 4) (a : BitVec 5) (b : Src) (g : BitVec 5) : Laws.RoundTrip.Statement (.fcmpOr d a b g) := by
  intro h l1 l2
  refine decode_of ?_ rfl h
  have hb := srcOf_code b l1 l2 (Bool.and_eq_true_iff.mp (Bool.and_eq_true_iff.mp h).1).2
  refine (candidate_22 _ _ _ (fOp_encT ..)).trans ?_
  change decode22 (encT 0x22 (0#1 ++ d) a b.code 7#5 g) (b.words.getD 0 l1) (b.words.getD 1 l2) = _
  simp only [decode22, fFn_encT, fD_encT, fA_encT, fB_encT, fG_encT, hb, low_append, high_append, BitVec.toNat_ofNat, Nat.reducePow, Nat.reduceMod, Nat.zero_mod]
theorem Laws.RoundTrip.fcvtF2i (d : BitVec 5) (b : Src) (m : BitVec 2) (g : BitVec 5) : Laws.RoundTrip.Statement (.fcvtF2i d b m g) := by
  intro h l1 l2
  refine decode_of ?_ rfl h
  have hb := srcOf_code b l1 l2 (Bool.and_eq_true_iff.mp h).2
  refine (candidate_23 _ _ _ (fOp_encT ..)).trans ?_
  change decode23 (encT 0x23 d 0#5 b.code (0#3 ++ m) g) (b.words.getD 0 l1) (b.words.getD 1 l2) = _
  simp only [decode23, fFn_encT, fD_encT, fA_encT, fB_encT, fG_encT, hb, low_append, high_append, BitVec.toNat_ofNat, Nat.reducePow, Nat.reduceMod, Nat.zero_mod]
theorem Laws.RoundTrip.fcvtF2n (d : BitVec 5) (b : Src) (m : BitVec 2) (g : BitVec 5) : Laws.RoundTrip.Statement (.fcvtF2n d b m g) := by
  intro h l1 l2
  refine decode_of ?_ rfl h
  have hb := srcOf_code b l1 l2 (Bool.and_eq_true_iff.mp h).2
  refine (candidate_23 _ _ _ (fOp_encT ..)).trans ?_
  change decode23 (encT 0x23 d 0#5 b.code (1#3 ++ m) g) (b.words.getD 0 l1) (b.words.getD 1 l2) = _
  simp only [decode23, fFn_encT, fD_encT, fA_encT, fB_encT, fG_encT, hb, low_append, high_append, BitVec.toNat_ofNat, Nat.reducePow, Nat.reduceMod, Nat.zero_mod]
theorem Laws.RoundTrip.fcvtFint (d : BitVec 5) (b : Src) (m : BitVec 2) (g : BitVec 5) : Laws.RoundTrip.Statement (.fcvtFint d b m g) := by
  intro h l1 l2
  refine decode_of ?_ rfl h
  have hb := srcOf_code b l1 l2 (Bool.and_eq_true_iff.mp h).2
  refine (candidate_23 _ _ _ (fOp_encT ..)).trans ?_
  change decode23 (encT 0x23 d 0#5 b.code (2#3 ++ m) g) (b.words.getD 0 l1) (b.words.getD 1 l2) = _
  simp only [decode23, fFn_encT, fD_encT, fA_encT, fB_encT, fG_encT, hb, low_append, high_append, BitVec.toNat_ofNat, Nat.reducePow, Nat.reduceMod, Nat.zero_mod]
theorem Laws.RoundTrip.fcvtI2f (d : BitVec 5) (b : Src) (g : BitVec 5) : Laws.RoundTrip.Statement (.fcvtI2f d b g) := by
  intro h l1 l2
  refine decode_of ?_ rfl h
  have hb := srcOf_code b l1 l2 (Bool.and_eq_true_iff.mp h).2
  refine (candidate_23 _ _ _ (fOp_encT ..)).trans ?_
  change decode23 (encT 0x23 d 0#5 b.code 12#5 g) (b.words.getD 0 l1) (b.words.getD 1 l2) = _
  simp only [decode23, fFn_encT, fD_encT, fA_encT, fB_encT, fG_encT, hb, BitVec.toNat_ofNat, Nat.reducePow, Nat.reduceMod, Nat.zero_mod]
  rfl
theorem Laws.RoundTrip.fcvtN2f (d : BitVec 5) (b : Src) (g : BitVec 5) : Laws.RoundTrip.Statement (.fcvtN2f d b g) := by
  intro h l1 l2
  refine decode_of ?_ rfl h
  have hb := srcOf_code b l1 l2 (Bool.and_eq_true_iff.mp h).2
  refine (candidate_23 _ _ _ (fOp_encT ..)).trans ?_
  change decode23 (encT 0x23 d 0#5 b.code 13#5 g) (b.words.getD 0 l1) (b.words.getD 1 l2) = _
  simp only [decode23, fFn_encT, fD_encT, fA_encT, fB_encT, fG_encT, hb, BitVec.toNat_ofNat, Nat.reducePow, Nat.reduceMod, Nat.zero_mod]
  rfl
theorem Laws.RoundTrip.fcvtF2h (d : BitVec 5) (b : Src) (g : BitVec 5) : Laws.RoundTrip.Statement (.fcvtF2h d b g) := by
  intro h l1 l2
  refine decode_of ?_ rfl h
  have hb := srcOf_code b l1 l2 (Bool.and_eq_true_iff.mp h).2
  refine (candidate_23 _ _ _ (fOp_encT ..)).trans ?_
  change decode23 (encT 0x23 d 0#5 b.code 14#5 g) (b.words.getD 0 l1) (b.words.getD 1 l2) = _
  simp only [decode23, fFn_encT, fD_encT, fA_encT, fB_encT, fG_encT, hb, BitVec.toNat_ofNat, Nat.reducePow, Nat.reduceMod, Nat.zero_mod]
  rfl
theorem Laws.RoundTrip.fcvtH2f (d : BitVec 5) (b : Src) (g : BitVec 5) : Laws.RoundTrip.Statement (.fcvtH2f d b g) := by
  intro h l1 l2
  refine decode_of ?_ rfl h
  have hb := srcOf_code b l1 l2 (Bool.and_eq_true_iff.mp h).2
  refine (candidate_23 _ _ _ (fOp_encT ..)).trans ?_
  change decode23 (encT 0x23 d 0#5 b.code 15#5 g) (b.words.getD 0 l1) (b.words.getD 1 l2) = _
  simp only [decode23, fFn_encT, fD_encT, fA_encT, fB_encT, fG_encT, hb, BitVec.toNat_ofNat, Nat.reducePow, Nat.reduceMod, Nat.zero_mod]
  rfl
theorem Laws.RoundTrip.fcvtF2b (d : BitVec 5) (b : Src) (g : BitVec 5) : Laws.RoundTrip.Statement (.fcvtF2b d b g) := by
  intro h l1 l2
  refine decode_of ?_ rfl h
  have hb := srcOf_code b l1 l2 (Bool.and_eq_true_iff.mp h).2
  refine (candidate_23 _ _ _ (fOp_encT ..)).trans ?_
  change decode23 (encT 0x23 d 0#5 b.code 16#5 g) (b.words.getD 0 l1) (b.words.getD 1 l2) = _
  simp only [decode23, fFn_encT, fD_encT, fA_encT, fB_encT, fG_encT, hb, BitVec.toNat_ofNat, Nat.reducePow, Nat.reduceMod, Nat.zero_mod]
  rfl
theorem Laws.RoundTrip.fcvtB2f (d : BitVec 5) (b : Src) (g : BitVec 5) : Laws.RoundTrip.Statement (.fcvtB2f d b g) := by
  intro h l1 l2
  refine decode_of ?_ rfl h
  have hb := srcOf_code b l1 l2 (Bool.and_eq_true_iff.mp h).2
  refine (candidate_23 _ _ _ (fOp_encT ..)).trans ?_
  change decode23 (encT 0x23 d 0#5 b.code 17#5 g) (b.words.getD 0 l1) (b.words.getD 1 l2) = _
  simp only [decode23, fFn_encT, fD_encT, fA_encT, fB_encT, fG_encT, hb, BitVec.toNat_ofNat, Nat.reducePow, Nat.reduceMod, Nat.zero_mod]
  rfl
theorem Laws.RoundTrip.fcvtF2w (d : BitVec 5) (b : Src) (g : BitVec 5) : Laws.RoundTrip.Statement (.fcvtF2w d b g) := by
  intro h l1 l2
  refine decode_of ?_ rfl h
  have hb := srcOf_code b l1 l2 (Bool.and_eq_true_iff.mp h).2
  refine (candidate_23 _ _ _ (fOp_encT ..)).trans ?_
  change decode23 (encT 0x23 d 0#5 b.code 18#5 g) (b.words.getD 0 l1) (b.words.getD 1 l2) = _
  simp only [decode23, fFn_encT, fD_encT, fA_encT, fB_encT, fG_encT, hb, BitVec.toNat_ofNat, Nat.reducePow, Nat.reduceMod, Nat.zero_mod]
  rfl
theorem Laws.RoundTrip.fcvtW2f (d : BitVec 5) (b : Src) (g : BitVec 5) : Laws.RoundTrip.Statement (.fcvtW2f d b g) := by
  intro h l1 l2
  refine decode_of ?_ rfl h
  have hb := srcOf_code b l1 l2 (Bool.and_eq_true_iff.mp h).2
  refine (candidate_23 _ _ _ (fOp_encT ..)).trans ?_
  change decode23 (encT 0x23 d 0#5 b.code 19#5 g) (b.words.getD 0 l1) (b.words.getD 1 l2) = _
  simp only [decode23, fFn_encT, fD_encT, fA_encT, fB_encT, fG_encT, hb, BitVec.toNat_ofNat, Nat.reducePow, Nat.reduceMod, Nat.zero_mod]
  rfl
theorem Laws.RoundTrip.pand (d a b : BitVec 4) (g : BitVec 5) : Laws.RoundTrip.Statement (.pand d a b g) := by
  intro h l1 l2
  refine decode_of ?_ rfl h
  refine (candidate_2C _ _ _ (fOp_encT ..)).trans ?_
  change decode2C (encT 0x2C (0#1 ++ d) (0#1 ++ a) (0#1 ++ b) 0#5 g)  = _
  simp only [decode2C, fFn_encT, fD_encT, fA_encT, fB_encT, fG_encT, low_append, high_append, BitVec.toNat_ofNat, Nat.reducePow, Nat.reduceMod, Nat.zero_mod]
theorem Laws.RoundTrip.por (d a b : BitVec 4) (g : BitVec 5) : Laws.RoundTrip.Statement (.por d a b g) := by
  intro h l1 l2
  refine decode_of ?_ rfl h
  refine (candidate_2C _ _ _ (fOp_encT ..)).trans ?_
  change decode2C (encT 0x2C (0#1 ++ d) (0#1 ++ a) (0#1 ++ b) 1#5 g)  = _
  simp only [decode2C, fFn_encT, fD_encT, fA_encT, fB_encT, fG_encT, low_append, high_append, BitVec.toNat_ofNat, Nat.reducePow, Nat.reduceMod, Nat.zero_mod]
theorem Laws.RoundTrip.pxor (d a b : BitVec 4) (g : BitVec 5) : Laws.RoundTrip.Statement (.pxor d a b g) := by
  intro h l1 l2
  refine decode_of ?_ rfl h
  refine (candidate_2C _ _ _ (fOp_encT ..)).trans ?_
  change decode2C (encT 0x2C (0#1 ++ d) (0#1 ++ a) (0#1 ++ b) 2#5 g)  = _
  simp only [decode2C, fFn_encT, fD_encT, fA_encT, fB_encT, fG_encT, low_append, high_append, BitVec.toNat_ofNat, Nat.reducePow, Nat.reduceMod, Nat.zero_mod]
theorem Laws.RoundTrip.pnot (d a : BitVec 4) (g : BitVec 5) : Laws.RoundTrip.Statement (.pnot d a g) := by
  intro h l1 l2
  refine decode_of ?_ rfl h
  refine (candidate_2C _ _ _ (fOp_encT ..)).trans ?_
  change decode2C (encT 0x2C (0#1 ++ d) (0#1 ++ a) 0#5 3#5 g)  = _
  simp only [decode2C, fFn_encT, fD_encT, fA_encT, fB_encT, fG_encT, low_append, high_append, BitVec.toNat_ofNat, Nat.reducePow, Nat.reduceMod, Nat.zero_mod]
theorem Laws.RoundTrip.pmov (d a : BitVec 4) (g : BitVec 5) : Laws.RoundTrip.Statement (.pmov d a g) := by
  intro h l1 l2
  refine decode_of ?_ rfl h
  refine (candidate_2C _ _ _ (fOp_encT ..)).trans ?_
  change decode2C (encT 0x2C (0#1 ++ d) (0#1 ++ a) 0#5 4#5 g)  = _
  simp only [decode2C, fFn_encT, fD_encT, fA_encT, fB_encT, fG_encT, low_append, high_append, BitVec.toNat_ofNat, Nat.reducePow, Nat.reduceMod, Nat.zero_mod]
theorem Laws.RoundTrip.br (o : BitVec 20) (g : BitVec 5) : Laws.RoundTrip.Statement (.br o g) := by
  intro h l1 l2
  refine decode_of ?_ rfl h
  refine (candidate_2D _ _ _ (fOp_encB ..)).trans ?_
  simp only [fOff_encB, fG_encB]
theorem Laws.RoundTrip.call (o : BitVec 20) (g : BitVec 5) : Laws.RoundTrip.Statement (.call o g) := by
  intro h l1 l2
  refine decode_of ?_ rfl h
  refine (candidate_2E _ _ _ (fOp_encB ..)).trans ?_
  simp only [fOff_encB, fG_encB]
theorem Laws.RoundTrip.jmp (b : Src) (g : BitVec 5) : Laws.RoundTrip.Statement (.jmp b g) := by
  intro h l1 l2
  refine decode_of ?_ rfl h
  have hb : srcOf b.code ((encode (.jmp b g)).getD 1 l1) ((encode (.jmp b g)).getD 2 l2) = b := srcOf_code b l1 l2 (Bool.and_eq_true_iff.mp h).2
  refine (candidate_2F _ _ _ (fOp_encT ..)).trans ?_
  simp only [fFn_encT, fD_encT, fA_encT, fB_encT, fG_encT, hb]
theorem Laws.RoundTrip.callr (d : BitVec 5) (b : Src) (g : BitVec 5) : Laws.RoundTrip.Statement (.callr d b g) := by
  intro h l1 l2
  refine decode_of ?_ rfl h
  have hb : srcOf b.code ((encode (.callr d b g)).getD 1 l1) ((encode (.callr d b g)).getD 2 l2) = b := srcOf_code b l1 l2 (Bool.and_eq_true_iff.mp h).2
  refine (candidate_30 _ _ _ (fOp_encT ..)).trans ?_
  simp only [fFn_encT, fD_encT, fA_encT, fB_encT, fG_encT, hb]
theorem Laws.RoundTrip.loop (d : BitVec 5) (i : BitVec 10) (g : BitVec 5) : Laws.RoundTrip.Statement (.loop d i g) := by
  intro h l1 l2
  refine decode_of ?_ rfl h
  refine (candidate_31 _ _ _ (fOp_encI ..)).trans ?_
  simp only [fD_encI, fA_encI, fImm_encI, fG_encI]
theorem Laws.RoundTrip.ldB (d a : BitVec 5) (i : BitVec 10) (g : BitVec 5) : Laws.RoundTrip.Statement (.ldB d a i g) := by
  intro h l1 l2
  refine decode_of ?_ rfl h
  refine (candidate_3C _ _ _ (fOp_encI ..)).trans ?_
  simp only [fD_encI, fA_encI, fImm_encI, fG_encI]
theorem Laws.RoundTrip.ldH (d a : BitVec 5) (i : BitVec 10) (g : BitVec 5) : Laws.RoundTrip.Statement (.ldH d a i g) := by
  intro h l1 l2
  refine decode_of ?_ rfl h
  refine (candidate_3D _ _ _ (fOp_encI ..)).trans ?_
  simp only [fD_encI, fA_encI, fImm_encI, fG_encI]
theorem Laws.RoundTrip.ldW (d a : BitVec 5) (i : BitVec 10) (g : BitVec 5) : Laws.RoundTrip.Statement (.ldW d a i g) := by
  intro h l1 l2
  refine decode_of ?_ rfl h
  refine (candidate_3E _ _ _ (fOp_encI ..)).trans ?_
  simp only [fD_encI, fA_encI, fImm_encI, fG_encI]
theorem Laws.RoundTrip.ldD (d a : BitVec 5) (i : BitVec 10) (g : BitVec 5) : Laws.RoundTrip.Statement (.ldD d a i g) := by
  intro h l1 l2
  refine decode_of ?_ rfl h
  refine (candidate_3F _ _ _ (fOp_encI ..)).trans ?_
  simp only [fD_encI, fA_encI, fImm_encI, fG_encI]
theorem Laws.RoundTrip.stB (d a : BitVec 5) (i : BitVec 10) (g : BitVec 5) : Laws.RoundTrip.Statement (.stB d a i g) := by
  intro h l1 l2
  refine decode_of ?_ rfl h
  refine (candidate_40 _ _ _ (fOp_encI ..)).trans ?_
  simp only [fD_encI, fA_encI, fImm_encI, fG_encI]
theorem Laws.RoundTrip.stH (d a : BitVec 5) (i : BitVec 10) (g : BitVec 5) : Laws.RoundTrip.Statement (.stH d a i g) := by
  intro h l1 l2
  refine decode_of ?_ rfl h
  refine (candidate_41 _ _ _ (fOp_encI ..)).trans ?_
  simp only [fD_encI, fA_encI, fImm_encI, fG_encI]
theorem Laws.RoundTrip.stW (d a : BitVec 5) (i : BitVec 10) (g : BitVec 5) : Laws.RoundTrip.Statement (.stW d a i g) := by
  intro h l1 l2
  refine decode_of ?_ rfl h
  refine (candidate_42 _ _ _ (fOp_encI ..)).trans ?_
  simp only [fD_encI, fA_encI, fImm_encI, fG_encI]
theorem Laws.RoundTrip.stD (d a : BitVec 5) (i : BitVec 10) (g : BitVec 5) : Laws.RoundTrip.Statement (.stD d a i g) := by
  intro h l1 l2
  refine decode_of ?_ rfl h
  refine (candidate_43 _ _ _ (fOp_encI ..)).trans ?_
  simp only [fD_encI, fA_encI, fImm_encI, fG_encI]
theorem Laws.RoundTrip.ldBMig (d a : BitVec 5) (i : BitVec 10) (g : BitVec 5) : Laws.RoundTrip.Statement (.ldBMig d a i g) := by
  intro h l1 l2
  refine decode_of ?_ rfl h
  refine (candidate_44 _ _ _ (fOp_encI ..)).trans ?_
  simp only [fD_encI, fA_encI, fImm_encI, fG_encI]
theorem Laws.RoundTrip.ldHMig (d a : BitVec 5) (i : BitVec 10) (g : BitVec 5) : Laws.RoundTrip.Statement (.ldHMig d a i g) := by
  intro h l1 l2
  refine decode_of ?_ rfl h
  refine (candidate_45 _ _ _ (fOp_encI ..)).trans ?_
  simp only [fD_encI, fA_encI, fImm_encI, fG_encI]
theorem Laws.RoundTrip.ldWMig (d a : BitVec 5) (i : BitVec 10) (g : BitVec 5) : Laws.RoundTrip.Statement (.ldWMig d a i g) := by
  intro h l1 l2
  refine decode_of ?_ rfl h
  refine (candidate_46 _ _ _ (fOp_encI ..)).trans ?_
  simp only [fD_encI, fA_encI, fImm_encI, fG_encI]
theorem Laws.RoundTrip.ldDMig (d a : BitVec 5) (i : BitVec 10) (g : BitVec 5) : Laws.RoundTrip.Statement (.ldDMig d a i g) := by
  intro h l1 l2
  refine decode_of ?_ rfl h
  refine (candidate_47 _ _ _ (fOp_encI ..)).trans ?_
  simp only [fD_encI, fA_encI, fImm_encI, fG_encI]
theorem Laws.RoundTrip.stBMig (d a : BitVec 5) (i : BitVec 10) (g : BitVec 5) : Laws.RoundTrip.Statement (.stBMig d a i g) := by
  intro h l1 l2
  refine decode_of ?_ rfl h
  refine (candidate_48 _ _ _ (fOp_encI ..)).trans ?_
  simp only [fD_encI, fA_encI, fImm_encI, fG_encI]
theorem Laws.RoundTrip.stHMig (d a : BitVec 5) (i : BitVec 10) (g : BitVec 5) : Laws.RoundTrip.Statement (.stHMig d a i g) := by
  intro h l1 l2
  refine decode_of ?_ rfl h
  refine (candidate_49 _ _ _ (fOp_encI ..)).trans ?_
  simp only [fD_encI, fA_encI, fImm_encI, fG_encI]
theorem Laws.RoundTrip.stWMig (d a : BitVec 5) (i : BitVec 10) (g : BitVec 5) : Laws.RoundTrip.Statement (.stWMig d a i g) := by
  intro h l1 l2
  refine decode_of ?_ rfl h
  refine (candidate_4A _ _ _ (fOp_encI ..)).trans ?_
  simp only [fD_encI, fA_encI, fImm_encI, fG_encI]
theorem Laws.RoundTrip.stDMig (d a : BitVec 5) (i : BitVec 10) (g : BitVec 5) : Laws.RoundTrip.Statement (.stDMig d a i g) := by
  intro h l1 l2
  refine decode_of ?_ rfl h
  refine (candidate_4B _ _ _ (fOp_encI ..)).trans ?_
  simp only [fD_encI, fA_encI, fImm_encI, fG_encI]
theorem Laws.RoundTrip.pref (a : BitVec 5) (i : BitVec 10) (g : BitVec 5) : Laws.RoundTrip.Statement (.pref a i g) := by
  intro h l1 l2
  refine decode_of ?_ rfl h
  refine (candidate_4C _ _ _ (fOp_encI ..)).trans ?_
  simp only [fD_encI, fA_encI, fImm_encI, fG_encI]
theorem Laws.RoundTrip.lde (d a : BitVec 5) (i : BitVec 10) (g : BitVec 5) : Laws.RoundTrip.Statement (.lde d a i g) := by
  intro h l1 l2
  refine decode_of ?_ rfl h
  refine (candidate_4D _ _ _ (fOp_encI ..)).trans ?_
  simp only [fD_encI, fA_encI, fImm_encI, fG_encI]
theorem Laws.RoundTrip.ldf (d a : BitVec 5) (i : BitVec 10) (g : BitVec 5) : Laws.RoundTrip.Statement (.ldf d a i g) := by
  intro h l1 l2
  refine decode_of ?_ rfl h
  refine (candidate_4E _ _ _ (fOp_encI ..)).trans ?_
  simp only [fD_encI, fA_encI, fImm_encI, fG_encI]
theorem Laws.RoundTrip.stf (d a : BitVec 5) (i : BitVec 10) (g : BitVec 5) : Laws.RoundTrip.Statement (.stf d a i g) := by
  intro h l1 l2
  refine decode_of ?_ rfl h
  refine (candidate_4F _ _ _ (fOp_encI ..)).trans ?_
  simp only [fD_encI, fA_encI, fImm_encI, fG_encI]
theorem Laws.RoundTrip.sts (d a : BitVec 5) (i : BitVec 10) (g : BitVec 5) : Laws.RoundTrip.Statement (.sts d a i g) := by
  intro h l1 l2
  refine decode_of ?_ rfl h
  refine (candidate_50 _ _ _ (fOp_encI ..)).trans ?_
  simp only [fD_encI, fA_encI, fImm_encI, fG_encI]
theorem Laws.RoundTrip.clre (a : BitVec 5) (i : BitVec 10) (g : BitVec 5) : Laws.RoundTrip.Statement (.clre a i g) := by
  intro h l1 l2
  refine decode_of ?_ rfl h
  refine (candidate_51 _ _ _ (fOp_encI ..)).trans ?_
  simp only [fD_encI, fA_encI, fImm_encI, fG_encI]
theorem Laws.RoundTrip.arm (d g : BitVec 5) : Laws.RoundTrip.Statement (.arm d g) := by
  intro h l1 l2
  refine decode_of ?_ rfl h
  refine (candidate_52 _ _ _ (fOp_encT ..)).trans ?_
  change decode52 (encT 0x52 d 0#5 0#5 0#5 g) l1 l2 = _
  simp only [decode52, fFn_encT, fD_encT, fA_encT, fB_encT, fG_encT, BitVec.toNat_ofNat, Nat.reducePow, Nat.reduceMod, Nat.zero_mod]
theorem Laws.RoundTrip.rfill (d a : BitVec 5) (b : Src) (g : BitVec 5) : Laws.RoundTrip.Statement (.rfill d a b g) := by
  intro h l1 l2
  refine decode_of ?_ rfl h
  have hb := srcOf_code b l1 l2 (Bool.and_eq_true_iff.mp h).2
  refine (candidate_52 _ _ _ (fOp_encT ..)).trans ?_
  change decode52 (encT 0x52 d a b.code 1#5 g) (b.words.getD 0 l1) (b.words.getD 1 l2) = _
  simp only [decode52, fFn_encT, fD_encT, fA_encT, fB_encT, fG_encT, hb, BitVec.toNat_ofNat, Nat.reducePow, Nat.reduceMod, Nat.zero_mod]
theorem Laws.RoundTrip.aadd (d a : BitVec 5) (b : Src) (g : BitVec 5) : Laws.RoundTrip.Statement (.aadd d a b g) := by
  intro h l1 l2
  refine decode_of ?_ rfl h
  have hb := srcOf_code b l1 l2 (Bool.and_eq_true_iff.mp h).2
  refine (candidate_53 _ _ _ (fOp_encT ..)).trans ?_
  change decode53 (encT 0x53 d a b.code 0#5 g) (b.words.getD 0 l1) (b.words.getD 1 l2) = _
  simp only [decode53, fFn_encT, fD_encT, fA_encT, fB_encT, fG_encT, hb, BitVec.toNat_ofNat, Nat.reducePow, Nat.reduceMod, Nat.zero_mod]
theorem Laws.RoundTrip.aminS (d a : BitVec 5) (b : Src) (g : BitVec 5) : Laws.RoundTrip.Statement (.aminS d a b g) := by
  intro h l1 l2
  refine decode_of ?_ rfl h
  have hb := srcOf_code b l1 l2 (Bool.and_eq_true_iff.mp h).2
  refine (candidate_53 _ _ _ (fOp_encT ..)).trans ?_
  change decode53 (encT 0x53 d a b.code 1#5 g) (b.words.getD 0 l1) (b.words.getD 1 l2) = _
  simp only [decode53, fFn_encT, fD_encT, fA_encT, fB_encT, fG_encT, hb, BitVec.toNat_ofNat, Nat.reducePow, Nat.reduceMod, Nat.zero_mod]
theorem Laws.RoundTrip.aminN (d a : BitVec 5) (b : Src) (g : BitVec 5) : Laws.RoundTrip.Statement (.aminN d a b g) := by
  intro h l1 l2
  refine decode_of ?_ rfl h
  have hb := srcOf_code b l1 l2 (Bool.and_eq_true_iff.mp h).2
  refine (candidate_53 _ _ _ (fOp_encT ..)).trans ?_
  change decode53 (encT 0x53 d a b.code 2#5 g) (b.words.getD 0 l1) (b.words.getD 1 l2) = _
  simp only [decode53, fFn_encT, fD_encT, fA_encT, fB_encT, fG_encT, hb, BitVec.toNat_ofNat, Nat.reducePow, Nat.reduceMod, Nat.zero_mod]
theorem Laws.RoundTrip.amaxS (d a : BitVec 5) (b : Src) (g : BitVec 5) : Laws.RoundTrip.Statement (.amaxS d a b g) := by
  intro h l1 l2
  refine decode_of ?_ rfl h
  have hb := srcOf_code b l1 l2 (Bool.and_eq_true_iff.mp h).2
  refine (candidate_53 _ _ _ (fOp_encT ..)).trans ?_
  change decode53 (encT 0x53 d a b.code 3#5 g) (b.words.getD 0 l1) (b.words.getD 1 l2) = _
  simp only [decode53, fFn_encT, fD_encT, fA_encT, fB_encT, fG_encT, hb, BitVec.toNat_ofNat, Nat.reducePow, Nat.reduceMod, Nat.zero_mod]
theorem Laws.RoundTrip.amaxN (d a : BitVec 5) (b : Src) (g : BitVec 5) : Laws.RoundTrip.Statement (.amaxN d a b g) := by
  intro h l1 l2
  refine decode_of ?_ rfl h
  have hb := srcOf_code b l1 l2 (Bool.and_eq_true_iff.mp h).2
  refine (candidate_53 _ _ _ (fOp_encT ..)).trans ?_
  change decode53 (encT 0x53 d a b.code 4#5 g) (b.words.getD 0 l1) (b.words.getD 1 l2) = _
  simp only [decode53, fFn_encT, fD_encT, fA_encT, fB_encT, fG_encT, hb, BitVec.toNat_ofNat, Nat.reducePow, Nat.reduceMod, Nat.zero_mod]
theorem Laws.RoundTrip.aand (d a : BitVec 5) (b : Src) (g : BitVec 5) : Laws.RoundTrip.Statement (.aand d a b g) := by
  intro h l1 l2
  refine decode_of ?_ rfl h
  have hb := srcOf_code b l1 l2 (Bool.and_eq_true_iff.mp h).2
  refine (candidate_53 _ _ _ (fOp_encT ..)).trans ?_
  change decode53 (encT 0x53 d a b.code 5#5 g) (b.words.getD 0 l1) (b.words.getD 1 l2) = _
  simp only [decode53, fFn_encT, fD_encT, fA_encT, fB_encT, fG_encT, hb, BitVec.toNat_ofNat, Nat.reducePow, Nat.reduceMod, Nat.zero_mod]
theorem Laws.RoundTrip.aor (d a : BitVec 5) (b : Src) (g : BitVec 5) : Laws.RoundTrip.Statement (.aor d a b g) := by
  intro h l1 l2
  refine decode_of ?_ rfl h
  have hb := srcOf_code b l1 l2 (Bool.and_eq_true_iff.mp h).2
  refine (candidate_53 _ _ _ (fOp_encT ..)).trans ?_
  change decode53 (encT 0x53 d a b.code 6#5 g) (b.words.getD 0 l1) (b.words.getD 1 l2) = _
  simp only [decode53, fFn_encT, fD_encT, fA_encT, fB_encT, fG_encT, hb, BitVec.toNat_ofNat, Nat.reducePow, Nat.reduceMod, Nat.zero_mod]
theorem Laws.RoundTrip.axor (d a : BitVec 5) (b : Src) (g : BitVec 5) : Laws.RoundTrip.Statement (.axor d a b g) := by
  intro h l1 l2
  refine decode_of ?_ rfl h
  have hb := srcOf_code b l1 l2 (Bool.and_eq_true_iff.mp h).2
  refine (candidate_53 _ _ _ (fOp_encT ..)).trans ?_
  change decode53 (encT 0x53 d a b.code 7#5 g) (b.words.getD 0 l1) (b.words.getD 1 l2) = _
  simp only [decode53, fFn_encT, fD_encT, fA_encT, fB_encT, fG_encT, hb, BitVec.toNat_ofNat, Nat.reducePow, Nat.reduceMod, Nat.zero_mod]
theorem Laws.RoundTrip.aswp (d a : BitVec 5) (b : Src) (g : BitVec 5) : Laws.RoundTrip.Statement (.aswp d a b g) := by
  intro h l1 l2
  refine decode_of ?_ rfl h
  have hb := srcOf_code b l1 l2 (Bool.and_eq_true_iff.mp h).2
  refine (candidate_53 _ _ _ (fOp_encT ..)).trans ?_
  change decode53 (encT 0x53 d a b.code 8#5 g) (b.words.getD 0 l1) (b.words.getD 1 l2) = _
  simp only [decode53, fFn_encT, fD_encT, fA_encT, fB_encT, fG_encT, hb, BitVec.toNat_ofNat, Nat.reducePow, Nat.reduceMod, Nat.zero_mod]
theorem Laws.RoundTrip.acas (d a : BitVec 5) (b : Src) (g : BitVec 5) : Laws.RoundTrip.Statement (.acas d a b g) := by
  intro h l1 l2
  refine decode_of ?_ rfl h
  have hb := srcOf_code b l1 l2 (Bool.and_eq_true_iff.mp h).2
  refine (candidate_53 _ _ _ (fOp_encT ..)).trans ?_
  change decode53 (encT 0x53 d a b.code 9#5 g) (b.words.getD 0 l1) (b.words.getD 1 l2) = _
  simp only [decode53, fFn_encT, fD_encT, fA_encT, fB_encT, fG_encT, hb, BitVec.toNat_ofNat, Nat.reducePow, Nat.reduceMod, Nat.zero_mod]
theorem Laws.RoundTrip.afadd (d a : BitVec 5) (b : Src) (g : BitVec 5) : Laws.RoundTrip.Statement (.afadd d a b g) := by
  intro h l1 l2
  refine decode_of ?_ rfl h
  have hb := srcOf_code b l1 l2 (Bool.and_eq_true_iff.mp h).2
  refine (candidate_53 _ _ _ (fOp_encT ..)).trans ?_
  change decode53 (encT 0x53 d a b.code 10#5 g) (b.words.getD 0 l1) (b.words.getD 1 l2) = _
  simp only [decode53, fFn_encT, fD_encT, fA_encT, fB_encT, fG_encT, hb, BitVec.toNat_ofNat, Nat.reducePow, Nat.reduceMod, Nat.zero_mod]
theorem Laws.RoundTrip.pst (a : BitVec 5) (b : Src) (g : BitVec 5) : Laws.RoundTrip.Statement (.pst a b g) := by
  intro h l1 l2
  refine decode_of ?_ rfl h
  have hb := srcOf_code b l1 l2 (Bool.and_eq_true_iff.mp h).2
  refine (candidate_54 _ _ _ (fOp_encT ..)).trans ?_
  change decode54 (encT 0x54 0#5 a b.code 0#5 g) (b.words.getD 0 l1) (b.words.getD 1 l2) = _
  simp only [decode54, fFn_encT, fD_encT, fA_encT, fB_encT, fG_encT, hb, BitVec.toNat_ofNat, Nat.reducePow, Nat.reduceMod, Nat.zero_mod]
theorem Laws.RoundTrip.pstF (a : BitVec 5) (b : Src) (g : BitVec 5) : Laws.RoundTrip.Statement (.pstF a b g) := by
  intro h l1 l2
  refine decode_of ?_ rfl h
  have hb := srcOf_code b l1 l2 (Bool.and_eq_true_iff.mp h).2
  refine (candidate_54 _ _ _ (fOp_encT ..)).trans ?_
  change decode54 (encT 0x54 0#5 a b.code 1#5 g) (b.words.getD 0 l1) (b.words.getD 1 l2) = _
  simp only [decode54, fFn_encT, fD_encT, fA_encT, fB_encT, fG_encT, hb, BitVec.toNat_ofNat, Nat.reducePow, Nat.reduceMod, Nat.zero_mod]
theorem Laws.RoundTrip.waitaEq (a : BitVec 5) (b : Src) (g : BitVec 5) : Laws.RoundTrip.Statement (.waitaEq a b g) := by
  intro h l1 l2
  refine decode_of ?_ rfl h
  have hb := srcOf_code b l1 l2 (Bool.and_eq_true_iff.mp h).2
  refine (candidate_55 _ _ _ (fOp_encT ..)).trans ?_
  change decode55 (encT 0x55 0#5 a b.code 0#5 g) (b.words.getD 0 l1) (b.words.getD 1 l2) = _
  simp only [decode55, fFn_encT, fD_encT, fA_encT, fB_encT, fG_encT, hb, BitVec.toNat_ofNat, Nat.reducePow, Nat.reduceMod, Nat.zero_mod]
theorem Laws.RoundTrip.waitaNe (a : BitVec 5) (b : Src) (g : BitVec 5) : Laws.RoundTrip.Statement (.waitaNe a b g) := by
  intro h l1 l2
  refine decode_of ?_ rfl h
  have hb := srcOf_code b l1 l2 (Bool.and_eq_true_iff.mp h).2
  refine (candidate_55 _ _ _ (fOp_encT ..)).trans ?_
  change decode55 (encT 0x55 0#5 a b.code 1#5 g) (b.words.getD 0 l1) (b.words.getD 1 l2) = _
  simp only [decode55, fFn_encT, fD_encT, fA_encT, fB_encT, fG_encT, hb, BitVec.toNat_ofNat, Nat.reducePow, Nat.reduceMod, Nat.zero_mod]
theorem Laws.RoundTrip.waitaHs (a : BitVec 5) (b : Src) (g : BitVec 5) : Laws.RoundTrip.Statement (.waitaHs a b g) := by
  intro h l1 l2
  refine decode_of ?_ rfl h
  have hb := srcOf_code b l1 l2 (Bool.and_eq_true_iff.mp h).2
  refine (candidate_55 _ _ _ (fOp_encT ..)).trans ?_
  change decode55 (encT 0x55 0#5 a b.code 2#5 g) (b.words.getD 0 l1) (b.words.getD 1 l2) = _
  simp only [decode55, fFn_encT, fD_encT, fA_encT, fB_encT, fG_encT, hb, BitVec.toNat_ofNat, Nat.reducePow, Nat.reduceMod, Nat.zero_mod]
theorem Laws.RoundTrip.waitaEqT (d a : BitVec 5) (b : Src) (g : BitVec 5) : Laws.RoundTrip.Statement (.waitaEqT d a b g) := by
  intro h l1 l2
  refine decode_of ?_ rfl h
  have hb := srcOf_code b l1 l2 (Bool.and_eq_true_iff.mp h).2
  refine (candidate_55 _ _ _ (fOp_encT ..)).trans ?_
  change decode55 (encT 0x55 d a b.code 16#5 g) (b.words.getD 0 l1) (b.words.getD 1 l2) = _
  simp only [decode55, fFn_encT, fD_encT, fA_encT, fB_encT, fG_encT, hb, BitVec.toNat_ofNat, Nat.reducePow, Nat.reduceMod, Nat.zero_mod]
theorem Laws.RoundTrip.waitaNeT (d a : BitVec 5) (b : Src) (g : BitVec 5) : Laws.RoundTrip.Statement (.waitaNeT d a b g) := by
  intro h l1 l2
  refine decode_of ?_ rfl h
  have hb := srcOf_code b l1 l2 (Bool.and_eq_true_iff.mp h).2
  refine (candidate_55 _ _ _ (fOp_encT ..)).trans ?_
  change decode55 (encT 0x55 d a b.code 17#5 g) (b.words.getD 0 l1) (b.words.getD 1 l2) = _
  simp only [decode55, fFn_encT, fD_encT, fA_encT, fB_encT, fG_encT, hb, BitVec.toNat_ofNat, Nat.reducePow, Nat.reduceMod, Nat.zero_mod]
theorem Laws.RoundTrip.waitaHsT (d a : BitVec 5) (b : Src) (g : BitVec 5) : Laws.RoundTrip.Statement (.waitaHsT d a b g) := by
  intro h l1 l2
  refine decode_of ?_ rfl h
  have hb := srcOf_code b l1 l2 (Bool.and_eq_true_iff.mp h).2
  refine (candidate_55 _ _ _ (fOp_encT ..)).trans ?_
  change decode55 (encT 0x55 d a b.code 18#5 g) (b.words.getD 0 l1) (b.words.getD 1 l2) = _
  simp only [decode55, fFn_encT, fD_encT, fA_encT, fB_encT, fG_encT, hb, BitVec.toNat_ofNat, Nat.reducePow, Nat.reduceMod, Nat.zero_mod]
theorem Laws.RoundTrip.fenceCore (g : BitVec 5) : Laws.RoundTrip.Statement (.fenceCore g) := by
  intro h l1 l2
  refine decode_of ?_ rfl h
  refine (candidate_56 _ _ _ (fOp_encT ..)).trans ?_
  change decode56 (encT 0x56 0#5 0#5 0#5 0#5 g) l1 l2 = _
  simp only [decode56, fFn_encT, fD_encT, fA_encT, fB_encT, fG_encT, BitVec.toNat_ofNat, Nat.reducePow, Nat.reduceMod, Nat.zero_mod]
theorem Laws.RoundTrip.fenceDev (g : BitVec 5) : Laws.RoundTrip.Statement (.fenceDev g) := by
  intro h l1 l2
  refine decode_of ?_ rfl h
  refine (candidate_56 _ _ _ (fOp_encT ..)).trans ?_
  change decode56 (encT 0x56 0#5 0#5 0#5 1#5 g) l1 l2 = _
  simp only [decode56, fFn_encT, fD_encT, fA_encT, fB_encT, fG_encT, BitVec.toNat_ofNat, Nat.reducePow, Nat.reduceMod, Nat.zero_mod]
theorem Laws.RoundTrip.fenceSys (g : BitVec 5) : Laws.RoundTrip.Statement (.fenceSys g) := by
  intro h l1 l2
  refine decode_of ?_ rfl h
  refine (candidate_56 _ _ _ (fOp_encT ..)).trans ?_
  change decode56 (encT 0x56 0#5 0#5 0#5 2#5 g) l1 l2 = _
  simp only [decode56, fFn_encT, fD_encT, fA_encT, fB_encT, fG_encT, BitVec.toNat_ofNat, Nat.reducePow, Nat.reduceMod, Nat.zero_mod]
theorem Laws.RoundTrip.xfence (a : BitVec 5) (b : Src) (g : BitVec 5) : Laws.RoundTrip.Statement (.xfence a b g) := by
  intro h l1 l2
  refine decode_of ?_ rfl h
  have hb := srcOf_code b l1 l2 (Bool.and_eq_true_iff.mp h).2
  refine (candidate_56 _ _ _ (fOp_encT ..)).trans ?_
  change decode56 (encT 0x56 0#5 a b.code 3#5 g) (b.words.getD 0 l1) (b.words.getD 1 l2) = _
  simp only [decode56, fFn_encT, fD_encT, fA_encT, fB_encT, fG_encT, hb, BitVec.toNat_ofNat, Nat.reducePow, Nat.reduceMod, Nat.zero_mod]
theorem Laws.RoundTrip.chend (g : BitVec 5) : Laws.RoundTrip.Statement (.chend g) := by
  intro h l1 l2
  refine decode_of ?_ rfl h
  refine (candidate_56 _ _ _ (fOp_encT ..)).trans ?_
  change decode56 (encT 0x56 0#5 0#5 0#5 4#5 g) l1 l2 = _
  simp only [decode56, fFn_encT, fD_encT, fA_encT, fB_encT, fG_encT, BitVec.toNat_ofNat, Nat.reducePow, Nat.reduceMod, Nat.zero_mod]
theorem Laws.RoundTrip.spawn (d a : BitVec 5) (b : Src) (n g : BitVec 5) : Laws.RoundTrip.Statement (.spawn d a b n g) := by
  intro h l1 l2
  refine decode_of ?_ rfl h
  have hb : srcOf b.code ((encode (.spawn d a b n g)).getD 1 l1) ((encode (.spawn d a b n g)).getD 2 l2) = b := srcOf_code b l1 l2 (Bool.and_eq_true_iff.mp (Bool.and_eq_true_iff.mp (Bool.and_eq_true_iff.mp h).1).1).2
  refine (candidate_58 _ _ _ (fOp_encT ..)).trans ?_
  simp only [fFn_encT, fD_encT, fA_encT, fB_encT, fG_encT, hb]
theorem Laws.RoundTrip.quit (g : BitVec 5) : Laws.RoundTrip.Statement (.quit g) := by
  intro h l1 l2
  refine decode_of ?_ rfl h
  refine (candidate_59 _ _ _ (fOp_encT ..)).trans ?_
  change decode59 (encT 0x59 0#5 0#5 0#5 0#5 g)  = _
  simp only [decode59, fFn_encT, fD_encT, fA_encT, fB_encT, fG_encT, BitVec.toNat_ofNat, Nat.reducePow, Nat.reduceMod, Nat.zero_mod]
theorem Laws.RoundTrip.yield (g : BitVec 5) : Laws.RoundTrip.Statement (.yield g) := by
  intro h l1 l2
  refine decode_of ?_ rfl h
  refine (candidate_59 _ _ _ (fOp_encT ..)).trans ?_
  change decode59 (encT 0x59 0#5 0#5 0#5 1#5 g)  = _
  simp only [decode59, fFn_encT, fD_encT, fA_encT, fB_encT, fG_encT, BitVec.toNat_ofNat, Nat.reducePow, Nat.reduceMod, Nat.zero_mod]
theorem Laws.RoundTrip.hend (g : BitVec 5) : Laws.RoundTrip.Statement (.hend g) := by
  intro h l1 l2
  refine decode_of ?_ rfl h
  refine (candidate_59 _ _ _ (fOp_encT ..)).trans ?_
  change decode59 (encT 0x59 0#5 0#5 0#5 2#5 g)  = _
  simp only [decode59, fFn_encT, fD_encT, fA_encT, fB_encT, fG_encT, BitVec.toNat_ofNat, Nat.reducePow, Nat.reduceMod, Nat.zero_mod]
theorem Laws.RoundTrip.publ (g : BitVec 5) : Laws.RoundTrip.Statement (.publ g) := by
  intro h l1 l2
  refine decode_of ?_ rfl h
  refine (candidate_59 _ _ _ (fOp_encT ..)).trans ?_
  change decode59 (encT 0x59 0#5 0#5 0#5 3#5 g)  = _
  simp only [decode59, fFn_encT, fD_encT, fA_encT, fB_encT, fG_encT, BitVec.toNat_ofNat, Nat.reducePow, Nat.reduceMod, Nat.zero_mod]
theorem Laws.RoundTrip.sdrop (g : BitVec 5) : Laws.RoundTrip.Statement (.sdrop g) := by
  intro h l1 l2
  refine decode_of ?_ rfl h
  refine (candidate_59 _ _ _ (fOp_encT ..)).trans ?_
  change decode59 (encT 0x59 0#5 0#5 0#5 4#5 g)  = _
  simp only [decode59, fFn_encT, fD_encT, fA_encT, fB_encT, fG_encT, BitVec.toNat_ofNat, Nat.reducePow, Nat.reduceMod, Nat.zero_mod]
theorem Laws.RoundTrip.join (a : BitVec 5) (b : Src) (g : BitVec 5) : Laws.RoundTrip.Statement (.join a b g) := by
  intro h l1 l2
  refine decode_of ?_ rfl h
  have hb := srcOf_code b l1 l2 (Bool.and_eq_true_iff.mp h).2
  refine (candidate_5A _ _ _ (fOp_encT ..)).trans ?_
  change decode5A (encT 0x5A 0#5 a b.code 0#5 g) (b.words.getD 0 l1) (b.words.getD 1 l2) = _
  simp only [decode5A, fFn_encT, fD_encT, fA_encT, fB_encT, fG_encT, hb, BitVec.toNat_ofNat, Nat.reducePow, Nat.reduceMod, Nat.zero_mod]
theorem Laws.RoundTrip.leave (a g : BitVec 5) : Laws.RoundTrip.Statement (.leave a g) := by
  intro h l1 l2
  refine decode_of ?_ rfl h
  refine (candidate_5A _ _ _ (fOp_encT ..)).trans ?_
  change decode5A (encT 0x5A 0#5 a 0#5 1#5 g) l1 l2 = _
  simp only [decode5A, fFn_encT, fD_encT, fA_encT, fB_encT, fG_encT, BitVec.toNat_ofNat, Nat.reducePow, Nat.reduceMod, Nat.zero_mod]
theorem Laws.RoundTrip.gbar (a g : BitVec 5) : Laws.RoundTrip.Statement (.gbar a g) := by
  intro h l1 l2
  refine decode_of ?_ rfl h
  refine (candidate_5A _ _ _ (fOp_encT ..)).trans ?_
  change decode5A (encT 0x5A 0#5 a 0#5 2#5 g) l1 l2 = _
  simp only [decode5A, fFn_encT, fD_encT, fA_encT, fB_encT, fG_encT, BitVec.toNat_ofNat, Nat.reducePow, Nat.reduceMod, Nat.zero_mod]
theorem Laws.RoundTrip.migr (a : BitVec 5) (b : Src) (g : BitVec 5) : Laws.RoundTrip.Statement (.migr a b g) := by
  intro h l1 l2
  refine decode_of ?_ rfl h
  have hb : srcOf b.code ((encode (.migr a b g)).getD 1 l1) ((encode (.migr a b g)).getD 2 l2) = b := srcOf_code b l1 l2 (Bool.and_eq_true_iff.mp h).2
  refine (candidate_5B _ _ _ (fOp_encT ..)).trans ?_
  simp only [fFn_encT, fD_encT, fA_encT, fB_encT, fG_encT, hb]
theorem Laws.RoundTrip.send (d a n g : BitVec 5) : Laws.RoundTrip.Statement (.send d a n g) := by
  intro h l1 l2
  refine decode_of ?_ rfl h
  refine (candidate_5C _ _ _ (fOp_encT ..)).trans ?_
  simp only [fFn_encT, fD_encT, fA_encT, fB_encT, fG_encT]
theorem Laws.RoundTrip.watch (d a g : BitVec 5) : Laws.RoundTrip.Statement (.watch d a g) := by
  intro h l1 l2
  refine decode_of ?_ rfl h
  refine (candidate_5D _ _ _ (fOp_encT ..)).trans ?_
  change decode5D (encT 0x5D d a 0#5 0#5 g)  = _
  simp only [decode5D, fFn_encT, fD_encT, fA_encT, fB_encT, fG_encT, BitVec.toNat_ofNat, Nat.reducePow, Nat.reduceMod, Nat.zero_mod]
theorem Laws.RoundTrip.unwatch (a g : BitVec 5) : Laws.RoundTrip.Statement (.unwatch a g) := by
  intro h l1 l2
  refine decode_of ?_ rfl h
  refine (candidate_5D _ _ _ (fOp_encT ..)).trans ?_
  change decode5D (encT 0x5D 0#5 a 0#5 1#5 g)  = _
  simp only [decode5D, fFn_encT, fD_encT, fA_encT, fB_encT, fG_encT, BitVec.toNat_ofNat, Nat.reducePow, Nat.reduceMod, Nat.zero_mod]
theorem Laws.RoundTrip.launch (d a g : BitVec 5) : Laws.RoundTrip.Statement (.launch d a g) := by
  intro h l1 l2
  refine decode_of ?_ rfl h
  refine (candidate_5E _ _ _ (fOp_encT ..)).trans ?_
  simp only [fFn_encT, fD_encT, fA_encT, fB_encT, fG_encT]
theorem Laws.RoundTrip.mzero (x : BitVec 1) (g : BitVec 5) : Laws.RoundTrip.Statement (.mzero x g) := by
  intro h l1 l2
  refine decode_of ?_ rfl h
  refine (candidate_60 _ _ _ (fOp_encE ..)).trans ?_
  change decode60 (encE 0x60 (0#7 ++ x) 0#5 0#5 g)  = _
  simp (disch := omega) only [decode60, fEop_encE, fEa_encE, fEb_encE, fG_encE, low_append, high_append, BitVec.extractLsb'_append_eq_of_le, BitVec.toNat_ofNat, Nat.reducePow, Nat.reduceMod, Nat.zero_mod]
  rfl
theorem Laws.RoundTrip.mma (x : BitVec 1) (a b g : BitVec 5) : Laws.RoundTrip.Statement (.mma x a b g) := by
  intro h l1 l2
  refine decode_of ?_ rfl h
  refine (candidate_60 _ _ _ (fOp_encE ..)).trans ?_
  change decode60 (encE 0x60 (1#7 ++ x) a b g)  = _
  simp (disch := omega) only [decode60, fEop_encE, fEa_encE, fEb_encE, fG_encE, low_append, high_append, BitVec.extractLsb'_append_eq_of_le, BitVec.toNat_ofNat, Nat.reducePow, Nat.reduceMod, Nat.zero_mod]
  rfl
theorem Laws.RoundTrip.mring (x : BitVec 1) (a g : BitVec 5) : Laws.RoundTrip.Statement (.mring x a g) := by
  intro h l1 l2
  refine decode_of ?_ rfl h
  refine (candidate_60 _ _ _ (fOp_encE ..)).trans ?_
  change decode60 (encE 0x60 (2#7 ++ x) a 0#5 g)  = _
  simp (disch := omega) only [decode60, fEop_encE, fEa_encE, fEb_encE, fG_encE, low_append, high_append, BitVec.extractLsb'_append_eq_of_le, BitVec.toNat_ofNat, Nat.reducePow, Nat.reduceMod, Nat.zero_mod]
  rfl
theorem Laws.RoundTrip.mldb (a g : BitVec 5) : Laws.RoundTrip.Statement (.mldb a g) := by
  intro h l1 l2
  refine decode_of ?_ rfl h
  refine (candidate_60 _ _ _ (fOp_encE ..)).trans ?_
  change decode60 (encE 0x60 6#8 a 0#5 g)  = _
  simp (disch := omega) only [decode60, fEop_encE, fEa_encE, fEb_encE, fG_encE, BitVec.toNat_ofNat, Nat.reducePow, Nat.reduceMod, Nat.zero_mod]
  rfl
theorem Laws.RoundTrip.mstore (x : BitVec 1) (a g : BitVec 5) : Laws.RoundTrip.Statement (.mstore x a g) := by
  intro h l1 l2
  refine decode_of ?_ rfl h
  refine (candidate_60 _ _ _ (fOp_encE ..)).trans ?_
  change decode60 (encE 0x60 (4#7 ++ x) a 0#5 g)  = _
  simp (disch := omega) only [decode60, fEop_encE, fEa_encE, fEb_encE, fG_encE, low_append, high_append, BitVec.extractLsb'_append_eq_of_le, BitVec.toNat_ofNat, Nat.reducePow, Nat.reduceMod, Nat.zero_mod]
  rfl
theorem Laws.RoundTrip.maccLd (x : BitVec 1) (a g : BitVec 5) : Laws.RoundTrip.Statement (.maccLd x a g) := by
  intro h l1 l2
  refine decode_of ?_ rfl h
  refine (candidate_60 _ _ _ (fOp_encE ..)).trans ?_
  change decode60 (encE 0x60 (5#7 ++ x) a 0#5 g)  = _
  simp (disch := omega) only [decode60, fEop_encE, fEa_encE, fEb_encE, fG_encE, low_append, high_append, BitVec.extractLsb'_append_eq_of_le, BitVec.toNat_ofNat, Nat.reducePow, Nat.reduceMod, Nat.zero_mod]
  rfl
theorem Laws.RoundTrip.maccAdd (x : BitVec 1) (a g : BitVec 5) : Laws.RoundTrip.Statement (.maccAdd x a g) := by
  intro h l1 l2
  refine decode_of ?_ rfl h
  refine (candidate_60 _ _ _ (fOp_encE ..)).trans ?_
  change decode60 (encE 0x60 (6#7 ++ x) a 0#5 g)  = _
  simp (disch := omega) only [decode60, fEop_encE, fEa_encE, fEb_encE, fG_encE, low_append, high_append, BitVec.extractLsb'_append_eq_of_le, BitVec.toNat_ofNat, Nat.reducePow, Nat.reduceMod, Nat.zero_mod]
  rfl
theorem Laws.RoundTrip.mcfg (r : BitVec 6) (a g : BitVec 5) : Laws.RoundTrip.Statement (.mcfg r a g) := by
  intro h l1 l2
  refine decode_of ?_ rfl h
  refine (candidate_60 _ _ _ (fOp_encE ..)).trans ?_
  change decode60 (encE 0x60 (2#2 ++ r) a 0#5 g)  = _
  simp (disch := omega) only [decode60, fEop_encE, fEa_encE, fEb_encE, fG_encE, low_append, high_append, BitVec.extractLsb'_append_eq_of_le, BitVec.toNat_ofNat, Nat.reducePow, Nat.reduceMod, Nat.zero_mod]
  rfl
theorem Laws.RoundTrip.mget (r : BitVec 6) (a g : BitVec 5) : Laws.RoundTrip.Statement (.mget r a g) := by
  intro h l1 l2
  refine decode_of ?_ rfl h
  refine (candidate_60 _ _ _ (fOp_encE ..)).trans ?_
  change decode60 (encE 0x60 (3#2 ++ r) a 0#5 g)  = _
  simp (disch := omega) only [decode60, fEop_encE, fEa_encE, fEb_encE, fG_encE, low_append, high_append, BitVec.extractLsb'_append_eq_of_le, BitVec.toNat_ofNat, Nat.reducePow, Nat.reduceMod, Nat.zero_mod]
  rfl
theorem Laws.RoundTrip.snormClr (g : BitVec 5) : Laws.RoundTrip.Statement (.snormClr g) := by
  intro h l1 l2
  refine decode_of ?_ rfl h
  refine (candidate_61 _ _ _ (fOp_encE ..)).trans ?_
  change decode61 (encE 0x61 0#8 0#5 0#5 g)  = _
  simp only [decode61, fEop_encE, fEa_encE, fEb_encE, fG_encE, BitVec.toNat_ofNat, Nat.reducePow, Nat.reduceMod, Nat.zero_mod]
  rfl
theorem Laws.RoundTrip.snormA (a b g : BitVec 5) : Laws.RoundTrip.Statement (.snormA a b g) := by
  intro h l1 l2
  refine decode_of ?_ rfl h
  refine (candidate_61 _ _ _ (fOp_encE ..)).trans ?_
  change decode61 (encE 0x61 2#8 a b g)  = _
  simp only [decode61, fEop_encE, fEa_encE, fEb_encE, fG_encE, BitVec.toNat_ofNat, Nat.reducePow, Nat.reduceMod, Nat.zero_mod]
  rfl
theorem Laws.RoundTrip.snormB (a b g : BitVec 5) : Laws.RoundTrip.Statement (.snormB a b g) := by
  intro h l1 l2
  refine decode_of ?_ rfl h
  refine (candidate_61 _ _ _ (fOp_encE ..)).trans ?_
  change decode61 (encE 0x61 3#8 a b g)  = _
  simp only [decode61, fEop_encE, fEa_encE, fEb_encE, fG_encE, BitVec.toNat_ofNat, Nat.reducePow, Nat.reduceMod, Nat.zero_mod]
  rfl
theorem Laws.RoundTrip.sngetA (a g : BitVec 5) : Laws.RoundTrip.Statement (.sngetA a g) := by
  intro h l1 l2
  refine decode_of ?_ rfl h
  refine (candidate_61 _ _ _ (fOp_encE ..)).trans ?_
  change decode61 (encE 0x61 4#8 a 0#5 g)  = _
  simp only [decode61, fEop_encE, fEa_encE, fEb_encE, fG_encE, BitVec.toNat_ofNat, Nat.reducePow, Nat.reduceMod, Nat.zero_mod]
  rfl
theorem Laws.RoundTrip.sngetB (a g : BitVec 5) : Laws.RoundTrip.Statement (.sngetB a g) := by
  intro h l1 l2
  refine decode_of ?_ rfl h
  refine (candidate_61 _ _ _ (fOp_encE ..)).trans ?_
  change decode61 (encE 0x61 5#8 a 0#5 g)  = _
  simp only [decode61, fEop_encE, fEa_encE, fEb_encE, fG_encE, BitVec.toNat_ofNat, Nat.reducePow, Nat.reduceMod, Nat.zero_mod]
  rfl
theorem Laws.RoundTrip.snputA (a g : BitVec 5) : Laws.RoundTrip.Statement (.snputA a g) := by
  intro h l1 l2
  refine decode_of ?_ rfl h
  refine (candidate_61 _ _ _ (fOp_encE ..)).trans ?_
  change decode61 (encE 0x61 6#8 a 0#5 g)  = _
  simp only [decode61, fEop_encE, fEa_encE, fEb_encE, fG_encE, BitVec.toNat_ofNat, Nat.reducePow, Nat.reduceMod, Nat.zero_mod]
  rfl
theorem Laws.RoundTrip.snputB (a g : BitVec 5) : Laws.RoundTrip.Statement (.snputB a g) := by
  intro h l1 l2
  refine decode_of ?_ rfl h
  refine (candidate_61 _ _ _ (fOp_encE ..)).trans ?_
  change decode61 (encE 0x61 7#8 a 0#5 g)  = _
  simp only [decode61, fEop_encE, fEa_encE, fEb_encE, fG_encE, BitVec.toNat_ofNat, Nat.reducePow, Nat.reduceMod, Nat.zero_mod]
  rfl
theorem Laws.RoundTrip.salias (g : BitVec 5) : Laws.RoundTrip.Statement (.salias g) := by
  intro h l1 l2
  refine decode_of ?_ rfl h
  refine (candidate_61 _ _ _ (fOp_encE ..)).trans ?_
  change decode61 (encE 0x61 8#8 0#5 0#5 g)  = _
  simp only [decode61, fEop_encE, fEa_encE, fEb_encE, fG_encE, BitVec.toNat_ofNat, Nat.reducePow, Nat.reduceMod, Nat.zero_mod]
  rfl
theorem Laws.RoundTrip.sseed (a g : BitVec 5) : Laws.RoundTrip.Statement (.sseed a g) := by
  intro h l1 l2
  refine decode_of ?_ rfl h
  refine (candidate_61 _ _ _ (fOp_encE ..)).trans ?_
  change decode61 (encE 0x61 9#8 a 0#5 g)  = _
  simp only [decode61, fEop_encE, fEa_encE, fEb_encE, fG_encE, BitVec.toNat_ofNat, Nat.reducePow, Nat.reduceMod, Nat.zero_mod]
  rfl
theorem Laws.RoundTrip.srun (x : BitVec 1) (a b g : BitVec 5) : Laws.RoundTrip.Statement (.srun x a b g) := by
  intro h l1 l2
  refine decode_of ?_ rfl h
  refine (candidate_61 _ _ _ (fOp_encE ..)).trans ?_
  change decode61 (encE 0x61 (5#7 ++ x) a b g)  = _
  simp only [decode61, fEop_encE, fEa_encE, fEb_encE, fG_encE, low_append, high_append, BitVec.toNat_ofNat, Nat.reducePow, Nat.reduceMod, Nat.zero_mod]
theorem Laws.RoundTrip.svar (x : BitVec 1) (a g : BitVec 5) : Laws.RoundTrip.Statement (.svar x a g) := by
  intro h l1 l2
  refine decode_of ?_ rfl h
  refine (candidate_61 _ _ _ (fOp_encE ..)).trans ?_
  change decode61 (encE 0x61 (6#7 ++ x) a 0#5 g)  = _
  simp only [decode61, fEop_encE, fEa_encE, fEb_encE, fG_encE, low_append, high_append, BitVec.toNat_ofNat, Nat.reducePow, Nat.reduceMod, Nat.zero_mod]
theorem Laws.RoundTrip.pload (a b g : BitVec 5) : Laws.RoundTrip.Statement (.pload a b g) := by
  intro h l1 l2
  refine decode_of ?_ rfl h
  refine (candidate_61 _ _ _ (fOp_encE ..)).trans ?_
  change decode61 (encE 0x61 16#8 a b g)  = _
  simp only [decode61, fEop_encE, fEa_encE, fEb_encE, fG_encE, BitVec.toNat_ofNat, Nat.reducePow, Nat.reduceMod, Nat.zero_mod]
  rfl
theorem Laws.RoundTrip.pscore (a g : BitVec 5) : Laws.RoundTrip.Statement (.pscore a g) := by
  intro h l1 l2
  refine decode_of ?_ rfl h
  refine (candidate_61 _ _ _ (fOp_encE ..)).trans ?_
  change decode61 (encE 0x61 17#8 a 0#5 g)  = _
  simp only [decode61, fEop_encE, fEa_encE, fEb_encE, fG_encE, BitVec.toNat_ofNat, Nat.reducePow, Nat.reduceMod, Nat.zero_mod]
  rfl
theorem Laws.RoundTrip.psel (a g : BitVec 5) : Laws.RoundTrip.Statement (.psel a g) := by
  intro h l1 l2
  refine decode_of ?_ rfl h
  refine (candidate_61 _ _ _ (fOp_encE ..)).trans ?_
  change decode61 (encE 0x61 18#8 a 0#5 g)  = _
  simp only [decode61, fEop_encE, fEa_encE, fEb_encE, fG_encE, BitVec.toNat_ofNat, Nat.reducePow, Nat.reduceMod, Nat.zero_mod]
  rfl
theorem Laws.RoundTrip.assay (x : BitVec 1) (a b g : BitVec 5) : Laws.RoundTrip.Statement (.assay x a b g) := by
  intro h l1 l2
  refine decode_of ?_ rfl h
  refine (candidate_61 _ _ _ (fOp_encE ..)).trans ?_
  change decode61 (encE 0x61 (10#7 ++ x) a b g)  = _
  simp only [decode61, fEop_encE, fEa_encE, fEb_encE, fG_encE, low_append, high_append, BitVec.toNat_ofNat, Nat.reducePow, Nat.reduceMod, Nat.zero_mod]
theorem Laws.RoundTrip.aread (a b g : BitVec 5) : Laws.RoundTrip.Statement (.aread a b g) := by
  intro h l1 l2
  refine decode_of ?_ rfl h
  refine (candidate_61 _ _ _ (fOp_encE ..)).trans ?_
  change decode61 (encE 0x61 22#8 a b g)  = _
  simp only [decode61, fEop_encE, fEa_encE, fEb_encE, fG_encE, BitVec.toNat_ofNat, Nat.reducePow, Nat.reduceMod, Nat.zero_mod]
  rfl
theorem Laws.RoundTrip.vadd (d a b : BitVec 4) (m : BitVec 2) (g : BitVec 5) : Laws.RoundTrip.Statement (.vadd d a b m g) := by
  intro h l1 l2
  refine decode_of ?_ rfl h
  refine (candidate_62 _ _ _ (fOp_encV ..)).trans ?_
  change decode62 (encV 0x62 0#6 d a b m g)  = _
  simp only [decode62, fVop_encV, fVd_encV, fVa_encV, fVb_encV, fVm_encV, fG_encV, BitVec.toNat_ofNat, Nat.reducePow, Nat.reduceMod, Nat.zero_mod]
  rfl
theorem Laws.RoundTrip.vsub (d a b : BitVec 4) (m : BitVec 2) (g : BitVec 5) : Laws.RoundTrip.Statement (.vsub d a b m g) := by
  intro h l1 l2
  refine decode_of ?_ rfl h
  refine (candidate_62 _ _ _ (fOp_encV ..)).trans ?_
  change decode62 (encV 0x62 1#6 d a b m g)  = _
  simp only [decode62, fVop_encV, fVd_encV, fVa_encV, fVb_encV, fVm_encV, fG_encV, BitVec.toNat_ofNat, Nat.reducePow, Nat.reduceMod, Nat.zero_mod]
  rfl
theorem Laws.RoundTrip.vmul (d a b : BitVec 4) (m : BitVec 2) (g : BitVec 5) : Laws.RoundTrip.Statement (.vmul d a b m g) := by
  intro h l1 l2
  refine decode_of ?_ rfl h
  refine (candidate_62 _ _ _ (fOp_encV ..)).trans ?_
  change decode62 (encV 0x62 2#6 d a b m g)  = _
  simp only [decode62, fVop_encV, fVd_encV, fVa_encV, fVb_encV, fVm_encV, fG_encV, BitVec.toNat_ofNat, Nat.reducePow, Nat.reduceMod, Nat.zero_mod]
  rfl
theorem Laws.RoundTrip.vfma (d a b : BitVec 4) (m : BitVec 2) (g : BitVec 5) : Laws.RoundTrip.Statement (.vfma d a b m g) := by
  intro h l1 l2
  refine decode_of ?_ rfl h
  refine (candidate_62 _ _ _ (fOp_encV ..)).trans ?_
  change decode62 (encV 0x62 3#6 d a b m g)  = _
  simp only [decode62, fVop_encV, fVd_encV, fVa_encV, fVb_encV, fVm_encV, fG_encV, BitVec.toNat_ofNat, Nat.reducePow, Nat.reduceMod, Nat.zero_mod]
  rfl
theorem Laws.RoundTrip.vmin (d a b : BitVec 4) (m : BitVec 2) (g : BitVec 5) : Laws.RoundTrip.Statement (.vmin d a b m g) := by
  intro h l1 l2
  refine decode_of ?_ rfl h
  refine (candidate_62 _ _ _ (fOp_encV ..)).trans ?_
  change decode62 (encV 0x62 4#6 d a b m g)  = _
  simp only [decode62, fVop_encV, fVd_encV, fVa_encV, fVb_encV, fVm_encV, fG_encV, BitVec.toNat_ofNat, Nat.reducePow, Nat.reduceMod, Nat.zero_mod]
  rfl
theorem Laws.RoundTrip.vmax (d a b : BitVec 4) (m : BitVec 2) (g : BitVec 5) : Laws.RoundTrip.Statement (.vmax d a b m g) := by
  intro h l1 l2
  refine decode_of ?_ rfl h
  refine (candidate_62 _ _ _ (fOp_encV ..)).trans ?_
  change decode62 (encV 0x62 5#6 d a b m g)  = _
  simp only [decode62, fVop_encV, fVd_encV, fVa_encV, fVb_encV, fVm_encV, fG_encV, BitVec.toNat_ofNat, Nat.reducePow, Nat.reduceMod, Nat.zero_mod]
  rfl
theorem Laws.RoundTrip.vabs (d a : BitVec 4) (m : BitVec 2) (g : BitVec 5) : Laws.RoundTrip.Statement (.vabs d a m g) := by
  intro h l1 l2
  refine decode_of ?_ rfl h
  refine (candidate_62 _ _ _ (fOp_encV ..)).trans ?_
  change decode62 (encV 0x62 6#6 d a 0#4 m g)  = _
  simp only [decode62, fVop_encV, fVd_encV, fVa_encV, fVb_encV, fVm_encV, fG_encV, BitVec.toNat_ofNat, Nat.reducePow, Nat.reduceMod, Nat.zero_mod]
  rfl
theorem Laws.RoundTrip.vneg (d a : BitVec 4) (m : BitVec 2) (g : BitVec 5) : Laws.RoundTrip.Statement (.vneg d a m g) := by
  intro h l1 l2
  refine decode_of ?_ rfl h
  refine (candidate_62 _ _ _ (fOp_encV ..)).trans ?_
  change decode62 (encV 0x62 7#6 d a 0#4 m g)  = _
  simp only [decode62, fVop_encV, fVd_encV, fVa_encV, fVb_encV, fVm_encV, fG_encV, BitVec.toNat_ofNat, Nat.reducePow, Nat.reduceMod, Nat.zero_mod]
  rfl
theorem Laws.RoundTrip.vrndRne (d a : BitVec 4) (m : BitVec 2) (g : BitVec 5) : Laws.RoundTrip.Statement (.vrndRne d a m g) := by
  intro h l1 l2
  refine decode_of ?_ rfl h
  refine (candidate_62 _ _ _ (fOp_encV ..)).trans ?_
  change decode62 (encV 0x62 8#6 d a 0#4 m g)  = _
  simp only [decode62, fVop_encV, fVd_encV, fVa_encV, fVb_encV, fVm_encV, fG_encV, BitVec.toNat_ofNat, Nat.reducePow, Nat.reduceMod, Nat.zero_mod]
  rfl
theorem Laws.RoundTrip.vrndRz (d a : BitVec 4) (m : BitVec 2) (g : BitVec 5) : Laws.RoundTrip.Statement (.vrndRz d a m g) := by
  intro h l1 l2
  refine decode_of ?_ rfl h
  refine (candidate_62 _ _ _ (fOp_encV ..)).trans ?_
  change decode62 (encV 0x62 9#6 d a 0#4 m g)  = _
  simp only [decode62, fVop_encV, fVd_encV, fVa_encV, fVb_encV, fVm_encV, fG_encV, BitVec.toNat_ofNat, Nat.reducePow, Nat.reduceMod, Nat.zero_mod]
  rfl
theorem Laws.RoundTrip.vrndRd (d a : BitVec 4) (m : BitVec 2) (g : BitVec 5) : Laws.RoundTrip.Statement (.vrndRd d a m g) := by
  intro h l1 l2
  refine decode_of ?_ rfl h
  refine (candidate_62 _ _ _ (fOp_encV ..)).trans ?_
  change decode62 (encV 0x62 10#6 d a 0#4 m g)  = _
  simp only [decode62, fVop_encV, fVd_encV, fVa_encV, fVb_encV, fVm_encV, fG_encV, BitVec.toNat_ofNat, Nat.reducePow, Nat.reduceMod, Nat.zero_mod]
  rfl
theorem Laws.RoundTrip.vrndRu (d a : BitVec 4) (m : BitVec 2) (g : BitVec 5) : Laws.RoundTrip.Statement (.vrndRu d a m g) := by
  intro h l1 l2
  refine decode_of ?_ rfl h
  refine (candidate_62 _ _ _ (fOp_encV ..)).trans ?_
  change decode62 (encV 0x62 11#6 d a 0#4 m g)  = _
  simp only [decode62, fVop_encV, fVd_encV, fVa_encV, fVb_encV, fVm_encV, fG_encV, BitVec.toNat_ofNat, Nat.reducePow, Nat.reduceMod, Nat.zero_mod]
  rfl
theorem Laws.RoundTrip.vfexp2 (d a : BitVec 4) (m : BitVec 2) (g : BitVec 5) : Laws.RoundTrip.Statement (.vfexp2 d a m g) := by
  intro h l1 l2
  refine decode_of ?_ rfl h
  refine (candidate_62 _ _ _ (fOp_encV ..)).trans ?_
  change decode62 (encV 0x62 12#6 d a 0#4 m g)  = _
  simp only [decode62, fVop_encV, fVd_encV, fVa_encV, fVb_encV, fVm_encV, fG_encV, BitVec.toNat_ofNat, Nat.reducePow, Nat.reduceMod, Nat.zero_mod]
  rfl
theorem Laws.RoundTrip.vscale (d a b : BitVec 4) (m : BitVec 2) (g : BitVec 5) : Laws.RoundTrip.Statement (.vscale d a b m g) := by
  intro h l1 l2
  refine decode_of ?_ rfl h
  refine (candidate_62 _ _ _ (fOp_encV ..)).trans ?_
  change decode62 (encV 0x62 13#6 d a b m g)  = _
  simp only [decode62, fVop_encV, fVd_encV, fVa_encV, fVb_encV, fVm_encV, fG_encV, BitVec.toNat_ofNat, Nat.reducePow, Nat.reduceMod, Nat.zero_mod]
  rfl
theorem Laws.RoundTrip.vrcp (d a : BitVec 4) (m : BitVec 2) (g : BitVec 5) : Laws.RoundTrip.Statement (.vrcp d a m g) := by
  intro h l1 l2
  refine decode_of ?_ rfl h
  refine (candidate_62 _ _ _ (fOp_encV ..)).trans ?_
  change decode62 (encV 0x62 14#6 d a 0#4 m g)  = _
  simp only [decode62, fVop_encV, fVd_encV, fVa_encV, fVb_encV, fVm_encV, fG_encV, BitVec.toNat_ofNat, Nat.reducePow, Nat.reduceMod, Nat.zero_mod]
  rfl
theorem Laws.RoundTrip.vrsq (d a : BitVec 4) (m : BitVec 2) (g : BitVec 5) : Laws.RoundTrip.Statement (.vrsq d a m g) := by
  intro h l1 l2
  refine decode_of ?_ rfl h
  refine (candidate_62 _ _ _ (fOp_encV ..)).trans ?_
  change decode62 (encV 0x62 15#6 d a 0#4 m g)  = _
  simp only [decode62, fVop_encV, fVd_encV, fVa_encV, fVb_encV, fVm_encV, fG_encV, BitVec.toNat_ofNat, Nat.reducePow, Nat.reduceMod, Nat.zero_mod]
  rfl
theorem Laws.RoundTrip.vcmpEq (d : BitVec 2) (a b : BitVec 4) (m : BitVec 2) (g : BitVec 5) : Laws.RoundTrip.Statement (.vcmpEq d a b m g) := by
  intro h l1 l2
  refine decode_of ?_ rfl h
  refine (candidate_62 _ _ _ (fOp_encV ..)).trans ?_
  change decode62 (encV 0x62 16#6 (0#2 ++ d) a b m g)  = _
  simp only [decode62, fVop_encV, fVd_encV, fVa_encV, fVb_encV, fVm_encV, fG_encV, low_append, high_append, BitVec.toNat_ofNat, Nat.reducePow, Nat.reduceMod, Nat.zero_mod]
  rfl
theorem Laws.RoundTrip.vcmpNe (d : BitVec 2) (a b : BitVec 4) (m : BitVec 2) (g : BitVec 5) : Laws.RoundTrip.Statement (.vcmpNe d a b m g) := by
  intro h l1 l2
  refine decode_of ?_ rfl h
  refine (candidate_62 _ _ _ (fOp_encV ..)).trans ?_
  change decode62 (encV 0x62 17#6 (0#2 ++ d) a b m g)  = _
  simp only [decode62, fVop_encV, fVd_encV, fVa_encV, fVb_encV, fVm_encV, fG_encV, low_append, high_append, BitVec.toNat_ofNat, Nat.reducePow, Nat.reduceMod, Nat.zero_mod]
  rfl
theorem Laws.RoundTrip.vcmpLt (d : BitVec 2) (a b : BitVec 4) (m : BitVec 2) (g : BitVec 5) : Laws.RoundTrip.Statement (.vcmpLt d a b m g) := by
  intro h l1 l2
  refine decode_of ?_ rfl h
  refine (candidate_62 _ _ _ (fOp_encV ..)).trans ?_
  change decode62 (encV 0x62 18#6 (0#2 ++ d) a b m g)  = _
  simp only [decode62, fVop_encV, fVd_encV, fVa_encV, fVb_encV, fVm_encV, fG_encV, low_append, high_append, BitVec.toNat_ofNat, Nat.reducePow, Nat.reduceMod, Nat.zero_mod]
  rfl
theorem Laws.RoundTrip.vcmpLe (d : BitVec 2) (a b : BitVec 4) (m : BitVec 2) (g : BitVec 5) : Laws.RoundTrip.Statement (.vcmpLe d a b m g) := by
  intro h l1 l2
  refine decode_of ?_ rfl h
  refine (candidate_62 _ _ _ (fOp_encV ..)).trans ?_
  change decode62 (encV 0x62 19#6 (0#2 ++ d) a b m g)  = _
  simp only [decode62, fVop_encV, fVd_encV, fVa_encV, fVb_encV, fVm_encV, fG_encV, low_append, high_append, BitVec.toNat_ofNat, Nat.reducePow, Nat.reduceMod, Nat.zero_mod]
  rfl
theorem Laws.RoundTrip.vcmpGt (d : BitVec 2) (a b : BitVec 4) (m : BitVec 2) (g : BitVec 5) : Laws.RoundTrip.Statement (.vcmpGt d a b m g) := by
  intro h l1 l2
  refine decode_of ?_ rfl h
  refine (candidate_62 _ _ _ (fOp_encV ..)).trans ?_
  change decode62 (encV 0x62 20#6 (0#2 ++ d) a b m g)  = _
  simp only [decode62, fVop_encV, fVd_encV, fVa_encV, fVb_encV, fVm_encV, fG_encV, low_append, high_append, BitVec.toNat_ofNat, Nat.reducePow, Nat.reduceMod, Nat.zero_mod]
  rfl
theorem Laws.RoundTrip.vcmpGe (d : BitVec 2) (a b : BitVec 4) (m : BitVec 2) (g : BitVec 5) : Laws.RoundTrip.Statement (.vcmpGe d a b m g) := by
  intro h l1 l2
  refine decode_of ?_ rfl h
  refine (candidate_62 _ _ _ (fOp_encV ..)).trans ?_
  change decode62 (encV 0x62 21#6 (0#2 ++ d) a b m g)  = _
  simp only [decode62, fVop_encV, fVd_encV, fVa_encV, fVb_encV, fVm_encV, fG_encV, low_append, high_append, BitVec.toNat_ofNat, Nat.reducePow, Nat.reduceMod, Nat.zero_mod]
  rfl
theorem Laws.RoundTrip.vcmpUn (d : BitVec 2) (a b : BitVec 4) (m : BitVec 2) (g : BitVec 5) : Laws.RoundTrip.Statement (.vcmpUn d a b m g) := by
  intro h l1 l2
  refine decode_of ?_ rfl h
  refine (candidate_62 _ _ _ (fOp_encV ..)).trans ?_
  change decode62 (encV 0x62 22#6 (0#2 ++ d) a b m g)  = _
  simp only [decode62, fVop_encV, fVd_encV, fVa_encV, fVb_encV, fVm_encV, fG_encV, low_append, high_append, BitVec.toNat_ofNat, Nat.reducePow, Nat.reduceMod, Nat.zero_mod]
  rfl
theorem Laws.RoundTrip.vcmpOr (d : BitVec 2) (a b : BitVec 4) (m : BitVec 2) (g : BitVec 5) : Laws.RoundTrip.Statement (.vcmpOr d a b m g) := by
  intro h l1 l2
  refine decode_of ?_ rfl h
  refine (candidate_62 _ _ _ (fOp_encV ..)).trans ?_
  change decode62 (encV 0x62 23#6 (0#2 ++ d) a b m g)  = _
  simp only [decode62, fVop_encV, fVd_encV, fVa_encV, fVb_encV, fVm_encV, fG_encV, low_append, high_append, BitVec.toNat_ofNat, Nat.reducePow, Nat.reduceMod, Nat.zero_mod]
  rfl
theorem Laws.RoundTrip.vsel (d a b : BitVec 4) (m : BitVec 2) (g : BitVec 5) : Laws.RoundTrip.Statement (.vsel d a b m g) := by
  intro h l1 l2
  refine decode_of ?_ rfl h
  refine (candidate_62 _ _ _ (fOp_encV ..)).trans ?_
  change decode62 (encV 0x62 24#6 d a b m g)  = _
  simp only [decode62, fVop_encV, fVd_encV, fVa_encV, fVb_encV, fVm_encV, fG_encV, BitVec.toNat_ofNat, Nat.reducePow, Nat.reduceMod, Nat.zero_mod]
  rfl
theorem Laws.RoundTrip.viadd (d a b : BitVec 4) (m : BitVec 2) (g : BitVec 5) : Laws.RoundTrip.Statement (.viadd d a b m g) := by
  intro h l1 l2
  refine decode_of ?_ rfl h
  refine (candidate_62 _ _ _ (fOp_encV ..)).trans ?_
  change decode62 (encV 0x62 25#6 d a b m g)  = _
  simp only [decode62, fVop_encV, fVd_encV, fVa_encV, fVb_encV, fVm_encV, fG_encV, BitVec.toNat_ofNat, Nat.reducePow, Nat.reduceMod, Nat.zero_mod]
  rfl
theorem Laws.RoundTrip.visub (d a b : BitVec 4) (m : BitVec 2) (g : BitVec 5) : Laws.RoundTrip.Statement (.visub d a b m g) := by
  intro h l1 l2
  refine decode_of ?_ rfl h
  refine (candidate_62 _ _ _ (fOp_encV ..)).trans ?_
  change decode62 (encV 0x62 26#6 d a b m g)  = _
  simp only [decode62, fVop_encV, fVd_encV, fVa_encV, fVb_encV, fVm_encV, fG_encV, BitVec.toNat_ofNat, Nat.reducePow, Nat.reduceMod, Nat.zero_mod]
  rfl
theorem Laws.RoundTrip.vimul (d a b : BitVec 4) (m : BitVec 2) (g : BitVec 5) : Laws.RoundTrip.Statement (.vimul d a b m g) := by
  intro h l1 l2
  refine decode_of ?_ rfl h
  refine (candidate_62 _ _ _ (fOp_encV ..)).trans ?_
  change decode62 (encV 0x62 27#6 d a b m g)  = _
  simp only [decode62, fVop_encV, fVd_encV, fVa_encV, fVb_encV, fVm_encV, fG_encV, BitVec.toNat_ofNat, Nat.reducePow, Nat.reduceMod, Nat.zero_mod]
  rfl
theorem Laws.RoundTrip.vand (d a b : BitVec 4) (m : BitVec 2) (g : BitVec 5) : Laws.RoundTrip.Statement (.vand d a b m g) := by
  intro h l1 l2
  refine decode_of ?_ rfl h
  refine (candidate_62 _ _ _ (fOp_encV ..)).trans ?_
  change decode62 (encV 0x62 28#6 d a b m g)  = _
  simp only [decode62, fVop_encV, fVd_encV, fVa_encV, fVb_encV, fVm_encV, fG_encV, BitVec.toNat_ofNat, Nat.reducePow, Nat.reduceMod, Nat.zero_mod]
  rfl
theorem Laws.RoundTrip.vor (d a b : BitVec 4) (m : BitVec 2) (g : BitVec 5) : Laws.RoundTrip.Statement (.vor d a b m g) := by
  intro h l1 l2
  refine decode_of ?_ rfl h
  refine (candidate_62 _ _ _ (fOp_encV ..)).trans ?_
  change decode62 (encV 0x62 29#6 d a b m g)  = _
  simp only [decode62, fVop_encV, fVd_encV, fVa_encV, fVb_encV, fVm_encV, fG_encV, BitVec.toNat_ofNat, Nat.reducePow, Nat.reduceMod, Nat.zero_mod]
  rfl
theorem Laws.RoundTrip.vxor (d a b : BitVec 4) (m : BitVec 2) (g : BitVec 5) : Laws.RoundTrip.Statement (.vxor d a b m g) := by
  intro h l1 l2
  refine decode_of ?_ rfl h
  refine (candidate_62 _ _ _ (fOp_encV ..)).trans ?_
  change decode62 (encV 0x62 30#6 d a b m g)  = _
  simp only [decode62, fVop_encV, fVd_encV, fVa_encV, fVb_encV, fVm_encV, fG_encV, BitVec.toNat_ofNat, Nat.reducePow, Nat.reduceMod, Nat.zero_mod]
  rfl
theorem Laws.RoundTrip.vshl (d a b : BitVec 4) (m : BitVec 2) (g : BitVec 5) : Laws.RoundTrip.Statement (.vshl d a b m g) := by
  intro h l1 l2
  refine decode_of ?_ rfl h
  refine (candidate_62 _ _ _ (fOp_encV ..)).trans ?_
  change decode62 (encV 0x62 31#6 d a b m g)  = _
  simp only [decode62, fVop_encV, fVd_encV, fVa_encV, fVb_encV, fVm_encV, fG_encV, BitVec.toNat_ofNat, Nat.reducePow, Nat.reduceMod, Nat.zero_mod]
  rfl
theorem Laws.RoundTrip.vshr (d a b : BitVec 4) (m : BitVec 2) (g : BitVec 5) : Laws.RoundTrip.Statement (.vshr d a b m g) := by
  intro h l1 l2
  refine decode_of ?_ rfl h
  refine (candidate_62 _ _ _ (fOp_encV ..)).trans ?_
  change decode62 (encV 0x62 32#6 d a b m g)  = _
  simp only [decode62, fVop_encV, fVd_encV, fVa_encV, fVb_encV, fVm_encV, fG_encV, BitVec.toNat_ofNat, Nat.reducePow, Nat.reduceMod, Nat.zero_mod]
  rfl
theorem Laws.RoundTrip.vshrS (d a b : BitVec 4) (m : BitVec 2) (g : BitVec 5) : Laws.RoundTrip.Statement (.vshrS d a b m g) := by
  intro h l1 l2
  refine decode_of ?_ rfl h
  refine (candidate_62 _ _ _ (fOp_encV ..)).trans ?_
  change decode62 (encV 0x62 33#6 d a b m g)  = _
  simp only [decode62, fVop_encV, fVd_encV, fVa_encV, fVb_encV, fVm_encV, fG_encV, BitVec.toNat_ofNat, Nat.reducePow, Nat.reduceMod, Nat.zero_mod]
  rfl
theorem Laws.RoundTrip.vrsum (d a : BitVec 4) (m : BitVec 2) (g : BitVec 5) : Laws.RoundTrip.Statement (.vrsum d a m g) := by
  intro h l1 l2
  refine decode_of ?_ rfl h
  refine (candidate_62 _ _ _ (fOp_encV ..)).trans ?_
  change decode62 (encV 0x62 34#6 d a 0#4 m g)  = _
  simp only [decode62, fVop_encV, fVd_encV, fVa_encV, fVb_encV, fVm_encV, fG_encV, BitVec.toNat_ofNat, Nat.reducePow, Nat.reduceMod, Nat.zero_mod]
  rfl
theorem Laws.RoundTrip.vnzc (d a : BitVec 4) (m : BitVec 2) (g : BitVec 5) : Laws.RoundTrip.Statement (.vnzc d a m g) := by
  intro h l1 l2
  refine decode_of ?_ rfl h
  refine (candidate_62 _ _ _ (fOp_encV ..)).trans ?_
  change decode62 (encV 0x62 35#6 d a 0#4 m g)  = _
  simp only [decode62, fVop_encV, fVd_encV, fVa_encV, fVb_encV, fVm_encV, fG_encV, BitVec.toNat_ofNat, Nat.reducePow, Nat.reduceMod, Nat.zero_mod]
  rfl
theorem Laws.RoundTrip.vnzb (d a : BitVec 4) (m : BitVec 2) (g : BitVec 5) : Laws.RoundTrip.Statement (.vnzb d a m g) := by
  intro h l1 l2
  refine decode_of ?_ rfl h
  refine (candidate_62 _ _ _ (fOp_encV ..)).trans ?_
  change decode62 (encV 0x62 36#6 d a 0#4 m g)  = _
  simp only [decode62, fVop_encV, fVd_encV, fVa_encV, fVb_encV, fVm_encV, fG_encV, BitVec.toNat_ofNat, Nat.reducePow, Nat.reduceMod, Nat.zero_mod]
  rfl
theorem Laws.RoundTrip.vperm (d a b : BitVec 4) (m : BitVec 2) (g : BitVec 5) : Laws.RoundTrip.Statement (.vperm d a b m g) := by
  intro h l1 l2
  refine decode_of ?_ rfl h
  refine (candidate_62 _ _ _ (fOp_encV ..)).trans ?_
  change decode62 (encV 0x62 37#6 d a b m g)  = _
  simp only [decode62, fVop_encV, fVd_encV, fVa_encV, fVb_encV, fVm_encV, fG_encV, BitVec.toNat_ofNat, Nat.reducePow, Nat.reduceMod, Nat.zero_mod]
  rfl
theorem Laws.RoundTrip.vslide (k d a b : BitVec 4) (m : BitVec 2) (g : BitVec 5) : Laws.RoundTrip.Statement (.vslide k d a b m g) := by
  intro h l1 l2
  refine decode_of ?_ rfl h
  refine (candidate_62 _ _ _ (fOp_encV ..)).trans ?_
  have hk : ∀ k : BitVec 4, (38 ≤ (38#6 + k.setWidth 6).toNat ∧ (38#6 + k.setWidth 6).toNat ≤ 53) ∧
      (38#6 + k.setWidth 6 - 38#6).setWidth 4 = k := by decide
  simp only [decode62, fVop_encV, fVd_encV, fVa_encV, fVb_encV, fVm_encV, fG_encV, (hk k).1, (hk k).2, and_self, if_true]
theorem Laws.RoundTrip.vcvtF2i (d a : BitVec 4) (m : BitVec 2) (g : BitVec 5) : Laws.RoundTrip.Statement (.vcvtF2i d a m g) := by
  intro h l1 l2
  refine decode_of ?_ rfl h
  refine (candidate_62 _ _ _ (fOp_encV ..)).trans ?_
  change decode62 (encV 0x62 54#6 d a 0#4 m g)  = _
  simp only [decode62, fVop_encV, fVd_encV, fVa_encV, fVb_encV, fVm_encV, fG_encV, BitVec.toNat_ofNat, Nat.reducePow, Nat.reduceMod, Nat.zero_mod]
  rfl
theorem Laws.RoundTrip.vcvtF2iRz (d a : BitVec 4) (m : BitVec 2) (g : BitVec 5) : Laws.RoundTrip.Statement (.vcvtF2iRz d a m g) := by
  intro h l1 l2
  refine decode_of ?_ rfl h
  refine (candidate_62 _ _ _ (fOp_encV ..)).trans ?_
  change decode62 (encV 0x62 55#6 d a 0#4 m g)  = _
  simp only [decode62, fVop_encV, fVd_encV, fVa_encV, fVb_encV, fVm_encV, fG_encV, BitVec.toNat_ofNat, Nat.reducePow, Nat.reduceMod, Nat.zero_mod]
  rfl
theorem Laws.RoundTrip.vcvtI2f (d a : BitVec 4) (m : BitVec 2) (g : BitVec 5) : Laws.RoundTrip.Statement (.vcvtI2f d a m g) := by
  intro h l1 l2
  refine decode_of ?_ rfl h
  refine (candidate_62 _ _ _ (fOp_encV ..)).trans ?_
  change decode62 (encV 0x62 56#6 d a 0#4 m g)  = _
  simp only [decode62, fVop_encV, fVd_encV, fVa_encV, fVb_encV, fVm_encV, fG_encV, BitVec.toNat_ofNat, Nat.reducePow, Nat.reduceMod, Nat.zero_mod]
  rfl
theorem Laws.RoundTrip.vcvtF2b (d a : BitVec 4) (m : BitVec 2) (g : BitVec 5) : Laws.RoundTrip.Statement (.vcvtF2b d a m g) := by
  intro h l1 l2
  refine decode_of ?_ rfl h
  refine (candidate_62 _ _ _ (fOp_encV ..)).trans ?_
  change decode62 (encV 0x62 57#6 d a 0#4 m g)  = _
  simp only [decode62, fVop_encV, fVd_encV, fVa_encV, fVb_encV, fVm_encV, fG_encV, BitVec.toNat_ofNat, Nat.reducePow, Nat.reduceMod, Nat.zero_mod]
  rfl
theorem Laws.RoundTrip.vcvtB2f (d a : BitVec 4) (m : BitVec 2) (g : BitVec 5) : Laws.RoundTrip.Statement (.vcvtB2f d a m g) := by
  intro h l1 l2
  refine decode_of ?_ rfl h
  refine (candidate_62 _ _ _ (fOp_encV ..)).trans ?_
  change decode62 (encV 0x62 58#6 d a 0#4 m g)  = _
  simp only [decode62, fVop_encV, fVd_encV, fVa_encV, fVb_encV, fVm_encV, fG_encV, BitVec.toNat_ofNat, Nat.reducePow, Nat.reduceMod, Nat.zero_mod]
  rfl
theorem Laws.RoundTrip.vcvtF2h (d a : BitVec 4) (m : BitVec 2) (g : BitVec 5) : Laws.RoundTrip.Statement (.vcvtF2h d a m g) := by
  intro h l1 l2
  refine decode_of ?_ rfl h
  refine (candidate_62 _ _ _ (fOp_encV ..)).trans ?_
  change decode62 (encV 0x62 59#6 d a 0#4 m g)  = _
  simp only [decode62, fVop_encV, fVd_encV, fVa_encV, fVb_encV, fVm_encV, fG_encV, BitVec.toNat_ofNat, Nat.reducePow, Nat.reduceMod, Nat.zero_mod]
  rfl
theorem Laws.RoundTrip.vcvtH2f (d a : BitVec 4) (m : BitVec 2) (g : BitVec 5) : Laws.RoundTrip.Statement (.vcvtH2f d a m g) := by
  intro h l1 l2
  refine decode_of ?_ rfl h
  refine (candidate_62 _ _ _ (fOp_encV ..)).trans ?_
  change decode62 (encV 0x62 60#6 d a 0#4 m g)  = _
  simp only [decode62, fVop_encV, fVd_encV, fVa_encV, fVb_encV, fVm_encV, fG_encV, BitVec.toNat_ofNat, Nat.reducePow, Nat.reduceMod, Nat.zero_mod]
  rfl
theorem Laws.RoundTrip.vld (v : BitVec 4) (a g : BitVec 5) : Laws.RoundTrip.Statement (.vld v a g) := by
  intro h l1 l2
  refine decode_of ?_ rfl h
  refine (candidate_63 _ _ _ (fOp_encE ..)).trans ?_
  change decode63 (encE 0x63 (0#4 ++ v) a 0#5 g)  = _
  simp (disch := omega) only [decode63, fEop_encE, fEa_encE, fEb_encE, fG_encE, low_append, high_append, BitVec.extractLsb'_append_eq_of_le, BitVec.toNat_ofNat, Nat.reducePow, Nat.reduceMod, Nat.zero_mod]
  rfl
theorem Laws.RoundTrip.vst (v : BitVec 4) (a g : BitVec 5) : Laws.RoundTrip.Statement (.vst v a g) := by
  intro h l1 l2
  refine decode_of ?_ rfl h
  refine (candidate_63 _ _ _ (fOp_encE ..)).trans ?_
  change decode63 (encE 0x63 (1#4 ++ v) a 0#5 g)  = _
  simp (disch := omega) only [decode63, fEop_encE, fEa_encE, fEb_encE, fG_encE, low_append, high_append, BitVec.extractLsb'_append_eq_of_le, BitVec.toNat_ofNat, Nat.reducePow, Nat.reduceMod, Nat.zero_mod]
  rfl
theorem Laws.RoundTrip.vlds (v : BitVec 4) (a b g : BitVec 5) : Laws.RoundTrip.Statement (.vlds v a b g) := by
  intro h l1 l2
  refine decode_of ?_ rfl h
  refine (candidate_63 _ _ _ (fOp_encE ..)).trans ?_
  change decode63 (encE 0x63 (2#4 ++ v) a b g)  = _
  simp (disch := omega) only [decode63, fEop_encE, fEa_encE, fEb_encE, fG_encE, low_append, high_append, BitVec.extractLsb'_append_eq_of_le, BitVec.toNat_ofNat, Nat.reducePow, Nat.reduceMod, Nat.zero_mod]
  rfl
theorem Laws.RoundTrip.vldx (v : BitVec 4) (a g : BitVec 5) : Laws.RoundTrip.Statement (.vldx v a g) := by
  intro h l1 l2
  refine decode_of ?_ rfl h
  refine (candidate_63 _ _ _ (fOp_encE ..)).trans ?_
  change decode63 (encE 0x63 (3#4 ++ v) a 0#5 g)  = _
  simp (disch := omega) only [decode63, fEop_encE, fEa_encE, fEb_encE, fG_encE, low_append, high_append, BitVec.extractLsb'_append_eq_of_le, BitVec.toNat_ofNat, Nat.reducePow, Nat.reduceMod, Nat.zero_mod]
  rfl
theorem Laws.RoundTrip.vldb (v : BitVec 4) (a b g : BitVec 5) : Laws.RoundTrip.Statement (.vldb v a b g) := by
  intro h l1 l2
  refine decode_of ?_ rfl h
  refine (candidate_63 _ _ _ (fOp_encE ..)).trans ?_
  change decode63 (encE 0x63 (4#4 ++ v) a b g)  = _
  simp (disch := omega) only [decode63, fEop_encE, fEa_encE, fEb_encE, fG_encE, low_append, high_append, BitVec.extractLsb'_append_eq_of_le, BitVec.toNat_ofNat, Nat.reducePow, Nat.reduceMod, Nat.zero_mod]
  rfl
theorem Laws.RoundTrip.vstb (v : BitVec 4) (a b g : BitVec 5) : Laws.RoundTrip.Statement (.vstb v a b g) := by
  intro h l1 l2
  refine decode_of ?_ rfl h
  refine (candidate_63 _ _ _ (fOp_encE ..)).trans ?_
  change decode63 (encE 0x63 (5#4 ++ v) a b g)  = _
  simp (disch := omega) only [decode63, fEop_encE, fEa_encE, fEb_encE, fG_encE, low_append, high_append, BitVec.extractLsb'_append_eq_of_le, BitVec.toNat_ofNat, Nat.reducePow, Nat.reduceMod, Nat.zero_mod]
  rfl
theorem Laws.RoundTrip.vputs (v : BitVec 4) (a g : BitVec 5) : Laws.RoundTrip.Statement (.vputs v a g) := by
  intro h l1 l2
  refine decode_of ?_ rfl h
  refine (candidate_63 _ _ _ (fOp_encE ..)).trans ?_
  change decode63 (encE 0x63 (6#4 ++ v) a 0#5 g)  = _
  simp (disch := omega) only [decode63, fEop_encE, fEa_encE, fEb_encE, fG_encE, low_append, high_append, BitVec.extractLsb'_append_eq_of_le, BitVec.toNat_ofNat, Nat.reducePow, Nat.reduceMod, Nat.zero_mod]
  rfl
theorem Laws.RoundTrip.vgets (v : BitVec 4) (a g : BitVec 5) : Laws.RoundTrip.Statement (.vgets v a g) := by
  intro h l1 l2
  refine decode_of ?_ rfl h
  refine (candidate_63 _ _ _ (fOp_encE ..)).trans ?_
  change decode63 (encE 0x63 (7#4 ++ v) a 0#5 g)  = _
  simp (disch := omega) only [decode63, fEop_encE, fEa_encE, fEb_encE, fG_encE, low_append, high_append, BitVec.extractLsb'_append_eq_of_le, BitVec.toNat_ofNat, Nat.reducePow, Nat.reduceMod, Nat.zero_mod]
  rfl
theorem Laws.RoundTrip.vcfg (r : BitVec 6) (a g : BitVec 5) : Laws.RoundTrip.Statement (.vcfg r a g) := by
  intro h l1 l2
  refine decode_of ?_ rfl h
  refine (candidate_63 _ _ _ (fOp_encE ..)).trans ?_
  change decode63 (encE 0x63 (2#2 ++ r) a 0#5 g)  = _
  simp (disch := omega) only [decode63, fEop_encE, fEa_encE, fEb_encE, fG_encE, low_append, high_append, BitVec.extractLsb'_append_eq_of_le, BitVec.toNat_ofNat, Nat.reducePow, Nat.reduceMod, Nat.zero_mod]
  rfl
theorem Laws.RoundTrip.vget (r : BitVec 6) (a g : BitVec 5) : Laws.RoundTrip.Statement (.vget r a g) := by
  intro h l1 l2
  refine decode_of ?_ rfl h
  refine (candidate_63 _ _ _ (fOp_encE ..)).trans ?_
  change decode63 (encE 0x63 (3#2 ++ r) a 0#5 g)  = _
  simp (disch := omega) only [decode63, fEop_encE, fEa_encE, fEb_encE, fG_encE, low_append, high_append, BitVec.extractLsb'_append_eq_of_le, BitVec.toNat_ofNat, Nat.reducePow, Nat.reduceMod, Nat.zero_mod]
  rfl
theorem Laws.RoundTrip.ccopy (a b g : BitVec 5) : Laws.RoundTrip.Statement (.ccopy a b g) := by
  intro h l1 l2
  refine decode_of ?_ rfl h
  refine (candidate_64 _ _ _ (fOp_encE ..)).trans ?_
  change decode64 (encE 0x64 0#8 a b g)  = _
  simp only [decode64, fEop_encE, fEa_encE, fEb_encE, fG_encE, BitVec.toNat_ofNat, Nat.reducePow, Nat.reduceMod, Nat.zero_mod]
  rfl
theorem Laws.RoundTrip.cfill (a g : BitVec 5) : Laws.RoundTrip.Statement (.cfill a g) := by
  intro h l1 l2
  refine decode_of ?_ rfl h
  refine (candidate_64 _ _ _ (fOp_encE ..)).trans ?_
  change decode64 (encE 0x64 1#8 a 0#5 g)  = _
  simp only [decode64, fEop_encE, fEa_encE, fEb_encE, fG_encE, BitVec.toNat_ofNat, Nat.reducePow, Nat.reduceMod, Nat.zero_mod]
  rfl
theorem Laws.RoundTrip.ctcopy (a b g : BitVec 5) : Laws.RoundTrip.Statement (.ctcopy a b g) := by
  intro h l1 l2
  refine decode_of ?_ rfl h
  refine (candidate_64 _ _ _ (fOp_encE ..)).trans ?_
  change decode64 (encE 0x64 2#8 a b g)  = _
  simp only [decode64, fEop_encE, fEa_encE, fEb_encE, fG_encE, BitVec.toNat_ofNat, Nat.reducePow, Nat.reduceMod, Nat.zero_mod]
  rfl
theorem Laws.RoundTrip.cgather (a b g : BitVec 5) : Laws.RoundTrip.Statement (.cgather a b g) := by
  intro h l1 l2
  refine decode_of ?_ rfl h
  refine (candidate_64 _ _ _ (fOp_encE ..)).trans ?_
  change decode64 (encE 0x64 3#8 a b g)  = _
  simp only [decode64, fEop_encE, fEa_encE, fEb_encE, fG_encE, BitVec.toNat_ofNat, Nat.reducePow, Nat.reduceMod, Nat.zero_mod]
  rfl
theorem Laws.RoundTrip.cscatter (a b g : BitVec 5) : Laws.RoundTrip.Statement (.cscatter a b g) := by
  intro h l1 l2
  refine decode_of ?_ rfl h
  refine (candidate_64 _ _ _ (fOp_encE ..)).trans ?_
  change decode64 (encE 0x64 4#8 a b g)  = _
  simp only [decode64, fEop_encE, fEa_encE, fEb_encE, fG_encE, BitVec.toNat_ofNat, Nat.reducePow, Nat.reduceMod, Nat.zero_mod]
  rfl
theorem Laws.RoundTrip.ccopyF (a b g : BitVec 5) : Laws.RoundTrip.Statement (.ccopyF a b g) := by
  intro h l1 l2
  refine decode_of ?_ rfl h
  refine (candidate_64 _ _ _ (fOp_encE ..)).trans ?_
  change decode64 (encE 0x64 5#8 a b g)  = _
  simp only [decode64, fEop_encE, fEa_encE, fEb_encE, fG_encE, BitVec.toNat_ofNat, Nat.reducePow, Nat.reduceMod, Nat.zero_mod]
  rfl
theorem Laws.RoundTrip.ccfg (r : BitVec 6) (a g : BitVec 5) : Laws.RoundTrip.Statement (.ccfg r a g) := by
  intro h l1 l2
  refine decode_of ?_ rfl h
  refine (candidate_64 _ _ _ (fOp_encE ..)).trans ?_
  change decode64 (encE 0x64 (2#2 ++ r) a 0#5 g)  = _
  simp only [decode64, fEop_encE, fEa_encE, fEb_encE, fG_encE, low_append, high_append, BitVec.toNat_ofNat, Nat.reducePow, Nat.reduceMod, Nat.zero_mod]
  rfl
theorem Laws.RoundTrip.cget (r : BitVec 6) (a g : BitVec 5) : Laws.RoundTrip.Statement (.cget r a g) := by
  intro h l1 l2
  refine decode_of ?_ rfl h
  refine (candidate_64 _ _ _ (fOp_encE ..)).trans ?_
  change decode64 (encE 0x64 (3#2 ++ r) a 0#5 g)  = _
  simp only [decode64, fEop_encE, fEa_encE, fEb_encE, fG_encE, low_append, high_append, BitVec.toNat_ofNat, Nat.reducePow, Nat.reduceMod, Nat.zero_mod]
  rfl
theorem Laws.RoundTrip.halloc (a b g : BitVec 5) : Laws.RoundTrip.Statement (.halloc a b g) := by
  intro h l1 l2
  refine decode_of ?_ rfl h
  refine (candidate_65 _ _ _ (fOp_encE ..)).trans ?_
  change decode65 (encE 0x65 0#8 a b g)  = _
  simp only [decode65, fEop_encE, fEa_encE, fEb_encE, fG_encE, BitVec.toNat_ofNat, Nat.reducePow, Nat.reduceMod, Nat.zero_mod]
theorem Laws.RoundTrip.hfree (a g : BitVec 5) : Laws.RoundTrip.Statement (.hfree a g) := by
  intro h l1 l2
  refine decode_of ?_ rfl h
  refine (candidate_65 _ _ _ (fOp_encE ..)).trans ?_
  change decode65 (encE 0x65 1#8 a 0#5 g)  = _
  simp only [decode65, fEop_encE, fEa_encE, fEb_encE, fG_encE, BitVec.toNat_ofNat, Nat.reducePow, Nat.reduceMod, Nat.zero_mod]
theorem Laws.RoundTrip.hwiden (a b g : BitVec 5) : Laws.RoundTrip.Statement (.hwiden a b g) := by
  intro h l1 l2
  refine decode_of ?_ rfl h
  refine (candidate_65 _ _ _ (fOp_encE ..)).trans ?_
  change decode65 (encE 0x65 2#8 a b g)  = _
  simp only [decode65, fEop_encE, fEa_encE, fEb_encE, fG_encE, BitVec.toNat_ofNat, Nat.reducePow, Nat.reduceMod, Nat.zero_mod]
theorem Laws.RoundTrip.hpin (a b g : BitVec 5) : Laws.RoundTrip.Statement (.hpin a b g) := by
  intro h l1 l2
  refine decode_of ?_ rfl h
  refine (candidate_65 _ _ _ (fOp_encE ..)).trans ?_
  change decode65 (encE 0x65 3#8 a b g)  = _
  simp only [decode65, fEop_encE, fEa_encE, fEb_encE, fG_encE, BitVec.toNat_ofNat, Nat.reducePow, Nat.reduceMod, Nat.zero_mod]
theorem Laws.RoundTrip.hunpin (a g : BitVec 5) : Laws.RoundTrip.Statement (.hunpin a g) := by
  intro h l1 l2
  refine decode_of ?_ rfl h
  refine (candidate_65 _ _ _ (fOp_encE ..)).trans ?_
  change decode65 (encE 0x65 4#8 a 0#5 g)  = _
  simp only [decode65, fEop_encE, fEa_encE, fEb_encE, fG_encE, BitVec.toNat_ofNat, Nat.reducePow, Nat.reduceMod, Nat.zero_mod]
theorem Laws.RoundTrip.hstageA (a b g : BitVec 5) : Laws.RoundTrip.Statement (.hstageA a b g) := by
  intro h l1 l2
  refine decode_of ?_ rfl h
  refine (candidate_65 _ _ _ (fOp_encE ..)).trans ?_
  change decode65 (encE 0x65 5#8 a b g)  = _
  simp only [decode65, fEop_encE, fEa_encE, fEb_encE, fG_encE, BitVec.toNat_ofNat, Nat.reducePow, Nat.reduceMod, Nat.zero_mod]
theorem Laws.RoundTrip.hstageB (a b g : BitVec 5) : Laws.RoundTrip.Statement (.hstageB a b g) := by
  intro h l1 l2
  refine decode_of ?_ rfl h
  refine (candidate_65 _ _ _ (fOp_encE ..)).trans ?_
  change decode65 (encE 0x65 6#8 a b g)  = _
  simp only [decode65, fEop_encE, fEa_encE, fEb_encE, fG_encE, BitVec.toNat_ofNat, Nat.reducePow, Nat.reduceMod, Nat.zero_mod]
theorem Laws.RoundTrip.hstageNc (a b g : BitVec 5) : Laws.RoundTrip.Statement (.hstageNc a b g) := by
  intro h l1 l2
  refine decode_of ?_ rfl h
  refine (candidate_65 _ _ _ (fOp_encE ..)).trans ?_
  change decode65 (encE 0x65 7#8 a b g)  = _
  simp only [decode65, fEop_encE, fEa_encE, fEb_encE, fG_encE, BitVec.toNat_ofNat, Nat.reducePow, Nat.reduceMod, Nat.zero_mod]
theorem Laws.RoundTrip.hstageNr (a b g : BitVec 5) : Laws.RoundTrip.Statement (.hstageNr a b g) := by
  intro h l1 l2
  refine decode_of ?_ rfl h
  refine (candidate_65 _ _ _ (fOp_encE ..)).trans ?_
  change decode65 (encE 0x65 8#8 a b g)  = _
  simp only [decode65, fEop_encE, fEa_encE, fEb_encE, fG_encE, BitVec.toNat_ofNat, Nat.reducePow, Nat.reduceMod, Nat.zero_mod]
theorem Laws.RoundTrip.hinfo (a b g : BitVec 5) : Laws.RoundTrip.Statement (.hinfo a b g) := by
  intro h l1 l2
  refine decode_of ?_ rfl h
  refine (candidate_65 _ _ _ (fOp_encE ..)).trans ?_
  change decode65 (encE 0x65 9#8 a b g)  = _
  simp only [decode65, fEop_encE, fEa_encE, fEb_encE, fG_encE, BitVec.toNat_ofNat, Nat.reducePow, Nat.reduceMod, Nat.zero_mod]
theorem Laws.RoundTrip.hown (a b g : BitVec 5) : Laws.RoundTrip.Statement (.hown a b g) := by
  intro h l1 l2
  refine decode_of ?_ rfl h
  refine (candidate_65 _ _ _ (fOp_encE ..)).trans ?_
  change decode65 (encE 0x65 10#8 a b g)  = _
  simp only [decode65, fEop_encE, fEa_encE, fEb_encE, fG_encE, BitVec.toNat_ofNat, Nat.reducePow, Nat.reduceMod, Nat.zero_mod]
theorem Laws.RoundTrip.hsync (a g : BitVec 5) : Laws.RoundTrip.Statement (.hsync a g) := by
  intro h l1 l2
  refine decode_of ?_ rfl h
  refine (candidate_65 _ _ _ (fOp_encE ..)).trans ?_
  change decode65 (encE 0x65 11#8 a 0#5 g)  = _
  simp only [decode65, fEop_encE, fEa_encE, fEb_encE, fG_encE, BitVec.toNat_ofNat, Nat.reducePow, Nat.reduceMod, Nat.zero_mod]
theorem Laws.RoundTrip.hopRowsum (a b g : BitVec 5) : Laws.RoundTrip.Statement (.hopRowsum a b g) := by
  intro h l1 l2
  refine decode_of ?_ rfl h
  refine (candidate_65 _ _ _ (fOp_encE ..)).trans ?_
  change decode65 (encE 0x65 16#8 a b g)  = _
  simp only [decode65, fEop_encE, fEa_encE, fEb_encE, fG_encE, BitVec.toNat_ofNat, Nat.reducePow, Nat.reduceMod, Nat.zero_mod]
theorem Laws.RoundTrip.hopColsum (a b g : BitVec 5) : Laws.RoundTrip.Statement (.hopColsum a b g) := by
  intro h l1 l2
  refine decode_of ?_ rfl h
  refine (candidate_65 _ _ _ (fOp_encE ..)).trans ?_
  change decode65 (encE 0x65 17#8 a b g)  = _
  simp only [decode65, fEop_encE, fEa_encE, fEb_encE, fG_encE, BitVec.toNat_ofNat, Nat.reducePow, Nat.reduceMod, Nat.zero_mod]
theorem Laws.RoundTrip.hopScale (a b g : BitVec 5) : Laws.RoundTrip.Statement (.hopScale a b g) := by
  intro h l1 l2
  refine decode_of ?_ rfl h
  refine (candidate_65 _ _ _ (fOp_encE ..)).trans ?_
  change decode65 (encE 0x65 18#8 a b g)  = _
  simp only [decode65, fEop_encE, fEa_encE, fEb_encE, fG_encE, BitVec.toNat_ofNat, Nat.reducePow, Nat.reduceMod, Nat.zero_mod]
theorem Laws.RoundTrip.hopAddh (a b g : BitVec 5) : Laws.RoundTrip.Statement (.hopAddh a b g) := by
  intro h l1 l2
  refine decode_of ?_ rfl h
  refine (candidate_65 _ _ _ (fOp_encE ..)).trans ?_
  change decode65 (encE 0x65 19#8 a b g)  = _
  simp only [decode65, fEop_encE, fEa_encE, fEb_encE, fG_encE, BitVec.toNat_ofNat, Nat.reducePow, Nat.reduceMod, Nat.zero_mod]
theorem Laws.RoundTrip.hopMulh (a b g : BitVec 5) : Laws.RoundTrip.Statement (.hopMulh a b g) := by
  intro h l1 l2
  refine decode_of ?_ rfl h
  refine (candidate_65 _ _ _ (fOp_encE ..)).trans ?_
  change decode65 (encE 0x65 20#8 a b g)  = _
  simp only [decode65, fEop_encE, fEa_encE, fEb_encE, fG_encE, BitVec.toNat_ofNat, Nat.reducePow, Nat.reduceMod, Nat.zero_mod]
theorem Laws.RoundTrip.hopAxpy (a b g : BitVec 5) : Laws.RoundTrip.Statement (.hopAxpy a b g) := by
  intro h l1 l2
  refine decode_of ?_ rfl h
  refine (candidate_65 _ _ _ (fOp_encE ..)).trans ?_
  change decode65 (encE 0x65 21#8 a b g)  = _
  simp only [decode65, fEop_encE, fEa_encE, fEb_encE, fG_encE, BitVec.toNat_ofNat, Nat.reducePow, Nat.reduceMod, Nat.zero_mod]
theorem Laws.RoundTrip.hopFill (a b g : BitVec 5) : Laws.RoundTrip.Statement (.hopFill a b g) := by
  intro h l1 l2
  refine decode_of ?_ rfl h
  refine (candidate_65 _ _ _ (fOp_encE ..)).trans ?_
  change decode65 (encE 0x65 22#8 a b g)  = _
  simp only [decode65, fEop_encE, fEa_encE, fEb_encE, fG_encE, BitVec.toNat_ofNat, Nat.reducePow, Nat.reduceMod, Nat.zero_mod]
theorem Laws.RoundTrip.hopFillImg (a b g : BitVec 5) : Laws.RoundTrip.Statement (.hopFillImg a b g) := by
  intro h l1 l2
  refine decode_of ?_ rfl h
  refine (candidate_65 _ _ _ (fOp_encE ..)).trans ?_
  change decode65 (encE 0x65 23#8 a b g)  = _
  simp only [decode65, fEop_encE, fEa_encE, fEb_encE, fG_encE, BitVec.toNat_ofNat, Nat.reducePow, Nat.reduceMod, Nat.zero_mod]
theorem Laws.RoundTrip.hopTranspose (a b g : BitVec 5) : Laws.RoundTrip.Statement (.hopTranspose a b g) := by
  intro h l1 l2
  refine decode_of ?_ rfl h
  refine (candidate_65 _ _ _ (fOp_encE ..)).trans ?_
  change decode65 (encE 0x65 24#8 a b g)  = _
  simp only [decode65, fEop_encE, fEa_encE, fEb_encE, fG_encE, BitVec.toNat_ofNat, Nat.reducePow, Nat.reduceMod, Nat.zero_mod]
theorem Laws.RoundTrip.hopCopyin (a b g : BitVec 5) : Laws.RoundTrip.Statement (.hopCopyin a b g) := by
  intro h l1 l2
  refine decode_of ?_ rfl h
  refine (candidate_65 _ _ _ (fOp_encE ..)).trans ?_
  change decode65 (encE 0x65 25#8 a b g)  = _
  simp only [decode65, fEop_encE, fEa_encE, fEb_encE, fG_encE, BitVec.toNat_ofNat, Nat.reducePow, Nat.reduceMod, Nat.zero_mod]
theorem Laws.RoundTrip.hopCopyout (a b g : BitVec 5) : Laws.RoundTrip.Statement (.hopCopyout a b g) := by
  intro h l1 l2
  refine decode_of ?_ rfl h
  refine (candidate_65 _ _ _ (fOp_encE ..)).trans ?_
  change decode65 (encE 0x65 26#8 a b g)  = _
  simp only [decode65, fEop_encE, fEa_encE, fEb_encE, fG_encE, BitVec.toNat_ofNat, Nat.reducePow, Nat.reduceMod, Nat.zero_mod]
theorem Laws.RoundTrip.hopGrows (a b g : BitVec 5) : Laws.RoundTrip.Statement (.hopGrows a b g) := by
  intro h l1 l2
  refine decode_of ?_ rfl h
  refine (candidate_65 _ _ _ (fOp_encE ..)).trans ?_
  change decode65 (encE 0x65 27#8 a b g)  = _
  simp only [decode65, fEop_encE, fEa_encE, fEb_encE, fG_encE, BitVec.toNat_ofNat, Nat.reducePow, Nat.reduceMod, Nat.zero_mod]
theorem Laws.RoundTrip.hopSrows (a b g : BitVec 5) : Laws.RoundTrip.Statement (.hopSrows a b g) := by
  intro h l1 l2
  refine decode_of ?_ rfl h
  refine (candidate_65 _ _ _ (fOp_encE ..)).trans ?_
  change decode65 (encE 0x65 28#8 a b g)  = _
  simp only [decode65, fEop_encE, fEa_encE, fEb_encE, fG_encE, BitVec.toNat_ofNat, Nat.reducePow, Nat.reduceMod, Nat.zero_mod]
theorem Laws.RoundTrip.nmc (a b g : BitVec 5) : Laws.RoundTrip.Statement (.nmc a b g) := by
  intro h l1 l2
  refine decode_of ?_ rfl h
  refine (candidate_66 _ _ _ (fOp_encE ..)).trans ?_
  change decode66 (encE 0x66 0#8 a b g)  = _
  simp only [decode66, fEop_encE, fEa_encE, fEb_encE, fG_encE, BitVec.toNat_ofNat, Nat.reducePow, Nat.reduceMod, Nat.zero_mod]
theorem Laws.RoundTrip.nmload (a b g : BitVec 5) : Laws.RoundTrip.Statement (.nmload a b g) := by
  intro h l1 l2
  refine decode_of ?_ rfl h
  refine (candidate_66 _ _ _ (fOp_encE ..)).trans ?_
  change decode66 (encE 0x66 1#8 a b g)  = _
  simp only [decode66, fEop_encE, fEa_encE, fEb_encE, fG_encE, BitVec.toNat_ofNat, Nat.reducePow, Nat.reduceMod, Nat.zero_mod]
theorem Laws.RoundTrip.nmrow (a b g : BitVec 5) : Laws.RoundTrip.Statement (.nmrow a b g) := by
  intro h l1 l2
  refine decode_of ?_ rfl h
  refine (candidate_66 _ _ _ (fOp_encE ..)).trans ?_
  change decode66 (encE 0x66 2#8 a b g)  = _
  simp only [decode66, fEop_encE, fEa_encE, fEb_encE, fG_encE, BitVec.toNat_ofNat, Nat.reducePow, Nat.reduceMod, Nat.zero_mod]
theorem Laws.RoundTrip.nmstat (a b g : BitVec 5) : Laws.RoundTrip.Statement (.nmstat a b g) := by
  intro h l1 l2
  refine decode_of ?_ rfl h
  refine (candidate_66 _ _ _ (fOp_encE ..)).trans ?_
  change decode66 (encE 0x66 3#8 a b g)  = _
  simp only [decode66, fEop_encE, fEa_encE, fEb_encE, fG_encE, BitVec.toNat_ofNat, Nat.reducePow, Nat.reduceMod, Nat.zero_mod]
theorem Laws.RoundTrip.trap (a g : BitVec 5) : Laws.RoundTrip.Statement (.trap a g) := by
  intro h l1 l2
  refine decode_of ?_ rfl h
  refine (candidate_70 _ _ _ (fOp_encE ..)).trans ?_
  change decode70 (encE 0x70 0#8 a 0#5 g)  = _
  simp only [decode70, fEop_encE, fEa_encE, fEb_encE, fG_encE, BitVec.toNat_ofNat, Nat.reducePow, Nat.reduceMod, Nat.zero_mod]
theorem Laws.RoundTrip.tret (g : BitVec 5) : Laws.RoundTrip.Statement (.tret g) := by
  intro h l1 l2
  refine decode_of ?_ rfl h
  refine (candidate_70 _ _ _ (fOp_encE ..)).trans ?_
  change decode70 (encE 0x70 1#8 0#5 0#5 g)  = _
  simp only [decode70, fEop_encE, fEa_encE, fEb_encE, fG_encE, BitVec.toNat_ofNat, Nat.reducePow, Nat.reduceMod, Nat.zero_mod]
theorem Laws.RoundTrip.mfs (r : BitVec 8) (a g : BitVec 5) : Laws.RoundTrip.Statement (.mfs r a g) := by
  intro h l1 l2
  refine decode_of ?_ rfl h
  refine (candidate_71 _ _ _ (fOp_encE ..)).trans ?_
  simp only [fEop_encE, fEa_encE, fEb_encE, fG_encE]
theorem Laws.RoundTrip.mts (r : BitVec 8) (a g : BitVec 5) : Laws.RoundTrip.Statement (.mts r a g) := by
  intro h l1 l2
  refine decode_of ?_ rfl h
  have hr : r ≠ 15#8 := by rintro rfl; simp [Instr.wf] at h
  refine (candidate_72 _ _ _ (fOp_encE ..)).trans ?_
  simp only [decode72, fEop_encE, fEa_encE, fG_encE, hr, if_false]
theorem Laws.RoundTrip.mtsWdog (a g : BitVec 5) : Laws.RoundTrip.Statement (.mtsWdog a g) := by
  intro h l1 l2
  refine decode_of ?_ rfl h
  refine (candidate_72 _ _ _ (fOp_encE ..)).trans ?_
  change decode72 (encE 0x72 15#8 a 0#5 g)  = _
  simp only [decode72, fEop_encE, fEa_encE, fEb_encE, fG_encE, BitVec.toNat_ofNat, Nat.reducePow, Nat.reduceMod, Nat.zero_mod]
  rfl
theorem Laws.RoundTrip.bkpt (g : BitVec 5) : Laws.RoundTrip.Statement (.bkpt g) := by
  intro h l1 l2
  refine decode_of ?_ rfl h
  refine (candidate_73 _ _ _ (fOp_encE ..)).trans ?_
  simp only [fEop_encE, fEa_encE, fEb_encE, fG_encE]
theorem Laws.RoundTrip.idle (g : BitVec 5) : Laws.RoundTrip.Statement (.idle g) := by
  intro h l1 l2
  refine decode_of ?_ rfl h
  refine (candidate_74 _ _ _ (fOp_encE ..)).trans ?_
  change decode74 (encE 0x74 0#8 0#5 0#5 g)  = _
  simp only [decode74, fEop_encE, fEa_encE, fEb_encE, fG_encE, BitVec.toNat_ofNat, Nat.reducePow, Nat.reduceMod, Nat.zero_mod]
theorem Laws.RoundTrip.idleT (a g : BitVec 5) : Laws.RoundTrip.Statement (.idleT a g) := by
  intro h l1 l2
  refine decode_of ?_ rfl h
  refine (candidate_74 _ _ _ (fOp_encE ..)).trans ?_
  change decode74 (encE 0x74 1#8 a 0#5 g)  = _
  simp only [decode74, fEop_encE, fEa_encE, fEb_encE, fG_encE, BitVec.toNat_ofNat, Nat.reducePow, Nat.reduceMod, Nat.zero_mod]
theorem Laws.RoundTrip.tload (a b g : BitVec 5) : Laws.RoundTrip.Statement (.tload a b g) := by
  intro h l1 l2
  refine decode_of ?_ rfl h
  refine (candidate_75 _ _ _ (fOp_encE ..)).trans ?_
  simp only [fEop_encE, fEa_encE, fEb_encE, fG_encE]
theorem Laws.RoundTrip.synci (a b g : BitVec 5) : Laws.RoundTrip.Statement (.synci a b g) := by
  intro h l1 l2
  refine decode_of ?_ rfl h
  refine (candidate_76 _ _ _ (fOp_encE ..)).trans ?_
  simp only [fEop_encE, fEa_encE, fEb_encE, fG_encE]
theorem Laws.RoundTrip.harvest (a b g : BitVec 5) : Laws.RoundTrip.Statement (.harvest a b g) := by
  intro h l1 l2
  refine decode_of ?_ rfl h
  refine (candidate_77 _ _ _ (fOp_encE ..)).trans ?_
  simp only [fEop_encE, fEa_encE, fEb_encE, fG_encE]
theorem Laws.RoundTrip.ctxswap (a b g : BitVec 5) : Laws.RoundTrip.Statement (.ctxswap a b g) := by
  intro h l1 l2
  refine decode_of ?_ rfl h
  refine (candidate_78 _ _ _ (fOp_encE ..)).trans ?_
  simp only [fEop_encE, fEa_encE, fEb_encE, fG_encE]
theorem Laws.RoundTrip.nop : Laws.RoundTrip.Statement (.nop) := by
  intro _ _ _; rfl
theorem Laws.RoundTrip.ill : Laws.RoundTrip.Statement (.ill) := by
  intro _ _ _; rfl
theorem Laws.RoundTrip.hostLaunchWrite (page off : Nat) (words : List Word) : Laws.RoundTrip.Statement (.hostLaunchWrite page off words) :=
  fun h => absurd h Bool.false_ne_true
theorem Laws.RoundTrip.launchAdmission (req : LaunchReq) : Laws.RoundTrip.Statement (.launchAdmission req) :=
  fun h => absurd h Bool.false_ne_true
theorem Laws.RoundTrip.threadPlacement : Laws.RoundTrip.Statement (.threadPlacement) :=
  fun h => absurd h Bool.false_ne_true
theorem Laws.RoundTrip.localContextExchange (core ctx : Nat) : Laws.RoundTrip.Statement (.localContextExchange core ctx) :=
  fun h => absurd h Bool.false_ne_true
theorem Laws.RoundTrip.engineContextExchange (core ctx : Nat) : Laws.RoundTrip.Statement (.engineContextExchange core ctx) :=
  fun h => absurd h Bool.false_ne_true
theorem Laws.RoundTrip.launchAgeing (key : Nat) : Laws.RoundTrip.Statement (.launchAgeing key) :=
  fun h => absurd h Bool.false_ne_true
theorem Laws.RoundTrip.dispatchPreemption : Laws.RoundTrip.Statement (.dispatchPreemption) :=
  fun h => absurd h Bool.false_ne_true
theorem Laws.RoundTrip.threadPreemption (uid : Nat) : Laws.RoundTrip.Statement (.threadPreemption uid) :=
  fun h => absurd h Bool.false_ne_true
theorem Laws.RoundTrip.slotFill (core : Nat) : Laws.RoundTrip.Statement (.slotFill core) :=
  fun h => absurd h Bool.false_ne_true
theorem Laws.RoundTrip.loadBalance (core : Nat) : Laws.RoundTrip.Statement (.loadBalance core) :=
  fun h => absurd h Bool.false_ne_true
theorem Laws.RoundTrip.spawnPacketAccept (p : SpawnPacket) : Laws.RoundTrip.Statement (.spawnPacketAccept p) :=
  fun h => absurd h Bool.false_ne_true
theorem Laws.RoundTrip.migrationDeparture (uid owner : Nat) (mask : BitVec 28) : Laws.RoundTrip.Statement (.migrationDeparture uid owner mask) :=
  fun h => absurd h Bool.false_ne_true
theorem Laws.RoundTrip.migrationArrival (uid owner : Nat) : Laws.RoundTrip.Statement (.migrationArrival uid owner) :=
  fun h => absurd h Bool.false_ne_true
theorem Laws.RoundTrip.replyArrival (uid : Nat) (reg : BitVec 5) (value : Word) : Laws.RoundTrip.Statement (.replyArrival uid reg value) :=
  fun h => absurd h Bool.false_ne_true
theorem Laws.RoundTrip.portWordDelivery (core entry : Nat) (value : Word) (ctl : Bool) : Laws.RoundTrip.Statement (.portWordDelivery core entry value ctl) :=
  fun h => absurd h Bool.false_ne_true
theorem Laws.RoundTrip.messageArrival (core : Nat) (msg : Message) : Laws.RoundTrip.Statement (.messageArrival core msg) :=
  fun h => absurd h Bool.false_ne_true
theorem Laws.RoundTrip.messageHandlerStart (core : Nat) : Laws.RoundTrip.Statement (.messageHandlerStart core) :=
  fun h => absurd h Bool.false_ne_true
theorem Laws.RoundTrip.lightHandlerStart (core : Nat) : Laws.RoundTrip.Statement (.lightHandlerStart core) :=
  fun h => absurd h Bool.false_ne_true
theorem Laws.RoundTrip.chunkCommit (uid : Nat) : Laws.RoundTrip.Statement (.chunkCommit uid) :=
  fun h => absurd h Bool.false_ne_true
theorem Laws.RoundTrip.waitaTimeout (uid stamp : Nat) : Laws.RoundTrip.Statement (.waitaTimeout uid stamp) :=
  fun h => absurd h Bool.false_ne_true
theorem Laws.RoundTrip.idleTimeout (uid stamp : Nat) : Laws.RoundTrip.Statement (.idleTimeout uid stamp) :=
  fun h => absurd h Bool.false_ne_true
theorem Laws.RoundTrip.barrierRelease (uid stamp : Nat) : Laws.RoundTrip.Statement (.barrierRelease uid stamp) :=
  fun h => absurd h Bool.false_ne_true
theorem Laws.RoundTrip.fullEmptyHomeAccess (acc : Access) : Laws.RoundTrip.Statement (.fullEmptyHomeAccess acc) :=
  fun h => absurd h Bool.false_ne_true
theorem Laws.RoundTrip.remoteAccessArrival (acc : Access) : Laws.RoundTrip.Statement (.remoteAccessArrival acc) :=
  fun h => absurd h Bool.false_ne_true
theorem Laws.RoundTrip.atomicApply (acc : Access) : Laws.RoundTrip.Statement (.atomicApply acc) :=
  fun h => absurd h Bool.false_ne_true
theorem Laws.RoundTrip.rfillDelivery (uid : Nat) (reg : BitVec 5) (target value : Word) : Laws.RoundTrip.Statement (.rfillDelivery uid reg target value) :=
  fun h => absurd h Bool.false_ne_true
theorem Laws.RoundTrip.postedStoreApply (core entry : Nat) : Laws.RoundTrip.Statement (.postedStoreApply core entry) :=
  fun h => absurd h Bool.false_ne_true
theorem Laws.RoundTrip.postedStoreAck (core entry : Nat) : Laws.RoundTrip.Statement (.postedStoreAck core entry) :=
  fun h => absurd h Bool.false_ne_true
theorem Laws.RoundTrip.postedStoreRefusal (core entry : Nat) : Laws.RoundTrip.Statement (.postedStoreRefusal core entry) :=
  fun h => absurd h Bool.false_ne_true
theorem Laws.RoundTrip.faultQueueResolution (ctx page : Nat) (ok : Bool) : Laws.RoundTrip.Statement (.faultQueueResolution ctx page ok) :=
  fun h => absurd h Bool.false_ne_true
theorem Laws.RoundTrip.fenceCompletion (uid scope : Nat) : Laws.RoundTrip.Statement (.fenceCompletion uid scope) :=
  fun h => absurd h Bool.false_ne_true
theorem Laws.RoundTrip.xfenceCompletion (uid ctx base len stamp : Nat) : Laws.RoundTrip.Statement (.xfenceCompletion uid ctx base len stamp) :=
  fun h => absurd h Bool.false_ne_true
theorem Laws.RoundTrip.engineCommandStart (core : Nat) (eng : Engine) : Laws.RoundTrip.Statement (.engineCommandStart core eng) :=
  fun h => absurd h Bool.false_ne_true
theorem Laws.RoundTrip.vectorCommandCompletion (core : Nat) : Laws.RoundTrip.Statement (.vectorCommandCompletion core) :=
  fun h => absurd h Bool.false_ne_true
theorem Laws.RoundTrip.matrixCommandCompletion (core : Nat) : Laws.RoundTrip.Statement (.matrixCommandCompletion core) :=
  fun h => absurd h Bool.false_ne_true
theorem Laws.RoundTrip.mringStepStart (core : Nat) : Laws.RoundTrip.Statement (.mringStepStart core) :=
  fun h => absurd h Bool.false_ne_true
theorem Laws.RoundTrip.tileDelivery (core : Nat) : Laws.RoundTrip.Statement (.tileDelivery core) :=
  fun h => absurd h Bool.false_ne_true
theorem Laws.RoundTrip.copyCommandCompletion (core : Nat) : Laws.RoundTrip.Statement (.copyCommandCompletion core) :=
  fun h => absurd h Bool.false_ne_true
theorem Laws.RoundTrip.handleCommandAdmission (cmd : HandleCmd) : Laws.RoundTrip.Statement (.handleCommandAdmission cmd) :=
  fun h => absurd h Bool.false_ne_true
theorem Laws.RoundTrip.handleOperationCompletion (ctx hnum : Nat) : Laws.RoundTrip.Statement (.handleOperationCompletion ctx hnum) :=
  fun h => absurd h Bool.false_ne_true
theorem Laws.RoundTrip.dresserRedress (ctx hnum : Nat) : Laws.RoundTrip.Statement (.dresserRedress ctx hnum) :=
  fun h => absurd h Bool.false_ne_true
theorem Laws.RoundTrip.redressStart (ctx hnum : Nat) : Laws.RoundTrip.Statement (.redressStart ctx hnum) :=
  fun h => absurd h Bool.false_ne_true
theorem Laws.RoundTrip.redressComplete (ctx hnum : Nat) : Laws.RoundTrip.Statement (.redressComplete ctx hnum) :=
  fun h => absurd h Bool.false_ne_true
theorem Laws.RoundTrip.tloadBuildComplete (core table : Nat) : Laws.RoundTrip.Statement (.tloadBuildComplete core table) :=
  fun h => absurd h Bool.false_ne_true
theorem Laws.RoundTrip.nmProgramStart (sett : Nat) : Laws.RoundTrip.Statement (.nmProgramStart sett) :=
  fun h => absurd h Bool.false_ne_true
theorem Laws.RoundTrip.nmProgramStop (sett state : Nat) (info : Word) : Laws.RoundTrip.Statement (.nmProgramStop sett state info) :=
  fun h => absurd h Bool.false_ne_true
theorem Laws.RoundTrip.nmrowStop (sett : Nat) : Laws.RoundTrip.Statement (.nmrowStop sett) :=
  fun h => absurd h Bool.false_ne_true
theorem Laws.RoundTrip.watchdogExpiry (ctx : Nat) : Laws.RoundTrip.Statement (.watchdogExpiry ctx) :=
  fun h => absurd h Bool.false_ne_true
theorem Laws.RoundTrip.contextStart (page : Nat) : Laws.RoundTrip.Statement (.contextStart page) :=
  fun h => absurd h Bool.false_ne_true
theorem Laws.RoundTrip.contextStopDispatch (page : Nat) : Laws.RoundTrip.Statement (.contextStopDispatch page) :=
  fun h => absurd h Bool.false_ne_true
theorem Laws.RoundTrip.contextEnd (page : Nat) : Laws.RoundTrip.Statement (.contextEnd page) :=
  fun h => absurd h Bool.false_ne_true
theorem Laws.RoundTrip.hostWdogWrite (page : Nat) (value : Word) : Laws.RoundTrip.Statement (.hostWdogWrite page value) :=
  fun h => absurd h Bool.false_ne_true
theorem Laws.RoundTrip.hostErrClear (page : Nat) : Laws.RoundTrip.Statement (.hostErrClear page) :=
  fun h => absurd h Bool.false_ne_true
theorem Laws.RoundTrip.hostMessagePush (page off : Nat) (words : List Word) : Laws.RoundTrip.Statement (.hostMessagePush page off words) :=
  fun h => absurd h Bool.false_ne_true
theorem Laws.RoundTrip.hostRegisterWrite (off : Nat) (value : Word) : Laws.RoundTrip.Statement (.hostRegisterWrite off value) :=
  fun h => absurd h Bool.false_ne_true
theorem Laws.RoundTrip.translationInvalidation (page : Nat) : Laws.RoundTrip.Statement (.translationInvalidation page) :=
  fun h => absurd h Bool.false_ne_true
theorem Laws.RoundTrip.translationInvalidationComplete (page : Nat) : Laws.RoundTrip.Statement (.translationInvalidationComplete page) :=
  fun h => absurd h Bool.false_ne_true
theorem Laws.RoundTrip.debugHalt (page : Nat) (value : Word) : Laws.RoundTrip.Statement (.debugHalt page value) :=
  fun h => absurd h Bool.false_ne_true
theorem Laws.RoundTrip.debugView (page uid : Nat) : Laws.RoundTrip.Statement (.debugView page uid) :=
  fun h => absurd h Bool.false_ne_true
theorem Laws.RoundTrip.debugResume (page : Nat) (value : Word) : Laws.RoundTrip.Statement (.debugResume page value) :=
  fun h => absurd h Bool.false_ne_true
theorem Laws.RoundTrip.debugDetach (page : Nat) : Laws.RoundTrip.Statement (.debugDetach page) :=
  fun h => absurd h Bool.false_ne_true
theorem Laws.RoundTrip.faceFence (mask : BitVec 8) : Laws.RoundTrip.Statement (.faceFence mask) :=
  fun h => absurd h Bool.false_ne_true
theorem Laws.RoundTrip.faceFailure (face : Nat) : Laws.RoundTrip.Statement (.faceFailure face) :=
  fun h => absurd h Bool.false_ne_true
theorem Laws.RoundTrip.faceReset (mask : BitVec 8) : Laws.RoundTrip.Statement (.faceReset mask) :=
  fun h => absurd h Bool.false_ne_true
theorem Laws.RoundTrip.freezeRequest : Laws.RoundTrip.Statement (.freezeRequest) :=
  fun h => absurd h Bool.false_ne_true
theorem Laws.RoundTrip.freezeFaceTimeout (face : Nat) : Laws.RoundTrip.Statement (.freezeFaceTimeout face) :=
  fun h => absurd h Bool.false_ne_true
theorem Laws.RoundTrip.freezeComplete : Laws.RoundTrip.Statement (.freezeComplete) :=
  fun h => absurd h Bool.false_ne_true
theorem Laws.RoundTrip.freezeResume (bad : List Nat) : Laws.RoundTrip.Statement (.freezeResume bad) :=
  fun h => absurd h Bool.false_ne_true
theorem Laws.RoundTrip.attestationRequest : Laws.RoundTrip.Statement (.attestationRequest) :=
  fun h => absurd h Bool.false_ne_true
theorem Laws.RoundTrip.hostCxlWrite (off : Nat) (bytes : List Byte) : Laws.RoundTrip.Statement (.hostCxlWrite off bytes) :=
  fun h => absurd h Bool.false_ne_true
theorem Laws.RoundTrip.hostCxlRead (off n : Nat) : Laws.RoundTrip.Statement (.hostCxlRead off n) :=
  fun h => absurd h Bool.false_ne_true
theorem Laws.RoundTrip.remoteDeviceAccess (dev rctx : Nat) (acc : Access) : Laws.RoundTrip.Statement (.remoteDeviceAccess dev rctx acc) :=
  fun h => absurd h Bool.false_ne_true
theorem Laws.RoundTrip.helvenLinkLoss (link : Nat) : Laws.RoundTrip.Statement (.helvenLinkLoss link) :=
  fun h => absurd h Bool.false_ne_true
theorem Laws.RoundTrip.linkLossTimeout (dev : Nat) : Laws.RoundTrip.Statement (.linkLossTimeout dev) :=
  fun h => absurd h Bool.false_ne_true
theorem Laws.RoundTrip.stackLoss (stack : Nat) : Laws.RoundTrip.Statement (.stackLoss stack) :=
  fun h => absurd h Bool.false_ne_true
theorem Laws.RoundTrip.hostPortLoss (port : Nat) : Laws.RoundTrip.Statement (.hostPortLoss port) :=
  fun h => absurd h Bool.false_ne_true
theorem Laws.RoundTrip.thermalTrip (cause : BitVec 4) (face : BitVec 3) : Laws.RoundTrip.Statement (.thermalTrip cause face) :=
  fun h => absurd h Bool.false_ne_true
theorem Laws.RoundTrip.moduleReset : Laws.RoundTrip.Statement (.moduleReset) :=
  fun h => absurd h Bool.false_ne_true
theorem Laws.RoundTrip.throttleInterval (limits : Bool) : Laws.RoundTrip.Statement (.throttleInterval limits) :=
  fun h => absurd h Bool.false_ne_true
theorem Laws.RoundTrip.activeBankLimitChange (stack limit : Nat) : Laws.RoundTrip.Statement (.activeBankLimitChange stack limit) :=
  fun h => absurd h Bool.false_ne_true
theorem Laws.RoundTrip.ageingUpdate (records : List Word) : Laws.RoundTrip.Statement (.ageingUpdate records) :=
  fun h => absurd h Bool.false_ne_true
theorem Laws.RoundTrip.scrubRead (line : Nat) (outcome : ScrubOutcome) : Laws.RoundTrip.Statement (.scrubRead line outcome) :=
  fun h => absurd h Bool.false_ne_true
theorem Laws.RoundTrip.rowDisturbanceAlert (sett row : Nat) (source : ActSource) : Laws.RoundTrip.Statement (.rowDisturbanceAlert sett row source) :=
  fun h => absurd h Bool.false_ne_true
theorem Laws.RoundTrip.refreshWindowEnd (stack : Nat) : Laws.RoundTrip.Statement (.refreshWindowEnd stack) :=
  fun h => absurd h Bool.false_ne_true
theorem Laws.RoundTrip.coreCycle (core : Nat) : Laws.RoundTrip.Statement (.coreCycle core) :=
  fun h => absurd h Bool.false_ne_true
theorem Laws.RoundTrip.overlayLoadComplete (sett base : Nat) : Laws.RoundTrip.Statement (.overlayLoadComplete sett base) :=
  fun h => absurd h Bool.false_ne_true
theorem Laws.RoundTrip.debuggerRegisterWrite (page uid : Nat) (reg : BitVec 6) (value : Word) : Laws.RoundTrip.Statement (.debuggerRegisterWrite page uid reg value) :=
  fun h => absurd h Bool.false_ne_true
theorem Laws.RoundTrip.bedLoss : Laws.RoundTrip.Statement (.bedLoss) :=
  fun h => absurd h Bool.false_ne_true

end Sys2Proof
end

