-- ==== Sys2Proof/Laws/Word.lean ====
section
/-!
SUPPORT. What an access to a word at its home does (R159, R160), and the synchronising forms on own-local words.
-/
set_option Elab.async false

namespace Sys2Proof.Machine

variable {s s₁ : State} {t : Thread} {g : BitVec 5} {d a : BitVec 5} {i : BitVec 10} {va : Nat}

theorem Ends.ready {fields sources : List (BitVec 5)} {len : Nat} (h : Ends s s₁ t fields sources len g) (hs : sources ⊆ fields) :
    Act.ready sources [] s₁ = .ok () s₁ :=
  Act.ready_full h.here h.full (by
    rw [List.any_eq_false]; intro r hr
    have := h.regs
    rw [List.any_eq_false] at this
    exact this r (hs hr)) (by simp)
theorem Ends.port {fields sources : List (BitVec 5)} {len : Nat} (h : Ends s s₁ t fields sources len g) {r : BitVec 5} (hr : r ∈ fields) :
    isPort r = false := by
  have := h.regs
  rw [List.any_eq_false] at this
  simpa using this r hr

theorem localCore_localLoc {c off : Nat} (hc : c < Config.cores) (ho : off < 2 ^ 16) : localCore (localLoc c off) = some c := by
  unfold localCore localLoc
  have : c < 16384 := hc
  rw [if_pos (by constructor <;> omega)]
  congr 1
  omega
theorem Thread.OwnLocal.place (h : t.OwnLocal va) : localCore (t.localPlace va) = some t.core :=
  localCore_localLoc h.1 (Nat.mod_lt _ (by decide))

theorem State.wordChanged_none {s : State} (h : s.waiters = []) (loc : Nat) : s.wordChanged loc = s := by
  unfold State.wordChanged State.serveWaiters State.serveFirst
  rw [h]; rfl
/-- An access of the word's own core is answered at once (R159), and its context makes progress (R388). -/
theorem State.answer_own {a : Access} {t' : Thread} (h : s.thread? a.uid = some t') (hs : t'.settOn = none)
    (hl : localCore a.loc = some t'.core) (reg : BitVec 5) (v : Word) :
    s.answer a reg v = (s.progress t'.attr.ctx).modThread a.uid (fun t => ((if reg.toNat < 28 then t.fillReg reg.toNat v else t)).finish) := by
  unfold State.answer
  rw [h]
  simp [hl, hs]
theorem State.bitFor_plain {u : Nat} {t' : Thread} (h : s.thread? u = some t') (hs : t'.attr.isSealed = false) (loc : Nat) (f : Bool) :
    s.bitFor u loc f = s.bitEvent loc f := by
  unfold State.bitFor State.bitEvent
  rw [h]; simp [hs]
theorem State.seeFull_plain {t' : Thread} (hs : t'.attr.isSealed = false) (w : Nat) : s.seeFull t' w = s.full w := by
  unfold State.seeFull; simp [hs]

/-- Ending a step in which the wait is already over. -/
theorem Act.parked_running (h : s.thread? s.cur = some t) (hw : t.wait = .running) : (Act.parked : Act Unit) s = .error () s := by
  unfold Act.parked; rw [Act.me_bind h, if_pos (by simp [hw])]; rfl
/-- Ending a step in which the thread waits in its slot. -/
theorem Act.parked_slot (h : s.thread? s.cur = some t) (hw : t.wait ≠ .running) {c k : Nat} (hp : t.place = .slot c k) :
    (Act.parked : Act Unit) s = .error () (s.count c 7 1) := by
  unfold Act.parked; rw [Act.me_bind h, if_neg (by simp [hw]), hp]; rfl

end Sys2Proof.Machine
end

