-- ==== Sys2Proof/Tests/Slice0.lean ====
section
/-!
SUPPORT. Small tests of the model, and the witnesses of the statements' hypotheses.
-/
set_option Elab.async false
namespace Sys2Proof

/-! ## Decode checks: an ill-formed term for each (R102, R103, R105 to R107, R110) -/

/-- Guard 1; a fixed-latency destination 28 or 29; a source 30 or 31; a general field 28 and up; a B register 30 and up; p0 as a compare's and a
predicate form's destination; SEL under "not p0"; register numbers past the assigned ones; counts past their ranges; a device step. -/
theorem test_wf_refuses :
    Instr.wf (.add 3#5 4#5 (.reg 5#5) 1#5) = false ∧
    Instr.wf (.add 28#5 4#5 (.reg 5#5) 0#5) = false ∧ Instr.wf (.mov 29#5 (.reg 5#5) 0#5) = false ∧
    Instr.wf (.add 3#5 30#5 (.reg 5#5) 0#5) = false ∧ Instr.wf (.stD 31#5 4#5 0#10 0#5) = false ∧
    Instr.wf (.add 3#5 4#5 (.reg 30#5) 0#5) = false ∧ Instr.wf (.jmp (.reg 31#5) 0#5) = false ∧
    Instr.wf (.ldD 28#5 4#5 0#10 0#5) = false ∧ Instr.wf (.vld 1#4 28#5 0#5) = false ∧ Instr.wf (.mma 0#1 4#5 30#5 0#5) = false ∧
    Instr.wf (.cmpEq 0#4 4#5 (.reg 5#5) 0#5) = false ∧ Instr.wf (.cmpEqImm 0#4 4#5 0#10 0#5) = false ∧ Instr.wf (.pand 0#4 1#4 2#4 0#5) = false ∧
    Instr.wf (.sel 3#5 4#5 (.reg 5#5) 0#4 1#1 0#5) = false ∧
    Instr.wf (.mcfg 8#6 4#5 0#5) = false ∧ Instr.wf (.mget 37#6 4#5 0#5) = false ∧ Instr.wf (.vcfg 4#6 4#5 0#5) = false ∧
    Instr.wf (.vget 5#6 4#5 0#5) = false ∧ Instr.wf (.ccfg 13#6 4#5 0#5) = false ∧ Instr.wf (.cget 14#6 4#5 0#5) = false ∧
    Instr.wf (.mfs 16#8 4#5 0#5) = false ∧ Instr.wf (.mts 9#8 4#5 0#5) = false ∧ Instr.wf (.mts 15#8 4#5 0#5) = false ∧
    Instr.wf (.send 3#5 4#5 0#5 0#5) = false ∧ Instr.wf (.send 3#5 4#5 9#5 0#5) = false ∧
    Instr.wf (.spawn 3#5 4#5 (.reg 5#5) 11#5 0#5) = false ∧ Instr.wf (.spawn 3#5 4#5 (.reg 5#5) 0#5 0#5) = false ∧
    Instr.wf .threadPlacement = false :=
  ⟨rfl, rfl, rfl, rfl, rfl, rfl, rfl, rfl, rfl, rfl, rfl, rfl, rfl, rfl, rfl, rfl, rfl, rfl, rfl, rfl, rfl, rfl, rfl, rfl, rfl, rfl, rfl, rfl⟩

/-! ## Words: one for each instruction, its fields written into the table's fixed bits -/

theorem test_words_literals :
    decode 0x02327C06#32 0xFFFFFFFE#32 0x12345678#32 = some (.add 3#5 4#5 (.lit32 0xFFFFFFFE#32) 6#5) ∧
    decode 0x02327806#32 0xFFFFFFFE#32 0x12345678#32 = some (.add 3#5 4#5 (.lit64 0x12345678FFFFFFFE#64) 6#5) ∧
    decode 0#32 0#32 0#32 = some .ill ∧
    decode 0xC559A2C6#32 0#32 0#32 = some (.vslide 5#4 3#4 4#4 5#4 2#2 6#5) ∧
    decode 0x00000001#32 0#32 0#32 = none ∧ decode 0x02321406#32 0 0 = some (.add 3#5 4#5 (.reg 5#5) 6#5) ∧
    decode 0x02C21406#32 0 0 = some (.add 12#5 4#5 (.reg 5#5) 6#5) ∧ decode 0x03C21406#32 0 0 = none :=
  ⟨rfl, rfl, rfl, rfl, rfl, rfl, rfl, rfl⟩

theorem test_words_integer :
    decode 0x02321406#32 0 0 = some (.add 3#5 4#5 (.reg 5#5) 6#5) ∧
    decode 0x02321426#32 0 0 = some (.sub 3#5 4#5 (.reg 5#5) 6#5) ∧
    decode 0x02321446#32 0 0 = some (.mul 3#5 4#5 (.reg 5#5) 6#5) ∧
    decode 0x02321466#32 0 0 = some (.mulhS 3#5 4#5 (.reg 5#5) 6#5) ∧
    decode 0x02321486#32 0 0 = some (.mulhN 3#5 4#5 (.reg 5#5) 6#5) ∧
    decode 0x023214A6#32 0 0 = some (.divS 3#5 4#5 (.reg 5#5) 6#5) ∧
    decode 0x023214C6#32 0 0 = some (.divN 3#5 4#5 (.reg 5#5) 6#5) ∧
    decode 0x023214E6#32 0 0 = some (.remS 3#5 4#5 (.reg 5#5) 6#5) ∧
    decode 0x02321506#32 0 0 = some (.remN 3#5 4#5 (.reg 5#5) 6#5) ∧
    decode 0x02321526#32 0 0 = some (.minS 3#5 4#5 (.reg 5#5) 6#5) ∧
    decode 0x02321546#32 0 0 = some (.minN 3#5 4#5 (.reg 5#5) 6#5) ∧
    decode 0x02321566#32 0 0 = some (.maxS 3#5 4#5 (.reg 5#5) 6#5) ∧
    decode 0x02321586#32 0 0 = some (.maxN 3#5 4#5 (.reg 5#5) 6#5) ∧
    decode 0x023215A6#32 0 0 = some (.and 3#5 4#5 (.reg 5#5) 6#5) ∧
    decode 0x023215C6#32 0 0 = some (.or 3#5 4#5 (.reg 5#5) 6#5) ∧
    decode 0x023215E6#32 0 0 = some (.xor 3#5 4#5 (.reg 5#5) 6#5) ∧
    decode 0x02321606#32 0 0 = some (.andn 3#5 4#5 (.reg 5#5) 6#5) ∧
    decode 0x02321626#32 0 0 = some (.shl 3#5 4#5 (.reg 5#5) 6#5) ∧
    decode 0x02321646#32 0 0 = some (.shr 3#5 4#5 (.reg 5#5) 6#5) ∧
    decode 0x02321666#32 0 0 = some (.sar 3#5 4#5 (.reg 5#5) 6#5) ∧
    decode 0x02321686#32 0 0 = some (.rol 3#5 4#5 (.reg 5#5) 6#5) :=
  ⟨rfl, rfl, rfl, rfl, rfl, rfl, rfl, rfl, rfl, rfl, rfl, rfl, rfl, rfl, rfl, rfl, rfl, rfl, rfl, rfl, rfl⟩

theorem test_words_immediate :
    decode 0x063254A6#32 0 0 = some (.addImm 3#5 4#5 677#10 6#5) ∧
    decode 0x083254A6#32 0 0 = some (.andImm 3#5 4#5 677#10 6#5) ∧
    decode 0x0A3254A6#32 0 0 = some (.orImm 3#5 4#5 677#10 6#5) ∧
    decode 0x0C3254A6#32 0 0 = some (.xorImm 3#5 4#5 677#10 6#5) ∧
    decode 0x0E3254A6#32 0 0 = some (.shlImm 3#5 4#5 677#10 6#5) ∧
    decode 0x103254A6#32 0 0 = some (.shrImm 3#5 4#5 677#10 6#5) ∧
    decode 0x123254A6#32 0 0 = some (.sarImm 3#5 4#5 677#10 6#5) ∧
    decode 0x143254A6#32 0 0 = some (.rolImm 3#5 4#5 677#10 6#5) ∧
    decode 0x163254A6#32 0 0 = some (.mulImm 3#5 4#5 677#10 6#5) ∧
    decode 0x183054A6#32 0 0 = some (.movImm 3#5 677#10 6#5) ∧
    decode 0x04301406#32 0 0 = some (.mov 3#5 (.reg 5#5) 6#5) ∧
    decode 0x04301426#32 0 0 = some (.neg 3#5 (.reg 5#5) 6#5) ∧
    decode 0x04301446#32 0 0 = some (.abs 3#5 (.reg 5#5) 6#5) ∧
    decode 0x04301466#32 0 0 = some (.clz 3#5 (.reg 5#5) 6#5) ∧
    decode 0x04301486#32 0 0 = some (.ctz 3#5 (.reg 5#5) 6#5) ∧
    decode 0x043014A6#32 0 0 = some (.popc 3#5 (.reg 5#5) 6#5) ∧
    decode 0x043014C6#32 0 0 = some (.brev 3#5 (.reg 5#5) 6#5) ∧
    decode 0x05F014E6#32 0 0 = some (.movCtl 1#1 (.reg 5#5) 6#5) ∧
    decode 0x1A321406#32 0 0 = some (.ext 3#5 4#5 (.reg 5#5) 6#5) ∧
    decode 0x1A321426#32 0 0 = some (.extS 3#5 4#5 (.reg 5#5) 6#5) ∧
    decode 0x1A321446#32 0 0 = some (.ins 3#5 4#5 (.reg 5#5) 6#5) ∧
    decode 0x1C3214A6#32 0 0 = some (.sel 3#5 4#5 (.reg 5#5) 2#4 1#1 6#5) :=
  ⟨rfl, rfl, rfl, rfl, rfl, rfl, rfl, rfl, rfl, rfl, rfl, rfl, rfl, rfl, rfl, rfl, rfl, rfl, rfl, rfl, rfl, rfl⟩

theorem test_words_compare :
    decode 0x1E321406#32 0 0 = some (.cmpEq 3#4 4#5 (.reg 5#5) 6#5) ∧
    decode 0x1E321426#32 0 0 = some (.cmpNe 3#4 4#5 (.reg 5#5) 6#5) ∧
    decode 0x1E321446#32 0 0 = some (.cmpLt 3#4 4#5 (.reg 5#5) 6#5) ∧
    decode 0x1E321466#32 0 0 = some (.cmpGe 3#4 4#5 (.reg 5#5) 6#5) ∧
    decode 0x1E321486#32 0 0 = some (.cmpLe 3#4 4#5 (.reg 5#5) 6#5) ∧
    decode 0x1E3214A6#32 0 0 = some (.cmpGt 3#4 4#5 (.reg 5#5) 6#5) ∧
    decode 0x1E3214C6#32 0 0 = some (.cmpLo 3#4 4#5 (.reg 5#5) 6#5) ∧
    decode 0x1E3214E6#32 0 0 = some (.cmpHs 3#4 4#5 (.reg 5#5) 6#5) ∧
    decode 0x1E321506#32 0 0 = some (.cmpLs 3#4 4#5 (.reg 5#5) 6#5) ∧
    decode 0x1E321526#32 0 0 = some (.cmpHi 3#4 4#5 (.reg 5#5) 6#5) ∧
    decode 0x203254A6#32 0 0 = some (.cmpEqImm 3#4 4#5 677#10 6#5) ∧
    decode 0x223254A6#32 0 0 = some (.cmpNeImm 3#4 4#5 677#10 6#5) ∧
    decode 0x243254A6#32 0 0 = some (.cmpLtImm 3#4 4#5 677#10 6#5) ∧
    decode 0x263254A6#32 0 0 = some (.cmpGeImm 3#4 4#5 677#10 6#5) ∧
    decode 0x283254A6#32 0 0 = some (.cmpLeImm 3#4 4#5 677#10 6#5) ∧
    decode 0x2A3254A6#32 0 0 = some (.cmpGtImm 3#4 4#5 677#10 6#5) ∧
    decode 0x2C3254A6#32 0 0 = some (.cmpLoImm 3#4 4#5 677#10 6#5) ∧
    decode 0x2E3254A6#32 0 0 = some (.cmpHsImm 3#4 4#5 677#10 6#5) ∧
    decode 0x30301006#32 0 0 = some (.const 3#5 1#8 6#5) :=
  ⟨rfl, rfl, rfl, rfl, rfl, rfl, rfl, rfl, rfl, rfl, rfl, rfl, rfl, rfl, rfl, rfl, rfl, rfl, rfl⟩

theorem test_words_pointer :
    decode 0x32321406#32 0 0 = some (.adda 3#5 4#5 (.reg 5#5) 6#5) ∧
    decode 0x32321426#32 0 0 = some (.suba 3#5 4#5 (.reg 5#5) 6#5) ∧
    decode 0x343254A6#32 0 0 = some (.addaImm 3#5 4#5 677#10 6#5) ∧
    decode 0x363254A6#32 0 0 = some (.subaImm 3#5 4#5 677#10 6#5) ∧
    decode 0x38321406#32 0 0 = some (.ptag 3#5 4#5 (.reg 5#5) 6#5) ∧
    decode 0x38320026#32 0 0 = some (.pfmt 3#5 4#5 6#5) ∧
    decode 0x3A321406#32 0 0 = some (.href 3#5 4#5 (.reg 5#5) 6#5) ∧
    decode 0x3C321406#32 0 0 = some (.lwin 3#5 4#5 (.reg 5#5) 6#5) ∧
    decode 0x3C301426#32 0 0 = some (.lwinOwn 3#5 (.reg 5#5) 6#5) :=
  ⟨rfl, rfl, rfl, rfl, rfl, rfl, rfl, rfl, rfl⟩

theorem test_words_float :
    decode 0x40321406#32 0 0 = some (.fadd 3#5 4#5 (.reg 5#5) 6#5) ∧
    decode 0x40321426#32 0 0 = some (.fsub 3#5 4#5 (.reg 5#5) 6#5) ∧
    decode 0x40321446#32 0 0 = some (.fmul 3#5 4#5 (.reg 5#5) 6#5) ∧
    decode 0x40321466#32 0 0 = some (.fmin 3#5 4#5 (.reg 5#5) 6#5) ∧
    decode 0x40321486#32 0 0 = some (.fmax 3#5 4#5 (.reg 5#5) 6#5) ∧
    decode 0x42321406#32 0 0 = some (.ffma 3#5 4#5 (.reg 5#5) 6#5) ∧
    decode 0x44321406#32 0 0 = some (.fcmpEq 3#4 4#5 (.reg 5#5) 6#5) ∧
    decode 0x44321426#32 0 0 = some (.fcmpNe 3#4 4#5 (.reg 5#5) 6#5) ∧
    decode 0x44321446#32 0 0 = some (.fcmpLt 3#4 4#5 (.reg 5#5) 6#5) ∧
    decode 0x44321466#32 0 0 = some (.fcmpLe 3#4 4#5 (.reg 5#5) 6#5) ∧
    decode 0x44321486#32 0 0 = some (.fcmpGt 3#4 4#5 (.reg 5#5) 6#5) ∧
    decode 0x443214A6#32 0 0 = some (.fcmpGe 3#4 4#5 (.reg 5#5) 6#5) ∧
    decode 0x443214C6#32 0 0 = some (.fcmpUn 3#4 4#5 (.reg 5#5) 6#5) ∧
    decode 0x443214E6#32 0 0 = some (.fcmpOr 3#4 4#5 (.reg 5#5) 6#5) ∧
    decode 0x46301446#32 0 0 = some (.fcvtF2i 3#5 (.reg 5#5) 2#2 6#5) ∧
    decode 0x463014C6#32 0 0 = some (.fcvtF2n 3#5 (.reg 5#5) 2#2 6#5) ∧
    decode 0x46301546#32 0 0 = some (.fcvtFint 3#5 (.reg 5#5) 2#2 6#5) ∧
    decode 0x46301586#32 0 0 = some (.fcvtI2f 3#5 (.reg 5#5) 6#5) ∧
    decode 0x463015A6#32 0 0 = some (.fcvtN2f 3#5 (.reg 5#5) 6#5) ∧
    decode 0x463015C6#32 0 0 = some (.fcvtF2h 3#5 (.reg 5#5) 6#5) ∧
    decode 0x463015E6#32 0 0 = some (.fcvtH2f 3#5 (.reg 5#5) 6#5) ∧
    decode 0x46301606#32 0 0 = some (.fcvtF2b 3#5 (.reg 5#5) 6#5) ∧
    decode 0x46301626#32 0 0 = some (.fcvtB2f 3#5 (.reg 5#5) 6#5) ∧
    decode 0x46301646#32 0 0 = some (.fcvtF2w 3#5 (.reg 5#5) 6#5) ∧
    decode 0x46301666#32 0 0 = some (.fcvtW2f 3#5 (.reg 5#5) 6#5) :=
  ⟨rfl, rfl, rfl, rfl, rfl, rfl, rfl, rfl, rfl, rfl, rfl, rfl, rfl, rfl, rfl, rfl, rfl, rfl, rfl, rfl, rfl, rfl, rfl, rfl, rfl⟩

theorem test_words_transfer :
    decode 0x58321406#32 0 0 = some (.pand 3#4 4#4 5#4 6#5) ∧
    decode 0x58321426#32 0 0 = some (.por 3#4 4#4 5#4 6#5) ∧
    decode 0x58321446#32 0 0 = some (.pxor 3#4 4#4 5#4 6#5) ∧
    decode 0x58320066#32 0 0 = some (.pnot 3#4 4#4 6#5) ∧
    decode 0x58320086#32 0 0 = some (.pmov 3#4 4#4 6#5) ∧
    decode 0x5B024686#32 0 0 = some (.br 528948#20 6#5) ∧
    decode 0x5D024686#32 0 0 = some (.call 528948#20 6#5) ∧
    decode 0x5E001406#32 0 0 = some (.jmp (.reg 5#5) 6#5) ∧
    decode 0x60301406#32 0 0 = some (.callr 3#5 (.reg 5#5) 6#5) ∧
    decode 0x623054A6#32 0 0 = some (.loop 3#5 677#10 6#5) :=
  ⟨rfl, rfl, rfl, rfl, rfl, rfl, rfl, rfl, rfl, rfl⟩

theorem test_words_access :
    decode 0x783254A6#32 0 0 = some (.ldB 3#5 4#5 677#10 6#5) ∧
    decode 0x7A3254A6#32 0 0 = some (.ldH 3#5 4#5 677#10 6#5) ∧
    decode 0x7C3254A6#32 0 0 = some (.ldW 3#5 4#5 677#10 6#5) ∧
    decode 0x7E3254A6#32 0 0 = some (.ldD 3#5 4#5 677#10 6#5) ∧
    decode 0x803254A6#32 0 0 = some (.stB 3#5 4#5 677#10 6#5) ∧
    decode 0x823254A6#32 0 0 = some (.stH 3#5 4#5 677#10 6#5) ∧
    decode 0x843254A6#32 0 0 = some (.stW 3#5 4#5 677#10 6#5) ∧
    decode 0x863254A6#32 0 0 = some (.stD 3#5 4#5 677#10 6#5) ∧
    decode 0x883254A6#32 0 0 = some (.ldBMig 3#5 4#5 677#10 6#5) ∧
    decode 0x8A3254A6#32 0 0 = some (.ldHMig 3#5 4#5 677#10 6#5) ∧
    decode 0x8C3254A6#32 0 0 = some (.ldWMig 3#5 4#5 677#10 6#5) ∧
    decode 0x8E3254A6#32 0 0 = some (.ldDMig 3#5 4#5 677#10 6#5) ∧
    decode 0x903254A6#32 0 0 = some (.stBMig 3#5 4#5 677#10 6#5) ∧
    decode 0x923254A6#32 0 0 = some (.stHMig 3#5 4#5 677#10 6#5) ∧
    decode 0x943254A6#32 0 0 = some (.stWMig 3#5 4#5 677#10 6#5) ∧
    decode 0x963254A6#32 0 0 = some (.stDMig 3#5 4#5 677#10 6#5) ∧
    decode 0x980254A6#32 0 0 = some (.pref 4#5 677#10 6#5) :=
  ⟨rfl, rfl, rfl, rfl, rfl, rfl, rfl, rfl, rfl, rfl, rfl, rfl, rfl, rfl, rfl, rfl, rfl⟩

theorem test_words_fullEmpty :
    decode 0x9A3254A6#32 0 0 = some (.lde 3#5 4#5 677#10 6#5) ∧
    decode 0x9C3254A6#32 0 0 = some (.ldf 3#5 4#5 677#10 6#5) ∧
    decode 0x9E3254A6#32 0 0 = some (.stf 3#5 4#5 677#10 6#5) ∧
    decode 0xA03254A6#32 0 0 = some (.sts 3#5 4#5 677#10 6#5) ∧
    decode 0xA20254A6#32 0 0 = some (.clre 4#5 677#10 6#5) ∧
    decode 0xA4300006#32 0 0 = some (.arm 3#5 6#5) ∧
    decode 0xA4321426#32 0 0 = some (.rfill 3#5 4#5 (.reg 5#5) 6#5) :=
  ⟨rfl, rfl, rfl, rfl, rfl, rfl, rfl⟩

theorem test_words_atomic :
    decode 0xA6321406#32 0 0 = some (.aadd 3#5 4#5 (.reg 5#5) 6#5) ∧
    decode 0xA6321426#32 0 0 = some (.aminS 3#5 4#5 (.reg 5#5) 6#5) ∧
    decode 0xA6321446#32 0 0 = some (.aminN 3#5 4#5 (.reg 5#5) 6#5) ∧
    decode 0xA6321466#32 0 0 = some (.amaxS 3#5 4#5 (.reg 5#5) 6#5) ∧
    decode 0xA6321486#32 0 0 = some (.amaxN 3#5 4#5 (.reg 5#5) 6#5) ∧
    decode 0xA63214A6#32 0 0 = some (.aand 3#5 4#5 (.reg 5#5) 6#5) ∧
    decode 0xA63214C6#32 0 0 = some (.aor 3#5 4#5 (.reg 5#5) 6#5) ∧
    decode 0xA63214E6#32 0 0 = some (.axor 3#5 4#5 (.reg 5#5) 6#5) ∧
    decode 0xA6321506#32 0 0 = some (.aswp 3#5 4#5 (.reg 5#5) 6#5) ∧
    decode 0xA6321526#32 0 0 = some (.acas 3#5 4#5 (.reg 5#5) 6#5) ∧
    decode 0xA6321546#32 0 0 = some (.afadd 3#5 4#5 (.reg 5#5) 6#5) ∧
    decode 0xA8021406#32 0 0 = some (.pst 4#5 (.reg 5#5) 6#5) ∧
    decode 0xA8021426#32 0 0 = some (.pstF 4#5 (.reg 5#5) 6#5) :=
  ⟨rfl, rfl, rfl, rfl, rfl, rfl, rfl, rfl, rfl, rfl, rfl, rfl, rfl⟩

theorem test_words_wait :
    decode 0xAA021406#32 0 0 = some (.waitaEq 4#5 (.reg 5#5) 6#5) ∧
    decode 0xAA021426#32 0 0 = some (.waitaNe 4#5 (.reg 5#5) 6#5) ∧
    decode 0xAA021446#32 0 0 = some (.waitaHs 4#5 (.reg 5#5) 6#5) ∧
    decode 0xAA321606#32 0 0 = some (.waitaEqT 3#5 4#5 (.reg 5#5) 6#5) ∧
    decode 0xAA321626#32 0 0 = some (.waitaNeT 3#5 4#5 (.reg 5#5) 6#5) ∧
    decode 0xAA321646#32 0 0 = some (.waitaHsT 3#5 4#5 (.reg 5#5) 6#5) ∧
    decode 0xAC000006#32 0 0 = some (.fenceCore 6#5) ∧
    decode 0xAC000026#32 0 0 = some (.fenceDev 6#5) ∧
    decode 0xAC000046#32 0 0 = some (.fenceSys 6#5) ∧
    decode 0xAC021466#32 0 0 = some (.xfence 4#5 (.reg 5#5) 6#5) ∧
    decode 0xAC000086#32 0 0 = some (.chend 6#5) :=
  ⟨rfl, rfl, rfl, rfl, rfl, rfl, rfl, rfl, rfl, rfl, rfl⟩

theorem test_words_thread :
    decode 0xB0321426#32 0 0 = some (.spawn 3#5 4#5 (.reg 5#5) 1#5 6#5) ∧
    decode 0xB2000006#32 0 0 = some (.quit 6#5) ∧
    decode 0xB2000026#32 0 0 = some (.yield 6#5) ∧
    decode 0xB2000046#32 0 0 = some (.hend 6#5) ∧
    decode 0xB2000066#32 0 0 = some (.publ 6#5) ∧
    decode 0xB2000086#32 0 0 = some (.sdrop 6#5) ∧
    decode 0xB4021406#32 0 0 = some (.join 4#5 (.reg 5#5) 6#5) ∧
    decode 0xB4020026#32 0 0 = some (.leave 4#5 6#5) ∧
    decode 0xB4020046#32 0 0 = some (.gbar 4#5 6#5) ∧
    decode 0xB6021406#32 0 0 = some (.migr 4#5 (.reg 5#5) 6#5) ∧
    decode 0xB8320026#32 0 0 = some (.send 3#5 4#5 1#5 6#5) ∧
    decode 0xBA320006#32 0 0 = some (.watch 3#5 4#5 6#5) ∧
    decode 0xBA020026#32 0 0 = some (.unwatch 4#5 6#5) ∧
    decode 0xBC320006#32 0 0 = some (.launch 3#5 4#5 6#5) :=
  ⟨rfl, rfl, rfl, rfl, rfl, rfl, rfl, rfl, rfl, rfl, rfl, rfl, rfl, rfl⟩

theorem test_words_matrix :
    decode 0xC0020006#32 0 0 = some (.mzero 1#1 6#5) ∧
    decode 0xC0064286#32 0 0 = some (.mma 1#1 4#5 5#5 6#5) ∧
    decode 0xC00A4006#32 0 0 = some (.mring 1#1 4#5 6#5) ∧
    decode 0xC00C4006#32 0 0 = some (.mldb 4#5 6#5) ∧
    decode 0xC0124006#32 0 0 = some (.mstore 1#1 4#5 6#5) ∧
    decode 0xC0164006#32 0 0 = some (.maccLd 1#1 4#5 6#5) ∧
    decode 0xC01A4006#32 0 0 = some (.maccAdd 1#1 4#5 6#5) ∧
    decode 0xC1064006#32 0 0 = some (.mcfg 3#6 4#5 6#5) ∧
    decode 0xC1864006#32 0 0 = some (.mget 3#6 4#5 6#5) ∧
    decode 0xC2000006#32 0 0 = some (.snormClr 6#5) ∧
    decode 0xC2044286#32 0 0 = some (.snormA 4#5 5#5 6#5) ∧
    decode 0xC2064286#32 0 0 = some (.snormB 4#5 5#5 6#5) ∧
    decode 0xC2084006#32 0 0 = some (.sngetA 4#5 6#5) ∧
    decode 0xC20A4006#32 0 0 = some (.sngetB 4#5 6#5) ∧
    decode 0xC20C4006#32 0 0 = some (.snputA 4#5 6#5) ∧
    decode 0xC20E4006#32 0 0 = some (.snputB 4#5 6#5) ∧
    decode 0xC2100006#32 0 0 = some (.salias 6#5) ∧
    decode 0xC2124006#32 0 0 = some (.sseed 4#5 6#5) ∧
    decode 0xC2164286#32 0 0 = some (.srun 1#1 4#5 5#5 6#5) ∧
    decode 0xC21A4006#32 0 0 = some (.svar 1#1 4#5 6#5) ∧
    decode 0xC2204286#32 0 0 = some (.pload 4#5 5#5 6#5) ∧
    decode 0xC2224006#32 0 0 = some (.pscore 4#5 6#5) ∧
    decode 0xC2244006#32 0 0 = some (.psel 4#5 6#5) ∧
    decode 0xC22A4286#32 0 0 = some (.assay 1#1 4#5 5#5 6#5) ∧
    decode 0xC22C4286#32 0 0 = some (.aread 4#5 5#5 6#5) :=
  ⟨rfl, rfl, rfl, rfl, rfl, rfl, rfl, rfl, rfl, rfl, rfl, rfl, rfl, rfl, rfl, rfl, rfl, rfl, rfl, rfl, rfl, rfl, rfl, rfl, rfl⟩

theorem test_words_vectorA :
    decode 0xC401A2C6#32 0 0 = some (.vadd 3#4 4#4 5#4 2#2 6#5) ∧
    decode 0xC409A2C6#32 0 0 = some (.vsub 3#4 4#4 5#4 2#2 6#5) ∧
    decode 0xC411A2C6#32 0 0 = some (.vmul 3#4 4#4 5#4 2#2 6#5) ∧
    decode 0xC419A2C6#32 0 0 = some (.vfma 3#4 4#4 5#4 2#2 6#5) ∧
    decode 0xC421A2C6#32 0 0 = some (.vmin 3#4 4#4 5#4 2#2 6#5) ∧
    decode 0xC429A2C6#32 0 0 = some (.vmax 3#4 4#4 5#4 2#2 6#5) ∧
    decode 0xC431A046#32 0 0 = some (.vabs 3#4 4#4 2#2 6#5) ∧
    decode 0xC439A046#32 0 0 = some (.vneg 3#4 4#4 2#2 6#5) ∧
    decode 0xC441A046#32 0 0 = some (.vrndRne 3#4 4#4 2#2 6#5) ∧
    decode 0xC449A046#32 0 0 = some (.vrndRz 3#4 4#4 2#2 6#5) ∧
    decode 0xC451A046#32 0 0 = some (.vrndRd 3#4 4#4 2#2 6#5) ∧
    decode 0xC459A046#32 0 0 = some (.vrndRu 3#4 4#4 2#2 6#5) ∧
    decode 0xC461A046#32 0 0 = some (.vfexp2 3#4 4#4 2#2 6#5) ∧
    decode 0xC469A2C6#32 0 0 = some (.vscale 3#4 4#4 5#4 2#2 6#5) ∧
    decode 0xC471A046#32 0 0 = some (.vrcp 3#4 4#4 2#2 6#5) ∧
    decode 0xC479A046#32 0 0 = some (.vrsq 3#4 4#4 2#2 6#5) ∧
    decode 0xC481A2C6#32 0 0 = some (.vcmpEq 3#2 4#4 5#4 2#2 6#5) ∧
    decode 0xC489A2C6#32 0 0 = some (.vcmpNe 3#2 4#4 5#4 2#2 6#5) ∧
    decode 0xC491A2C6#32 0 0 = some (.vcmpLt 3#2 4#4 5#4 2#2 6#5) ∧
    decode 0xC499A2C6#32 0 0 = some (.vcmpLe 3#2 4#4 5#4 2#2 6#5) ∧
    decode 0xC4A1A2C6#32 0 0 = some (.vcmpGt 3#2 4#4 5#4 2#2 6#5) ∧
    decode 0xC4A9A2C6#32 0 0 = some (.vcmpGe 3#2 4#4 5#4 2#2 6#5) ∧
    decode 0xC4B1A2C6#32 0 0 = some (.vcmpUn 3#2 4#4 5#4 2#2 6#5) ∧
    decode 0xC4B9A2C6#32 0 0 = some (.vcmpOr 3#2 4#4 5#4 2#2 6#5) ∧
    decode 0xC4C1A2C6#32 0 0 = some (.vsel 3#4 4#4 5#4 2#2 6#5) ∧
    decode 0xC4C9A2C6#32 0 0 = some (.viadd 3#4 4#4 5#4 2#2 6#5) :=
  ⟨rfl, rfl, rfl, rfl, rfl, rfl, rfl, rfl, rfl, rfl, rfl, rfl, rfl, rfl, rfl, rfl, rfl, rfl, rfl, rfl, rfl, rfl, rfl, rfl, rfl, rfl⟩

theorem test_words_vectorB :
    decode 0xC4D1A2C6#32 0 0 = some (.visub 3#4 4#4 5#4 2#2 6#5) ∧
    decode 0xC4D9A2C6#32 0 0 = some (.vimul 3#4 4#4 5#4 2#2 6#5) ∧
    decode 0xC4E1A2C6#32 0 0 = some (.vand 3#4 4#4 5#4 2#2 6#5) ∧
    decode 0xC4E9A2C6#32 0 0 = some (.vor 3#4 4#4 5#4 2#2 6#5) ∧
    decode 0xC4F1A2C6#32 0 0 = some (.vxor 3#4 4#4 5#4 2#2 6#5) ∧
    decode 0xC4F9A2C6#32 0 0 = some (.vshl 3#4 4#4 5#4 2#2 6#5) ∧
    decode 0xC501A2C6#32 0 0 = some (.vshr 3#4 4#4 5#4 2#2 6#5) ∧
    decode 0xC509A2C6#32 0 0 = some (.vshrS 3#4 4#4 5#4 2#2 6#5) ∧
    decode 0xC511A046#32 0 0 = some (.vrsum 3#4 4#4 2#2 6#5) ∧
    decode 0xC519A046#32 0 0 = some (.vnzc 3#4 4#4 2#2 6#5) ∧
    decode 0xC521A046#32 0 0 = some (.vnzb 3#4 4#4 2#2 6#5) ∧
    decode 0xC529A2C6#32 0 0 = some (.vperm 3#4 4#4 5#4 2#2 6#5) ∧
    decode 0xC5B1A046#32 0 0 = some (.vcvtF2i 3#4 4#4 2#2 6#5) ∧
    decode 0xC5B9A046#32 0 0 = some (.vcvtF2iRz 3#4 4#4 2#2 6#5) ∧
    decode 0xC5C1A046#32 0 0 = some (.vcvtI2f 3#4 4#4 2#2 6#5) ∧
    decode 0xC5C9A046#32 0 0 = some (.vcvtF2b 3#4 4#4 2#2 6#5) ∧
    decode 0xC5D1A046#32 0 0 = some (.vcvtB2f 3#4 4#4 2#2 6#5) ∧
    decode 0xC5D9A046#32 0 0 = some (.vcvtF2h 3#4 4#4 2#2 6#5) ∧
    decode 0xC5E1A046#32 0 0 = some (.vcvtH2f 3#4 4#4 2#2 6#5) :=
  ⟨rfl, rfl, rfl, rfl, rfl, rfl, rfl, rfl, rfl, rfl, rfl, rfl, rfl, rfl, rfl, rfl, rfl, rfl, rfl⟩

theorem test_words_copy :
    decode 0xC60E4006#32 0 0 = some (.vld 7#4 4#5 6#5) ∧
    decode 0xC62E4006#32 0 0 = some (.vst 7#4 4#5 6#5) ∧
    decode 0xC64E4286#32 0 0 = some (.vlds 7#4 4#5 5#5 6#5) ∧
    decode 0xC66E4006#32 0 0 = some (.vldx 7#4 4#5 6#5) ∧
    decode 0xC68E4286#32 0 0 = some (.vldb 7#4 4#5 5#5 6#5) ∧
    decode 0xC6AE4286#32 0 0 = some (.vstb 7#4 4#5 5#5 6#5) ∧
    decode 0xC6CE4006#32 0 0 = some (.vputs 7#4 4#5 6#5) ∧
    decode 0xC6EE4006#32 0 0 = some (.vgets 7#4 4#5 6#5) ∧
    decode 0xC7064006#32 0 0 = some (.vcfg 3#6 4#5 6#5) ∧
    decode 0xC7864006#32 0 0 = some (.vget 3#6 4#5 6#5) ∧
    decode 0xC8004286#32 0 0 = some (.ccopy 4#5 5#5 6#5) ∧
    decode 0xC8024006#32 0 0 = some (.cfill 4#5 6#5) ∧
    decode 0xC8044286#32 0 0 = some (.ctcopy 4#5 5#5 6#5) ∧
    decode 0xC8064286#32 0 0 = some (.cgather 4#5 5#5 6#5) ∧
    decode 0xC8084286#32 0 0 = some (.cscatter 4#5 5#5 6#5) ∧
    decode 0xC80A4286#32 0 0 = some (.ccopyF 4#5 5#5 6#5) ∧
    decode 0xC9064006#32 0 0 = some (.ccfg 3#6 4#5 6#5) ∧
    decode 0xC9864006#32 0 0 = some (.cget 3#6 4#5 6#5) :=
  ⟨rfl, rfl, rfl, rfl, rfl, rfl, rfl, rfl, rfl, rfl, rfl, rfl, rfl, rfl, rfl, rfl, rfl, rfl⟩

theorem test_words_handle :
    decode 0xCA004286#32 0 0 = some (.halloc 4#5 5#5 6#5) ∧
    decode 0xCA024006#32 0 0 = some (.hfree 4#5 6#5) ∧
    decode 0xCA044286#32 0 0 = some (.hwiden 4#5 5#5 6#5) ∧
    decode 0xCA064286#32 0 0 = some (.hpin 4#5 5#5 6#5) ∧
    decode 0xCA084006#32 0 0 = some (.hunpin 4#5 6#5) ∧
    decode 0xCA0A4286#32 0 0 = some (.hstageA 4#5 5#5 6#5) ∧
    decode 0xCA0C4286#32 0 0 = some (.hstageB 4#5 5#5 6#5) ∧
    decode 0xCA0E4286#32 0 0 = some (.hstageNc 4#5 5#5 6#5) ∧
    decode 0xCA104286#32 0 0 = some (.hstageNr 4#5 5#5 6#5) ∧
    decode 0xCA124286#32 0 0 = some (.hinfo 4#5 5#5 6#5) ∧
    decode 0xCA144286#32 0 0 = some (.hown 4#5 5#5 6#5) ∧
    decode 0xCA164006#32 0 0 = some (.hsync 4#5 6#5) ∧
    decode 0xCA204286#32 0 0 = some (.hopRowsum 4#5 5#5 6#5) ∧
    decode 0xCA224286#32 0 0 = some (.hopColsum 4#5 5#5 6#5) ∧
    decode 0xCA244286#32 0 0 = some (.hopScale 4#5 5#5 6#5) ∧
    decode 0xCA264286#32 0 0 = some (.hopAddh 4#5 5#5 6#5) ∧
    decode 0xCA284286#32 0 0 = some (.hopMulh 4#5 5#5 6#5) ∧
    decode 0xCA2A4286#32 0 0 = some (.hopAxpy 4#5 5#5 6#5) ∧
    decode 0xCA2C4286#32 0 0 = some (.hopFill 4#5 5#5 6#5) ∧
    decode 0xCA2E4286#32 0 0 = some (.hopFillImg 4#5 5#5 6#5) ∧
    decode 0xCA304286#32 0 0 = some (.hopTranspose 4#5 5#5 6#5) ∧
    decode 0xCA324286#32 0 0 = some (.hopCopyin 4#5 5#5 6#5) ∧
    decode 0xCA344286#32 0 0 = some (.hopCopyout 4#5 5#5 6#5) ∧
    decode 0xCA364286#32 0 0 = some (.hopGrows 4#5 5#5 6#5) ∧
    decode 0xCA384286#32 0 0 = some (.hopSrows 4#5 5#5 6#5) :=
  ⟨rfl, rfl, rfl, rfl, rfl, rfl, rfl, rfl, rfl, rfl, rfl, rfl, rfl, rfl, rfl, rfl, rfl, rfl, rfl, rfl, rfl, rfl, rfl, rfl, rfl⟩

theorem test_words_near :
    decode 0xCC004286#32 0 0 = some (.nmc 4#5 5#5 6#5) ∧
    decode 0xCC024286#32 0 0 = some (.nmload 4#5 5#5 6#5) ∧
    decode 0xCC044286#32 0 0 = some (.nmrow 4#5 5#5 6#5) ∧
    decode 0xCC064286#32 0 0 = some (.nmstat 4#5 5#5 6#5) ∧
    decode 0xE0004006#32 0 0 = some (.trap 4#5 6#5) ∧
    decode 0xE0020006#32 0 0 = some (.tret 6#5) ∧
    decode 0xE2144006#32 0 0 = some (.mfs 10#8 4#5 6#5) ∧
    decode 0xE4144006#32 0 0 = some (.mts 10#8 4#5 6#5) ∧
    decode 0xE41E4006#32 0 0 = some (.mtsWdog 4#5 6#5) ∧
    decode 0xE6000006#32 0 0 = some (.bkpt 6#5) ∧
    decode 0xE8000006#32 0 0 = some (.idle 6#5) ∧
    decode 0xE8024006#32 0 0 = some (.idleT 4#5 6#5) ∧
    decode 0xEA004286#32 0 0 = some (.tload 4#5 5#5 6#5) ∧
    decode 0xEC004286#32 0 0 = some (.synci 4#5 5#5 6#5) ∧
    decode 0xEE004286#32 0 0 = some (.harvest 4#5 5#5 6#5) ∧
    decode 0xF0004286#32 0 0 = some (.ctxswap 4#5 5#5 6#5) ∧
    decode 0xF2000000#32 0 0 = some .nop :=
  ⟨rfl, rfl, rfl, rfl, rfl, rfl, rfl, rfl, rfl, rfl, rfl, rfl, rfl, rfl, rfl, rfl, rfl⟩
end Sys2Proof

namespace Sys2Proof.Test
open Sys2Proof.Machine

/-! ## A small device: one thread in slot 0 of core 0, context 0, page 1 its code and page 2 its data -/

def full (v : Word) : Reg := ⟨v, true, false, false⟩
/-- A shadow of the thread's first chunk. -/
def shadow0 (regs : Tab Reg) : Shadow := ⟨regs, 0#16, 0#64, 0#64, 0#64, 0#64, 0x20000#64⟩
/-- A running thread with some full registers: pc 0x10000, trap vector 0x20000, handler of its launch at 0x30000. -/
def thr (vs : List (Nat × Word)) : Thread where
  place := .slot 0 0
  attr := { ctx := 0, header := 0, handler := 0x30000, mask := 0#28, seq := 1, tid := 5#32, count := 28, prio := 4, isSealed := false, restart := false }
  regs := vs.map (fun e => (e.1, full e.2))
  preds := 0#16
  pc := 0x10000
  fflags := 0#64
  cause := 0#64
  fval := 0#64
  fpc := 0#64
  tvec := 0x20000#64
  chunk := { startPc := 0x10000, startCo := 0, count := 0, reads := [], writes := [], pages := [], lost := false, sq := 0, solo := false, soloAt := 0, shadow := shadow0 (vs.map (fun e => (e.1, full e.2))) }
  prev := none
  foot := []
  footFull := []
  held := []
  allocs := []
  copied := 0
  async := []
  wait := .running
  stamp := 0
  ilen := 4
  released := []
  haltReq := false
  halted := false
  preempt := false
  home := none
  program := false
  handler := false
  enter := 0
  index := none
  swapReg := none
  aged := 0
  lastSlot := none
  toPlace := false
  packet := none
  back := false
  drain := none
  portWait := none
  stash := []
  ceded := false
/-- A page of 64 KiB of a context, in HBM at its own number. -/
def pageAt (ctx page : Nat) : TEntry := ⟨ctx, page, 0x10000 * page, false, true, true, true, 0, 0, 0#64, 0⟩
/-- The context page of a running context: ceiling 15, cores of every group, a fault window of 4 entries. -/
def ctx0 : CtxPage := { CtxPage.reset with state := 1, ceil := 15, allow := BitVec.allOnes 1024, fwbase := 0x1000#64, fwsize := 4#64,
                                           hqmax := 16#64, hqbytes := 0x100000#64 }
def core0 : Core := { Core.reset 0 with tag := some 0, etag := some 0 }
/-- The device with its threads, uids 1 and up; thread 1 has the turn. -/
def dev (ts : Tab Thread) : State :=
  { State.reset with
    threads := ts
    nextUid := 8
    cur := 1
    cores := [(0, core0)]
    ctxs := [(0, ctx0)]
    tcache := [pageAt 0 1, pageAt 0 2]
    device := { Device.reset with boot := 0x80#8 } }
def one (t : Thread) : State := dev [(1, t)]

theorem owns_of {t : Thread} {rs : List (BitVec 5)} (h : rs.all (fun r => decide (r.toNat < 28) && decide (r.toNat < t.attr.count)) = true) : t.Owns rs := by
  intro r hr
  have := List.all_eq_true.1 h r hr
  simpa using this
theorem holds_of {t : Thread} {rs : List (BitVec 5)} (h : rs.all (fun r => (t.reg r.toNat).full) = true) : t.Holds rs :=
  fun r hr => List.all_eq_true.1 h r hr
theorem inside_of {s : State} {t : Thread} {rs : List (BitVec 5)} {g : BitVec 5} (here : s.thread? s.cur = some t)
    (own : rs.all (fun r => decide (r.toNat < 28) && decide (r.toNat < t.attr.count)) = true) (guard : t.guard g = true)
    (room : t.Roomy) : Inside s t rs g :=
  ⟨here, owns_of own, guard, room⟩
/-- A thread with no chunk to commit ends its chunk at once. -/
theorem commit_idle {s : State} {t : Thread} (prev : t.prev = none) (idle : t.chunk.idle = true) :
    (s.withThread t).commitAll s.cur = (.done, s.withThread t) := by
  simp [State.commitAll, prev, idle]
theorem closed_idle {s : State} {t : Thread} {rs : List (BitVec 5)} {g : BitVec 5} (len : Nat) (here : s.thread? s.cur = some t)
    (on : t.settOn = none) (prev : t.prev = none) (idle : t.chunk.idle = true) (own : rs.all (fun r => !t.beyond r) = true)
    (guard : t.guard g = true) : Closed s (s.withThread (t.begun len)) (t.begun len) rs len g where
  before := ⟨t, here, on, fun r hr => by have := List.all_eq_true.1 own r hr; simpa using this,
    guard, commit_idle (t := t.begun len) prev idle⟩
  here := State.thread?_withThread _ _
  length := rfl
  guard := guard
theorem ends_idle {s : State} {t : Thread} {rs fs : List (BitVec 5)} {g : BitVec 5} (len : Nat) (here : s.thread? s.cur = some t)
    (on : t.settOn = none) (prev : t.prev = none) (idle : t.chunk.idle = true) (own : rs.all (fun r => !t.beyond r) = true)
    (guard : t.guard g = true) (ports : rs.any isPort = false) (src : fs.all (fun r => (t.reg r.toNat).full) = true) :
    Ends s (s.withThread (t.begun len)) (t.begun len) rs fs len g where
  toClosed := closed_idle len here on prev idle own guard
  regs := ports
  full := holds_of src
/-- The state in which thread `t`, the only one, has begun an instruction of `len` bytes. -/
def begun (t : Thread) (len : Nat) : State := (one t).withThread (t.begun len)
theorem ends_one {t : Thread} {rs fs : List (BitVec 5)} {g : BitVec 5} (len : Nat) (on : t.settOn = none) (prev : t.prev = none)
    (idle : t.chunk.idle = true) (own : rs.all (fun r => !t.beyond r) = true) (guard : t.guard g = true) (ports : rs.any isPort = false)
    (src : fs.all (fun r => (t.reg r.toNat).full) = true) : Ends (one t) (begun t len) (t.begun len) rs fs len g :=
  ends_idle len rfl on prev idle own guard ports src

theorem the_only {α : Type} {o : Option α} {c : α} (h : o = some c) : ∀ x, o = some x → x = c := by
  intro x hx
  rw [h] at hx
  exact (Option.some.inj hx).symm

theorem ok_of {ε α : Type} {x : Except ε α} (h : (match x with | .ok _ => true | .error _ => false) = true) : ∃ a, x = .ok a := by
  cases x with
  | ok a => exact ⟨a, rfl⟩
  | error e => cases h


theorem ok_is {ε α : Type} [DecidableEq α] {x : Except ε α} {v : α} (h : (match x with | .ok r => decide (r = v) | .error _ => false) = true) : x = .ok v := by
  cases x with
  | ok a => exact congrArg _ (of_decide_eq_true h)
  | error e => cases h
/-! ## Witnesses: states and operands that meet the hypotheses of the statements -/

/-- g3 = 7, g4 = -9, g5 = 0 (a zero divisor), g6 a guard's register. -/
def tA : Thread := thr [(3, 7#64), (4, 0xFFFFFFFFFFFFFFF7#64), (5, 0#64)]
theorem witness_IntegerAndImmediateResults_integer :
    (Inside (one tA) tA [3#5, 4#5, 5#5] 0#5 ∧ tA.Holds [4#5, 5#5]) ∧
    (Inside (one tA) tA (27#5 :: 4#5 :: (Src.lit64 0x8000000000000000#64).fields) 0#5 ∧ tA.Holds (4#5 :: (Src.lit64 0x8000000000000000#64).fields)) :=
  ⟨⟨inside_of rfl rfl rfl (.inr (by decide)), holds_of rfl⟩, inside_of rfl rfl rfl (.inr (by decide)), holds_of rfl⟩
theorem witness_IntegerAndImmediateResults_immediate : Inside (one tA) tA [3#5, 4#5] 0#5 ∧ tA.Holds [4#5] ∧ Inside (one tA) tA [27#5] 0#5 :=
  ⟨inside_of rfl rfl rfl (.inr (by decide)), holds_of rfl, inside_of rfl rfl rfl (.inr (by decide))⟩
theorem witness_UnaryAndFieldResults :
    Inside (one tA) tA (3#5 :: (Src.reg 5#5).fields) 0#5 ∧ tA.Holds (Src.reg 5#5).fields ∧
    Inside (one tA) tA (3#5 :: 4#5 :: (Src.reg 5#5).fields) 0#5 ∧ tA.Holds (4#5 :: (Src.reg 5#5).fields) ∧ tA.Holds [3#5] :=
  ⟨inside_of rfl rfl rfl (.inr (by decide)), holds_of rfl, inside_of rfl rfl rfl (.inr (by decide)), holds_of rfl, holds_of rfl⟩
theorem witness_ComparesAndPredicates_compares :
    Inside (one tA) tA (4#5 :: (Src.reg 5#5).fields) 0#5 ∧ tA.Holds (4#5 :: (Src.reg 5#5).fields) ∧ Inside (one tA) tA [4#5] 0#5 :=
  ⟨inside_of rfl rfl rfl (.inr (by decide)), holds_of rfl, inside_of rfl rfl rfl (.inr (by decide))⟩
theorem witness_ComparesAndPredicates_logic : Inside (one tA) tA [] 3#5 :=
  inside_of rfl rfl rfl (.inr (by decide))
/-- g3 = 2^48 - 1 (a pointer at the end of its range), g4 = -1, g5 a reference, g6 = 16383, g7 = 0xFFFF, g8 = 13, g9 = 2^23, g10 = 2^40. -/
def tB : Thread := thr [(3, 0xFFFFFFFFFFFF#64), (4, 0xFFFFFFFFFFFFFFFF#64), (5, 0x8000000000000000#64), (6, 16383#64), (7, 0xFFFF#64), (8, 13#64),
  (9, 0x800000#64), (10, 0x10000000000#64), (11, 12#64), (12, 0x7FFFFF#64), (13, 0xFFFFFFFFFF#64), (14, 0xC0C#64)]
theorem witness_PointerResults :
    Inside (one tB) tB [1#5, 3#5, 4#5] 0#5 ∧ tB.Holds [3#5, 4#5, 6#5, 7#5, 12#5, 13#5, 14#5] ∧
    (0 ≤ ((tB.val 3#5).toNat % 2 ^ 48 : Nat) + (tB.val 4#5).toInt ∧ ((tB.val 3#5).toNat % 2 ^ 48 : Nat) + (tB.val 4#5).toInt < 2 ^ 48) ∧
    ((tB.val 3#5).getLsbD 63 = false ∧ (tB.val 14#5).toNat % 32 = 12 ∧ (tB.val 14#5).toNat / 256 % 16 = 12) ∧
    ((tB.val 12#5).toNat < 2 ^ 23 ∧ (tB.val 13#5).toNat < 2 ^ 40) ∧ ((tB.val 6#5).toNat ≤ 16383 ∧ (tB.val 7#5).toNat ≤ 0xFFFF) :=
  ⟨inside_of rfl rfl rfl (.inr (by decide)), holds_of rfl, by decide, by decide, by decide, by decide⟩
/-- The state after the chunk of the one instruction has ended. -/
def after (t : Thread) (len : Nat) : State := (one t).withThread (t.opened 0 len)
theorem commit_opened (t : Thread) (len : Nat) (prev : t.prev = none) (idle : (t.opened 0 len).chunk.idle = true) :
    ((one t).withThread (t.opened (one t).co len)).commitAll (one t).cur = (.done, after t len) :=
  commit_idle (t := t.opened 0 len) prev idle
theorem witness_PointerAndTargetFaults :
    tB.settOn = none ∧ Inside (one tB) tB [1#5, 3#5, 8#5] 0#5 ∧ tB.Holds [3#5, 5#5, 6#5, 8#5, 9#5, 10#5, 12#5] ∧
    ((one tB).withThread (tB.opened (one tB).co 4)).commitAll (one tB).cur = (.done, after tB 4) ∧
    2 ^ 48 ≤ ((tB.val 3#5).toNat % 2 ^ 48 : Nat) + (tB.val 8#5).toInt ∧ (tB.val 5#5).getLsbD 63 = true ∧ 12 < (tB.val 8#5).toNat % 32 ∧
    2 ^ 23 ≤ (tB.val 9#5).toNat ∧ ((tB.val 12#5).toNat < 2 ^ 23 ∧ 2 ^ 40 ≤ (tB.val 10#5).toNat) ∧ 16383 < (tB.val 9#5).toNat ∧
    ((tB.val 6#5).toNat ≤ 16383 ∧ 0xFFFF < (tB.val 9#5).toNat) ∧
    (¬ LegalTarget (tB.pc + 4 * (BitVec.ofInt 20 (-0x4001)).toInt) ∧ ¬ LegalTarget (tB.val 7#5).toNat) :=
  ⟨rfl, inside_of rfl rfl rfl (.inr (by decide)), holds_of rfl, commit_opened _ _ rfl rfl, by decide, by decide, by decide, by decide, by decide,
    by decide, by decide, by unfold LegalTarget; decide, by unfold LegalTarget; decide⟩
/-- g3 = 1.0, g4 = a signalling NaN, g5 = 2^31. -/
def tF : Thread := thr [(3, 0x3F800000#64), (4, 0x7FA00000#64), (5, 0x4F000000#64)]
theorem witness_FloatResults :
    Inside (one tF) tF [3#5, 4#5, 5#5] 0#5 ∧ tF.Holds [4#5, 5#5] ∧ tF.Holds [3#5] ∧ Inside (one tF) tF [4#5, 5#5] 0#5 ∧ Inside (one tF) tF [3#5, 5#5] 0#5 :=
  ⟨inside_of rfl rfl rfl (.inr (by decide)), holds_of rfl, holds_of rfl, inside_of rfl rfl rfl (.inr (by decide)), inside_of rfl rfl rfl (.inr (by decide))⟩
/-- g3 = 1 (a LOOP that ends), g4 = the last legal target. -/
def tT : Thread := thr [(3, 1#64), (4, 0xDFFFFFFFFFFC#64), (5, 2#64)]
theorem witness_TransferResults :
    Inside (one tT) tT [] 0#5 ∧ LegalTarget (tT.pc + 4 * (BitVec.ofInt 20 (-0x4000)).toInt) ∧ Inside (one tT) tT [4#5] 0#5 ∧ tT.Holds [4#5] ∧
    LegalTarget (tT.val 4#5).toNat ∧ Inside (one tT) tT [1#5, 4#5] 0#5 ∧ Inside (one tT) tT [3#5] 0#5 ∧ tT.Holds [3#5, 5#5] ∧
    tT.val 3#5 - 1#64 = 0#64 ∧ tT.val 5#5 - 1#64 ≠ 0#64 ∧ LegalTarget (tT.pc + 4 * (-512#10).toInt) :=
  ⟨inside_of rfl rfl rfl (.inr (by decide)), by unfold LegalTarget; decide, inside_of rfl rfl rfl (.inr (by decide)), holds_of rfl,
    by unfold LegalTarget; decide, inside_of rfl rfl rfl (.inr (by decide)), inside_of rfl rfl rfl (.inr (by decide)), holds_of rfl, by decide,
    by decide, by unfold LegalTarget; decide⟩
/-- g3 = 42, g4 = own local 0x100, g5 = own local 0xBFF8 (the last word) with a BF16 code, g6 = global 0x20000, g7 = 1. -/
def tL : Thread := thr [(3, 42#64), (4, 0xF00000000100#64), (5, 0x20F00000000000#64 + 0xBFFE#64), (6, 0x20000#64), (7, 1#64), (8, 0#64)]
/-- The thread as it came to this core with the packet of the .mig instruction at its pc. -/
def tPk : Thread := { tL with packet := some (tL.pc, 0xF00000000100#64) }
theorem base_of {t : Thread} {mig : Bool} {a : BitVec 5} (hb : t.brought mig = none) (h : t.Holds [a]) : t.Base mig a (t.val a) :=
  .inr ⟨hb, h, rfl⟩
theorem witness_LocalLoads :
    (tL.Base false 4#5 (tL.val 4#5) ∧ tL.Base true 4#5 (tL.val 4#5)) ∧
    (Inside (one tPk) tPk [3#5, 9#5] 0#5 ∧ tPk.Base true 9#5 0xF00000000100#64 ∧
      checkAddr 0xF00000000100#64 ((1#10).toInt * 8) 8 false = .ok 0xF00000000108) ∧
    Inside (one tL) tL [3#5, 4#5] 0#5 ∧ tL.settOn = none ∧ tL.solo = false ∧
    checkAddr (tL.val 4#5) ((1#10).toInt * 8) 8 false = .ok 0xF00000000108 ∧ sizeFits (fmtOf (tL.val 4#5)) 8 = true ∧
    windowOf 0xF00000000108 = 15 ∧ (∀ k q, elemTable (fmtOf (tL.val 4#5)) = some (k, q) → ((one tL).core tL.core).eng.building.contains k = false) ∧
    (one tL).owned (localLoc tL.core (0xF00000000108 % 2 ^ 16) / 64) = false ∧ (one tL).poisoned (localLoc tL.core (0xF00000000108 % 2 ^ 16)) = false ∧
    Inside (one tL) tL [3#5, 5#5] 0#5 ∧ tL.Base false 5#5 (tL.val 5#5) ∧ checkAddr (tL.val 5#5) ((0#10).toInt * 2) 2 false = .ok 0xF0000000BFFE ∧
    sizeFits (fmtOf (tL.val 5#5)) 2 = true ∧ (∀ k q, elemTable (fmtOf (tL.val 5#5)) = some (k, q) → ((one tL).core tL.core).eng.building.contains k = false) :=
  ⟨⟨base_of rfl (holds_of rfl), base_of rfl (holds_of rfl)⟩, ⟨inside_of rfl rfl rfl (.inr (by decide)), .inl rfl, rfl⟩,
    inside_of rfl rfl rfl (.inr (by decide)), rfl, rfl, rfl, rfl, rfl, (fun _ _ h => nomatch h), by decide +kernel, by decide +kernel,
    inside_of rfl rfl rfl (.inr (by decide)), base_of rfl (holds_of rfl), rfl, rfl, (fun _ _ h => nomatch h)⟩
theorem witness_LocalStores :
    (tL.Base false 4#5 (tL.val 4#5) ∧ tL.Base true 4#5 (tL.val 4#5) ∧ tPk.Base true 9#5 0xF00000000100#64) ∧
    Inside (one tL) tL [3#5, 4#5] 0#5 ∧ tL.Holds [3#5] ∧ tL.settOn = none ∧ tL.solo = false ∧
    checkAddr (tL.val 4#5) ((1#10).toInt * 8) 8 false = .ok 0xF00000000108 ∧ sizeFits (fmtOf (tL.val 4#5)) 8 = true ∧
    windowOf 0xF00000000108 = 15 ∧ (∀ k q, elemTable (fmtOf (tL.val 4#5)) = some (k, q) → ((one tL).core tL.core).eng.building.contains k = false) ∧
    (one tL).owned (localLoc tL.core (0xF00000000108 % 2 ^ 16) / 64) = false ∧
    tL.Takes (entriesAt (tL.spell 0xF00000000108) (localLoc tL.core (0xF00000000108 % 2 ^ 16))
      (storeValue ((one tL).tableOf tL.core) (fmtOf (tL.val 4#5)) tL.fz tL.sat (tL.val 3#5)).1 8) :=
  ⟨⟨base_of rfl (holds_of rfl), base_of rfl (holds_of rfl), .inl rfl⟩, inside_of rfl rfl rfl (.inr (by decide)), holds_of rfl, rfl, rfl, rfl, rfl, rfl, (fun _ _ h => nomatch h), by decide +kernel, by unfold Thread.Takes; decide +kernel⟩
theorem witness_GlobalLoads :
    Inside (one tL) tL [3#5, 6#5] 0#5 ∧ (tL.Base false 6#5 (tL.val 6#5) ∧ tL.Base true 6#5 (tL.val 6#5)) ∧ tL.settOn = none ∧ tL.solo = false ∧
    checkAddr (tL.val 6#5) ((1#10).toInt * 8) 8 false = .ok 0x20008 ∧ sizeFits (fmtOf (tL.val 6#5)) 8 = true ∧ windowOf 0x20008 < 14 ∧
    (one tL).globalSpot tL.attr.ctx 0x20008 .rd = .global (pageAt 0 2) ((one tL).placeIn (pageAt 0 2) 0x20008) ∧
    remoteDev ((one tL).placeIn (pageAt 0 2) 0x20008) = none ∧
    (∀ o, (one tL).migOwner tL.attr.ctx tL.core 0x20008 = some o → o = tL.core) ∧
    (∀ k q, elemTable (fmtOf (tL.val 6#5)) = some (k, q) → ((one tL).core tL.core).eng.building.contains k = false) ∧
    ((one tL).useEntry (pageAt 0 2) false).owned ((one tL).placeIn (pageAt 0 2) 0x20008 / 64) = false ∧
    (((one tL).useEntry (pageAt 0 2) false).touchPlaces [(one tL).placeIn (pageAt 0 2) 0x20008]).poisoned ((one tL).placeIn (pageAt 0 2) 0x20008) = false ∧
    (one tL).staleLine ((one tL).placeIn (pageAt 0 2) 0x20008 / 64) = false ∧ (one tL).openLine ((one tL).placeIn (pageAt 0 2) 0x20008 / 64) = false :=
  ⟨inside_of rfl rfl rfl (.inr (by decide)), ⟨base_of rfl (holds_of rfl), base_of rfl (holds_of rfl)⟩, rfl, rfl, rfl, rfl, by decide, rfl, by decide +kernel,
    the_only rfl, (fun _ _ h => nomatch h), by decide +kernel,
    by decide +kernel, by decide +kernel, by decide +kernel⟩
/-- g3: code 13; g4 = 0 (escapes by -1); g5 = 2^48 - 8; g6 = 1 (not aligned); g7 = own local past its end; g8: code 1 at 8 bytes. -/
def tX : Thread := thr [(2, 0#64), (3, 0xD0000000000000#64), (4, 0#64), (5, 0xFFFFFFFFFFF8#64), (6, 1#64), (7, 0xF0000000C000#64), (8, 0x10F00000000100#64)]
theorem witness_AccessFaults :
    (Inside (one tX) tX [2#5, 3#5] 0#5 ∧ tX.Holds [2#5] ∧ (∀ m : Bool, ∀ r ∈ [3#5, 4#5, 5#5, 6#5, 7#5, 8#5], tX.Base m r (tX.val r)) ∧ tX.settOn = none ∧
      ((one tX).withThread (tX.opened (one tX).co 4)).commitAll (one tX).cur = (.done, after tX 4)) ∧
    (∀ r ∈ [3#5, 4#5, 5#5, 6#5, 7#5, 8#5], (tX.val r).getLsbD 63 = false) ∧
    12 < (tX.val 3#5).toNat / 2 ^ 52 % 32 ∧ ((tX.val 4#5).toNat % 2 ^ 48 : Nat) + (-1#10).toInt * 8 < 0 ∧
    2 ^ 48 ≤ ((tX.val 5#5).toNat % 2 ^ 48 : Nat) + (1#10).toInt * 8 ∧ (tX.val 6#5).toNat % 8 ≠ 0 ∧ 0xC000 ≤ (tX.val 7#5).toNat % 2 ^ 16 ∧
    ((tX.val 8#5).toNat / 2 ^ 52 % 32 = 1 ∧ (tX.val 8#5).toNat % 2 ^ 48 % 8 = 0 ∧ (tX.val 8#5).toNat % 2 ^ 16 < 0xC000) :=
  ⟨⟨inside_of rfl rfl rfl (.inr (by decide)), holds_of rfl, (fun m r hr => base_of (by cases m <;> rfl)
      (by simp at hr; rcases hr with rfl | rfl | rfl | rfl | rfl | rfl <;> exact holds_of rfl)), rfl, commit_opened _ _ rfl rfl⟩, by decide, by decide, by decide, by decide, by decide, by decide, by decide⟩
/-- A thread whose chunk holds one instruction. -/
def tC : Thread := { tL with chunk := { tL.chunk with count := 1 } }
/-- A sealed thread. -/
def tS : Thread := { tL with attr := { tL.attr with isSealed := true } }
theorem witness_HintsAndFences :
    tL.settOn = none ∧ Inside (one tL) tL [] 0#5 ∧ Inside (one tL) tL [6#5] 0#5 ∧
    ((one tC).thread? (one tC).cur = some tC ∧ tC.settOn = none ∧ tC.prev = none ∧ tC.chunk.idle = false ∧ tC.chunk.count < tC.limit) ∧
    Ends (one tL) (begun tL 4) (tL.begun 4) [] [] 4 0#5 ∧ (Ends (one tS) (begun tS 4) (tS.begun 4) [] [] 4 0#5 ∧ tS.attr.isSealed = true) ∧
    (Ends (one tL) (begun tL 4) (tL.begun 4) (6#5 :: (Src.reg 7#5).fields) (6#5 :: (Src.reg 7#5).fields) 4 0#5 ∧
      (tL.val 7#5).toNat ≠ 0 ∧ (tL.val 6#5).toNat % 2 ^ 48 + (tL.val 7#5).toNat ≤ 14 * 2 ^ 44 ∧ (tL.val 8#5).toNat = 0) :=
  ⟨rfl, inside_of rfl rfl rfl (.inr (by decide)), inside_of rfl rfl rfl (.inr (by decide)), ⟨rfl, rfl, rfl, rfl, by decide⟩,
    ends_one 4 rfl rfl rfl rfl rfl rfl rfl, ⟨ends_one 4 rfl rfl rfl rfl rfl rfl rfl, rfl⟩,
    ends_one 4 rfl rfl rfl rfl rfl rfl rfl, by decide, by decide, by decide⟩
theorem witness_SyncAccesses_loads :
    Ends (one tL) (begun tL 4) (tL.begun 4) [3#5, 4#5] [4#5] 4 0#5 ∧ (tL.begun 4).settOn = none ∧ tL.solo = false ∧ tL.attr.isSealed = false ∧
    (tL.begun 4).OwnLocal 0xF00000000108 ∧ checkAddr (tL.val 4#5) ((1#10).toInt * 8) 8 false = .ok 0xF00000000108 ∧ fmtOf (tL.val 4#5) = 0 ∧
    (begun tL 4).owned ((tL.begun 4).localPlace 0xF00000000108 / 64) = false ∧ (begun tL 4).poisoned ((tL.begun 4).localPlace 0xF00000000108) = false ∧
    (begun tL 4).heldBack 1 [(tL.begun 4).localPlace 0xF00000000108 / 64] = false ∧
    (begun tL 4).waiters = [] ∧ (begun tL 4).full ((tL.begun 4).localPlace 0xF00000000108 / 8) = true :=
  ⟨ends_one 4 rfl rfl rfl rfl rfl rfl rfl, rfl, rfl, rfl, ⟨by decide, .inl rfl⟩, rfl, rfl, by decide +kernel, by decide +kernel, by decide +kernel, rfl, by decide +kernel⟩
/-- The same device with the word at own local 0x108 empty. -/
def emptied (t : Thread) : State := { one t with empty := [(localLoc 0 0x108 / 8, 1#1)] }
def emptiedBegun (t : Thread) : State := (emptied t).withThread (t.begun 4)
theorem witness_SyncAccesses_stores :
    (Ends (emptied tL) (emptiedBegun tL) (tL.begun 4) [3#5, 4#5] [4#5, 3#5] 4 0#5 ∧ Ends (emptied tL) (emptiedBegun tL) (tL.begun 4) [4#5] [4#5] 4 0#5) ∧
    (tL.begun 4).settOn = none ∧ tL.solo = false ∧ tL.attr.isSealed = false ∧ (tL.begun 4).OwnLocal 0xF00000000108 ∧ (emptiedBegun tL).Inv ∧
    checkAddr (tL.val 4#5) ((1#10).toInt * 8) 8 false = .ok 0xF00000000108 ∧ (emptiedBegun tL).heldBack 1 [(tL.begun 4).localPlace 0xF00000000108 / 64] = false ∧
    (emptiedBegun tL).waiters = [] ∧ (emptiedBegun tL).full ((tL.begun 4).localPlace 0xF00000000108 / 8) = false :=
  ⟨⟨ends_idle 4 rfl rfl rfl rfl rfl rfl rfl rfl, ends_idle 4 rfl rfl rfl rfl rfl rfl rfl rfl⟩, rfl, rfl, rfl, ⟨by decide, .inl rfl⟩,
    ⟨⟨by decide +kernel, by decide +kernel, by decide +kernel, by decide +kernel⟩, (fun _ h => nomatch h)⟩, rfl, by decide +kernel, rfl, by decide +kernel⟩
theorem witness_SyncWaits :
    (Ends (emptied tL) (emptiedBegun tL) (tL.begun 4) [3#5, 4#5] [4#5] 4 0#5 ∧ (emptiedBegun tL).full ((tL.begun 4).localPlace 0xF00000000108 / 8) = false) ∧
    (Ends (one tL) (begun tL 4) (tL.begun 4) [3#5, 4#5] [4#5, 3#5] 4 0#5 ∧ (begun tL 4).full ((tL.begun 4).localPlace 0xF00000000108 / 8) = true) ∧
    (tL.begun 4).place = .slot 0 0 ∧ (tL.begun 4).OwnLocal 0xF00000000108 ∧
    ((emptiedBegun tL).heldBack 1 [(tL.begun 4).localPlace 0xF00000000108 / 64] = false ∧
      (begun tL 4).heldBack 1 [(tL.begun 4).localPlace 0xF00000000108 / 64] = false) ∧ (emptiedBegun tL).poisoned ((tL.begun 4).localPlace 0xF00000000108) = false :=
  ⟨⟨ends_idle 4 rfl rfl rfl rfl rfl rfl rfl rfl, by decide +kernel⟩, ⟨ends_one 4 rfl rfl rfl rfl rfl rfl rfl, by decide +kernel⟩, rfl,
    ⟨by decide, .inl rfl⟩, ⟨by decide +kernel, by decide +kernel⟩, by decide +kernel⟩
theorem witness_Atomics_issue :
    (Ends (one tL) (begun tL 4) (tL.begun 4) (3#5 :: 6#5 :: (Src.reg 7#5).fields) (6#5 :: (Src.reg 7#5).fields ++ [3#5]) 4 0#5) ∧
    checkAddr (tL.val 6#5) 0 8 false = .ok 0x20000 ∧ checkAddr (tL.val 6#5) 0 4 false = .ok 0x20000 ∧ fmtOf (tL.val 6#5) = 0 ∧
    (begun tL 4).Leads ((begun tL 4).useEntry (pageAt 0 2) true) (tL.begun 4) 0x20000 .wr ((begun tL 4).placeIn (pageAt 0 2) 0x20000) ∧
    ((begun tL 4).useEntry (pageAt 0 2) true).owned ((begun tL 4).placeIn (pageAt 0 2) 0x20000 / 64) = false ∧
    (((begun tL 4).useEntry (pageAt 0 2) true).touchPlaces [(begun tL 4).placeIn (pageAt 0 2) 0x20000]).poisoned ((begun tL 4).placeIn (pageAt 0 2) 0x20000) = false :=
  ⟨ends_one 4 rfl rfl rfl rfl rfl rfl rfl, rfl, rfl, rfl, .inr (.inr ⟨_, rfl, rfl⟩), by decide +kernel, by decide +kernel⟩
/-- An access of thread 1 to the word at global 0x20000. -/
def acc (kind : AccessKind) (size : Nat) : Access := tL.access 1 kind 3#5 0x20000 ((one tL).placeIn (pageAt 0 2) 0x20000) size 5#64 0#64
theorem witness_Atomics_apply : ∀ p ∈ [(AtomOp.cas, 8), (AtomOp.fadd, 4)],
    (one tL).thread? (acc (.atomic p.1) p.2).uid = some tL ∧ tL.attr.isSealed = false ∧ tL.chunk.writes = [] ∧ tL.settOn = none ∧
    (acc (.atomic p.1) p.2).size = (if p.1 = .fadd then 4 else 8) ∧
    (one tL).homeServes (acc (.atomic p.1) p.2).loc 0 = true ∧ (one tL).writeHeld 1 (acc (.atomic p.1) p.2).loc = false ∧
    (one tL).poisoned (acc (.atomic p.1) p.2).loc = false ∧
    (∀ k, k < (acc (.atomic p.1) p.2).size → (one tL).openLine (((acc (.atomic p.1) p.2).loc + k) / 64) = false) := by
  intro p hp
  simp only [List.mem_cons, List.mem_nil_iff, or_false] at hp
  rcases hp with rfl | rfl <;> exact ⟨rfl, rfl, rfl, rfl, rfl, by decide +kernel, by decide +kernel, by decide +kernel, by decide +kernel⟩
theorem witness_inv : (one tL).Inv ∧ (begun tL 4).Inv :=
  ⟨⟨⟨by decide +kernel, by decide +kernel, by decide +kernel, by decide +kernel⟩, (fun _ h => nomatch h)⟩,
    ⟨by decide +kernel, by decide +kernel, by decide +kernel, by decide +kernel⟩, (fun _ h => nomatch h)⟩
theorem witness_PostedStores :
    Ends (one tL) (begun tL 4) (tL.begun 4) (4#5 :: (Src.reg 7#5).fields) (4#5 :: (Src.reg 7#5).fields) 4 0#5 ∧
    checkAddr (tL.val 4#5) 0 8 false = .ok 0xF00000000100 ∧ (tL.begun 4).OwnLocal 0xF00000000100 ∧
    (begun tL 4).heldBack 1 [(tL.begun 4).localPlace 0xF00000000100 / 64] = false ∧
    ((begun tL 4).postsTo 1 0 = false ∧ (tL.begun 4).wait = .running) ∧ (begun tL 4).waiters = [] ∧
    Ends (one tL) (begun tL 4) (tL.begun 4) (6#5 :: (Src.reg 7#5).fields) (6#5 :: (Src.reg 7#5).fields) 4 0#5 ∧
    checkAddr (tL.val 6#5) 0 8 false = .ok 0x20000 ∧ (∀ loc, (begun tL 4).spot (tL.begun 4) 0x20000 .wr false ≠ .near loc) ∧
    ((begun tL 4).core (tL.begun 4).core).freeEntry = some 0 :=
  ⟨ends_one 4 rfl rfl rfl rfl rfl rfl rfl, rfl, ⟨by decide, .inl rfl⟩, by decide +kernel, ⟨by decide +kernel, rfl⟩, rfl, ends_one 4 rfl rfl rfl rfl rfl rfl rfl, rfl,
    (fun _ h => nomatch h), by decide +kernel⟩
theorem witness_WaitaCompletes :
    Ends (one tL) (begun tL 4) (tL.begun 4) (6#5 :: (Src.reg 7#5).fields) (6#5 :: (Src.reg 7#5).fields) 4 0#5 ∧
    Ends (one tL) (begun tL 4) (tL.begun 4) (7#5 :: 6#5 :: (Src.reg 8#5).fields) (6#5 :: (Src.reg 8#5).fields ++ [7#5]) 4 0#5 ∧
    tL.val 7#5 ≠ 0#64 ∧ (tL.val 7#5).toNat < 2 ^ 32 ∧ checkAddr (tL.val 6#5) 0 8 false = .ok 0x20000 ∧ fmtOf (tL.val 6#5) = 0 ∧
    (begun tL 4).Leads ((begun tL 4).useEntry (pageAt 0 2) false) (tL.begun 4) 0x20000 .rd ((begun tL 4).placeIn (pageAt 0 2) 0x20000) ∧
    ((begun tL 4).useEntry (pageAt 0 2) false).owned ((begun tL 4).placeIn (pageAt 0 2) 0x20000 / 64) = false ∧
    (((begun tL 4).useEntry (pageAt 0 2) false).touchPlaces [(begun tL 4).placeIn (pageAt 0 2) 0x20000]).poisoned ((begun tL 4).placeIn (pageAt 0 2) 0x20000) = false :=
  ⟨ends_one 4 rfl rfl rfl rfl rfl rfl rfl, ends_one 4 rfl rfl rfl rfl rfl rfl rfl, by decide, by decide, rfl, rfl, .inr (.inr ⟨_, rfl, rfl⟩),
    by decide +kernel, by decide +kernel⟩
theorem witness_ArmAndFill : Inside (one tL) tL [3#5] 0#5 ∧
    Ends (one tL) (begun tL 4) (tL.begun 4) (3#5 :: 4#5 :: (Src.reg 7#5).fields) (4#5 :: (Src.reg 7#5).fields) 4 0#5 ∧ tL.settOn = none :=
  ⟨inside_of rfl rfl rfl (.inr (by decide)), ends_one 4 rfl rfl rfl rfl rfl rfl rfl, rfl⟩
/-- A run in the handler slot. -/
def tH : Thread := { tL with place := .slot 0 16, handler := true }
theorem witness_ThreadEnds :
    (Ends (one tL) (begun tL 4) (tL.begun 4) [] [] 4 0#5 ∧ (begun tL 4).Inv ∧ tL.handler = false ∧ tL.attr.isSealed = false) ∧
    (Ends (one tH) (begun tH 4) (tH.begun 4) [] [] 4 0#5 ∧ (begun tH 4).Inv ∧ tH.handler = true) ∧
    (Ends (one tS) (begun tS 4) (tS.begun 4) [] [] 4 0#5 ∧ (begun tS 4).Inv ∧ tS.handler = false ∧ tS.attr.isSealed = true) :=
  have inv (t : Thread) : (begun t 4).Inv := ⟨⟨rfl, rfl, rfl, rfl⟩, (fun _ h => nomatch h)⟩
  ⟨⟨ends_one 4 rfl rfl rfl rfl rfl rfl rfl, inv _, rfl, rfl⟩, ⟨ends_one 4 rfl rfl rfl rfl rfl rfl rfl, inv _, rfl⟩,
    ends_one 4 rfl rfl rfl rfl rfl rfl rfl, inv _, rfl, rfl⟩
/-- A sealed thread with one buffered byte of page 2 and one held launch. -/
def tP : Thread := { tS with
  foot := [⟨0x20000, (one tL).placeIn (pageAt 0 2) 0x20000, 0x5A#8⟩]
  held := [⟨.step (.launchAdmission (tS.request 1 3#5 0x20000)), 0x10000, 0x20000#64⟩] }
theorem witness_Publication :
    Ends (one tP) (begun tP 4) (tP.begun 4) [] [] 4 0#5 ∧ tP.settOn = none ∧ tP.handler = false ∧ tP.attr.isSealed = true ∧ tP.wait = .running ∧
    (∀ o ∈ (begun tP 4).outbox, o.uid ≠ 1) ∧ (begun tP 4).Inv ∧ (begun tP 4).waiters = [] ∧ (begun tP 4).watches = [] ∧
    (∀ w ∈ tP.foot, (begun tP 4).relocate tP.attr.ctx w = some w ∧ (begun tP 4).staleLine (w.loc / 64) = false) ∧
    (begun tP 4).heldBack 1 (linesOf (tP.foot.map (·.loc))) = false ∧
    tP.held = [(tS.request 1 3#5 0x20000, 0x10000, 0x20000#64)].map (fun r => ⟨.step (.launchAdmission r.1), r.2.1, r.2.2⟩) :=
  ⟨ends_one 4 rfl rfl rfl rfl rfl rfl rfl, rfl, rfl, rfl, rfl, (fun _ h => nomatch h), ⟨⟨rfl, rfl, rfl, rfl⟩, (fun _ h => nomatch h)⟩, rfl, rfl,
    by decide +kernel, by decide +kernel, rfl⟩
/-- What thread 1 has published with a launch to come; the launch under way; and nothing left. -/
def boxOf (now : Option Event) (rest : List Held) : Outbox := ⟨1, tS.attr, 0, 0, now, rest⟩
def launchEvent : Event := .launchAdmission (tS.request 1 3#5 0x20000)
def tXf : Thread := { tL with wait := .xfence }
theorem witness_Publication_pump :
    (boxOf none [⟨.step launchEvent, 0x10000, 0x20000#64⟩]).now.any (one tXf).underway = false ∧
    (boxOf none [⟨.step launchEvent, 0x10000, 0x20000#64⟩]).rest = [⟨.step (.launchAdmission (tS.request 1 3#5 0x20000)), 0x10000, 0x20000#64⟩] ∧
    (boxOf (some launchEvent) []).now.any ({ one tXf with pending := [launchEvent] } : State).underway = true ∧
    (one tXf).thread? 1 = some tXf ∧ tXf.wait = .xfence :=
  ⟨rfl, rfl, by decide +kernel, rfl, rfl⟩
/-- g4 = a set's number, g5 = its step. -/
def tG : Thread := thr [(4, 0xFFFFFFFF#64), (5, 3#64)]
/-- A device with group sets. -/
def sets (gs : List Group) : State := { one tG with groups := gs }
def setsBegun (gs : List Group) : State := (sets gs).withThread (tG.begun 4)
theorem ends_sets (gs : List Group) {rs fs : List (BitVec 5)} (own : rs.all (fun r => !tG.beyond r) = true) (ports : rs.any isPort = false)
    (src : fs.all (fun r => (tG.reg r.toNat).full) = true) : Ends (sets gs) (setsBegun gs) (tG.begun 4) rs fs 4 0#5 :=
  ends_idle 4 rfl rfl rfl rfl own rfl ports src
def group1 : Group := ⟨0, 0xFFFFFFFF, 3, [.thread 1, .thread 2], none, []⟩
/-- A member whose round completed while it was away, free to pass from cycle `k` on. -/
def tR (k : Nat) : Thread := { tG with released := [(0xFFFFFFFF, k)] }
def releasedAt (k : Nat) : State := { one (tR k) with groups := [group1] }
def releasedBegun (k : Nat) : State := (releasedAt k).withThread ((tR k).begun 4)
theorem witness_GroupSets :
    (tG.begun 4).settOn = none ∧ (tG.begun 4).place = .slot 0 0 ∧ (tG.begun 4).Ended ∧ (∀ gs : List Group,
      Ends (sets gs) (setsBegun gs) (tG.begun 4) (4#5 :: (Src.reg 5#5).fields) (4#5 :: (Src.reg 5#5).fields) 4 0#5 ∧
      Ends (sets gs) (setsBegun gs) (tG.begun 4) [4#5] [4#5] 4 0#5) ∧
    ((setsBegun []).group? 0 0xFFFFFFFF = none ∧ 4096 ≤ (setsBegun (List.replicate 4096 ⟨0, 7, 0, [], none, []⟩)).liveSets 0 ∧
      (setsBegun (List.replicate 4096 ⟨0, 7, 0, [], none, []⟩)).group? 0 0xFFFFFFFF = none) ∧
    ((setsBegun [group1]).group? 0 0xFFFFFFFF = some group1 ∧ .thread (setsBegun [group1]).cur ∈ group1.members ∧
      (∀ r ∈ (tG.begun 4).released, r.1 ≠ 0xFFFFFFFF) ∧ (setsBegun [group1]).cur ∉ group1.arrived ∧ 1 ∈ { group1 with arrived := [1] }.arrived) ∧
    (Ends (releasedAt 0) (releasedBegun 0) (tR 0 |>.begun 4) [4#5] [4#5] 4 0#5 ∧ ((tR 0).begun 4).released = [(0xFFFFFFFF, 0)] ∧
      (releasedBegun 0).group? 0 0xFFFFFFFF = some group1) ∧
    ((setsBegun [{ group1 with members := [.thread 2] }]).group? 0 0xFFFFFFFF = some { group1 with members := [.thread 2] } ∧
      .thread (setsBegun [group1]).cur ∉ [Member.thread 2]) :=
  ⟨rfl, rfl, ⟨rfl, rfl⟩, fun gs => ⟨ends_sets gs rfl rfl rfl, ends_sets gs rfl rfl rfl⟩, ⟨rfl, by decide +kernel, by decide +kernel⟩, ⟨rfl, by decide, by decide, by decide, by decide⟩,
    ⟨ends_idle 4 rfl rfl rfl rfl rfl rfl rfl rfl, rfl, rfl⟩, rfl, by decide⟩
/-- Two members in slots 0 and 1 of core 0 that have arrived. -/
def tM (k : Nat) : Thread := { tG with place := .slot 0 k, wait := .gbar 7 }
def twoArrived : State := { dev [(1, tM 0), (2, tM 1), (3, tG)] with groups := [⟨0, 7, 3, [.thread 1, .thread 2, .thread 3], some [.thread 1, .thread 2], [1, 2]⟩] }
theorem witness_BarrierRounds :
    Group.complete ⟨0, 7, 3, [.thread 1, .thread 2], some [.thread 1, .thread 2], [1]⟩ = false ∧
    (∀ gr ∈ twoArrived.groups, gr.round = some [.thread 1, .thread 2] ∧ gr.complete = true ∧
      (∀ m ∈ [Member.thread 1, Member.thread 2], ∃ u, m = .thread u) ∧
      (∀ u ∈ gr.arrived, ∃ t c k, twoArrived.thread? u = some t ∧ t.place = .slot c k) ∧ gr.arrived.Nodup) ∧
    (∀ gr ∈ twoArrived.groups, gr.next.complete = false) ∧ .thread 3 ∉ [Member.thread 1, Member.thread 2] ∧ twoArrived.thread? 1 = some (tM 0) ∧ (tM 0).wait = .gbar 7 := by
  refine ⟨rfl, ?_, by decide +kernel, by decide, rfl, rfl⟩
  intro gr h
  obtain rfl := List.mem_singleton.1 h
  refine ⟨rfl, rfl, ?_, ?_, by decide⟩
  · intro m h
    rcases List.mem_pair.1 h with rfl | rfl
    exacts [⟨1, rfl⟩, ⟨2, rfl⟩]
  · intro u h
    rcases List.mem_pair.1 h with rfl | rfl
    exacts [⟨tM 0, 0, 0, rfl, rfl⟩, ⟨tM 1, 0, 1, rfl, rfl⟩]
/-- A stockpile thread of core 0 with the same priority. -/
def tW : Thread := { tG with place := .stock 0, index := some 127, pc := 0x11000 }
def withStock (t : Thread) : State := dev [(1, t), (2, tW)]
/-- g4 = own local, g5 a mask of ten registers, g6 of eleven, g7 a page whose home is core 5, g8 an address without a page. -/
def tMig : Thread := thr [(4, 0xF00000000000#64), (5, 0x3FF#64), (6, 0x7FF#64), (7, 0x30000#64), (8, 0x40000#64)]
def devMig (t : Thread) : State := { one t with tcache := [pageAt 0 1, { pageAt 0 3 with word1 := 5#64, slice := 5 }] }
def devMigBegun (t : Thread) : State := (devMig t).withThread (t.begun 4)
theorem ends_mig (t : Thread) (on : t.settOn = none) (prev : t.prev = none) (idle : t.chunk.idle = true) {rs : List (BitVec 5)}
    (own : rs.all (fun r => !t.beyond r) = true) (ports : rs.any isPort = false) (guard : t.guard 0#5 = true)
    (src : rs.all (fun r => (t.reg r.toNat).full) = true) : Ends (devMig t) (devMigBegun t) (t.begun 4) rs rs 4 0#5 :=
  ends_idle 4 rfl on prev idle own guard ports src
theorem witness_ThreadsMove :
    (Ends (one tG) (begun tG 4) (tG.begun 4) [] [] 4 0#5 ∧ (tG.begun 4).place = .slot 0 0 ∧ (tG.begun 4).Ended ∧ tG.handler = false ∧ 0 ≠ Config.handlerSlot ∧
      (begun tG 4).stockOf 0 = []) ∧
    (Ends (withStock tG) ((withStock tG).withThread (tG.begun 4)) (tG.begun 4) [] [] 4 0#5 ∧
      ((withStock tG).withThread (tG.begun 4)).stockOf 0 = [(2, tW)] ∧ ((withStock tG).withThread (tG.begun 4)).thread? 2 = some tW ∧ 2 ≠ 1 ∧
      tW.inRotation = true ∧ tW.handler = false ∧ tW.toPlace = false ∧ tW.ceded = false ∧ tW.attr.ctx = tG.attr.ctx ∧ tG.attr.prio ≤ tW.attr.prio ∧
      tW.attr.count ≤ ((withStock tG).withThread (tG.begun 4)).freeRegs 0 + tG.attr.count) ∧
    (Ends (devMig tMig) (devMigBegun tMig) (tMig.begun 4) (4#5 :: (Src.reg 5#5).fields) (4#5 :: (Src.reg 5#5).fields) 4 0#5 ∧
      checkAddr (tMig.val 4#5) 0 8 false = .ok 0xF00000000000 ∧ (devMigBegun tMig).migOwner 0 0 0xF00000000000 = some 0 ∧ tMig.program = false ∧
      maskCount ((tMig.val 5#5).setWidth 28) = 10 ∧ maskCount ((tMig.val 6#5).setWidth 28) = 11) ∧
    (Ends (devMig tMig) (devMigBegun tMig) (tMig.begun 4) (7#5 :: (Src.reg 5#5).fields) (7#5 :: (Src.reg 5#5).fields) 4 0#5 ∧
      checkAddr (tMig.val 7#5) 0 8 false = .ok 0x30000 ∧ (devMigBegun tMig).migOwner 0 0 0x30000 = some 5 ∧
      (devMigBegun tMig).lookup 0 0x30000 ≠ none) ∧
    (checkAddr (tMig.val 8#5) 0 8 false = .ok 0x40000 ∧ (devMigBegun tMig).migOwner 0 0 0x40000 = none ∧ windowOf 0x40000 < 14 ∧ (devMigBegun tMig).lookup 0 0x40000 = none) ∧
    ((devMigBegun tMig).migOwner 0 0 0xE00000070000 = some 7 ∧ windowOf 0xE00000070000 = 14 ∧ (devMigBegun tMig).serves 7 0 = false) :=
  ⟨⟨ends_one 4 rfl rfl rfl rfl rfl rfl rfl, rfl, ⟨rfl, rfl⟩, rfl, by decide, rfl⟩,
    ⟨ends_idle 4 rfl rfl rfl rfl rfl rfl rfl rfl, rfl, rfl, by decide, rfl, rfl, rfl, rfl, rfl, by decide, by decide +kernel⟩,
    ⟨ends_mig _ rfl rfl rfl rfl rfl rfl rfl, rfl, rfl, rfl, by decide +kernel, by decide +kernel⟩,
    ⟨ends_mig _ rfl rfl rfl rfl rfl rfl rfl, rfl, by decide +kernel, by decide +kernel⟩,
    ⟨rfl, by decide +kernel, by decide, by decide +kernel⟩, by decide +kernel, by decide, by decide +kernel⟩
/-- g3 = core 0 for SPAWN and SEND, g4 = the first word of a message, g5 = a start address, g6 = 16384, g7 = 0x20000. -/
def tN : Thread := thr [(3, 0#64), (4, 0x10000#64), (5, 0x10000#64), (6, 16384#64), (7, 0x20000#64)]
/-- The same device with 8 messages queued at core 0. -/
def crowded : State := { one tN with cores := [(0, { core0 with msgs := List.replicate 8 ⟨0, 0#64, []⟩ })] }
theorem witness_PacketsAndMessages :
    (tN.begun 4).settOn = none ∧ (tN.begun 4).Ended ∧ tN.attr.isSealed = false ∧
    (Ends (one tN) (begun tN 4) (tN.begun 4) (3#5 :: (Src.reg 5#5).fields ++ [4#5, 5#5]) (3#5 :: (Src.reg 5#5).fields) 4 0#5 ∧
      LegalTarget (tN.val 5#5).toNat ∧ (begun tN 4).spawnRefused 0 (tN.val 3#5).toNat = false ∧ (begun tN 4).spawnRefused 0 (tN.val 6#5).toNat = true) ∧
    (Ends (one tN) (begun tN 4) (tN.begun 4) (3#5 :: [4#5]) (3#5 :: [4#5]) 4 0#5 ∧ (tN.val 3#5).toNat / 2 ^ 44 = 0 ∧ (tN.val 3#5).toNat / 2 ^ 14 % 2 ^ 18 = 0 ∧
      (tN.val 3#5).toNat / 2 ^ 32 = (begun tN 4).device.devid.toNat ∧ legalTarget (tN.val 4#5).toNat = true ∧
      (begun tN 4).sendRefused 0 0 = false ∧ (begun tN 4).messageLoad 0 = 0) ∧
    (Ends crowded (crowded.withThread (tN.begun 4)) (tN.begun 4) (3#5 :: [4#5]) (3#5 :: [4#5]) 4 0#5 ∧ 8 ≤ (crowded.withThread (tN.begun 4)).messageLoad 0) ∧
    (Ends (one tN) (begun tN 4) (tN.begun 4) [3#5, 7#5] [7#5] 4 0#5 ∧ checkAddr (tN.val 7#5) 0 64 false = .ok 0x20000 ∧
      (begun tN 4).Leads ((begun tN 4).useEntry (pageAt 0 2) false) (tN.begun 4) 0x20000 .rd ((begun tN 4).placeIn (pageAt 0 2) 0x20000) ∧
      (((begun tN 4).useEntry (pageAt 0 2) false).touchPlaces [(begun tN 4).placeIn (pageAt 0 2) 0x20000]).poisoned ((begun tN 4).placeIn (pageAt 0 2) 0x20000) = false) :=
  ⟨rfl, ⟨rfl, rfl⟩, rfl, ⟨ends_one 4 rfl rfl rfl rfl rfl rfl rfl, by unfold LegalTarget; decide, by decide +kernel, by decide +kernel⟩,
    ⟨ends_one 4 rfl rfl rfl rfl rfl rfl rfl, by decide, by decide, by decide, by decide, by decide +kernel, by decide +kernel⟩,
    ⟨ends_idle 4 rfl rfl rfl rfl rfl rfl rfl rfl, by decide +kernel⟩,
    ends_one 4 rfl rfl rfl rfl rfl rfl rfl, rfl, .inr (.inr ⟨_, rfl, rfl⟩), by decide +kernel⟩
/-- Five words at own local 0xBFD8: 8 bytes of page 2 watched, its handler at the start of the code. -/
def watchMem (len : Nat) : Store 8 :=
  Store.write (Store.write (Store.write [] (localLoc 0 0xBFD8) 8 0x20000) (localLoc 0 0xBFE0) 8 len) (localLoc 0 0xBFF8) 8 0x10000
def tWa : Thread := thr [(3, 0#64), (4, 0xF0000000BFD8#64)]
def watching (len : Nat) : State := { one tWa with mem := watchMem len }
def watchingBegun (len : Nat) : State := (watching len).withThread (tWa.begun 4)
theorem witness_Watches :
    Ends (watching 8) (watchingBegun 8) (tWa.begun 4) [3#5, 4#5] [4#5] 4 0#5 ∧ checkAddr (tWa.val 4#5) 0 8 false = .ok 0xF0000000BFD8 ∧
    fmtOf (tWa.val 4#5) = 0 ∧ windowOf ((tWa.begun 4).spell 0xF0000000BFD8) = 15 ∧ (tWa.begun 4).spell 0xF0000000BFD8 % 2 ^ 16 + 40 = 0xC000 ∧
    ((List.range 5).map (fun k => (watchingBegun 8).see (tWa.begun 4) (0xF0000000BFD8 + 8 * k) (localLoc 0 (0xBFD8 + 8 * k)) 8) = [0x20000, 8, 0, 0, 0x10000] ∧
      LegalTarget 0x10000 ∧ (watchingBegun 8).lookup 0 0x20000 = some (pageAt 0 2) ∧
      (∀ k ∈ [0, 39], (watchingBegun 8).owned ((localLoc 0 ((tWa.begun 4).spell 0xF0000000BFD8 % 2 ^ 16) + k) / 64) = false ∧
        (watchingBegun 8).poisoned (localLoc 0 ((tWa.begun 4).spell 0xF0000000BFD8 % 2 ^ 16) + k) = false)) ∧
    (Ends (watching 0) (watchingBegun 0) (tWa.begun 4) [3#5, 4#5] [4#5] 4 0#5 ∧
      (watchingBegun 0).see (tWa.begun 4) 0xF0000000BFE0 (localLoc 0 0xBFE0) 8 = 0) ∧
    Ends (one tWa) (begun tWa 4) (tWa.begun 4) [4#5] [4#5] 4 0#5 :=
  ⟨ends_idle 4 rfl rfl rfl rfl rfl rfl rfl rfl, rfl, rfl, rfl, by decide +kernel, ⟨by decide +kernel, by unfold LegalTarget; decide, rfl, by decide +kernel⟩,
    ⟨ends_idle 4 rfl rfl rfl rfl rfl rfl rfl rfl, by decide +kernel⟩, ends_one 4 rfl rfl rfl rfl rfl rfl rfl⟩
/-- Cores 0 and 1 in row mode: a word stands at core 0's port i1, and with `n` at core 1's i0. -/
def ported (n : Nat) : State := { one tL with cores :=
  [(0, { core0 with claim := some 1, pmode := 1, in1 := [(7#64, false)] }), (1, { Core.reset 1 with claim := some 1, pmode := 1, in0 := List.replicate n (0#64, true) })] }
def portedBegun (n : Nat) : State := (ported n).withThread (tL.begun 4)
/-- A thread that brings a word for i1 with it, and a saved one that waits for such a word. -/
def tSt : Thread := { tL with stash := [(29, 9#64, false)] }
def stashedAt : State := { one tSt with cores := (ported 3).cores }
def tSaved : Thread := { tL with place := .stock 0, portWait := some 29 }
theorem witness_ConstAndPorts :
    (Inside (one tL) tL [3#5] 0#5 ∧ tL.solo = false ∧ (one tL).owned (localLoc 0 (8 * (255#8).toNat) / 64) = false ∧
      (one tL).poisoned (localLoc 0 (8 * (255#8).toNat)) = false) ∧
    ((Src.reg 7#5).fields.any isPort = false ∧ (tL.begun 4).Holds (Src.reg 7#5).fields ∧ (tL.begun 4).Ended) ∧
    (Closed (one tL) (begun tL 4) (tL.begun 4) (30#5 :: (Src.reg 7#5).fields) 4 0#5 ∧ (begun tL 4).portTarget 0 30 = none) ∧
    (∀ n ∈ [3, 4], Closed (ported n) (portedBegun n) (tL.begun 4) (30#5 :: (Src.reg 7#5).fields) 4 0#5 ∧ (portedBegun n).portTarget 0 30 = some 1 ∧
      (portedBegun n).portLoad 1 28 = n) ∧
    (Closed (ported 3) (portedBegun 3) (tL.begun 4) [3#5, 28#5] 4 0#5 ∧ (portedBegun 3).portHeld 0 28 = false ∧
      (portedBegun 3).wordsFor (tL.begun 4) 0 28 = []) ∧
    (Closed (ported 3) (portedBegun 3) (tL.begun 4) [3#5, 29#5] 4 0#5 ∧ (portedBegun 3).portHeld 0 29 = false ∧ (tL.begun 4).stashed 29 = [] ∧
      (portedBegun 3).wordsFor (tL.begun 4) 0 29 = (7#64, false) :: [] ∧ ((portedBegun 3).core 0).newWords 29 = 0) ∧
    (Closed stashedAt (stashedAt.withThread (tSt.begun 4)) (tSt.begun 4) [3#5, 29#5] 4 0#5 ∧ (tSt.begun 4).stashed 29 ≠ [] ∧
      (stashedAt.withThread (tSt.begun 4)).wordsFor (tSt.begun 4) 0 29 = (9#64, false) :: [(7#64, false)]) ∧
    ((one tL).coreFenced 16383 = false ∧ 28 < 32 ∧ (one tL).savedReader 16383 28 = none) ∧ (dev [(1, tL), (2, tSaved)]).savedReader 0 29 = some 2 :=
  ⟨⟨inside_of rfl rfl rfl (.inr (by decide)), rfl, by decide +kernel, by decide +kernel⟩, ⟨rfl, holds_of rfl, rfl, rfl⟩, ⟨closed_idle 4 rfl rfl rfl rfl rfl rfl, rfl⟩,
    (fun n h => ⟨closed_idle 4 rfl rfl rfl rfl rfl rfl, by fin_cases h <;> rfl, by fin_cases h <;> decide +kernel⟩),
    ⟨closed_idle 4 rfl rfl rfl rfl rfl rfl, by decide +kernel, by decide +kernel⟩,
    ⟨closed_idle 4 rfl rfl rfl rfl rfl rfl, by decide +kernel, rfl, by decide +kernel, by decide +kernel⟩,
    ⟨closed_idle 4 rfl rfl rfl rfl rfl rfl, by decide, by decide +kernel⟩, ⟨by decide +kernel, by decide, by decide +kernel⟩, by decide +kernel⟩
theorem witness_FalseGuards :
    tL.guard 2#5 = false ∧ tL.settOn = none ∧ (one tL).thread? (one tL).cur = some tL ∧ tL.Owns (3#5 :: 4#5 :: (Src.reg 27#5).fields) ∧
    tL.Roomy ∧ (∀ r ∈ [3#5, 4#5] ++ (Src.reg 27#5).fields, tL.beyond r = false) :=
  ⟨rfl, rfl, rfl, owns_of rfl, .inr (by decide), by decide⟩
/-- A chunk at the arbiters that wrote one byte of page 2 and read own local word 0x100; with `lost`, a translation of it has gone. -/
def prevChunk (lost : Bool) : Chunk :=
  { tL.chunk with count := 2, reads := [localLoc 0 0x100 / 8], writes := [⟨0x20000, (one tL).placeIn (pageAt 0 2) 0x20000, 0x5A#8⟩], lost := lost }
def tCC (lost : Bool) : Thread := { tL with prev := some (prevChunk lost) }
/-- A solo chunk of another thread has reserved the line it writes. -/
def ownedLine : State := { one (tCC false) with reserved := [((one tL).placeIn (pageAt 0 2) 0x20000 / 64, 2)] }
/-- A solo chunk whose line is another's. -/
def soloChunk : Chunk := { prevChunk false with sq := 4, solo := true, soloAt := 7 }
def tSolo : Thread := { tL with prev := some soloChunk }
def ownedSolo : State := { one tSolo with reserved := [((one tL).placeIn (pageAt 0 2) 0x20000 / 64, 2)] }
theorem witness_ChunkCommits :
    ((one (tCC false)).thread? 1 = some (tCC false) ∧ (tCC false).prev = some (prevChunk false) ∧ (tCC false).attr.isSealed = false ∧ (one (tCC false)).Inv ∧
      (prevChunk false).lost = false ∧ (one (tCC false)).conflict (prevChunk false) = false ∧
      (one (tCC false)).heldBack 1 (linesOf ((prevChunk false).writes.map (·.loc))) = false ∧
      (∀ w ∈ (prevChunk false).writes, (one (tCC false)).staleLine (w.loc / 64) = false) ∧ (∀ l v k x r, (tCC false).wait ≠ .addr l v k x r) ∧
      (∀ l, (tCC false).wait ≠ .nmstat l) ∧ (tCC false).wait ≠ .owned ∧ (one (tCC false)).mayOverlap (prevChunk false) = false) ∧
    (({ one (tCC false) with stamps := [(localLoc 0 0x200 / 8, 1)] } : State).conflict (prevChunk false) = false ∧
      ({ one (tCC false) with stamps := [(localLoc 0 0x200 / 8, 1)] } : State).mayOverlap (prevChunk false) = true) ∧
    (ownedLine.thread? 1 = some (tCC false) ∧ ownedLine.conflict (prevChunk false) = false ∧
      ownedLine.heldBack 1 (linesOf ((prevChunk false).writes.map (·.loc))) = true) ∧
    ((one (tCC true)).thread? 1 = some (tCC true) ∧ (tCC true).prev = some (prevChunk true) ∧ (prevChunk true).lost = true ∧ (prevChunk true).solo = false) ∧
    (ownedSolo.thread? 1 = some tSolo ∧ tSolo.prev = some soloChunk ∧ soloChunk.lost = false ∧ soloChunk.solo = true ∧ tSolo.attr.isSealed = false ∧
      ownedSolo.heldBack 1 (linesOf (soloChunk.writes.map (·.loc))) = true ∧ ({ soloChunk with lost := true } : Chunk).solo = true) ∧
    (({ one (tCC false) with stamps := [(localLoc 0 0x100 / 8, 1)] } : State).conflict (prevChunk false) = true) :=
  ⟨⟨rfl, rfl, rfl, ⟨⟨rfl, rfl, rfl, rfl⟩, (fun _ h => nomatch h)⟩, rfl, by decide +kernel, by decide +kernel, by decide +kernel, (fun _ _ _ _ _ h => nomatch h), (fun _ h => nomatch h), nofun, by decide +kernel⟩,
    ⟨by decide +kernel, by decide +kernel⟩, ⟨rfl, by decide +kernel, by decide +kernel⟩, ⟨rfl, rfl, rfl, rfl⟩,
    ⟨rfl, rfl, rfl, rfl, rfl, by decide +kernel, rfl⟩, by decide +kernel⟩
/-- A thread in its trap handler. -/
def tTr : Thread := { tL with cause := 0x8000000000000018#64, fpc := 0xDFFFFFFFFFFC#64 }
/-- The context has a debugger. -/
def debugged : State := { one tL with ctxs := [(0, { ctx0 with dbg := true })] }
theorem witness_TrapsEnter :
    (tL.begun 4).settOn = none ∧ (tL.begun 4).Ended ∧ (begun tL 4).thread? (begun tL 4).cur = some (tL.begun 4) ∧ (tL.begun 4).inTrap = false ∧
    (tL.begun 4).tvec ≠ 0#64 ∧ Ends (one tL) (begun tL 4) (tL.begun 4) [4#5] [4#5] 4 0#5 ∧ Ends (one tL) (begun tL 4) (tL.begun 4) [] [] 4 0#5 ∧
    (begun tL 4).debugger 0 = none ∧
    ((one tL).commitAll (one tL).cur = (.done, one tL) ∧ (one tL).thread? (one tL).cur = some tL ∧ tL.Ended ∧ tL.inTrap = false) ∧
    ((tTr.begun 4).inTrap = true ∧ LegalTarget (tTr.begun 4).fpc.toNat ∧ Ends (one tTr) (begun tTr 4) (tTr.begun 4) [] [] 4 0#5) ∧
    (Ends debugged (debugged.withThread (tL.begun 4)) (tL.begun 4) [] [] 4 0#5 ∧ (debugged.withThread (tL.begun 4)).debugger 0 = some 0) :=
  ⟨rfl, ⟨rfl, rfl⟩, rfl, rfl, by decide, ends_one 4 rfl rfl rfl rfl rfl rfl rfl, ends_one 4 rfl rfl rfl rfl rfl rfl rfl, rfl,
    ⟨commit_idle (s := one tL) (t := tL) rfl rfl, rfl, ⟨rfl, rfl⟩, rfl⟩, ⟨rfl, by unfold LegalTarget; decide, ends_one 4 rfl rfl rfl rfl rfl rfl rfl⟩,
    ends_idle 4 rfl rfl rfl rfl rfl rfl rfl rfl, rfl⟩
/-- A fault window that is full. -/
def fullWindow (t : Thread) : State := { one t with ctxs := [(0, { ctx0 with fwhead := 3#64, fwtail := 0xFFFFFFFFFFFFFFFF#64 })] }
theorem witness_DoubleFault :
    ((begun tTr 4).thread? 1 = some (tTr.begun 4) ∧ (begun tTr 4).Inv ∧ (tTr.begun 4).inTrap = true ∧ (begun tTr 4).page? 0 = some (0, ctx0) ∧
      (ctx0.fwhead - ctx0.fwtail).toNat ≠ ctx0.fwsize.toNat ∧ (tTr.begun 4).pc < 2 ^ 64 ∧ (tTr.begun 4).attr.seq < 2 ^ 64 ∧
      Ends (one tTr) (begun tTr 4) (tTr.begun 4) [4#5] [4#5] 4 0#5 ∧ (tTr.begun 4).settOn = none ∧ (tTr.begun 4).Ended ∧ (begun tTr 4).cur = 1) ∧
    ((fullWindow tTr).thread? 1 = some tTr ∧ ∃ p, (fullWindow tTr).page? 0 = some (0, p) ∧ (p.fwhead - p.fwtail).toNat = p.fwsize.toNat) ∧
    (({ tL with tvec := 0#64 } : Thread).tvec = 0#64) :=
  ⟨⟨rfl, ⟨⟨rfl, rfl, rfl, rfl⟩, (fun _ h => nomatch h)⟩, rfl, rfl, by decide, by decide, by decide, ends_one 4 rfl rfl rfl rfl rfl rfl rfl, rfl, ⟨rfl, rfl⟩, rfl⟩,
    ⟨rfl, _, rfl, by decide⟩, rfl⟩
theorem witness_SystemRegisters :
    tL.settOn = none ∧ Inside (one tL) tL [3#5] 0#5 ∧ tL.Holds [3#5] ∧ Ends (one tL) (begun tL 4) (tL.begun 4) [3#5] [3#5] 4 0#5 :=
  ⟨rfl, inside_of rfl rfl rfl (.inr (by decide)), holds_of rfl, ends_one 4 rfl rfl rfl rfl rfl rfl rfl⟩
theorem witness_IdleAndLimits :
    (tL.begun 4).settOn = none ∧ tL.handler = false ∧ Ends (one tL) (begun tL 4) (tL.begun 4) [] [] 4 0#5 ∧
    (Ends (one tL) (begun tL 4) (tL.begun 4) [7#5] [7#5] 4 0#5 ∧ tL.val 7#5 ≠ 0#64 ∧ (tL.val 7#5).toNat < 2 ^ 32) ∧
    ((one { tL with wait := .idle true, stamp := 3 }).thread? 1 = some { tL with wait := .idle true, stamp := 3 }) ∧ (one { tL with wait := .idle true }).Inv ∧
    ((one { tL with wait := .addr 0 0 1 0#64 (some 27) }).thread? 1 = some { tL with wait := .addr 0 0 1 0#64 (some 27) }) ∧
    (one { tL with wait := .addr 0 0 1 0#64 (some 27) }).Inv :=
  ⟨rfl, rfl, ends_one 4 rfl rfl rfl rfl rfl rfl rfl, ⟨ends_one 4 rfl rfl rfl rfl rfl rfl rfl, by decide, by decide⟩, rfl,
    ⟨⟨rfl, rfl, rfl, rfl⟩, (fun _ h => nomatch h)⟩, rfl, ⟨⟨rfl, rfl, rfl, rfl⟩, (fun _ h => nomatch h)⟩⟩
/-- g3 = table 3, g4 = own local 0xBBF8 (its 1,032 bytes end where local memory does), g5 = 14·2^44 - 1, g6 = 1. -/
def tTl : Thread := thr [(3, 3#64), (4, 0xF0000000BBF8#64), (5, 0xDFFFFFFFFFFF#64), (6, 1#64)]
theorem witness_TablesAndCode :
    (Ends (one tTl) (begun tTl 4) (tTl.begun 4) [3#5, 4#5] [3#5, 4#5] 4 0#5 ∧ (tTl.val 3#5).toNat ≤ 3 ∧
      checkAddr (tTl.val 4#5) 0 8 false = .ok 0xF0000000BBF8 ∧ fmtOf (tTl.val 4#5) = 0 ∧ spanWhole 0xF0000000BBF8 1032 = true ∧
      (∀ k ∈ ((begun tTl 4).core 0).vq ++ ((begun tTl 4).core 0).mq, (tTl.begun 4).drain.getD (begun tTl 4).co < k.mark) ∧
      (begun tTl 4).reach (tTl.begun 4) 0xF0000000BBF8 .rd 1032 = .ok ((List.range 1032).map (fun k => localLoc 0 0xBBF8 + k)) ∧
      (∀ l ∈ (List.range 1032).map (fun k => localLoc 0 0xBBF8 + k), (begun tTl 4).owned (l / 64) = false) ∧
      ∀ l ∈ (List.range 1032).map (fun k => localLoc 0 0xBBF8 + k), ((begun tTl 4).touchPlaces ((List.range 1032).map (fun k => localLoc 0 0xBBF8 + k))).poisoned l = false) ∧
    (Ends (one tTl) (begun tTl 4) (tTl.begun 4) [5#5, 6#5] [5#5, 6#5] 4 0#5 ∧ (tTl.val 5#5).toNat % 2 ^ 48 + (tTl.val 6#5).toNat = 14 * 2 ^ 44) :=
  ⟨⟨ends_one 4 rfl rfl rfl rfl rfl rfl rfl, by decide, rfl, rfl, by decide +kernel, (fun _ h => nomatch h), by decide +kernel, by decide +kernel, by decide +kernel⟩,
    ends_one 4 rfl rfl rfl rfl rfl rfl rfl, by decide⟩
/-- A privileged context with a two-level page table at 0x4000 in HBM: a 1 GiB leaf at 0x6000 maps the first gigabyte. -/
def tree : Store 8 :=
  Store.write (Store.write [] (interleaved 0x4000) 8 0x8000000000006000) (interleaved 0x6000) 8 0xC000000000000000
def tHv : Thread := thr [(3, 0x20000#64), (4, 65536#64), (5, 127#64), (6, 128#64)]
def treed : State := { one tHv with mem := tree, ctxs := [(0, { ctx0 with sys := true, ptroot := 0x4000#64 })], grants := [(0, pageBase 2 2)], used := [(0, pageBase 2 2)] }
def treedBegun : State := treed.withThread (tHv.begun 4)
/-- A ready stockpile entry at index 127. -/
def tEntry : Thread := { tHv with place := .stock 0, index := some 127, pc := 0x11000 }
def stocked : State := dev [(1, tHv), (2, tEntry)]
def stockedBegun : State := stocked.withThread (tHv.begun 4)
theorem witness_PagesAndContexts :
    ((tHv.begun 4).settOn = none ∧ (tHv.begun 4).place = .slot 0 0 ∧ (tHv.begun 4).Ended ∧ treedBegun.Inv ∧ stockedBegun.Inv) ∧
    (Ends (one tHv) (begun tHv 4) (tHv.begun 4) [3#5, 4#5] [3#5, 4#5] 4 0#5 ∧ (begun tHv 4).privileged 0 = false) ∧
    (Ends treed treedBegun (tHv.begun 4) [3#5, 4#5] [3#5, 4#5] 4 0#5 ∧ treedBegun.privileged 0 = true ∧
      (∃ p, treedBegun.page? 0 = some (0, p) ∧ treedBegun.leafEntry (tHv.val 3#5).toNat 4 p.ptroot.toNat = some (2, 0x6000)) ∧ (tHv.val 3#5).toNat < 2 ^ 48 ∧
      (tHv.val 3#5).toNat % 2 ^ 16 = 0 ∧ tHv.val 4#5 = 65536#64 ∧ 0x6000 / 2 ^ 40 = treedBegun.device.devid.toNat ∧
      treedBegun.staleLine (interleaved ((0x6000 + 7) % 2 ^ 40) / 64) = false ∧
      treedBegun.busyLine (interleaved ((0x6000 + 7) % 2 ^ 40) / 64) = false ∧ (tHv.begun 4).wait = .running) ∧
    (Ends (one tHv) (begun tHv 4) (tHv.begun 4) [3#5, 6#5] [6#5] 4 0#5 ∧ 128 ≤ (tHv.val 6#5).toNat) ∧
    (Ends (one tHv) (begun tHv 4) (tHv.begun 4) [3#5, 5#5] [5#5] 4 0#5 ∧ (tHv.val 5#5).toNat < 128 ∧
      ∀ e ∈ (begun tHv 4).clusterStock 0, e.2.index ≠ some (tHv.val 5#5).toNat) ∧
    (Ends stocked stockedBegun (tHv.begun 4) [3#5, 5#5] [5#5] 4 0#5 ∧ stockedBegun.thread? 2 = some tEntry ∧ stockedBegun.clusterStock 0 = [(2, tEntry)] ∧
      tEntry.index = some (tHv.val 5#5).toNat ∧ tEntry.place = .stock 0 ∧ tEntry.toPlace = false ∧ tEntry.ceded = false ∧ tEntry.inRotation = true ∧ tEntry.attr.ctx = 0 ∧
      tEntry.attr.count ≤ stockedBegun.freeRegs 0 + tHv.attr.count ∧ 0 ≠ Config.handlerSlot) :=
  ⟨⟨rfl, rfl, ⟨rfl, rfl⟩, ⟨⟨by decide +kernel, rfl, rfl, rfl⟩, (fun _ h => nomatch h)⟩, ⟨rfl, rfl, rfl, rfl⟩, (fun _ h => nomatch h)⟩,
    ⟨ends_one 4 rfl rfl rfl rfl rfl rfl rfl, rfl⟩,
    ⟨ends_idle 4 rfl rfl rfl rfl rfl rfl rfl rfl, rfl, ⟨_, rfl, by decide +kernel⟩, by decide, by decide, rfl, by decide, by decide +kernel, by decide +kernel, rfl⟩,
    ⟨ends_one 4 rfl rfl rfl rfl rfl rfl rfl, by decide⟩, ⟨ends_one 4 rfl rfl rfl rfl rfl rfl rfl, by decide, by decide +kernel⟩,
    ends_idle 4 rfl rfl rfl rfl rfl rfl rfl rfl, rfl, rfl, rfl, rfl, rfl, rfl, rfl, rfl, by decide +kernel, by decide⟩
/-- g3, g4: tiles of one-byte codes in own local memory; g5 = 4064; g6, g7: own local words with codes 0 and 1; g8 = 0; g9: a one-byte code with a block scale;
g10 = the greatest legal vector mode; g11: where a tile is stored; g7 is the last word of own local memory. -/
def tE : Thread := thr [(3, 0x40F00000000000#64), (4, 0x40F00000001000#64), (5, 4064#64), (6, 0xF00000002000#64), (7, 0x10F0000000BFFC#64), (8, 0#64),
  (9, 0x41F00000004000#64), (10, 0xF43#64), (11, 0x40F00000005000#64)]
/-- The core's matrix engine holds an alias table of one outcome, a predictor of the settings' shape and a tile. -/
def me0 : MeState := { MeState.reset 0 with kt := 1, pshape := some (MeCfg.reset 0).shape, current := some ⟨1, []⟩ }
def withEng : State := { one tE with cores := [(0, { core0 with eng := { EngState.reset 0 with me := me0 } })] }
def engBegun : State := withEng.withThread (tE.begun 4)
theorem engages (e : Engine) {rs fs : List (BitVec 5)} (own : rs.all (fun r => !tE.beyond r) = true) (ports : rs.any isPort = false)
    (src : fs.all (fun r => (tE.reg r.toNat).full) = true) : Engages withEng engBegun (tE.begun 4) rs fs 0#5 e where
  toEnds := ends_idle 4 rfl rfl rfl rfl own rfl ports src
  general := rfl
  canon := ⟨⟨rfl, rfl, rfl, rfl⟩, (fun _ h => nomatch h)⟩
  tag := rfl
  free := by cases e <;> decide +kernel
  first := by cases e <;> rfl
theorem local_ok {c ctx va : Nat} {p : Perm} (h : windowOf va = 15) : ∀ k, engBegun.coreSpot c ctx va p ≠ .bad k := by
  simp [State.coreSpot, h]
/-- The spans of the operands lie in own local memory. -/
theorem open_local {p : Perm} {a : Word} {unit n va : Nat} (c : checkAddr a 0 unit false = .ok va) (e : decide (va + n ≤ 2 ^ 48) = true)
    (w : spanWhole va n = true) (l : windowOf va = 15) : engBegun.OpenExtent (tE.begun 4) p a unit n :=
  ⟨va, c, of_decide_eq_true e, w, local_ok l⟩
theorem witness_VectorCommands :
    Engages withEng engBegun (tE.begun 4) [] [] 0#5 .vector ∧ Engages withEng engBegun (tE.begun 4) [10#5] [10#5] 0#5 .vector ∧
    (tE.val 10#5 &&& ~~~0xFF3#64 = 0#64 ∧ (tE.val 10#5).toNat / 16 % 16 = 4) ∧
    Engages withEng engBegun (tE.begun 4) [3#5] [3#5] 0#5 .vector ∧ Engages withEng engBegun (tE.begun 4) [9#5, 6#5] [9#5, 6#5] 0#5 .vector ∧
    (∀ p : Perm, ∀ i, i < 16 → checkAddr (tE.val 9#5) (elemOffset (fmtOf (tE.val 9#5)) i) (elemBytes (fmtOf (tE.val 9#5))) false = .ok (0xF00000004000 + i) ∧
      ∀ k, engBegun.coreSpot 0 0 (0xF00000004000 + i) p ≠ .bad k) ∧
    (∀ i : Nat, i < 16 → checkAddr (tE.val 9#5) ((i : Int) * (tE.val 8#5).toInt) (elemBytes (fmtOf (tE.val 9#5))) false = .ok 0xF00000004000) ∧
    (badTag (tE.val 9#5) = false ∧ isRef (tE.val 9#5) = false ∧ isH4 (fmtOf (tE.val 9#5)) = false ∧ fmtOf (tE.val 9#5) ≠ 0 ∧ blkOf (tE.val 9#5) = 1) ∧
    (∃ ve, engBegun.veAhead 0 = some ve) ∧
    (∀ p : Perm, engBegun.OpenExtent (tE.begun 4) p (tE.val 6#5) 16 16 ∧ fmtOf (tE.val 6#5) = 0) := by
  refine ⟨engages _ rfl rfl rfl, engages _ rfl rfl rfl, by decide, engages _ rfl rfl rfl, engages _ rfl rfl rfl, ?_, ?_, by decide, ⟨_, rfl⟩,
    fun p => ⟨open_local (va := 0xF00000002000) rfl rfl rfl rfl, rfl⟩⟩
  · intro p i hi
    interval_cases i <;> exact ⟨rfl, local_ok rfl⟩
  · intro i hi
    interval_cases i <;> rfl
theorem witness_MatrixCommands :
    let f := (engBegun.mat 0).cfg
    Engages withEng engBegun (tE.begun 4) [] [] 0#5 .matrix ∧ Engages withEng engBegun (tE.begun 4) [3#5] [3#5] 0#5 .matrix ∧
    Engages withEng engBegun (tE.begun 4) [3#5, 4#5] [3#5, 4#5] 0#5 .matrix ∧ Engages withEng engBegun (tE.begun 4) [3#5] [] 0#5 .matrix ∧
    Engages withEng engBegun (tE.begun 4) [3#5, 8#5] [8#5] 0#5 .matrix ∧
    (tileFault (tE.val 3#5) 16 f.astr.toNat 0 (32 * f.ks) = none ∧ tileFault (tE.val 4#5) (32 * f.ks) f.bstr.toNat 0 16 = none ∧
      engBegun.TableReady (tE.begun 4) (fmtOf (tE.val 3#5)) ∧ engBegun.TableReady (tE.begun 4) (fmtOf (tE.val 4#5))) ∧
    (tileFault (tE.val 3#5) 16 f.astr.toNat 0 f.sk.toNat = none ∧ tileFault (tE.val 4#5) f.sk.toNat f.bstr.toNat 0 16 = none ∧
      (engBegun.mat 0).kt ≠ 0 ∧ f.sk.toNat = (engBegun.mat 0).kt) ∧
    (tE.val 5#5).toNat + 32 * f.ks = 4096 ∧ f.neurons * f.rank + f.rank * f.din ≤ 32768 ∧
    (engBegun.OpenExtent (tE.begun 4) .rd (tE.val 3#5) (elemBytes (fmtOf (tE.val 3#5))) (streamBytes (fmtOf (tE.val 3#5)) (f.neurons * f.rank)) ∧
      engBegun.OpenExtent (tE.begun 4) .rd (tE.val 4#5) (elemBytes (fmtOf (tE.val 4#5))) (streamBytes (fmtOf (tE.val 4#5)) (f.rank * f.din)) ∧
      engBegun.OpenExtent (tE.begun 4) .rd (tE.val 3#5) (elemBytes (fmtOf (tE.val 3#5))) (streamBytes (fmtOf (tE.val 3#5)) (f.neurons * f.din)) ∧
      engBegun.OpenExtent (tE.begun 4) .rd (tE.val 4#5) (elemBytes (fmtOf (tE.val 4#5))) (streamBytes (fmtOf (tE.val 4#5)) (f.outs * f.neurons)) ∧
      engBegun.OpenExtent (tE.begun 4) .rd (tE.val 3#5) (elemBytes (fmtOf (tE.val 3#5))) (streamBytes (fmtOf (tE.val 3#5)) f.din)) ∧
    (4 ≤ fmtOf (tE.val 3#5) ∧ fmtOf (tE.val 3#5) ≤ 11 ∧ 4 ≤ fmtOf (tE.val 4#5) ∧ fmtOf (tE.val 4#5) ≤ 11 ∧ (engBegun.mat 0).pshape = some f.shape) ∧
    (f.ks ≤ 8 ∧ (engBegun.mat 0).rstep = 0#64 ∧ f.pos ≤ f.ringLen ∧ (engBegun.mat 0).rstep.toNat ≤ f.ringLen ∧ (engBegun.mat 0).current ≠ none ∧ (engBegun.mat 0).lost = false ∧
      (f.pos + (f.ringLen + 1) - (engBegun.mat 0).rstep.toNat) % (f.ringLen + 1) = 0) ∧
    (∀ p, engBegun.OpenExtent (tE.begun 4) p (tE.val 6#5) 4 3072 ∧ engBegun.OpenExtent (tE.begun 4) p (tE.val 6#5) 8 ((f.neurons + 63) / 64 * 8) ∧
      engBegun.OpenExtent (tE.begun 4) p (tE.val 7#5) 4 (4 * f.sk.toNat)) ∧ fmtOf (tE.val 6#5) = 0 ∧ fmtOf (tE.val 7#5) = 1 ∧
    (badTag (tE.val 11#5) = false ∧ isRef (tE.val 11#5) = false ∧ blkOf (tE.val 11#5) = 0 ∧ isH4 (fmtOf (tE.val 11#5)) = false ∧
      ∀ o ∈ storeOffsets f (fmtOf (tE.val 11#5)), checkAddr (tE.val 11#5) o 1 false = .ok (addrPlus (tE.val 11#5) o) ∧
        windowOf (addrPlus (tE.val 11#5) o) = 15) ∧
    (Ends withEng engBegun (tE.begun 4) [8#5] [8#5] 4 0#5 ∧ meRefuses (engBegun.mat 0) 0 (tE.val 8#5) = false ∧ (engBegun.core 0).etag = some 0) := by
  refine ⟨engages _ rfl rfl rfl, engages _ rfl rfl rfl, engages _ rfl rfl rfl, engages _ rfl rfl rfl, engages _ rfl rfl rfl,
    ⟨by decide +kernel, by decide +kernel, (fun _ _ _ => rfl), (fun _ _ _ => rfl)⟩,
    ⟨by decide +kernel, by decide +kernel, by decide +kernel, by decide +kernel⟩, by decide +kernel, by decide +kernel, ?_, ⟨by decide, by decide, by decide, by decide, rfl⟩,
    ⟨by decide +kernel, rfl, by decide +kernel, by decide +kernel, nofun, rfl, by decide +kernel⟩, fun p => ⟨?_, ?_, ?_⟩, rfl, rfl,
    ⟨rfl, rfl, rfl, rfl, ?_⟩, ends_idle 4 rfl rfl rfl rfl rfl rfl rfl rfl, by decide +kernel, rfl⟩
  · exact ⟨open_local (va := 0xF00000000000) rfl rfl rfl rfl, open_local (va := 0xF00000001000) rfl rfl rfl rfl,
      open_local (va := 0xF00000000000) rfl rfl rfl rfl, open_local (va := 0xF00000001000) rfl rfl rfl rfl,
      open_local (va := 0xF00000000000) rfl rfl rfl rfl⟩
  · exact open_local (va := 0xF00000002000) rfl rfl rfl rfl
  · exact open_local (va := 0xF00000002000) rfl rfl rfl rfl
  · exact open_local (va := 0xF0000000BFFC) rfl rfl rfl rfl
  · intro o h
    have h2 : o ∈ (List.range 256).map (fun k : Nat => ((k / 16 * 64 + k % 16 : Nat) : Int)) := by
      have : storeOffsets ((engBegun.mat 0).cfg) (fmtOf (tE.val 11#5)) = (List.range 256).map (fun k : Nat => ((k / 16 * 64 + k % 16 : Nat) : Int)) := by decide +kernel
      rwa [this] at h
    have all : ((List.range 256).map (fun k : Nat => ((k / 16 * 64 + k % 16 : Nat) : Int))).all (fun o =>
      (match checkAddr (tE.val 11#5) o 1 false with | .ok n => decide (n = addrPlus (tE.val 11#5) o) | .error _ => false) &&
        decide (windowOf (addrPlus (tE.val 11#5) o) = 15)) = true := by decide +kernel
    have := List.all_eq_true.1 all o h2
    simp only [Bool.and_eq_true, decide_eq_true_eq] at this
    refine ⟨?_, this.2⟩
    have h3 := this.1
    split at h3
    · rename_i n e; rw [e, of_decide_eq_true h3]
    · cases h3
/-- The copy engine is set for `len` bytes, or for one row of 4 bytes of which the list at 0xF00000006000 names one. -/
def ce0 : CeCfg := { CeCfg.reset with len := 8#64, caddr := 0xF0000000BFF8#64, idx := 0xF00000006000#64, rows := 0x0000000100000004#64, rstr := 64#64 }
def withCe : State := { one tE with cores := [(0, { core0 with eng := { EngState.reset 0 with ce := ce0 } })] }
def ceBegun : State := withCe.withThread (tE.begun 4)
theorem witness_CopyCommands :
    (∀ rs ∈ [[6#5, 3#5], [6#5]], Engages withCe ceBegun (tE.begun 4) rs rs 0#5 .copy) ∧
    (badTag (tE.val 6#5) = false ∧ isRef (tE.val 6#5) = false ∧ badTag (tE.val 3#5) = false ∧ isRef (tE.val 3#5) = false) ∧
    (ce0.caddr ≠ 0#64 ∧ badTag ce0.caddr = false ∧ isRef ce0.caddr = false ∧ ceBegun.spanFault 0 0 ce0.caddr 0 8 .wr = none ∧ ce0.caddr.toNat % 8 = 0) ∧
    (badTag ce0.idx = false ∧ isRef ce0.idx = false ∧ ceBegun.spanFault 0 0 ce0.idx 0 ce0.listBytes .rd = none ∧
      ∀ v ∈ spanLines ce0.listBytes [ce0.idx.toNat % 2 ^ 48], ∀ l, ceBegun.lineAt 0 0 .rd v = some l → ceBegun.owned l = false) ∧
    (∀ op ∈ [EngOp.ccopy, .cfill, .ctcopy, .cgather, .cscatter, .ccopyF],
      let listed := decide (op = .cgather) || decide (op = .cscatter)
      let cmd := ceBegun.newCmd (tE.begun 4) op 0 (tE.val 6#5) (if op = .cfill then 0#64 else tE.val 3#5) [] []
      ∃ rows, (listed = false → rows = []) ∧ (listed = true → ceBegun.copyRows 0 cmd false = .ok rows) ∧
      ∃ lo hi, (copySpans op ce0 rows).1 = some (lo, hi) ∧ ceBegun.spanFault 0 0 (tE.val 6#5) lo hi .wr = none ∧
        meets (spanAt (tE.begun 4) ce0.caddr (some (0, 8))) (spanAt (tE.begun 4) (tE.val 6#5) (some (lo, hi))) = false ∧
        (op = .cfill ∨ ∃ lo' hi', (copySpans op ce0 rows).2 = some (lo', hi') ∧ ceBegun.spanFault 0 0 (tE.val 3#5) lo' hi' .rd = none ∧
          meets (spanAt (tE.begun 4) (tE.val 3#5) (some (lo', hi'))) (spanAt (tE.begun 4) (tE.val 6#5) (some (lo, hi))) = false)) ∧
    ((tE.val 6#5).toNat % 2 ^ 48 % ce0.esz = 0 ∧ (tE.val 3#5).toNat % 2 ^ 48 % ce0.esz = 0 ∧ ∀ k, k < 4 → ce0.sst k % ce0.esz = 0 ∧ ce0.dst k % ce0.esz = 0) ∧
    ((tE.val 6#5).toNat % 2 ^ 48 % 8 = 0 ∧ ce0.len.toNat % 8 = 0) ∧
    (Engages withCe ceBegun (tE.begun 4) [6#5] [] 0#5 .copy ∧ Ends withCe ceBegun (tE.begun 4) [8#5] [8#5] 4 0#5 ∧ ceRefuses 0 (tE.val 8#5) = false) := by
  have eng {rs fs : List (BitVec 5)} (own : rs.all (fun r => !tE.beyond r) = true) (ports : rs.any isPort = false)
      (src : fs.all (fun r => (tE.reg r.toNat).full) = true) : Engages withCe ceBegun (tE.begun 4) rs fs 0#5 .copy :=
    { toEnds := ends_idle 4 rfl rfl rfl rfl own rfl ports src, general := rfl, canon := ⟨⟨rfl, rfl, rfl, rfl⟩, (fun _ h => nomatch h)⟩, tag := rfl,
      free := by decide +kernel, first := rfl }
  refine ⟨?_, by decide, ⟨by decide, rfl, rfl, by decide +kernel, by decide⟩, ⟨rfl, rfl, by decide +kernel, (fun _ _ _ _ => rfl)⟩, ?_, by decide +kernel, by decide,
    eng rfl rfl rfl, ends_idle 4 rfl rfl rfl rfl rfl rfl rfl rfl, rfl⟩
  · intro rs h
    rcases List.mem_pair.1 h with rfl | rfl
    exacts [eng rfl rfl rfl, eng rfl rfl rfl]
  · intro op h
    simp only [List.mem_cons, List.mem_nil_iff, or_false] at h
    rcases h with rfl | rfl | rfl | rfl | rfl | rfl
    · exact ⟨[], (fun _ => rfl), nofun, _, _, rfl, by decide +kernel, by decide +kernel, .inr ⟨_, _, rfl, by decide +kernel, by decide +kernel⟩⟩
    · exact ⟨[], (fun _ => rfl), nofun, _, _, rfl, by decide +kernel, by decide +kernel, .inl rfl⟩
    · exact ⟨[], (fun _ => rfl), nofun, _, _, rfl, by decide +kernel, by decide +kernel, .inr ⟨_, _, rfl, by decide +kernel, by decide +kernel⟩⟩
    · exact ⟨[0], nofun, (fun _ => ok_is (by decide +kernel)), _, _, rfl, by decide +kernel, by decide +kernel, .inr ⟨_, _, rfl, by decide +kernel, by decide +kernel⟩⟩
    · exact ⟨[0], nofun, (fun _ => ok_is (by decide +kernel)), _, _, rfl, by decide +kernel, by decide +kernel, .inr ⟨_, _, rfl, by decide +kernel, by decide +kernel⟩⟩
    · exact ⟨[], (fun _ => rfl), nofun, _, _, rfl, by decide +kernel, by decide +kernel, .inr ⟨_, _, rfl, by decide +kernel, by decide +kernel⟩⟩
/-- A command of thread 1 in a queue of core 0. -/
def cmd0 (op : EngOp) (a b : Word) : Cmd := (begun tE 4).newCmd (tE.begun 4) op 0 a b [] []
/-- Core 0 with commands at its engines. -/
def busy (v m c : List Cmd) (me : MeState) : State :=
  { one tE with cores := [(0, { core0 with vq := v, mq := m, cq := c, eng := { EngState.reset 0 with me := me } })] }
theorem busy_inv (v m c : List Cmd) (me : MeState) : (busy v m c me).Inv := ⟨⟨rfl, rfl, rfl, rfl⟩, (fun _ h => nomatch h)⟩
/-- One command for each clause, with registers and masks at the ends of their ranges. -/
theorem witness_VectorResults : ∀ op ∈ [EngOp.vfun .add 15#4 15#4 0#4 3#2, .vcmp 7 3#2 0#4 15#4 3#2, .vsel 1#4 2#4 3#4 1#2, .vfun .perm 1#4 1#4 1#4 0#2,
      .vslide 15#4 1#4 1#4 2#4 0#2, .vfun .rsum 1#4 2#4 0#4 3#2, .vfun .nzc 0#4 15#4 0#4 0#2, .vfun .nzb 15#4 0#4 0#4 3#2, .vfun (.rnd 3) 1#4 2#4 0#4 0#2,
      .vfun .exp2 1#4 2#4 0#4 0#2, .vfun .scale 1#4 2#4 3#4 0#2, .vfun .rcp 1#4 2#4 0#4 0#2, .vfun .rsq 1#4 2#4 0#4 0#2, .vfun .f2iRz 1#4 2#4 0#4 0#2, .vfun .i2f 1#4 2#4 0#4 0#2,
      .vfun .f2b 1#4 2#4 0#4 0#2, .vfun .h2f 1#4 2#4 0#4 0#2],
    (busy [cmd0 op 0#64 0#64] [] [] (MeState.reset 0)).Inv ∧
    ((busy [cmd0 op 0#64 0#64] [] [] (MeState.reset 0)).core 0).vq = cmd0 op 0#64 0#64 :: [] ∧ (cmd0 op 0#64 0#64).result = none ∧
    (busy [cmd0 op 0#64 0#64] [] [] (MeState.reset 0)).engWaits 0 .vector (cmd0 op 0#64 0#64) = false ∧ (cmd0 op 0#64 0#64).op = op := by
  intro op h
  simp only [List.mem_cons, List.mem_nil_iff, or_false] at h
  rcases h with rfl | rfl | rfl | rfl | rfl | rfl | rfl | rfl | rfl | rfl | rfl | rfl | rfl | rfl | rfl | rfl | rfl <;> exact ⟨busy_inv _ _ _ _, rfl, rfl, by decide +kernel, rfl⟩
/-- A multiplication of two tiles of own local memory, of code 2. -/
def cmdM : Cmd := cmd0 (.mma 1#1) 0x20F00000000000#64 0x20F00000001000#64
/-- A copy and a fill of 8 bytes of own local memory. -/
def cmdC (op : EngOp) : Cmd := { cmd0 op 0xF0000000BFF8#64 0xF00000000000#64 with ccfg := { CeCfg.reset with len := 8#64 } }
theorem witness_MatrixAndCopyResults :
    (∀ k : Cmd, k ∈ [cmdM, cmd0 (.mzero 0#1) 0#64 0#64, cmd0 .sseed 5#64 0#64] → (busy [] [k] [] me0).Inv ∧ ((busy [] [k] [] me0).core 0).mq = k :: [] ∧
      k.result = none ∧ (busy [] [k] [] me0).engWaits 0 .matrix k = false) ∧
    ((∃ rs, (busy [] [cmdM] [] me0).rowsOf 0 cmdM false cmdM.a 0 = .ok rs) ∧ (∃ cs, (busy [] [cmdM] [] me0).colsOf 0 cmdM false cmdM.b 0 = .ok cs) ∧ cmdM.mcfg.ks = 1) ∧
    Tab.wf 0#96 me0.acc = true ∧
    (∀ op, op = EngOp.ccopy ∨ op = .cfill → (busy [] [] [cmdC op] me0).Inv ∧ ((busy [] [] [cmdC op] me0).core 0).cq = cmdC op :: [] ∧ (cmdC op).result = none ∧
      (busy [] [] [cmdC op] me0).engWaits 0 .copy (cmdC op) = false ∧ (cmdC op).ccfg.caddr = 0#64 ∧ (cmdC op).ccfg.len.toNat = 8 ∧
      ∀ j : Nat, j < 8 → (busy [] [] [cmdC op] me0).engPlace 0 (cmdC op) false (addrPlus (cmdC op).a j) .wr = .ok (localLoc 0 (0xBFF8 + j)) ∧
        (busy [] [] [cmdC op] me0).engPlace 0 (cmdC op) false (addrPlus (cmdC op).b j) .rd = .ok (localLoc 0 j) ∧
        (busy [] [] [cmdC op] me0).poisoned (localLoc 0 j) = false) := by
  refine ⟨?_, ⟨ok_of (by decide +kernel), ok_of (by decide +kernel), by decide +kernel⟩, rfl, ?_⟩
  · intro k h
    simp only [List.mem_cons, List.mem_nil_iff, or_false] at h
    rcases h with rfl | rfl | rfl <;> exact ⟨busy_inv _ _ _ _, rfl, rfl, by decide +kernel⟩
  · intro op h
    rcases h with rfl | rfl <;> refine ⟨busy_inv _ _ _ _, rfl, rfl, by decide +kernel, rfl, by decide, ?_⟩ <;> intro j hj <;>
      interval_cases j <;> exact ⟨rfl, rfl, by decide +kernel⟩
/-- A command that has run: it leaves one byte of page 2, or a scalar. -/
def ran (op : EngOp) (w : List WEntry) (v : Option Word) : Cmd :=
  { cmd0 op 0#64 0#64 with result := some { EngResult.nothing with writes := w, scalar := v, done := w.length } }
def byte0 : List WEntry := [⟨0x20000, (one tL).placeIn (pageAt 0 2) 0x20000, 0x5A#8⟩]
def waitsMatrix : State := { busy [] [ran .psel byte0 none] [] me0 with threads := [(1, { tE with wait := .matrix })] }
/-- A ring step whose tile has come, and a tile that waits to leave for core 0's neighbour. -/
def cmdR : Cmd := cmd0 (.mring 0#1) 0x20F00000000000#64 0#64
def ringMe : MeState := { me0 with current := some ⟨1, []⟩, cfg := { MeCfg.reset 0 with ring := 0x0001000000000000#64 } }
def ringBusy : State := busy [] [{ cmdR with mcfg := ringMe.cfg }] [] ringMe
/-- Cores 0 and 1 in a ring of two, with a tile on its way from 0 to 1. -/
def tiled (t1 : Tab Thread) : State := { dev ((1, tE) :: t1) with cores :=
  [(0, { core0 with eng := { EngState.reset 0 with me := { me0 with tileOut := some ⟨1, []⟩, cfg := { MeCfg.reset 0 with ring := 0x10000#64 } } } }),
    (1, { Core.reset 1 with tag := some 0, etag := some 0, eng := { EngState.reset 1 with me := { MeState.reset 1 with cfg := { MeCfg.reset 1 with ring := 0#64 } } } })] }
theorem witness_EngineCompletions :
    (∀ k : Cmd, k ∈ [ran (.vst 0#4) byte0 none, ran (.vget 1#6) [] (some 5#64)] → (busy [k] [] [] me0).Inv ∧ ((busy [k] [] [] me0).core 0).queue .vector = k :: [] ∧
      k.void = false ∧ k.going = false ∧ (∃ r, k.result = some r ∧ (busy [k] [] [] me0).engHeld k (linesOf (r.writes.map (·.loc))) = false ∧ r.fault = none ∧
        r.cword = none ∧ r.fills = [] ∧ ∀ w ∈ r.writes, (busy [k] [] [] me0).staleLine (w.loc / 64) = false) ∧
      (busy [k] [] [] me0).thread? k.uid = some tE ∧ tE.attr.isSealed = false ∧ tE.wait = .running) ∧
    (waitsMatrix.Inv ∧ (waitsMatrix.core 0).queue .matrix = ran .psel byte0 none :: [] ∧ waitsMatrix.thread? 1 = some { tE with wait := .matrix }) ∧
    ((busy [] [] [ran .cfill byte0 none] me0).core 0).queue .copy = ran .cfill byte0 none :: [] ∧
    (ringBusy.Inv ∧ (ringBusy.core 0).mq = { cmdR with mcfg := ringMe.cfg } :: [] ∧ (ringBusy.mat 0).lost = false ∧ (ringBusy.mat 0).rstep = 0#64 ∧
      (ringBusy.mat 0).current = some ⟨1, []⟩ ∧ ringMe.cfg.ringLen = 1 ∧ (ringBusy.mat 0).tileOut = none ∧ ringMe.cfg.ks = 1 ∧
      ringBusy.engWaits 0 .matrix { cmdR with mcfg := ringMe.cfg } = false ∧
      tileFault cmdR.a 16 ringMe.cfg.astr.toNat 0 32 = none ∧ ∃ rs, ringBusy.rowsOf 0 { cmdR with mcfg := ringMe.cfg } false cmdR.a 0 = .ok rs) ∧
    (((tiled []).mat 0).tileOut = some ⟨1, []⟩ ∧ ((tiled []).core 0).etag = some 0 ∧ ((tiled []).mat 0).cfg.down = 1 ∧ (tiled []).holdsCtx 1 0 = false) ∧
    ((tiled [(2, { tE with place := .slot 1 0 })]).coreFenced 1 = false ∧ (tiled [(2, { tE with place := .slot 1 0 })]).holdsCtx 1 0 = true ∧
      ((tiled [(2, { tE with place := .slot 1 0 })]).core 1).etag = some 0 ∧ ((tiled [(2, { tE with place := .slot 1 0 })]).mat 1).tileIn = none ∧
      ((tiled [(2, { tE with place := .slot 1 0 })]).mat 1).cfg.up = 0) := by
  refine ⟨?_, ⟨⟨⟨rfl, rfl, rfl, rfl⟩, (fun _ h => nomatch h)⟩, rfl, rfl⟩, rfl, ?_, ⟨rfl, rfl, by decide +kernel, by decide +kernel⟩,
    by decide +kernel, by decide +kernel, rfl, rfl, by decide +kernel⟩
  · intro k h
    rcases List.mem_pair.1 h with rfl | rfl
    all_goals exact ⟨busy_inv _ _ _ _, rfl, rfl, rfl, ⟨_, rfl, by decide +kernel, rfl, rfl, rfl, by decide +kernel⟩, rfl, rfl, rfl⟩
  · exact ⟨busy_inv _ _ _ _, rfl, rfl, rfl, rfl, by decide +kernel, rfl, by decide +kernel, by decide +kernel, by decide +kernel, ok_of (by decide +kernel)⟩
theorem witness_HandleCommands :
    tL.settOn = none ∧ Ends (one tL) (begun tL 4) (tL.begun 4) [3#5, 4#5] [4#5] 4 0#5 ∧ Ends (one tL) (begun tL 4) (tL.begun 4) [3#5, 4#5] [3#5, 4#5] 4 0#5 ∧
    Ends (one tL) (begun tL 4) (tL.begun 4) [3#5] [3#5] 4 0#5 :=
  ⟨rfl, ends_one 4 rfl rfl rfl rfl rfl rfl rfl, ends_one 4 rfl rfl rfl rfl rfl rfl rfl, ends_one 4 rfl rfl rfl rfl rfl rfl rfl⟩
/-- A handle of context 0 with four F32 elements and the classes SCALE, FILL and INFO's. -/
def h0 (order : List HEntry) : Handle where
  state := .live
  opset := 0x84#32
  fmt := 1
  ndim := 1
  dims := [4, 0, 0, 0]
  table := DTable.reset
  bsize := 0
  owners := []
  hint := 0#4
  gen := 0#32
  dress := ⟨[], [], 0, 0, 0#12, none, [], 0#8⟩
  pin := false
  bad := false
  asked := 0#32
  charge := 64
  normC := []
  normR := []
  codes := []
  order := order
  dressedAt := some 0
  hops := 0#64
  redress := 0#64
  slicex := 0#64
  settx := 0#64
/-- A handle command of thread 1. -/
def hc (op : HandleOp) (a b : Word) : HandleCmd := tL.command 1 op 3#5 a b
/-- The device with handle 0 of context 0. -/
def handled (order : List HEntry) : State := { one tL with handles := [(0, h0 order)] }
def bare (order : List HEntry) : State := { handled order with cores := [] }
def entry (op : HandleOp) (redress built : Bool) (a b : Word) : HEntry := ⟨hc op a b, redress, 0#32, none, built, [], [], 0⟩
/-- A descriptor of four F32 elements at global 0x20000. -/
def described (q : Word) : State := { one tL with
  mem := Store.write (Store.write [] ((one tL).placeIn (pageAt 0 2) 0x20000) 8 0x100000084) ((one tL).placeIn (pageAt 0 2) 0x20008) 8 4
  ctxs := [(0, { ctx0 with hqmax := q })] }
theorem witness_HandleAdmission :
    ((hc .scale 0x8000010000000000#64 0x3F800000#64).held = false ∧ (handled []).liveRef 0 0x8000010000000000#64 = none) ∧
    ((handled []).liveRef 0 0x8000000000000000#64 = some (0, h0 []) ∧ (h0 []).has 15 = false ∧ (h0 []).has 7 = true ∧ (h0 []).has 2 = true ∧
      scalarOf 0x3F800000#64 ≠ none ∧ (handled []).thread? (hc .scale 0#64 0#64).uid = some tL ∧ tL.attr.isSealed = false) ∧
    (∀ q : Word, q = 0#64 ∨ q = 16#64 → (described q).blockOwned (hc .alloc 0#64 0x20000#64) = false ∧
      ∃ h, ((described q).touchPlaces ((described q).piecePlaces (hc .alloc 0#64 0x20000#64) ((described q).descPieces (hc .alloc 0#64 0x20000#64)))).describe
        (hc .alloc 0#64 0x20000#64) false = .ok (some h) ∧ h.charge = 64 ∧
      ∃ p, (described q).page? 0 = some (0, p) ∧ p.nextH < 2 ^ 23 ∧ p.hqmax = q) := by
  refine ⟨⟨rfl, by decide +kernel⟩, ⟨by decide +kernel, by decide, by decide, by decide, by decide +kernel, rfl, rfl⟩, ?_⟩
  intro q h
  rcases h with rfl | rfl <;> exact ⟨by decide +kernel, _, rfl, by decide +kernel, _, rfl, by decide, rfl⟩
theorem witness_HandleCompletion :
    (∀ e ∈ [entry .scale false false 0x8000000000000000#64 0x3F800000#64, entry .fill false false 0x8000000000000000#64 0x3F800000#64,
        entry .info false false 0#64 0x8000000000000002#64, entry .free false false 0x8000000000000000#64 0#64, entry .widen true false 0x8000000000000000#64 0#64,
        entry .widen true true 0x8000000000000000#64 0#64],
      Tab.find? (bare [e]).handles (handleKey 0 0) = some (h0 [e]) ∧ (h0 [e]).order = e :: [] ∧ e.other = none ∧ e.cmd.ctx = 0 ∧ refNum e.cmd.target = 0 ∧
        e.cmd.held = false ∧ (bare [e]).syncs = [] ∧ (bare [e]).poisonedFor e.cmd (h0 [e]) (handleKey 0 0) = false ∧ Tab.wf 0#32 (h0 [e]).codes = true ∧
        (h0 [e]).pin = false) ∧
    (Tab.find? (handled []).handles (handleKey 0 0) = some (h0 []) ∧ (h0 []).state = .live ∧
      (h0 []).dressedAt = some 0 ∧ (handled []).cycle < 0 + 30000000 ∧ ¬ ({ handled [] with cycle := 30000000 } : State).cycle < 0 + 30000000 ∧
      (h0 []).dressable = true ∧ (handled []).pinned 0 ≤ ctx0.rquota.toNat) := by
  refine ⟨?_, rfl, rfl, rfl, by decide, by decide, by decide, by decide +kernel⟩
  intro e h
  simp only [List.mem_cons, List.mem_nil_iff, or_false] at h
  rcases h with rfl | rfl | rfl | rfl | rfl | rfl <;> exact ⟨rfl, rfl, rfl, rfl, by decide +kernel, rfl, rfl, by decide +kernel, rfl, rfl⟩
/-- Page 2 in tiled memory, page 3 at sett core 5. -/
def tcNear : List TEntry := [pageAt 0 1, pageAt 0 2, { pageAt 0 3 with frame := 5 * 805306368, kind := 3, word1 := 0xC000000000000005#64, slice := 16384 }]
/-- g3 = 0, g4 = own local 0x100, g5 = 0x30000, g6 = 0x20000. -/
def tNm : Thread := thr [(3, 0#64), (4, 0xF00000000100#64), (5, 0x30000#64), (6, 0x20000#64)]
def nearDev : State := { one tNm with tcache := tcNear }
def nearBegun : State := nearDev.withThread (tNm.begun 4)
/-- Where global 0x20000 is. -/
def at2 : Nat := nearDev.placeIn (pageAt 0 2) 0x20000
/-- The lines of an image there: line 12 k of the page is in the first stack. -/
def lines2 : List Nat := (List.range 64).map (fun k => nearDev.placeIn (pageAt 0 2) (0x20000 + 64 * k))
/-- A near-memory command block at own local 0x100 that names an image, a base and a length. -/
def blockAt (image base len : Nat) : State := { nearDev with
  mem := Store.write (Store.write (Store.write [] (localLoc 0 0x108) 8 image) (localLoc 0 0x110) 8 base) (localLoc 0 0x118) 8 len }
def nm0 : NmCmd := ⟨1, 0, 0, 0x20000, 0x20000, false, 0x30000, 64, none, 0#64, 0#64, 0#64, 0#64, at2, 0x20000, 0⟩
/-- Sett core 5 with a command at the head of its queue, an overlay, and the program that runs it. -/
def settAt (ovl : Option Nat) (running : Option Nat) (ts : Tab Thread) : State := { nearDev with
  threads := ts, setts := [(5, { Sett.reset with ovl := ovl, ovlFrom := lines2, queue := [nm0], running := running })] }
def tPr : Thread := { tNm with place := .sett 5, program := true, wait := .reply, home := some 0 }
/-- A zeroing row command of one row. -/
def row0 : RowCmd := ⟨1, 0, 0, false, [5 * 805306368], [], 0, 0, at2, 0⟩
def rowed : State := { nearDev with setts := [(5, { Sett.reset with rows := [row0] })] }
theorem ready {s : State} {va : Nat} {e : TEntry} {l : Nat} {ls : List Nat} (w : windowOf va < 14 ∧ s.globalSpot 0 va .rd = .global e l)
    (b : s.badImage 0 va = none) (h : s.imageLines 0 va = ls) : s.imageAt 0 va = .ready ls := by
  simp only [State.imageAt, w.1, if_true, w.2, b, h, Option.isSome_none, Bool.false_eq_true, if_false]
theorem witness_NearMemory :
    ((tNm.begun 4).settOn = none ∧ tNm.attr.isSealed = false ∧ tNm.wait = .running ∧ (tNm.begun 4).solo = false ∧
      Ends nearDev nearBegun (tNm.begun 4) [4#5, 6#5] [4#5, 6#5] 4 0#5 ∧ nearBegun.Leads nearBegun (tNm.begun 4) 0xF00000000100 .rd (localLoc 0 0x100) ∧
      nearBegun.recordFault 0 0 (tNm.val 6#5) .wr = none ∧ nearBegun.Leads (nearBegun.useEntry (pageAt 0 2) true) (tNm.begun 4) 0x20000 .wr at2 ∧
      nearBegun.ownFault 0 0 (tNm.val 4#5) 64 8 .rd = none ∧ nearBegun.ownFault 0 0 (tNm.val 4#5) 32 8 .rd = none ∧
      (let s₃ := nearBegun.useEntry (pageAt 0 2) true;
        (∀ n ∈ [31, 63], s₃.owned (localLoc 0 0x100 / 64) = false ∧ s₃.owned ((localLoc 0 0x100 + n) / 64) = false ∧ s₃.heldBack 1 [at2 / 64] = false) ∧
        s₃.blockAbsent 0 (fun k => BitVec.ofNat 64 (s₃.readLoc (localLoc 0 0x100 + 8 * k) 8)) = none) ∧
      isRef (BitVec.ofNat 64 ((nearBegun.useEntry (pageAt 0 2) true).see (tNm.begun 4) 0xF00000000110 (localLoc 0 0x110) 8)) = false) ∧
    (Ends nearDev nearBegun (tNm.begun 4) [5#5, 6#5] [5#5, 6#5] 4 0#5 ∧ isRef (tNm.val 5#5) = false ∧ badTag (tNm.val 5#5) = false ∧
      (∃ e, nearBegun.lookup 0 0x30000 = some e ∧ e.kind = 3) ∧ imageFits (tNm.val 6#5) = true ∧ fmtOf (tNm.val 6#5) = 0 ∧
      nearBegun.Leads (nearBegun.useEntry (pageAt 0 2) false) (tNm.begun 4) 0x20000 .rd at2 ∧ ((nearBegun.useEntry (pageAt 0 2) false).touchPlaces ((nearBegun.useEntry (pageAt 0 2) false).imageLines 0 0x20000)).badImage 0 0x20000 = none) ∧
    (Ends nearDev nearBegun (tNm.begun 4) [3#5, 6#5] [6#5] 4 0#5 ∧ nearBegun.recordFault 0 0 (tNm.val 6#5) .rd = none ∧
      nearBegun.Leads (nearBegun.useEntry (pageAt 0 2) false) (tNm.begun 4) 0x20000 .rd at2 ∧
      (nearBegun.useEntry (pageAt 0 2) false).owned (at2 / 64) = false ∧ ((nearBegun.useEntry (pageAt 0 2) false).touchPlaces [at2]).poisoned at2 = false) ∧
    ((∀ p ∈ [(0x20000, 0x30000, 64), (0x20000, 0x20000, 64), (0x20008, 0x30000, 65536)], (blockAt p.1 p.2.1 p.2.2).Inv) ∧ at2 % 16 = 0 ∧
      (blockAt 0x20000 0x20000 64).nmRange 0 0x20000#64 64 = none ∧ (blockAt 0x20000 0x30000 65536).nmRange 0 0x30000#64 65536 = some (5, none) ∧
      imageFits 0x20008#64 = false ∧ imageFits 0x20000#64 = true ∧ ({ nearDev with lostStacks := [0] } : State).lostStacks.contains (5 / 64) = true ∧
      (blockAt 0x20000 0x30000 64).readLoc (localLoc 0 0x118) 8 = 64) ∧
    (((settAt none none []).sett 5).running = none ∧ ((settAt none none []).sett 5).queue = nm0 :: [] ∧ ((settAt none none []).touchPlaces ((settAt none none []).imageLines 0 nm0.image)).imageAt 0 nm0.image = .ready lines2 ∧
      (settAt none none []).imageLines 0 nm0.image = lines2 ∧ (settAt (some 0x20000) none []).imageLines 0 nm0.image = lines2 ∧
      (∃ ls, (settAt (some 0x20000) none []).imageAt 0 nm0.image = .ready ls) ∧
      nm0.loadOnly = false ∧ ((settAt none none []).sett 5).ovl ≠ some nm0.image ∧ ((settAt (some 0x20000) none []).sett 5).ovl = some nm0.image ∧
      ((settAt (some 0x20000) none []).sett 5).ovlFrom = lines2) ∧
    ((settAt (some 0x20000) (some 1) [(1, tPr)]).Inv ∧ Tab.rising (settAt (some 0x20000) (some 1) [(1, tPr)]).setts = true ∧
      ((settAt (some 0x20000) (some 1) [(1, tPr)]).sett 5).running = some 1 ∧ ((settAt (some 0x20000) (some 1) [(1, tPr)]).sett 5).queue = nm0 :: [] ∧
      (settAt (some 0x20000) (some 1) [(1, tPr)]).thread? 1 = some tPr ∧ tPr.wait = .reply ∧ nm0.status % 16 = 0 ∧
      (settAt (some 0x20000) (some 1) [(1, tPr)]).recordHeld nm0.status = false ∧ (settAt (some 0x20000) (some 1) [(1, tPr)]).staleLine (nm0.status / 64) = false) ∧
    (rowed.Inv ∧ (rowed.sett 5).rows = row0 :: [] ∧ row0.src = [] ∧ row0.status % 16 = 0 ∧ rowed.recordHeld row0.status = false ∧ rowed.staleLine (row0.status / 64) = false ∧
      ∀ d ∈ row0.dst, row0.status + 16 ≤ d ∨ d + 1024 ≤ row0.status) := by
  have inv {m : Store 8} (h : Memory.wf m) {ts : Tab Thread} (ht : Tab.rising ts = true) {st : Tab Sett} :
      ({ nearDev with mem := m, threads := ts, setts := st } : State).Inv := ⟨⟨h, rfl, ht, rfl⟩, (fun _ h => nomatch h)⟩
  refine ⟨⟨rfl, rfl, rfl, rfl, ends_idle 4 rfl rfl rfl rfl rfl rfl rfl rfl, .inl ⟨rfl, rfl⟩, by decide +kernel, .inr (.inr ⟨_, rfl, rfl⟩),
      by decide +kernel, by decide +kernel, by decide +kernel, by decide +kernel⟩,
    ⟨ends_idle 4 rfl rfl rfl rfl rfl rfl rfl rfl, rfl, rfl, ⟨_, rfl, rfl⟩, by decide, by decide, .inr (.inr ⟨_, rfl, rfl⟩), by decide +kernel⟩,
    ⟨ends_idle 4 rfl rfl rfl rfl rfl rfl rfl rfl, by decide +kernel, .inr (.inr ⟨_, rfl, rfl⟩), by decide +kernel, by decide +kernel⟩,
    ⟨?_, by decide +kernel, by decide +kernel, by decide +kernel, by decide, by decide, rfl, by decide +kernel⟩,
    ⟨rfl, rfl, ?_, by decide +kernel, by decide +kernel, ⟨lines2, ?_⟩, rfl, nofun, rfl, rfl⟩,
    ⟨inv rfl rfl, rfl, rfl, rfl, rfl, rfl, by decide +kernel, by decide +kernel, by decide +kernel⟩, inv rfl rfl, rfl, rfl, by decide +kernel,
    by decide +kernel, by decide +kernel, by decide +kernel⟩
  · intro p h
    simp only [List.mem_cons, List.mem_nil_iff, or_false] at h
    rcases h with rfl | rfl | rfl <;> exact ⟨⟨by decide +kernel, rfl, rfl, rfl⟩, (fun _ h => nomatch h)⟩
  · exact ready (e := pageAt 0 2) (l := at2) ⟨by decide, by decide +kernel⟩ (by decide +kernel) (by decide +kernel)
  · exact ready (e := pageAt 0 2) (l := at2) ⟨by decide, rfl⟩ (by decide +kernel) (by decide +kernel)
/-- A launch image's header at global 0x20000: entry and trap vector 0x10000, 28 registers. -/
def headed : Store 8 := Store.write (Store.write [] at2 8 0x4B00000000010000) (at2 + 8) 8 28
/-- A record of one thread on core 0 at priority 12 whose header is at 0x20000. -/
def record0 : List Word := [0x20000#64, 0xC00000001#64, 0x4000000000000000#64, 0#64, 0#64, 0#64, 0#64, 0#64]
def req0 (words : List Word) : LaunchReq := ⟨0, words, false, 0, 31#5, 0, 0, 0, false⟩
def launchable : State := { one tNm with mem := headed }
def attr12 : Attr := { tNm.attr with prio := 12, seq := 2 }
def launch0 : Launch := ⟨attr12, 0x10000, 0#64, 256, 1, 0x4000000000000000#64, 0, 0, [7#64], 0, [], 12, 0, 0⟩
/-- One launch to place; core 0 has room, or none for it. -/
def placing (cap : Nat) : State := { one tNm with launches := [(3, launch0)], cores := [(0, { core0 with cap := cap })] }
def tPre (w : Wait) : Thread := { tNm with preempt := true, wait := w }
def tSt0 : Thread := tPre (.nmstat 0)
theorem witness_LaunchEvents :
    (((one tNm).ctxPage 1).state = 0 ∧ ((one tNm).ctxPage 0).state ≠ 0 ∧ record0.length = 8 ∧ (one tNm).pageOnly = false ∧ (one tNm).Inv ∧ (one tNm).page? ((one tNm).ctxPage 0).num = some (0, (one tNm).ctxPage 0) ∧
      (ctx0.fwhead - ctx0.fwtail).toNat ≠ ctx0.fwsize.toNat) ∧
    ((req0 record0).dev = false ∧ ((req0 [1#64]).words.getD 0 0#64).toNat % 64 ≠ 0) ∧
    ((tNm.request 1 3#5 0x20000).dev = true ∧ (tNm.request 1 3#5 0x20000).held = false ∧ ∃ k, ({ one tNm with mem := Store.write [] at2 8 1 } : State).judge (tNm.request 1 3#5 0x20000) false = .ok (.error k)) ∧
    (∃ l, launchable.judge (req0 record0) false = .ok (.ok l)) ∧
    ((placing 512).Inv ∧ (placing 512).launches = [(3, launch0)] ∧ launch0.next < launch0.threads ∧ launch0.requeue = [] ∧ (placing 512).waiters = [] ∧ (placing 512).eligible launch0 = true ∧
      (placing 512).bestCore launch0 ((placing 512).fitting 3 launch0) = some 0 ∧ (placing 512).freeSlot 0 = some 1 ∧ ((placing 512).core 0).tag = some launch0.attr.ctx) ∧
    ((one tNm).launches = [] ∧ (placing 40).dispatch = none ∧ (placing 40).preemptor = some 1 ∧ (placing 40).pending.contains .dispatchPreemption = false) ∧
    ((one tSt0).thread? 1 = some tSt0 ∧ tSt0.place = .slot 0 0 ∧ tSt0.solo = false ∧ tSt0.Ended ∧
      1 < (one tSt0).nextUid ∧ tSt0.wait ≠ .running ∧ tSt0.wait.forReply = false ∧ (one tSt0).replyOnly 1 = false ∧ tSt0.halted = false ∧ tSt0.preempt = true ∧ (tPre .running).inRotation = true) ∧
    (Tab.find? (placing 40).launches 3 = some launch0 ∧ (placing 40).page? 0 = some (0, ctx0) ∧ launch0.prio < ctx0.ceil ∧
      ({ ctx0 with ceil := 12 } : CtxPage).ceil ≤ launch0.prio) := by
  have ok {x : Except EngStop (Except Nat Launch)} (h : (match x with | .ok (.ok _) => true | _ => false) = true) : ∃ l, x = .ok (.ok l) := by
    split at h
    · exact ⟨_, rfl⟩
    · cases h
  have bad {x : Except EngStop (Except Nat Launch)} (h : (match x with | .ok (.error _) => true | _ => false) = true) : ∃ l, x = .ok (.error l) := by
    split at h
    · exact ⟨_, rfl⟩
    · cases h
  exact ⟨⟨rfl, by decide, rfl, rfl, ⟨⟨rfl, rfl, rfl, rfl⟩, (fun _ h => nomatch h)⟩, rfl, by decide⟩, ⟨rfl, by decide⟩, ⟨rfl, rfl, bad (by decide +kernel)⟩,
    ok (by decide +kernel),
    ⟨⟨⟨rfl, rfl, rfl, rfl⟩, (fun _ h => nomatch h)⟩, rfl, by decide, rfl, rfl, by decide +kernel, by decide +kernel, by decide +kernel, rfl⟩,
    ⟨rfl, by decide +kernel, by decide +kernel, rfl⟩, ⟨rfl, rfl, rfl, ⟨rfl, rfl⟩, by decide, nofun, rfl, by decide +kernel, rfl, rfl, rfl⟩, rfl, rfl, by decide, by decide⟩
/-- The stockpile's one thread, slot 0 taken by another. -/
def tStk : Thread := { tL with place := .stock 0 }
def fillable : State := dev [(1, tL), (2, tStk)]
/-- Core 0 with 12 ready threads, one of which may move; core 1 idle; 4 ready threads on each other core of the cluster. -/
def stuck (c k : Nat) : Thread := { tL with place := .slot c k, prev := some tL.chunk }
def loaded : State := { dev ((1, tL) :: ((List.range 11).map (fun k => (k + 2, stuck 0 (k + 1))) ++
    ((clusterCores 0).drop 2).zipIdx.flatMap (fun c => (List.range 4).map (fun k => (20 + 4 * c.2 + k, stuck c.1 k))))) with
  cores := [(0, core0), (1, { Core.reset 1 with tag := some 0, etag := some 0 })] }
/-- Core 0 vacant, with and without a saved image of context 1. -/
def vacated (saved : Tab Saved) : State := { dev [] with saved := saved }
def packet0 (core : Nat) : SpawnPacket := tN.childPacket 1 core 0x10000 [3#5, 5#5]
def tDep (pend : Bool) : Thread := { tL with wait := .depart, regs := if pend then [(3, ⟨0#64, false, false, true⟩)] else tL.regs }
def tTransit : Thread := { tL with place := .transit }
def coreTwo : State := { dev [(1, tTransit)] with cores := [(0, core0), (1, { Core.reset 1 with tag := some 0, etag := some 0 })] }
theorem witness_SlotEvents :
    (({ one tL with device := { Device.reset with fenced := 1#8 } } : State).coreFenced 0 = true ∧
      ({ one tL with device := { Device.reset with fzctl := 1#64 } } : State).freezing = true ∧ fillable.coreFenced 0 = false ∧ fillable.freezing = false ∧
      fillable.thread? 2 = some tStk ∧ fillable.stockOf 0 = [(2, tStk)] ∧ tStk.inRotation = true ∧ tStk.handler = false ∧ tStk.swapReg = none ∧ tStk.toPlace = false ∧ fillable.mayEnter tStk 0 = true ∧ fillable.waitsFor tStk 0 = false ∧
      fillable.freeSlot 0 = some 1 ∧ tStk.attr.count ≤ fillable.freeRegs 0 ∧ (fillable.core 0).tag = some tStk.attr.ctx) ∧
    ((one tL).readySlots 0 < 12 ∧ 12 ≤ loaded.readySlots 0 ∧ 1 ∈ clusterCores (clusterId 0) ∧ loaded.readySlots 1 < 4 ∧
      (∀ x ∈ clusterCores (clusterId 0), x ≠ 1 → 4 ≤ loaded.readySlots x) ∧ loaded.coreFenced 1 = false ∧ loaded.freezing = false ∧
      (loaded.core 1).tag = some 0 ∧ (loaded.core 0).tag = some 0 ∧ (loaded.inSlots 0).filter (fun e => e.2.movable && decide (e.2.slot < 16)) = [(1, tL)] ∧
      loaded.thread? 1 = some tL ∧ tL.swapReg = none ∧ tL.toPlace = false ∧ tL.ceded = false ∧ loaded.freeSlot 1 = some 0 ∧ tL.attr.count ≤ loaded.freeRegs 1) ∧
    ((one tL).vacant 0 = false ∧ (vacated []).vacant 0 = true ∧ (vacated []).coreFenced 0 = false ∧ (vacated []).Inv ∧ ((vacated []).core 0).tag = some 0 ∧
      ((vacated []).core 0).quiet = true ∧ Tab.find? (vacated []).saved (savedKey 1 0) = none ∧
      (∃ j, Tab.find? (vacated [(savedKey 1 0, ⟨[(5, 1#8)], [], [], EngState.reset 0⟩)]).saved (savedKey 1 0) = some j ∧ Memory.wf j.bytes)) ∧
    (((vacated []).core 0).etag = some 0 ∧ ((busy [cmdM] [] [] me0).core 0).quiet = false ∧ ((busy [cmdM] [] [] me0).core 0).etag = some 0) ∧
    ((packet0 16384).held = false ∧ (one tN).spawnRefused 0 16384 = true ∧ (one tN).spawnRefused 0 (packet0 0).core = false ∧
      ((packet0 0).run.map (·.1)).Nodup ∧ (one tN).freezing = false ∧ (one tN).freeSlot 0 = some 1 ∧ (packet0 0).attr.count ≤ (one tN).freeRegs 0 ∧
      ((one tN).core 0).tag = some (packet0 0).attr.ctx ∧ (∀ e ∈ (one tN).threads, e.1 ≠ (one tN).nextUid) ∧
      (one tN).waiters = [] ∧ (∀ e ∈ (one tN).claimants (packet0 0).core 0, e.2.image = []) ∧
      ∀ j l, (one tN).launchOf (packet0 0).attr = some (j, l) → (one tN).windowBusy l.image.length (packet0 0).core = false) ∧
    ((one (tDep true)).thread? 1 = some (tDep true) ∧ (tDep true).wait = .depart ∧ (tDep true).regs.any (fun r => r.2.pend) = true ∧
      (tDep false).regs.any (fun r => r.2.pend) = false ∧ (tDep false).place = .slot 0 0) ∧
    (coreTwo.thread? 1 = some tTransit ∧ tTransit.place = .transit ∧ tTransit.handler = false ∧ tTransit.swapReg = none ∧ tTransit.toPlace = false ∧ tTransit.ceded = false ∧ coreTwo.freeSlot 1 = some 0 ∧
      tTransit.attr.count ≤ coreTwo.freeRegs 1 ∧ (coreTwo.core 1).tag = some 0 ∧ coreTwo.coreFenced 1 = false ∧ coreTwo.freezing = false) :=
  ⟨⟨by decide +kernel, rfl, by decide +kernel, rfl, rfl, rfl, rfl, rfl, rfl, rfl, by decide +kernel, by decide +kernel, by decide +kernel, by decide +kernel, rfl⟩,
    ⟨by decide +kernel, by decide +kernel, by decide +kernel, by decide +kernel, by decide +kernel, by decide +kernel, rfl, rfl, rfl, by decide +kernel, rfl,
      rfl, rfl, rfl, by decide +kernel, by decide +kernel⟩,
    ⟨rfl, rfl, by decide +kernel, ⟨⟨rfl, rfl, rfl, rfl⟩, (fun _ h => nomatch h)⟩, rfl, rfl, rfl, _, rfl, by decide +kernel⟩, ⟨rfl, rfl, rfl⟩,
    ⟨rfl, by decide +kernel, by decide +kernel, by decide +kernel, rfl, by decide +kernel, by decide +kernel, rfl, by decide +kernel, rfl, by decide +kernel, nofun⟩,
    ⟨rfl, rfl, rfl, rfl, rfl⟩, rfl, rfl, rfl, rfl, rfl, rfl, by decide +kernel, by decide +kernel, rfl, by decide +kernel, rfl⟩
/-- A message for core 0, and a queue of 8. -/
def msg0 : Message := ⟨0, 0#64, [0x10000#64, 5#64]⟩
def queued (n : Nat) : State := { one tL with cores := [(0, { core0 with msgs := List.replicate n msg0 })], launches := [(3, { launch0 with attr := tL.attr })] }
def lit : State := { one tL with cores := [(0, { core0 with lights := [(3, 1#64, 2#64)], claim := some 3 })], launches := [(3, launch0)] }
/-- A thread whose register 27 is armed. -/
def tArm : Thread := { tL with regs := [(27, ⟨0#64, false, true, false⟩)] }
def tWait (w : Wait) : Thread := { tL with wait := w }
/-- Thread 1 has a posted store under way. -/
def journaled (e : JEntry) (t : Thread) : State := { one t with cores := [(0, { core0 with journal := [(0, e)] })] }
def je (va : Nat) (k : AccessKind) : JEntry := ⟨1, { acc k 8 with va := va, loc := 0 }, 0, false, 1, 5⟩
theorem witness_ArrivalEvents :
    ((one (tWait .reply)).thread? 1 = some (tWait .reply) ∧ (one tArm).thread? 1 = some tArm ∧
      ((one (tDep true)).thread? 1 = some (tDep true) ∧ (tDep true).wait ≠ .reply ∧ (tDep true).wait ≠ .handle ∧ ((tDep true).reg 3).pend = true) ∧
      tL.wait ≠ .reply ∧ tL.wait ≠ .handle ∧ (tL.reg 27).pend = false) ∧
    ((queued 0).Inv ∧ (queued 8).coreFenced 0 = false ∧ ((queued 8).core 0).tag = some msg0.ctx ∧ ((queued 8).core 0).msgs.length = 8 ∧
      ((queued 0).core 0).msgs.length < 8 ∧ ((queued 0).core 1).tag ≠ some msg0.ctx ∧ isWatchMessage msg0 = false ∧
      isSettMessage msg0 = false ∧ isSettMessage { msg0 with sender := 0x40000000#64 } = true ∧ ((one tL).core 0).tag = some msg0.ctx ∧ (one tL).liveLaunch 0 = none) ∧
    ((queued 1).Inv ∧ (queued 1).handlerFree 0 = true ∧ ((queued 1).core 0).lights = [] ∧ ((queued 1).core 0).msgs = msg0 :: [] ∧
      (queued 1).liveLaunch 0 = some { launch0 with attr := tL.attr } ∧ lit.Inv ∧ lit.handlerFree 0 = true ∧ (lit.core 0).lights = (3, 1#64, 2#64) :: [] ∧
      (queued 1).waiters = [] ∧ lit.waiters = [] ∧ Tab.find? lit.launches 3 = some launch0) ∧
    ((one tArm).thread? 1 = some tArm ∧ ({ one tArm with device := { (one tArm).device with fenced := 1#8 } } : State).coreFenced 0 = true ∧ (27 * 2 ^ 24 : Nat) = 0 + 2 ^ 16 * 0 + 2 ^ 24 * 27 + 2 ^ 32 * (one tArm).device.devid.toNat ∧ (one tArm).coreFenced 0 = false ∧
      (one tArm).inSlot 0 0 = some (1, tArm) ∧ 27 < tArm.attr.count ∧ (tArm.reg 27).armed = true ∧ (tArm.reg 27).full = false ∧
      (one tL).fillTarget 0 0 0 27 = none) ∧
    (({ one (tWait (.page 0x40000)) with faultq := [⟨0, 4, [.thread 1]⟩] } : State).thread? 1 = some (tWait (.page 0x40000)) ∧ tL.settOn = none) ∧
    ((journaled (je 0x20000 .pst) (tWait .fence)).thread? 1 = some (tWait .fence) ∧
      ∀ sys : Bool, (journaled (je 0x20000 .pst) (tWait .fence)).postsOpen 1 sys = true ∧
      (one (tWait .fence)).postsOpen 1 sys = false) ∧
    ((one (tWait .xfence)).thread? 1 = some (tWait .xfence) ∧ (one (tWait .xfence)).Inv ∧ Tab.rising (one (tWait .xfence)).near = true ∧
      (one (tWait .xfence)).nearBusy (((one (tWait .xfence)).rangeLines 0 0x20000 1).map (fun l => settOf (64 * l))).eraseDups = false) :=
  ⟨⟨rfl, rfl, ⟨rfl, nofun, nofun, rfl⟩, nofun, nofun, rfl⟩,
    ⟨⟨⟨rfl, rfl, rfl, rfl⟩, (fun _ h => nomatch h)⟩, by decide +kernel, rfl, rfl, by decide +kernel, by decide +kernel, by decide +kernel, by decide +kernel, by decide +kernel, rfl, rfl⟩,
    ⟨⟨⟨rfl, rfl, rfl, rfl⟩, (fun _ h => nomatch h)⟩, by decide +kernel, rfl, rfl, rfl, ⟨⟨rfl, rfl, rfl, rfl⟩, (fun _ h => nomatch h)⟩, by decide +kernel, rfl, rfl, rfl, rfl⟩,
    ⟨rfl, by decide +kernel, by decide, by decide +kernel, rfl, by decide, rfl, rfl, by decide +kernel⟩, ⟨rfl, rfl⟩, ⟨rfl, by decide +kernel⟩, rfl,
    ⟨⟨rfl, rfl, rfl, rfl⟩, (fun _ h => nomatch h)⟩, rfl, by decide +kernel⟩
/-- The word at global 0x20000 empty, or its core not of the context. -/
def home (t : Thread) (empty : Bool) : State := { one t with empty := if empty then [(at2 / 8, 1#1)] else [] }
theorem witness_HomeEvents :
    ((home (tWait .word) false).thread? (acc .lde 8).uid = some (tWait .word) ∧ (home (tWait .word) false).homeServes (localLoc 1 0) 0 = false ∧
      (∀ b, (home (tWait .word) b).homeServes (acc .lde 8).loc 0 = true ∧ (home (tWait .word) b).writeHeld 1 (acc .lde 8).loc = false ∧
        (home (tWait .word) b).waiters = [] ∧ localCore (acc .lde 8).loc ≠ some (tWait .word).core ∧ ((home (tWait .word) b).touchPlaces [(acc .lde 8).loc]).poisoned (acc .lde 8).loc = false ∧
        ((home (tWait .word) b).touchPlaces [(acc .lde 8).loc]).full ((acc .lde 8).loc / 8) = !b ∧ (home (tWait .word) b).Inv ∧ (acc .lde 8).loc % 8 = 0 ∧
        (home (tWait .word) b).staleLine ((acc .lde 8).loc / 64) = false ∧ keptPorts (acc .sts 8) = []) ∧
      (({ home (tWait .word) false with poison := [(at2 / 64, 1#1)] } : State).touchPlaces [(acc .lde 8).loc]).poisoned (acc .lde 8).loc = true) ∧
    ((one tL).thread? (acc .load 8).uid = some tL ∧ (one tL).homeServes (acc .load 8).loc 0 = true ∧ (one tL).owned ((acc .load 8).loc / 64) = false ∧
      (one tL).poisoned (acc .load 8).loc = false ∧ (acc .load 8).fmt < 2 ∧ (acc .load 8).expd ≠ 1#64 ∧ ({ acc .load 8 with expd := 1#64 } : Access).expd = 1#64 ∧ tL.settOn = none) ∧
    ((journaled (je 0xF00000000000 .pst) tL).Inv ∧ ((journaled (je 0xF00000000000 .pst) tL).core 0).journal = [(0, je 0xF00000000000 .pst)] ∧
      (∀ q ∈ (journaled (je 0xF00000000000 .pst) tL).cores, ∀ x ∈ q.2.journal, x.2.uid = 1 → x.2.spent = false → (je 0xF00000000000 .pst).order ≤ x.2.order) ∧
      (journaled (je 0xF00000000000 .pst) tL).waiters = [] ∧
      (journaled (je 0xF00000000000 .pst) tL).coreSpot 0 0 0xF00000000000 .wr = .near (localLoc 0 0) ∧
      (journaled (je 0xE00000010000 .pst) tL).coreSpot 0 0 0xE00000010000 .wr = .bad 0x07 ∧
      (journaled (je 0xF00000000000 .pst) tL).heldBack 1 [localLoc 0 0 / 64] = false ∧ (journaled (je 0xF00000000000 .pst) tL).poisoned (localLoc 0 0) = false ∧
      (∀ t, (journaled (je 0xF00000000000 .pst) tL).thread? 1 = some t → t.attr.isSealed = false) ∧ localLoc 0 0 % 8 = 0) ∧
    (Tab.rising ((journaled (je 0x20000 .pstf) tL).core 0).journal = true ∧ Tab.find? ((journaled (je 0x20000 .pstf) tL).core 0).journal 0 = some (je 0x20000 .pstf) ∧
      (journaled (je 0x20000 .pstf) tL).thread? 1 = some tL ∧ tL.wait ≠ .journal) := by
  refine ⟨⟨rfl, by decide +kernel, ?_, by decide +kernel⟩, ⟨rfl, by decide +kernel, by decide +kernel, by decide +kernel, by decide, by decide, rfl, rfl⟩,
    ⟨⟨⟨rfl, rfl, rfl, rfl⟩, (fun _ h => nomatch h)⟩, rfl, by decide +kernel, rfl, rfl, by decide +kernel, by decide +kernel, by decide +kernel, ?_, by decide⟩, rfl, rfl, rfl, nofun⟩
  · intro b
    cases b <;> exact ⟨by decide +kernel, by decide +kernel, rfl, by decide +kernel, by decide +kernel, by decide +kernel,
      ⟨⟨rfl, by decide +kernel, rfl, rfl⟩, (fun _ h => nomatch h)⟩, by decide +kernel, by decide +kernel, rfl⟩
  · intro t h
    rw [the_only (o := (journaled (je 0xF00000000000 .pst) tL).thread? 1) (c := tL) rfl t h]; rfl
def ctxIn (p : CtxPage) (t : Thread) : State := { one t with ctxs := [(0, p)] }
/-- A context whose watchdog has expired. -/
def dog (first : Bool) (w : Wait) : State := ctxIn { ctx0 with count := 2000000, expired := !first } { tL with wait := w }
theorem witness_HostRegisters :
    (((one tL).ctxPage 1).state = 0 ∧ (one tL).device.boot = 0x80#8 ∧ ((one tL).ctxPage 0).state = 1 ∧ ((one tL).ctxPage 0).aborted = false ∧ (one tL).pageOnly = false ∧ State.reset.device.boot ≠ 0x80#8 ∧
      ((ctxIn { ctx0 with state := 2 } tL).ctxPage 0).state = 2 ∧ (one tL).Inv ∧ Tab.rising (one tL).ctxs = true ∧
      (one tL).page? ((one tL).ctxPage 0).num = some (0, (one tL).ctxPage 0) ∧ (((one tL).ctxPage 0).fwhead - ((one tL).ctxPage 0).fwtail).toNat ≠ ((one tL).ctxPage 0).fwsize.toNat) ∧
    (let hdr : Word := 0x10000#64
     [0x10000#64, 0#64, 0#64, 0#64, 0#64, 0#64, 0#64, 0#64].length = 8 ∧ hdr.toNat = 0 + 1 * 2 ^ 16 ∧ (one tL).sendRefused 0 0 = false ∧ (one tL).sendRefused 0 1 = true ∧
      LegalTarget (0x10000#64 : Word).toNat ∧ ((ctxIn { ctx0 with msghdr := hdr } tL).ctxPage 0).msghdr = hdr) ∧
    (255 < 256 ∧ (0x48 : Nat) % 8 = 0 ∧ (0x4C : Nat) % 8 ≠ 0 ∧ ({ one tL with device := { Device.reset with boot := 4#8 } } : State).device.boot = 4#8 ∧
      ({ one tL with device := { Device.reset with boot := 0x82#8 } } : State).pageOnly = true ∧ ({ one tL with device := { Device.reset with boot := 4#8, locked := true } } : State).device.locked = true) ∧
    (({ one { tC with chunk := { tC.chunk with pages := [2] } } with ctxs := [(0, { ctx0 with tva := 0x20000#64, tlen := 1#64 })] } : State).Inv ∧
      tC.prev = none ∧ tC.wait = .running ∧ [2].any ({ ctx0 with tva := 0x20000#64, tlen := 1#64 } : CtxPage).covers = true ∧
      (one tL).pending.any ctx0.inFlight = false ∧ (one tL).cores.any (fun c => c.2.cmds.any (fun k => decide (k.ctx = 0) && k.result.isSome)) = false ∧
      (one tL).setts.any (fun n => n.2.rows.any (fun r => decide (r.ctx = 0)) || n.2.queue.any (fun c => decide (c.ctx = 0) && !c.loadOnly && ctx0.covers (c.statusVa / 2 ^ 16))) = false ∧
      [Event.atomicApply (acc (.atomic .add) 8)].any ({ ctx0 with tva := 0x20000#64, tlen := 1#64 } : CtxPage).inFlight = true) ∧
    (∀ b, (dog b .hsync).pageOnly = false ∧ (dog b .hsync).Inv ∧ (∃ p, (dog b .hsync).page? 0 = some (0, p) ∧ (dog b .hsync).ctxPage 0 = p ∧ p.wdog.toNat ≤ p.count ∧ p.saving = none ∧ p.aborted = false ∧ p.expired = !b) ∧
      (dog b .hsync).dogStill 0 = false ∧ (dog b .hsync).thread? 1 = some { tL with wait := .hsync }) ∧
    ((one tL).page? 0 = some (0, ctx0) ∧ ctx0.count < ctx0.wdog.toNat) :=
  ⟨⟨rfl, rfl, rfl, rfl, rfl, nofun, rfl, ⟨⟨rfl, rfl, rfl, rfl⟩, (fun _ h => nomatch h)⟩, rfl, rfl, by decide⟩,
    ⟨rfl, by decide, by decide +kernel, by decide +kernel, by unfold LegalTarget; decide, rfl⟩, ⟨by decide, by decide, by decide, rfl, rfl, rfl⟩,
    ⟨⟨⟨rfl, rfl, rfl, rfl⟩, (fun _ h => nomatch h)⟩, rfl, rfl, by decide +kernel, rfl, rfl, rfl, by decide +kernel⟩,
    (fun b => ⟨rfl, ⟨⟨rfl, rfl, rfl, rfl⟩, (fun _ h => nomatch h)⟩, ⟨_, rfl, rfl, by cases b <;> decide, rfl, rfl, rfl⟩, by cases b <;> decide +kernel, rfl⟩), rfl, by decide⟩
/-- A halted thread of a context with a debugger; a device that freezes, with and without a thread in a slot; one with an image. -/
def tHalt : Thread := { tL with halted := true }
def frozenDev (ts : Tab Thread) : State := { dev ts with device := { Device.reset with boot := 0x80#8, fzctl := 1#64 } }
theorem image_inv {s : State} (h : s.Inv) : ({ s with frozen := some s.toDev } : State).Inv :=
  ⟨h.1, fun _ e => Option.some.inj e ▸ h.1⟩
theorem witness_DebugAndFreeze :
    (((ctxIn { ctx0 with dbg := true } tL).ctxPage 0).dbg = true ∧ ((one tL).ctxPage 0).dbg = false ∧ (ctxIn { ctx0 with dbg := true } tL).named 0 0#64 = [1] ∧
      tL.halted = false ∧ tL.wait = .running ∧ (tWait .reply).wait = .reply ∧ (tWait .reply).place = .slot 0 0 ∧
      (ctxIn { ctx0 with dbg := true } tL).debugger 0 = some 0 ∧ (ctxIn { ctx0 with dbg := true } tHalt).Inv ∧
      (ctxIn { ctx0 with dbg := true } tHalt).thread? 1 = some tHalt ∧ tHalt.halted = true ∧ tHalt.attr.ctx = 0 ∧ (27#6).toNat < tHalt.attr.count ∧
      (one tHalt).cores.any (fun c => c.2.cmds.any (fun k => decide (k.uid = 1))) = false ∧ Tab.rising (ctxIn { ctx0 with dbg := true } tL).ctxs = true) ∧
    ((ctxIn { ctx0 with dbg := true } tL).pageOnly = false ∧ (∃ v : Word, (one tL).freezeNeed ≤ v.toNat) ∧ (one tL).device.fzlen.toNat < (one tL).freezeNeed) ∧
    ((one tL).Inv ∧ (one tL).freezing = false ∧ (frozenDev [(1, tL)]).freezing = true ∧ (frozenDev [(1, tL)]).device.fzctl = 1#64 ∧
      (∃ e ∈ (frozenDev [(1, tL)]).cores, faceOf e.1 = 0 ∧ (frozenDev [(1, tL)]).coreStopped e.1 e.2 = false) ∧
      (∀ e ∈ (frozenDev []).cores, (frozenDev []).coreStopped e.1 e.2 = true ∧ e.2.vq = [] ∧ e.2.mq = [] ∧ e.2.cq = []) ∧
      (∀ e ∈ (frozenDev []).handles, e.2.order = []) ∧ (∀ e ∈ (frozenDev []).threads, e.2.place ≠ .transit) ∧
      (∀ c, .tileDelivery c ∉ (frozenDev []).pending) ∧ ({ one tL with device := { (one tL).device with fzctl := 5#64 } } : State).device.fzctl = 5#64) ∧
    (({ one tL with frozen := some (one tL).toDev } : State).Inv ∧ ({ one tL with frozen := some (one tL).toDev } : State).frozen = some (one tL).toDev ∧
      ({ one tL with frozen := some (one tL).toDev } : State).device.boot = 0x80#8 ∧ State.reset.device.boot ≠ 0x80#8 ∧
      (∀ e ∈ (one tL).ctxs, e.2.aborted = false) ∧ (∀ k ∈ (one tL).lostStacks, k ∈ (one tL).toDev.lostStacks)) := by
  have need : 1 ≤ (one tL).freezeNeed ∧ (one tL).freezeNeed < 2 ^ 64 := by
    have h := Nat.mod_lt (Config.imageUnits (one tL).mapped.length (one tL).threads.length) (show 0 < 5784 * 16 + 576 * 16384 + 2 by decide)
    unfold State.freezeNeed
    omega
  refine ⟨⟨rfl, rfl, by decide +kernel, rfl, rfl, rfl, rfl, rfl, ⟨⟨rfl, rfl, rfl, rfl⟩, (fun _ h => nomatch h)⟩, rfl, rfl, rfl, by decide, rfl, rfl⟩,
    ⟨rfl, ⟨-1#64, Nat.le_of_lt_succ need.2⟩, need.1⟩,
    ⟨⟨⟨rfl, rfl, rfl, rfl⟩, (fun _ h => nomatch h)⟩, rfl, rfl, rfl, ⟨(0, core0), List.mem_singleton_self _, rfl, rfl⟩, ?_, (fun e h => (List.not_mem_nil (a := e) h).elim), (fun e h => (List.not_mem_nil (a := e) h).elim), (fun c h => nomatch h), rfl⟩, ?_, rfl, rfl, nofun, by decide +kernel, (fun k h => (List.not_mem_nil (a := k) h).elim)⟩
  · intro e h
    obtain rfl := List.mem_singleton.1 h
    exact ⟨rfl, rfl, rfl, rfl⟩
  · exact image_inv ⟨⟨rfl, rfl, rfl, rfl⟩, (fun _ h => nomatch h)⟩
/-- A handle whose dress lies on stack 11. -/
def h11 : Handle := { h0 [] with dress := ⟨[], [], 1, 0, 0x800#12, none, [], 0#8⟩ }
/-- One with a replica on stack 3. -/
def h11r : Handle := { h11 with dress := { h11.dress with replicas := [3] } }
/-- One interleaved over stacks 11 and 0. -/
def h11p : Handle := { h11 with dress := { h11.dress with onStacks := 0x801#12 } }
def stacked : State := { one tL with handles := [(0, h11), (1, h11r), (2, h0 [])] }
/-- A context page with a debugger that asks for the report of handle 1, or of a number that is no handle. -/
def reporting (n : Word) : State := { stacked with ctxs := [(255, { ctx0 with num := 0, dbg := true, hrepn := n })] }
theorem witness_HostRegisters_reads :
    (∀ n, (reporting n).pageOnly = false ∧ ((reporting n).ctxPage 255).dbg = true) ∧ 255 < 256 ∧ 5 < 6 ∧
    Tab.find? (reporting 3#64).handles (((reporting 3#64).ctxPage 255).num * 2 ^ 23 + ((reporting 3#64).ctxPage 255).hrepn.toNat) = none ∧
    Tab.find? (reporting 1#64).handles (((reporting 1#64).ctxPage 255).num * 2 ^ 23 + ((reporting 1#64).ctxPage 255).hrepn.toNat) = some h11r ∧
    h11r.state = .live ∧ (16383 < 16384 ∧ 15 < 16 ∧ 767 < 768 ∧ 8 < 9 ∧ 0x406048 ≤ 0x40FFF8 ∧ 0x40FFF8 < 0x410000) :=
  ⟨(fun _ => ⟨rfl, rfl⟩), by decide, by decide, by decide +kernel, by decide +kernel, rfl, by decide⟩
/-- A page of another device. -/
def far : TEntry := { pageAt 0 4 with frame := 5 * 2 ^ 40 }
def linked : State := { one tL with tcache := [far] }
theorem witness_Failures :
    ((0x01#8 &&& ~~~(one tL).device.fenced ≠ 0#8 ∧ 0#8 &&& ~~~(one tL).device.fenced = 0#8 ∧ (one tL).Inv ∧ (0x01#8).getLsbD (faceOf 2047) = true ∧ 2047 < 16384) ∧
      (∀ e ∈ (one tL).threads, (one tL).threadOn 0x02#8 e.1 e.2 = false) ∧ localOn 0x02#8 (localLoc 0 0) = false) ∧
    (stacked.lostStacks.contains 11 = false ∧ Tab.rising stacked.handles = true ∧ isHbm (11 * 64 * (Config.linesPerSett * 64)) = true ∧
      settOf (11 * 64 * (Config.linesPerSett * 64)) / 64 = 11 ∧ settOf 0 / 64 ≠ 11 ∧ Tab.find? stacked.handles 0 = some h11 ∧ h11.state ≠ .dead ∧
      (∃ c ∈ h11.dress.copies, 11 ∈ c) ∧ (∀ c ∈ h11.dress.copies, c ≠ [] ∧ ∀ j ∈ c, j = 11 ∨ j ∈ stacked.lostStacks) ∧
      ((∃ c ∈ h11p.dress.copies, 11 ∈ c) ∧ (∃ c ∈ h11p.dress.copies, ∃ j ∈ c, j ≠ 11 ∧ j ∉ stacked.lostStacks) ∧ ∀ c ∈ h11p.dress.copies, ∃ j ∈ c, j = 11 ∨ j ∈ stacked.lostStacks) ∧
      Tab.find? stacked.handles 1 = some h11r ∧ h11r.state = .live ∧ (∃ c ∈ h11r.dress.copies, 11 ∈ c) ∧
      (∃ c ∈ h11r.dress.copies, ∀ j ∈ c, j ≠ 11 ∧ j ∉ stacked.lostStacks) ∧
      Tab.find? stacked.handles 2 = some (h0 []) ∧ ∀ c ∈ (h0 []).dress.copies, 11 ∉ c) ∧
    (linked.lookup 0 0x40000 = some far ∧ far.allows .rd = true ∧ remoteDev (linked.placeIn far 0x40000) = some 5 ∧ linked.Inv ∧
      linked.pending.find? Event.withoutBed = none) ∧ Tab.rising (one tL).cores = true :=
  ⟨⟨⟨by decide, by decide, ⟨⟨rfl, rfl, rfl, rfl⟩, (fun _ h => nomatch h)⟩, by decide +kernel, by decide⟩, by decide +kernel, by decide +kernel⟩,
    ⟨rfl, rfl, by decide, by decide, by decide, rfl, nofun, by decide +kernel, by decide +kernel, by decide +kernel, rfl, rfl, by decide +kernel, by decide +kernel, rfl, by decide +kernel⟩,
    ⟨rfl, rfl, by decide +kernel, ⟨⟨rfl, rfl, rfl, rfl⟩, (fun _ h => nomatch h)⟩, rfl⟩, rfl⟩
/-- Bank limits, activation counts and an isolation entry for context 3 of device 2. -/
def monitored : State := { one tL with bankLimit := [(11, 8)], setts := [(704, { Sett.reset with acts := [(7, 20)] })],
                                       device := { Device.reset with boot := 0x80#8, iso := [(2, 0x10003#64)] } }
theorem witness_MonitorsAndCycles :
    (Tab.find? monitored.bankLimit 11 = some 8 ∧ Tab.rising monitored.setts = true ∧ Tab.rising (monitored.sett 704).acts = true ∧ handleAt (64 * 0) = none ∧
      (Store.get ({ one tL with latent := [(0, 1#1)] } : State).latent 0 = 1#1 ∧ ({ one tL with latent := [(0, 1#1)] } : State).holdsLine 0 = false ∧
        ({ one tL with latent := [(0, 1#1)] } : State).staleLine 0 = false)) ∧
    ((one tL).Inv ∧ (one tL).thread? 1 = some tL ∧ (one tL).page? tL.attr.ctx = some (0, ctx0) ∧ (ctx0.fwhead - ctx0.fwtail).toNat ≠ ctx0.fwsize.toNat ∧
      (one tL).thread? 2 = none ∧ handleAt (64 * 2 ^ 52) = none) ∧
    ((one tL).Inv ∧ cxlPlace 0x11FFFFFFFFF = some (direct 0x8FFFFFFFFF) ∧ (one tL).pageOnly = false ∧ (one tL).staleLine (direct 0x8FFFFFFFFF / 64) = false ∧
      (one tL).busyLine (direct 0x8FFFFFFFFF / 64) = false ∧ (∃ r ∈ ({ one tL with reserved := [(direct 0x8FFFFFFFFF / 64, 2)] } : State).reserved, r.1 = direct 0x8FFFFFFFFF / 64)) ∧
    (badSend 0#64 ⟨0, 0#64, [0x10000#64]⟩ = false ∧ monitored.sendRefused 0 (targetCore 0#64) = false ∧ badSend 0#64 ⟨0, 0#64, [1#64]⟩ = true) ∧
    ((frozenDev []).freezing = true ∧ monitored.freezing = false ∧ monitored.pairedWith 1 3 = none ∧ monitored.pairedWith 2 3 = some 0 ∧
      ({ acc .pst 8 with loc := 0x8FFFFFFFF8, va := 0 } : Access).va.testBit 63 = false ∧ (0x8FFFFFFFF8 : Nat) < 0x9000000000 ∧ (0x8FFFFFFFF8 : Nat) % 8 = 0 ∧
      (∀ ws, (acc .pst 8).kind ≠ .message ws) ∧ (acc .pst 8).kind ≠ .rfill ∧
      monitored.busyLine (interleaved 0x8FFFFFFFF8 / 64) = false ∧ monitored.Inv ∧
      monitored.openLine (interleaved 0x8FFFFFFFF8 / 64) = false ∧ monitored.poisoned (interleaved 0x8FFFFFFFF8) = false) ∧
    ((one tL).coreFenced 0 = false ∧ (one tL).inReset = false ∧ (one tL).device.still = false ∧ Tab.wf 0#64 ((one tL).core 0).perf = true ∧ (∀ k, k < 17 → (one tL).readySlot 1 k = none) ∧
      (∀ j, j < 0 → (one tL).readySlot 0 ((((one tL).core 0).last + 1 + j) % 17) = none) ∧ (one tL).readySlot 0 ((((one tL).core 0).last + 1 + 0) % 17) = some 1) :=
  ⟨⟨rfl, rfl, rfl, rfl, rfl, by decide +kernel, by decide +kernel⟩, ⟨⟨⟨rfl, rfl, rfl, rfl⟩, (fun _ h => nomatch h)⟩, rfl, rfl, by decide, rfl, by decide⟩,
    ⟨⟨⟨rfl, rfl, rfl, rfl⟩, (fun _ h => nomatch h)⟩, by decide +kernel, rfl, by decide +kernel, by decide +kernel, _, List.mem_singleton_self _, rfl⟩,
    ⟨by decide +kernel, by decide +kernel, by decide +kernel⟩,
    ⟨rfl, rfl, by decide +kernel, by decide +kernel, by decide, by decide, by decide, nofun, nofun, by decide +kernel, ⟨⟨rfl, rfl, rfl, rfl⟩, (fun _ h => nomatch h)⟩,
      by decide +kernel, by decide +kernel⟩,
    by decide +kernel, rfl, rfl, rfl, by decide +kernel, (fun _ h => absurd h (Nat.not_lt_zero _)), by decide +kernel⟩
/-- A turn of thread 1 at an ADD with a 32-bit literal at 0x10000, and on sett core 5 at the start of its overlay. -/
def coded (on : Bool) : State := { one { tL with place := if on then .sett 5 else .slot 0 0, home := some 0 } with
  turns := [1]
  mem := Store.write [] ((one tL).placeIn (pageAt 0 1) 0x10000) 8 0xFFFFFFFE02327C00
  setts := [(5, { Sett.reset with ovl := some 0x10000, ovlFrom := (one tL).imageLines 0 0x10000, code := Store.write [] 0 8 0xFFFFFFFE02327C00 })] }
theorem witness_StepRunsDecodedInstruction :
    let i : Instr := .add 3#5 4#5 (.lit32 0xFFFFFFFE#32) 0#5
    let es : List (TEntry × Nat) := (List.range 2).map (fun k => (pageAt 0 1, (one tL).placeIn (pageAt 0 1) (0x10000 + 4 * k)))
    i.wf = true ∧ encode i = [0x02327C00#32, 0xFFFFFFFE#32] ∧
    ((coded false).bedLost = false ∧ (coded false).turns = 1 :: [] ∧ (coded false).canIssue 1 = true ∧ es.length = 2 ∧
      (∀ k, k < 2 → ∃ e loc, es[k]? = some (e, loc) ∧ 0x10000 + 4 * k < 14 * 2 ^ 44 ∧
        let r := (es.take k).foldl (fun s p => (s.reachLine tL p.2).useEntry p.1 false) (coded false)
        r.globalSpot 0 (0x10000 + 4 * k) .ex = .global e loc ∧ (r.reachLine tL loc).poisoned loc = false ∧ Store.read (r.reachLine tL loc).mem loc 4 = ([0x02327C00#32, 0xFFFFFFFE#32].getD k 0#32).toNat)) ∧
    ((coded true).canIssue 1 = true ∧ (∃ t, (coded true).thread? 1 = some t ∧ t.settOn = some 5 ∧ t.pc = 0x10000 ∧ t.haltReq = false ∧ t.preempt = false ∧ t.async = [] ∧
        (coded true).overlayFor 5 t = some 0x10000) ∧
      ∀ k, k < 2 → Store.read ((coded true).sett 5).code (0x10000 - 0x10000 + 4 * k) 4 = ([0x02327C00#32, 0xFFFFFFFE#32].getD k 0#32).toNat) ∧
    ((one tL).turns = [] ∧ (one tL).pending = [] ∧ (one tL).device.still = false ∧ (one tL).bedLost = false ∧ (one tL).inReset = false ∧
      (∀ x ∈ (one tL).timers, (one tL).cycle < x.1) ∧
      ∃ x, ({ one tL with timers := [(0, .coreCycle 0)] } : State).timers.find? (fun x => decide (x.1 ≤ (one tL).cycle)) = some x) ∧
    ((one tL).ending = none ∧ (one tL).scan = 0 ∧ ((one tL).core 0).atWork = false ∧ ((busy [ran (.vget 1#6) [] none] [] [] me0).core 0).atWork = true ∧
      (one tL).usesBank tL (.ldD 3#5 4#5 0#10 0#5) = true ∧ (one tL).usesBank tL i = false ∧
      (∀ s : State, s = { one tL with ending := some 0, pending := [.slotFill 0] } → s.ending = some 0 ∧ .slotFill 0 ∈ s.pending) ∧
      ([Event.messageHandlerStart 0].find? (fun e => decide (e.closes = some 0)) = some (.messageHandlerStart 0) ∧ .slotFill 0 ∉ [Event.messageHandlerStart 0])) := by
  refine ⟨rfl, rfl, ⟨rfl, rfl, by decide +kernel, rfl, ?_⟩, ⟨by decide +kernel, ⟨_, rfl, rfl, rfl, rfl, rfl, rfl, by decide +kernel⟩, by decide +kernel⟩, ⟨rfl, rfl, rfl, rfl, rfl,
    (fun x h => (List.not_mem_nil (a := x) h).elim), _, rfl⟩,
    rfl, rfl, rfl, rfl, by decide +kernel, by decide +kernel, (fun s h => h ▸ ⟨rfl, List.mem_singleton_self _⟩), by decide, by decide⟩
  intro k hk
  interval_cases k <;> exact ⟨_, _, rfl, by decide, rfl, by decide +kernel, by decide +kernel⟩
theorem witness_WordsAndInstructions :
    Instr.wf (.ldD 27#5 29#5 0x3FF#10 31#5) = true ∧ decode 0x03C21406#32 0 0 = none ∧
    decode 0xC4198900#32 0xFFFFFFFF#32 0xFFFFFFFF#32 = some (.vfma 3#4 1#4 2#4 0#2 0#5) := ⟨rfl, rfl, rfl⟩
theorem witness_StepKeepsInvariant : State.reset.Inv ∧ ∃ s', step State.reset = .next s' := by
  refine ⟨⟨⟨rfl, rfl, rfl, rfl⟩, nofun⟩, ?_⟩
  exact ⟨_, rfl⟩
/-- g3 = 42; g6 = global 0x20000, g7 = global 0x40000, of device 5; g9 = core 1's window; g10, g11: references to elements of handle 0. -/
def tFar : Thread := thr [(3, 42#64), (6, 0x20000#64), (7, 0x40000#64), (9, 0xE00000010100#64), (10, 0x8000000000000000#64), (11, 0x8000000000000001#64)]
/-- Core 1 serves the context; page 4 is of another device. -/
def farDev : State := { one tFar with
  cores := [(0, core0), (1, { Core.reset 1 with tag := some 0 })], tcache := [pageAt 0 1, pageAt 0 2, far], device := { Device.reset with boot := 0x80#8, iso := [(5, 0x10000#64)] } }
theorem witness_FarAccesses :
    (Inside farDev tFar [3#5, 6#5] 0#5 ∧ Inside farDev tFar [3#5, 7#5] 0#5 ∧ Inside farDev tFar [3#5, 9#5] 0#5 ∧ tFar.Holds [3#5] ∧ tFar.settOn = none ∧
      tFar.solo = false ∧ (∀ m : Bool, ∀ r ∈ [6#5, 7#5, 9#5, 10#5, 11#5], tFar.Base m r (tFar.val r)) ∧
      checkAddr (tFar.val 6#5) ((1#10).toInt * 8) 8 false = .ok 0x20008 ∧ checkAddr (tFar.val 7#5) ((1#10).toInt * 8) 8 false = .ok 0x40008 ∧
      checkAddr (tFar.val 9#5) ((-1#10).toInt * 8) 8 false = .ok 0xE000000100F8 ∧
      (∀ r ∈ [6#5, 7#5, 9#5], sizeFits (fmtOf (tFar.val r)) 8 = true ∧ farDev.TableReady tFar (fmtOf (tFar.val r))) ∧
      (∀ va ∈ [0x20008, 0x40008], ∀ o, farDev.migOwner tFar.attr.ctx tFar.core va = some o → o = tFar.core)) ∧
    (∀ m, farDev.spot tFar 0x20008 .wr m = .global (pageAt 0 2) (farDev.placeIn (pageAt 0 2) 0x20008) ∧
      farDev.spot tFar 0x40008 .rd m = .global far (farDev.placeIn far 0x40008) ∧
      (∀ p, farDev.spot tFar 0xE000000100F8 p m = .remote 1 (localLoc 1 0xF8))) ∧
    remoteDev (farDev.placeIn far 0x40008) = some 5 ∧
    (∀ p ∈ [(0x20008, farDev.placeIn (pageAt 0 2) 0x20008), (0xE000000100F8, localLoc 1 0xF8)], farDev.owned (p.2 / 64) = false ∧
      tFar.Takes (entriesAt (tFar.spell p.1) p.2 (storeValue (farDev.tableOf tFar.core) 0 tFar.fz tFar.sat (tFar.val 3#5)).1 8)) ∧
    farDev.owned (farDev.placeIn far 0x40008 / 64) = false ∧
    (Inside (one tFar) tFar [3#5, 10#5] 0#5 ∧ Inside (one tFar) tFar [3#5, 11#5] 0#5 ∧
      ((one tFar).withThread (tFar.opened (one tFar).co 4)).commitAll (one tFar).cur = (.done, after tFar 4) ∧ (after tFar 4).thread? (after tFar 4).cur = some (tFar.opened 0 4) ∧
      (tFar.val 10#5).getLsbD 63 = true ∧ (tFar.val 11#5).getLsbD 63 = true) := by
  refine ⟨⟨inside_of rfl rfl rfl (.inr (by decide)), inside_of rfl rfl rfl (.inr (by decide)), inside_of rfl rfl rfl (.inr (by decide)), holds_of rfl, rfl, rfl, ?_,
    rfl, rfl, rfl, ?_, ?_⟩, (fun m => by cases m <;> exact ⟨by decide +kernel, by decide +kernel, fun p => by cases p <;> decide +kernel⟩), by decide +kernel, ?_, by decide +kernel,
    inside_of rfl rfl rfl (.inr (by decide)), inside_of rfl rfl rfl (.inr (by decide)), commit_opened _ _ rfl rfl, rfl, by decide, by decide⟩
  · intro m r h
    simp only [List.mem_cons, List.mem_nil_iff, or_false] at h
    rcases h with rfl | rfl | rfl | rfl | rfl <;> exact base_of (by cases m <;> rfl) (holds_of rfl)
  · intro r h
    simp only [List.mem_cons, List.mem_nil_iff, or_false] at h
    rcases h with rfl | rfl | rfl <;> exact ⟨by decide, fun _ _ h => nomatch h⟩
  · exact fun va h => by rcases List.mem_pair.1 h with rfl | rfl <;> exact the_only (by decide +kernel)
  · intro p h
    rcases List.mem_pair.1 h with rfl | rfl <;> exact ⟨by decide +kernel, by unfold Thread.Takes; decide +kernel⟩
/-- Matrix commands at own local 0x2000 of each clause, MSTORE's with the code of F32. -/
def cmdA (op : EngOp) : Cmd := cmd0 op (if op = .mldb then 0x20F00000002000#64 else if op = .mstore 1#1 then 0x10F00000002000#64 else 0xF00000002000#64) 0#64
/-- A list of two rows, 3 and 1, at own local 0x100, and a mask of the same rows at 0x140. -/
def listMem : Store 8 := Store.write (Store.write [] (localLoc 0 0x100) 8 0x100000003) (localLoc 0 0x140) 8 0xA
/-- Copies with a completion word at own local 0x1F8: of 4 bytes, of 2 x 2 elements of 2 bytes, of listed rows of 4 bytes. -/
def cmdK (op : EngOp) (mask : Bool) : Cmd := { cmd0 op 0xF00000003000#64 0xF00000004000#64 with ccfg := { CeCfg.reset with
  caddr := 0xF000000001F8#64, cval := 7#64, geom := if mask then 0x11C01#64 else 0x1C01#64, len := 4#64, shape := 0x0001000100020002#64, sst01 := 0x800000002#64, dst01 := 0x200000004#64
  idx := if mask then 0xF00000000140#64 else 0xF00000000100#64, rows := if mask then 0x400000004#64 else 0x200000004#64, rstr := 16#64 } }
def busyL (c : List Cmd) : State := { busy [] [] c me0 with mem := listMem }
/-- The offsets of the copies' streams: destination, source and length of each piece. -/
def segsK : EngOp → List (Nat × Nat × Nat)
  | .ctcopy => [(0, 0, 2), (4, 2, 2), (2, 8, 2), (6, 10, 2)]
  | .cgather => [(0, 48, 4), (4, 16, 4)]
  | .cscatter => [(48, 0, 4), (16, 4, 4)]
  | _ => [(0, 0, 4)]
theorem witness_MatrixAndCopyResults_tiles :
    (∀ k ∈ [cmdA .mldb, cmdA (.maccLd 0#1), cmdA (.maccAdd 1#1), cmdA (.mstore 1#1)], (busy [] [k] [] me0).Inv ∧ ((busy [] [k] [] me0).core 0).mq = k :: [] ∧
      k.result = none ∧ k.going = false ∧ (busy [] [k] [] me0).engWaits 0 .matrix k = false) ∧
    (∃ xs, ((busy [] [cmdA .mldb] [] me0).touchSource (cmdA .mldb)).tileElems 0 (cmdA .mldb) false (cmdA .mldb).a (cmdA .mldb).mcfg.bstr.toNat
      ((List.range (512 * (cmdA .mldb).mcfg.ks)).map (fun e => (e / 16, e % 16))) = .ok xs) ∧
    (∀ k ∈ [cmdA (.maccLd 0#1), cmdA (.maccAdd 1#1)], ∀ e, e < 256 → ∃ bs, ((busy [] [k] [] me0).touchSource k).engRead 0 k false (addrPlus k.a ((e * 12 : Nat) : Int)) 12 = .ok bs) ∧
    (∀ i, i ≤ (cmdA (.mstore 1#1)).mcfg.wr → ∃ es, ((busy [] [cmdA (.mstore 1#1)] [] me0).touchSource (cmdA (.mstore 1#1))).engWrite 0 (cmdA (.mstore 1#1)) false
      (addrPlus (cmdA (.mstore 1#1)).a ((i * (cmdA (.mstore 1#1)).mcfg.wstr.toNat : Nat) : Int)) (List.replicate 64 0#8) = .ok es) := by
  refine ⟨?_, ok_of (by decide +kernel), ?_, ?_⟩
  · intro k h
    simp only [List.mem_cons, List.mem_nil_iff, or_false] at h
    rcases h with rfl | rfl | rfl | rfl <;> exact ⟨busy_inv _ _ _ _, rfl, rfl, rfl, by decide +kernel⟩
  · intro k h e he
    refine ok_of ?_
    rcases List.mem_pair.1 h with rfl | rfl <;> revert e <;> decide +kernel
  · intro i hi
    refine ok_of ?_
    revert i
    decide +kernel
theorem witness_MatrixAndCopyResults_copies :
    ∀ k ∈ [cmdK .ccopy false, cmdK .cfill false, cmdK .ccopyF false, cmdK .ctcopy false, cmdK .cgather false, cmdK .cgather true, cmdK .cscatter false, cmdK .cscatter true],
    (busyL [k]).Inv ∧ ((busyL [k]).core 0).cq = k :: [] ∧ k.result = none ∧ (busyL [k]).engWaits 0 .copy k = false ∧
    (∃ bs, ((busyL [k]).touchSource k).engRead 0 k false (k.ccfg.idx.toNat % 2 ^ 48) k.ccfg.listBytes = .ok bs) ∧
    (k.op = .cgather → ∀ g ∈ segsK k.op, ((busyL [k]).touchSource k).spanFault 0 k.ctx k.b g.2.1 (g.2.1 + g.2.2) .rd = none) ∧
    (k.op = .cscatter → ∀ g ∈ segsK k.op, ((busyL [k]).touchSource k).spanFault 0 k.ctx k.a g.1 (g.1 + g.2.2) .wr = none) ∧
    (∀ x ∈ (segsK k.op).flatMap (fun g => (List.range g.2.2).map (fun (j : Nat) => (addrPlus k.a (g.1 + j), addrPlus k.b (g.2.1 + j)))),
      (match ((busyL [k]).touchSource k).engPlace 0 k false x.1 .wr with | .ok l => decide (l = localLoc 0 (x.1 % 2 ^ 16)) | .error _ => false) = true ∧
      (match ((busyL [k]).touchSource k).engPlace 0 k false x.2 .rd with | .ok l => decide (l = localLoc 0 (x.2 % 2 ^ 16)) && !((busyL [k]).touchSource k).poisoned l | .error _ => false) = true) ∧
    k.ccfg.caddr ≠ 0#64 ∧ (match ((busyL [k]).touchSource k).engPlace 0 k false (k.ccfg.caddr.toNat % 2 ^ 48) .wr with
      | .ok l => !((busyL [k]).touchSource k).poisoned l | .error _ => false) = true := by
  intro k h
  simp only [List.mem_cons, List.mem_nil_iff, or_false] at h
  rcases h with rfl | rfl | rfl | rfl | rfl | rfl | rfl | rfl <;>
    exact ⟨⟨⟨by decide +kernel, rfl, rfl, rfl⟩, (fun _ h => nomatch h)⟩, rfl, rfl, by decide +kernel, ok_of (by decide +kernel), by decide +kernel, by decide +kernel, by decide +kernel, by decide, by decide +kernel⟩
/-- Settings of a sampler of 4 columns, at most 16 samples, and of a predictor of 5 neurons, 16 inputs and 3 outputs. -/
def cfgS : MeCfg := { MeCfg.reset 0 with sk := 4#64, slim := 0x100002#64, pgeom := 0x210100005#64, ptheta := 0x3F800000#64, pdelta := 0x3F000000#64 }
/-- A sampling or prospecting command: operands of BF16 in own local memory, SEED's and AREAD's numbers. -/
def cmdS (op : EngOp) (b : Word) : Cmd := { cmd0 op 0x20F00000002000#64 b with mcfg := cfgS }
/-- SNPUT's and SNGET's array, in own local memory without a code. -/
def cmdN (op : EngOp) : Cmd := { cmd0 op 0xF00000002000#64 0#64 with mcfg := cfgS }
/-- An engine with norms (`q0` in the first column), samples, scores, a list of two doubtful neurons and a predictor. -/
def meS (q0 : BitVec 32) (scnt : Word) : MeState := { me0 with
  kt := 4, pshape := some cfgS.shape, qa := [(0, q0), (1, 0x40000000#32), (2, 0x3F800000#32)], qb := [(0, 0x3F800000#32), (1, 0x40800000#32), (3, 0x3F800000#32)]
  sz := 0x40000000#64, scnt := scnt, weight := [(0, 0x3F800000#32), (1, 0x40000000#32)], prob := [(0, 0x80000000#32), (1, 0xFFFFFFFF#32), (2, 0xFFFFFFFF#32), (3, 0xFFFFFFFF#32)]
  als := [(0, 1#12), (1, 1#12)], score := [(0, 0x40000000#32), (1, 0xBF800000#32), (2, 0x3F000000#32), (4, 0x3E800000#32)], pcnt := 0x100020001#64
  doubt := [(2, 0x3F000000#32), (4, 0x3E800000#32)], px := 0x20F00000003000#64, acc := [(0, 0x1000000000000000000#96), (257, 0x2000000000000000000#96)] }
/-- Own local memory from 0x2000 and 0x3000 on holds small BF16 numbers. -/
def memS : Store 8 := [(localLoc 0 0x2000, 0x80#8), (localLoc 0 0x2001, 0x3F#8), (localLoc 0 0x2040, 0x80#8), (localLoc 0 0x2041, 0x3F#8), (localLoc 0 0x3000, 0x80#8), (localLoc 0 0x3001, 0x3F#8)]
def busyS (k : Cmd) (me : MeState) : State := { busy [] [k] [] me with mem := memS }
theorem busyS_inv (k : Cmd) (me : MeState) : (busyS k me).Inv := ⟨⟨(by decide +kernel : Memory.wf memS), rfl, rfl, rfl⟩, (fun _ h => nomatch h)⟩
theorem witness_SamplingResults_commands :
    ∀ k ∈ [cmdS .snormClr 0#64, cmdS .snormA 7#64, cmdS .snormB 7#64, cmdN .sngetA, cmdN .sngetB, cmdN .snputA, cmdN .snputB, cmdS .salias 0#64, cmdS .sseed 0#64,
      cmdS (.svar 1#1) 0#64, cmdS .pload 0x20F00000003000#64, cmdS .pscore 0#64, cmdN .psel, cmdS .aread 1#64, cmdS .aread 2#64],
    (busyS k (meS 0#32 0#64)).Inv ∧ ((busyS k (meS 0#32 0#64)).core 0).mq = k :: [] ∧ k.result = none ∧ k.going = false ∧ (busyS k (meS 0#32 0#64)).engWaits 0 .matrix k = false := by
  intro k h
  simp only [List.mem_cons, List.mem_nil_iff, or_false] at h
  rcases h with rfl | rfl | rfl | rfl | rfl | rfl | rfl | rfl | rfl | rfl | rfl | rfl | rfl | rfl | rfl <;> exact ⟨busyS_inv _ _, rfl, rfl, rfl, by decide +kernel⟩
/-- The state in which the head command's lines are in their caches. -/
def usedS (k : Cmd) : State := (busyS k (meS 0#32 0#64)).touchSource k
theorem witness_SamplingResults_operands :
    (∀ j, j < 32 → (∃ xs, (usedS (cmdS .snormA 7#64)).tileElems 0 (cmdS .snormA 7#64) false (cmdS .snormA 7#64).a 64 ((List.range 16).map (fun i => (i, j))) = .ok xs) ∧
      ∃ xs, (usedS (cmdS .snormB 7#64)).tileElems 0 (cmdS .snormB 7#64) false (cmdS .snormB 7#64).a 32 ((List.range 16).map (fun i => (j, i))) = .ok xs) ∧
    (∀ k ∈ [cmdN .sngetA, cmdN .sngetB, cmdN .psel], ∀ j, j < 16 → (usedS k).engPlace 0 k false (0xF00000002000 + j) .wr = .ok (localLoc 0 (0x2000 + j))) ∧
    (∀ k ∈ [cmdN .snputA, cmdN .snputB], ∀ i, i < 4 → ∃ bs, (usedS k).engRead 0 k false (addrPlus k.a ((i * 4 : Nat) : Int)) 4 = .ok bs) ∧
    (cfgS.neurons = 5 ∧ cfgS.rank = 8 ∧ cfgS.din = 16 ∧ cfgS.outs = 3 ∧ cfgS.ks = 1 ∧ (meS 0#32 0#64).pshape = some cfgS.shape) ∧
    (∀ i, i < 128 → (∃ x, (usedS (cmdS .pload 0x20F00000003000#64)).tileElem 0 (cmdS .pload 0x20F00000003000#64) false 0x20F00000002000#64 0 0 i = .ok x) ∧
      ∃ x, (usedS (cmdS .pload 0x20F00000003000#64)).tileElem 0 (cmdS .pload 0x20F00000003000#64) false 0x20F00000003000#64 0 0 i = .ok x) ∧
    (∀ i, i < 16 → ∃ x, (usedS (cmdS .pscore 0#64)).tileElem 0 (cmdS .pscore 0#64) false 0x20F00000002000#64 0 0 i = .ok x) ∧
    -- SALIAS: a bad entry, a sum that is infinite, no weight, and a table
    (badNorm (value F32 (0x7F800000#32).toNat) = true ∧ badNorm (value F32 (0x7F7FFFFF#32).toNat) = false ∧ badNorm (.zero false) = false) ∧
    (Tab.wf 0#32 (meS 0#32 0#64).weight = true ∧ Tab.wf 0#32 (meS 0#32 0#64).prob = true ∧ Tab.wf 0#12 (meS 0#32 0#64).als = true) := by
  refine ⟨(fun j hj => ⟨ok_of ?_, ok_of ?_⟩), ?_, ?_, by decide, (fun i hi => ⟨ok_of ?_, ok_of ?_⟩), (fun i hi => ok_of ?_), by decide +kernel, by decide +kernel⟩
  · revert j; decide +kernel
  · revert j; decide +kernel
  · intro k h j hj
    refine ok_is ?_
    simp only [List.mem_cons, List.mem_nil_iff, or_false] at h
    rcases h with rfl | rfl | rfl <;> revert j <;> decide +kernel
  · intro k h i hi
    refine ok_of ?_
    rcases List.mem_pair.1 h with rfl | rfl <;> revert i <;> decide +kernel
  · revert i; decide +kernel
  · revert i; decide +kernel
  · revert i; decide +kernel
/-- ASSAY at a position; SRUN. -/
def meP (apos : Word) : MeState := { meS 0x40000000#32 2#64 with apos := apos }
def cmdP (op : EngOp) : Cmd := cmdS op 0x20F00000003000#64
/-- The state in which the head command, its input's lines known, has begun. -/
def inputS (op : EngOp) (me : MeState) : State :=
  let own := (busyS (cmdP op) me).withInput 0 (cmdP op)
  ((busyS (cmdP op) me).modHead 0 .matrix (fun _ => own)).touchSource own
/-- A part's end. -/
def ended (x : Except EngStop (MatRun × PartEnd)) : Option PartEnd := match x with | .ok (_, e) => some e | .error _ => none
theorem witness_SamplingResults_parts :
    (∀ me ∈ [meS 0#32 16#64, { meS 0#32 0#64 with sz := 0#64 }], ((busyS (cmdP (.srun 1#1)) me).core 0).mq = cmdP (.srun 1#1) :: [] ∧ (cmdP (.srun 1#1)).result = none ∧
      (busyS (cmdP (.srun 1#1)) me).engWaits 0 .matrix (cmdP (.srun 1#1)) = false ∧
      ended (((busyS (cmdP (.srun 1#1)) me).touchSource (cmdP (.srun 1#1))).srunPart 0 (cmdP (.srun 1#1)) false 1#1 me) = some .done) ∧
    (∀ p ∈ [(0x10000#64, PartEnd.done), (2#64, .done), (0#64, .more)],
      (let own := (busyS (cmdP (.assay 0#1)) (meP p.1)).withInput 0 (cmdP (.assay 0#1))
       ((busyS (cmdP (.assay 0#1)) (meP p.1)).modHead 0 .matrix (fun _ => own)).engWaits 0 .matrix own = false ∧
         ended ((inputS (.assay 0#1) (meP p.1)).assayPart 0 own false 0#1 (meP p.1)) = some p.2)) ∧
    ((busyS (cmdP (.srun 1#1)) (meS 0#32 0#64)).thread? (cmdP (.srun 1#1)).uid = some tE ∧ tE.preempt = false ∧ tE.haltReq = false ∧ tE.halted = false) ∧
    ((meS 0#32 0#64).kt = 4 ∧ cfgS.sk.toNat = 4 ∧ (wordF32 (0#64)).isZero = true ∧ (wordF32 (meS 0#32 0#64).sz).isZero = false) ∧
    (∀ k, k < 4 → (∃ xs, (usedS (cmdP (.srun 1#1))).tileElems 0 (cmdP (.srun 1#1)) false 0x20F00000002000#64 64 ((List.range 16).map (fun i => (i, k))) = .ok xs) ∧
      ∃ ys, (usedS (cmdP (.srun 1#1))).tileElems 0 (cmdP (.srun 1#1)) false 0x20F00000003000#64 32 ((List.range 16).map (fun j => (k, j))) = .ok ys) ∧
    (Tab.wf 0#96 (meP 0#64).acc = true ∧ (meS 0#32 0#64).column (mix (meS 0#32 0#64).seed 0) < 4 ∧ cfgS.outs ≤ 256) ∧
    (∀ i, i < 16 → (∃ x, (inputS (.assay 0#1) (meP 0#64)).tileElem 0 (cmdP (.assay 0#1)) false 0x20F00000003000#64 0 0 i = .ok x) ∧
      ∃ x, (inputS (.assay 0#1) (meP 0#64)).tileElem 0 (cmdP (.assay 0#1)) false 0x20F00000002000#64 0 0 (2 * 16 + i) = .ok x) ∧
    (∃ ys, (inputS (.assay 0#1) (meP 0#64)).tileElems 0 (cmdP (.assay 0#1)) false 0x20F00000003000#64 0 ((List.range 3).map (fun o => (0, o * 5 + 2))) = .ok ys) := by
  refine ⟨?_, by decide +kernel, ⟨rfl, rfl, rfl, rfl⟩, by decide +kernel, (fun k hk => ⟨ok_of ?_, ok_of ?_⟩), by decide +kernel, (fun i hi => ⟨ok_of ?_, ok_of ?_⟩), ok_of (by decide +kernel)⟩
  · intro me h
    rcases List.mem_pair.1 h with rfl | rfl <;> exact ⟨rfl, rfl, by decide +kernel, by decide +kernel⟩
  all_goals (first | (revert k; decide +kernel) | (revert i; decide +kernel))
/-- A handle of two rows of three F32 elements, each with a value, with its norms. -/
def hM (order : List HEntry) : Handle := { h0 order with
  ndim := 2, dims := [2, 3, 0, 0], codes := (List.range 6).map (fun i => (i, BitVec.ofNat 32 (0x3F800000 + 0x400000 * (i + 1)))), normC := [(0, 0x3F800000#32), (2, 0x40000000#32)], normR := [(1, 0x40400000#32)] }
/-- The operations by reference `a` and `b`: handle 0 and handle 1 of the context, or own local memory with the codes of BF16 and of none. -/
def hop (op : HandleOp) : HandleCmd :=
  let r0 : Word := 0x8000000000000000#64
  let img : Word := 0x20F00000002000#64
  match op with
  | .rowsum | .colsum | .copyout | .grows => { hc op img r0 with index := 2, data := 0xF00000000100#64, reg := 31#5 }
  | .srows => { hc op r0 img with index := 2 ^ 32 + 2, data := 0xF00000000140#64 }
  | .pin => hc op 0#64 r0
  | .own => hc op 0#64 0x8000000000000005#64
  | .addh | .mulh | .transpose => hc op r0 0x8000010000000000#64
  | .axpy => { hc op r0 0x8000010000000000#64 with data := 0x40000000#64 }
  | .elemRead => { hc op r0 0#64 with index := 5, size := 4 }
  | .elemWrite => { hc op r0 0#64 with index := 5, size := 4, data := 0x41000000#64 }
  | .stageA => { hc op r0 img with index := 2 ^ 16, size := 1, data := 128#64 }
  | .stageB => { hc op r0 img with index := 2 ^ 16, size := 1, data := 64#64 }
  | _ => hc op r0 img
/-- The operation at the head of both handles' orders; handle 1 has three rows of two elements. -/
def hEnt (op : HandleOp) : HEntry := ⟨hop op, false, 0#32, some (handleKey 0 1), false, [], [], 3⟩
def hopDev (op : HandleOp) : State := { one tL with
  handles := [(0, hM [hEnt op]), (handleKey 0 1, { hM [hEnt op] with dims := [3, 2, 0, 0] })], mem := listMem }
def hopUsed (op : HandleOp) : State := (hopDev op).touchPlaces ((hopDev op).piecePlaces (hop op) ((hop op).srcPieces (hM [hEnt op])))
def hopsAll : List HandleOp := [.rowsum, .colsum, .addh, .mulh, .axpy, .transpose, .fillImg, .copyin, .copyout, .grows, .srows, .stageA, .stageB, .stageNc, .stageNr,
  .elemRead, .elemWrite, .own, .unpin, .pin]
theorem witness_HandleResults : ∀ op ∈ hopsAll,
    Tab.find? (hopDev op).handles (handleKey 0 0) = some (hM [hEnt op]) ∧ (hM [hEnt op]).order = hEnt op :: [] ∧ (hEnt op).redress = false ∧ (hop op).ctx = 0 ∧
    refNum (hop op).target = 0 ∧ (hop op).op = op ∧ (hop op).held = false ∧
    (∃ o, (hEnt op).other = some (handleKey 0 1) ∧ Tab.find? (hopDev op).handles (handleKey 0 1) = some o ∧ o.order = hEnt op :: [] ∧
      (hopUsed op).poisonedFor (hop op) o (handleKey 0 1) = false) ∧
    (hopUsed op).poisonedFor (hop op) (hM [hEnt op]) (handleKey 0 0) = false ∧ Tab.wf 0#32 (hM [hEnt op]).codes = true ∧
    (hopDev op).building (hop op).core (fmtOf (hop op).a) = false ∧ (hopDev op).building (hop op).core (fmtOf (hop op).b) = false ∧
    (hM [hEnt op]).count = 6 ∧ (hM [hEnt op]).rows = 2 ∧ (hM [hEnt op]).cols = 3 ∧ (hopDev op).keeps (hM [hEnt op]) 5 = true ∧ scalarOf 0x40000000#64 ≠ none := by
  intro op h
  simp only [hopsAll, List.mem_cons, List.mem_nil_iff, or_false] at h
  rcases h with rfl | rfl | rfl | rfl | rfl | rfl | rfl | rfl | rfl | rfl | rfl | rfl | rfl | rfl | rfl | rfl | rfl | rfl | rfl | rfl <;>
    exact ⟨rfl, rfl, rfl, rfl, by decide +kernel, rfl, rfl, ⟨_, rfl, rfl, rfl, by decide +kernel⟩, by decide +kernel, rfl, by decide +kernel, by decide +kernel, by decide, by decide, by decide, by decide +kernel, by decide +kernel⟩
theorem witness_HandleResults_images :
    (∀ op ∈ [HandleOp.fillImg, .copyin, .srows], ∃ bs, (hopUsed op).engRead (hop op).core (hop op).reader false 0xF00000002000 24 = .ok bs) ∧
    (∀ op ∈ [HandleOp.grows, .srows], ∃ lb, (hopUsed op).engRead (hop op).core (hop op).reader false ((hop op).data.toNat % 2 ^ 48) (hop op).listBytes = .ok lb) ∧
    (∀ op ∈ [HandleOp.rowsum, .colsum, .copyout, .grows, .stageNc, .stageNr, .stageB], ∀ i, i < 24 →
      (∀ p ∈ [Perm.wr, .rd], (match (hopUsed op).engPlace (hop op).core (hop op).reader false (0xF00000002000 + i) p with | .ok l => decide (l = localLoc 0 (0x2000 + i)) | .error _ => false) = true) ∧
      (hopUsed op).poisoned (localLoc 0 (0x2000 + i)) = false ∧ (hopUsed op).staleLine (localLoc 0 (0x2000 + i) / 64) = false) ∧
    (∀ op ∈ [HandleOp.rowsum, .colsum, .copyout, .grows, .stageNc, .stageNr], (hopUsed op).engHeld { (hop op).reader with mark := 3 } [localLoc 0 0x2000 / 64] = false) ∧
    (∀ op ∈ [HandleOp.stageA, .stageB], (hopUsed op).engHeld { (hop op).reader with mark := 3 } ((List.range 32).map (fun k => localLoc 0 (0x2000 + 64 * k) / 64)) = false ∧
      ∀ k, k < 32 → ∀ p ∈ [Perm.wr, .rd], (match (hopUsed op).engPlace (hop op).core (hop op).reader false (0xF00000002000 + 64 * k) p with | .ok l => decide (l = localLoc 0 (0x2000 + 64 * k)) | .error _ => false) = true) ∧
    -- HPIN of a handle that is pinned, above its quota, and within it
    ((hM []).pin = false ∧ (∃ p, (hopDev .pin).page? 0 = some (0, p) ∧ p.rquota.toNat < (hopDev .pin).pinned 0 + (hM []).charge / 64) ∧
      ({ ctx0 with rquota := 8#64 } : CtxPage).rquota.toNat ≥ (hopDev .pin).pinned 0 + (hM []).charge / 64) := by
  refine ⟨?_, ?_, ?_, ?_, ?_, rfl, ⟨_, rfl, by decide +kernel⟩, by decide +kernel⟩
  · intro op h
    simp only [List.mem_cons, List.mem_nil_iff, or_false] at h
    rcases h with rfl | rfl | rfl <;> exact ok_of (by decide +kernel)
  · intro op h
    rcases List.mem_pair.1 h with rfl | rfl <;> exact ok_of (by decide +kernel)
  · intro op h i hi
    simp only [List.mem_cons, List.mem_nil_iff, or_false] at h
    rcases h with rfl | rfl | rfl | rfl | rfl | rfl | rfl <;> revert i <;> decide +kernel
  · decide +kernel
  · decide +kernel
/-- A copy that has run, with a completion word in the next line; CCOPY.f has the word of its payload to fill. -/
def ranK (op : EngOp) (word fill : Bool) : Cmd := { ran op byte0 none with result := some { EngResult.nothing with
  writes := byte0, done := 1, fills := if fill then [(one tL).placeIn (pageAt 0 2) 0x20000 / 8] else []
  cword := if word then some (⟨0x20040, (one tL).placeIn (pageAt 0 2) 0x20040, 0#8⟩, 9#64, true) else none } }
theorem witness_EngineCompletions_copies :
    (∀ k : Cmd, k ∈ [ranK .ccopy true false, ranK .ccopyF false true, ranK .cgather true false] → (busy [] [] [k] me0).Inv ∧ ((busy [] [] [k] me0).core 0).cq = k :: [] ∧
      k.void = false ∧ k.boxes = [] ∧ k.op ∈ [EngOp.ccopy, .cfill, .ccopyF, .ctcopy, .cgather, .cscatter] ∧ (busy [] [] [k] me0).waiters = [] ∧
      (∃ r, k.result = some r ∧ r.fault = none ∧ r.scalar = none ∧
        (busy [] [] [k] me0).engHeld k (linesOf (r.writes.map (·.loc)) ++ (r.cword.toList.map (fun w => w.1.loc)).map (· / 64)) = false ∧
        (∀ l ∈ r.writes.map (·.loc) ++ r.cword.toList.map (fun w => w.1.loc), (busy [] [] [k] me0).staleLine (l / 64) = false) ∧
        ∀ l ∈ r.cword.toList.map (fun w => w.1.loc), l % 8 = 0) ∧
      (busy [] [] [k] me0).thread? k.uid = some tE ∧ tE.attr.isSealed = false) ∧
    ((ran .cfill byte0 none).boxes = [] ∧ (ran .cfill byte0 none).going = false ∧ (ran .cfill byte0 none).void = false) := by
  refine ⟨fun k h => ?_, rfl, rfl, rfl⟩
  simp only [List.mem_cons, List.mem_nil_iff, or_false] at h
  rcases h with rfl | rfl | rfl <;> exact ⟨busy_inv _ _ _ _, rfl, rfl, rfl, by decide, rfl, ⟨_, rfl, rfl, rfl, by decide +kernel, by decide +kernel, by decide +kernel⟩, rfl, rfl⟩
/-! ## One step each, with results worked out from the rules by hand -/

def state? (o : Host.Outcome State Fault Refusal) : Option State :=
  match o with
  | .next s => some s
  | _ => none
/-- A register of thread 1 after an instruction. -/
def regOf (o : Host.Outcome State Fault Refusal) (r : Nat) : Option (Word × Bool) :=
  (state? o).bind (fun s => (s.thread? 1).map (fun t => ((t.reg r).val, (t.reg r).full)))
/-- The pc and CAUSE of thread 1 after it. -/
def pcOf (o : Host.Outcome State Fault Refusal) : Option (Nat × Word) :=
  (state? o).bind (fun s => (s.thread? 1).map (fun t => (t.pc, t.cause)))
/-- Eight bytes of memory after it. -/
def wordOf (o : Host.Outcome State Fault Refusal) (loc : Nat) : Option Nat := (state? o).map (fun s => s.readLoc loc 8)

theorem test_add_wraps : regOf (exec (.add 3#5 4#5 (.reg 4#5) 0#5) (one tA)) 3 = some (0xFFFFFFFFFFFFFFEE#64, true) := by decide +kernel
theorem test_div_by_zero : regOf (exec (.divS 3#5 4#5 (.reg 5#5) 0#5) (one tA)) 3 = some (0xFFFFFFFFFFFFFFFF#64, true) := by decide +kernel
theorem test_rem_truncates : regOf (exec (.remS 4#5 4#5 (.reg 3#5) 0#5) (one tA)) 4 = some (0xFFFFFFFFFFFFFFFE#64, true) := by decide +kernel
theorem test_sar_sign : regOf (exec (.sarImm 4#5 4#5 1#10 0#5) (one tA)) 4 = some (0xFFFFFFFFFFFFFFFB#64, true) := by decide +kernel
theorem test_fadd : regOf (exec (.fadd 3#5 3#5 (.reg 3#5) 0#5) (one tF)) 3 = some (0x40000000#64, true) := by decide +kernel
theorem test_fcvt_saturates : regOf (exec (.fcvtF2i 3#5 (.lit32 0x7F800000#32) 0#2 0#5) (one tF)) 3 = some (0x7FFFFFFFFFFFFFFF#64, true) := by decide +kernel
theorem test_adda_escapes : pcOf (exec (.addaImm 1#5 3#5 1#10 0#5) (one tB)) = some (0x20000, 0x8000000000000004#64) := by decide +kernel
theorem test_call_links : regOf (exec (.call (-1#20) 0#5) (one tT)) 1 = some (0x10004#64, true) ∧
    pcOf (exec (.call (-1#20) 0#5) (one tT)) = some (0xFFFC, 0#64) := by decide +kernel
theorem test_loop_ends : pcOf (exec (.loop 3#5 (-2#10) 0#5) (one tT)) = some (0x10004, 0#64) ∧
    pcOf (exec (.loop 5#5 (-2#10) 0#5) (one tT)) = some (0xFFF8, 0#64) := by decide +kernel
theorem test_load_little_endian : regOf (exec (.ldH 3#5 4#5 0#10 0#5) { one tL with mem := [(localLoc 0 0x100, 0x34#8), (localLoc 0 0x101, 0x12#8)] }) 3 =
    some (0x1234#64, true) := by decide +kernel
theorem test_store_buffered : (state? (exec (.stB 3#5 4#5 (-1#10) 0#5) (one tL))).map (fun s => (s.mem, (s.thread? 1).map (fun t => t.chunk.writes))) =
    some ([], some [⟨0xF000000000FF, localLoc 0 0xFF, 42#8⟩]) := by decide +kernel
theorem test_lde_empties : (state? (exec (.lde 3#5 4#5 0#10 0#5) (one tL))).map (fun s => s.full (localLoc 0 0x100 / 8)) = some false := by decide +kernel
theorem test_pst_local : wordOf (exec (.pst 4#5 (.lit64 0x0102030405060708#64) 0#5) (one tL)) (localLoc 0 0x100) = some 0x0102030405060708 := by decide +kernel
theorem test_atomic_apply : wordOf (exec (.atomicApply (acc (.atomic .add) 8)) { one tL with mem := [(at2, 0xFE#8)] }) at2 = some 0x103 := by decide +kernel
theorem test_trap : pcOf (exec (.trap 3#5 0#5) (one tL)) = some (0x20000, 0x8000000000000018#64) := by decide +kernel
theorem test_ill : pcOf (exec .ill (one tL)) = some (0x20000, 0x8000000000000001#64) := by decide +kernel
theorem test_tret : pcOf (exec (.tret 0#5) (one tTr)) = some (0xDFFFFFFFFFFC, 0x18#64) := by decide +kernel
theorem test_double_fault : wordOf (exec (.trap 3#5 0#5) (one tTr)) (hostLoc 0x1000) = some 0x0118000000000000 ∧
    wordOf (exec (.trap 3#5 0#5) (one tTr)) (hostLoc 0x1010) = some 5 := by decide +kernel
theorem test_mfs_slot : regOf (exec (.mfs 6#8 3#5 0#5) (one tL)) 3 = some (0x400#64, true) := by decide +kernel
theorem test_quit : (state? (exec (.quit 0#5) (one tL))).map (fun s => s.thread? 1) = some none := by decide +kernel
theorem test_guard_false : regOf (exec (.add 3#5 4#5 (.reg 4#5) 2#5) (one tA)) 3 = some (7#64, true) := by decide +kernel
theorem test_cfill_start : (state? (exec (.engineCommandStart 0 .copy) (busy [] [] [{ cmdC .cfill with ccfg := { CeCfg.reset with len := 2#64, fill := 0x1122334455667788#64 } }] me0))).map
    (fun s => ((s.core 0).cq.map (fun c => c.result.map (fun r => r.writes.map (·.val))))) = some [some [0x88#8, 0x77#8]] := by decide +kernel
theorem test_cycle_gives_turn : (state? (exec (.coreCycle 0) (one tL))).map (fun s => s.turns) = some [1] := by decide +kernel
theorem test_fetch_mov : (state? (step (State.reset.withFetchWord 32 0x183000A0))).map (fun s => (s.thread? 0).map (fun t => (t.pc, t.reg 3))) =
    some (some (0x10004, ⟨5#64, true, false, false⟩)) := by decide +kernel
theorem test_fetch_nop : (state? (step (State.reset.withFetchWord 32 0xF2000000))).map (fun s => (s.thread? 0).map (fun t => (t.pc, t.wait))) =
    some (some (0x10004, .running)) := by decide +kernel


end Sys2Proof.Test
end

/-!
## Every step keeps the tables in canonical form (O59)

One lemma for each function of the model, callees first, says that it keeps the invariant. Only what a function does to memory, the full/empty
bits, the threads, the cores and the freeze image counts: memory and bits are written by `Store.put` and cut by a filter; threads and cores
are entered by key, erased, cut by a filter, or changed in place. A state that differs from another in its other fields alone has the same
invariant by unfolding, so that such an update needs no rule of its own. Actions have rules for their operations (`Act.Keeps`), and the lemma
about an action follows its `do` block line by line.
-/

namespace Sys2Proof

theorem Tab.rising_put {α : Type} [DecidableEq α] {d : α} {m : Tab α} (h : Tab.rising m = true) (k : Nat) (v : α) :
    Tab.rising (Tab.put d m k v) = true := by
  unfold Tab.put
  split
  · exact Tab.rising_erase h k
  · exact Tab.rising_insert h k v

/-- A change of the values that leaves every key in its place. -/
theorem Tab.rising_map {α β : Type} {m : Tab α} (h : Tab.rising m = true) (f : Nat × α → β) :
    Tab.rising (m.map fun e => (e.1, f e)) = true := by
  induction m with
  | nil => rfl
  | cons e m ih =>
    obtain ⟨hj, hm⟩ := Tab.rising_cons.1 h
    refine Tab.rising_cons.2 ⟨fun x hx => ?_, ih hm⟩
    obtain ⟨y, hy, rfl⟩ := List.mem_map.1 hx
    exact hj y hy

end Sys2Proof

namespace Sys2Proof.Machine

theorem State.Inv.mem {s : State} (h : s.Inv) : Memory.wf s.mem := h.1.1
theorem State.Inv.empty {s : State} (h : s.Inv) : Tab.wf 0#1 s.empty = true := h.1.2.1
theorem State.Inv.threads {s : State} (h : s.Inv) : Tab.rising s.threads = true := h.1.2.2.1
theorem State.Inv.cores {s : State} (h : s.Inv) : Tab.rising s.cores = true := h.1.2.2.2
theorem State.Inv.frozen {s : State} (h : s.Inv) : ∀ d, s.frozen = some d → d.Canon := h.2

theorem State.inv_iff {s : State} : s.Inv ↔
    (Memory.wf s.mem ∧ Tab.wf 0#1 s.empty = true ∧ Tab.rising s.threads = true ∧ Tab.rising s.cores = true) ∧
      ∀ d, s.frozen = some d → d.Canon := Iff.rfl
theorem State.Inv.foldl {α : Type} {f : State → α → State} (hf : ∀ s a, s.Inv → (f s a).Inv) (l : List α) {s : State} (h : s.Inv) :
    (l.foldl f s).Inv := foldl_inv hf l s h

theorem State.Inv.ite {c : Prop} [Decidable c] {s t : State} (hs : s.Inv) (ht : t.Inv) : (if c then s else t).Inv := by
  split
  · exact hs
  · exact ht

/-- What a step that goes on leads to keeps the invariant. -/
def InvAfter : Host.Outcome State Fault Refusal → Prop
  | .next s => s.Inv
  | .fault _ => True
  | .refused _ => True
theorem invAfter_next {s : State} : InvAfter (.next s) ↔ s.Inv := Iff.rfl

/-- An action leaves the invariant as it finds it, whether it runs to its end or ends the step early. -/
structure Act.Keeps {α : Type} (m : Act α) : Prop where
  inv : ∀ s : State, s.Inv → (m.done s).Inv

variable {s : State} {α β : Type}

theorem Act.Keeps.pure (a : α) : (pure a : Act α).Keeps := ⟨fun _ h => h⟩
theorem Act.Keeps.bind {m : Act α} {f : α → Act β} (hm : m.Keeps) (hf : ∀ a, (f a).Keeps) : (m >>= f).Keeps := by
  refine ⟨fun s h => ?_⟩
  have hs := hm.inv s h
  simp only [Act.done, Bind.bind, EStateM.bind] at hs ⊢
  cases e : m s with
  | ok a t => rw [e] at hs; exact (hf a).inv t hs
  | error a t => rw [e] at hs; exact hs
theorem Act.Keeps.get_bind {f : State → Act β} (hf : ∀ s : State, s.Inv → (f s).Keeps) : (get >>= f).Keeps :=
  ⟨fun s h => (hf s h).inv s h⟩
theorem Act.Keeps.set (h : s.Inv) : (set s : Act PUnit).Keeps := ⟨fun _ _ => h⟩
theorem Act.Keeps.modify {f : State → State} (hf : ∀ s : State, s.Inv → (f s).Inv) : (modify f : Act PUnit).Keeps := ⟨hf⟩
theorem Act.Keeps.ite {c : Prop} [Decidable c] {m n : Act α} (hm : m.Keeps) (hn : n.Keeps) : (if c then m else n).Keeps := by
  split
  · exact hm
  · exact hn
/-- An action that runs only under a condition, and what follows it in either case. -/
theorem Act.Keeps.ifDo {c : Prop} [Decidable c] (a : α) {m : Act α} {f : α → Act β} (hm : m.Keeps) (hf : ∀ a, (f a).Keeps) :
    (if c then m >>= f else f a).Keeps := by
  split
  · exact .bind hm hf
  · exact hf a
/-- Two actions that run only under a condition, and what follows them in either case. -/
theorem Act.Keeps.ifDo₂ {c : Prop} [Decidable c] {γ : Type} (a : β) {m : Act α} {n : α → Act β} {f : β → Act γ} (hm : m.Keeps)
    (hn : ∀ a, (n a).Keeps) (hf : ∀ a, (f a).Keeps) : (if c then m >>= fun a => n a >>= f else f a).Keeps := by
  split
  · exact .bind hm fun _ => .bind (hn _) hf
  · exact hf a
/-- An action that runs unless a condition holds, and what follows it in either case. -/
theorem Act.Keeps.unlessDo {c : Prop} [Decidable c] (a : α) {m : Act α} {f : α → Act β} (hm : m.Keeps) (hf : ∀ a, (f a).Keeps) :
    (if c then f a else m >>= f).Keeps := by
  split
  · exact hf a
  · exact .bind hm hf
/-- One of two actions, and what follows both. -/
theorem Act.Keeps.eitherDo {c : Prop} [Decidable c] {m n : Act α} {f : α → Act β} (hm : m.Keeps) (hn : n.Keeps)
    (hf : ∀ a, (f a).Keeps) : (if c then m >>= f else n >>= f).Keeps := by
  split
  · exact .bind hm hf
  · exact .bind hn hf
theorem Act.Keeps.go {m : Act Unit} (hm : m.Keeps) (h : s.Inv) : InvAfter (Act.go m s) := hm.inv s h
theorem Act.Keeps.stop : (Act.stop : Act α).Keeps := ⟨fun _ h => h⟩
theorem Act.Keeps.me : Act.me.Keeps := by
  refine .get_bind fun s _ => ?_
  split
  · exact .pure _
  · exact .stop
theorem Act.keeps_rules : (∀ (α : Type) (a : α), (Pure.pure a : Act α).Keeps) ∧
    (∀ (α β : Type) (m : Act α) (f : α → Act β), m.Keeps → (∀ a, (f a).Keeps) → (m >>= f).Keeps) ∧
    (∀ (β : Type) (f : State → Act β), (∀ s : State, s.Inv → (f s).Keeps) → (MonadState.get >>= f).Keeps) ∧
    (∀ s : State, s.Inv → (MonadStateOf.set s : Act PUnit).Keeps) ∧
    (∀ f : State → State, (∀ s : State, s.Inv → (f s).Inv) → (modify f : Act PUnit).Keeps) ∧
    (∀ α : Type, (Act.stop : Act α).Keeps) ∧ Act.me.Keeps :=
  ⟨fun _ => .pure, fun _ _ _ _ => .bind, fun _ _ => .get_bind, fun _ => .set, fun _ => .modify, fun _ => .stop, .me⟩

/-! ### Parts of the state -/

theorem State.Inv.modCore (h : s.Inv) (c f) : (s.modCore c f).Inv :=
  ⟨⟨h.mem, h.empty, h.threads, Tab.rising_put h.cores _ _⟩, h.frozen⟩
theorem State.Inv.modSett (h : s.Inv) (n f) : (s.modSett n f).Inv := h
theorem State.Inv.modThread (h : s.Inv) (u f) : (s.modThread u f).Inv := by
  unfold State.modThread
  split
  · exact h
  · exact ⟨⟨h.mem, h.empty, Tab.rising_insert h.threads _ _, h.cores⟩, h.frozen⟩
theorem State.Inv.modPage (h : s.Inv) (i f) : (s.modPage i f).Inv := h
theorem State.Inv.modCtx (h : s.Inv) (ctx f) : (s.modCtx ctx f).Inv := by
  unfold State.modCtx
  split
  · exact h
  · exact h.modPage _ _
theorem State.Inv.push (h : s.Inv) (e) : (s.push e).Inv := h
theorem State.Inv.after (h : s.Inv) (n e) : (s.after n e).Inv := h
theorem State.Inv.count (h : s.Inv) (c i n) : (s.count c i n).Inv := h.modCore _ _
theorem State.Inv.restartDog (h : s.Inv) (ctx) : (s.restartDog ctx).Inv := h.modCtx _ _
theorem State.Inv.progress (h : s.Inv) (ctx) : (s.progress ctx).Inv := .ite h (h.restartDog _)
theorem State.Inv.progressOf (h : s.Inv) (was ctx) : (s.progressOf was ctx).Inv := .ite h (h.restartDog _)
theorem State.Inv.choose (h : s.Inv) (n) : (s.choose n).2.Inv := h
theorem State.Inv.freeWord (h : s.Inv) : s.freeWord.2.Inv := h

/-! ### Committed memory -/

theorem State.Inv.commitByte (h : s.Inv) (loc v) : (s.commitByte loc v).Inv :=
  ⟨⟨Store.wf_put h.mem _ _, h.empty, h.threads, h.cores⟩, h.frozen⟩
theorem State.Inv.nearByte (h : s.Inv) (loc v held) : (s.nearByte loc v held).Inv := by
  unfold State.nearByte
  split
  · exact h
  · exact ⟨⟨Store.wf_put h.mem _ _, h.empty, h.threads, h.cores⟩, h.frozen⟩
theorem State.Inv.writeBackByte (h : s.Inv) (loc) : (s.writeBackByte loc).Inv := by
  unfold State.writeBackByte
  split
  · exact h
  · split
    · exact h
    · exact ⟨⟨Store.wf_put h.mem _ _, h.empty, h.threads, h.cores⟩, h.frozen⟩
theorem State.Inv.writeBackLine (h : s.Inv) (line) : (s.writeBackLine line).Inv := by
  grind only [State.writeBackLine, State.Inv.writeBackByte, State.Inv.foldl, State.inv_iff]
theorem State.Inv.meetError (h : s.Inv) (line) : (s.meetError line).Inv := .ite h h
theorem State.Inv.mayEvict (h : s.Inv) (line) : (s.mayEvict line).Inv := by
  grind only [State.mayEvict, State.Inv.writeBackLine, State.Inv.choose]
theorem State.Inv.touchLine (h : s.Inv) (line) : (s.touchLine line).Inv := .ite (h.mayEvict _) ((h.mayEvict _).meetError _)
theorem State.Inv.touchPlaces (h : s.Inv) (locs) : (s.touchPlaces locs).Inv := .foldl (fun _ _ h => .ite (h.touchLine _) h) _ h
theorem State.Inv.setFull (h : s.Inv) (word f) : (s.setFull word f).Inv :=
  ⟨⟨h.mem, Store.wf_put h.empty _ _, h.threads, h.cores⟩, h.frozen⟩
theorem State.Inv.afterCommit (h : s.Inv) (words) : (s.afterCommit words).Inv :=
  State.Inv.foldl (fun _ _ h => h.progress _) _
    ⟨⟨h.mem, h.empty, Tab.rising_map h.threads _, h.cores⟩, h.frozen⟩
theorem State.Inv.commitBytes (h : s.Inv) (ws) : (s.commitBytes ws).Inv := by
  grind only [State.commitBytes, State.Inv.touchPlaces, State.Inv.afterCommit, State.Inv.commitByte, State.Inv.foldl, State.inv_iff]
theorem State.Inv.commitWord (h : s.Inv) (loc n v) : (s.commitWord loc n v).Inv := h.commitBytes _

/-! ### The layout -/

theorem State.Inv.spoil (h : s.Inv) (key hd els) : (s.spoil key hd els).Inv := h
theorem State.Inv.pierce (h : s.Inv) (key hd) : (s.pierce key hd).Inv := h
theorem State.Inv.setHandleByte (h : s.Inv) (key off v) : (s.setHandleByte key off v).Inv := by
  unfold State.setHandleByte
  split
  · exact h
  · exact h

/-! ### Acting on the state -/

theorem Act.Keeps.modMe (f) : (Act.modMe f : Act Unit).Keeps := .modify fun _ h => h.modThread ..
theorem Act.Keeps.park (w) : (Act.park w : Act α).Keeps := by
  refine .bind .me fun _ => .bind (.modMe _) fun _ => .bind (.modify fun _ h => ?_) fun _ => .stop
  split
  · exact h.count ..
  · exact h
theorem Act.Keeps.parked : (Act.parked : Act α).Keeps := by
  refine .bind .me fun _ => .ite .stop (.bind (.modify fun _ h => ?_) fun _ => .stop)
  split
  · exact h.count ..
  · exact h
theorem State.Inv.wakeAll (h : s.Inv) (p) : (s.wakeAll p).Inv :=
  ⟨⟨h.mem, h.empty, Tab.rising_map h.threads _, h.cores⟩, h.frozen⟩

/-! ### The fault window -/

theorem State.Inv.record (h :
    s.Inv) (ctx kind code core slot seq tid fval pc w5 w6) : (s.record ctx kind code core slot seq tid fval pc w5 w6).Inv := by
  unfold State.record
  split
  · exact h
  · exact .ite (h.modPage ..) ((h.commitBytes _).modPage ..)
theorem State.Inv.recordThread (h : s.Inv) (t kind code fval) : (s.recordThread t kind code fval).Inv := h.record ..

/-! ### Who holds lines -/

theorem State.Inv.wakeOwned (h : s.Inv) : s.wakeOwned.Inv := h.wakeAll _
theorem State.Inv.unreserve (h : s.Inv) (u) : (s.unreserve u).Inv := .ite h.wakeOwned h

/-! ### Chunks -/

theorem State.Inv.squash (h : s.Inv) (u t c) : (s.squash u t c).Inv := by
  grind only [State.squash, State.Inv.unreserve, State.Inv.modThread, State.Inv.count, State.inv_iff]
theorem State.Inv.restartSolo (h : s.Inv) (u) : (s.restartSolo u).Inv := (h.modThread ..).unreserve _
theorem State.Inv.applyChunk (h : s.Inv) (u t c) : (s.applyChunk u t c).Inv := by
  grind only [State.applyChunk, State.Inv.unreserve, State.Inv.modThread, State.Inv.progress, State.Inv.count, State.Inv.commitBytes,
    State.inv_iff]
theorem State.Inv.tryCommit (h : s.Inv) (u t c) : (s.tryCommit u t c).2.Inv := by
  grind only [State.tryCommit, State.Inv.restartSolo, State.Inv.applyChunk, State.Inv.squash, State.Inv.choose]
theorem State.Inv.commitAll (h : s.Inv) (u) : (s.commitAll u).2.Inv := by
  unfold State.commitAll
  split
  · exact h
  extract_lets first
  have hfirst : first.2.Inv := by
    unfold first
    split
    · exact h
    · grind only [State.Inv.tryCommit, State.Inv.modThread]
  clear_value first
  grind only [State.Inv.tryCommit, State.Inv.modThread]
theorem Act.Keeps.endChunk : (Act.endChunk : Act Unit).Keeps := by
  have := Act.keeps_rules
  grind only [Act.endChunk, State.Inv.commitAll, Act.Keeps.park]
theorem Act.Keeps.passChunk : (Act.passChunk : Act Unit).Keeps :=
  .get_bind fun _ _ => .bind .me fun _ => .ite (.park _) (.bind (.modMe _) fun _ => .modify fun _ h => h.push _)
theorem Act.Keeps.endIdly : (Act.endIdly : Act Unit).Keeps := .bind .me fun _ => .ite (.pure _) .passChunk
theorem Act.Keeps.openChunk : (Act.openChunk : Act Unit).Keeps :=
  .bind .me fun _ => .ite (.pure _) (.ifDo () (.park _) fun _ => .ifDo () .passChunk fun _ => .get_bind fun _ _ => .modMe _)

/-! ### Group sets -/

theorem State.Inv.putGroup (h : s.Inv) (g) : (s.putGroup g).Inv := h
theorem State.Inv.release (h : s.Inv) (num step u) : (s.release num step u).Inv := by
  unfold State.release
  split
  · exact h
  · split
    · exact .ite (h.after ..) (h.modThread ..)
    · exact h.modThread ..
theorem State.Inv.checkRound (h : s.Inv) (g) : (s.checkRound g).Inv :=
  .ite (.ite (.foldl (fun _ _ h => h.release ..) _ (h.putGroup _)) (.foldl (fun _ _ h => h.release ..) _ (h.putGroup _))) (h.putGroup _)
theorem State.Inv.leaveGroups (h : s.Inv) (u) : (s.leaveGroups u).Inv := .foldl (fun _ _ h => h.checkRound _) _ h
theorem State.Inv.withdraw (h : s.Inv) (u sets) : (s.withdraw u sets).Inv := h

/-! ### The stockpile's SRAM -/

theorem State.Inv.reindex (h : s.Inv) (c) : (s.reindex c).Inv := by
  unfold State.reindex
  dsimp only
  split
  · exact h
  · split
    · exact h
    · exact h.modThread ..

/-! ### Launches and the end of threads -/

theorem State.Inv.dropLaunch (h : s.Inv) (a) : (s.dropLaunch a).Inv := by
  unfold State.dropLaunch
  split
  · exact h
  · exact .ite h h
theorem State.Inv.checkClaim (h : s.Inv) (c) : (s.checkClaim c).Inv := by
  refine .ite h ?_
  split
  · exact h.modCore ..
  · exact .ite h (h.modCore ..)

/-! ### Engine queues -/

theorem State.Inv.wakeQueue (h : s.Inv) (c e) : (s.wakeQueue c e).Inv := by
  unfold State.wakeQueue
  split
  · exact h
  · exact h.modThread ..
theorem State.Inv.leaveQueue (h : s.Inv) (c u e) : (s.leaveQueue c u e).Inv := .ite (.ite ((h.modCore ..).wakeQueue ..) (h.modCore ..)) h
theorem State.Inv.leaveQueues (h : s.Inv) (u) : (s.leaveQueues u).Inv := by
  unfold State.leaveQueues
  split
  · exact h
  · exact .foldl (fun _ _ h => h.leaveQueue ..) _ h
theorem State.Inv.wakePorts (h : s.Inv) (c) : (s.wakePorts c).Inv := h.wakeAll _
theorem State.Inv.forget (h : s.Inv) (u) : (s.forget u).Inv := by
  grind only [State.forget, State.Inv.wakePorts, State.Inv.unreserve, State.Inv.leaveQueues, Tab.rising_erase, State.inv_iff]
theorem State.Inv.pokeHandler (h : s.Inv) (c) : (s.pokeHandler c).Inv := .ite h (.ite (h.push _) (.ite (h.push _) h))
theorem State.Inv.endThread (h : s.Inv) (u) : (s.endThread u).Inv := by
  grind only [State.endThread, State.Inv.leaveGroups, State.Inv.reindex, State.Inv.modSett, State.Inv.checkClaim, State.Inv.dropLaunch,
    State.Inv.forget, State.Inv.push, State.Inv.pokeHandler]
theorem State.Inv.freeHandles (h : s.Inv) (ctx hs) : (s.freeHandles ctx hs).Inv := by
  grind only [State.freeHandles, State.Inv.foldl, State.inv_iff]
theorem State.Inv.discardFoot (h : s.Inv) (u) : (s.discardFoot u).Inv := by
  unfold State.discardFoot
  split
  · exact h
  · rename_i t _
    split
    · have hf := h.freeHandles t.attr.ctx t.allocs
      refine State.Inv.modThread ?_ _ _
      exact ⟨⟨hf.mem, hf.empty, hf.threads, Tab.rising_map hf.cores _⟩, hf.frozen⟩
    · exact h

/-! ### Lost and re-queued threads -/

theorem State.Inv.loseOrRequeue (h : s.Inv) (u) : (s.loseOrRequeue u).Inv := by
  unfold State.loseOrRequeue
  split
  · exact h
  · refine .ite (.endThread ?_ _) (((h.discardFoot _).recordThread ..).endThread _)
    split
    · exact (h.discardFoot _).recordThread ..
    · exact (h.discardFoot _).recordThread ..

/-! ### Traps -/

theorem State.Inv.loseThread (h : s.Inv) (u) : (s.loseThread u).Inv := (h.discardFoot _).endThread _
theorem State.Inv.enterTrap (h : s.Inv) (u cause fval ret) : (s.enterTrap u cause fval ret).Inv := by
  unfold State.enterTrap
  split
  · exact h
  · exact .ite ((h.recordThread ..).loseThread _) (h.modThread ..)
theorem State.Inv.carryBack (h : s.Inv) (u fault) : (s.carryBack u fault).Inv := by
  unfold State.carryBack
  split
  · exact h
  · refine .push (.modThread ?_ ..) _
    split
    · exact h.modSett ..
    · exact h
theorem Act.Keeps.trap (cause fval ret) : (Act.trap cause fval ret : Act α).Keeps := by
  have := Act.keeps_rules
  grind only [Act.trap, Act.Keeps.endChunk, State.Inv.enterTrap, State.Inv.modThread, State.Inv.carryBack, State.Inv.push]
theorem Act.Keeps.fault (cause fval) : (Act.fault cause fval : Act α).Keeps := .bind .me fun _ => .trap ..
theorem Act.Keeps.illegal : (Act.illegal : Act α).Keeps := .get_bind fun _ _ => .fault ..
theorem State.Inv.faultThread (h : s.Inv) (u reg cause fval) : (s.faultThread u reg cause fval).Inv := h.modThread ..
theorem Act.Keeps.leave (len) : (Act.leave len : Act Unit).Keeps := .bind (.modMe _) fun _ => .stop

/-! ### Issue -/

theorem Act.Keeps.retire (ends live len target) : (Act.retire ends live len target : Act Unit).Keeps :=
  .bind (.modMe _) fun _ => .bind .me fun _ => .ite (.ite (.modify fun _ h => h.progress _) (.pure _)) (.ite (.ite (.park _) .passChunk)
    (.pure _))
theorem Act.Keeps.begin (f len fields live) : (Act.begin f len fields live : Act Unit).Keeps :=
  .bind .me fun _ => .bind (.modMe _) fun _ => .ite .illegal (.ite .illegal (.ite (.ite .endChunk .endIdly) .openChunk))
theorem Act.Keeps.issueTo (f len fields g) {body} (hb : body.Keeps) : (Act.issueTo f len fields g body).Keeps := by
  have := Act.keeps_rules
  grind only [Act.issueTo, Act.Keeps.begin, Act.Keeps.retire]
theorem Act.Keeps.issue (f len fields g) {body} (hb : body.Keeps) : (Act.issue f len fields g body).Keeps :=
  .issueTo _ _ _ _ (.bind hb fun _ => .pure _)

/-! ### Handlers waiting at a core -/

theorem State.Inv.endIdle (h : s.Inv) (c) : (s.endIdle c).Inv :=
  ⟨⟨h.mem, h.empty, Tab.rising_map h.threads _, h.cores⟩, h.frozen⟩

/-! ### Ports -/

theorem State.Inv.takeWord (h : s.Inv) (u c p) : (s.takeWord u c p).Inv := .ite (h.modThread ..) ((h.modCore ..).wakeAll _)
theorem State.Inv.popPort (h : s.Inv) (u c slot p) : (s.popPort u c slot p).2.Inv := by
  grind only [State.popPort, State.Inv.wakePorts, State.Inv.endIdle, State.Inv.modCore, State.Inv.takeWord, State.Inv.pokeHandler]
theorem State.Inv.sendWord (h : s.Inv) (d p v ctl side) : (s.sendWord d p v ctl side).Inv := h
theorem State.Inv.pushPort (h : s.Inv) (c p v ctl) : (s.pushPort c p v ctl).Inv := by
  unfold State.pushPort
  split
  · exact h
  · exact h.sendWord ..

/-! ### Reading and writing -/

theorem Act.Keeps.needReg (r) : (Act.needReg r : Act Unit).Keeps := .bind .me fun _ => .ite (.pure _) (.ite (.park _) (.fault ..))
theorem Act.Keeps.needAll (rs) : (Act.needAll rs).Keeps := by
  have := Act.keeps_rules
  induction rs <;> grind only [Act.needAll, Act.Keeps.needReg]
theorem Act.Keeps.needRoom (ds) : (Act.needRoom ds).Keeps := by
  have := Act.keeps_rules
  induction ds <;> grind only [Act.needRoom, Act.Keeps.fault, Act.Keeps.park]
theorem Act.Keeps.needWords (rs) : (Act.needWords rs : Act Unit).Keeps := by
  refine .ite (.get_bind fun _ _ => .bind .me fun _ => ?_) (.pure _)
  split
  · exact .park _
  · exact .pure _
theorem Act.Keeps.ready (rs ds) : (Act.ready rs ds : Act Unit).Keeps :=
  .bind (.needAll _) fun _ => .bind (.needRoom _) fun _ => .needWords _
theorem Act.Keeps.read (before r) : (Act.read before r : Act Word).Keeps := .bind .me fun _ => .ite (.get_bind fun _ _ => .pure _) (.pure _)
theorem Act.Keeps.readSrc (before b) : (Act.readSrc before b).Keeps := by
  cases b with
  | reg r => exact .read before r
  | lit32 v => exact .pure _
  | lit64 v => exact .pure _
theorem Act.Keeps.pop (rs) : (Act.pop rs).Keeps := by
  have := Act.keeps_rules
  induction rs <;> grind only [Act.pop, State.Inv.popPort]
theorem Act.Keeps.writeCtl (d v ctl) : (Act.writeCtl d v ctl : Act Unit).Keeps :=
  .bind .me fun _ => .ite (.modify fun _ h => h.pushPort ..) (.modMe _)
theorem Act.Keeps.write (d v) : (Act.write d v : Act Unit).Keeps := .writeCtl ..
theorem Act.Keeps.writePred (k v) : (Act.writePred k v : Act Unit).Keeps := .modMe _
theorem Act.Keeps.raise (f) : (Act.raise f : Act Unit).Keeps := .modMe _

/-! ### Checks -/

theorem Act.Keeps.address (a off unit codes) : (Act.address a off unit codes : Act ℕ).Keeps := by
  unfold Act.address
  split
  · exact .fault ..
  · exact .ite (.pure _) (.fault ..)

/-! ### Where an address leads -/

theorem State.Inv.mapPage (h : s.Inv) (e) : (s.mapPage e).Inv := by
  grind only [State.mapPage, Tab.wf_filter, State.inv_iff]
theorem State.Inv.cacheEntry (h : s.Inv) (e) : (s.cacheEntry e).Inv := by
  grind only [State.cacheEntry, State.Inv.choose, State.inv_iff]
theorem State.Inv.useEntry (h : s.Inv) (e write) : (s.useEntry e write).Inv := (h.mapPage _).cacheEntry _
theorem State.Inv.faultWait (h : s.Inv) (ctx piece w) : (s.faultWait ctx piece w).Inv := .ite h h
theorem State.Inv.usePages (h : s.Inv) (ctx vs write) : (s.usePages ctx vs write).Inv := by
  grind only [State.usePages, State.Inv.useEntry, State.Inv.foldl]
theorem Act.Keeps.hold (va) : (Act.hold va : Act α).Keeps :=
  .bind .me fun _ => .bind (.modify fun _ h => (h.count ..).faultWait ..) fun _ => .park _

/-! ### Reads and writes of a thread -/

theorem State.Inv.dropReplies (h : s.Inv) (u) : (s.dropReplies u).Inv := h
theorem Act.Keeps.reserve (loc) : (Act.reserve loc).Keeps := by
  refine .bind .me fun t => .ite (.get_bind fun s _ => .ite (.bind (.modify fun _ h => h.restartSolo _) fun _ => .park _) ?_)
    (.pure _)
  dsimp only
  generalize s.reserved.find? _ = r
  cases r with
  | none => exact .modify fun _ h => h
  | some r =>
    refine .ite ?_ (.bind (.modify fun _ h => h.restartSolo _) fun _ => .stop)
    cases s.thread? r.2 with
    | none => exact .modify fun _ h => h
    | some o => exact .modify fun _ h => (h.dropReplies _).restartSolo _
theorem Act.Keeps.recall (loc) : (Act.recall loc : Act Unit).Keeps := .get_bind fun _ _ => .ite (.park _) (.pure _)
theorem Act.Keeps.claim (single loc) : (Act.claim single loc : Act Unit).Keeps := .unlessDo () (.reserve _) fun _ => .recall _
theorem Act.Keeps.needLine (loc) : (Act.needLine loc : Act Unit).Keeps :=
  .bind (.recall _) fun _ => .bind .me fun _ => .get_bind fun _ _ => .ite (.park _) (.pure _)
theorem State.Inv.reachLine (h : s.Inv) (t loc) : (s.reachLine t loc).Inv := .ite (.ite (h.meetError _) (h.touchLine _)) h
theorem Act.Keeps.clean (va loc) : (Act.clean va loc : Act Unit).Keeps :=
  .bind .me fun _ => .bind (.modify fun _ h => h.reachLine ..) fun _ => .get_bind fun _ _ => .ite (.fault ..) (.pure _)
theorem Act.Keeps.buffer (es page) : (Act.buffer es page : Act Unit).Keeps :=
  .bind .me fun _ => .ite (.bind (.fault ..) fun _ => .modMe _) (.ifDo () .passChunk fun _ => .modMe _)
theorem State.Inv.stillHeld (h : s.Inv) (line) : (s.stillHeld line).2.Inv := by
  grind only [State.stillHeld, State.Inv.writeBackLine, State.Inv.choose]
theorem State.Inv.nearStore (h : s.Inv) (ws) : (s.nearStore ws).Inv := by
  cases ws with
  | nil => exact h
  | cons w ws =>
    refine .ite ?_ (.ite ?_ ⟨⟨Store.wf_foldl h.mem .., h.empty, h.threads, h.cores⟩, h.frozen⟩)
    · have hs := h.stillHeld (w.1 / 64)
      exact .foldl (fun _ _ h => h.nearByte ..) _ (.ite hs hs)
    · grind only [State.Inv.foldl, State.Inv.setHandleByte, State.inv_iff]

/-! ### Conversion, control transfers and floating point -/

theorem Act.Keeps.needTable (a code) : (Act.needTable a code : Act Unit).Keeps := by
  refine .bind .me fun _ => ?_
  split
  · exact .pure _
  · exact .ite (.fault ..) (.get_bind fun _ _ => .ite (.park _) (.pure _))
theorem Act.Keeps.target (t) : (Act.target t : Act ℕ).Keeps := .ite (.pure _) (.fault ..)
theorem execBr_keeps (h : s.Inv) (o g) : InvAfter (execBr o g s) :=
  Act.Keeps.go (.issueTo _ _ _ _ (.bind .me fun _ => .bind (.target _) fun _ => .pure _)) h
theorem execCall_keeps (h : s.Inv) (o g) : InvAfter (execCall o g s) :=
  Act.Keeps.go (.issueTo _ _ _ _ (.bind .me fun _ => .bind (.target _) fun _ => .bind (.write ..) fun _ => .pure _)) h
theorem execJmp_keeps (h : s.Inv) (b g) : InvAfter (execJmp b g s) :=
  Act.Keeps.go (.issueTo _ _ _ _ (.bind (.ready ..) fun _ => .bind (.readSrc ..) fun _ => .bind (.target _) fun _ =>
    .bind (.pop _) fun _ => .pure _)) h
theorem execCallr_keeps (h : s.Inv) (d b g) : InvAfter (execCallr d b g s) :=
  Act.Keeps.go (.issueTo _ _ _ _ (.bind (.ready ..) fun _ => .bind .me fun _ => .bind (.readSrc ..) fun _ => .bind (.target _) fun _ =>
    .bind (.pop _) fun _ => .bind (.write ..) fun _ => .pure _)) h
theorem execLoop_keeps (h : s.Inv) (d i g) : InvAfter (execLoop d i g s) :=
  Act.Keeps.go (.issueTo _ _ _ _ (.bind (.ready ..) fun _ => .bind .me fun _ => .bind (.read ..) fun _ => .ite (.bind (.write ..) fun _ =>
    .pure _) (.bind (.target _) fun _ => .bind (.write ..) fun _ => .pure _))) h
theorem Act.Keeps.fop (d a b g f) : (Act.fop d a b g f : Act Unit).Keeps :=
  .issue _ _ _ _ (.bind (.ready ..) fun _ => .bind .me fun _ => .bind (.read ..) fun _ => .bind (.readSrc ..) fun _ =>
    .bind (.pop _) fun _ => .bind (.raise _) fun _ => .write ..)
theorem Act.Keeps.fcmp (d a b g c) : (Act.fcmp d a b g c : Act Unit).Keeps :=
  .issue _ _ _ _ (.bind (.ready ..) fun _ => .bind .me fun _ => .bind (.read ..) fun _ => .bind (.readSrc ..) fun _ =>
    .bind (.pop _) fun _ => .bind (.raise _) fun _ => .writePred ..)
theorem Act.Keeps.fcvt (d b g f) : (Act.fcvt d b g f : Act Unit).Keeps :=
  .issue _ _ _ _ (.bind (.ready ..) fun _ => .bind .me fun _ => .bind (.readSrc ..) fun _ => .bind (.pop _) fun _ =>
    .bind (.raise _) fun _ => .write ..)
theorem Act.Keeps.fpick (d a b g big) : (Act.fpick d a b g big : Act Unit).Keeps :=
  .issue _ _ _ _ (.bind (.ready ..) fun _ => .bind .me fun _ => .bind (.read ..) fun _ => .bind (.readSrc ..) fun _ =>
    .bind (.pop _) fun _ => .bind (.raise _) fun _ => .write ..)
theorem execFfma_keeps (h : s.Inv) (d a b g) : InvAfter (execFfma d a b g s) :=
  Act.Keeps.go (.issue _ _ _ _ (.bind (.ready ..) fun _ => .bind .me fun _ => .bind (.read ..) fun _ => .bind (.read ..) fun _ =>
    .bind (.readSrc ..) fun _ => .bind (.pop _) fun _ => .bind (.raise _) fun _ => .write ..)) h

/-! ### Travelling -/

theorem Act.Keeps.base (mig a more) : (Act.base mig a more : Act Word).Keeps := by
  refine .bind .me fun _ => ?_
  split
  · exact .pure _
  · exact .bind (.ready ..) fun _ => .read ..
theorem Act.Keeps.travel (owner mask addr taken) : (Act.travel owner mask addr taken : Act α).Keeps :=
  .ite (.fault ..) (.bind .endChunk fun _ => .bind (.pop _) fun _ => .bind (.modMe _) fun _ => .bind (.modify fun _ h => h.push _) fun _ =>
    .park _)
theorem Act.Keeps.maybeTravel (va x a) : (Act.maybeTravel va x a : Act Unit).Keeps := by
  refine .bind .me fun _ => .get_bind fun _ _ => .ite (.pure _) ?_
  split
  · exact .pure _
  · exact .ite (.pure _) (.ite (.fault ..) (.travel ..))

/-! ### Loads and stores -/

theorem Act.Keeps.element (op size d x off data rs) : (Act.element op size d x off data rs : Act Unit).Keeps :=
  .bind .me fun _ => .ite .illegal (.bind .endChunk fun _ => .bind (.needWords _) fun _ => .bind (.modify fun _ h => h.push _) fun _ =>
    .ifDo () (.modMe _) fun _ => .park _)
theorem Act.Keeps.awaitLoad (single d e) : (Act.awaitLoad single d e : Act Unit).Keeps :=
  .bind (.modify fun _ h => h.push _) fun _ => .bind (.modMe _) fun _ => .park _
theorem State.Inv.writeFor (h : s.Inv) (u va loc n v) : (s.writeFor u va loc n v).Inv := by
  grind only [State.writeFor, State.Inv.modThread, State.Inv.commitWord, State.Inv.progress, State.inv_iff]
theorem Act.Keeps.load (size mig d a i g) : (Act.load size mig d a i g).Keeps := by
  refine .issue _ _ _ _ (.bind (.base ..) fun x => ?_)
  split
  · exact .element ..
  refine .bind (.address ..) fun va => .ifDo () (.maybeTravel ..) fun _ => .bind (.needTable ..) fun _ => .bind .me fun t =>
    .get_bind fun s _ => ?_
  extract_lets _ far
  have hfar (loc) : (far loc).Keeps := .bind (.claim ..) fun _ => .bind (.pop _) fun _ => .bind .me fun _ => .awaitLoad ..
  split
  · exact .fault ..
  · exact .hold ..
  · exact .bind (.claim ..) fun _ => .bind (.clean ..) fun _ => .get_bind fun _ _ => .unlessDo () (.modMe _) fun _ =>
      .bind (.pop _) fun _ => .bind (.raise _) fun _ => .write ..
  · exact hfar _
  · refine .bind (.modify fun _ h => h.useEntry ..) fun _ => ?_
    split
    · exact hfar _
    · exact .bind (.claim ..) fun _ => .bind (.clean ..) fun _ => .get_bind fun _ _ => .unlessDo () (.modMe _) fun _ =>
        .bind (.pop _) fun _ => .bind (.raise _) fun _ => .awaitLoad ..
theorem Act.Keeps.store (size mig d a i g) : (Act.store size mig d a i g).Keeps := by
  refine .issue _ _ _ _ (.bind (.base ..) fun x => ?_)
  split
  · exact .bind (.ready ..) fun _ => .bind (.read ..) fun _ => .element ..
  refine .bind (.address ..) fun va => .ifDo () (.maybeTravel ..) fun _ => .bind .me fun t => .bind (.ready ..) fun _ =>
    .bind (.needTable ..) fun _ => .get_bind fun s _ => .bind (.read ..) fun v => ?_
  split
  extract_lets _ _ put atOnce
  have hput (loc page) : (put loc page).Keeps := by
    unfold put
    split
    · exact .bind (.needLine _) fun _ => .ifDo () (.fault ..) fun _ => .bind (.modify fun _ h => h.writeFor ..) fun _ =>
        .bind (.pop _) fun _ => .raise _
    · exact .bind (.claim ..) fun _ => .bind (.buffer ..) fun _ => .bind (.pop _) fun _ => .raise _
  have hatOnce (loc) : (atOnce loc).Keeps := .bind (.modify fun _ h => h.nearStore ..) fun _ => .raise _
  split
  · exact .fault ..
  · exact .hold ..
  · split
    · exact hatOnce _
    · exact hput ..
  · exact hput ..
  · refine .bind (.modify fun _ h => h.useEntry ..) fun _ => ?_
    split
    · exact hatOnce _
    · exact hput ..
theorem execPref_keeps (h : s.Inv) (a _i g) : InvAfter (execPref a _i g s) := Act.Keeps.go (.issue _ _ _ _ (.pure _)) h

/-! ### Words at their home -/

theorem State.Inv.bitFor (h : s.Inv) (u loc f) : (s.bitFor u loc f).Inv := by
  unfold State.bitFor
  split
  · exact h.setFull ..
  · exact .ite (h.modThread ..) (h.setFull ..)
theorem State.Inv.answer (h : s.Inv) (a reg v) : (s.answer a reg v).Inv := by
  unfold State.answer
  split
  · exact h
  · exact .ite ((h.progress _).modThread ..) (((h.progress _).modThread ..).push _)
theorem State.Inv.serveWord (h : s.Inv) (a) {s'} (e : s.serveWord a = some s') : s'.Inv := by
  grind only [State.serveWord, State.Inv.bitFor, State.Inv.popPort, State.Inv.writeFor, State.Inv.answer, State.Inv.wakePorts,
    State.Inv.faultThread, State.Inv.foldl]
theorem State.Inv.serveFirst (h : s.Inv) (word) {s'} (e : s.serveFirst word = some s') : s'.Inv := by
  obtain ⟨a, _, ha⟩ := List.exists_of_findSome?_eq_some e
  split at ha
  · exact State.Inv.serveWord (s := { s with waiters := s.waiters.erase a }) h a ha
  · cases ha
theorem State.Inv.serveWaiters (h : s.Inv) (word n) : (s.serveWaiters word n).Inv := by
  induction n generalizing s with
  | zero => exact h
  | succ n ih =>
    unfold State.serveWaiters
    split
    · exact h
    · exact ih (h.serveFirst _ ‹_›)
theorem State.Inv.wordChanged (h : s.Inv) (loc) : (s.wordChanged loc).Inv := h.serveWaiters ..
theorem State.Inv.serveAll (h : s.Inv) : s.serveAll.Inv := .foldl (fun _ _ h => h.wordChanged _) _ h
theorem State.Inv.servePorts (h : s.Inv) (c) : (s.servePorts c).Inv := .foldl (fun _ _ h => h.wordChanged _) _ h
theorem State.Inv.atHome (h : s.Inv) (a) : (s.atHome a).Inv := by
  grind only [State.atHome, State.Inv.serveWord, State.Inv.wordChanged, State.inv_iff]
theorem Act.Keeps.sync (kind d a i g) : (Act.sync kind d a i g).Keeps := by
  refine .issue _ _ _ _ (.bind (.ready ..) fun _ => .bind (.read ..) fun x => .bind (.address ..) fun va => .bind .me fun t =>
    .get_bind fun s _ => .ifDo _ (.read ..) fun v => ?_)
  dsimp only
  generalize s.spot t va _ false = spot
  cases spot
  case bad => exact .fault ..
  case absent => exact .hold ..
  case' global => refine .bind (.modify fun _ h => h.useEntry ..) fun _ => ?_
  all_goals
    exact .eitherDo (.needLine _) (.recall _) fun _ => .ifDo () (.clean ..) fun _ => .bind (.pop _) fun _ =>
      .ifDo () (.modMe _) fun _ => .bind (.modMe _) fun _ =>
      .eitherDo (.modify fun _ h => h.atHome _) (.modify fun _ h => h.push _) fun _ => .parked

/-! ### Armed registers and remote fills -/

theorem execArm_keeps (h : s.Inv) (d g) : InvAfter (execArm d g s) := Act.Keeps.go (.issue _ _ _ _ (.modMe _)) h
theorem Act.Keeps.awaitReply (d e) : (Act.awaitReply d e).Keeps :=
  .bind (.modify fun _ h => h.push _) fun _ => .bind (.modMe _) fun _ => .park _
theorem execRfill_keeps (h : s.Inv) (d a b g) : InvAfter (execRfill d a b g s) :=
  Act.Keeps.go (.issue _ _ _ _ (.bind (.ready ..) fun _ => .bind (.read ..) fun _ => .bind (.readSrc ..) fun _ => .bind (.pop _) fun _ =>
    .get_bind fun _ _ => .awaitReply ..)) h

/-! ### Atomics -/

theorem Act.Keeps.atomic (op d a b g) : (Act.atomic op d a b g).Keeps := by
  refine .issue _ _ _ _ (.bind (.ready ..) fun _ => .bind (.read ..) fun x => .bind (.readSrc ..) fun y =>
    .ifDo _ (.read ..) fun z => .bind (.address ..) fun va => .bind .me fun t => .get_bind fun s _ => ?_)
  dsimp only
  generalize s.spot t va _ false = spot
  cases spot
  case bad => exact .fault ..
  case absent => exact .hold ..
  case' global => refine .bind (.modify fun _ h => h.useEntry ..) fun _ => ?_
  all_goals exact .bind (.recall _) fun _ => .bind (.clean ..) fun _ => .bind (.pop _) fun _ => .awaitReply ..

/-! ### Posted stores -/

theorem State.Inv.postWrite (h : s.Inv) (u va loc v fill) : (s.postWrite u va loc v fill).Inv :=
  .ite (((h.writeFor ..).bitFor ..).wordChanged _) (h.writeFor ..)
theorem Act.Keeps.post (fill a b g) : (Act.post fill a b g).Keeps := by
  refine .issue _ _ _ _ (.bind (.ready ..) fun _ => .bind (.read ..) fun x => .bind (.readSrc ..) fun y =>
    .bind (.address ..) fun va => .bind .me fun t => .get_bind fun s _ => ?_)
  extract_lets direct _ posted
  have hdirect (loc) : (direct loc).Keeps := by
    refine .bind (.needLine _) fun _ => ?_
    split
    · exact .fault ..
    · split
      · exact .park _
      · exact .bind (.pop _) fun _ => .modify fun _ h => h.postWrite ..
  have hposted : posted.Keeps := by
    unfold posted
    split
    · exact .park _
    · exact .bind (.pop _) fun _ => .bind (.modify fun _ h => h.modCore ..) fun _ => .modify fun _ h => h.push _
  clear_value direct posted
  have := Act.keeps_rules
  generalize s.spot t va _ false = spot
  cases spot <;> grind only [Act.Keeps.fault, Act.Keeps.hold, State.Inv.useEntry]

/-! ### Waiting on an address -/

theorem Act.Keeps.waita (cond timed a b g) : (Act.waita cond timed a b g).Keeps := by
  refine .issue _ _ _ _ (.bind (.ready ..) fun _ => .bind (.read ..) fun x => .bind (.readSrc ..) fun y => ?_)
  cases timed
  case' none => refine .bind (.pure _) fun lim => ?_
  case' some => refine .bind (.read ..) fun lim => ?_
  all_goals
    refine .ite .illegal (.bind (.address ..) fun va => .bind .me fun t => .get_bind fun s _ => ?_)
    extract_lets go
    have hgo (loc) : (go loc).Keeps := by
      refine .bind (.recall _) fun _ => .bind (.clean ..) fun _ => .get_bind fun _ _ => .bind (.pop _) fun _ => ?_
      have := Act.keeps_rules
      grind only [Act.Keeps.write, Act.Keeps.park, State.Inv.after]
    clear_value go
    have := Act.keeps_rules
    generalize s.spot t va _ false = spot
    cases spot <;> grind only [Act.Keeps.fault, Act.Keeps.hold, State.Inv.useEntry]

/-! ### Fences and chunk ends -/

theorem Act.Keeps.fence (scope g) : (Act.fence scope g : Act Unit).Keeps :=
  .issue _ _ _ _ (.bind .me fun _ => .ite (.pure _) (.bind (.modify fun _ h => h.push _) fun _ => .park _))
theorem execXfence_keeps (h : s.Inv) (a b g) : InvAfter (execXfence a b g s) := by
  refine Act.Keeps.go (.issue _ _ _ _ (.bind (.ready ..) fun _ => .bind (.read ..) fun _ => .bind (.readSrc ..) fun _ =>
    .bind .me fun _ => .ite (.pop _) (.ite (.bind (.pop _) fun _ => .get_bind fun _ _ => .ite (.modMe _) ?_) (.fault ..)))) h
  exact .bind (.modify fun _ h => h.push _) fun _ => .park _
theorem execChend_keeps (h : s.Inv) (_g) : InvAfter (execChend _g s) :=
  Act.Keeps.go (.bind (.begin ..) fun _ => .bind .me fun _ => .ite (.leave _) (.ite (.park _) (.bind (.modMe _) fun _ => .passChunk))) h

/-! ### The tag of a core -/

theorem State.Inv.saveImage (h : s.Inv) (c) : (s.saveImage c).Inv := by
  unfold State.saveImage
  split
  · exact h
  · exact h
theorem State.Inv.loadImage (h : s.Inv) (c ctx) : (s.loadImage c ctx).Inv := by
  unfold State.loadImage
  extract_lets b img s1 s2 s3
  have h1 : s1.Inv :=
    ⟨⟨Store.wf_foldl (Tab.wf_filter h.mem _) .., Store.wf_foldl (Tab.wf_filter h.empty _) .., h.threads, h.cores⟩, h.frozen⟩
  have h2 : s2.Inv := .ite (h1.restartDog _) h1
  have h3 : s3.Inv := .ite (h2.push _) h2
  exact (h3.modCore ..).checkClaim _
theorem State.Inv.exchange (h : s.Inv) (c ctx) : (s.exchange c ctx).Inv := ((h.saveImage _).loadImage ..).modCore ..
theorem State.Inv.tagFor (h : s.Inv) (c ctx) : (s.tagFor c ctx).Inv := .ite (h.loadImage ..) h

/-! ### Threads in and out of slots -/

theorem State.Inv.writeWindow (h : s.Inv) (l c) : (s.writeWindow l c).Inv :=
  .foldl (fun _ _ h => h.wordChanged _) _ (.foldl (fun _ _ h => h.setFull ..) _ (h.commitBytes _))
theorem State.Inv.windowFor (h : s.Inv) (t c) : (s.windowFor t c).Inv := by
  unfold State.windowFor
  split
  · exact h.writeWindow ..
  · exact h
theorem State.Inv.enterSlot (h : s.Inv) (u c k) : (s.enterSlot u c k).Inv := by
  grind only [State.enterSlot, State.Inv.windowFor, State.Inv.reindex, State.Inv.modThread, State.Inv.checkClaim, State.Inv.modCore,
    State.Inv.tagFor, State.Inv.freeWord, State.inv_iff]
theorem State.Inv.enterStock (h : s.Inv) (u c) : (s.enterStock u c).Inv := by
  unfold State.enterStock
  split
  · exact h
  extract_lets old s1 _ _ s3 l _ s4 s5
  clear_value old l
  have h1 : s1.Inv := by
    unfold s1
    split
    · exact h.count ..
    · exact h
  have h3 : s3.Inv := h1.modThread ..
  have h4 : s4.Inv := by
    unfold s4
    split
    · exact h3.modThread ..
    split
    · exact h3
    · exact .ite h3 ((h3.modThread ..).modThread ..)
  have h5 : s5.Inv := by
    unfold s5
    split
    · exact .ite (h4.pokeHandler _) ((h4.checkClaim _).push _)
    · exact h4
  exact h5.push _

/-! ### Ending waits -/

theorem State.Inv.giveUp (h : s.Inv) (u) : (s.giveUp u).Inv := by
  grind only [State.giveUp, State.Inv.wakePorts, State.Inv.modThread, State.Inv.leaveQueues, State.inv_iff]
theorem State.Inv.closeChunk (h : s.Inv) (u) : (s.closeChunk u).2.Inv := by
  grind only [State.closeChunk, State.Inv.restartSolo, State.Inv.commitAll]

/-! ### The dispatcher -/

theorem State.Inv.placeThread (h : s.Inv) (key l c k) : (s.placeThread key l c k).Inv := by
  grind only [State.placeThread, State.Inv.modCore, State.Inv.tagFor, State.Inv.writeWindow, Tab.rising_insert, State.inv_iff]
theorem State.Inv.dispatch (h : s.Inv) {s'} (e : s.dispatch = some s') : s'.Inv := by
  unfold State.dispatch at e
  dsimp only at e
  repeat' split at e
  all_goals cases e
  · exact h.placeThread ..
  · exact h.push _
theorem State.Inv.dispatch_getD (h : s.Inv) : (s.dispatch.getD s).Inv := by
  cases e : s.dispatch with
  | none => exact h
  | some s' => exact h.dispatch e
theorem State.Inv.saveThread (h : s.Inv) (u) : (s.saveThread u).Inv := by
  unfold State.saveThread
  split
  · exact h
  have hs := (h.giveUp u).closeChunk u
  dsimp only
  generalize (s.giveUp u).closeChunk u = r at hs
  obtain ⟨done, s⟩ := r
  cases done with
  | false => exact hs.modThread ..
  | true =>
    dsimp only
    split
    · exact hs
    exact ((hs.modThread ..).enterStock ..).dispatch_getD
theorem State.Inv.fillSlot (h : s.Inv) (c) : (s.fillSlot c).Inv := by
  grind only [State.fillSlot, State.Inv.enterSlot, State.Inv.push]
theorem Act.Keeps.needEngine : (Act.needEngine : Act Unit).Keeps :=
  .bind .me fun _ => .get_bind fun _ _ => .ite (.pure _) (.bind (.modify fun _ h => .ite h (h.push _)) fun _ => .park _)
theorem Act.Keeps.needEntry (e) : (Act.needEntry e : Act Unit).Keeps :=
  .bind .me fun _ => .get_bind fun _ _ => .ite (.modify fun _ h => (h.modCore ..).wakeQueue ..)
    (.bind (.modify fun _ h => h.modCore ..) fun _ => .park _)
theorem Act.Keeps.engineForm (e fields reads g) {body} (hb : body.Keeps) : (Act.engineForm e fields reads g body).Keeps :=
  .issue _ _ _ _ (.bind .needEngine fun _ => .bind (.needEntry _) fun _ => .bind (.ready _ _) fun _ => hb)
theorem Act.Keeps.enqueue (e op reg a b dst src) : (Act.enqueue e op reg a b dst src : Act Unit).Keeps := by
  have := Act.keeps_rules
  grind only [Act.enqueue, State.Inv.usePages, State.Inv.modCore, State.Inv.push, State.Inv.count, State.inv_iff]

/-! ### Committing results -/

theorem State.Inv.footSeen (h : s.Inv) (u words) : (s.footSeen u words).Inv := h.modThread ..
theorem State.Inv.engCommit (h : s.Inv) (eng uid void ws fills) : (s.engCommit eng uid void ws fills).Inv :=
  .ite h (.ite (.foldl (fun _ _ h => h.wordChanged _) _ ((h.modThread ..).footSeen ..))
    (.foldl (fun _ _ h => h.wordChanged _) _ (.foldl (fun _ _ h => h.setFull ..) _ (h.commitBytes _))))
theorem State.Inv.countCopied (h : s.Inv) (core n) : (s.countCopied core n).Inv := (h.modCore ..).count ..
theorem State.Inv.engFault (h : s.Inv) (c core fval) : (s.engFault c core fval).Inv := by
  unfold State.engFault
  split
  · exact h.modThread ..
  · exact h.record ..
theorem State.Inv.modHead (h : s.Inv) (c e f) : (s.modHead c e f).Inv := h.modCore ..
theorem State.Inv.popCmd (h : s.Inv) (c e) : (s.popCmd c e).Inv := by
  unfold State.popCmd
  split
  · exact h
  · exact .progressOf (.wakeAll (.wakeOwned (.wakeQueue (.ite (h.modCore ..) ((h.modCore ..).push _)) ..)) _) ..
theorem State.Inv.dropRing (h : s.Inv) (u) : (s.dropRing u).Inv := by
  unfold State.dropRing
  split
  · exact h
  · exact .ite (.ite ((h.popCmd ..).modThread ..) (.modThread ((h.modCore ..).wakeQueue ..).wakeOwned ..)) h
theorem State.Inv.fillPend (h : s.Inv) (u r v) : (s.fillPend u r v).Inv := h.modThread ..
theorem Act.Keeps.awaitFill (r) : (Act.awaitFill r : Act Unit).Keeps := .modMe _

/-! ### Starting and completing a command -/

theorem State.Inv.engStall (h : s.Inv) (core e ctx va) : (s.engStall core e ctx va).Inv := ((h.count ..).modHead ..).faultWait ..
theorem State.Inv.touchSource (h : s.Inv) (c) : (s.touchSource c).Inv := h.touchPlaces _
theorem State.Inv.engStart (h : s.Inv) (core e hard fin run) : (s.engStart core e hard fin run).Inv := by
  unfold State.engStart
  dsimp only
  split
  · exact h
  · refine .ite h (.ite (h.push _) ?_)
    split
    · exact (h.touchSource _).engStall ..
    · exact .wakeOwned (((h.touchSource _).modHead ..).push _)
    · exact .wakeOwned (.push (.modHead (((h.touchSource _).usePages ..).usePages ..) ..) _)
theorem State.Inv.engFinish (h : s.Inv) (core e again) : (s.engFinish core e again).Inv := by
  unfold State.engFinish
  split
  · exact h
  split
  · exact h
  refine .ite (h.push _) ?_
  extract_lets s1 s2 s3 s4
  have h2 : s2.Inv := (h.modCore ..).engCommit ..
  have h3 : s3.Inv := by
    unfold s3
    split
    · exact h2.fillPend ..
    · exact h2
  have h4 : s4.Inv := by
    unfold s4
    split
    · exact h3.engFault ..
    · exact h3
  exact h4.popCmd ..

/-! ### System registers -/

theorem execMfs_keeps (h : s.Inv) (r a g) : InvAfter (execMfs r a g s) :=
  Act.Keeps.go (.issue _ _ _ _ (.bind .me fun _ => .get_bind fun _ _ => .write ..)) h
theorem execMts_keeps (h : s.Inv) (r a g) : InvAfter (execMts r a g s) :=
  Act.Keeps.go (.issue _ _ _ _ (.bind (.ready ..) fun _ => .bind (.read ..) fun _ => .modMe _)) h
theorem execMtsWdog_keeps (h : s.Inv) (a g) : InvAfter (execMtsWdog a g s) :=
  Act.Keeps.go (.issue _ _ _ _ (.bind (.ready ..) fun _ => .bind (.read ..) fun _ => .bind .me fun _ =>
    .modify fun _ h => (h.modCtx ..).progress _)) h

/-! ### Traps -/

theorem execTrap_keeps (h : s.Inv) (a g) : InvAfter (execTrap a g s) :=
  Act.Keeps.go (.issue _ _ _ _ (.bind (.ready ..) fun _ => .bind (.read ..) fun _ => .bind .me fun _ => .trap ..)) h
theorem execTret_keeps (h : s.Inv) (g) : InvAfter (execTret g s) :=
  Act.Keeps.go (.issueTo _ _ _ _ (.bind .me fun _ => .ite .illegal (.bind (.target _) fun _ => .bind (.modMe _) fun _ => .pure _))) h

/-! ### Breakpoints and waiting -/

theorem State.Inv.haltThread (h : s.Inv) (u) : (s.haltThread u).Inv := by
  unfold State.haltThread
  dsimp only
  split
  · exact h
  · split
    · exact ((h.modThread ..).push _).after ..
    · exact h.modThread ..
theorem execBkpt_keeps (h : s.Inv) (g) : InvAfter (execBkpt g s) := by
  refine Act.Keeps.go (.issue _ _ _ _ (.bind .me fun _ => .get_bind fun _ _ => ?_)) h
  split
  · exact .modify fun _ h => h.haltThread _
  · exact .trap ..
theorem Act.Keeps.idle (limit) : (Act.idle limit).Keeps := by
  refine .bind .me fun t => .get_bind fun s _ => .ite .illegal (.ite (.pure _) ?_)
  split
  · exact .bind (.modify fun _ h => h.after ..) fun _ => .park _
  · exact .park _
theorem execIdle_keeps (h : s.Inv) (g) : InvAfter (execIdle g s) := Act.Keeps.go (.issue _ _ _ _ (.idle _)) h
theorem execIdleT_keeps (h : s.Inv) (a g) : InvAfter (execIdleT a g s) :=
  Act.Keeps.go (.issue _ _ _ _ (.bind (.ready ..) fun _ => .bind (.read ..) fun _ => .idle _)) h

/-! ### Tables and code -/

theorem execTload_keeps (h : s.Inv) (a b g) : InvAfter (execTload a b g s) := by
  refine Act.Keeps.go (.issue _ _ _ _ (.bind (.ready ..) fun _ => .bind (.read ..) fun _ => .bind (.read ..) fun y =>
    .ite (.fault ..) (.ifDo () (.fault ..) fun _ => .bind (.address ..) fun va => .ite (.fault ..) (.bind .me fun t =>
    .get_bind fun s _ => .ite (.bind (.modMe _) fun _ => .park _) ?_)))) h
  split
  · exact .fault ..
  · exact .bind (.modMe _) fun _ => .hold _
  refine .ite (.bind (.modMe _) fun _ => .park _) (.bind (.modify fun _ h => h.touchPlaces _) fun _ => .get_bind fun s _ => ?_)
  split
  · exact .fault ..
  · exact .bind (.modMe _) fun _ => .modify fun _ h => ((h.usePages ..).modCore ..).after ..
theorem execSynci_keeps (h : s.Inv) (a b g) : InvAfter (execSynci a b g s) :=
  Act.Keeps.go (.issue _ _ _ _ (.bind (.ready ..) fun _ => .bind (.read ..) fun _ => .bind (.read ..) fun _ => .ite (.fault ..)
    (.pure _))) h

/-! ### Pages and contexts -/

theorem State.Inv.harvestPage (h : s.Inv) (ctx root page) : (s.harvestPage ctx root page).Inv := by
  unfold State.harvestPage
  split
  · exact h
  · exact .ite h (h.commitBytes _)
theorem execHarvest_keeps (h : s.Inv) (a b g) : InvAfter (execHarvest a b g s) :=
  Act.Keeps.go (.issue _ _ _ _ (.bind .me fun _ => .get_bind fun _ _ => .ite (.fault ..) (.bind (.ready ..) fun _ =>
    .bind (.read ..) fun _ => .bind (.read ..) fun _ => .ite (.fault ..) (.ite (.park _) (.modify fun _ h =>
      .foldl (fun _ _ h => h.harvestPage ..) _ h))))) h
theorem execCtxswap_keeps (h : s.Inv) (a b g) : InvAfter (execCtxswap a b g s) := by
  refine Act.Keeps.go (.issue _ _ _ _ (.bind (.ready ..) fun _ => .bind (.read ..) fun _ => .bind .me fun t =>
    .get_bind fun s _ => .ite (.write ..) ?_)) h
  split
  · exact .write ..
  · exact .ite (.fault ..) (.ite (.write ..) (.ite (.park _) (.bind (.modMe _) fun _ => .bind (.modify fun _ h =>
      .enterSlot (.ite (.exchange (.enterStock (.modThread h ..) ..) ..) (.enterStock (.modThread h ..) ..)) ..) fun _ => .stop)))
theorem execNop_keeps (h : s.Inv) : InvAfter (execNop s) := Act.Keeps.go (.issue _ _ _ _ (.pure _)) h

/-! ### Vector commands: issue -/

theorem Act.Keeps.vecForm (op g) : (Act.vecForm op g : Act Unit).Keeps := .engineForm _ _ _ _ (.enqueue ..)
theorem Act.Keeps.spanCheck (a unit offs) : (Act.spanCheck a unit offs).Keeps := by
  induction offs with
  | nil => exact .pure _
  | cons o os ih =>
    unfold Act.spanCheck
    split
    · exact .fault ..
    · exact .bind ih fun _ => .pure _
theorem Act.Keeps.spanServed (p ns) : (Act.spanServed p ns).Keeps := by
  induction ns with
  | nil => exact .pure _
  | cons n ns ih =>
    refine .bind .me fun t => .get_bind fun s _ => ?_
    split
    · exact .fault ..
    · exact ih
theorem Act.Keeps.runPointer (p a) : (Act.runPointer p a : Act (List ℕ)).Keeps :=
  .bind (.spanCheck ..) fun _ => .ite (.fault ..) (.bind (.spanServed ..) fun _ => .pure _)
theorem Act.Keeps.vecLanes (op store stride codes a b g) : (Act.vecLanes op store stride codes a b g).Keeps := by
  refine .engineForm _ _ _ _ (.bind (.read ..) fun x => ?_)
  extract_lets _ _ _ operands
  have hoperands (y) : (operands y).Keeps := by
    refine .bind (.spanCheck ..) fun ns => .ite (.fault ..) (.bind (.spanServed ..) fun _ => ?_)
    dsimp only
    split
    · exact .eitherDo (.pure _) (.runPointer ..) fun _ => .ite (.enqueue ..) (.enqueue ..)
    · exact .bind (.pure _) fun _ => .ite (.enqueue ..) (.enqueue ..)
  split
  · exact .bind (.read ..) hoperands
  · exact .bind (.pure _) hoperands
theorem execVldx_keeps (h : s.Inv) (v a g) : InvAfter (execVldx v a g s) := by
  refine Act.Keeps.go (.engineForm _ _ _ _ (.bind (.read ..) fun _ => .ite (.fault ..) (.bind .me fun _ => .get_bind fun _ _ => ?_))) h
  split
  · exact .bind (.modify fun _ h => h.modCore ..) fun _ => .park _
  · exact .enqueue ..
theorem execVputs_keeps (h : s.Inv) (v a g) : InvAfter (execVputs v a g s) :=
  Act.Keeps.go (.engineForm _ _ _ _ (.bind (.read ..) fun _ => .bind (.runPointer ..) fun _ => .enqueue ..)) h
theorem execVgets_keeps (h : s.Inv) (v a g) : InvAfter (execVgets v a g s) :=
  Act.Keeps.go (.engineForm _ _ _ _ (.bind (.read ..) fun _ => .bind (.runPointer ..) fun _ => .enqueue ..)) h
theorem execVcfg_keeps (h : s.Inv) (r a g) : InvAfter (execVcfg r a g s) :=
  Act.Keeps.go (.engineForm _ _ _ _ (.bind (.read ..) fun _ => .ite (.fault ..) (.enqueue ..))) h
theorem execVget_keeps (h : s.Inv) (r a g) : InvAfter (execVget r a g s) :=
  Act.Keeps.go (.engineForm _ _ _ _ (.bind (.enqueue ..) fun _ => .awaitFill _)) h

/-! ### Vector commands: start and completion -/

theorem State.Inv.vecStart (h : s.Inv) (core hard) : (s.vecStart core hard).Inv := h.engStart ..

/-! ### Copy commands: spans -/

theorem Act.Keeps.span (p sp perm) : (Act.span p sp perm).Keeps := by
  unfold Act.span
  split
  · exact .pure _
  refine .bind .me fun t => .get_bind fun s _ => ?_
  split
  · exact .pure _
  · exact .fault ..

/-! ### Copy commands: execution -/

theorem State.Inv.copyStart (h : s.Inv) (core hard) : (s.copyStart core hard).Inv := h.engStart ..
theorem State.Inv.copied (h : s.Inv) (core c n) : (s.copied core c n).Inv := by
  unfold State.copied
  split
  · exact h.countCopied ..
  · exact .ite (h.modThread ..) (h.countCopied ..)
theorem State.Inv.copyFinish (h : s.Inv) (core) : (s.copyFinish core).Inv := by
  unfold State.copyFinish
  split
  · exact h
  split
  · exact h
  extract_lets word left ws room full s1 s2 s3 s4 s5 s6
  refine .ite (h.push _) ?_
  have h2 : s2.Inv := by
    unfold s2
    split
    · exact h.engCommit ..
    · exact ((h.engCommit ..).modCore ..).copied ..
  have h3 : s3.Inv := .ite (h2.engFault ..) h2
  have h4 : s4.Inv := by
    unfold s4
    split
    · exact h3
    · exact h3.engCommit ..
  have h5 : s5.Inv := by
    unfold s5
    split
    · exact h4.fillPend ..
    · exact h4
  have h6 : s6.Inv := by
    unfold s6
    split
    · exact h5.engFault ..
    · exact h5
  exact h6.popCmd ..
theorem State.Inv.copyStop (h : s.Inv) (core) : (s.copyStop core).Inv := by
  unfold State.copyStop
  dsimp only
  split
  · exact h
  · split
    · exact h
    · exact .ite ((h.choose _).choose _) (.modHead (.copied (.modCore (((h.choose _).choose _).engCommit ..) ..) ..) ..)

/-! ### Copy commands: issue -/

theorem Act.Keeps.copyPointer (p) : (Act.copyPointer p : Act Unit).Keeps := .ite (.fault ..) (.pure _)
theorem Act.Keeps.copyRows (c) : (Act.copyRows c : Act (List ℕ)).Keeps := by
  refine .bind .me fun _ => .get_bind fun _ _ => .ite (.park _) ?_
  split
  · exact .pure _
  · exact .pure _
theorem Act.Keeps.copyForm (op a b g) : (Act.copyForm op a b g).Keeps := by
  refine .engineForm _ _ _ _ (.bind (.read ..) fun x => ?_)
  extract_lets _ _ operands
  have hoperands (y) : (operands y).Keeps := by
    refine .bind .me fun t => .get_bind fun s _ =>
      .bind (.copyPointer _) fun _ => .ifDo () (.copyPointer _) fun _ =>
      .ifDo₂ () (.copyPointer _) (fun _ => .span ..) fun _ =>
      .ifDo₂ () (.copyPointer _) (fun _ => .span ..) fun _ =>
      .unlessDo () (.span ..) fun _ => .unlessDo () (.span ..) fun _ => ?_
    exact .ite (.fault ..) (.ite (.fault ..) (.ite (.fault ..) (.ite (.fault ..)
      (.eitherDo (.copyRows _) (.pure _) fun _ => .ite (.fault ..) (.ite (.fault ..) (.enqueue ..))))))
  split
  · exact .bind (.read ..) hoperands
  · exact .bind (.pure _) hoperands
theorem execCcfg_keeps (h : s.Inv) (r a g) : InvAfter (execCcfg r a g s) :=
  Act.Keeps.go (.issue _ _ _ _ (.bind .needEngine fun _ => .bind (.ready ..) fun _ => .bind (.read ..) fun _ => .ite (.fault ..)
    (.bind .me fun _ => .modify fun _ h => h.modCore ..))) h
theorem execCget_keeps (h : s.Inv) (r a g) : InvAfter (execCget r a g s) :=
  Act.Keeps.go (.engineForm _ _ _ _ (.bind (.enqueue ..) fun _ => .awaitFill _)) h

/-! ### Matrix commands: state and operands -/

theorem State.Inv.modMat (h : s.Inv) (core f) : (s.modMat core f).Inv := h.modCore ..
theorem Act.Keeps.tile (a rows stride first cols) : (Act.tile a rows stride first cols : Act (List ℕ)).Keeps := by
  unfold Act.tile
  split
  · exact .fault ..
  · exact .bind (.needTable ..) fun _ => .pure _

/-! ### Matrix commands: issue -/

theorem Act.Keeps.matAdmit (op reg a b dst src) : (Act.matAdmit op reg a b dst src : Act Unit).Keeps := .bind (.enqueue ..) fun _ => .park _
theorem Act.Keeps.mat : (Act.mat : Act MeState).Keeps := .bind .me fun _ => .get_bind fun _ _ => .pure _
theorem execMzero_keeps (h : s.Inv) (x g) : InvAfter (execMzero x g s) := Act.Keeps.go (.engineForm _ _ _ _ (.matAdmit ..)) h
theorem execMma_keeps (h : s.Inv) (x a b g) : InvAfter (execMma x a b g s) :=
  Act.Keeps.go (.engineForm _ _ _ _ (.bind (.read ..) fun _ => .bind (.read ..) fun _ => .bind .mat fun _ => .bind (.tile ..) fun _ =>
    .bind (.tile ..) fun _ => .matAdmit ..)) h
theorem execMldb_keeps (h : s.Inv) (a g) : InvAfter (execMldb a g s) :=
  Act.Keeps.go (.engineForm _ _ _ _ (.bind (.read ..) fun _ => .bind .mat fun _ => .ite (.fault ..) (.bind (.tile ..) fun _ =>
    .matAdmit ..))) h
theorem execMring_keeps (h : s.Inv) (x a g) : InvAfter (execMring x a g s) :=
  Act.Keeps.go (.engineForm _ _ _ _ (.bind (.read ..) fun _ => .bind .mat fun _ => .bind .me fun _ => .ite (.fault ..)
    (.ite (.bind (.modify fun _ h => h.modMat ..) fun _ => .fault ..) (.bind (.tile ..) fun _ => .matAdmit ..)))) h
theorem execMstore_keeps (h : s.Inv) (x a g) : InvAfter (execMstore x a g s) :=
  Act.Keeps.go (.engineForm _ _ _ _ (.bind (.read ..) fun _ => .bind .mat fun _ => .ite (.fault ..) (.ite (.fault ..)
    (.bind (.spanCheck ..) fun _ => .bind (.spanServed ..) fun _ => .bind (.needTable ..) fun _ => .matAdmit ..)))) h
theorem Act.Keeps.extent (p a unit n codes) : (Act.extent p a unit n codes : Act (List ℕ)).Keeps :=
  .bind (.spanCheck ..) fun _ => .ite (.fault ..) (.ite (.fault ..) (.ite (.fault ..) (.bind (.spanServed ..) fun _ => .pure _)))
theorem Act.Keeps.macc (op a g) : (Act.macc op a g : Act Unit).Keeps :=
  .engineForm _ _ _ _ (.bind (.read ..) fun _ => .bind (.extent ..) fun _ => .matAdmit ..)
theorem execMcfg_keeps (h : s.Inv) (r a g) : InvAfter (execMcfg r a g s) :=
  Act.Keeps.go (.issue _ _ _ _ (.bind .needEngine fun _ => .bind (.ready ..) fun _ => .bind (.read ..) fun _ => .bind .mat fun _ =>
    .ite (.fault ..) (.bind .me fun _ => .modify fun _ h => h.modMat ..))) h
theorem execMget_keeps (h : s.Inv) (r a g) : InvAfter (execMget r a g s) :=
  Act.Keeps.go (.issue _ _ _ _ (.bind .needEngine fun _ => .bind .mat fun _ => .write ..)) h

/-! ### Ring steps -/

theorem State.Inv.pokeRing (h : s.Inv) (core) : (s.pokeRing core).Inv := by
  unfold State.pokeRing
  split
  · split
    · exact .ite (h.push _) h
    · exact h
  · exact h
theorem State.Inv.ringStart (h : s.Inv) (core hard) : (s.ringStart core hard).Inv := by
  unfold State.ringStart
  split
  · exact h
  split
  · extract_lets _ _ ends s1 _ took _
    have hends {s} (h : s.Inv) (r) : (ends s r).Inv := ((h.modHead ..).push _).wakeOwned
    clear_value ends
    have hs := h.touchSource
    have := h.modMat
    grind only [State.Inv.push, State.Inv.modMat, State.Inv.touchSource, State.Inv.engStall]
  · exact h
theorem State.Inv.deliverTile (h : s.Inv) (core) : (s.deliverTile core).Inv := by
  unfold State.deliverTile
  dsimp only
  split
  · exact .ite ((h.modMat ..).pokeRing _) (.ite (.pokeRing (((h.modMat ..).modMat ..).pokeRing _) _) (h.push _))
  · exact h

/-! ### Matrix commands: completion -/

theorem State.Inv.matFinish (h : s.Inv) (core) : (s.matFinish core).Inv := by
  grind only [State.matFinish, State.Inv.modThread, State.Inv.modMat, State.Inv.faultThread, State.Inv.engCommit, State.Inv.popCmd,
    State.Inv.push, State.Inv.count]

/-! ### Handles by reference -/

theorem State.Inv.modHandle (h : s.Inv) (key f) : (s.modHandle key f).Inv := by
  unfold State.modHandle
  split
  · exact h
  · exact h

/-! ### Handle order -/

theorem State.Inv.pokeHandle (h : s.Inv) (key) : (s.pokeHandle key).Inv := by
  unfold State.pokeHandle
  split
  · exact h
  · split
    · exact h
    · exact .ite (.ite h (h.push _)) (h.push _)
theorem State.Inv.enterOrder (h : s.Inv) (key e) : (s.enterOrder key e).Inv := .ite ((h.modHandle ..).pokeHandle _) (h.modHandle ..)
theorem State.Inv.countSync (h : s.Inv) (ctx hnum) : (s.countSync ctx hnum).Inv := by
  cases hnum with
  | none => exact h
  | some n => exact h.modHandle ..
theorem State.Inv.checkSyncs (h : s.Inv) : s.checkSyncs.Inv := .foldl (fun _ _ h => (h.countSync ..).modThread ..) _ h

/-! ### Dresses -/

theorem State.Inv.dressFor (h : s.Inv) (hd ctx) : (s.dressFor hd ctx).2.Inv := by
  unfold State.dressFor
  dsimp only [State.choose]
  generalize hr : List.foldl _ _ (List.range 4) = r
  have hr : r.2.Inv := by
    refine hr ▸ foldl_inv (P := fun a : List ℕ × State => a.2.Inv) (fun _ _ h => ?_) _ _ h
    exact h
  exact hr

/-! ### HALLOC -/

theorem State.Inv.halloc (h : s.Inv) (c hard) : (s.halloc c hard).Inv := by
  unfold State.halloc
  extract_lets s1
  have h1 : s1.Inv := h.touchPlaces _
  clear_value s1
  split
  · exact (h1.count ..).faultWait ..
  · exact h1.push _
  · exact h1.push _
  split
  · exact h1.push _
  rename_i desc _ _ _ _ _
  have h2 := h1.choose 2
  refine .ite (h1.push _) (.ite (h1.push _) (.ite (h2.push _) (.progress (.push (.modThread (.modPage ?_ _ _) _ _) _) _)))
  exact h2.dressFor desc c.ctx

/-! ### Admission -/

theorem State.Inv.admitted (h : s.Inv) (c) : (s.admitted c).Inv := .ite h (h.push _)
theorem State.Inv.takeWords (h : s.Inv) (c) : (s.takeWords c).Inv :=
  .foldl (fun _ _ h => h.popPort ..) _ (.foldl (fun _ _ h => h.popPort ..) _ h)
theorem State.Inv.enterHandles (h : s.Inv) (c keys) : (s.enterHandles c keys).Inv :=
  .foldl (fun _ _ h => h.enterOrder ..) _ (h.modHandle ..)
theorem State.Inv.carryCheck (h : s.Inv) (c) : (s.carryCheck c).2.Inv := by
  grind only [State.carryCheck, State.Inv.choose, State.Inv.freeWord]
theorem State.Inv.admitHandle (h : s.Inv) (c) : (s.admitHandle c).Inv := by
  refine .ite (h.push _) (.ite (h.halloc ..) (.ite (h.push _) ?_))
  extract_lets _ _ later
  have hs := h.carryCheck c
  split
  rename_i away s e
  rw [e] at hs
  extract_lets check flags s1 t1
  have h1 : s1.Inv := .ite hs ((hs.takeWords _).modThread ..)
  clear_value check s1
  split
  · extract_lets s2 s3
    have h2 : s2.Inv := by
      unfold s2
      split
      · exact hs.modHandle ..
      · exact hs
    have h3 : s3.Inv := h2.faultThread ..
    exact .ite (.ite h2 (h2.freeWord.fillPend ..)) (.ite h3 (h3.wakePorts _))
  · have ht1 : t1.Inv := h1.modThread ..
    have h2 k keys := h1.enterHandles k keys
    exact .ite (.ite ht1 ((h1.countSync ..).admitted _)) (.ite ((h1.modThread ..).admitted _) (.ite (h2 ..) ((h2 ..).admitted _)))

/-! ### Handle operations: completion -/

theorem State.Inv.popOrder (h : s.Inv) (key) : (s.popOrder key).Inv := (h.modHandle ..).pokeHandle _
theorem State.Inv.countHop (h : s.Inv) (keys) : (s.countHop keys).Inv := by
  grind only [State.countHop, State.Inv.choose, State.Inv.modHandle, State.Inv.foldl]
theorem State.Inv.finishHop (h : s.Inv) (c keys) : (s.finishHop c keys).Inv :=
  .progressOf (.wakeOwned (.checkSyncs (.foldl (fun _ _ h => h.popOrder _) _ (.ite (.countHop (.foldl (fun _ _ h => h.modHandle ..) _ h) _)
    (.foldl (fun _ _ h => h.modHandle ..) _ h))))) ..
theorem State.Inv.replyHop (h : s.Inv) (c v) : (s.replyHop c v).Inv := by
  refine .ite h (.ite ?_ (h.push _))
  split
  · exact .ite h (h.fillPend ..)
  · exact h
theorem State.Inv.tryPin (h : s.Inv) (key hd) : (s.tryPin key hd).2.Inv := by
  grind only [State.tryPin, State.Inv.choose, State.Inv.modHandle]
theorem State.Inv.completeHop (h : s.Inv) (ctx hnum hard) : (s.completeHop ctx hnum hard).Inv := by
  unfold State.completeHop
  extract_lets key
  split
  · exact h
  split
  · exact h
  extract_lets c
  refine .ite h ?_
  split
  · exact h
  extract_lets _ s1 run
  have h1 : s1.Inv := h.touchPlaces _
  clear_value s1 run
  refine .ite (h.push _) ?_
  split
  · exact h1.faultWait ..
  · exact (State.Inv.ite (h1.faultThread ..) (h1.engFault ..)).finishHop ..
  extract_lets _ s2 s3 s4 s5 s6
  have h2 : s2.Inv := h1
  have h3 : s3.Inv := (h2.usePages ..).usePages ..
  have h4 : s4.Inv := .ite h3 (h3.commitBytes _)
  have h5 : s5.Inv := by
    unfold s5
    split
    · extract_lets coded spoiled
      have hspoiled : spoiled.Inv := .ite ((h4.modHandle ..).spoil ..) (h4.modHandle ..)
      exact hspoiled
    · exact h4
  have h6 : s6.Inv := h5.modThread ..
  clear_value s6
  refine .ite (h1.push _) ?_
  split
  · exact ((h6.tryPin ..).replyHop ..).finishHop ..
  · exact (h6.modHandle ..).finishHop ..
  · exact (h6.modHandle ..).finishHop ..
  · exact (h6.replyHop ..).finishHop ..

/-! ### Re-dresses -/

theorem State.Inv.queueRedress (h : s.Inv) (key) : (s.queueRedress key).Inv := h.enterOrder ..
theorem execDresserRedress_keeps (h : s.Inv) (ctx hnum) : InvAfter (execDresserRedress ctx hnum s) := by
  refine invAfter_next.2 ?_
  split
  · exact h
  · exact .ite h ((h.modHandle ..).queueRedress _)
theorem execRedressStart_keeps (h : s.Inv) (ctx hnum) : InvAfter (execRedressStart ctx hnum s) := by
  grind only [execRedressStart, State.Inv.choose, State.Inv.push, State.Inv.modHandle, invAfter_next]
theorem execRedressComplete_keeps (h : s.Inv) (ctx hnum) : InvAfter (execRedressComplete ctx hnum s) := by
  refine invAfter_next.2 ?_
  dsimp only
  split
  · exact h
  split
  · exact h
  · exact .ite h (.ite (.finishHop (((h.dressFor ..).modHandle ..).spoil ..) ..) (.popOrder (((h.dressFor ..).modHandle ..).spoil ..) _))

/-! ### Handle operations: issue -/

theorem Act.Keeps.handleForm (op a b fills g) : (Act.handleForm op a b fills g : Act Unit).Keeps := by
  refine .issue _ _ _ _ (.bind (.ready ..) fun _ => ?_)
  extract_lets _ _ second
  have hsecond (x) : (second x).Keeps := by
    unfold second
    extract_lets last
    have hlast (y) : (last y).Keeps :=
      .bind .me fun _ => .bind (.modify fun _ h => h.push _) fun _ => .ifDo () (.modMe _) fun _ => .park _
    split
    · exact .bind (.read ..) hlast
    · exact .bind (.pure _) hlast
  refine .eitherDo (.pure _) ?_ hsecond
  split
  · exact .read ..
  · exact .pure _

/-! ### Status records -/

theorem State.Inv.putStatus (h : s.Inv) (loc state addr word1) : (s.putStatus loc state addr word1).Inv := h.commitBytes _
theorem Act.Keeps.placeOf (p perm) : (Act.placeOf p perm : Act ℕ).Keeps := by
  refine .bind .me fun _ => .get_bind fun _ _ => ?_
  dsimp only
  split
  · exact .pure _
  · exact .pure _
  · exact .bind (.modify fun _ h => h.useEntry ..) fun _ => .pure _
  · exact .hold _
  · exact .fault ..
theorem Act.Keeps.check (f) : (Act.check f : Act Unit).Keeps := by
  unfold Act.check
  split
  · exact .fault ..
  · exact .pure _
theorem Act.Keeps.nearHandle (w) : (Act.nearHandle w : Act Unit).Keeps := by
  refine .bind .me fun _ => .get_bind fun _ _ => ?_
  split
  · exact .fault ..
  · exact .ite (.pure _) (.bind (.modify fun _ h => h.modHandle ..) fun _ => .fault ..)

/-! ### Sett cores' queues -/

theorem State.Inv.pokeSett (h : s.Inv) (n) : (s.pokeSett n).Inv := .ite (h.push _) h
theorem State.Inv.enqueueSett (h : s.Inv) (n c) : (s.enqueueSett n c).Inv := .ite ((h.modSett ..).pokeSett _) (h.modSett ..)

/-! ### NMC -/

theorem State.Inv.admitNmc (h : s.Inv) (uid ctx core blk rec recVa) : (s.admitNmc uid ctx core blk rec recVa).Inv := by
  grind only [State.admitNmc, State.Inv.enqueueSett, State.Inv.putStatus, State.Inv.freeWord]
theorem execNmc_keeps (h : s.Inv) (a b g) : InvAfter (execNmc a b g s) := by
  refine Act.Keeps.go (.issue _ _ _ _ (.bind (.ready ..) fun _ => .bind (.read ..) fun _ => .bind (.read ..) fun _ => .bind .me fun _ =>
    .get_bind fun _ _ => .bind (.check _) fun _ => .bind (.check _) fun _ => .bind (.placeOf ..) fun _ => .bind (.placeOf ..) fun _ =>
    .bind (.recall _) fun _ => .bind (.recall _) fun _ => .unlessDo () (.needLine _) fun _ => .get_bind fun _ _ =>
    .ifDo () (.nearHandle _) fun _ => .ite (.modMe _) (.modify fun _ h => h.admitNmc ..))) h

/-! ### NMLOAD -/

theorem State.Inv.admitLoad (h : s.Inv) (uid ctx core x y) : (s.admitLoad uid ctx core x y).Inv := by
  unfold State.admitLoad
  split
  · exact h
  · exact h.enqueueSett ..
theorem execNmload_keeps (h : s.Inv) (a b g) : InvAfter (execNmload a b g s) := by
  refine Act.Keeps.go (.issue _ _ _ _ (.bind (.ready ..) fun _ => .bind (.read ..) fun _ => .bind (.read ..) fun _ => .bind .me fun _ =>
    .get_bind fun s _ => ?_)) h
  extract_lets _ placed _
  have hplaced : (placed ()).Keeps := by
    refine .ite (.fault ..) (.bind (.placeOf ..) fun _ => .bind (.modify fun _ h => h.touchPlaces _) fun _ => .get_bind fun s _ => ?_)
    split
    · exact .fault ..
    · exact .ite (.modMe _) (.bind (.modify fun _ h => h.admitLoad ..) fun _ => .park _)
  refine .ite (.bind (.nearHandle _) fun _ => hplaced) (.ite (.bind (.fault ..) fun _ => hplaced)
    (.ite (.bind (.fault ..) fun _ => hplaced) ?_))
  split
  · exact .bind (.hold _) fun _ => hplaced
  · exact .ite hplaced (.bind (.fault ..) fun _ => hplaced)

/-! ### NMROW -/

theorem State.Inv.admitRows (h : s.Inv) (uid ctx core blk rec) : (s.admitRows uid ctx core blk rec).Inv := by
  unfold State.admitRows
  dsimp only
  split
  · exact .ite ((h.putStatus ..).putStatus ..) (.ite ((h.putStatus ..).putStatus ..) (.ite (((h.putStatus ..).modSett ..).push _)
      ((h.putStatus ..).modSett ..)))
  · exact (h.putStatus ..).putStatus ..
theorem execNmrow_keeps (h : s.Inv) (a b g) : InvAfter (execNmrow a b g s) := by
  refine Act.Keeps.go (.issue _ _ _ _ (.bind (.ready ..) fun _ => .bind (.read ..) fun _ => .bind (.read ..) fun _ => .bind .me fun _ =>
    .get_bind fun _ _ => .bind (.check _) fun _ => .bind (.check _) fun _ => .bind (.placeOf ..) fun _ => .bind (.placeOf ..) fun _ =>
    .bind (.recall _) fun _ => .bind (.recall _) fun _ => .unlessDo () (.needLine _) fun _ => .get_bind fun _ _ => ?_)) h
  dsimp only
  split
  · exact .bind (.hold _) fun _ => .ite (.modMe _) (.modify fun _ h => h.admitRows ..)
  · exact .ite (.modMe _) (.modify fun _ h => h.admitRows ..)
theorem State.Inv.alertAt (h : s.Inv) (stack) : (s.alertAt stack).2.Inv := by
  grind only [State.alertAt, State.Inv.choose, State.inv_iff]
theorem State.Inv.activate (h : s.Inv) (n row by') : (s.activate n row by').Inv :=
  .ite (((h.alertAt _).modSett ..).push _) ((h.alertAt _).modSett ..)
theorem State.Inv.sequence (h : s.Inv) (loc) : (s.sequence loc).Inv := by
  grind only [State.sequence, State.Inv.activate, State.Inv.choose]
theorem State.Inv.writeRow (h : s.Inv) (dst bytes) : (s.writeRow dst bytes).Inv := by
  have hs := h.sequence dst
  exact ⟨⟨Store.wf_foldl hs.mem .., hs.empty, hs.threads, hs.cores⟩, hs.frozen⟩
theorem State.Inv.runGroup (h : s.Inv) (g) : (s.runGroup g).1.Inv := by
  grind only [State.runGroup, State.Inv.meetError, State.Inv.writeRow, State.Inv.sequence, State.Inv.foldl]
theorem State.Inv.runGroups (h : s.Inv) (a) : (s.runGroups a).1.Inv := by
  induction a generalizing s with
  | nil => exact h
  | cons g gs ih =>
    have hs := h.runGroup g
    unfold State.runGroups
    split
    · next e =>
      rw [e] at hs
      exact hs
    · next e =>
      rw [e] at hs
      exact ih hs
theorem State.Inv.runRows (h : s.Inv) (c) : (s.runRows c).1.Inv := by
  grind only [State.runRows, State.Inv.runGroups, State.Inv.writeRow, State.Inv.foldl]
theorem execNmrowStop_keeps (h : s.Inv) (n) : InvAfter (execNmrowStop n s) := by
  refine invAfter_next.2 ?_
  split
  · exact h
  · refine .ite (h.push _) (.ite (.progressOf ?_ ..) (.push (.progressOf ?_ ..) _))
    · split
      · exact ((h.runRows _).modSett ..).putStatus ..
      · exact ((h.runRows _).modSett ..).putStatus ..
    · split
      · exact ((h.runRows _).modSett ..).putStatus ..
      · exact ((h.runRows _).modSett ..).putStatus ..

/-! ### NMSTAT -/

theorem execNmstat_keeps (h : s.Inv) (a b g) : InvAfter (execNmstat a b g s) :=
  Act.Keeps.go (.issue _ _ _ _ (.bind (.ready ..) fun _ => .bind (.read ..) fun _ => .bind .me fun _ => .get_bind fun _ _ =>
    .bind (.check _) fun _ => .bind (.placeOf ..) fun _ => .bind (.recall _) fun _ => .bind (.clean ..) fun _ =>
    .get_bind fun _ _ => .ite (.park _) (.write ..))) h
theorem State.Inv.sendNear (h : s.Inv) (kind uid ctx core x y) {s'} (e : s.sendNear kind uid ctx core x y = .ok s') : s'.Inv := by
  grind only [State.sendNear, State.Inv.admitNmc, State.Inv.admitLoad, State.Inv.admitRows]

/-! ### Programs on the sett cores -/

theorem State.Inv.installOverlay (h : s.Inv) (n va lines) : (s.installOverlay n va lines).Inv := by
  refine State.Inv.wakeAll ?_ _
  exact ⟨⟨h.mem, h.empty, Tab.rising_map h.threads _, h.cores⟩, h.frozen⟩
theorem State.Inv.popSett (h : s.Inv) (n) : (s.popSett n).Inv := (h.modSett ..).pokeSett _
theorem State.Inv.runProgram (h : s.Inv) (n c) : (s.runProgram n c).Inv := by
  grind only [State.runProgram, State.Inv.modSett, Tab.rising_insert, State.inv_iff]
theorem State.Inv.startProgram (h : s.Inv) (n hard) : (s.startProgram n hard).Inv := by
  grind only [State.startProgram, State.Inv.modThread, State.Inv.putStatus, State.Inv.popSett, State.Inv.touchPlaces, State.Inv.runProgram,
    State.Inv.push, State.Inv.faultWait]
theorem execNmProgramStop_keeps (h : s.Inv) (n state info) : InvAfter (execNmProgramStop n state info s) := by
  refine invAfter_next.2 ?_
  split
  · exact .ite (h.push _) (.progressOf (((h.putStatus ..).forget _).popSett _) ..)
  · exact h
theorem State.Inv.loadFor (h : s.Inv) (n base) : (s.loadFor n base).Inv := by
  unfold State.loadFor
  dsimp only
  split
  · exact h
  · split
    · exact (h.touchPlaces _).installOverlay ..
    · exact (h.touchPlaces _).faultWait ..
    · exact (h.touchPlaces _).carryBack ..
theorem execOverlayLoadComplete_keeps (h : s.Inv) (n base) : InvAfter (execOverlayLoadComplete n base s) := by
  refine invAfter_next.2 (.ite (h.push _) ?_)
  dsimp only
  split
  · refine .ite ?_ (h.loadFor ..)
    split
    · exact .ite ((((h.touchPlaces _).installOverlay ..).modThread ..).popSett _ |>.progressOf ..)
        (((h.touchPlaces _).installOverlay ..).push _)
    · exact (h.touchPlaces _).push _
  · exact h.loadFor ..
theorem State.Inv.overlayMiss (h : s.Inv) (u n t) : (s.overlayMiss u n t).Inv := by
  unfold State.overlayMiss
  dsimp only
  split
  · exact .ite ((h.modThread ..).push _) ((h.modThread ..).push _)
  · exact (h.modThread ..).push _

/-! ### Publication -/

theorem State.Inv.sendHeld (h : s.Inv) (o hd) : (s.sendHeld o hd).2.2.Inv := by
  grind only [State.sendHeld, State.Inv.record, State.Inv.choose, State.Inv.push, State.Inv.sendNear, State.Inv.count, State.Inv.faultWait]
theorem State.Inv.pumpBox (h : s.Inv) (o) : (s.pumpBox o).2.Inv := by
  grind only [State.pumpBox, State.Inv.sendHeld, State.Inv.modThread]
theorem State.Inv.pump (h : s.Inv) : s.pump.Inv := by
  refine .ite h ?_
  refine foldl_inv (P := fun a : List Outbox × State => a.2.Inv) (fun a o h => ?_) _ _ h
  have hs := State.Inv.pumpBox h o
  grind only
theorem State.Inv.publish (h : s.Inv) (u) : (s.publish u).Inv := by
  unfold State.publish
  split
  · exact h
  extract_lets s1 s2 s3 s4 s5 s6
  have h3 : s3.Inv := .foldl (fun _ _ h => h.wordChanged _) _ (.foldl (fun _ _ h => h.setFull ..) _ (h.commitBytes _))
  have h5 : s5.Inv := (h3.countCopied ..).modThread ..
  have h6 : s6.Inv := .ite h5 h5
  exact .ite (h6.progress _) h
theorem Act.Keeps.publish : Act.publish.Keeps := by
  refine .bind .me fun t => ?_
  extract_lets k
  have hk (x) : (k x).Keeps :=
    .bind .me fun _ => .get_bind fun _ _ => .ite (.park _) (.modify fun _ h => h.publish _)
  refine .ite (.get_bind fun s _ => ?_) (hk ())
  split
  · exact .bind (.hold _) fun _ => hk ()
  · exact .bind (.modMe _) fun _ => hk ()

/-! ### SPAWN -/

theorem Act.Keeps.runFits (d n) : (Act.runFits d n : Act Unit).Keeps := .bind .me fun _ => .ite .illegal (.pure _)
theorem Act.Keeps.andThen {m : Act α} {n : Act β} (hm : m.Keeps) (hn : n.Keeps) : (m *> n).Keeps := .bind hm fun _ => hn
theorem execSpawn_keeps (h : s.Inv) (d a b n g) : InvAfter (execSpawn d a b n g s) :=
  Act.Keeps.go (.andThen (.runFits ..) (.issue _ _ _ _ (.bind (.ready ..) fun _ => .bind (.read ..) fun _ => .bind (.readSrc ..) fun _ =>
    .bind (.target _) fun _ => .bind .me fun _ => .get_bind fun _ _ => .ite (.bind (.pop _) fun _ => .modMe _)
    (.ite (.fault ..) (.bind (.pop _) fun _ => .bind (.modify fun _ h => h.push _) fun _ => .park _))))) h

/-! ### Ends of threads -/

theorem execQuit_keeps (h : s.Inv) (g) : InvAfter (execQuit g s) := by
  refine Act.Keeps.go (.issue _ _ _ _ (.bind .me fun _ => .ite .illegal ?_)) h
  split
  · exact .eitherDo (.modify fun _ h => (h.modThread ..).push _) (.modify fun _ h => h.endThread _) fun _ => .stop
  · exact .bind .publish fun _ => .bind (.modify fun _ h => (h.progress _).endThread _) fun _ => .stop
theorem execYield_keeps (h : s.Inv) (g) : InvAfter (execYield g s) := by
  refine Act.Keeps.go (.issue _ _ _ _ (.bind .me fun _ => .get_bind fun _ _ => .ite .illegal ?_)) h
  dsimp only
  split
  · exact .pure _
  · exact .bind (.modMe _) fun _ => .bind (.modify fun _ h => (h.enterStock ..).enterSlot ..) fun _ => .stop
theorem execHend_keeps (h : s.Inv) (g) : InvAfter (execHend g s) :=
  Act.Keeps.go (.issue _ _ _ _ (.bind .me fun _ => .ite (.bind (.modify fun _ h => (h.progress _).endThread _) fun _ => .stop) .illegal)) h
theorem execPubl_keeps (h : s.Inv) (g) : InvAfter (execPubl g s) :=
  Act.Keeps.go (.issue _ _ _ _ (.bind .me fun _ => .ite .illegal (.bind .publish fun _ => .get_bind fun _ _ => .ite (.park _) (.pure _)))) h
theorem execSdrop_keeps (h : s.Inv) (g) : InvAfter (execSdrop g s) :=
  Act.Keeps.go (.issue _ _ _ _ (.bind .me fun _ => .ite .illegal (.bind (.modify fun _ h => (h.progress _).loseThread _) fun _ => .stop))) h

/-! ### Group sets -/

theorem State.Inv.joinSet (h : s.Inv) (ctx num step ms) : (s.joinSet ctx num step ms).Inv := by
  unfold State.joinSet
  split
  · exact h.putGroup _
  · exact h.putGroup _
theorem execJoin_keeps (h : s.Inv) (a b g) : InvAfter (execJoin a b g s) :=
  Act.Keeps.go (.issue _ _ _ _ (.bind (.ready ..) fun _ => .bind (.read ..) fun _ => .bind (.readSrc ..) fun _ =>
    .bind .me fun _ => .get_bind fun _ _ => .ite (.fault ..) (.bind (.pop _) fun _ => .modify fun _ h => h.joinSet ..))) h
theorem execLeave_keeps (h : s.Inv) (a g) : InvAfter (execLeave a g s) := by
  refine Act.Keeps.go (.issue _ _ _ _ (.bind (.ready ..) fun _ => .bind (.read ..) fun _ => .bind .me fun _ => .get_bind fun _ _ =>
    .bind (.pop _) fun _ => ?_)) h
  split
  · exact .pure _
  · exact .ite (.modify fun _ h => h.checkRound _) (.pure _)
theorem execGbar_keeps (h : s.Inv) (a g) : InvAfter (execGbar a g s) := by
  refine Act.Keeps.go (.issue _ _ _ _ (.bind (.ready ..) fun _ => .bind (.read ..) fun _ => .bind .me fun _ => .get_bind fun _ _ => ?_)) h
  dsimp only
  split
  · exact .fault ..
  refine .ite (.fault ..) ?_
  split
  · exact .ite (.bind (.pop _) fun _ => .modMe _) (.bind (.pop _) fun _ => .bind (.modMe _) fun _ => .bind (.modify fun _ h => h.after ..) fun _ =>
      .park _)
  · exact .bind (.pop _) fun _ => .bind (.modMe _) fun _ => .ifDo () (.modify fun _ h => (h.checkRound _).progress _) fun _ => .parked

/-! ### MIGR -/

theorem execMigr_keeps (h : s.Inv) (a b g) : InvAfter (execMigr a b g s) := by
  refine Act.Keeps.go (.issue _ _ _ _ (.bind (.ready ..) fun _ => .bind (.read ..) fun _ => .bind (.readSrc ..) fun _ =>
    .bind (.address ..) fun _ => .bind .me fun _ => .get_bind fun _ _ => .ite (.pop _) (.ite (.fault ..) (.ite (.hold _) ?_)))) h
  split
  · exact .pop _
  · exact .ite (.pop _) (.ite (.fault ..) (.bind (.pop _) fun _ => .bind (.modMe _) fun _ => .travel ..))

/-! ### SEND -/

theorem execSend_keeps (h : s.Inv) (d a n g) : InvAfter (execSend d a n g s) :=
  Act.Keeps.go (.andThen (.runFits ..) (.issue _ _ _ _ (.bind (.ready ..) fun _ => .bind (.read ..) fun _ => .bind .me fun _ =>
    .get_bind fun _ h => .ite (.bind (.pop _) fun _ => .modMe _) (.ite (.fault ..) (.ite
      (.ite (.fault ..) (.bind (.set (h.choose 2)) fun _ => .ite (.fault ..) (.pop _)))
      (.ite (.fault ..) (.ite (.park _) (.bind (.pop _) fun _ => .modify fun _ h => h.push _)))))))) h

/-! ### Watches -/

theorem execWatch_keeps (h : s.Inv) (d a g) : InvAfter (execWatch d a g s) := by
  refine Act.Keeps.go (.issue _ _ _ _ (.bind (.ready ..) fun _ => .bind (.read ..) fun _ => .bind (.address ..) fun _ => .bind .me fun _ =>
    .ite (.fault ..) (.bind (.recall _) fun _ => .bind (.recall _) fun _ => .bind (.clean ..) fun _ => .bind (.clean ..) fun _ =>
    .get_bind fun _ _ => ?_))) h
  have refuse (e) : (Act.pop [a] >>= fun _ => Act.awaitReply d e).Keeps := .bind (.pop _) fun _ => .awaitReply ..
  refine .ite (refuse _) ?_
  split
  · exact .hold _
  · exact .ite (refuse _) (.bind (.pop _) fun _ => .bind (.modify fun _ h => h.useEntry _ false) fun _ => .awaitReply ..)
theorem execUnwatch_keeps (h : s.Inv) (a g) : InvAfter (execUnwatch a g s) :=
  Act.Keeps.go (.issue _ _ _ _ (.bind (.ready ..) fun _ => .bind (.read ..) fun _ => .bind .me fun _ => .bind (.pop _) fun _ =>
    .modify fun _ h => h)) h

/-! ### LAUNCH -/

theorem execLaunch_keeps (h : s.Inv) (d a g) : InvAfter (execLaunch d a g s) := by
  refine Act.Keeps.go (.issue _ _ _ _ (.bind (.ready ..) fun _ => .bind (.read ..) fun _ => .bind (.address ..) fun _ => .bind .me fun _ =>
    .get_bind fun _ _ => ?_)) h
  extract_lets _ _ go
  have hgo (loc) : (go loc).Keeps := .bind (.clean ..) fun _ => .bind (.pop _) fun _ => .ite (.modMe _) (.awaitReply ..)
  split
  · exact .fault ..
  · exact .hold _
  · exact hgo _
  · exact hgo _
  · exact .bind (.modify fun _ h => h.useEntry ..) fun _ => hgo _

/-! ### Launch records -/

theorem State.Inv.launchStatus (h : s.Inv) (req status) : (s.launchStatus req status).Inv :=
  .ite (.ite (h.fillPend ..) (h.push _)) (.ite h (h.record ..))
theorem State.Inv.admitLaunch (h : s.Inv) (req hard) : (s.admitLaunch req hard).Inv := by
  unfold State.admitLaunch
  split
  · exact h.faultWait ..
  · exact .ite (h.launchStatus ..) (h.faultThread ..)
  · exact h.launchStatus ..
  · extract_lets key s1 s2 s3
    have h2 : s2.Inv := h.modCtx ..
    have h3 : s3.Inv := .ite h2 (h2.joinSet ..)
    exact (h3.launchStatus ..).push _
theorem execHostLaunchWrite_keeps (h : s.Inv) (page off words) : InvAfter (execHostLaunchWrite page off words s) :=
  invAfter_next.2 (.ite h (.ite (h.push _) (h.record ..)))

/-! ### Placement -/

theorem execThreadPlacement_keeps (h : s.Inv) : InvAfter (execThreadPlacement s) := by
  refine invAfter_next.2 ?_
  split
  · exact (h.dispatch ‹_›).push _
  · exact .ite (h.push _) h
theorem execDispatchPreemption_keeps (h : s.Inv) : InvAfter (execDispatchPreemption s) := by
  refine invAfter_next.2 ?_
  split
  · exact (h.modThread ..).push _
  · exact h
theorem State.Inv.takeThread (h : s.Inv) (u) : (s.takeThread u).Inv := by
  unfold State.takeThread
  dsimp only
  split
  · exact h.dropRing _
  · split
    · exact .ite (h.dropRing _) ((h.dropRing _).saveThread _)
    · exact (h.dropRing _).modThread ..
theorem execThreadPreemption_keeps (h : s.Inv) (u) : InvAfter (execThreadPreemption u s) := by
  refine invAfter_next.2 ?_
  split
  · exact .ite (.ite h (h.takeThread _)) h
  · exact h
theorem execLaunchAgeing_keeps (h : s.Inv) (key) : InvAfter (execLaunchAgeing key s) := by
  refine invAfter_next.2 ?_
  split
  · exact h
  split
  · exact h
  refine .ite h ?_
  exact ⟨⟨h.mem, h.empty, Tab.rising_map h.threads _, h.cores⟩, h.frozen⟩

/-! ### Exchanges -/

theorem execLocalContextExchange_keeps (h : s.Inv) (c ctx) : InvAfter (execLocalContextExchange c ctx s) := by
  grind only [execLocalContextExchange, State.Inv.exchange, State.Inv.modCtx, State.Inv.push, invAfter_next]
theorem execEngineContextExchange_keeps (h : s.Inv) (c ctx) : InvAfter (execEngineContextExchange c ctx s) := by
  grind only [execEngineContextExchange, State.Inv.wakeAll, State.Inv.modCore, State.Inv.progress, State.Inv.modCtx, State.Inv.push,
    State.inv_iff, invAfter_next]

/-! ### Slots -/

theorem State.Inv.settle (h : s.Inv) (u c) : (s.settle u c).Inv := by
  unfold State.settle
  dsimp only
  split
  · exact h
  · split
    · exact .ite (h.enterSlot ..) (h.enterStock ..)
    · exact h.enterStock ..
theorem execLoadBalance_keeps (h : s.Inv) (c) : InvAfter (execLoadBalance c s) := by
  refine invAfter_next.2 (.ite h ?_)
  dsimp only
  split
  · exact h
  · refine .ite h ?_
    split
    · exact h
    · exact .push (.checkClaim (((h.modThread ..).count ..).settle ..) _) _

/-! ### SPAWN packets -/

theorem execSpawnPacketAccept_keeps (h : s.Inv) (p) : InvAfter (execSpawnPacketAccept p s) := by
  grind only [execSpawnPacketAccept, State.Inv.settle, State.Inv.record, State.Inv.faultThread, State.Inv.progress, State.Inv.push,
    Tab.rising_insert, State.inv_iff, invAfter_next]

/-! ### Migration -/

theorem execMigrationDeparture_keeps (h : s.Inv) (u owner mask) : InvAfter (execMigrationDeparture u owner mask s) := by
  refine invAfter_next.2 ?_
  split
  · exact h
  · refine .ite h (.ite (h.push _) (.push ?_ _))
    split
    · exact .count (.ite ((h.modThread ..).pokeHandler _) (((h.modThread ..).checkClaim _).push _)) ..
    · exact (h.modThread ..).modSett ..
    · exact h.modThread ..
theorem execMigrationArrival_keeps (h : s.Inv) (u owner) : InvAfter (execMigrationArrival u owner s) := by
  refine invAfter_next.2 ?_
  split
  · exact h
  · exact .ite h (.ite (.ite (h.loseOrRequeue _) (h.settle ..)) ((h.modThread ..).modSett ..))

/-! ### The start of a matrix command -/

theorem State.Inv.stopPart (h : s.Inv) (core c r) : (s.stopPart core c r).Inv := .popCmd (((h.modMat ..).count ..).modThread ..) ..
theorem State.Inv.runPart (h : s.Inv) (core c part) : (s.runPart core c part).Inv := by
  unfold State.runPart
  dsimp only
  split
  · exact (h.modHead ..).engStall ..
  · exact (h.modHead ..).push _
  · exact ((h.modHead ..).push _).wakeOwned
  · exact ((h.modHead ..).push _).wakeOwned
  · exact .ite (h.stopPart ..) ((h.modHead ..).push _)
theorem State.Inv.matStart (h : s.Inv) (core hard) : (s.matStart core hard).Inv := by
  unfold State.matStart
  split
  · exact h
  · refine .ite (.ite (h.modHead ..) h) (.ite (.push (.ite (h.modHead ..) h) _) ?_)
    split
    · exact .ite (.ringStart (.ite (h.modHead ..) h) ..) (.pokeRing (.ite (h.modHead ..) h) _)
    · exact .runPart (.touchSource (.ite (h.modHead ..) h) _) ..
    · exact .runPart (.touchSource (.ite (h.modHead ..) h) _) ..
    · exact .engStart (.ite (h.modHead ..) h) ..

/-! ### Sampling and prospect forms: issue -/

theorem execSnormClr_keeps (h : s.Inv) (g) : InvAfter (execSnormClr g s) := Act.Keeps.go (.engineForm _ _ _ _ (.matAdmit ..)) h
theorem Act.Keeps.snorm (op ofA a b g) : (Act.snorm op ofA a b g : Act Unit).Keeps :=
  .engineForm _ _ _ _ (.bind (.read ..) fun _ => .bind (.read ..) fun _ => .bind .mat fun _ => .eitherDo (.tile ..) (.tile ..) fun _ =>
    .ite (.fault ..) (.matAdmit ..))
theorem Act.Keeps.snwords (op store a g) : (Act.snwords op store a g : Act Unit).Keeps :=
  .engineForm _ _ _ _ (.bind (.read ..) fun _ => .bind .mat fun _ => .bind (.extent ..) fun _ => .ite (.matAdmit ..) (.matAdmit ..))
theorem execSalias_keeps (h : s.Inv) (g) : InvAfter (execSalias g s) := Act.Keeps.go (.engineForm _ _ _ _ (.matAdmit ..)) h
theorem execSseed_keeps (h : s.Inv) (a g) : InvAfter (execSseed a g s) :=
  Act.Keeps.go (.engineForm _ _ _ _ (.bind (.read ..) fun _ => .matAdmit ..)) h
theorem execSrun_keeps (h : s.Inv) (x a b g) : InvAfter (execSrun x a b g s) :=
  Act.Keeps.go (.engineForm _ _ _ _ (.bind (.read ..) fun _ => .bind (.read ..) fun _ => .bind .mat fun _ => .bind (.tile ..) fun _ =>
    .bind (.tile ..) fun _ => .ite (.fault ..) (.matAdmit ..))) h
theorem execSvar_keeps (h : s.Inv) (x a g) : InvAfter (execSvar x a g s) := Act.Keeps.go (.engineForm _ _ _ _ (.matAdmit ..)) h
theorem Act.Keeps.stream (p n codes) : (Act.stream p n codes : Act (List ℕ)).Keeps :=
  .bind (.extent ..) fun _ => .bind (.needTable ..) fun _ => .pure _
theorem execPload_keeps (h : s.Inv) (a b g) : InvAfter (execPload a b g s) :=
  Act.Keeps.go (.engineForm _ _ _ _ (.bind (.read ..) fun _ => .bind (.read ..) fun _ => .bind .mat fun _ => .ite (.fault ..)
    (.bind (.stream ..) fun _ => .bind (.stream ..) fun _ => .matAdmit ..))) h
theorem execPscore_keeps (h : s.Inv) (a g) : InvAfter (execPscore a g s) :=
  Act.Keeps.go (.engineForm _ _ _ _ (.bind (.read ..) fun _ => .bind .mat fun _ => .ite (.fault ..) (.bind (.stream ..) fun _ =>
    .matAdmit ..))) h
theorem execPsel_keeps (h : s.Inv) (a g) : InvAfter (execPsel a g s) :=
  Act.Keeps.go (.engineForm _ _ _ _ (.bind (.read ..) fun _ => .bind .mat fun _ => .bind (.extent ..) fun _ => .matAdmit ..)) h
theorem execAssay_keeps (h : s.Inv) (x a b g) : InvAfter (execAssay x a b g s) :=
  Act.Keeps.go (.engineForm _ _ _ _ (.bind (.read ..) fun _ => .bind (.read ..) fun _ => .bind .mat fun _ => .bind (.stream ..) fun _ =>
    .bind (.stream ..) fun _ => .bind .me fun _ => .get_bind fun _ _ => .matAdmit ..)) h
theorem execAread_keeps (h : s.Inv) (a b g) : InvAfter (execAread a b g s) :=
  Act.Keeps.go (.engineForm _ _ _ _ (.bind (.read ..) fun _ => .matAdmit ..)) h

/-! ### Replies -/

theorem State.Inv.reply (h : s.Inv) (u reg v) : (s.reply u reg v).Inv := by
  unfold State.reply
  dsimp only
  split
  · exact h
  · split
    · exact h.modThread ..
    · exact h.modThread ..
    · exact .ite (h.fillPend ..) h

/-! ### Port words -/

theorem execPortWordDelivery_keeps (h : s.Inv) (c e v ctl) : InvAfter (execPortWordDelivery c e v ctl s) := by
  refine invAfter_next.2 (.ite h ?_)
  split
  · exact h.modThread ..
  · exact (h.modCore ..).wakePorts _

/-! ### Messages and the handler slot -/

theorem State.Inv.requeueMessage (h : s.Inv) (c m) : (s.requeueMessage c m).Inv := h
theorem execMessageArrival_keeps (h : s.Inv) (c m) : InvAfter (execMessageArrival c m s) :=
  invAfter_next.2 (.ite (.ite h h) (.ite h (.ite (h.requeueMessage ..) (((h.modCore ..).endIdle _).pokeHandler _))))
theorem State.Inv.startHandler (h : s.Inv) (c l pc regs) : (s.startHandler c l pc regs).Inv := by
  grind only [State.startHandler, State.Inv.wakeAll, State.Inv.modCore, State.Inv.progress, State.Inv.count, Tab.rising_insert, State.inv_iff]
theorem execMessageHandlerStart_keeps (h : s.Inv) (c) : InvAfter (execMessageHandlerStart c s) := by
  refine invAfter_next.2 (.ite ?_ h)
  dsimp only
  split
  · exact h
  · split
    · exact ((h.modCore ..).wakeAll _).pokeHandler _
    · exact (h.modCore ..).startHandler ..
theorem execLightHandlerStart_keeps (h : s.Inv) (c) : InvAfter (execLightHandlerStart c s) := by
  refine invAfter_next.2 (.ite ?_ h)
  split
  · exact h
  · refine .servePorts (.wakePorts ?_ _) _
    split
    · exact (h.modCore ..).pokeHandler _
    · exact (h.modCore ..).startHandler ..

/-! ### The arbiters -/

theorem execChunkCommit_keeps (h : s.Inv) (u) : InvAfter (execChunkCommit u s) := by
  refine invAfter_next.2 ?_
  split
  · exact h
  rename_i t _
  split
  · exact h
  rename_i c _
  have hs := h.tryCommit u t c
  generalize s.tryCommit u t c = r at hs
  obtain ⟨_ | _ | _, s⟩ := r
  · exact hs.modThread ..
  · exact hs
  · exact hs.push _

/-! ### Limits and releases -/

theorem execWaitaTimeout_keeps (h : s.Inv) (u stamp) : InvAfter (execWaitaTimeout u stamp s) := by
  refine invAfter_next.2 ?_
  split
  · exact h
  · split
    · exact .ite ((h.modThread ..).progress _) h
    · exact h
theorem execBarrierRelease_keeps (h : s.Inv) (u stamp) : InvAfter (execBarrierRelease u stamp s) := by
  refine invAfter_next.2 ?_
  split
  · exact h
  · split
    · exact .ite ((h.modThread ..).progress _) h
    · exact h

/-! ### Accesses at their home -/

theorem execFullEmptyHomeAccess_keeps (h : s.Inv) (a) : InvAfter (execFullEmptyHomeAccess a s) :=
  invAfter_next.2 (.ite h (.ite ((h.faultThread ..).wakePorts _) (.ite (h.push _) (.ite ((h.touchPlaces _).faultThread ..)
    ((h.touchPlaces _).atHome _)))))
theorem execRemoteAccessArrival_keeps (h : s.Inv) (a) : InvAfter (execRemoteAccessArrival a s) := by
  refine invAfter_next.2 ?_
  split
  · exact h
  · exact .ite (h.faultThread ..) (.ite (h.push _) (.ite (h.faultThread ..) ((h.modThread ..).push _)))
theorem execAtomicApply_keeps (h : s.Inv) (a) : InvAfter (execAtomicApply a s) := by
  refine invAfter_next.2 ?_
  split
  · exact .ite (h.faultThread ..) (.ite (h.push _) (.ite ((h.touchPlaces _).faultThread ..) (.ite ((h.touchPlaces _).faultThread ..)
      (((h.touchPlaces _).writeFor ..).push _))))
  · exact h

/-! ### Remote fills -/

theorem State.Inv.remoteFill (h : s.Inv) (ctx target value) : (s.remoteFill ctx target value).2.Inv := by
  grind only [State.remoteFill, State.Inv.fillPend]
theorem execRfillDelivery_keeps (h : s.Inv) (u reg target value) : InvAfter (execRfillDelivery u reg target value s) := by
  grind only [execRfillDelivery, State.Inv.remoteFill, State.Inv.choose, State.Inv.progress, State.Inv.push, invAfter_next]

/-! ### Posted stores -/

theorem State.Inv.spend (h : s.Inv) (c k) : (s.spend c k).Inv := (h.modCore ..).wakeAll _
theorem execPostedStoreApply_keeps (h : s.Inv) (c k) : InvAfter (execPostedStoreApply c k s) := by
  refine invAfter_next.2 ?_
  split
  · exact h
  · refine .ite h (.ite (h.push _) ?_)
    split
    · exact (h.spend ..).push _
    · exact .ite ((h.spend ..).push _) (h.faultWait ..)
    · exact .ite (h.push _) (.ite (((h.touchPlaces _).spend ..).push _) (.push (((h.touchPlaces _).postWrite ..).spend ..) _))
    · exact .ite (.ite (h.push _) (.ite (((h.touchPlaces _).spend ..).push _) (.push (((h.touchPlaces _).postWrite ..).spend ..) _)))
        ((h.spend ..).push _)
    · exact .ite ((h.useEntry ..).push _) (.ite (.push (((h.useEntry ..).touchPlaces _).spend ..) _)
        (.push (.spend (((h.useEntry ..).touchPlaces _).postWrite ..) ..) _))
theorem State.Inv.freeEntry (h : s.Inv) (c k) : (s.freeEntry c k).Inv := (h.modCore ..).wakeAll _
theorem execPostedStoreRefusal_keeps (h : s.Inv) (c k) : InvAfter (execPostedStoreRefusal c k s) := by
  refine invAfter_next.2 ?_
  dsimp only
  split
  · exact h
  · split
    · exact (h.freeEntry ..).modThread ..
    · exact (h.freeEntry ..).record ..

/-! ### Engine commands start -/

theorem State.Inv.startEngine (h : s.Inv) (c e hard) : (s.startEngine c e hard).Inv := by
  cases e with
  | vector => exact h.vecStart ..
  | matrix =>
    dsimp only [State.startEngine]
    split
    · split
      · exact .ite (h.ringStart ..) (h.pokeRing _)
      · exact h.matStart ..
    · exact h
  | copy => exact h.copyStart ..
theorem execTloadBuildComplete_keeps (h : s.Inv) (c k) : InvAfter (execTloadBuildComplete c k s) := (h.modCore ..).wakeAll _

/-! ### The Bed fault queue -/

theorem State.Inv.wakeWaiter (h : s.Inv) (a) : (s.wakeWaiter a).Inv := by
  cases a with
  | thread u =>
    dsimp only [State.wakeWaiter]
    split
    · exact h
    split
    · exact h.modThread ..
    · exact h.push _
    · exact h
  | engine c e => exact (h.modHead ..).push _
  | hop | handle | launch | near | post => exact h.push _
  | held => exact h
theorem State.Inv.failWaiter (h : s.Inv) (a) : (s.failWaiter a).Inv := by
  cases a with
  | thread u =>
    dsimp only [State.failWaiter]
    split
    · exact h
    split
    · exact .ite ((h.modThread ..).push _) (h.carryBack ..)
    · exact h.faultThread ..
    · exact h.carryBack ..
    · exact h
  | engine c e => exact (h.modHead ..).startEngine ..
  | hop ctx n => exact h.completeHop ..
  | handle cmd => exact h.halloc ..
  | launch req => exact h.admitLaunch ..
  | near n => exact h.startProgram ..
  | post c k => exact (h.spend ..).push _
  | held => exact h
theorem execFaultQueueResolution_keeps (h : s.Inv) (ctx page ok) : InvAfter (execFaultQueueResolution ctx page ok s) := by
  refine invAfter_next.2 ?_
  dsimp only
  split
  · exact h
  · exact .foldl (fun _ _ h => .ite (h.wakeWaiter _) (h.failWaiter _)) _ h

/-! ### Fences -/

theorem execFenceCompletion_keeps (h : s.Inv) (u scope) : InvAfter (execFenceCompletion u scope s) := by
  refine invAfter_next.2 ?_
  split
  · exact h
  · refine .ite h (.ite (h.push _) (.progress ?_ _))
    exact h.modThread u Thread.finish
theorem execXfenceCompletion_keeps (h : s.Inv) (u ctx base len stamp) : InvAfter (execXfenceCompletion u ctx base len stamp s) := by
  grind only [execXfenceCompletion, State.Inv.modThread, State.Inv.writeBackLine, State.Inv.progress, State.Inv.push, State.Inv.foldl,
    State.inv_iff, invAfter_next]

/-! ### Threads that end -/

theorem State.Inv.decideChunk (h : s.Inv) (u) : (s.decideChunk u).Inv := by
  unfold State.decideChunk
  split
  · exact h
  split
  · exact h
  rename_i t _ _ c _
  have hs := (h.choose 2).tryCommit u t c
  refine .ite h (.ite (h.choose 2) ?_)
  split
  · exact (congrArg (fun r : Commit × State => r.2.Inv) ‹_›).mp hs
  · exact h.choose 2

/-! ### Face fence -/

theorem State.Inv.refuseWaiters (h : s.Inv) (mask) : (s.refuseWaiters mask).Inv := by
  grind only [State.refuseWaiters, State.Inv.wakePorts, State.Inv.faultThread, State.Inv.foldl, State.inv_iff]
theorem State.Inv.redressFenced (h : s.Inv) (mask) : (s.redressFenced mask).Inv := .foldl (fun _ _ h => .ite (h.queueRedress _) h) _ h
theorem State.Inv.fenceFaces (h : s.Inv) (m) : (s.fenceFaces m).Inv := by
  unfold State.fenceFaces
  extract_lets _ users s1 d2 s2 s3 s4
  refine .ite h ?_
  have h1 : s1.Inv := .foldl (fun _ _ h => h.decideChunk _) _ h
  have h2 : s2.Inv := h1
  have h3 : s3.Inv := .foldl (fun _ _ h => h.loseOrRequeue _) _ h2
  have h4 : s4.Inv :=
    ⟨⟨Tab.wf_filter h3.mem _, Tab.wf_filter h3.empty _, h3.threads, Tab.rising_filter (Tab.rising_map h3.cores _) _⟩, h3.frozen⟩
  exact ((h4.refuseWaiters _).wakeOwned.redressFenced _).push _
theorem execFaceFailure_keeps (h : s.Inv) (face) : InvAfter (execFaceFailure face s) := invAfter_next.2 (.ite (h.fenceFaces _) h)
theorem execFaceReset_keeps (h : s.Inv) (mask) : InvAfter (execFaceReset mask s) := by
  grind only [execFaceReset, State.Inv.push, State.inv_iff, invAfter_next]

/-! ### Stacks, links, ports and the Bed -/

theorem State.Inv.loseStack (h : s.Inv) (stack) : (s.loseStack stack).Inv :=
  .ite h (.foldl (fun _ _ h => .ite h (.ite (h.modHandle ..) (.ite (h.pierce ..) (.ite (h.queueRedress _) h)))) _ h)
theorem execHostPortLoss_keeps (h : s.Inv) (port) : InvAfter (execHostPortLoss port s) := by
  unfold execHostPortLoss
  extract_lets drop n s1
  have hdrop (acc e) (h : acc.2.Inv) : (drop acc e).2.Inv := by
    grind only [State.Inv.choose, State.Inv.freeWord, State.Inv.record]
  exact foldl_inv (P := fun a : List Event × State => a.2.Inv) hdrop _ _ h
theorem State.Inv.pushFirst (h : s.Inv) (e) : (s.pushFirst e).Inv := h

/-! ### The life of a context -/

theorem State.Inv.pageErr (h : s.Inv) (i) : (s.pageErr i).Inv := h.modPage ..
theorem State.Inv.releaseAborted (h : s.Inv) (i) : (s.releaseAborted i).Inv :=
  .ite (.modPage (.foldl (fun _ _ h => h.loseOrRequeue _) _ h) ..) h
theorem execContextStart_keeps (h : s.Inv) (i) : InvAfter (execContextStart i s) :=
  invAfter_next.2 (.ite h (.ite (((h.releaseAborted _).modPage ..).push _) (h.pageErr _)))
theorem execContextStopDispatch_keeps (h : s.Inv) (i) : InvAfter (execContextStopDispatch i s) :=
  invAfter_next.2 (.ite h (.ite (h.modPage ..) (h.pageErr _)))
theorem State.Inv.dropNear (h : s.Inv) (ctx n q) : (s.dropNear ctx n q).Inv := by
  unfold State.dropNear
  extract_lets mine s1 s2
  have h1 : s1.Inv := by
    unfold s1
    split
    · exact .ite (h.forget _) h
    · exact h
  have h2 : s2.Inv := h1.modSett ..
  refine .ite (.pokeSett ?_ _) h2
  exact h2
theorem State.Inv.dropContext (h : s.Inv) (ctx) : (s.dropContext ctx).Inv := by
  unfold State.dropContext
  extract_lets s1 s2 users s3
  have h1 : s1.Inv := ⟨⟨h.mem, h.empty, h.threads, Tab.rising_map h.cores _⟩, h.frozen⟩
  have h2 : s2.Inv := .foldl (fun _ _ h => h.dropNear ..) _ h1
  have h3 : s3.Inv := .foldl (fun _ _ h => h.endThread _) _ h2
  exact .foldl (fun _ _ h => .foldl (fun _ _ h => .ite h (h.push _)) _ h) _ h3.wakeOwned
theorem State.Inv.endContext (h : s.Inv) (i) : (s.endContext i).Inv := ((h.dropContext _).record ..).modPage ..
theorem execContextEnd_keeps (h : s.Inv) (i) : InvAfter (execContextEnd i s) :=
  invAfter_next.2 (.ite h (.ite (h.pageErr _) ((h.releaseAborted _).endContext _)))
theorem execHostWdogWrite_keeps (h : s.Inv) (i v) : InvAfter (execHostWdogWrite i v s) := invAfter_next.2 (.ite h (h.modPage ..))
theorem execHostErrClear_keeps (h : s.Inv) (i) : InvAfter (execHostErrClear i s) := invAfter_next.2 (.ite h (h.modPage ..))

/-! ### Messages from the host -/

theorem execHostMessagePush_keeps (h : s.Inv) (i off words) : InvAfter (execHostMessagePush i off words s) :=
  invAfter_next.2 (.ite h (.ite (h.record ..) (.ite (h.record ..) (h.push _))))

/-! ### Registers that the host writes -/

theorem State.Inv.ctxRegister (h : s.Inv) (i off v) : (s.ctxRegister i off v).Inv := by
  unfold State.ctxRegister
  extract_lets p whenStopped put debug sysPut
  have hput (f) : (put f).Inv := h.modPage ..
  have hwhenStopped (f) : (whenStopped f).Inv := .ite (h.modPage ..) (h.pageErr _)
  have hdebug {s'} (hs : s'.Inv) : (debug s').Inv := .ite hs (h.pageErr _)
  have hsysPut : sysPut.Inv := .ite h (hwhenStopped _)
  clear_value put whenStopped debug sysPut
  repeat' apply State.Inv.ite
  all_goals grind only [State.Inv.pushFirst, State.Inv.pageErr, State.Inv.modPage]
theorem State.Inv.devRegister (h : s.Inv) (off v) : (s.devRegister off v).Inv := by
  unfold State.devRegister
  extract_lets put ws
  have hput (f) : (put f).Inv := h
  clear_value put
  repeat' apply State.Inv.ite
  all_goals grind only [State.Inv.pushFirst, State.inv_iff]
theorem execHostRegisterWrite_keeps (h : s.Inv) (off v) : InvAfter (execHostRegisterWrite off v s) :=
  invAfter_next.2 (.ite h (.ite (h.devRegister ..) (.ite h (.ite (h.ctxRegister ..) h))))

/-! ### Translation invalidation -/

theorem State.Inv.retranslate (h : s.Inv) (p u) : (s.retranslate p u).Inv := by
  unfold State.retranslate
  split
  · exact h
  · refine .modThread ?_ ..
    split
    · exact .ite (h.squash ..) (.ite (h.squash ..) h)
    · exact .ite (h.squash ..) h
theorem State.Inv.reissue (h : s.Inv) (p) : (s.reissue p).Inv := .wakeAll (.foldl (fun _ _ h => h.giveUp _) _ h) _
theorem execTranslationInvalidation_keeps (h : s.Inv) (i) : InvAfter (execTranslationInvalidation i s) := by
  refine invAfter_next.2 (.ite h ?_)
  extract_lets s1 s2 users s3
  have h1 : s1.Inv := h.modPage ..
  have h2 : s2.Inv := h1
  have h3 : s3.Inv := .foldl (fun _ _ h => h.retranslate ..) _ h2
  exact (h3.reissue _).push _
theorem execTranslationInvalidationComplete_keeps (h : s.Inv) (i) : InvAfter (execTranslationInvalidationComplete i s) :=
  invAfter_next.2 (.ite (h.push _) (h.modPage ..))

/-! ### The debug window -/

theorem State.Inv.haltAt (h : s.Inv) (u) : (s.haltAt u).Inv := by
  unfold State.haltAt
  split
  · exact h
  · refine .ite h ?_
    split
    · exact h.modThread ..
    · exact h.modThread ..
    · exact h.modThread ..
    · exact .ite (h.haltThread _) ((h.giveUp _).haltThread _)
    · exact (h.giveUp _).haltThread _
    · exact (h.giveUp _).haltThread _
    · exact (h.giveUp _).haltThread _
    · exact ((h.withdraw ..).giveUp _).haltThread _
    · exact h.haltThread _
theorem execDebugHalt_keeps (h : s.Inv) (i v) : InvAfter (execDebugHalt i v s) :=
  invAfter_next.2 (.ite h (.ite (.foldl (fun _ _ h => h.haltAt _) _ h) (h.pageErr _)))
theorem execDebugView_keeps (h : s.Inv) (i u) : InvAfter (execDebugView i u s) := by
  refine invAfter_next.2 ?_
  split
  · exact h
  · refine .ite h (.ite (h.push _) (.modPage (.commitBytes ?_ _) ..))
    exact h
theorem State.Inv.resumeThread (h : s.Inv) (u) : (s.resumeThread u).Inv := h.modThread ..
theorem execDebugResume_keeps (h : s.Inv) (i v) : InvAfter (execDebugResume i v s) :=
  invAfter_next.2 (.ite h (.ite (.foldl (fun _ _ h => h.resumeThread _) _ h) (h.pageErr _)))
theorem execDebugDetach_keeps (h : s.Inv) (i) : InvAfter (execDebugDetach i s) :=
  invAfter_next.2 (.ite h (.modPage (.foldl (fun _ _ h => h.resumeThread _) _ h) ..))
theorem execDebuggerRegisterWrite_keeps (h : s.Inv) (i u reg v) : InvAfter (execDebuggerRegisterWrite i u reg v s) := by
  refine invAfter_next.2 ?_
  split
  · exact h
  · exact .ite h (.ite (h.pageErr _) (.ite h (.ite (h.modThread ..) (.ite (h.modThread ..) h))))

/-! ### The watchdog -/

theorem State.Inv.dogTrap (h : s.Inv) (wdog u) : (s.dogTrap wdog u).Inv := by
  grind only [State.dogTrap, State.Inv.recordThread, State.Inv.dropRing, State.Inv.giveUp, State.Inv.faultThread, State.Inv.withdraw]
theorem State.Inv.abortSave (h : s.Inv) (i c) : (s.abortSave i c).Inv := by
  unfold State.abortSave
  extract_lets p s1 s2 s3 s4 imaged users
  have h2 : s2.Inv := (h.record ..).modPage ..
  have h3 : s3.Inv := h2
  have h4 : s4.Inv := h3.fenceFaces _
  exact .ite (h4.modPage ..) ((State.Inv.foldl (fun _ _ h => h.loseOrRequeue _) _ h4).push _)
theorem execWatchdogExpiry_keeps (h : s.Inv) (ctx) : InvAfter (execWatchdogExpiry ctx s) := by
  refine invAfter_next.2 ?_
  split
  · exact h
  · refine .ite h ?_
    split
    · exact h.abortSave ..
    · exact .ite (h.endContext _) (.modPage (.foldl (fun _ _ h => h.dogTrap ..) _ h) ..)

/-! ### CXL.mem -/

theorem execHostCxlWrite_keeps (h : s.Inv) (off bytes) : InvAfter (execHostCxlWrite off bytes s) :=
  invAfter_next.2 (.ite h (.ite (h.pushFirst _) (h.commitBytes _)))
theorem execHostCxlRead_keeps (h : s.Inv) (off n) : InvAfter (execHostCxlRead off n s) :=
  invAfter_next.2 (.ite h (h.touchPlaces _))

/-! ### Accesses of other devices -/

theorem State.Inv.serveRemote (h : s.Inv) (again a loc) : (s.serveRemote again a loc).Inv := by
  grind only [State.serveRemote, State.Inv.touchPlaces, State.Inv.commitWord, State.Inv.wordChanged, State.Inv.push, State.Inv.setFull]
theorem State.Inv.remoteFillFrom (h : s.Inv) (ctx a) : (s.remoteFillFrom ctx a).Inv := h.remoteFill ..
theorem State.Inv.messageFrom (h : s.Inv) (ctx a ws) : (s.messageFrom ctx a ws).Inv := .ite h (h.push _)
theorem execRemoteDeviceAccess_keeps (h : s.Inv) (dev rctx a) : InvAfter (execRemoteDeviceAccess dev rctx a s) := by
  refine invAfter_next.2 (.ite (h.push _) ?_)
  split
  · exact h
  split
  · exact h.remoteFillFrom ..
  · exact h.messageFrom ..
  · refine .ite (.push ?_ _) (.ite (h.serveRemote ..) h)
    exact h

/-! ### Freezing -/

theorem execFreezeRequest_keeps (h : s.Inv) : InvAfter (execFreezeRequest s) := by
  refine invAfter_next.2 (.ite h (.ite h ?_))
  extract_lets _ s1 users s2
  have h1 : s1.Inv := h
  have h2 : s2.Inv := .foldl (fun _ _ h => (h.modThread ..).push _) _ h1
  exact (State.Inv.foldl (fun _ _ h => h.after ..) _ h2).push _
theorem execFreezeFaceTimeout_keeps (h : s.Inv) (face) : InvAfter (execFreezeFaceTimeout face s) :=
  invAfter_next.2 (.ite (h.fenceFaces _) h)
theorem State.Inv.unstall (h : s.Inv) (c e) : (s.unstall c e).Inv := by
  unfold State.unstall
  split
  · refine .ite (.push (.modHead ?_ _ _ _) _) h
    exact h
  · exact h
theorem State.Inv.askAgain (h : s.Inv) : s.askAgain.Inv := by
  grind only [State.askAgain, State.Inv.modThread, State.Inv.push, State.Inv.foldl]
theorem State.Inv.sealImages (h : s.Inv) : s.sealImages.Inv := by
  refine State.Inv.commitBytes ?_ _
  exact h
theorem execFreezeComplete_keeps (h : s.Inv) : InvAfter (execFreezeComplete s) := by
  refine invAfter_next.2 (.ite h (.ite ?_ (h.askAgain.push _)))
  extract_lets cs s1 s2 s3 s4 image
  have h1 : s1.Inv := .foldl (fun _ _ h => h.copyStop _) _ h
  have h2 : s2.Inv := .foldl (fun _ _ h => .foldl (fun _ _ h => h.unstall ..) _ h) _ h1
  have h3 : s3.Inv := .foldl (fun _ _ h => h.writeBackLine _) _ h2
  have h4 : s4.Inv := h3.sealImages
  clear_value s4
  exact ⟨h4.1, fun _ e => Option.some.inj e ▸ h4.1⟩
theorem State.Inv.rebuildTables (h : s.Inv) : s.rebuildTables.Inv :=
  .foldl (fun _ _ h => .foldl (fun _ _ h => h.after ..) _ (h.modCore ..)) _ h
theorem State.Inv.restoreImage (h : s.Inv) {d : Dev} (hd : d.Canon) : (s.restoreImage d).Inv := by
  obtain ⟨hmem, hempty, hthreads, hcores⟩ := hd
  refine State.Inv.rebuildTables (.foldl (fun _ _ h => h.loseStack _) _ ⟨⟨?_, hempty, hthreads, Tab.rising_map hcores _⟩, h.frozen⟩)
  refine Tab.wf_append (Tab.wf_append (Tab.wf_filter hmem _) (Tab.wf_filter h.mem _) ?_) (Tab.wf_filter hmem _) ?_
  · grind [outside]
  · grind [outside]
theorem State.Inv.rejectImage (h : s.Inv) (ctx) : (s.rejectImage ctx).Inv := by
  unfold State.rejectImage
  dsimp only
  split
  · exact ((h.record ..).dropContext _).modPage ..
  · exact h.record ..
theorem State.Inv.pokeAll (h : s.Inv) : s.pokeAll.Inv :=
  .push (.foldl (fun _ _ h => h.pokeHandler _) _ (.foldl (fun _ _ h => h.push _) _ h)) _
theorem State.Inv.resumeContext (h : s.Inv) (d ctx) : (s.resumeContext d ctx).Inv := by
  unfold State.resumeContext
  extract_lets _ _ _ old kept _ root page s1 q s2 s3 s4
  have hpage (m va) (hm : Memory.wf m) : Memory.wf (page m va) := by
    unfold page
    split
    · exact Store.wf_foldl hm ..
    · exact hm
  have h1 : s1.Inv := h.dropContext _
  have hthreads (l : List (ℕ × Thread)) (m) (hm : Tab.rising m = true) :
      Tab.rising (l.foldl (fun m e => Tab.insert m e.1 e.2) m) = true :=
    foldl_inv (P := fun m => Tab.rising m = true) (fun _ _ hm => Tab.rising_insert hm _ _) l m hm
  have h2 : s2.Inv :=
    ⟨⟨foldl_inv (fun _ _ hm => hpage _ _ hm) _ _ h1.mem, h1.empty, hthreads _ _ h1.threads, h1.cores⟩, h1.frozen⟩
  have h3 : s3.Inv := .foldl (fun _ _ h => .foldl (fun _ _ h => .ite h (h.push _)) _ (h.modCore ..)) _ h2
  have h4 : s4.Inv := .foldl (fun _ _ h => (h.modSett ..).push _) _ h3
  clear_value s4
  split
  · exact h4.modPage ..
  · exact h4
theorem execFreezeResume_keeps (h : s.Inv) (bad) : InvAfter (execFreezeResume bad s) := by
  refine invAfter_next.2 ?_
  extract_lets ended
  have hended {s} (h : s.Inv) : (ended s).Inv := .ite h h
  clear_value ended
  split
  · exact hended h
  · refine .ite (hended h) (.ite (hended ?_) ?_)
    · exact (State.Inv.foldl (fun _ _ h => .ite (h.rejectImage _) (h.resumeContext ..)) _ h).pokeAll
    · exact (State.Inv.foldl (fun _ _ h => h.rejectImage _) _ (h.restoreImage (h.frozen _ ‹_›))).pokeAll

/-! ### Attestation -/

theorem execAttestationRequest_keeps (h : s.Inv) : InvAfter (execAttestationRequest s) := by
  refine invAfter_next.2 (.commitBytes ?_ _)
  exact h

/-! ### Trips, resets and bring-up -/

theorem State.Inv.afterReset (h : s.Inv) (trip) : (s.afterReset trip).Inv :=
  ⟨⟨Tab.wf_filter h.mem _, Tab.wf_nil _, rfl, Tab.rising_filter (Tab.rising_map h.cores _) _⟩, h.frozen⟩
theorem execThermalTrip_keeps (h : s.Inv) (cause face) : InvAfter (execThermalTrip cause face s) := (h.afterReset _).push _
theorem execModuleReset_keeps (h : s.Inv) : InvAfter (execModuleReset s) := by
  grind only [execModuleReset, State.Inv.afterReset, State.Inv.choose, State.inv_iff, invAfter_next]
theorem execThrottleInterval_keeps (h : s.Inv) (limits) : InvAfter (execThrottleInterval limits s) := invAfter_next.2 (.ite h h)

/-! ### Wear and errors -/

theorem State.Inv.modStack (h : s.Inv) (stack f) : (s.modStack stack f).Inv := .foldl (fun _ _ h => h.modSett ..) _ h
theorem execActiveBankLimitChange_keeps (h : s.Inv) (stack limit) : InvAfter (execActiveBankLimitChange stack limit s) := by
  refine invAfter_next.2 (.ite (.modStack ?_ _ _) ?_)
  · exact h
  · exact h
theorem State.Inv.handleError (h : s.Inv) (line key) : (s.handleError line key).Inv := by
  grind only [State.handleError, State.Inv.choose, State.Inv.queueRedress, State.inv_iff]
theorem execScrubRead_keeps (h : s.Inv) (line o) : InvAfter (execScrubRead line o s) := by
  refine invAfter_next.2 ?_
  cases o with
  | clean => exact h
  | corrected => exact h
  | uncorrectable =>
    dsimp only
    split
    · exact State.Inv.handleError (s := { s with device := { s.device with eccu := s.device.eccu + 1 } }) h ..
    · exact h
  | latent => exact .ite h h
  | thread u =>
    extract_lets d s1
    have h1 : s1.Inv := h
    clear_value s1
    dsimp only
    split
    · exact h1
    have hr := (h1.recordThread ‹_› 5 0x09 0).loseThread u
    split
    · exact .ite ((hr.popSett _).progressOf ..) hr
    · exact hr

/-! ### The issue choice -/

theorem State.Inv.coreTurn (h : s.Inv) (c) : (s.coreTurn c).Inv := by
  refine .ite h ?_
  extract_lets s1
  have h1 : s1.Inv := h.count ..
  clear_value s1
  refine .ite (h1.count ..) ?_
  split
  · exact h1.count ..
  · extract_lets s2
    have h2 : s2.Inv := h1.modCore ..
    refine .count ?_ _ _ _
    exact h2

/-! ### What time brings -/

theorem State.Inv.settleBack (h : s.Inv) : s.settleBack.Inv := by
  unfold State.settleBack
  extract_lets fed s1 s2
  have h1 : s1.Inv := .foldl (fun _ _ h => h.wakePorts _) _ h
  have h2 : s2.Inv := ⟨⟨h1.mem, h1.empty, Tab.rising_map h1.threads _, Tab.rising_map h1.cores _⟩, h1.frozen⟩
  exact .foldl (fun _ _ h => h.servePorts _) _ h2
theorem State.Inv.pokeSlots (h : s.Inv) : s.pokeSlots.Inv := .foldl (fun _ _ h => .ite (h.push _) h) _ h
theorem State.Inv.watchdogs (h : s.Inv) : s.watchdogs.Inv :=
  .ite h (.foldl (fun _ _ h => .ite h (.ite ((h.modPage ..).push _) (h.modPage ..))) _ h)
theorem State.Inv.ageWaiting (h : s.Inv) : s.ageWaiting.Inv := by
  unfold State.ageWaiting
  extract_lets due s1 _ age
  have h1 : s1.Inv := by
    refine .foldl (fun s e h => ?_) _ h
    exact .ite h (State.Inv.push (s := { s with launches := _ }) h (.launchAgeing e.1))
  exact ⟨⟨h1.mem, h1.empty, Tab.rising_map h1.threads _, h1.cores⟩, h1.frozen⟩
theorem State.Inv.pokeDispatch (h : s.Inv) : s.pokeDispatch.Inv := .ite (h.push _) h
theorem State.Inv.evictOne (h : s.Inv) : s.evictOne.Inv := h.choose (s.tcache.length + 1)
theorem State.Inv.writeBackOne (h : s.Inv) : s.writeBackOne.Inv := by
  unfold State.writeBackOne
  dsimp only
  split
  · exact (h.choose _).writeBackLine _
  · exact h.choose _
theorem State.Inv.bringUp (h : s.Inv) : s.bringUp.Inv := .ite (h.choose 3) h
theorem State.Inv.pokeDresser (h : s.Inv) : s.pokeDresser.Inv :=
  .ite h (.foldl (fun _ _ h => .ite ((h.choose 2).push _) (h.choose 2)) _ h)
theorem State.Inv.balance (h : s.Inv) : s.balance.Inv := .ite h (.foldl (fun _ _ h => h.push _) _ h)
theorem State.Inv.monitors (h : s.Inv) : s.monitors.Inv := by
  unfold State.monitors
  extract_lets s1 ws s2
  have h1 : s1.Inv := .ite h ((h.choose 2).push _)
  have h2 : s2.Inv := by
    refine .ite h1 (.push ?_ _)
    exact h1
  exact .ite h2 (.foldl (fun _ _ h => h.push _) _ h2)
theorem State.Inv.activations (h : s.Inv) : s.activations.Inv := by
  unfold State.activations
  have h1 := h.choose 2
  have h2 := h1.choose Config.setts
  have h3 := h2.choose (Config.linesPerSett / 16)
  exact .ite h1 ((h3.choose 3).activate ..)
theorem State.Inv.settTurns (h : s.Inv) : s.settTurns.Inv := by
  grind only [State.settTurns, State.Inv.choose, State.Inv.foldl, State.inv_iff]
theorem State.Inv.tick (h : s.Inv) : s.tick.Inv := by
  have h1 : State.Inv { s with cycle := s.cycle + 1 } := h
  exact h1.settleBack.serveAll.pump.watchdogs.ageWaiting.pokeSlots.pokeDispatch.pokeDresser.balance.monitors.activations
    |>.evictOne.writeBackOne.bringUp.settTurns
theorem execCoreCycle_keeps (h : s.Inv) (core) : InvAfter (execCoreCycle core s) := by
  have hc := h.coreTurn core
  have ht := h.tick
  unfold execCoreCycle
  generalize s.coreTurn core = c at hc
  generalize s.tick = t at ht
  exact invAfter_next.2 (.ite hc ht)

/-! ### Scalar forms -/

theorem Act.Keeps.op2 (d a b g f) : (Act.op2 d a b g f : Act Unit).Keeps :=
  .issue _ _ _ _ (.bind (.ready ..) fun _ => .bind (.read ..) fun _ => .bind (.readSrc ..) fun _ => .bind (.pop _) fun _ => .write ..)
theorem Act.Keeps.opI (d a i g f) : (Act.opI d a i g f : Act Unit).Keeps :=
  .issue _ _ _ _ (.bind (.ready ..) fun _ => .bind (.read ..) fun _ => .bind (.pop _) fun _ => .write ..)
theorem Act.Keeps.op1 (d b g f) : (Act.op1 d b g f : Act Unit).Keeps :=
  .issue _ _ _ _ (.bind (.ready ..) fun _ => .bind (.readSrc ..) fun _ => .bind (.pop _) fun _ => .write ..)
theorem Act.Keeps.op2E (d a b g f) : (Act.op2E d a b g f : Act Unit).Keeps := by
  refine .issue _ _ _ _ (.bind (.ready ..) fun _ => .bind (.read ..) fun _ => .bind (.readSrc ..) fun _ => ?_)
  split
  · exact .fault ..
  · exact .bind (.pop _) fun _ => .write ..
theorem Act.Keeps.cmp (d a b g f) : (Act.cmp d a b g f : Act Unit).Keeps :=
  .issue _ _ _ _ (.bind (.ready ..) fun _ => .bind (.read ..) fun _ => .bind (.readSrc ..) fun _ => .bind (.pop _) fun _ => .writePred ..)
theorem Act.Keeps.cmpI (d a i g f) : (Act.cmpI d a i g f : Act Unit).Keeps :=
  .issue _ _ _ _ (.bind (.ready ..) fun _ => .bind (.read ..) fun _ => .bind (.pop _) fun _ => .writePred ..)
theorem Act.Keeps.pred2 (d a b g f) : (Act.pred2 d a b g f : Act Unit).Keeps := .issue _ _ _ _ (.bind .me fun _ => .writePred ..)
theorem execMovImm_keeps (h : s.Inv) (d i g) : InvAfter (execMovImm d i g s) :=
  Act.Keeps.go (.issue _ _ _ _ (.bind (.ready ..) fun _ => .write ..)) h
theorem execMovCtl_keeps (h : s.Inv) (d b g) : InvAfter (execMovCtl d b g s) :=
  Act.Keeps.go (.issue _ _ _ _ (.bind (.ready ..) fun _ => .bind (.readSrc ..) fun _ => .bind (.pop _) fun _ => .writeCtl ..)) h
theorem execIns_keeps (h : s.Inv) (d a b g) : InvAfter (execIns d a b g s) :=
  Act.Keeps.go (.issue _ _ _ _ (.bind (.ready ..) fun _ => .bind (.read ..) fun _ => .bind (.read ..) fun _ => .bind (.readSrc ..) fun _ =>
    .bind (.pop _) fun _ => .write ..)) h
theorem execSel_keeps (h : s.Inv) (d a b k n g) : InvAfter (execSel d a b k n g s) :=
  Act.Keeps.go (.issue _ _ _ _ (.bind (.ready ..) fun _ => .bind .me fun _ => .bind (.read ..) fun _ => .bind (.readSrc ..) fun _ =>
    .bind (.pop _) fun _ => .write ..)) h

/-! ### The constant window -/

theorem execConst_keeps (h : s.Inv) (d c g) : InvAfter (execConst d c g s) :=
  Act.Keeps.go (.issue _ _ _ _ (.bind .me fun _ => .bind (.claim ..) fun _ => .bind (.clean ..) fun _ =>
    .get_bind fun _ _ => .bind (.modMe _) fun _ => .write ..)) h

/-! ### Pointers and windows -/

theorem Act.Keeps.stepI (d a off g) : (Act.stepI d a off g : Act Unit).Keeps := by
  refine .issue _ _ _ _ (.bind (.ready ..) fun _ => .bind (.read ..) fun _ => ?_)
  split
  · exact .fault ..
  · exact .bind (.pop _) fun _ => .write ..
theorem execPfmt_keeps (h : s.Inv) (d a g) : InvAfter (execPfmt d a g s) :=
  Act.Keeps.go (.issue _ _ _ _ (.bind (.ready ..) fun _ => .bind (.read ..) fun _ => .bind (.pop _) fun _ => .write ..)) h
theorem execLwinOwn_keeps (h : s.Inv) (d b g) : InvAfter (execLwinOwn d b g s) :=
  Act.Keeps.go (.issue _ _ _ _ (.bind (.ready ..) fun _ => .bind (.readSrc ..) fun _ => .ite (.fault ..) (.bind (.pop _) fun _ =>
    .write ..))) h

/-! ### Before the fetch -/

theorem Act.Keeps.takeArrived (cause fval) : (Act.takeArrived cause fval : Act Unit).Keeps :=
  .bind .endChunk fun _ => .bind (.modMe _) fun _ => .bind (.modify fun _ h => h.leaveQueues _) fun _ => .bind .me fun _ =>
    .bind (.modify fun _ h => h.enterTrap ..) fun _ => .stop
theorem Act.Keeps.takeHalt : (Act.takeHalt : Act Unit).Keeps := by
  refine .bind (.modify fun _ h => ?_) fun _ => .stop
  split
  · exact h
  · exact .haltThread (.withdraw (.ite (h.restartSolo _) h) ..) _
theorem Act.Keeps.beforeFetch : (Act.beforeFetch : Act Unit).Keeps := by
  refine .bind .me fun _ => ?_
  split
  · exact .takeArrived ..
  · exact .ite .takeHalt (.ite (.bind (.modify fun _ h => h.takeThread _) fun _ => .stop) (.pure _))

/-! ### The fetch -/

theorem Act.Keeps.codeWord (va) : (Act.codeWord va : Act Half).Keeps := by
  refine .bind .me fun _ => .get_bind fun _ _ => .ite (.fault ..) ?_
  split
  · exact .hold _
  · exact .fault ..
  · exact .bind (.clean ..) fun _ => .bind (.modify fun _ h => h.useEntry _ false) fun _ => .get_bind fun _ _ => .pure _
  · exact .pure _
  · exact .pure _
theorem Act.Keeps.stopProgram (n state at') : (Act.stopProgram n state at' : Act Half).Keeps :=
  .bind (.modMe _) fun _ => .bind (.modify fun _ h => h.push _) fun _ => .stop
theorem Act.Keeps.overlayWord (n va) : (Act.overlayWord n va : Act Half).Keeps := by
  have := Act.keeps_rules
  grind only [Act.overlayWord, State.Inv.overlayMiss, State.Inv.carryBack, Act.Keeps.stopProgram, State.Inv.freeWord]
theorem Act.Keeps.word (va) : (Act.word va : Act Half).Keeps := by
  refine .bind .me fun _ => ?_
  split
  · exact .overlayWord ..
  · exact .codeWord _
theorem Act.Keeps.fetch : Act.fetch.Keeps := by
  refine .bind .me fun _ => .bind (.word _) fun _ => .bind (.modify fun _ h => h) fun _ =>
    .eitherDo (.word _) (.pure _) fun _ => .eitherDo (.word _) (.pure _) fun _ => ?_
  dsimp only
  split
  · exact .pure _
  · exact .illegal
theorem Act.Keeps.prepare : (Act.prepare : Act Instr).Keeps := .bind .beforeFetch fun _ => .fetch

/-! ### The banks of local memory -/

theorem State.Inv.losesBank (h : s.Inv) (i) : (s.losesBank i).2.Inv := by
  grind only [State.losesBank, State.Inv.choose, State.Inv.count]

/-! ### Which step of the device comes next -/

theorem State.Inv.closing (h : s.Inv) : (s.closing).2.Inv := by
  grind only [State.closing, State.inv_iff]
theorem State.Inv.nextPending (h : s.Inv) : (s.nextPending).2.Inv := by
  grind only [State.nextPending, State.Inv.choose, State.inv_iff]

/-! ### The instructions and steps of the device -/

/-- Instructions of one shape share the lemma about the shape. -/
theorem exec_keeps (h : s.Inv) (i : Instr) : InvAfter (exec i s) := by
  cases i with
  | add | sub | mul | mulhS | mulhN | divS | divN | remS | remN | minS | minN | maxS | maxN | and | or | xor | andn | shl | shr | sar | rol | ext
    | extS => exact (Act.Keeps.op2 ..).go h
  | addImm | andImm | orImm | xorImm | shlImm | shrImm | sarImm | rolImm | mulImm => exact (Act.Keeps.opI ..).go h
  | movImm => exact execMovImm_keeps h ..
  | mov | neg | abs | clz | ctz | popc | brev => exact (Act.Keeps.op1 ..).go h
  | movCtl => exact execMovCtl_keeps h ..
  | ins => exact execIns_keeps h ..
  | sel => exact execSel_keeps h ..
  | cmpEq | cmpNe | cmpLt | cmpGe | cmpLe | cmpGt | cmpLo | cmpHs | cmpLs | cmpHi => exact (Act.Keeps.cmp ..).go h
  | cmpEqImm | cmpNeImm | cmpLtImm | cmpGeImm | cmpLeImm | cmpGtImm | cmpLoImm | cmpHsImm => exact (Act.Keeps.cmpI ..).go h
  | const => exact execConst_keeps h ..
  | adda | suba | ptag | href | lwin => exact (Act.Keeps.op2E ..).go h
  | addaImm | subaImm => exact (Act.Keeps.stepI ..).go h
  | pfmt => exact execPfmt_keeps h ..
  | lwinOwn => exact execLwinOwn_keeps h ..
  | fadd | fsub | fmul => exact (Act.Keeps.fop ..).go h
  | fmin | fmax => exact (Act.Keeps.fpick ..).go h
  | ffma => exact execFfma_keeps h ..
  | fcmpEq | fcmpNe | fcmpLt | fcmpLe | fcmpGt | fcmpGe | fcmpUn | fcmpOr => exact (Act.Keeps.fcmp ..).go h
  | fcvtF2i | fcvtF2n | fcvtFint | fcvtI2f | fcvtN2f | fcvtF2h | fcvtH2f | fcvtF2b | fcvtB2f | fcvtF2w | fcvtW2f
    => exact (Act.Keeps.fcvt ..).go h
  | pand | por | pxor | pnot | pmov => exact (Act.Keeps.pred2 ..).go h
  | br => exact execBr_keeps h ..
  | call => exact execCall_keeps h ..
  | jmp => exact execJmp_keeps h ..
  | callr => exact execCallr_keeps h ..
  | loop => exact execLoop_keeps h ..
  | ldB | ldH | ldW | ldD | ldBMig | ldHMig | ldWMig | ldDMig => exact (Act.Keeps.load ..).go h
  | stB | stH | stW | stD | stBMig | stHMig | stWMig | stDMig => exact (Act.Keeps.store ..).go h
  | pref _ imm _ => exact execPref_keeps h _ imm _
  | lde | ldf | stf | sts | clre => exact (Act.Keeps.sync ..).go h
  | arm => exact execArm_keeps h ..
  | rfill => exact execRfill_keeps h ..
  | aadd | aminS | aminN | amaxS | amaxN | aand | aor | axor | aswp | acas | afadd => exact (Act.Keeps.atomic ..).go h
  | pst | pstF => exact (Act.Keeps.post ..).go h
  | waitaEq | waitaNe | waitaHs | waitaEqT | waitaNeT | waitaHsT => exact (Act.Keeps.waita ..).go h
  | fenceCore | fenceDev | fenceSys => exact (Act.Keeps.fence ..).go h
  | xfence => exact execXfence_keeps h ..
  | chend g => exact execChend_keeps h g
  | spawn => exact execSpawn_keeps h ..
  | quit => exact execQuit_keeps h ..
  | yield => exact execYield_keeps h ..
  | hend => exact execHend_keeps h ..
  | publ => exact execPubl_keeps h ..
  | sdrop => exact execSdrop_keeps h ..
  | join => exact execJoin_keeps h ..
  | leave => exact execLeave_keeps h ..
  | gbar => exact execGbar_keeps h ..
  | migr => exact execMigr_keeps h ..
  | send => exact execSend_keeps h ..
  | watch => exact execWatch_keeps h ..
  | unwatch => exact execUnwatch_keeps h ..
  | launch => exact execLaunch_keeps h ..
  | mzero => exact execMzero_keeps h ..
  | mma => exact execMma_keeps h ..
  | mring => exact execMring_keeps h ..
  | mldb => exact execMldb_keeps h ..
  | mstore => exact execMstore_keeps h ..
  | maccLd | maccAdd => exact (Act.Keeps.macc ..).go h
  | mcfg => exact execMcfg_keeps h ..
  | mget => exact execMget_keeps h ..
  | snormClr => exact execSnormClr_keeps h ..
  | snormA | snormB => exact (Act.Keeps.snorm ..).go h
  | sngetA | sngetB | snputA | snputB => exact (Act.Keeps.snwords ..).go h
  | salias => exact execSalias_keeps h ..
  | sseed => exact execSseed_keeps h ..
  | srun => exact execSrun_keeps h ..
  | svar => exact execSvar_keeps h ..
  | pload => exact execPload_keeps h ..
  | pscore => exact execPscore_keeps h ..
  | psel => exact execPsel_keeps h ..
  | assay => exact execAssay_keeps h ..
  | aread => exact execAread_keeps h ..
  | vadd | vsub | vmul | vfma | vmin | vmax | vabs | vneg | vrndRne | vrndRz | vrndRd | vrndRu | vfexp2 | vscale | vrcp | vrsq | vcmpEq | vcmpNe
    | vcmpLt | vcmpLe | vcmpGt | vcmpGe | vcmpUn | vcmpOr | vsel | viadd | visub | vimul | vand | vor | vxor | vshl | vshr | vshrS | vrsum | vnzc
    | vnzb | vperm | vslide | vcvtF2i | vcvtF2iRz | vcvtI2f | vcvtF2b | vcvtB2f | vcvtF2h | vcvtH2f => exact (Act.Keeps.vecForm ..).go h
  | vld | vst | vlds | vldb | vstb => exact (Act.Keeps.vecLanes ..).go h
  | vldx => exact execVldx_keeps h ..
  | vputs => exact execVputs_keeps h ..
  | vgets => exact execVgets_keeps h ..
  | vcfg => exact execVcfg_keeps h ..
  | vget => exact execVget_keeps h ..
  | ccopy | cfill | ctcopy | cgather | cscatter | ccopyF => exact (Act.Keeps.copyForm ..).go h
  | ccfg => exact execCcfg_keeps h ..
  | cget => exact execCget_keeps h ..
  | halloc | hfree | hwiden | hpin | hunpin | hstageA | hstageB | hstageNc | hstageNr | hinfo | hown | hsync | hopRowsum | hopColsum | hopScale
    | hopAddh | hopMulh | hopAxpy | hopFill | hopFillImg | hopTranspose | hopCopyin | hopCopyout | hopGrows | hopSrows
    => exact (Act.Keeps.handleForm ..).go h
  | nmc => exact execNmc_keeps h ..
  | nmload => exact execNmload_keeps h ..
  | nmrow => exact execNmrow_keeps h ..
  | nmstat => exact execNmstat_keeps h ..
  | trap => exact execTrap_keeps h ..
  | tret => exact execTret_keeps h ..
  | mfs => exact execMfs_keeps h ..
  | mts => exact execMts_keeps h ..
  | mtsWdog => exact execMtsWdog_keeps h ..
  | bkpt => exact execBkpt_keeps h ..
  | idle => exact execIdle_keeps h ..
  | idleT => exact execIdleT_keeps h ..
  | tload => exact execTload_keeps h ..
  | synci => exact execSynci_keeps h ..
  | harvest => exact execHarvest_keeps h ..
  | ctxswap => exact execCtxswap_keeps h ..
  | nop => exact execNop_keeps h
  | ill => exact (Act.Keeps.fault ..).go h
  | hostLaunchWrite => exact execHostLaunchWrite_keeps h ..
  | launchAdmission => exact h.admitLaunch ..
  | threadPlacement => exact execThreadPlacement_keeps h
  | localContextExchange => exact execLocalContextExchange_keeps h ..
  | engineContextExchange => exact execEngineContextExchange_keeps h ..
  | launchAgeing => exact execLaunchAgeing_keeps h ..
  | dispatchPreemption => exact execDispatchPreemption_keeps h
  | threadPreemption => exact execThreadPreemption_keeps h ..
  | slotFill => exact h.fillSlot ..
  | loadBalance => exact execLoadBalance_keeps h ..
  | spawnPacketAccept => exact execSpawnPacketAccept_keeps h ..
  | migrationDeparture => exact execMigrationDeparture_keeps h ..
  | migrationArrival => exact execMigrationArrival_keeps h ..
  | replyArrival => exact h.reply ..
  | portWordDelivery => exact execPortWordDelivery_keeps h ..
  | messageArrival => exact execMessageArrival_keeps h ..
  | messageHandlerStart => exact execMessageHandlerStart_keeps h ..
  | lightHandlerStart => exact execLightHandlerStart_keeps h ..
  | chunkCommit => exact execChunkCommit_keeps h ..
  | waitaTimeout => exact execWaitaTimeout_keeps h ..
  | idleTimeout => exact h.modThread ..
  | barrierRelease => exact execBarrierRelease_keeps h ..
  | fullEmptyHomeAccess => exact execFullEmptyHomeAccess_keeps h ..
  | remoteAccessArrival => exact execRemoteAccessArrival_keeps h ..
  | atomicApply => exact execAtomicApply_keeps h ..
  | rfillDelivery => exact execRfillDelivery_keeps h ..
  | postedStoreApply => exact execPostedStoreApply_keeps h ..
  | postedStoreAck => exact h.freeEntry ..
  | postedStoreRefusal => exact execPostedStoreRefusal_keeps h ..
  | faultQueueResolution => exact execFaultQueueResolution_keeps h ..
  | fenceCompletion => exact execFenceCompletion_keeps h ..
  | xfenceCompletion => exact execXfenceCompletion_keeps h ..
  | engineCommandStart => exact h.startEngine ..
  | vectorCommandCompletion => exact h.engFinish ..
  | matrixCommandCompletion => exact h.matFinish ..
  | mringStepStart => exact h.ringStart ..
  | tileDelivery => exact h.deliverTile ..
  | copyCommandCompletion => exact h.copyFinish ..
  | handleCommandAdmission => exact h.admitHandle ..
  | handleOperationCompletion => exact h.completeHop ..
  | dresserRedress => exact execDresserRedress_keeps h ..
  | redressStart => exact execRedressStart_keeps h ..
  | redressComplete => exact execRedressComplete_keeps h ..
  | tloadBuildComplete => exact execTloadBuildComplete_keeps h ..
  | nmProgramStart => exact h.startProgram ..
  | nmProgramStop => exact execNmProgramStop_keeps h ..
  | nmrowStop => exact execNmrowStop_keeps h ..
  | watchdogExpiry => exact execWatchdogExpiry_keeps h ..
  | contextStart => exact execContextStart_keeps h ..
  | contextStopDispatch => exact execContextStopDispatch_keeps h ..
  | contextEnd => exact execContextEnd_keeps h ..
  | hostWdogWrite => exact execHostWdogWrite_keeps h ..
  | hostErrClear => exact execHostErrClear_keeps h ..
  | hostMessagePush => exact execHostMessagePush_keeps h ..
  | hostRegisterWrite => exact execHostRegisterWrite_keeps h ..
  | translationInvalidation => exact execTranslationInvalidation_keeps h ..
  | translationInvalidationComplete => exact execTranslationInvalidationComplete_keeps h ..
  | debugHalt => exact execDebugHalt_keeps h ..
  | debugView => exact execDebugView_keeps h ..
  | debugResume => exact execDebugResume_keeps h ..
  | debugDetach => exact execDebugDetach_keeps h ..
  | faceFence => exact h.fenceFaces ..
  | faceFailure => exact execFaceFailure_keeps h ..
  | faceReset => exact execFaceReset_keeps h ..
  | freezeRequest => exact execFreezeRequest_keeps h
  | freezeFaceTimeout => exact execFreezeFaceTimeout_keeps h ..
  | freezeComplete => exact execFreezeComplete_keeps h
  | freezeResume => exact execFreezeResume_keeps h ..
  | attestationRequest => exact execAttestationRequest_keeps h
  | hostCxlWrite => exact execHostCxlWrite_keeps h ..
  | hostCxlRead => exact execHostCxlRead_keeps h ..
  | remoteDeviceAccess => exact execRemoteDeviceAccess_keeps h ..
  | helvenLinkLoss | linkLossTimeout | ageingUpdate | bedLoss => exact h
  | stackLoss => exact h.loseStack ..
  | hostPortLoss => exact execHostPortLoss_keeps h ..
  | thermalTrip => exact execThermalTrip_keeps h ..
  | moduleReset => exact execModuleReset_keeps h
  | throttleInterval => exact execThrottleInterval_keeps h ..
  | activeBankLimitChange => exact execActiveBankLimitChange_keeps h ..
  | scrubRead => exact execScrubRead_keeps h ..
  | rowDisturbanceAlert => exact h.modSett ..
  | refreshWindowEnd => exact h.modStack ..
  | coreCycle => exact execCoreCycle_keeps h ..
  | overlayLoadComplete => exact execOverlayLoadComplete_keeps h ..
  | debuggerRegisterWrite => exact execDebuggerRegisterWrite_keeps h ..

/-! ### A turn, a step -/

theorem Act.Keeps.ok {m : Act α} (hm : m.Keeps) (h : s.Inv) {a t} (e : m s = .ok a t) : t.Inv := by
  have ht := hm.inv s h
  rwa [Act.done, e] at ht
theorem Act.Keeps.error {m : Act α} (hm : m.Keeps) (h : s.Inv) {a t} (e : m s = .error a t) : t.Inv := by
  have ht := hm.inv s h
  rwa [Act.done, e] at ht
/-- A component of a pair that is known. -/
theorem State.Inv.of_eq {p : α × State} {a : α} (h : p.2.Inv) (e : p = (a, s)) : s.Inv := by
  rwa [e] at h
theorem turn_keeps (h : s.Inv) (u) : InvAfter (turn u s) := by
  have hu : State.Inv { s with cur := u } := h
  unfold turn
  split
  · split
    · have ht := (Act.Keeps.prepare.ok hu ‹_›).losesBank ‹_›
      split
      · exact ht.of_eq ‹_›
      · exact exec_keeps (ht.of_eq ‹_›) _
    · exact Act.Keeps.prepare.error hu ‹_›
  · exact h
/-- A step is a thread's turn or a step of the device that was pending: what chooses it takes it off the schedule and draws choices. -/
theorem step_keeps (h : s.Inv) : InvAfter (step s) := by
  unfold step
  split
  · split
    · refine exec_keeps ?_ _
      exact h
    · trivial
  split
  · refine turn_keeps ?_ _
    exact h
  have hs := h.closing
  split
  · exact exec_keeps (hs.of_eq ‹_›) _
  have hs := (hs.of_eq ‹_›).nextPending
  split
  · exact exec_keeps (hs.of_eq ‹_›) _
  · exact exec_keeps (hs.of_eq ‹_›) _

end Sys2Proof.Machine

namespace Sys2Proof.Machine

/-- Settles O59: each function of the model keeps the invariant, callees first, and so does a step, which is one instruction of a thread or
one step of the device. -/
theorem stepKeepsInvariant : Obligations.StepKeepsInvariant := by
  intro s s' h e
  have hs := step_keeps h
  rw [e] at hs
  exact hs

end Sys2Proof.Machine

/-!
## An error met twice (O55)

O55 asks nothing of the table of errors that no check has met, and says that none is left in a line once an access has met it. `State.Inv` does
not speak of that table either. A table that lists a line twice, which no step makes, loses its first entry only.
-/

namespace Sys2Proof.Machine
/-- A device at reset but for its record of unmet errors, which lists line 0 twice. -/
def State.twiceLatent : State := { State.reset with latent := [(0, 1#1), (0, 1#1)] }

theorem twiceLatent_listed : Store.get State.twiceLatent.latent 0 = 1#1 := rfl
theorem twiceLatent_unheld : State.twiceLatent.holdsLine 0 = false := rfl
theorem twiceLatent_fresh : State.twiceLatent.staleLine 0 = false := rfl
/-- An access fills line 0 and takes the first listing away; the second stays. -/
theorem touchLine_twiceLatent : Store.get (State.twiceLatent.touchLine 0).latent 0 = 1#1 := rfl

/-- Refutes O55: one clause of it holds of a canonical table only, and its state is any. After an access has met the error of line 0 in
`State.twiceLatent`, the table still lists one. -/
theorem not_monitorsAndCycles : ¬ Obligations.MonitorsAndCycles := by
  unfold Obligations.MonitorsAndCycles
  rintro ⟨hmonitors, -⟩
  obtain ⟨-, -, -, -, -, -, -, -, -, hmeet, -⟩ := hmonitors State.twiceLatent 0 0 0 0 0 0 []
  obtain ⟨-, -, hgone, -⟩ := hmeet twiceLatent_listed twiceLatent_unheld twiceLatent_fresh
  rw [touchLine_twiceLatent] at hgone
  exact absurd hgone (by decide)
end Sys2Proof.Machine

/-!
## A turn runs what its words decode to (O56)

The words of an instruction are read one after another, each in the state that the reads before it leave. Those reads do not look at the turns
that are left, at whose turn it is or at the first word (`State.issuing`), so that they are the same before the turn is taken.
-/

namespace Sys2Proof

/-! ### The words of an instruction -/

/-- The words of every well-formed instruction decode to it, whatever words follow them: the law of each instruction, gathered. -/
theorem Laws.RoundTrip.all : ∀ i : Instr, Laws.RoundTrip.Statement i
  | .add _ _ _ _ => Laws.RoundTrip.add _ _ _ _ | .sub _ _ _ _ => Laws.RoundTrip.sub _ _ _ _ | .mul _ _ _ _ => Laws.RoundTrip.mul _ _ _ _
  | .mulhS _ _ _ _ => Laws.RoundTrip.mulhS _ _ _ _ | .mulhN _ _ _ _ => Laws.RoundTrip.mulhN _ _ _ _
  | .divS _ _ _ _ => Laws.RoundTrip.divS _ _ _ _ | .divN _ _ _ _ => Laws.RoundTrip.divN _ _ _ _
  | .remS _ _ _ _ => Laws.RoundTrip.remS _ _ _ _ | .remN _ _ _ _ => Laws.RoundTrip.remN _ _ _ _
  | .minS _ _ _ _ => Laws.RoundTrip.minS _ _ _ _ | .minN _ _ _ _ => Laws.RoundTrip.minN _ _ _ _
  | .maxS _ _ _ _ => Laws.RoundTrip.maxS _ _ _ _ | .maxN _ _ _ _ => Laws.RoundTrip.maxN _ _ _ _
  | .and _ _ _ _ => Laws.RoundTrip.and _ _ _ _ | .or _ _ _ _ => Laws.RoundTrip.or _ _ _ _ | .xor _ _ _ _ => Laws.RoundTrip.xor _ _ _ _
  | .andn _ _ _ _ => Laws.RoundTrip.andn _ _ _ _ | .shl _ _ _ _ => Laws.RoundTrip.shl _ _ _ _ | .shr _ _ _ _ => Laws.RoundTrip.shr _ _ _ _
  | .sar _ _ _ _ => Laws.RoundTrip.sar _ _ _ _ | .rol _ _ _ _ => Laws.RoundTrip.rol _ _ _ _
  | .addImm _ _ _ _ => Laws.RoundTrip.addImm _ _ _ _ | .andImm _ _ _ _ => Laws.RoundTrip.andImm _ _ _ _
  | .orImm _ _ _ _ => Laws.RoundTrip.orImm _ _ _ _ | .xorImm _ _ _ _ => Laws.RoundTrip.xorImm _ _ _ _
  | .shlImm _ _ _ _ => Laws.RoundTrip.shlImm _ _ _ _ | .shrImm _ _ _ _ => Laws.RoundTrip.shrImm _ _ _ _
  | .sarImm _ _ _ _ => Laws.RoundTrip.sarImm _ _ _ _ | .rolImm _ _ _ _ => Laws.RoundTrip.rolImm _ _ _ _
  | .mulImm _ _ _ _ => Laws.RoundTrip.mulImm _ _ _ _ | .movImm _ _ _ => Laws.RoundTrip.movImm _ _ _
  | .mov _ _ _ => Laws.RoundTrip.mov _ _ _ | .neg _ _ _ => Laws.RoundTrip.neg _ _ _ | .abs _ _ _ => Laws.RoundTrip.abs _ _ _
  | .clz _ _ _ => Laws.RoundTrip.clz _ _ _ | .ctz _ _ _ => Laws.RoundTrip.ctz _ _ _ | .popc _ _ _ => Laws.RoundTrip.popc _ _ _
  | .brev _ _ _ => Laws.RoundTrip.brev _ _ _ | .movCtl _ _ _ => Laws.RoundTrip.movCtl _ _ _ | .ext _ _ _ _ => Laws.RoundTrip.ext _ _ _ _
  | .extS _ _ _ _ => Laws.RoundTrip.extS _ _ _ _ | .ins _ _ _ _ => Laws.RoundTrip.ins _ _ _ _
  | .sel _ _ _ _ _ _ => Laws.RoundTrip.sel _ _ _ _ _ _ | .cmpEq _ _ _ _ => Laws.RoundTrip.cmpEq _ _ _ _
  | .cmpNe _ _ _ _ => Laws.RoundTrip.cmpNe _ _ _ _ | .cmpLt _ _ _ _ => Laws.RoundTrip.cmpLt _ _ _ _
  | .cmpGe _ _ _ _ => Laws.RoundTrip.cmpGe _ _ _ _ | .cmpLe _ _ _ _ => Laws.RoundTrip.cmpLe _ _ _ _
  | .cmpGt _ _ _ _ => Laws.RoundTrip.cmpGt _ _ _ _ | .cmpLo _ _ _ _ => Laws.RoundTrip.cmpLo _ _ _ _
  | .cmpHs _ _ _ _ => Laws.RoundTrip.cmpHs _ _ _ _ | .cmpLs _ _ _ _ => Laws.RoundTrip.cmpLs _ _ _ _
  | .cmpHi _ _ _ _ => Laws.RoundTrip.cmpHi _ _ _ _ | .cmpEqImm _ _ _ _ => Laws.RoundTrip.cmpEqImm _ _ _ _
  | .cmpNeImm _ _ _ _ => Laws.RoundTrip.cmpNeImm _ _ _ _ | .cmpLtImm _ _ _ _ => Laws.RoundTrip.cmpLtImm _ _ _ _
  | .cmpGeImm _ _ _ _ => Laws.RoundTrip.cmpGeImm _ _ _ _ | .cmpLeImm _ _ _ _ => Laws.RoundTrip.cmpLeImm _ _ _ _
  | .cmpGtImm _ _ _ _ => Laws.RoundTrip.cmpGtImm _ _ _ _ | .cmpLoImm _ _ _ _ => Laws.RoundTrip.cmpLoImm _ _ _ _
  | .cmpHsImm _ _ _ _ => Laws.RoundTrip.cmpHsImm _ _ _ _ | .const _ _ _ => Laws.RoundTrip.const _ _ _
  | .adda _ _ _ _ => Laws.RoundTrip.adda _ _ _ _ | .suba _ _ _ _ => Laws.RoundTrip.suba _ _ _ _
  | .addaImm _ _ _ _ => Laws.RoundTrip.addaImm _ _ _ _ | .subaImm _ _ _ _ => Laws.RoundTrip.subaImm _ _ _ _
  | .ptag _ _ _ _ => Laws.RoundTrip.ptag _ _ _ _ | .pfmt _ _ _ => Laws.RoundTrip.pfmt _ _ _ | .href _ _ _ _ => Laws.RoundTrip.href _ _ _ _
  | .lwin _ _ _ _ => Laws.RoundTrip.lwin _ _ _ _ | .lwinOwn _ _ _ => Laws.RoundTrip.lwinOwn _ _ _
  | .fadd _ _ _ _ => Laws.RoundTrip.fadd _ _ _ _ | .fsub _ _ _ _ => Laws.RoundTrip.fsub _ _ _ _
  | .fmul _ _ _ _ => Laws.RoundTrip.fmul _ _ _ _ | .fmin _ _ _ _ => Laws.RoundTrip.fmin _ _ _ _
  | .fmax _ _ _ _ => Laws.RoundTrip.fmax _ _ _ _ | .ffma _ _ _ _ => Laws.RoundTrip.ffma _ _ _ _
  | .fcmpEq _ _ _ _ => Laws.RoundTrip.fcmpEq _ _ _ _ | .fcmpNe _ _ _ _ => Laws.RoundTrip.fcmpNe _ _ _ _
  | .fcmpLt _ _ _ _ => Laws.RoundTrip.fcmpLt _ _ _ _ | .fcmpLe _ _ _ _ => Laws.RoundTrip.fcmpLe _ _ _ _
  | .fcmpGt _ _ _ _ => Laws.RoundTrip.fcmpGt _ _ _ _ | .fcmpGe _ _ _ _ => Laws.RoundTrip.fcmpGe _ _ _ _
  | .fcmpUn _ _ _ _ => Laws.RoundTrip.fcmpUn _ _ _ _ | .fcmpOr _ _ _ _ => Laws.RoundTrip.fcmpOr _ _ _ _
  | .fcvtF2i _ _ _ _ => Laws.RoundTrip.fcvtF2i _ _ _ _ | .fcvtF2n _ _ _ _ => Laws.RoundTrip.fcvtF2n _ _ _ _
  | .fcvtFint _ _ _ _ => Laws.RoundTrip.fcvtFint _ _ _ _ | .fcvtI2f _ _ _ => Laws.RoundTrip.fcvtI2f _ _ _
  | .fcvtN2f _ _ _ => Laws.RoundTrip.fcvtN2f _ _ _ | .fcvtF2h _ _ _ => Laws.RoundTrip.fcvtF2h _ _ _
  | .fcvtH2f _ _ _ => Laws.RoundTrip.fcvtH2f _ _ _ | .fcvtF2b _ _ _ => Laws.RoundTrip.fcvtF2b _ _ _
  | .fcvtB2f _ _ _ => Laws.RoundTrip.fcvtB2f _ _ _ | .fcvtF2w _ _ _ => Laws.RoundTrip.fcvtF2w _ _ _
  | .fcvtW2f _ _ _ => Laws.RoundTrip.fcvtW2f _ _ _ | .pand _ _ _ _ => Laws.RoundTrip.pand _ _ _ _
  | .por _ _ _ _ => Laws.RoundTrip.por _ _ _ _ | .pxor _ _ _ _ => Laws.RoundTrip.pxor _ _ _ _ | .pnot _ _ _ => Laws.RoundTrip.pnot _ _ _
  | .pmov _ _ _ => Laws.RoundTrip.pmov _ _ _ | .br _ _ => Laws.RoundTrip.br _ _ | .call _ _ => Laws.RoundTrip.call _ _
  | .jmp _ _ => Laws.RoundTrip.jmp _ _ | .callr _ _ _ => Laws.RoundTrip.callr _ _ _ | .loop _ _ _ => Laws.RoundTrip.loop _ _ _
  | .ldB _ _ _ _ => Laws.RoundTrip.ldB _ _ _ _ | .ldH _ _ _ _ => Laws.RoundTrip.ldH _ _ _ _ | .ldW _ _ _ _ => Laws.RoundTrip.ldW _ _ _ _
  | .ldD _ _ _ _ => Laws.RoundTrip.ldD _ _ _ _ | .stB _ _ _ _ => Laws.RoundTrip.stB _ _ _ _ | .stH _ _ _ _ => Laws.RoundTrip.stH _ _ _ _
  | .stW _ _ _ _ => Laws.RoundTrip.stW _ _ _ _ | .stD _ _ _ _ => Laws.RoundTrip.stD _ _ _ _
  | .ldBMig _ _ _ _ => Laws.RoundTrip.ldBMig _ _ _ _ | .ldHMig _ _ _ _ => Laws.RoundTrip.ldHMig _ _ _ _
  | .ldWMig _ _ _ _ => Laws.RoundTrip.ldWMig _ _ _ _ | .ldDMig _ _ _ _ => Laws.RoundTrip.ldDMig _ _ _ _
  | .stBMig _ _ _ _ => Laws.RoundTrip.stBMig _ _ _ _ | .stHMig _ _ _ _ => Laws.RoundTrip.stHMig _ _ _ _
  | .stWMig _ _ _ _ => Laws.RoundTrip.stWMig _ _ _ _ | .stDMig _ _ _ _ => Laws.RoundTrip.stDMig _ _ _ _
  | .pref _ _ _ => Laws.RoundTrip.pref _ _ _ | .lde _ _ _ _ => Laws.RoundTrip.lde _ _ _ _ | .ldf _ _ _ _ => Laws.RoundTrip.ldf _ _ _ _
  | .stf _ _ _ _ => Laws.RoundTrip.stf _ _ _ _ | .sts _ _ _ _ => Laws.RoundTrip.sts _ _ _ _ | .clre _ _ _ => Laws.RoundTrip.clre _ _ _
  | .arm _ _ => Laws.RoundTrip.arm _ _ | .rfill _ _ _ _ => Laws.RoundTrip.rfill _ _ _ _ | .aadd _ _ _ _ => Laws.RoundTrip.aadd _ _ _ _
  | .aminS _ _ _ _ => Laws.RoundTrip.aminS _ _ _ _ | .aminN _ _ _ _ => Laws.RoundTrip.aminN _ _ _ _
  | .amaxS _ _ _ _ => Laws.RoundTrip.amaxS _ _ _ _ | .amaxN _ _ _ _ => Laws.RoundTrip.amaxN _ _ _ _
  | .aand _ _ _ _ => Laws.RoundTrip.aand _ _ _ _ | .aor _ _ _ _ => Laws.RoundTrip.aor _ _ _ _
  | .axor _ _ _ _ => Laws.RoundTrip.axor _ _ _ _ | .aswp _ _ _ _ => Laws.RoundTrip.aswp _ _ _ _
  | .acas _ _ _ _ => Laws.RoundTrip.acas _ _ _ _ | .afadd _ _ _ _ => Laws.RoundTrip.afadd _ _ _ _ | .pst _ _ _ => Laws.RoundTrip.pst _ _ _
  | .pstF _ _ _ => Laws.RoundTrip.pstF _ _ _ | .waitaEq _ _ _ => Laws.RoundTrip.waitaEq _ _ _
  | .waitaNe _ _ _ => Laws.RoundTrip.waitaNe _ _ _ | .waitaHs _ _ _ => Laws.RoundTrip.waitaHs _ _ _
  | .waitaEqT _ _ _ _ => Laws.RoundTrip.waitaEqT _ _ _ _ | .waitaNeT _ _ _ _ => Laws.RoundTrip.waitaNeT _ _ _ _
  | .waitaHsT _ _ _ _ => Laws.RoundTrip.waitaHsT _ _ _ _ | .fenceCore _ => Laws.RoundTrip.fenceCore _
  | .fenceDev _ => Laws.RoundTrip.fenceDev _ | .fenceSys _ => Laws.RoundTrip.fenceSys _ | .xfence _ _ _ => Laws.RoundTrip.xfence _ _ _
  | .chend _ => Laws.RoundTrip.chend _ | .spawn _ _ _ _ _ => Laws.RoundTrip.spawn _ _ _ _ _ | .quit _ => Laws.RoundTrip.quit _
  | .yield _ => Laws.RoundTrip.yield _ | .hend _ => Laws.RoundTrip.hend _ | .publ _ => Laws.RoundTrip.publ _
  | .sdrop _ => Laws.RoundTrip.sdrop _ | .join _ _ _ => Laws.RoundTrip.join _ _ _ | .leave _ _ => Laws.RoundTrip.leave _ _
  | .gbar _ _ => Laws.RoundTrip.gbar _ _ | .migr _ _ _ => Laws.RoundTrip.migr _ _ _ | .send _ _ _ _ => Laws.RoundTrip.send _ _ _ _
  | .watch _ _ _ => Laws.RoundTrip.watch _ _ _ | .unwatch _ _ => Laws.RoundTrip.unwatch _ _ | .launch _ _ _ => Laws.RoundTrip.launch _ _ _
  | .mzero _ _ => Laws.RoundTrip.mzero _ _ | .mma _ _ _ _ => Laws.RoundTrip.mma _ _ _ _ | .mring _ _ _ => Laws.RoundTrip.mring _ _ _
  | .mldb _ _ => Laws.RoundTrip.mldb _ _ | .mstore _ _ _ => Laws.RoundTrip.mstore _ _ _ | .maccLd _ _ _ => Laws.RoundTrip.maccLd _ _ _
  | .maccAdd _ _ _ => Laws.RoundTrip.maccAdd _ _ _ | .mcfg _ _ _ => Laws.RoundTrip.mcfg _ _ _ | .mget _ _ _ => Laws.RoundTrip.mget _ _ _
  | .snormClr _ => Laws.RoundTrip.snormClr _ | .snormA _ _ _ => Laws.RoundTrip.snormA _ _ _ | .snormB _ _ _ => Laws.RoundTrip.snormB _ _ _
  | .sngetA _ _ => Laws.RoundTrip.sngetA _ _ | .sngetB _ _ => Laws.RoundTrip.sngetB _ _ | .snputA _ _ => Laws.RoundTrip.snputA _ _
  | .snputB _ _ => Laws.RoundTrip.snputB _ _ | .salias _ => Laws.RoundTrip.salias _ | .sseed _ _ => Laws.RoundTrip.sseed _ _
  | .srun _ _ _ _ => Laws.RoundTrip.srun _ _ _ _ | .svar _ _ _ => Laws.RoundTrip.svar _ _ _ | .pload _ _ _ => Laws.RoundTrip.pload _ _ _
  | .pscore _ _ => Laws.RoundTrip.pscore _ _ | .psel _ _ => Laws.RoundTrip.psel _ _ | .assay _ _ _ _ => Laws.RoundTrip.assay _ _ _ _
  | .aread _ _ _ => Laws.RoundTrip.aread _ _ _ | .vadd _ _ _ _ _ => Laws.RoundTrip.vadd _ _ _ _ _
  | .vsub _ _ _ _ _ => Laws.RoundTrip.vsub _ _ _ _ _ | .vmul _ _ _ _ _ => Laws.RoundTrip.vmul _ _ _ _ _
  | .vfma _ _ _ _ _ => Laws.RoundTrip.vfma _ _ _ _ _ | .vmin _ _ _ _ _ => Laws.RoundTrip.vmin _ _ _ _ _
  | .vmax _ _ _ _ _ => Laws.RoundTrip.vmax _ _ _ _ _ | .vabs _ _ _ _ => Laws.RoundTrip.vabs _ _ _ _
  | .vneg _ _ _ _ => Laws.RoundTrip.vneg _ _ _ _ | .vrndRne _ _ _ _ => Laws.RoundTrip.vrndRne _ _ _ _
  | .vrndRz _ _ _ _ => Laws.RoundTrip.vrndRz _ _ _ _ | .vrndRd _ _ _ _ => Laws.RoundTrip.vrndRd _ _ _ _
  | .vrndRu _ _ _ _ => Laws.RoundTrip.vrndRu _ _ _ _ | .vfexp2 _ _ _ _ => Laws.RoundTrip.vfexp2 _ _ _ _
  | .vscale _ _ _ _ _ => Laws.RoundTrip.vscale _ _ _ _ _ | .vrcp _ _ _ _ => Laws.RoundTrip.vrcp _ _ _ _
  | .vrsq _ _ _ _ => Laws.RoundTrip.vrsq _ _ _ _ | .vcmpEq _ _ _ _ _ => Laws.RoundTrip.vcmpEq _ _ _ _ _
  | .vcmpNe _ _ _ _ _ => Laws.RoundTrip.vcmpNe _ _ _ _ _ | .vcmpLt _ _ _ _ _ => Laws.RoundTrip.vcmpLt _ _ _ _ _
  | .vcmpLe _ _ _ _ _ => Laws.RoundTrip.vcmpLe _ _ _ _ _ | .vcmpGt _ _ _ _ _ => Laws.RoundTrip.vcmpGt _ _ _ _ _
  | .vcmpGe _ _ _ _ _ => Laws.RoundTrip.vcmpGe _ _ _ _ _ | .vcmpUn _ _ _ _ _ => Laws.RoundTrip.vcmpUn _ _ _ _ _
  | .vcmpOr _ _ _ _ _ => Laws.RoundTrip.vcmpOr _ _ _ _ _ | .vsel _ _ _ _ _ => Laws.RoundTrip.vsel _ _ _ _ _
  | .viadd _ _ _ _ _ => Laws.RoundTrip.viadd _ _ _ _ _ | .visub _ _ _ _ _ => Laws.RoundTrip.visub _ _ _ _ _
  | .vimul _ _ _ _ _ => Laws.RoundTrip.vimul _ _ _ _ _ | .vand _ _ _ _ _ => Laws.RoundTrip.vand _ _ _ _ _
  | .vor _ _ _ _ _ => Laws.RoundTrip.vor _ _ _ _ _ | .vxor _ _ _ _ _ => Laws.RoundTrip.vxor _ _ _ _ _
  | .vshl _ _ _ _ _ => Laws.RoundTrip.vshl _ _ _ _ _ | .vshr _ _ _ _ _ => Laws.RoundTrip.vshr _ _ _ _ _
  | .vshrS _ _ _ _ _ => Laws.RoundTrip.vshrS _ _ _ _ _ | .vrsum _ _ _ _ => Laws.RoundTrip.vrsum _ _ _ _
  | .vnzc _ _ _ _ => Laws.RoundTrip.vnzc _ _ _ _ | .vnzb _ _ _ _ => Laws.RoundTrip.vnzb _ _ _ _
  | .vperm _ _ _ _ _ => Laws.RoundTrip.vperm _ _ _ _ _ | .vslide _ _ _ _ _ _ => Laws.RoundTrip.vslide _ _ _ _ _ _
  | .vcvtF2i _ _ _ _ => Laws.RoundTrip.vcvtF2i _ _ _ _ | .vcvtF2iRz _ _ _ _ => Laws.RoundTrip.vcvtF2iRz _ _ _ _
  | .vcvtI2f _ _ _ _ => Laws.RoundTrip.vcvtI2f _ _ _ _ | .vcvtF2b _ _ _ _ => Laws.RoundTrip.vcvtF2b _ _ _ _
  | .vcvtB2f _ _ _ _ => Laws.RoundTrip.vcvtB2f _ _ _ _ | .vcvtF2h _ _ _ _ => Laws.RoundTrip.vcvtF2h _ _ _ _
  | .vcvtH2f _ _ _ _ => Laws.RoundTrip.vcvtH2f _ _ _ _ | .vld _ _ _ => Laws.RoundTrip.vld _ _ _ | .vst _ _ _ => Laws.RoundTrip.vst _ _ _
  | .vlds _ _ _ _ => Laws.RoundTrip.vlds _ _ _ _ | .vldx _ _ _ => Laws.RoundTrip.vldx _ _ _ | .vldb _ _ _ _ => Laws.RoundTrip.vldb _ _ _ _
  | .vstb _ _ _ _ => Laws.RoundTrip.vstb _ _ _ _ | .vputs _ _ _ => Laws.RoundTrip.vputs _ _ _ | .vgets _ _ _ => Laws.RoundTrip.vgets _ _ _
  | .vcfg _ _ _ => Laws.RoundTrip.vcfg _ _ _ | .vget _ _ _ => Laws.RoundTrip.vget _ _ _ | .ccopy _ _ _ => Laws.RoundTrip.ccopy _ _ _
  | .cfill _ _ => Laws.RoundTrip.cfill _ _ | .ctcopy _ _ _ => Laws.RoundTrip.ctcopy _ _ _ | .cgather _ _ _ => Laws.RoundTrip.cgather _ _ _
  | .cscatter _ _ _ => Laws.RoundTrip.cscatter _ _ _ | .ccopyF _ _ _ => Laws.RoundTrip.ccopyF _ _ _
  | .ccfg _ _ _ => Laws.RoundTrip.ccfg _ _ _ | .cget _ _ _ => Laws.RoundTrip.cget _ _ _ | .halloc _ _ _ => Laws.RoundTrip.halloc _ _ _
  | .hfree _ _ => Laws.RoundTrip.hfree _ _ | .hwiden _ _ _ => Laws.RoundTrip.hwiden _ _ _ | .hpin _ _ _ => Laws.RoundTrip.hpin _ _ _
  | .hunpin _ _ => Laws.RoundTrip.hunpin _ _ | .hstageA _ _ _ => Laws.RoundTrip.hstageA _ _ _
  | .hstageB _ _ _ => Laws.RoundTrip.hstageB _ _ _ | .hstageNc _ _ _ => Laws.RoundTrip.hstageNc _ _ _
  | .hstageNr _ _ _ => Laws.RoundTrip.hstageNr _ _ _ | .hinfo _ _ _ => Laws.RoundTrip.hinfo _ _ _
  | .hown _ _ _ => Laws.RoundTrip.hown _ _ _ | .hsync _ _ => Laws.RoundTrip.hsync _ _ | .hopRowsum _ _ _ => Laws.RoundTrip.hopRowsum _ _ _
  | .hopColsum _ _ _ => Laws.RoundTrip.hopColsum _ _ _ | .hopScale _ _ _ => Laws.RoundTrip.hopScale _ _ _
  | .hopAddh _ _ _ => Laws.RoundTrip.hopAddh _ _ _ | .hopMulh _ _ _ => Laws.RoundTrip.hopMulh _ _ _
  | .hopAxpy _ _ _ => Laws.RoundTrip.hopAxpy _ _ _ | .hopFill _ _ _ => Laws.RoundTrip.hopFill _ _ _
  | .hopFillImg _ _ _ => Laws.RoundTrip.hopFillImg _ _ _ | .hopTranspose _ _ _ => Laws.RoundTrip.hopTranspose _ _ _
  | .hopCopyin _ _ _ => Laws.RoundTrip.hopCopyin _ _ _ | .hopCopyout _ _ _ => Laws.RoundTrip.hopCopyout _ _ _
  | .hopGrows _ _ _ => Laws.RoundTrip.hopGrows _ _ _ | .hopSrows _ _ _ => Laws.RoundTrip.hopSrows _ _ _
  | .nmc _ _ _ => Laws.RoundTrip.nmc _ _ _ | .nmload _ _ _ => Laws.RoundTrip.nmload _ _ _ | .nmrow _ _ _ => Laws.RoundTrip.nmrow _ _ _
  | .nmstat _ _ _ => Laws.RoundTrip.nmstat _ _ _ | .trap _ _ => Laws.RoundTrip.trap _ _ | .tret _ => Laws.RoundTrip.tret _
  | .mfs _ _ _ => Laws.RoundTrip.mfs _ _ _ | .mts _ _ _ => Laws.RoundTrip.mts _ _ _ | .mtsWdog _ _ => Laws.RoundTrip.mtsWdog _ _
  | .bkpt _ => Laws.RoundTrip.bkpt _ | .idle _ => Laws.RoundTrip.idle _ | .idleT _ _ => Laws.RoundTrip.idleT _ _
  | .tload _ _ _ => Laws.RoundTrip.tload _ _ _ | .synci _ _ _ => Laws.RoundTrip.synci _ _ _
  | .harvest _ _ _ => Laws.RoundTrip.harvest _ _ _ | .ctxswap _ _ _ => Laws.RoundTrip.ctxswap _ _ _ | .nop => Laws.RoundTrip.nop
  | .ill => Laws.RoundTrip.ill | .hostLaunchWrite _ _ _ => Laws.RoundTrip.hostLaunchWrite _ _ _
  | .launchAdmission _ => Laws.RoundTrip.launchAdmission _ | .threadPlacement => Laws.RoundTrip.threadPlacement
  | .localContextExchange _ _ => Laws.RoundTrip.localContextExchange _ _
  | .engineContextExchange _ _ => Laws.RoundTrip.engineContextExchange _ _ | .launchAgeing _ => Laws.RoundTrip.launchAgeing _
  | .dispatchPreemption => Laws.RoundTrip.dispatchPreemption | .threadPreemption _ => Laws.RoundTrip.threadPreemption _
  | .slotFill _ => Laws.RoundTrip.slotFill _ | .loadBalance _ => Laws.RoundTrip.loadBalance _
  | .spawnPacketAccept _ => Laws.RoundTrip.spawnPacketAccept _ | .migrationDeparture _ _ _ => Laws.RoundTrip.migrationDeparture _ _ _
  | .migrationArrival _ _ => Laws.RoundTrip.migrationArrival _ _ | .replyArrival _ _ _ => Laws.RoundTrip.replyArrival _ _ _
  | .portWordDelivery _ _ _ _ => Laws.RoundTrip.portWordDelivery _ _ _ _ | .messageArrival _ _ => Laws.RoundTrip.messageArrival _ _
  | .messageHandlerStart _ => Laws.RoundTrip.messageHandlerStart _ | .lightHandlerStart _ => Laws.RoundTrip.lightHandlerStart _
  | .chunkCommit _ => Laws.RoundTrip.chunkCommit _ | .waitaTimeout _ _ => Laws.RoundTrip.waitaTimeout _ _
  | .idleTimeout _ _ => Laws.RoundTrip.idleTimeout _ _ | .barrierRelease _ _ => Laws.RoundTrip.barrierRelease _ _
  | .fullEmptyHomeAccess _ => Laws.RoundTrip.fullEmptyHomeAccess _ | .remoteAccessArrival _ => Laws.RoundTrip.remoteAccessArrival _
  | .atomicApply _ => Laws.RoundTrip.atomicApply _ | .rfillDelivery _ _ _ _ => Laws.RoundTrip.rfillDelivery _ _ _ _
  | .postedStoreApply _ _ => Laws.RoundTrip.postedStoreApply _ _ | .postedStoreAck _ _ => Laws.RoundTrip.postedStoreAck _ _
  | .postedStoreRefusal _ _ => Laws.RoundTrip.postedStoreRefusal _ _
  | .faultQueueResolution _ _ _ => Laws.RoundTrip.faultQueueResolution _ _ _ | .fenceCompletion _ _ => Laws.RoundTrip.fenceCompletion _ _
  | .xfenceCompletion _ _ _ _ _ => Laws.RoundTrip.xfenceCompletion _ _ _ _ _
  | .engineCommandStart _ _ => Laws.RoundTrip.engineCommandStart _ _
  | .vectorCommandCompletion _ => Laws.RoundTrip.vectorCommandCompletion _
  | .matrixCommandCompletion _ => Laws.RoundTrip.matrixCommandCompletion _ | .mringStepStart _ => Laws.RoundTrip.mringStepStart _
  | .tileDelivery _ => Laws.RoundTrip.tileDelivery _ | .copyCommandCompletion _ => Laws.RoundTrip.copyCommandCompletion _
  | .handleCommandAdmission _ => Laws.RoundTrip.handleCommandAdmission _
  | .handleOperationCompletion _ _ => Laws.RoundTrip.handleOperationCompletion _ _
  | .dresserRedress _ _ => Laws.RoundTrip.dresserRedress _ _ | .redressStart _ _ => Laws.RoundTrip.redressStart _ _
  | .redressComplete _ _ => Laws.RoundTrip.redressComplete _ _ | .tloadBuildComplete _ _ => Laws.RoundTrip.tloadBuildComplete _ _
  | .nmProgramStart _ => Laws.RoundTrip.nmProgramStart _ | .nmProgramStop _ _ _ => Laws.RoundTrip.nmProgramStop _ _ _
  | .nmrowStop _ => Laws.RoundTrip.nmrowStop _ | .watchdogExpiry _ => Laws.RoundTrip.watchdogExpiry _
  | .contextStart _ => Laws.RoundTrip.contextStart _ | .contextStopDispatch _ => Laws.RoundTrip.contextStopDispatch _
  | .contextEnd _ => Laws.RoundTrip.contextEnd _ | .hostWdogWrite _ _ => Laws.RoundTrip.hostWdogWrite _ _
  | .hostErrClear _ => Laws.RoundTrip.hostErrClear _ | .hostMessagePush _ _ _ => Laws.RoundTrip.hostMessagePush _ _ _
  | .hostRegisterWrite _ _ => Laws.RoundTrip.hostRegisterWrite _ _
  | .translationInvalidation _ => Laws.RoundTrip.translationInvalidation _
  | .translationInvalidationComplete _ => Laws.RoundTrip.translationInvalidationComplete _
  | .debugHalt _ _ => Laws.RoundTrip.debugHalt _ _ | .debugView _ _ => Laws.RoundTrip.debugView _ _
  | .debugResume _ _ => Laws.RoundTrip.debugResume _ _ | .debugDetach _ => Laws.RoundTrip.debugDetach _
  | .faceFence _ => Laws.RoundTrip.faceFence _ | .faceFailure _ => Laws.RoundTrip.faceFailure _
  | .faceReset _ => Laws.RoundTrip.faceReset _ | .freezeRequest => Laws.RoundTrip.freezeRequest
  | .freezeFaceTimeout _ => Laws.RoundTrip.freezeFaceTimeout _ | .freezeComplete => Laws.RoundTrip.freezeComplete
  | .freezeResume _ => Laws.RoundTrip.freezeResume _ | .attestationRequest => Laws.RoundTrip.attestationRequest
  | .hostCxlWrite _ _ => Laws.RoundTrip.hostCxlWrite _ _ | .hostCxlRead _ _ => Laws.RoundTrip.hostCxlRead _ _
  | .remoteDeviceAccess _ _ _ => Laws.RoundTrip.remoteDeviceAccess _ _ _ | .helvenLinkLoss _ => Laws.RoundTrip.helvenLinkLoss _
  | .linkLossTimeout _ => Laws.RoundTrip.linkLossTimeout _ | .stackLoss _ => Laws.RoundTrip.stackLoss _
  | .hostPortLoss _ => Laws.RoundTrip.hostPortLoss _ | .thermalTrip _ _ => Laws.RoundTrip.thermalTrip _ _
  | .moduleReset => Laws.RoundTrip.moduleReset | .throttleInterval _ => Laws.RoundTrip.throttleInterval _
  | .activeBankLimitChange _ _ => Laws.RoundTrip.activeBankLimitChange _ _ | .ageingUpdate _ => Laws.RoundTrip.ageingUpdate _
  | .scrubRead _ _ => Laws.RoundTrip.scrubRead _ _ | .rowDisturbanceAlert _ _ _ => Laws.RoundTrip.rowDisturbanceAlert _ _ _
  | .refreshWindowEnd _ => Laws.RoundTrip.refreshWindowEnd _ | .coreCycle _ => Laws.RoundTrip.coreCycle _
  | .overlayLoadComplete _ _ => Laws.RoundTrip.overlayLoadComplete _ _
  | .debuggerRegisterWrite _ _ _ _ => Laws.RoundTrip.debuggerRegisterWrite _ _ _ _ | .bedLoss => Laws.RoundTrip.bedLoss

/-- A B source with its literal words at zero. -/
def Src.blank : Src → Src
  | .reg n => .reg n
  | .lit32 _ => .lit32 0#32
  | .lit64 _ => .lit64 0#64

theorem Src.code_blank (b : Src) : b.blank.code = b.code := by cases b <;> rfl
theorem Src.ok_blank (b : Src) : b.blank.ok = b.ok := by cases b <;> rfl
theorem Src.words_blank (b : Src) : b.blank.words = List.replicate b.words.length 0#32 := by cases b <;> rfl

/-- The instruction that the first word of an instruction decodes to when only zeros follow it: its own, but for its literal. -/
def Instr.blank : Instr → Instr
  | .add d a b g => .add d a b.blank g
  | .sub d a b g => .sub d a b.blank g
  | .mul d a b g => .mul d a b.blank g
  | .mulhS d a b g => .mulhS d a b.blank g
  | .mulhN d a b g => .mulhN d a b.blank g
  | .divS d a b g => .divS d a b.blank g
  | .divN d a b g => .divN d a b.blank g
  | .remS d a b g => .remS d a b.blank g
  | .remN d a b g => .remN d a b.blank g
  | .minS d a b g => .minS d a b.blank g
  | .minN d a b g => .minN d a b.blank g
  | .maxS d a b g => .maxS d a b.blank g
  | .maxN d a b g => .maxN d a b.blank g
  | .and d a b g => .and d a b.blank g
  | .or d a b g => .or d a b.blank g
  | .xor d a b g => .xor d a b.blank g
  | .andn d a b g => .andn d a b.blank g
  | .shl d a b g => .shl d a b.blank g
  | .shr d a b g => .shr d a b.blank g
  | .sar d a b g => .sar d a b.blank g
  | .rol d a b g => .rol d a b.blank g
  | .mov d b g => .mov d b.blank g
  | .neg d b g => .neg d b.blank g
  | .abs d b g => .abs d b.blank g
  | .clz d b g => .clz d b.blank g
  | .ctz d b g => .ctz d b.blank g
  | .popc d b g => .popc d b.blank g
  | .brev d b g => .brev d b.blank g
  | .movCtl d b g => .movCtl d b.blank g
  | .ext d a b g => .ext d a b.blank g
  | .extS d a b g => .extS d a b.blank g
  | .ins d a b g => .ins d a b.blank g
  | .sel d a b k n g => .sel d a b.blank k n g
  | .cmpEq d a b g => .cmpEq d a b.blank g
  | .cmpNe d a b g => .cmpNe d a b.blank g
  | .cmpLt d a b g => .cmpLt d a b.blank g
  | .cmpGe d a b g => .cmpGe d a b.blank g
  | .cmpLe d a b g => .cmpLe d a b.blank g
  | .cmpGt d a b g => .cmpGt d a b.blank g
  | .cmpLo d a b g => .cmpLo d a b.blank g
  | .cmpHs d a b g => .cmpHs d a b.blank g
  | .cmpLs d a b g => .cmpLs d a b.blank g
  | .cmpHi d a b g => .cmpHi d a b.blank g
  | .adda d a b g => .adda d a b.blank g
  | .suba d a b g => .suba d a b.blank g
  | .ptag d a b g => .ptag d a b.blank g
  | .href d a b g => .href d a b.blank g
  | .lwin d a b g => .lwin d a b.blank g
  | .lwinOwn d b g => .lwinOwn d b.blank g
  | .fadd d a b g => .fadd d a b.blank g
  | .fsub d a b g => .fsub d a b.blank g
  | .fmul d a b g => .fmul d a b.blank g
  | .fmin d a b g => .fmin d a b.blank g
  | .fmax d a b g => .fmax d a b.blank g
  | .ffma d a b g => .ffma d a b.blank g
  | .fcmpEq d a b g => .fcmpEq d a b.blank g
  | .fcmpNe d a b g => .fcmpNe d a b.blank g
  | .fcmpLt d a b g => .fcmpLt d a b.blank g
  | .fcmpLe d a b g => .fcmpLe d a b.blank g
  | .fcmpGt d a b g => .fcmpGt d a b.blank g
  | .fcmpGe d a b g => .fcmpGe d a b.blank g
  | .fcmpUn d a b g => .fcmpUn d a b.blank g
  | .fcmpOr d a b g => .fcmpOr d a b.blank g
  | .fcvtF2i d b m g => .fcvtF2i d b.blank m g
  | .fcvtF2n d b m g => .fcvtF2n d b.blank m g
  | .fcvtFint d b m g => .fcvtFint d b.blank m g
  | .fcvtI2f d b g => .fcvtI2f d b.blank g
  | .fcvtN2f d b g => .fcvtN2f d b.blank g
  | .fcvtF2h d b g => .fcvtF2h d b.blank g
  | .fcvtH2f d b g => .fcvtH2f d b.blank g
  | .fcvtF2b d b g => .fcvtF2b d b.blank g
  | .fcvtB2f d b g => .fcvtB2f d b.blank g
  | .fcvtF2w d b g => .fcvtF2w d b.blank g
  | .fcvtW2f d b g => .fcvtW2f d b.blank g
  | .jmp b g => .jmp b.blank g
  | .callr d b g => .callr d b.blank g
  | .rfill d a b g => .rfill d a b.blank g
  | .aadd d a b g => .aadd d a b.blank g
  | .aminS d a b g => .aminS d a b.blank g
  | .aminN d a b g => .aminN d a b.blank g
  | .amaxS d a b g => .amaxS d a b.blank g
  | .amaxN d a b g => .amaxN d a b.blank g
  | .aand d a b g => .aand d a b.blank g
  | .aor d a b g => .aor d a b.blank g
  | .axor d a b g => .axor d a b.blank g
  | .aswp d a b g => .aswp d a b.blank g
  | .acas d a b g => .acas d a b.blank g
  | .afadd d a b g => .afadd d a b.blank g
  | .pst a b g => .pst a b.blank g
  | .pstF a b g => .pstF a b.blank g
  | .waitaEq a b g => .waitaEq a b.blank g
  | .waitaNe a b g => .waitaNe a b.blank g
  | .waitaHs a b g => .waitaHs a b.blank g
  | .waitaEqT d a b g => .waitaEqT d a b.blank g
  | .waitaNeT d a b g => .waitaNeT d a b.blank g
  | .waitaHsT d a b g => .waitaHsT d a b.blank g
  | .xfence a b g => .xfence a b.blank g
  | .spawn d a b n g => .spawn d a b.blank n g
  | .join a b g => .join a b.blank g
  | .migr a b g => .migr a b.blank g
  | i => i

theorem Instr.wf_blank (i : Instr) : i.blank.wf = i.wf := by
  cases i <;> simp only [Instr.blank, Instr.wf, Src.ok_blank]

/-- Only a B source has literal words: a device step has no word at all, every other form has one. -/
theorem Instr.encode_blank (i : Instr) : encode i.blank = (encode i).take 1 ++ List.replicate ((encode i).length - 1) 0#32 := by
  cases i <;> simp only [Instr.blank, encode, Src.code_blank, Src.words_blank, List.take_succ_cons, List.take_zero, List.take_nil,
    List.length_cons, List.length_nil, Nat.zero_add, Nat.add_sub_cancel, Nat.zero_sub, Nat.sub_self, List.replicate_zero,
    List.append_nil, List.cons_append, List.nil_append]

theorem Instr.length_encode_blank (i : Instr) : (encode i.blank).length = (encode i).length := by
  rw [Instr.encode_blank, List.length_append, List.length_take, List.length_replicate]
  omega

theorem Instr.getD_encode_blank (i : Instr) : (encode i.blank).getD 0 0#32 = (encode i).getD 0 0#32 ∧
    (encode i.blank).getD 1 0#32 = 0#32 ∧ (encode i.blank).getD 2 0#32 = 0#32 := by
  rw [Instr.encode_blank]
  cases encode i with
  | nil => exact ⟨rfl, rfl, rfl⟩
  | cons w ws =>
    cases ws with
    | nil => exact ⟨rfl, rfl, rfl⟩
    | cons v vs => cases vs <;> exact ⟨rfl, rfl, rfl⟩

/-- The first word of a well-formed instruction tells how many it has (R107). -/
theorem wordCount_encode {i : Instr} (h : i.wf = true) : wordCount ((encode i).getD 0 0#32) = (encode i).length := by
  obtain ⟨h0, h1, h2⟩ := i.getD_encode_blank
  have hd := Laws.RoundTrip.all i.blank (i.wf_blank.trans h) 0#32 0#32
  rw [h0, h1, h2] at hd
  unfold wordCount
  rw [hd]
  exact i.length_encode_blank

theorem Src.length_words_lt (b : Src) : b.words.length < 3 := by cases b <;> simp [Src.words]

theorem length_encode_le (i : Instr) : (encode i).length ≤ 3 := by
  cases i <;> simp [encode, Src.length_words_lt]

/-- A well-formed instruction has a word: a step without one would be what the word 0 decodes to, and that is ILL. -/
theorem length_encode_pos {i : Instr} (h : i.wf = true) : 0 < (encode i).length := by
  refine List.length_pos_of_ne_nil fun hnil => ?_
  have hd := Laws.RoundTrip.all i h 0#32 0#32
  have hill := Laws.RoundTrip.all .ill rfl 0#32 0#32
  rw [hnil] at hd
  have hi : i = .ill := Option.some.inj (hd.symm.trans hill)
  rw [hi] at hnil
  exact List.cons_ne_nil _ _ hnil

end Sys2Proof

namespace Sys2Proof.Machine

/-! ### The state in which a turn is taken -/

/-- The state with a turn taken: the turns that are left, the thread whose turn it is, and its first word. -/
def State.issuing (s : State) (rest : List Nat) (u : Nat) (w : Half) : State := { s with turns := rest, cur := u, iword := w }

section issuing
variable (s : State) (rest : List Nat) (u : Nat) (w : Half)

theorem State.writeBackByte_issuing (loc : Nat) :
    (s.issuing rest u w).writeBackByte loc = (s.writeBackByte loc).issuing rest u w := by
  unfold State.writeBackByte
  change (match Tab.find? s.near loc with | none => _ | some n => _) = _
  cases Tab.find? s.near loc with
  | none => rfl
  | some n => dsimp only; split <;> rfl

theorem State.writeBackLine_issuing (line : Nat) :
    (s.issuing rest u w).writeBackLine line = (s.writeBackLine line).issuing rest u w := by
  have hfold : ∀ (l : List Nat) (s : State), l.foldl (fun s i => s.writeBackByte (64 * line + i)) (s.issuing rest u w) =
      (l.foldl (fun s i => s.writeBackByte (64 * line + i)) s).issuing rest u w := by
    intro l
    induction l with
    | nil => intro s; rfl
    | cons i l ih => intro s; rw [List.foldl_cons, List.foldl_cons, State.writeBackByte_issuing, ih]
  unfold State.writeBackLine
  rw [hfold]
  rfl

theorem State.mayEvict_issuing (line : Nat) : (s.issuing rest u w).mayEvict line = (s.mayEvict line).issuing rest u w := by
  unfold State.mayEvict
  change (if s.staleLine line then _ else _) = _
  cases s.staleLine line with
  | false => rfl
  | true =>
    change (if (s.choose 2).1 = 1 then ((s.choose 2).2.issuing rest u w).writeBackLine line else (s.choose 2).2.issuing rest u w) = _
    rw [State.writeBackLine_issuing]
    simp only [if_true]
    split <;> rfl

theorem State.meetError_issuing (line : Nat) : (s.issuing rest u w).meetError line = (s.meetError line).issuing rest u w := by
  unfold State.meetError
  change (if Store.get s.latent line = 0#1 then _ else _) = _
  split <;> rfl

theorem State.touchLine_issuing (line : Nat) : (s.issuing rest u w).touchLine line = (s.touchLine line).issuing rest u w := by
  unfold State.touchLine
  dsimp only
  rw [State.mayEvict_issuing, State.meetError_issuing]
  have hl : ((s.mayEvict line).issuing rest u w).holdsLine line = (s.mayEvict line).holdsLine line := rfl
  rw [hl]
  cases (s.mayEvict line).holdsLine line <;> rfl

theorem State.reachLine_issuing (t : Thread) (loc : Nat) :
    (s.issuing rest u w).reachLine t loc = (s.reachLine t loc).issuing rest u w := by
  unfold State.reachLine
  rw [State.meetError_issuing, State.touchLine_issuing]
  split
  · split <;> rfl
  · rfl

theorem State.mapPage_issuing (e : TEntry) : (s.issuing rest u w).mapPage e = (s.mapPage e).issuing rest u w := by
  unfold State.mapPage
  dsimp only
  change (if s.mapped.contains (e.ctx, e.page, e.frame) then _ else _) = _
  split <;> rfl

theorem State.cacheEntry_issuing (e : TEntry) : (s.issuing rest u w).cacheEntry e = (s.cacheEntry e).issuing rest u w := by
  unfold State.cacheEntry
  dsimp only
  change (if s.tcache.any _ then _ else if (s.tcache.filter _).length < _ then _ else _) = _
  split
  · rfl
  · split <;> rfl

theorem State.useEntry_issuing (e : TEntry) (write : Bool) :
    (s.issuing rest u w).useEntry e write = (s.useEntry e write).issuing rest u w := by
  unfold State.useEntry
  dsimp only
  rw [State.mapPage_issuing, State.cacheEntry_issuing]
  rfl

end issuing

/-! ### What a fetch leaves alone -/

section fetched
variable (s : State)

@[simp] theorem State.threads_reachLine (t : Thread) (loc : Nat) : (s.reachLine t loc).threads = s.threads := by
  unfold State.reachLine
  split
  · split
    · exact s.threads_meetError _
    · exact s.threads_touchLine _
  · rfl

@[simp] theorem State.threads_mapPage (e : TEntry) : (s.mapPage e).threads = s.threads := by
  unfold State.mapPage; dsimp only; split <;> rfl
@[simp] theorem State.mem_mapPage (e : TEntry) : (s.mapPage e).mem = s.mem := by
  unfold State.mapPage; dsimp only; split <;> rfl
@[simp] theorem State.threads_cacheEntry (e : TEntry) : (s.cacheEntry e).threads = s.threads := by
  unfold State.cacheEntry; dsimp only; split
  · rfl
  · split <;> rfl
@[simp] theorem State.mem_cacheEntry (e : TEntry) : (s.cacheEntry e).mem = s.mem := by
  unfold State.cacheEntry; dsimp only; split
  · rfl
  · split <;> rfl
@[simp] theorem State.threads_useEntry (e : TEntry) (write : Bool) : (s.useEntry e write).threads = s.threads := by
  unfold State.useEntry; simp
@[simp] theorem State.mem_useEntry (e : TEntry) (write : Bool) : (s.useEntry e write).mem = s.mem := by
  unfold State.useEntry; simp

end fetched

/-! ### The fetch of one word -/

/-- The state after the word of a thread on a general core has been read at a place, through a translation (R315, R334). -/
def State.afterWord (t : Thread) (s : State) (p : TEntry × Nat) : State := (s.reachLine t p.2).useEntry p.1 false

theorem State.threads_afterWord (t : Thread) (s : State) (p : TEntry × Nat) : (s.afterWord t p).threads = s.threads := by
  unfold State.afterWord; simp
theorem State.threads_afterWords (t : Thread) (es : List (TEntry × Nat)) (s : State) :
    (es.foldl (State.afterWord t) s).threads = s.threads :=
  foldl_keeps (p := fun s : State => s.threads) (State.threads_afterWord t) es s
theorem State.afterWord_issuing (t : Thread) (s : State) (p : TEntry × Nat) (rest : List Nat) (u : Nat) (w : Half) :
    State.afterWord t (s.issuing rest u w) p = (s.afterWord t p).issuing rest u w := by
  unfold State.afterWord
  rw [State.reachLine_issuing, State.useEntry_issuing]
theorem State.afterWords_issuing (t : Thread) (rest : List Nat) (u : Nat) (w : Half) : ∀ (es : List (TEntry × Nat)) (s : State),
    es.foldl (State.afterWord t) (s.issuing rest u w) = (es.foldl (State.afterWord t) s).issuing rest u w
  | [], _ => rfl
  | p :: es, s => by
    rw [List.foldl_cons, State.afterWord_issuing, State.afterWords_issuing t rest u w es, List.foldl_cons]

/-- A place is read whose line is not poisoned. -/
theorem Act.clean_run {s : State} {t : Thread} (h : s.thread? s.cur = some t) (va : Nat) {loc : Nat}
    (hp : (s.reachLine t loc).poisoned loc = false) : Act.clean va loc s = .ok () (s.reachLine t loc) := by
  unfold Act.clean
  rw [Act.me_bind h, Act.modify_bind, Act.get_bind, hp]
  rfl

theorem Act.codeWord_run {s : State} {t : Thread} {va loc : Nat} {e : TEntry} (h : s.thread? s.cur = some t) (hv : va < 14 * 2 ^ 44)
    (hg : s.globalSpot t.attr.ctx va .ex = .global e loc) (hp : (s.reachLine t loc).poisoned loc = false) {w : Half}
    (hw : Store.read (s.reachLine t loc).mem loc 4 = w.toNat) : Act.codeWord va s = .ok w (s.afterWord t (e, loc)) := by
  have hwin : ¬ 14 ≤ windowOf va := by unfold windowOf; omega
  unfold Act.codeWord
  rw [Act.me_bind h, Act.get_bind, if_neg hwin, hg]
  dsimp only
  rw [Act.bind_ok (Act.clean_run h va hp), Act.modify_bind, Act.get_bind, State.mem_useEntry, hw, BitVec.ofNat_toNat,
    BitVec.setWidth_eq]
  rfl

theorem Act.overlayWord_run {s : State} {t : Thread} {n b va : Nat} (h : s.thread? s.cur = some t)
    (hb : s.overlayFor n t = some b) (hlo : b ≤ va) (hhi : va < b + 4096) {w : Half}
    (hw : Store.read (s.sett n).code (va - b) 4 = w.toNat) : Act.overlayWord n va s = .ok w s := by
  unfold Act.overlayWord
  rw [Act.me_bind h, Act.get_bind, hb]
  dsimp only
  rw [if_pos ⟨hlo, hhi⟩, hw, BitVec.ofNat_toNat, BitVec.setWidth_eq]
  rfl

/-! ### The fetch of an instruction -/

/-- The words of a well-formed instruction are fetched one after another, and it is what they decode to (R100, R107). -/
theorem Act.fetch_run {rest : List Nat} {u : Nat} {t : Thread} {i : Instr} (hi : i.wf = true) (S : Nat → State)
    (ht : (S 0).thread? u = some t)
    (hw : ∀ k w, k < (encode i).length → Act.word (t.pc + 4 * k) ((S k).issuing rest u w) =
      .ok ((encode i).getD k 0#32) ((S (k + 1)).issuing rest u w)) (w₀ : Half) :
    Act.fetch ((S 0).issuing rest u w₀) = .ok i ((S (encode i).length).issuing rest u ((encode i).getD 0 0#32)) := by
  have hd := Laws.RoundTrip.all i hi 0#32 0#32
  have hpos := length_encode_pos hi
  have hle := length_encode_le i
  have hshort : ∀ k, (encode i).length ≤ k → (encode i).getD k 0#32 = 0#32 := fun k hk => by
    rw [List.getD_eq_getElem?_getD, List.getElem?_eq_none hk]; rfl
  have h0 : Act.word t.pc ((S 0).issuing rest u w₀) = _ := hw 0 w₀ hpos
  unfold Act.fetch
  rw [Act.me_bind (t := t) ht, Act.bind_ok h0, Act.modify_bind]
  dsimp only
  rw [wordCount_encode hi]
  change (if 1 < (encode i).length then _ else _ : Act Instr) ((S 1).issuing rest u ((encode i).getD 0 0#32)) = _
  generalize (encode i).getD 0 0#32 = w at *
  by_cases h1 : 1 < (encode i).length
  · rw [if_pos h1, Act.bind_ok (hw 1 w h1)]
    by_cases h2 : 2 < (encode i).length
    · rw [if_pos h2, Act.bind_ok (hw 2 w h2), hd, show (encode i).length = 3 by omega]
      rfl
    · rw [hshort 2 (by omega)] at hd
      rw [if_neg h2, Act.pure_bind', hd, show (encode i).length = 2 by omega]
      rfl
  · rw [hshort 1 (by omega), hshort 2 (by omega)] at hd
    rw [if_neg h1, Act.pure_bind', if_neg (by omega), Act.pure_bind', hd, show (encode i).length = 1 by omega]
    rfl

/-! ### A turn -/

/-- A thread to which no trap has come, and of which no halt and no pre-emption is asked, goes on to its fetch. -/
theorem Act.prepare_run {s : State} {t : Thread} (h : s.thread? s.cur = some t) (hh : t.haltReq = false) (hp : t.preempt = false)
    (ha : t.async = []) : Act.prepare s = Act.fetch s := by
  have hbefore : Act.beforeFetch s = .ok () s := by
    have htrap : (if t.settOn.isSome then none else t.arrivedTrap) = none := by
      unfold Thread.arrivedTrap
      rw [ha]
      split <;> rfl
    unfold Act.beforeFetch
    rw [Act.me_bind h, htrap]
    dsimp only
    rw [hh, hp]
    rfl
  exact Act.bind_ok hbefore

/-- A turn that can be taken fetches an instruction; the bank it needs may be lost to an engine (R30). -/
theorem step_turn {s : State} {u : Nat} {rest : List Nat} (hb : s.bedLost = false) (ht : s.turns = u :: rest)
    (hc : s.canIssue u = true) {t : Thread} (hu : s.thread? u = some t) (hh : t.haltReq = false) (hp : t.preempt = false)
    (ha : t.async = []) {i : Instr} {r : State} (hf : Act.fetch (s.issuing rest u s.iword) = .ok i r) :
    step s = if (r.losesBank i).1 then .next (r.losesBank i).2 else exec i (r.losesBank i).2 := by
  have hprep : Act.prepare (s.issuing rest u s.iword) = .ok i r := (Act.prepare_run hu hh hp ha).trans hf
  have hcan : ({ s with turns := rest } : State).canIssue u = true := hc
  unfold step
  rw [if_neg (by rw [hb]; exact Bool.false_ne_true), ht]
  change turn u { s with turns := rest } = _
  unfold turn
  rw [if_pos hcan]
  change (match Act.prepare (s.issuing rest u s.iword) with | .ok i s => _ | .error _ s => _) = _
  rw [hprep]
  dsimp only
  rcases r.losesBank i with ⟨lost, r'⟩
  cases lost <;> rfl

/-- A thread of a general core loses its bank only while an engine is at work and the instruction needs it, and then by choice. -/
theorem State.losesBank_core {r : State} {t : Thread} (h : r.thread? r.cur = some t) (hs : t.settOn = none) (i : Instr) :
    r.losesBank i = if (r.core t.core).atWork && r.usesBank t i then
      (if Config.choice r.free % 2 = 1 then (true, { r with free := r.free + 1 }.count t.core 2 1)
        else (false, { r with free := r.free + 1 }))
      else (false, r) := by
  unfold State.losesBank
  rw [h]
  dsimp only
  rw [hs]
  change (if (r.core t.core).atWork && r.usesBank t i then _ else _) = _
  split
  · change (decide (Config.choice r.free % 2 = 1), if Config.choice r.free % 2 = 1 then _ else _) = _
    by_cases hk : Config.choice r.free % 2 = 1
    · rw [if_pos hk, if_pos hk, decide_eq_true hk]; rfl
    · rw [if_neg hk, if_neg hk, decide_eq_false hk]; rfl
  · rfl

/-- No engine takes the bank of a thread on a sett core. -/
theorem State.losesBank_sett {r : State} {t : Thread} (h : r.thread? r.cur = some t) {n : Nat} (hs : t.settOn = some n) (i : Instr) :
    r.losesBank i = (false, r) := by
  unfold State.losesBank
  rw [h]
  dsimp only
  rw [hs]
  rfl


/-! ### The fetch reads what it did before the turn was taken -/

section reads
variable (s : State) (rest : List Nat) (u : Nat) (w : Half)

theorem State.walk_issuing (ctx va : Nat) : ∀ n node : Nat,
    (s.issuing rest u w).walk ctx va n node = s.walk ctx va n node
  | 0, _ => rfl
  | n + 1, node => by
    unfold State.walk
    dsimp only
    rw [State.walk_issuing ctx va n]
    rfl
theorem State.lookup_issuing (ctx va : Nat) : (s.issuing rest u w).lookup ctx va = s.lookup ctx va := by
  unfold State.lookup
  simp only [State.walk_issuing]
  rfl
theorem State.globalSpot_issuing (ctx va : Nat) (p : Perm) : (s.issuing rest u w).globalSpot ctx va p = s.globalSpot ctx va p := by
  unfold State.globalSpot
  rw [State.lookup_issuing]
  rfl
theorem State.imageLines_issuing (ctx va : Nat) : (s.issuing rest u w).imageLines ctx va = s.imageLines ctx va := by
  unfold State.imageLines
  simp only [State.globalSpot_issuing]
theorem State.overlayFor_issuing (n : Nat) (t : Thread) : (s.issuing rest u w).overlayFor n t = s.overlayFor n t := by
  unfold State.overlayFor
  simp only [State.imageLines_issuing]
  rfl

end reads

/-- The words at the pc of a thread of a general core are those of an instruction, the `k`th of them at the `k`th of some places and through
its translation, in a page that may be executed and a line that is not poisoned once it is reached (R100, R315, R422). -/
def State.CodeAt (s : State) (t : Thread) (ws : List Half) (es : List (TEntry × Nat)) : Prop :=
  ∀ k e loc, es[k]? = some (e, loc) →
    let r := (es.take k).foldl (State.afterWord t) s
    t.pc + 4 * k < 14 * 2 ^ 44 ∧ r.globalSpot t.attr.ctx (t.pc + 4 * k) .ex = .global e loc ∧
      (r.reachLine t loc).poisoned loc = false ∧ Store.read (r.reachLine t loc).mem loc 4 = (ws.getD k 0#32).toNat

theorem Act.fetch_core {s : State} {u : Nat} {t : Thread} {i : Instr} {es : List (TEntry × Nat)} (hi : i.wf = true)
    (hu : s.thread? u = some t) (hs : t.settOn = none) (hl : es.length = (encode i).length) (hc : s.CodeAt t (encode i) es)
    (rest : List Nat) (w : Half) :
    Act.fetch (s.issuing rest u w) = .ok i ((es.foldl (State.afterWord t) s).issuing rest u ((encode i).getD 0 0#32)) := by
  have hf := Act.fetch_run (rest := rest) (u := u) (t := t) hi (fun k => (es.take k).foldl (State.afterWord t) s) hu ?_ w
  · rw [← hl, List.take_length] at hf
    exact hf
  intro k v hk
  have hek : es[k]? = some es[k] := List.getElem?_eq_getElem (hl ▸ hk)
  obtain ⟨hpc, hspot, hclean, hword⟩ := hc k es[k].1 es[k].2 hek
  rw [List.take_add_one, hek, List.foldl_append]
  change Act.word _ _ = .ok _ ((State.afterWord t ((es.take k).foldl (State.afterWord t) s) es[k]).issuing rest u v)
  have hthread : ((es.take k).foldl (State.afterWord t) s).thread? u = some t := by
    unfold State.thread?
    rw [State.threads_afterWords]
    exact hu
  generalize (es.take k).foldl (State.afterWord t) s = r at *
  have hrun := Act.codeWord_run (s := r.issuing rest u v) (t := t) hthread hpc ((State.globalSpot_issuing ..).trans hspot)
    (by rw [State.reachLine_issuing]; exact hclean) (w := (encode i).getD k 0#32) (by rw [State.reachLine_issuing]; exact hword)
  rw [State.afterWord_issuing] at hrun
  unfold Act.word
  rw [Act.me_bind (s := r.issuing rest u v) hthread, hs]
  exact hrun

theorem Act.fetch_sett {s : State} {u : Nat} {t : Thread} {i : Instr} {n b : Nat} (hi : i.wf = true)
    (hu : s.thread? u = some t) (hs : t.settOn = some n) (hb : s.overlayFor n t = some b) (hlo : b ≤ t.pc)
    (hhi : t.pc + 4 * (encode i).length ≤ b + 4096)
    (hc : ∀ k, k < (encode i).length → Store.read (s.sett n).code (t.pc - b + 4 * k) 4 = ((encode i).getD k 0#32).toNat)
    (rest : List Nat) (w : Half) : Act.fetch (s.issuing rest u w) = .ok i (s.issuing rest u ((encode i).getD 0 0#32)) := by
  refine Act.fetch_run (t := t) hi (fun _ => s) hu (fun k v hk => ?_) w
  unfold Act.word
  rw [Act.me_bind (s := s.issuing rest u v) hu, hs]
  refine Act.overlayWord_run (s := s.issuing rest u v) hu ((State.overlayFor_issuing ..).trans hb) (by omega) (by omega) ?_
  rw [show t.pc + 4 * k - b = t.pc - b + 4 * k by omega]
  exact hc k hk

/-! ### Without turns -/

theorem step_closing {s r : State} {e : Event} (hb : s.bedLost = false) (ht : s.turns = []) (hc : s.closing = (some e, r)) :
    step s = exec e.instr r := by
  unfold step
  rw [if_neg (by rw [hb]; exact Bool.false_ne_true), ht]
  dsimp only
  rw [hc]

theorem step_pending {s r q : State} {e : Event} (hb : s.bedLost = false) (ht : s.turns = []) (hc : s.closing = (none, r))
    (hn : r.nextPending = (some e, q)) : step s = exec e.instr q := by
  unfold step
  rw [if_neg (by rw [hb]; exact Bool.false_ne_true), ht]
  dsimp only
  rw [hc]
  dsimp only
  rw [hn]

theorem step_cycle {s r q : State} {n : Nat} (hb : s.bedLost = false) (ht : s.turns = []) (hc : s.closing = (none, r))
    (hn : r.nextPending = (none, q)) (hs : q.scan = n) : step s = exec (.coreCycle n) q := by
  subst hs
  unfold step
  rw [if_neg (by rw [hb]; exact Bool.false_ne_true), ht]
  dsimp only
  rw [hc]
  dsimp only
  rw [hn]

/-- Between two ends of core cycles nothing closes. -/
theorem State.closing_none {s : State} (h : s.ending = none) : s.closing = (none, s) := by
  unfold State.closing
  rw [h]

/-- At the end of a core's cycle the slots are filled first, then the handler slot. -/
theorem State.closing_some {s : State} {c : Nat} {e : Event} (hr : s.inReset = false) (hd : s.device.still = false)
    (h : s.ending = some c) (hf : (s.pending.find? (fun e => decide (e = .slotFill c))).orElse
      (fun _ => s.pending.find? (fun e => decide (e.closes = some c))) = some e) :
    s.closing = (some e, { s with pending := s.pending.erase e }) := by
  unfold State.closing
  rw [h]
  dsimp only
  rw [if_neg (by rw [hr, hd]; simp), hf]

theorem State.closing_done {s : State} {c : Nat} (hr : s.inReset = false) (hd : s.device.still = false)
    (h : s.ending = some c) (hf : (s.pending.find? (fun e => decide (e = .slotFill c))).orElse
      (fun _ => s.pending.find? (fun e => decide (e.closes = some c))) = none) :
    s.closing = (none, { s with ending := none }) := by
  unfold State.closing
  rw [h]
  dsimp only
  rw [if_neg (by rw [hr, hd]; simp), hf]

theorem State.nextPending_scan {s : State} (h : s.scan ≠ 0) : s.nextPending = (none, s) := by
  unfold State.nextPending
  rw [if_pos h]

theorem State.due_eq {s : State} (hr : s.inReset = false) (hd : s.device.still = false) :
    s.due = s.timers.find? (fun x => decide (x.1 ≤ s.cycle)) := by
  unfold State.due
  rw [if_neg (by rw [hr, hd]; simp)]

theorem State.nextPending_due {s : State} (h : s.scan = 0) {x : Nat × Event} (hx : s.due = some x) :
    s.nextPending = (some x.2, { s with timers := s.timers.erase x }) := by
  unfold State.nextPending
  rw [if_neg (not_not_intro h), hx]

theorem mem_of_laneHead {l : List Event} {k : Nat} {e : Event} (h : laneHead l k = some e) : e ∈ l := by
  unfold laneHead at h
  cases hk : l[k]? with
  | none => rw [hk] at h; cases h
  | some d => rw [hk] at h; exact List.mem_of_find?_eq_some h

/-- With no step due and none pending but those that end a core's cycle, none comes next. -/
theorem State.nextPending_none {s : State} (hr : s.inReset = false) (hd : s.device.still = false) (h : s.scan = 0) (hx : s.due = none)
    (hl : s.pending.filter (fun e => e.closes.isNone) = []) : s.nextPending = (none, s) := by
  unfold State.nextPending
  rw [if_neg (not_not_intro h), hx]
  dsimp only
  rw [if_neg (by rw [hr]; simp), if_neg (by rw [hd]; simp), hl]

/-- With no step due, the device picks a pending step that ends no core's cycle, or none of them. -/
theorem State.nextPending_choice {s : State} (hr : s.inReset = false) (hd : s.device.still = false) (h : s.scan = 0) (hx : s.due = none)
    (hl : s.pending.filter (fun e => e.closes.isNone) ≠ []) : s.nextPending = (none, { s with free := s.free + 1 }) ∨
      ∃ e ∈ s.pending.filter (fun e => e.closes.isNone), s.nextPending = (some e, { s with free := s.free + 1, pending := s.pending.erase e }) := by
  unfold State.nextPending
  rw [if_neg (not_not_intro h), hx]
  dsimp only
  rw [if_neg (by rw [hr]; simp), if_neg (by rw [hd]; simp)]
  cases hp : s.pending.filter (fun e => e.closes.isNone) with
  | nil => exact absurd hp hl
  | cons d l =>
    dsimp only
    cases hh : laneHead (d :: l) (s.choose ((d :: l).length + 1)).1 with
    | none => exact .inl rfl
    | some e => exact .inr ⟨e, mem_of_laneHead hh, rfl⟩

/-- The turn of a thread on a general core (R27, R30): its instruction is executed, unless its bank is lost. -/
theorem step_turn_core {s : State} {u : Nat} {rest : List Nat} {t : Thread} {i : Instr} {es : List (TEntry × Nat)} (hb : s.bedLost = false)
    (hq : s.turns = u :: rest) (hc : s.canIssue u = true) (hu : s.thread? u = some t) (hh : t.haltReq = false) (hp : t.preempt = false)
    (ha : t.async = []) (hi : i.wf = true) (hs : t.settOn = none) (hl : es.length = (encode i).length) (hw : s.CodeAt t (encode i) es) :
    let r := (es.foldl (State.afterWord t) s).issuing rest u ((encode i).getD 0 0#32)
    (((r.core t.core).atWork = false ∨ r.usesBank t i = false) → step s = exec i r) ∧
      (step s = exec i r ∨ step s = exec i { r with free := r.free + 1 } ∨
        ((r.core t.core).atWork = true ∧ r.usesBank t i = true ∧ step s = .next ({ r with free := r.free + 1 }.count t.core 2 1))) := by
  intro r
  have hstep := step_turn hb hq hc hu hh hp ha (Act.fetch_core hi hu hs hl hw rest s.iword)
  have hr : r.thread? r.cur = some t := by
    change Tab.find? (es.foldl (State.afterWord t) s).threads u = some t
    rw [State.threads_afterWords]
    exact hu
  rw [State.losesBank_core hr hs] at hstep
  by_cases hbank : ((r.core t.core).atWork && r.usesBank t i) = true
  · obtain ⟨hwork, huses⟩ := Bool.and_eq_true_iff.mp hbank
    refine ⟨fun h => ?_, ?_⟩
    · rw [hwork, huses] at h
      exact absurd h (by simp)
    · rw [if_pos hbank] at hstep
      by_cases hk : Config.choice r.free % 2 = 1
      · rw [if_pos hk] at hstep
        exact .inr (.inr ⟨hwork, huses, hstep⟩)
      · rw [if_neg hk] at hstep
        exact .inr (.inl hstep)
  · rw [if_neg hbank] at hstep
    exact ⟨fun _ => hstep, .inl hstep⟩

/-- The turn of a thread on a sett core (R273). -/
theorem step_turn_sett {s : State} {u : Nat} {rest : List Nat} {t : Thread} {i : Instr} {n b : Nat} (hb : s.bedLost = false)
    (hq : s.turns = u :: rest) (hc : s.canIssue u = true) (hu : s.thread? u = some t) (hh : t.haltReq = false) (hp : t.preempt = false)
    (ha : t.async = []) (hi : i.wf = true) (hs : t.settOn = some n) (ho : s.overlayFor n t = some b) (hlo : b ≤ t.pc)
    (hhi : t.pc + 4 * (encode i).length ≤ b + 4096)
    (hw : ∀ k, k < (encode i).length → Store.read (s.sett n).code (t.pc - b + 4 * k) 4 = ((encode i).getD k 0#32).toNat) :
    step s = exec i (s.issuing rest u ((encode i).getD 0 0#32)) := by
  have hstep := step_turn hb hq hc hu hh hp ha (Act.fetch_sett hi hu hs ho hlo hhi hw rest s.iword)
  rw [State.losesBank_sett (t := t) (n := n) hu hs] at hstep
  exact hstep

/-- At the end of a core's cycle (R359): its free slots are filled, then its handler slot, then the order goes on. -/
theorem step_ending {s : State} {c : Nat} (hb : s.bedLost = false) (hq : s.turns = []) (hr : s.inReset = false)
    (hd : s.device.still = false) (he : s.ending = some c) :
    (.slotFill c ∈ s.pending → step s = exec (.slotFill c) { s with pending := s.pending.erase (.slotFill c) }) ∧
      (∀ e, .slotFill c ∉ s.pending → s.pending.find? (fun e => decide (e.closes = some c)) = some e →
        step s = exec e.instr { s with pending := s.pending.erase e }) ∧
      ((∀ e ∈ s.pending, e.closes ≠ some c) → .slotFill c ∉ s.pending → step s = step { s with ending := none }) := by
  have hnone : .slotFill c ∉ s.pending → s.pending.find? (fun e => decide (e = .slotFill c)) = none := fun hm =>
    List.find?_eq_none.mpr fun e hem => by rw [decide_eq_true_eq]; rintro rfl; exact hm hem
  refine ⟨fun hm => ?_, fun e hm hf => ?_, fun hall hm => ?_⟩
  · have hfill : s.pending.find? (fun e => decide (e = .slotFill c)) = some (.slotFill c) := by
      cases hf : s.pending.find? (fun e => decide (e = .slotFill c)) with
      | none => exact absurd (List.find?_eq_none.mp hf _ hm) (by simp)
      | some e =>
        have he : e = .slotFill c := by simpa using List.find?_some hf
        rw [he]
    exact step_closing hb hq (State.closing_some hr hd he (by rw [hfill]; rfl))
  · exact step_closing hb hq (State.closing_some hr hd he (by rw [hnone hm, Option.orElse_none, hf]))
  · have hmine : s.pending.find? (fun e => decide (e.closes = some c)) = none :=
      List.find?_eq_none.mpr fun e hem => by rw [decide_eq_true_eq]; exact hall e hem
    have hclose := State.closing_done hr hd he (by rw [hnone hm, Option.orElse_none, hmine])
    have hnext : ({ s with ending := none } : State).closing = (none, { s with ending := none }) := State.closing_none rfl
    rcases hn : ({ s with ending := none } : State).nextPending with ⟨e | e, q⟩
    · rw [step_cycle hb hq hclose hn rfl, step_cycle (s := { s with ending := none }) hb hq hnext hn rfl]
    · rw [step_pending hb hq hclose hn, step_pending (s := { s with ending := none }) hb hq hnext hn]

/-- Between two cycles of the cores: the first due step, else some pending one, or the next core's cycle. -/
theorem step_between {s : State} (hb : s.bedLost = false) (hq : s.turns = []) (hr : s.inReset = false) (hd : s.device.still = false)
    (he : s.ending = none) (h0 : s.scan = 0) :
    (∀ x, s.timers.find? (fun x => decide (x.1 ≤ s.cycle)) = some x → step s = exec x.2.instr { s with timers := s.timers.erase x }) ∧
      ((∀ x ∈ s.timers, s.cycle < x.1) → ((∀ e ∈ s.pending, e.closes ≠ none) → step s = exec (.coreCycle 0) s) ∧
        (step s = exec (.coreCycle 0) s ∨ step s = exec (.coreCycle 0) { s with free := s.free + 1 } ∨
          ∃ e ∈ s.pending, step s = exec e.instr { s with free := s.free + 1, pending := s.pending.erase e })) := by
  have hclose := State.closing_none he
  refine ⟨fun x hx => step_pending hb hq hclose (State.nextPending_due h0 ((State.due_eq hr hd).trans hx)), fun hx => ?_⟩
  have hdue : s.due = none := (State.due_eq hr hd).trans <| List.find?_eq_none.mpr fun x hxm => by
    rw [decide_eq_true_eq]; exact Nat.not_le.mpr (hx x hxm)
  have hmem : ∀ e, e ∈ s.pending.filter (fun e => e.closes.isNone) ↔ e ∈ s.pending ∧ e.closes = none := fun e => by
    rw [List.mem_filter, Option.isNone_iff_eq_none]
  have hempty : s.pending.filter (fun e => e.closes.isNone) = [] → step s = exec (.coreCycle 0) s := fun hl =>
    step_cycle hb hq hclose (State.nextPending_none hr hd h0 hdue hl) h0
  refine ⟨fun hall => hempty (List.eq_nil_iff_forall_not_mem.mpr fun e hem => hall e ((hmem e).mp hem).1 ((hmem e).mp hem).2), ?_⟩
  by_cases hl : s.pending.filter (fun e => e.closes.isNone) = []
  · exact .inl (hempty hl)
  rcases State.nextPending_choice hr hd h0 hdue hl with hn | ⟨e, hem, hn⟩
  · exact .inr (.inl (step_cycle hb hq hclose hn h0))
  · exact .inr (.inr ⟨e, ((hmem e).mp hem).1, step_pending hb hq hclose hn⟩)

/-- Settles O56: a turn runs what the words at the pc decode to, on a general core and on a sett core; without turns, what ends a core's
cycle comes first, then what is due or pending between two cycles, or the next core's cycle. -/
theorem stepRunsDecodedInstruction : Obligations.StepRunsDecodedInstruction := by
  unfold Obligations.StepRunsDecodedInstruction
  intro s u rest t i es hb
  refine ⟨fun hq hu hc hh hp ha hi => ⟨fun hs hl hw => ?_, fun n b hs ho hlo hhi hw => ?_⟩, fun hq hr hd => ⟨fun c he => ?_, fun he =>
    ⟨fun hscan => ?_, fun h0 => ?_⟩⟩⟩
  · have hfold : es.foldl (fun s p => (s.reachLine t p.2).useEntry p.1 false) { s with turns := rest, cur := u } =
        (es.foldl (State.afterWord t) s).issuing rest u s.iword := State.afterWords_issuing t rest u s.iword es s
    rw [hfold]
    exact step_turn_core hb hq hc hu hh hp ha hi hs hl hw
  · exact step_turn_sett hb hq hc hu hh hp ha hi hs ho hlo hhi hw
  · exact step_ending hb hq hr hd he
  · exact step_cycle hb hq (State.closing_none he) (State.nextPending_scan hscan) rfl
  · exact step_between hb hq hr hd he h0

end Sys2Proof.Machine

/-!
## What is lost, and what stays (O54)

A fence ends the threads of its cores one after another, and each end may touch other threads: `State.Since` is what every such step keeps, so that a
thread that has ended stays gone. A stack's loss walks over the handles, each of which only its own turn changes. A record of a lost host step goes
to the host's memory. A reset keeps what it selects by key.
-/

namespace Sys2Proof

/-! ### Entries of a table -/

theorem Tab.mem_of_find? {α : Type} {m : Tab α} {k : Nat} {v : α} (h : Tab.find? m k = some v) : (k, v) ∈ m := by
  induction m with
  | nil => cases h
  | cons e m ih =>
    obtain ⟨j, u⟩ := e
    simp only [Tab.find?] at h
    split at h
    · next hj =>
      cases h
      exact hj ▸ List.mem_cons_self
    · exact List.mem_cons_of_mem _ (ih h)

theorem Tab.find?_eq_none_iff {α : Type} {m : Tab α} {k : Nat} : Tab.find? m k = none ↔ ∀ e ∈ m, e.1 ≠ k := by
  refine ⟨fun h => ?_, Tab.find?_none⟩
  induction m with
  | nil => exact fun e he => absurd he List.not_mem_nil
  | cons e m ih =>
    obtain ⟨j, u⟩ := e
    simp only [Tab.find?] at h
    split at h
    · cases h
    · next hj => exact List.forall_mem_cons.mpr ⟨hj, ih h⟩

theorem Tab.find?_of_mem {α : Type} {m : Tab α} (hm : Tab.rising m = true) {k : Nat} {v : α} (h : (k, v) ∈ m) :
    Tab.find? m k = some v := by
  induction m with
  | nil => cases h
  | cons e m ih =>
    obtain ⟨j, u⟩ := e
    obtain ⟨hj, hm⟩ := Tab.rising_cons.1 hm
    rcases List.mem_cons.1 h with h | h
    · cases h
      exact if_pos rfl
    · exact (if_neg (Nat.ne_of_lt (hj _ h))).trans (ih hm h)

/-- A selection by key alone leaves each selected key as it was. -/
theorem Tab.find?_filter_key {α : Type} (p : Nat → Bool) (m : Tab α) (k : Nat) :
    Tab.find? (m.filter (fun e => p e.1)) k = if p k then Tab.find? m k else none := by
  induction m with
  | nil => split <;> rfl
  | cons e m ih =>
    obtain ⟨j, u⟩ := e
    rw [List.filter_cons]
    by_cases hj : j = k
    · subst hj
      cases hp : p j with
      | true => simp [Tab.find?]
      | false => simp [ih, hp]
    · cases hp : p j with
      | true => simp [Tab.find?, hj, ih]
      | false => simp [Tab.find?, hj, ih]

theorem Store.get_filter_key {w : Nat} (p : Nat → Bool) (m : Store w) (k : Nat) :
    Store.get (m.filter (fun e => p e.1)) k = if p k then Store.get m k else 0#w := by
  unfold Store.get Tab.get
  rw [Tab.find?_filter_key]
  split <;> rfl

end Sys2Proof

namespace Sys2Proof.Machine

/-! ### What a loss of threads leaves of those that are not lost -/

/-- No Face has been fenced or given back since an earlier state, no thread has come, and none has changed its place. -/
def State.Since (s₀ s : State) : Prop :=
  s.device.fenced = s₀.device.fenced ∧ ∀ e ∈ s.threads, ∃ e₀ ∈ s₀.threads, e₀.1 = e.1 ∧ e₀.2.place = e.2.place

theorem State.Since.refl (s : State) : s.Since s := ⟨rfl, fun e he => ⟨e, he, rfl, rfl⟩⟩
theorem State.Since.trans {s₀ s₁ s₂ : State} (h₁ : s₀.Since s₁) (h₂ : s₁.Since s₂) : s₀.Since s₂ := by
  refine ⟨h₂.1.trans h₁.1, fun e he => ?_⟩
  obtain ⟨e₁, he₁, hk₁, hp₁⟩ := h₂.2 e he
  obtain ⟨e₀, he₀, hk₀, hp₀⟩ := h₁.2 e₁ he₁
  exact ⟨e₀, he₀, hk₀.trans hk₁, hp₀.trans hp₁⟩

variable {s₀ s : State}

theorem State.Since.ite {c : Prop} [Decidable c] {t : State} (hs : s₀.Since s) (ht : s₀.Since t) : s₀.Since (if c then s else t) := by
  split
  · exact hs
  · exact ht
theorem State.Since.foldl {α : Type} {f : State → α → State} (hf : ∀ s a, s₀.Since s → s₀.Since (f s a)) (l : List α)
    (h : s₀.Since s) : s₀.Since (l.foldl f s) := foldl_inv hf l s h

/-! ### Parts of the state -/

theorem State.Since.modCore (h : s₀.Since s) (c f) : s₀.Since (s.modCore c f) := h
theorem State.Since.modSett (h : s₀.Since s) (n f) : s₀.Since (s.modSett n f) := h
theorem State.Since.modPage (h : s₀.Since s) (i f) : s₀.Since (s.modPage i f) := h
theorem State.Since.push (h : s₀.Since s) (e) : s₀.Since (s.push e) := h
theorem State.Since.after (h : s₀.Since s) (n e) : s₀.Since (s.after n e) := h
theorem State.Since.count (h : s₀.Since s) (c i n) : s₀.Since (s.count c i n) := h
theorem State.Since.modCtx (h : s₀.Since s) (ctx f) : s₀.Since (s.modCtx ctx f) := by
  unfold State.modCtx
  split
  · exact h
  · exact h
theorem State.Since.progress (h : s₀.Since s) (ctx) : s₀.Since (s.progress ctx) := .ite h (h.modCtx ..)
theorem State.Since.modThread (h : s₀.Since s) (u f)
    (hf : ∀ t, s.thread? u = some t → (f t).place = t.place := by exact fun _ _ => rfl) :
    s₀.Since (s.modThread u f) := by
  unfold State.modThread
  split
  · exact h
  · next t ht =>
    refine ⟨h.1, fun e he => ?_⟩
    rcases Tab.mem_insert he with rfl | he
    · obtain ⟨e₀, he₀, hk, hp⟩ := h.2 (u, t) (Tab.mem_of_find? ht)
      exact ⟨e₀, he₀, hk, hp.trans (hf t ht).symm⟩
    · exact h.2 e he
/-- A change of every thread that moves none. -/
theorem State.Since.mapThreads (h : s₀.Since s) (f : Nat × Thread → Thread) (hf : ∀ e, (f e).place = e.2.place) :
    s₀.Since { s with threads := s.threads.map (fun e => (e.1, f e)) } := by
  refine ⟨h.1, fun e he => ?_⟩
  obtain ⟨x, hx, rfl⟩ := List.mem_map.1 he
  obtain ⟨e₀, he₀, hk, hp⟩ := h.2 x hx
  exact ⟨e₀, he₀, hk, hp.trans (hf x).symm⟩
theorem State.Since.wakeAll (h : s₀.Since s) (p) : s₀.Since (s.wakeAll p) :=
  h.mapThreads _ fun _ => by split <;> rfl

/-! ### Committed memory and the fault window -/

theorem State.fenced_meetError (s : State) (line : Nat) : (s.meetError line).device.fenced = s.device.fenced := by
  unfold State.meetError
  split <;> rfl
theorem State.fenced_touchLine (s : State) (line : Nat) : (s.touchLine line).device.fenced = s.device.fenced := by
  unfold State.touchLine
  dsimp only
  split
  · rw [State.device_mayEvict]
  · rw [State.fenced_meetError, State.device_mayEvict]
theorem State.fenced_touchPlaces (s : State) (locs : List Nat) : (s.touchPlaces locs).device.fenced = s.device.fenced :=
  foldl_keeps (p := fun s : State => s.device.fenced) (fun s l => by split; exacts [s.fenced_touchLine l, rfl]) _ s

theorem State.Since.touchPlaces (h : s₀.Since s) (locs) : s₀.Since (s.touchPlaces locs) :=
  ⟨(s.fenced_touchPlaces locs).trans h.1, by rw [State.threads_touchPlaces]; exact h.2⟩
theorem Thread.place_met (t : Thread) (timed : Option Nat) : (t.met timed).place = t.place := by cases timed <;> rfl
theorem State.Since.afterCommit (h : s₀.Since s) (words) : s₀.Since (s.afterCommit words) := by
  refine .foldl (fun _ _ h => h.progress _) _ (h.mapThreads _ fun e => ?_)
  dsimp only
  split
  · split
    · exact e.2.place_met _
    · rfl
  · split <;> rfl
  · rfl
theorem State.Since.commitBytes (h : s₀.Since s) (ws) : s₀.Since (s.commitBytes ws) := by
  have htouch : s₀.Since (({ s with co := s.co + 1 } : State).touchPlaces (ws.map (·.1))) :=
    State.Since.touchPlaces (s := { s with co := s.co + 1 }) h _
  refine State.Since.afterCommit (State.Since.foldl (fun s l h => ?_) _ (State.Since.foldl (fun s w h => ?_) _ htouch)) _
  · exact .ite h h
  · exact h
theorem State.Since.record (h : s₀.Since s) (ctx kind code core slot seq tid fval pc w5 w6) :
    s₀.Since (s.record ctx kind code core slot seq tid fval pc w5 w6) := by
  unfold State.record
  split
  · exact h
  · exact .ite (h.modPage ..) ((h.commitBytes _).modPage ..)
theorem State.Since.recordThread (h : s₀.Since s) (t kind code fval) : s₀.Since (s.recordThread t kind code fval) := h.record ..

/-! ### Chunks at the arbiters -/

theorem State.Since.wakeOwned (h : s₀.Since s) : s₀.Since s.wakeOwned := h.wakeAll _
theorem State.Since.unreserve (h : s₀.Since s) (u) : s₀.Since (s.unreserve u) :=
  .ite (State.Since.wakeOwned (s := { s with reserved := s.reserved.filter (fun r => decide (r.2 ≠ u)) }) h) h
theorem State.Since.restartSolo (h : s₀.Since s) (u) : s₀.Since (s.restartSolo u) := (h.modThread ..).unreserve _
theorem State.Since.setCo (h : s₀.Since s) (n) : s₀.Since { s with co := n } := h
theorem State.Since.setCores (h : s₀.Since s) (l) : s₀.Since { s with cores := l } := h
theorem State.Since.setPending (h : s₀.Since s) (l) : s₀.Since { s with pending := l } := h
theorem State.Since.setNextUid (h : s₀.Since s) (n) : s₀.Since { s with nextUid := n } := h
theorem State.Since.squash (h : s₀.Since s) {u t} (ht : s.thread? u = some t) (c) : s₀.Since (s.squash u t c) := by
  have hmod (f : Thread) (hf : f.place = t.place) :
      s₀.Since (({ s with pending := s.pending.filter (fun e => !isReplyTo u e) } : State).modThread u (fun _ => f)) := by
    refine (h.setPending _).modThread u _ fun t' ht' => ?_
    rw [hf, Option.some.inj (ht'.symm.trans ht)]
  unfold State.squash
  extract_lets last old new a four _ b _ e
  have hb : s₀.Since b := hmod _ rfl
  have he : s₀.Since e := State.Since.count (.ite (hb.setNextUid _) hb) ..
  exact .ite ((hmod new rfl).unreserve u) (.ite (he.count ..) he)
theorem State.Since.applyChunk (h : s₀.Since s) (u t c) : s₀.Since (s.applyChunk u t c) := by
  unfold State.applyChunk
  extract_lets ws words a b
  have hb : s₀.Since b := .ite (.setCo (h.modThread ..) _) (h.commitBytes _)
  exact (((hb.modThread ..).unreserve _).count ..).progress _
theorem State.Since.tryCommit (h : s₀.Since s) {u t} (ht : s.thread? u = some t) (c) : s₀.Since (s.tryCommit u t c).2 := by
  unfold State.tryCommit
  split
  · exact h.squash ht c
  split
  · split
    · exact h.restartSolo _
    · exact h
  split
  · dsimp only
    split
    · exact State.Since.squash (s := (s.choose 1024).2) h ht c
    · exact State.Since.applyChunk (s := (s.choose 1024).2) h u t c
  · exact h.applyChunk u t c
theorem State.Since.decideChunk (h : s₀.Since s) (u) : s₀.Since (s.decideChunk u) := by
  unfold State.decideChunk
  split
  · exact h
  · next t ht =>
    split
    · exact h
    · next c hc =>
      refine .ite h ?_
      dsimp only
      refine .ite h ?_
      have hcommit := State.Since.tryCommit (s := (s.choose 2).2) h ht c
      split
      · next s' hs => rw [hs] at hcommit; exact hcommit
      · exact h

/-! ### The end of a thread -/

theorem State.Since.release (h : s₀.Since s) (num step u) : s₀.Since (s.release num step u) := by
  unfold State.release
  split
  · exact h
  · split
    · exact .ite h (h.modThread ..)
    · exact h.modThread ..
theorem State.Since.putGroup (h : s₀.Since s) (g) : s₀.Since (s.putGroup g) := h
theorem State.Since.checkRound (h : s₀.Since s) (g) : s₀.Since (s.checkRound g) :=
  .ite (.ite (.foldl (fun _ _ h => h.release ..) _ (h.putGroup _)) (.foldl (fun _ _ h => h.release ..) _ (h.putGroup _))) (h.putGroup _)
theorem State.Since.leaveGroups (h : s₀.Since s) (u) : s₀.Since (s.leaveGroups u) := .foldl (fun _ _ h => h.checkRound _) _ h
theorem State.Since.wakeQueue (h : s₀.Since s) (c e) : s₀.Since (s.wakeQueue c e) := by
  unfold State.wakeQueue
  split
  · exact h
  · exact h.modThread _ _ fun _ _ => by split <;> rfl
theorem State.Since.leaveQueue (h : s₀.Since s) (c u e) : s₀.Since (s.leaveQueue c u e) :=
  .ite (.ite ((h.modCore ..).wakeQueue ..) (h.modCore ..)) h
theorem State.Since.leaveQueues (h : s₀.Since s) (u) : s₀.Since (s.leaveQueues u) := by
  unfold State.leaveQueues
  split
  · exact h
  · exact .foldl (fun _ _ h => h.leaveQueue ..) _ h
theorem State.Since.wakePorts (h : s₀.Since s) (c) : s₀.Since (s.wakePorts c) := h.wakeAll _
theorem State.Since.pokeHandler (h : s₀.Since s) (c) : s₀.Since (s.pokeHandler c) := .ite h (.ite h (.ite h h))
theorem State.Since.dropLaunch (h : s₀.Since s) (a) : s₀.Since (s.dropLaunch a) := by
  unfold State.dropLaunch
  split
  · exact h
  · exact .ite h h
theorem State.Since.checkClaim (h : s₀.Since s) (c) : s₀.Since (s.checkClaim c) := by
  refine .ite h ?_
  split
  · exact h
  · exact .ite h h
theorem State.Since.reindex (h : s₀.Since s) (c) : s₀.Since (s.reindex c) := by
  unfold State.reindex
  dsimp only
  split
  · exact h
  · split
    · exact h
    · exact h.modThread ..

/-- What is left of a thread's end once nothing refers to it: its place, its launch and its core's claim are free (R34, R171). -/
def State.vacate (s : State) (u : Nat) (t : Thread) : State :=
  let s := match t.settOn with
    | some n => s.modSett n (fun q => { q with
        visitors := setDel q.visitors u, running := if q.running = some u then none else q.running })
    | none => s
  let s := if t.program || t.handler then s else s.dropLaunch t.attr
  match t.place with
  | .slot c k => if k = Config.handlerSlot then s.pokeHandler c else (s.checkClaim c).push (.slotFill c)
  | .stock c => (s.checkClaim c).reindex c
  | _ => s
theorem State.endThread_some {u : Nat} {t : Thread} (h : s.thread? u = some t) :
    s.endThread u = ((s.leaveGroups u).forget u).vacate u t := by
  unfold State.endThread
  rw [h]
  rfl
theorem State.endThread_none {u : Nat} (h : s.thread? u = none) : s.endThread u = s := by
  unfold State.endThread
  rw [h]

theorem State.Since.vacate (h : s₀.Since s) (u t) : s₀.Since (s.vacate u t) := by
  unfold State.vacate
  extract_lets a b
  have ha : s₀.Since a := by
    unfold a
    split
    · exact h
    · exact h
  have hb : s₀.Since b := .ite ha (ha.dropLaunch _)
  clear_value b
  split
  · exact .ite (hb.pokeHandler _) (hb.checkClaim _)
  · exact (hb.checkClaim _).reindex _
  · exact hb

/-- The thread is taken out of the table, and out of what refers to it. -/
def State.erased (s : State) (u : Nat) : State :=
  { s.leaveQueues u with
    threads := Tab.erase (s.leaveQueues u).threads u
    waiters := (s.leaveQueues u).waiters.filter (fun a => decide (a.uid ≠ u))
    faultq := (s.leaveQueues u).faultq.map (fun f => { f with waiters := f.waiters.filter (fun w => decide (w ≠ .thread u)) })
    syncs := (s.leaveQueues u).syncs.filter (fun y => decide (y.1 ≠ u)) }
theorem State.Since.erased (h : s₀.Since s) (u) : s₀.Since (s.erased u) :=
  ⟨(h.leaveQueues u).1, fun e he => (h.leaveQueues u).2 e (Tab.mem_erase he)⟩
theorem State.since_forget (s : State) (u : Nat) : (s.erased u).Since (s.forget u) := by
  have h : (s.erased u).Since ((s.erased u).unreserve u) := (State.Since.refl _).unreserve u
  unfold State.forget
  dsimp only
  split
  · exact h.wakePorts _
  · exact h

theorem State.Since.endThread (h : s₀.Since s) (u) : s₀.Since (s.endThread u) := by
  cases ht : s.thread? u with
  | none => rw [State.endThread_none ht]; exact h
  | some t =>
    rw [State.endThread_some ht]
    exact (((h.leaveGroups u).erased u).trans (State.since_forget _ u)).vacate u t

/-- A thread is in no entry of the table. -/
def State.Gone (s : State) (u : Nat) : Prop := ∀ e ∈ s.threads, e.1 ≠ u

theorem State.gone_iff {u : Nat} : s.Gone u ↔ s.thread? u = none := Tab.find?_eq_none_iff.symm
theorem State.Since.gone (h : s₀.Since s) {u : Nat} (hu : s₀.Gone u) : s.Gone u := fun e he => by
  obtain ⟨e₀, he₀, hk, -⟩ := h.2 e he
  exact hk ▸ hu e₀ he₀
theorem State.Inv.gone_endThread (h : s.Inv) (u : Nat) : (s.endThread u).Gone u := by
  cases ht : s.thread? u with
  | none => rw [State.endThread_none ht]; exact State.gone_iff.2 ht
  | some t =>
    rw [State.endThread_some ht]
    refine ((State.since_forget _ u).vacate u t).gone (State.gone_iff.2 ?_)
    exact Tab.find?_erase_same ((h.leaveGroups u).leaveQueues u).threads u

theorem State.Since.freeHandles (h : s₀.Since s) (ctx hs) : s₀.Since (s.freeHandles ctx hs) := by
  refine .foldl (fun s _ h => ?_) _ h
  dsimp only
  split
  · exact h
  · exact h
theorem State.Since.discardFoot (h : s₀.Since s) (u) : s₀.Since (s.discardFoot u) := by
  unfold State.discardFoot
  split
  · exact h
  · next t _ =>
    dsimp only
    exact .ite (((h.freeHandles t.attr.ctx t.allocs).setCores _).modThread u _) h

/-- A thread of a lost core just before its end: what it held for itself is gone, and it is reported (R401). -/
def State.reported (s : State) (u : Nat) (t : Thread) : State :=
  if t.attr.isSealed && t.attr.restart then
    let s := (s.discardFoot u).recordThread t 9 0 0
    match s.launchOf t.attr with
    | some (k, l) => { s with launches := Tab.insert s.launches k { l with requeue := l.requeue ++ [t.attr.tid.toNat] } }
    | none => s
  else (s.discardFoot u).recordThread t 5 0 0
theorem State.loseOrRequeue_some {u : Nat} {t : Thread} (h : s.thread? u = some t) : s.loseOrRequeue u = (s.reported u t).endThread u := by
  unfold State.loseOrRequeue State.reported
  rw [h]
  dsimp only
  split <;> rfl
theorem State.loseOrRequeue_none {u : Nat} (h : s.thread? u = none) : s.loseOrRequeue u = s := by
  unfold State.loseOrRequeue
  rw [h]
theorem State.Since.reported (h : s₀.Since s) (u t) : s₀.Since (s.reported u t) := by
  refine .ite ?_ ((h.discardFoot u).recordThread ..)
  dsimp only
  split
  · exact (h.discardFoot u).recordThread ..
  · exact (h.discardFoot u).recordThread ..
theorem State.Inv.reported (h : s.Inv) (u t) : (s.reported u t).Inv := by
  refine .ite ?_ ((h.discardFoot u).recordThread ..)
  dsimp only
  split
  · exact (h.discardFoot u).recordThread ..
  · exact (h.discardFoot u).recordThread ..
theorem State.Since.loseOrRequeue (h : s₀.Since s) (u) : s₀.Since (s.loseOrRequeue u) := by
  cases ht : s.thread? u with
  | none => rw [State.loseOrRequeue_none ht]; exact h
  | some t => rw [State.loseOrRequeue_some ht]; exact (h.reported u t).endThread u
theorem State.Inv.gone_loseOrRequeue (h : s.Inv) (u : Nat) : (s.loseOrRequeue u).Gone u := by
  cases ht : s.thread? u with
  | none => rw [State.loseOrRequeue_none ht]; exact State.gone_iff.2 ht
  | some t => rw [State.loseOrRequeue_some ht]; exact (h.reported u t).gone_endThread u
/-- Every thread of a list that is lost is gone at the end of its loss, whoever is lost after it. -/
theorem State.Inv.gone_of_lost (h : s.Inv) {users : List Nat} {u : Nat} (hu : u ∈ users) : (users.foldl State.loseOrRequeue s).Gone u := by
  induction users generalizing s with
  | nil => cases hu
  | cons v users ih =>
    rcases List.mem_cons.1 hu with rfl | hu
    · exact (State.Since.foldl (fun _ _ h => h.loseOrRequeue _) users (.refl _)).gone (h.gone_loseOrRequeue u)
    · exact ih (h.loseOrRequeue v) hu

/-! ### What a fence refuses and re-dresses -/

theorem State.Since.faultThread (h : s₀.Since s) (u reg cause fval) : s₀.Since (s.faultThread u reg cause fval) :=
  h.modThread _ _ fun _ _ => by dsimp only; split <;> rfl
theorem State.Since.refuseWaiters (h : s₀.Since s) (mask) : s₀.Since (s.refuseWaiters mask) := by
  refine .foldl (fun s e h => ?_) _ (.foldl (fun s a h => ?_) _ ?_)
  · split
    · exact .ite (h.faultThread ..) h
    · exact h
  · exact .ite (h.faultThread ..) ((h.faultThread ..).wakePorts _)
  · exact h

/-- An operation bound to the generation that the re-dresses before it leave (R335). -/
def HEntry.bound (e : HEntry) (h : Handle) : HEntry := { e with gen := h.gen + BitVec.ofNat 32 (h.order.filter (·.redress)).length }
/-- A handle with an operation at the end of its order. -/
def Handle.entered (h : Handle) (e : HEntry) : Handle := { h with order := h.order ++ [e.bound h] }
theorem State.pokeHandle_eq (s : State) (key : Nat) : ∃ l, s.pokeHandle key = { s with pending := l } := by
  unfold State.pokeHandle
  split
  · exact ⟨_, rfl⟩
  · split
    · exact ⟨_, rfl⟩
    · split
      · split
        · exact ⟨_, rfl⟩
        · exact ⟨_, rfl⟩
      · exact ⟨_, rfl⟩
/-- An operation enters the order of its handle alone; what it may start is a step to come. -/
theorem State.enterOrder_eq (s : State) (key : Nat) (e : HEntry) :
    ∃ l, s.enterOrder key e = { s.modHandle key (·.entered e) with pending := l } := by
  unfold State.enterOrder
  extract_lets first t
  split
  · exact t.pokeHandle_eq key
  · exact ⟨_, rfl⟩
theorem State.queueRedress_eq (s : State) (key : Nat) :
    ∃ e l, e.redress = true ∧ s.queueRedress key = { s.modHandle key (·.entered e) with pending := l } := by
  unfold State.queueRedress
  extract_lets c
  obtain ⟨l, h⟩ := s.enterOrder_eq key
    { cmd := c, redress := true, gen := 0#32, other := none, built := false, dst := [], vdst := [], mark := s.co }
  exact ⟨_, l, rfl, h⟩

theorem State.Since.modHandle (h : s₀.Since s) (key f) : s₀.Since (s.modHandle key f) := by
  unfold State.modHandle
  split
  · exact h
  · exact h
theorem State.Since.queueRedress (h : s₀.Since s) (key) : s₀.Since (s.queueRedress key) := by
  obtain ⟨e, l, -, hq⟩ := s.queueRedress_eq key
  rw [hq]
  exact (h.modHandle ..).setPending l
theorem State.Since.redressFenced (h : s₀.Since s) (mask) : s₀.Since (s.redressFenced mask) :=
  .foldl (fun _ _ h => .ite (h.queueRedress _) h) _ h

/-! ### Committed memory under what a fence does to threads and handles -/

@[simp] theorem State.mem_wakeOwned (s : State) : s.wakeOwned.mem = s.mem := rfl
@[simp] theorem State.mem_faultThread (s : State) (u reg cause : Nat) (fval : Word) : (s.faultThread u reg cause fval).mem = s.mem :=
  s.mem_modThread ..
theorem State.mem_refuseWaiters (s : State) (mask : BitVec 8) : (s.refuseWaiters mask).mem = s.mem := by
  refine (foldl_keeps (p := fun s : State => s.mem) (fun s e => ?_) _ _).trans (foldl_keeps (p := fun s : State => s.mem) (fun s a => ?_) _ _)
  · split
    · split
      · exact s.mem_faultThread ..
      · rfl
    · rfl
  · dsimp only
    split
    · exact s.mem_faultThread ..
    · exact s.mem_faultThread ..
@[simp] theorem State.mem_modHandle (s : State) (key : Nat) (f : Handle → Handle) : (s.modHandle key f).mem = s.mem := by
  unfold State.modHandle
  split <;> rfl
@[simp] theorem State.mem_queueRedress (s : State) (key : Nat) : (s.queueRedress key).mem = s.mem := by
  obtain ⟨e, l, -, h⟩ := s.queueRedress_eq key
  rw [h]
  exact s.mem_modHandle ..
theorem State.mem_redressFenced (s : State) (mask : BitVec 8) : (s.redressFenced mask).mem = s.mem :=
  foldl_keeps (p := fun s : State => s.mem) (fun s e => by split; exacts [s.mem_queueRedress _, rfl]) _ s

/-! ### A fence (R400-R402) -/

/-- The threads of the cores of some Faces. -/
def State.usersOn (s : State) (mask : BitVec 8) : List Nat := (s.threads.filter (fun e => s.threadOn mask e.1 e.2)).map (·.1)
/-- The Faces of a mask are down, with their threads still in the table. -/
def State.facesDown (s : State) (mask : BitVec 8) : State := { s with
  device := { s.device with fenced := s.device.fenced ||| mask }
  lostHomes := s.lostHomes ||| mask
  renewed := s.renewed.filter (fun r => !mask.getLsbD r.1) }
/-- The Faces of a mask are down, and the threads of their cores have ended. -/
def State.endFaces (s : State) (mask : BitVec 8) : State :=
  (s.usersOn mask).foldl State.loseOrRequeue (((s.usersOn mask).foldl State.decideChunk s).facesDown mask)
/-- The cores of the Faces are at their reset state, and what was on its way to them is gone. -/
def State.cutFaces (s : State) (mask : BitVec 8) : State := { s with
  cores := (s.cores.map (fun e => (e.1, if onFaces mask e.1 then e.2.cleared e.1 else e.2))).filter
    (fun e => decide (e.2 ≠ Core.reset e.1))
  mem := s.mem.filter (fun e => !localOn mask e.1)
  empty := s.empty.filter (fun e => !localOn mask (8 * e.1))
  poison := s.poison.filter (fun e => !localOn mask (64 * e.1))
  setts := s.setts.map (fun e => (e.1, { e.2 with owner := match e.2.owner with
    | some c => if onFaces mask c then none else some c
    | none => none }))
  watches := s.watches.filter (fun w => !(decide (w.slice < Config.cores) && onFaces mask w.slice))
  tcache := s.tcache.filter (fun e => !(decide (e.slice < Config.cores) && onFaces mask e.slice))
  ctxs := s.ctxs.map (fun e => (e.1, { e.2 with saving := e.2.saving.filter (fun c => !onFaces mask c) }))
  pending := s.pending.filter (fun e => !lostWith mask e)
  timers := s.timers.filter (fun e => !lostWith mask e.2)
  faultq := s.faultq.map (fun f => { f with waiters := f.waiters.filter (fun w => match w with
    | .engine c _ => !onFaces mask c
    | _ => true) }) }
theorem State.fenceFaces_eq (s : State) (m : BitVec 8) : s.fenceFaces m =
    if m &&& ~~~s.device.fenced = 0#8 then s
    else (((((s.endFaces (m &&& ~~~s.device.fenced)).cutFaces (m &&& ~~~s.device.fenced)).refuseWaiters (m &&& ~~~s.device.fenced)).wakeOwned).redressFenced
      (m &&& ~~~s.device.fenced)).push .threadPlacement := rfl

/-- After the waits at lost words are refused and the handles re-dressed, the rest stands as the cut left it. -/
theorem State.Since.settled (h : s₀.Since s) (mask) : s₀.Since ((((s.refuseWaiters mask).wakeOwned).redressFenced mask).push .threadPlacement) :=
  (((h.refuseWaiters mask).wakeOwned).redressFenced mask).push _

theorem State.Inv.facesDown (h : s.Inv) (mask) : (s.facesDown mask).Inv := State.inv_iff.2 (State.inv_iff.1 h)
theorem State.since_endFaces (s : State) (mask : BitVec 8) : (s.facesDown mask).Since (s.endFaces mask) := by
  have h : s.Since ((s.usersOn mask).foldl State.decideChunk s) := .foldl (fun _ _ h => h.decideChunk _) _ (.refl s)
  exact .foldl (fun _ _ h => h.loseOrRequeue _) _ ⟨congrArg (· ||| mask) h.1, h.2⟩
theorem State.Inv.gone_endFaces (h : s.Inv) {mask : BitVec 8} {u : Nat} (hu : u ∈ s.usersOn mask) : (s.endFaces mask).Gone u := by
  have hdecided : ((s.usersOn mask).foldl State.decideChunk s).Inv := foldl_inv (fun _ u h => h.decideChunk u) _ s h
  exact (hdecided.facesDown mask).gone_of_lost hu
theorem State.since_cutFaces (s : State) (mask : BitVec 8) : s.Since (s.cutFaces mask) := ⟨rfl, fun e he => ⟨e, he, rfl, rfl⟩⟩

theorem fenced_or_new (x m : BitVec 8) : x ||| (m &&& ~~~x) = x ||| m := by
  have hbit (a b : Bool) : (a || b && !a) = (a || b) := by cases a <;> simp
  ext i hi
  simp only [BitVec.getElem_or, BitVec.getElem_and, BitVec.getElem_not, hbit]

/-- The state once the Faces of a mask are fenced at one instant. -/
def State.fenced (s : State) (mask : BitVec 8) : State :=
  (((((s.endFaces mask).cutFaces mask).refuseWaiters mask).wakeOwned).redressFenced mask).push .threadPlacement

theorem State.fenceFaces_new {m : BitVec 8} (h : m &&& ~~~s.device.fenced ≠ 0#8) :
    s.fenceFaces m = s.fenced (m &&& ~~~s.device.fenced) := (s.fenceFaces_eq m).trans (if_neg h)

theorem State.since_fenced (s : State) (mask : BitVec 8) : (s.endFaces mask).Since (s.fenced mask) := (State.since_cutFaces _ mask).settled mask
theorem State.fenced_fenced (s : State) (mask : BitVec 8) : (s.fenced mask).device.fenced = s.device.fenced ||| mask :=
  (s.since_fenced mask).1.trans (s.since_endFaces mask).1
theorem State.get_fenced (s : State) (mask : BitVec 8) (a : Nat) :
    Store.get (s.fenced mask).mem a = if localOn mask a then 0#8 else Store.get (s.endFaces mask).mem a := by
  have h : (s.fenced mask).mem = (s.endFaces mask).mem.filter (fun e => !localOn mask e.1) := by
    unfold State.fenced State.push
    dsimp only
    rw [State.mem_redressFenced, State.mem_wakeOwned, State.mem_refuseWaiters]
    rfl
  rw [h, Store.get_filter_key (fun k => !localOn mask k)]
  cases localOn mask a <;> rfl
/-- No thread that is left is in a slot of the Faces: one that was has ended, and none has moved. -/
theorem State.Inv.not_on_of_fenced (h : s.Inv) {mask : BitVec 8} {u : Nat} {t : Thread} {c k : Nat}
    (ht : (s.fenced mask).thread? u = some t) (hp : t.place = .slot c k) : mask.getLsbD (faceOf c) = false := by
  have hgone {v : Nat} (hv : v ∈ s.usersOn mask) : (s.fenced mask).Gone v := (s.since_fenced mask).gone (h.gone_endFaces hv)
  obtain ⟨⟨v, t₀⟩, h₀, hv, hp₀⟩ := ((s.since_endFaces mask).trans (s.since_fenced mask)).2 (u, t) (Tab.mem_of_find? ht)
  cases hc : mask.getLsbD (faceOf c) with
  | false => rfl
  | true =>
    have hon : s.threadOn mask v t₀ = true := by
      unfold State.threadOn
      rw [hp₀.trans hp]
      exact hc
    exact absurd hv.symm (hgone (List.mem_map.2 ⟨_, List.mem_filter.2 ⟨h₀, hon⟩, rfl⟩) _ (Tab.mem_of_find? ht))
/-- Without threads of the Faces no chunk is decided, and no thread's loss is reported. -/
theorem State.mem_endFaces_of_none {mask : BitVec 8} (h : ∀ e ∈ s.threads, s.threadOn mask e.1 e.2 = false) :
    (s.endFaces mask).mem = s.mem := by
  have husers : s.usersOn mask = [] := by
    unfold State.usersOn
    rw [List.filter_eq_nil_iff.2 fun e he => by simp [h e he]]
    rfl
  unfold State.endFaces
  rw [husers]
  rfl

/-- FACE_FENCE, FACE_FAILURE and FACE_RESET (R321, R400-R402). -/
theorem faceFence_cases (s : State) (mask : BitVec 8) :
    let m := mask &&& ~~~s.device.fenced
    (m = 0#8 → exec (.faceFence mask) s = .next s) ∧
    (m ≠ 0#8 → s.Inv → ∃ s', exec (.faceFence mask) s = .next s' ∧ s'.device.fenced = s.device.fenced ||| mask ∧ .threadPlacement ∈ s'.pending ∧
      (∀ c o, c < 16384 → m.getLsbD (faceOf c) = true → o < 2 ^ 16 → Store.get s'.mem (localLoc c o) = 0#8) ∧
      (∀ u t c k, s'.thread? u = some t → t.place = .slot c k → m.getLsbD (faceOf c) = false) ∧
      ((∀ e ∈ s.threads, s.threadOn m e.1 e.2 = false) → ∀ a, localOn m a = false → Store.get s'.mem a = Store.get s.mem a)) := by
  intro m
  refine ⟨fun h => congrArg _ ((s.fenceFaces_eq mask).trans (if_pos h)), fun h hi =>
    ⟨s.fenced m, congrArg _ (State.fenceFaces_new h), ?_, ?_, ?_, ?_, ?_⟩⟩
  · exact (s.fenced_fenced m).trans (fenced_or_new ..)
  · exact List.mem_append_right _ List.mem_cons_self
  · intro c o hc hm ho
    rw [s.get_fenced, localOn, localCore_localLoc hc ho]
    exact if_pos hm
  · exact fun u t c k => hi.not_on_of_fenced
  · intro hnone a ha
    rw [s.get_fenced, ha, State.mem_endFaces_of_none hnone]
    rfl

end Sys2Proof.Machine

namespace Sys2Proof.Machine

/-! ### A stack is lost (R26, R368, R370) -/

/-- What the loss of a stack does to one handle. -/
def State.loseCopies (stack : Nat) (s : State) (e : Nat × Handle) : State :=
  let copies := e.2.dress.copies
  if e.2.state = .dead ∨ copies.all (fun c => !c.contains stack) then s
  else if copies.all (fun c => !c.isEmpty && c.all s.lostStacks.contains) then s.modHandle e.1 (fun h => { h with bad := true })
  else if copies.all (fun c => c.any s.lostStacks.contains) then s.pierce e.1 e.2
  else if e.2.state = .live then s.queueRedress e.1
  else s
theorem State.loseStack_eq {s : State} {stack : Nat} (hk : stack < 12) (h : s.lostStacks.contains stack = false) :
    s.loseStack stack = s.handles.foldl (State.loseCopies stack) { s with lostStacks := s.lostStacks ++ [stack] } :=
  if_neg (by simp only [h, Bool.false_eq_true, or_false]; omega)

variable {s : State} {stack : Nat} {key : Nat} {h : Handle}

/-- A handle that is dead, or that had no copy on the stack, stays as it is. -/
theorem State.loseCopies_apart (hh : h.state = .dead ∨ ∀ c ∈ h.dress.copies, stack ∉ c) : s.loseCopies stack (key, h) = s :=
  if_pos (hh.imp_right fun hh => by simpa using hh)
/-- A handle with a copy on the stack is concerned. -/
theorem Handle.not_apart (hh : h.state ≠ .dead ∧ ∃ c ∈ h.dress.copies, stack ∈ c) :
    ¬(h.state = .dead ∨ h.dress.copies.all (fun c => !c.contains stack) = true) := by
  obtain ⟨hdead, c, hc, hk⟩ := hh
  simp only [hdead, false_or, List.all_eq_true, not_forall]
  exact ⟨c, hc, by simpa using hk⟩
theorem State.loseCopies_bad (hh : h.state ≠ .dead ∧ ∃ c ∈ h.dress.copies, stack ∈ c)
    (hall : ∀ c ∈ h.dress.copies, c ≠ [] ∧ ∀ j ∈ c, j ∈ s.lostStacks) :
    s.loseCopies stack (key, h) = s.modHandle key (fun h => { h with bad := true }) := by
  unfold State.loseCopies
  rw [if_neg (Handle.not_apart hh), if_pos (by simpa [List.all_eq_true] using hall)]
theorem State.loseCopies_pierce (hh : h.state ≠ .dead ∧ ∃ c ∈ h.dress.copies, stack ∈ c)
    (hsome : ∃ c ∈ h.dress.copies, ∃ j ∈ c, j ∉ s.lostStacks) (hall : ∀ c ∈ h.dress.copies, ∃ j ∈ c, j ∈ s.lostStacks) :
    s.loseCopies stack (key, h) = s.pierce key h := by
  have hleft : ¬h.dress.copies.all (fun c => !c.isEmpty && c.all s.lostStacks.contains) = true := by
    obtain ⟨c, hc, j, hj, hn⟩ := hsome
    intro hlost
    have := List.all_eq_true.1 hlost c hc
    simp only [Bool.and_eq_true, List.all_eq_true] at this
    exact hn (by simpa using this.2 j hj)
  unfold State.loseCopies
  rw [if_neg (Handle.not_apart hh), if_neg hleft, if_pos (by simpa [List.all_eq_true] using hall)]
theorem State.loseCopies_redress (hh : h.state ≠ .dead ∧ ∃ c ∈ h.dress.copies, stack ∈ c) (hlive : h.state = .live)
    (hwhole : ∃ c ∈ h.dress.copies, ∀ j ∈ c, j ∉ s.lostStacks) : s.loseCopies stack (key, h) = s.queueRedress key := by
  obtain ⟨c, hc, hn⟩ := hwhole
  have hany : c.any s.lostStacks.contains = false := by simpa using hn
  have hbad : (!c.isEmpty && c.all s.lostStacks.contains) = false := by
    cases c with
    | nil => rfl
    | cons j c => simp [hn j List.mem_cons_self]
  unfold State.loseCopies
  rw [if_neg (Handle.not_apart hh), if_neg fun hl => by simp [List.all_eq_true.1 hl c hc] at hbad,
    if_neg fun hl => by simp [List.all_eq_true.1 hl c hc] at hany, if_pos hlive]

/-! ### What one handle's loss leaves of the rest -/

theorem State.find?_modHandle_same {f : Handle → Handle} (hf : Tab.find? s.handles key = some h) :
    Tab.find? (s.modHandle key f).handles key = some (f h) := by
  unfold State.modHandle
  rw [hf]
  exact Tab.find?_insert_same ..
theorem State.find?_modHandle_other (s : State) {i : Nat} (f : Handle → Handle) (hi : i ≠ key) :
    Tab.find? (s.modHandle key f).handles i = Tab.find? s.handles i := by
  unfold State.modHandle
  split
  · exact Tab.find?_insert_other _ _ hi
  · rfl
@[simp] theorem State.poison_modHandle (s : State) (key : Nat) (f : Handle → Handle) : (s.modHandle key f).poison = s.poison := by
  unfold State.modHandle
  split <;> rfl
@[simp] theorem State.lostStacks_modHandle (s : State) (key : Nat) (f : Handle → Handle) : (s.modHandle key f).lostStacks = s.lostStacks := by
  unfold State.modHandle
  split <;> rfl

/-- The loss of a handle's copies is a change of that handle alone, or it poisons lines of the handle that each copy has lost in part. -/
theorem State.loseCopies_cases (s : State) (stack : Nat) (key : Nat) (h : Handle) :
    (∃ f l, s.loseCopies stack (key, h) = { s.modHandle key f with pending := l }) ∨ s.loseCopies stack (key, h) = s ∨
    (s.loseCopies stack (key, h) = s.pierce key h ∧ h.state ≠ .dead ∧ ∀ c ∈ h.dress.copies, ∃ j ∈ c, j ∈ s.lostStacks) := by
  unfold State.loseCopies
  dsimp only
  split
  · exact .inr (.inl rfl)
  next hapart =>
  split
  · exact .inl ⟨_, (s.modHandle key _).pending, rfl⟩
  split
  next hall =>
    exact .inr (.inr ⟨rfl, fun hd => hapart (.inl hd), by simpa [List.all_eq_true] using hall⟩)
  split
  · obtain ⟨e, l, -, hq⟩ := s.queueRedress_eq key
    exact .inl ⟨_, l, hq⟩
  · exact .inr (.inl rfl)

theorem State.mem_loseCopies (s : State) (e : Nat × Handle) : (s.loseCopies stack e).mem = s.mem := by
  obtain ⟨f, l, h⟩ | h | ⟨h, -⟩ := s.loseCopies_cases stack e.1 e.2
  · rw [h]; exact s.mem_modHandle ..
  · rw [h]
  · rw [h]; rfl
theorem State.lostStacks_loseCopies (s : State) (e : Nat × Handle) : (s.loseCopies stack e).lostStacks = s.lostStacks := by
  obtain ⟨f, l, h⟩ | h | ⟨h, -⟩ := s.loseCopies_cases stack e.1 e.2
  · rw [h]; exact s.lostStacks_modHandle ..
  · rw [h]
  · rw [h]; rfl
theorem State.find?_loseCopies_other (s : State) {e : Nat × Handle} {i : Nat} (hi : i ≠ e.1) :
    Tab.find? (s.loseCopies stack e).handles i = Tab.find? s.handles i := by
  obtain ⟨f, l, h⟩ | h | ⟨h, -⟩ := s.loseCopies_cases stack e.1 e.2
  · rw [h]; exact s.find?_modHandle_other f hi
  · rw [h]
  · rw [h]; rfl
theorem Store.get_putAll_other {l : Nat} {ls : List (Nat × Nat)} (hl : ∀ e ∈ ls, e.1 ≠ l) (m : Store 1) :
    Store.get (ls.foldl (fun m e => Store.put m e.1 1#1) m) l = Store.get m l := by
  induction ls generalizing m with
  | nil => rfl
  | cons e ls ih =>
    obtain ⟨he, hls⟩ := List.forall_mem_cons.1 hl
    exact (ih hls _).trans (Store.get_put_other _ _ he.symm)
theorem State.get_pierce (s : State) {l : Nat} (hl : l ∉ h.lines key) : Store.get (s.pierce key h).poison l = Store.get s.poison l :=
  Store.get_putAll_other (l := l) (fun _ he hel => hl (hel ▸ List.fst_mem_of_mem_zipIdx (List.mem_filter.1 he).1)) s.poison
theorem State.poison_loseCopies {e : Nat × Handle} {l : Nat} (hl : Store.get (s.loseCopies stack e).poison l ≠ Store.get s.poison l) :
    e.2.state ≠ .dead ∧ l ∈ e.2.lines e.1 ∧ ∀ c ∈ e.2.dress.copies, ∃ j ∈ c, j ∈ s.lostStacks := by
  obtain ⟨f, ps, h⟩ | h | ⟨h, hd, hc⟩ := s.loseCopies_cases stack e.1 e.2
  · exact absurd (by rw [h]; exact congrArg (Store.get · l) (s.poison_modHandle ..)) hl
  · exact absurd (by rw [h]) hl
  · exact ⟨hd, by_contra fun hn => hl (by rw [h]; exact s.get_pierce hn), hc⟩

/-! ### Over all handles -/

theorem State.lostStacks_foldCopies (es : List (Nat × Handle)) (s : State) : (es.foldl (State.loseCopies stack) s).lostStacks = s.lostStacks :=
  foldl_keeps (p := fun s : State => s.lostStacks) State.lostStacks_loseCopies es s
/-- A line that is poisoned on the way is one of a handle whose every copy has lost a part. -/
theorem State.poison_foldCopies {l : Nat} {es : List (Nat × Handle)}
    (hl : Store.get (es.foldl (State.loseCopies stack) s).poison l ≠ Store.get s.poison l) :
    ∃ e ∈ es, e.2.state ≠ .dead ∧ l ∈ e.2.lines e.1 ∧ ∀ c ∈ e.2.dress.copies, ∃ j ∈ c, j ∈ s.lostStacks := by
  induction es generalizing s with
  | nil => exact absurd rfl hl
  | cons e es ih =>
    by_cases he : Store.get (s.loseCopies stack e).poison l = Store.get s.poison l
    · obtain ⟨x, hx, hp⟩ := ih (s := s.loseCopies stack e) fun heq => hl (heq.trans he)
      exact ⟨x, List.mem_cons_of_mem _ hx, s.lostStacks_loseCopies e ▸ hp⟩
    · exact ⟨e, List.mem_cons_self, State.poison_loseCopies he⟩
theorem State.find?_foldCopies_other {es : List (Nat × Handle)} {i : Nat} (hi : ∀ e ∈ es, i ≠ e.1) (s : State) :
    Tab.find? (es.foldl (State.loseCopies stack) s).handles i = Tab.find? s.handles i := by
  induction es generalizing s with
  | nil => rfl
  | cons e es ih =>
    obtain ⟨he, hes⟩ := List.forall_mem_cons.1 hi
    exact (ih hes _).trans (s.find?_loseCopies_other he)
/-- A handle ends as its own turn in the walk over the table leaves it. -/
theorem State.find?_foldCopies {es : Tab Handle} (hes : Tab.rising es = true) (hm : (key, h) ∈ es) (s : State) :
    ∃ r : State, r.lostStacks = s.lostStacks ∧ Tab.find? r.handles key = Tab.find? s.handles key ∧
      Tab.find? (es.foldl (State.loseCopies stack) s).handles key = Tab.find? (r.loseCopies stack (key, h)).handles key := by
  induction es generalizing s with
  | nil => cases hm
  | cons e es ih =>
    obtain ⟨he, hes⟩ := Tab.rising_cons.1 hes
    rcases List.mem_cons.1 hm with rfl | hm
    · exact ⟨s, rfl, rfl, State.find?_foldCopies_other (fun x hx => Nat.ne_of_lt (he x hx)) _⟩
    · obtain ⟨r, hlost, hfind, hend⟩ := ih hes hm (s.loseCopies stack e)
      exact ⟨r, hlost.trans (s.lostStacks_loseCopies e), hfind.trans (s.find?_loseCopies_other (Nat.ne_of_gt (he _ hm))), hend⟩

/-- A handle's lines lie beyond the HBM. -/
theorem Handle.le_of_mem_lines {l : Nat} (hl : l ∈ h.lines key) : 2 ^ 54 ≤ l := by
  obtain ⟨i, -, rfl⟩ := List.mem_map.1 (List.mem_eraseDups.1 hl)
  unfold handleLoc
  omega

/-! ### STACK_LOSS -/

/-- The state at the start of the walk over the handles. -/
def State.lessStack (s : State) (stack : Nat) : State := { s with lostStacks := s.lostStacks ++ [stack] }
/-- The state once a stack is lost. -/
def State.lostStack (s : State) (stack : Nat) : State := s.handles.foldl (State.loseCopies stack) (s.lessStack stack)

theorem State.mem_lessStack {j : Nat} : j ∈ (s.lessStack stack).lostStacks ↔ j = stack ∨ j ∈ s.lostStacks := by
  unfold State.lessStack
  rw [List.mem_append, List.mem_singleton, or_comm]
theorem State.lostStacks_lostStack (s : State) (stack : Nat) : (s.lostStack stack).lostStacks = s.lostStacks ++ [stack] :=
  State.lostStacks_foldCopies _ _
theorem State.poison_lostStack (hrise : Tab.rising s.handles = true) {l : Nat} (hl : Store.get (s.lostStack stack).poison l ≠ Store.get s.poison l) :
    ∃ key h, Tab.find? s.handles key = some h ∧ h.state ≠ .dead ∧ l ∈ h.lines key ∧
      ∀ c ∈ h.dress.copies, ∃ j ∈ c, j = stack ∨ j ∈ s.lostStacks := by
  obtain ⟨e, he, hdead, hline, hcopies⟩ := State.poison_foldCopies (s := s.lessStack stack) hl
  exact ⟨e.1, e.2, Tab.find?_of_mem hrise he, hdead, hline, by simpa only [State.mem_lessStack] using hcopies⟩
/-- Of the HBM only the lines of the lost stack are poisoned anew. -/
theorem State.poisoned_lostStack (hrise : Tab.rising s.handles = true) {a : Nat} (ha : isHbm a = true) :
    (s.lostStack stack).poisoned a = (s.poisoned a || decide (settOf a / 64 = stack)) := by
  have hline : Store.get (s.lostStack stack).poison (a / 64) = Store.get s.poison (a / 64) := by
    by_contra hne
    obtain ⟨key, h, -, -, hl, -⟩ := State.poison_lostStack hrise hne
    have := Handle.le_of_mem_lines hl
    have : a < 2 ^ 56 := of_decide_eq_true ha
    omega
  unfold State.poisoned
  rw [hline, State.lostStacks_lostStack, ha]
  simp [Bool.or_assoc]
/-- What the walk leaves of one handle is what its own turn leaves, with the stack lost before it. -/
theorem State.find?_lostStack (hrise : Tab.rising s.handles = true) (hf : Tab.find? s.handles key = some h) (stack : Nat) :
    ∃ r : State, (∀ j, j ∈ r.lostStacks ↔ j = stack ∨ j ∈ s.lostStacks) ∧ Tab.find? r.handles key = some h ∧
      Tab.find? (s.lostStack stack).handles key = Tab.find? (r.loseCopies stack (key, h)).handles key := by
  obtain ⟨r, hlost, hfind, hend⟩ := State.find?_foldCopies hrise (Tab.mem_of_find? hf) (s.lessStack stack)
  exact ⟨r, fun j => hlost ▸ State.mem_lessStack, hfind.trans hf, hend⟩

theorem stackLoss_cases (s : State) (k : Nat) (hk : k < 12) (hnew : s.lostStacks.contains k = false) (hrise : Tab.rising s.handles = true) :
    ∃ s', exec (.stackLoss k) s = .next s' ∧
    s'.mem = s.mem ∧ s'.lostStacks = s.lostStacks ++ [k] ∧ (∀ a, isHbm a = true → settOf a / 64 = k → s'.poisoned a = true) ∧
    (∀ a, isHbm a = true → settOf a / 64 ≠ k → s'.poisoned a = s.poisoned a) ∧
    (∀ l, Store.get s'.poison l ≠ Store.get s.poison l → ∃ key h, Tab.find? s.handles key = some h ∧ h.state ≠ .dead ∧ l ∈ h.lines key ∧
      ∀ c ∈ h.dress.copies, ∃ j ∈ c, j = k ∨ j ∈ s.lostStacks) ∧
    (∀ key h, Tab.find? s.handles key = some h → h.state ≠ .dead → (∃ c ∈ h.dress.copies, k ∈ c) →
      ((∀ c ∈ h.dress.copies, c ≠ [] ∧ ∀ j ∈ c, j = k ∨ j ∈ s.lostStacks) → Tab.find? s'.handles key = some { h with bad := true }) ∧
      ((∃ c ∈ h.dress.copies, ∃ j ∈ c, j ≠ k ∧ j ∉ s.lostStacks) → (∀ c ∈ h.dress.copies, ∃ j ∈ c, j = k ∨ j ∈ s.lostStacks) →
        Tab.find? s'.handles key = some h) ∧
      (h.state = .live → (∃ c ∈ h.dress.copies, ∀ j ∈ c, j ≠ k ∧ j ∉ s.lostStacks) → ∃ e, e.redress = true ∧
        Tab.find? s'.handles key = some { h with order := h.order ++ [e] })) ∧
    (∀ key h, Tab.find? s.handles key = some h → (h.state = .dead ∨ ∀ c ∈ h.dress.copies, k ∉ c) → Tab.find? s'.handles key = some h) := by
  refine ⟨s.lostStack k, congrArg _ (State.loseStack_eq hk hnew), foldl_keeps (p := fun s : State => s.mem) State.mem_loseCopies _ _,
    s.lostStacks_lostStack k, fun a ha hak => ?_, fun a ha hak => ?_, fun l => State.poison_lostStack hrise, fun key h hf hdead hon => ?_,
    fun key h hf hapart => ?_⟩
  · rw [State.poisoned_lostStack hrise ha, hak]
    simp
  · rw [State.poisoned_lostStack hrise ha]
    simp [hak]
  · obtain ⟨r, hlost, hfind, hend⟩ := State.find?_lostStack hrise hf k
    simp only [← hlost, ← not_or]
    rw [hend]
    refine ⟨fun hall => ?_, fun hsome hall => ?_, fun hlive hwhole => ?_⟩
    · rw [State.loseCopies_bad ⟨hdead, hon⟩ hall]
      exact State.find?_modHandle_same hfind
    · rw [State.loseCopies_pierce ⟨hdead, hon⟩ hsome hall]
      exact hfind
    · rw [State.loseCopies_redress ⟨hdead, hon⟩ hlive hwhole]
      obtain ⟨e, l, hredress, hq⟩ := r.queueRedress_eq key
      rw [hq]
      exact ⟨e.bound h, hredress, State.find?_modHandle_same hfind⟩
  · obtain ⟨r, -, hfind, hend⟩ := State.find?_lostStack hrise hf k
    rw [hend, State.loseCopies_apart hapart, hfind]

end Sys2Proof.Machine

namespace Sys2Proof.Machine

/-! ### Links, ports and the Bed (R26, R419) -/

/-- Which devices are lost has no part in a translation. -/
theorem State.lookup_lostDevs (s : State) (l : List Nat) (ctx va : Nat) : ({ s with lostDevs := l } : State).lookup ctx va = s.lookup ctx va := rfl

/-- From a link's time limit on, an access to the device it leads to is refused. -/
theorem State.globalSpot_lost {s : State} {ctx va dev : Nat} {e : TEntry} {p : Perm} {l : List Nat} (he : s.lookup ctx va = some e)
    (hp : e.allows p = true) (hd : remoteDev (s.placeIn e va) = some dev) (hl : l.contains dev = true) :
    ({ s with lostDevs := l } : State).globalSpot ctx va p = .bad 0x07 := by
  have hd' : remoteDev (({ s with lostDevs := l } : State).placeIn e va) = some dev := hd
  unfold State.globalSpot
  rw [s.lookup_lostDevs, he]
  simp only [hp, hd', hl, Bool.not_true, Bool.false_eq_true, if_false, Bool.true_or, if_true]

theorem contains_setAdd (l : List Nat) (x : Nat) : (setAdd l x).contains x = true := by
  unfold setAdd
  split
  next h => exact h
  next => simp

/-! ### A port is lost (R417) -/

/-- A record goes to the host's memory alone. -/
theorem record_place {base : Nat} {ws : List Nat} {w : Nat × Byte}
    (hw : w ∈ (ws.zipIdx).flatMap (fun w => bytesAt (hostLoc base + 8 * w.2) w.1 8)) : 2 ^ 56 ≤ w.1 := by
  obtain ⟨x, -, hx⟩ := List.mem_flatMap.1 hw
  have := bytesAt_loc hx
  unfold hostLoc at this
  omega
theorem State.get_record (s : State) (ctx kind code core slot seq tid fval pc w5 w6 : Nat) {a : Nat} (ha : a < 2 ^ 56) :
    Store.get (s.record ctx kind code core slot seq tid fval pc w5 w6).mem a = Store.get s.mem a := by
  unfold State.record
  split
  · rfl
  · split
    · rfl
    · dsimp only
      rw [State.mem_modPage, State.mem_commitBytes _ _ fun w hw hhbm => absurd (of_decide_eq_true hhbm) (Nat.not_lt.2 (record_place hw))]
      exact Store.get_putFold_other (fun w hw hwa => Nat.not_lt.2 (record_place hw) (hwa ▸ ha)) _
theorem State.cores_record (s : State) (ctx kind code core slot seq tid fval pc w5 w6 : Nat) :
    (s.record ctx kind code core slot seq tid fval pc w5 w6).cores = s.cores := by
  unfold State.record
  split
  · rfl
  · split
    · rfl
    · dsimp only
      rw [State.cores_modPage, State.cores_commitBytes]
theorem State.handles_record (s : State) (ctx kind code core slot seq tid fval pc w5 w6 : Nat) :
    (s.record ctx kind code core slot seq tid fval pc w5 w6).handles = s.handles := by
  unfold State.record
  split
  · rfl
  · split
    · rfl
    · dsimp only
      rw [State.handles_modPage, State.handles_commitBytes]
theorem State.lostPorts_record (s : State) (ctx kind code core slot seq tid fval pc w5 w6 : Nat) :
    (s.record ctx kind code core slot seq tid fval pc w5 w6).lostPorts = s.lostPorts := by
  unfold State.record
  split
  · rfl
  · split
    · rfl
    · dsimp only
      rw [State.lostPorts_modPage, State.lostPorts_commitBytes]

/-- A lost port and one step in flight: what is kept of it, and the state with its loss reported. -/
def dropHostStep (acc : List Event × State) (e : Event) : List Event × State :=
  match hostStep e with
  | none => (acc.1 ++ [e], acc.2)
  | some p =>
    let (k, s) := acc.2.choose 2
    if k = 0 then (acc.1 ++ [e], s)
    else
      let (w, s) := s.freeWord
      let (j, s) := s.choose (max 1 s.ctxs.length)
      let ctx := match p, s.ctxs[j]? with
        | some i, _ => (s.ctxPage i).num
        | none, some e => e.2.num
        | none, none => (s.ctxPage 0).num
      (acc.1, s.record ctx (w.toNat % 256) 0 0 31 0 0 0 0 0 0)
/-- The state in which the steps in flight are looked through. -/
def State.portDown (s : State) (port : Nat) : State := { s with lostPorts := setAdd s.lostPorts port }
theorem exec_hostPortLoss (s : State) (port : Nat) :
    let r := s.pending.foldl dropHostStep ([], s.portDown port)
    exec (.hostPortLoss port) s = .next { r.2 with pending := r.1 ++ r.2.pending.drop s.pending.length } := rfl

/-- What the loss of a port leaves of the state. -/
def State.PortKeeps (s₀ s : State) : Prop :=
  s.lostPorts = s₀.lostPorts ∧ s.cores = s₀.cores ∧ s.handles = s₀.handles ∧ ∀ a, a < 2 ^ 56 → Store.get s.mem a = Store.get s₀.mem a
theorem State.PortKeeps.record {s₀ s : State} (h : s₀.PortKeeps s) (ctx kind code core slot seq tid fval pc w5 w6 : Nat) :
    s₀.PortKeeps (s.record ctx kind code core slot seq tid fval pc w5 w6) := by
  obtain ⟨hports, hcores, hhandles, hmem⟩ := h
  exact ⟨(s.lostPorts_record ..).trans hports, (s.cores_record ..).trans hcores, (s.handles_record ..).trans hhandles,
    fun a ha => (s.get_record _ _ _ _ _ _ _ _ _ _ _ ha).trans (hmem a ha)⟩
theorem State.PortKeeps.choose {s₀ s : State} (h : s₀.PortKeeps s) (n : Nat) : s₀.PortKeeps (s.choose n).2 := ⟨h.1, h.2.1, h.2.2⟩
theorem State.PortKeeps.freeWord {s₀ s : State} (h : s₀.PortKeeps s) : s₀.PortKeeps s.freeWord.2 := ⟨h.1, h.2.1, h.2.2⟩
theorem State.PortKeeps.dropHostStep {s₀ : State} {acc : List Event × State} (h : s₀.PortKeeps acc.2) (e : Event) :
    s₀.PortKeeps (dropHostStep acc e).2 := by
  unfold Machine.dropHostStep
  split
  · exact h
  · dsimp only
    split
    · exact h.choose 2
    · exact (((h.choose 2).freeWord).choose _).record ..
/-- What is kept stays kept, and a step of the device's own is kept. -/
theorem mem_dropHostStep (acc : List Event × State) (e x : Event) (h : x ∈ acc.1 ∨ (x = e ∧ hostStep e = none)) :
    x ∈ (dropHostStep acc e).1 := by
  unfold dropHostStep
  rcases h with h | ⟨rfl, h⟩
  · split
    · exact List.mem_append_left _ h
    · dsimp only
      split
      · exact List.mem_append_left _ h
      · exact h
  · rw [h]
    exact List.mem_append_right _ List.mem_cons_self
theorem mem_foldDrop {es : List Event} {x : Event} (acc : List Event × State) (h : x ∈ acc.1 ∨ (x ∈ es ∧ hostStep x = none)) :
    x ∈ (es.foldl dropHostStep acc).1 := by
  induction es generalizing acc with
  | nil => exact h.resolve_right fun h => absurd h.1 List.not_mem_nil
  | cons e es ih =>
    refine ih _ ?_
    rcases h with h | ⟨h, hown⟩
    · exact .inl (mem_dropHostStep acc e x (.inl h))
    · rcases List.mem_cons.1 h with rfl | h
      · exact .inl (mem_dropHostStep acc x x (.inr ⟨rfl, hown⟩))
      · exact .inr ⟨h, hown⟩

theorem hostPortLoss_cases (s : State) (port : Nat) :
    ∃ s', exec (.hostPortLoss port) s = .next s' ∧ port ∈ s'.lostPorts ∧ s'.cores = s.cores ∧ s'.handles = s.handles ∧
      (∀ e ∈ s.pending, hostStep e = none → e ∈ s'.pending) ∧ (∀ a, a < 2 ^ 56 → s.Inv → Store.get s'.mem a = Store.get s.mem a) := by
  have hkeeps : (s.portDown port).PortKeeps (s.pending.foldl dropHostStep ([], s.portDown port)).2 :=
    foldl_inv (P := fun acc : List Event × State => (s.portDown port).PortKeeps acc.2) (fun _ e h => h.dropHostStep e) _ _
      ⟨rfl, rfl, rfl, fun _ _ => rfl⟩
  obtain ⟨hports, hcores, hhandles, hmem⟩ := hkeeps
  refine ⟨_, exec_hostPortLoss s port, ?_, hcores, hhandles, fun e he hown => ?_, fun a ha _ => hmem a ha⟩
  · dsimp only
    rw [hports]
    exact List.contains_iff_mem.1 (contains_setAdd ..)
  · exact List.mem_append_left _ (mem_foldDrop _ (.inr ⟨he, hown⟩))

/-- Without its Bed the device does nothing until the host resumes or resets it. -/
theorem step_bedLost {s : State} (h : s.pending.find? Event.withoutBed = none) : step { s with bedLost := true } = .fault .deviceStopped := by
  unfold step
  rw [if_pos rfl, h]

end Sys2Proof.Machine

namespace Sys2Proof

theorem Tab.find?_filter {α : Type} {m : Tab α} (hm : Tab.rising m = true) (p : Nat × α → Bool) (k : Nat) :
    Tab.find? (m.filter p) k = (Tab.find? m k).filter (fun v => p (k, v)) := by
  induction m with
  | nil => rfl
  | cons e m ih =>
    obtain ⟨j, u⟩ := e
    obtain ⟨hj, hm⟩ := Tab.rising_cons.1 hm
    have ih := ih hm
    rw [List.filter_cons]
    by_cases hk : j = k
    · subst hk
      have hrest : Tab.find? m j = none := Tab.find?_none fun e he => Nat.ne_of_gt (hj e he)
      rw [hrest] at ih
      cases hp : p (j, u) with
      | true => simp [Tab.find?, Option.filter, hp]
      | false => simpa [Tab.find?, Option.filter, hp] using ih
    · cases hp : p (j, u) with
      | true => simpa [Tab.find?, hk] using ih
      | false => simpa [Tab.find?, hk] using ih
/-- Entries that hold what an absent one reads as may be left out. -/
theorem Tab.get_filter_default {α : Type} [DecidableEq α] {m : Tab α} (hm : Tab.rising m = true) (d : Nat → α) (k : Nat) :
    Tab.get (d k) (m.filter (fun e => decide (e.2 ≠ d e.1))) k = Tab.get (d k) m k := by
  unfold Tab.get
  rw [Tab.find?_filter hm]
  cases Tab.find? m k with
  | none => rfl
  | some v =>
    by_cases hv : v = d k
    · simp [Option.filter, hv]
    · simp [Option.filter, hv]

end Sys2Proof

namespace Sys2Proof.Machine

/-! ### The module is reset (R424) -/

/-- A core at its reset state but for the capacity that it was built with. -/
def Core.rebuilt (q : Core) (c : Nat) : Core := { Core.reset c with cap := q.cap }
/-- What a core keeps of itself through a module reset is that capacity. -/
theorem State.cap_afterReset {s : State} (h : Tab.rising s.cores = true) (trip : Word) (c : Nat) :
    ((s.afterReset trip).core c).cap = (s.core c).cap := by
  have hcore : (s.afterReset trip).core c = Tab.get (Core.reset c) (s.cores.map fun e => (e.1, e.2.rebuilt e.1)) c :=
    Tab.get_filter_default (Tab.rising_map h fun e => e.2.rebuilt e.1) Core.reset c
  rw [hcore]
  unfold State.core Tab.get
  rw [Tab.find?_map (fun e : Nat × Core => (e.1, e.2.rebuilt e.1)) (fun _ => rfl)]
  cases Tab.find? s.cores c with
  | none => rfl
  | some q => rfl

/-- A module reset leaves the memories of the host and of other devices, and no other. -/
theorem State.get_afterReset (s : State) (trip : Word) (a : Nat) :
    Store.get (s.afterReset trip).mem a = if 2 ^ 56 ≤ a ∧ a < 2 ^ 58 then Store.get s.mem a else 0#8 := by
  refine (Store.get_filter_key outside s.mem a).trans ?_
  simp only [outside, Bool.and_eq_true, decide_eq_true_eq]

/-- What a module reset clears and what it keeps. -/
def State.Blank (s s' : State) : Prop :=
  s'.threads = [] ∧ s'.handles = [] ∧ s'.launches = [] ∧ s'.ctxs = [] ∧ s'.tcache = [] ∧ s'.empty = [] ∧ s'.setts = [] ∧
    s'.device.fenced = 0#8 ∧ s'.device.fzctl = 0#64 ∧ s'.device.still = false ∧ s'.cached = [] ∧ s'.frozen = s.frozen ∧ s'.ageing = s.ageing ∧
    (∀ c, (s'.core c).cap = (s.core c).cap) ∧
    (∀ a, Store.get s'.mem a = if 2 ^ 56 ≤ a ∧ a < 2 ^ 58 then Store.get s.mem a else 0#8)
theorem State.blank_afterReset {s : State} (h : Tab.rising s.cores = true) (trip : Word) : s.Blank (s.afterReset trip) :=
  ⟨rfl, rfl, rfl, rfl, rfl, rfl, rfl, rfl, rfl, rfl, rfl, rfl, rfl, State.cap_afterReset h trip, s.get_afterReset trip⟩

theorem thermalTrip_cases {s : State} (h : Tab.rising s.cores = true) (cause : BitVec 4) (face : BitVec 3) :
    ∃ s', exec (.thermalTrip cause face) s = .next s' ∧ s.Blank s' ∧ s'.pending = [.moduleReset] ∧
      s'.device.trip = BitVec.ofNat 64 (cause.toNat + face.toNat * 2 ^ 8) :=
  ⟨_, rfl, State.blank_afterReset h (BitVec.ofNat 64 (cause.toNat + face.toNat * 2 ^ 8)), rfl, rfl⟩

/-- Bring-up waits at step 4 for the host, or has failed at one of the three steps before it. -/
theorem boot_mem {k : Nat} (hk : k < 4) : (if k = 0 then 4#8 else BitVec.ofNat 8 (0x80 + k)) ∈ [4#8, 0x81#8, 0x82#8, 0x83#8] := by
  interval_cases k <;> decide

theorem moduleReset_cases {s : State} (h : Tab.rising s.cores = true) :
    ∃ s', exec .moduleReset s = .next s' ∧ s.Blank s' ∧ s'.pending = [] ∧ s'.device.trip = s.device.trip ∧
      s'.device.boot ∈ [4#8, 0x81#8, 0x82#8, 0x83#8] :=
  ⟨_, rfl, State.blank_afterReset h s.device.trip, rfl, rfl, boot_mem (Nat.mod_lt _ (by decide))⟩

/-! ### The obligation -/

/-- Settles O54: a fence, the loss of a stack, of links, ports and the Bed, and a trip and a reset, each from its own section above. -/
theorem failures : Obligations.Failures := by
  refine ⟨fun s mask face => ?_, stackLoss_cases,
    fun s link dev port ctx va e p => ⟨rfl, fun he hp hd => ?_, hostPortLoss_cases s port, rfl, step_bedLost⟩,
    fun s cause face h => ⟨thermalTrip_cases h cause face, moduleReset_cases h⟩⟩
  · obtain ⟨hold, hnew⟩ := faceFence_cases s mask
    exact ⟨hold, hnew, fun hf => congrArg Host.Outcome.next (if_pos hf), fun hf => congrArg Host.Outcome.next (if_neg (Nat.not_lt.2 hf)), rfl⟩
  · exact ⟨{ s with lostDevs := setAdd s.lostDevs dev }, rfl, rfl, State.globalSpot_lost he hp hd (contains_setAdd ..)⟩

end Sys2Proof.Machine

/-! ## Threads by number: what a write, a change and a wake leave of each -/

namespace Sys2Proof.Machine

theorem State.thread?_insert_other (s : State) {u w : Nat} (t : Thread) (h : w ≠ u) :
    ({ s with threads := Tab.insert s.threads u t } : State).thread? w = s.thread? w :=
  Tab.find?_insert_other _ _ h
theorem State.thread?_insert (s : State) (u : Nat) (t : Thread) :
    ({ s with threads := Tab.insert s.threads u t } : State).thread? u = some t :=
  Tab.find?_insert_same _ _ _
theorem State.thread?_modThread_other (s : State) {u w : Nat} (f : Thread → Thread) (h : w ≠ u) : (s.modThread u f).thread? w = s.thread? w := by
  unfold State.modThread
  split
  · rfl
  · exact State.thread?_insert_other s _ h
theorem State.thread?_modThread {s : State} {u : Nat} {t : Thread} (h : s.thread? u = some t) (f : Thread → Thread) :
    (s.modThread u f).thread? u = some (f t) := by
  rw [State.modThread_of s u f h]
  exact State.thread?_insert ..

theorem State.thread?_wakeAll (s : State) (p : Nat → Thread → Bool) (u : Nat) :
    (s.wakeAll p).thread? u = (s.thread? u).map fun t => if p u t then t.wake else t :=
  Tab.find?_map (fun e : Nat × Thread => (e.1, if p e.1 e.2 then e.2.wake else e.2)) (fun _ => rfl) s.threads
/-- A thread that a wake does not mean stays as it is. -/
theorem State.thread?_wakeAll_of {s : State} {p : Nat → Thread → Bool} {u : Nat} {t : Thread} (h : s.thread? u = some t) (hp : p u t = false) :
    (s.wakeAll p).thread? u = some t := by
  rw [State.thread?_wakeAll, h, Option.map_some, hp]
  rfl

end Sys2Proof.Machine

/-! ## Reset (O60) -/

namespace Sys2Proof.Machine

/-- Settles O60: nothing has been written yet, so every table is empty and every read of it gives the default it is kept against. -/
theorem resetState : Obligations.ResetState :=
  ⟨⟨⟨rfl, rfl, rfl, rfl⟩, fun _ h => nomatch h⟩, rfl, rfl, rfl, rfl,
    fun _ => ⟨rfl, rfl, rfl, rfl, rfl, rfl, rfl, rfl, rfl, rfl, rfl, rfl, rfl, rfl, rfl, rfl⟩,
    fun _ => ⟨rfl, rfl, rfl⟩, rfl, rfl, rfl, rfl, rfl, rfl, fun _ => rfl⟩

end Sys2Proof.Machine

/-! ## Barrier rounds (O23) -/

namespace Sys2Proof.Machine

/-! ### The release of one member (R40) -/

section releases
variable (s : State) (num step : Nat)

/-- A release only notes when the member may pass: in the timers, or with the member itself. -/
theorem State.release_cases (u : Nat) : s.release num step u = s ∨ (∃ n e, s.release num step u = s.after n e) ∨
    ∃ f, s.release num step u = s.modThread u f := by
  unfold State.release
  split
  · exact .inl rfl
  · split
    · dsimp only
      split
      · exact .inr (.inl ⟨_, _, rfl⟩)
      · exact .inr (.inr ⟨_, rfl⟩)
    · exact .inr (.inr ⟨_, rfl⟩)
theorem State.cycle_release (u : Nat) : (s.release num step u).cycle = s.cycle := by
  obtain h | ⟨n, e, h⟩ | ⟨f, h⟩ := s.release_cases num step u <;> rw [h]
  · rfl
  · exact State.cycle_modThread ..
theorem State.timers_release {u : Nat} {e : Nat × Event} (he : e ∈ s.timers) : e ∈ (s.release num step u).timers := by
  obtain h | ⟨n, e, h⟩ | ⟨f, h⟩ := s.release_cases num step u <;> rw [h]
  · exact he
  · exact List.mem_append_left _ he
  · rwa [State.timers_modThread]
theorem State.thread?_release_other {u w : Nat} (hw : w ≠ u) : (s.release num step u).thread? w = s.thread? w := by
  obtain h | ⟨n, e, h⟩ | ⟨f, h⟩ := s.release_cases num step u <;> rw [h]
  · rfl
  · exact s.thread?_modThread_other f hw

/-! ### The release of the members of a round -/

theorem State.cycle_releases (us : List Nat) : (us.foldl (fun s u => s.release num step u) s).cycle = s.cycle :=
  foldl_keeps (p := fun s : State => s.cycle) (fun s u => s.cycle_release num step u) us s
theorem State.timers_releases {e : Nat × Event} (us : List Nat) (he : e ∈ s.timers) :
    e ∈ (us.foldl (fun s u => s.release num step u) s).timers :=
  foldl_inv (P := fun s : State => e ∈ s.timers) (fun s _ h => s.timers_release num step h) us s he
theorem State.thread?_releases_other {w : Nat} (us : List Nat) (hw : w ∉ us) :
    (us.foldl (fun s u => s.release num step u) s).thread? w = s.thread? w := by
  induction us generalizing s with
  | nil => rfl
  | cons u us ih =>
    obtain ⟨hu, hus⟩ := not_or.1 (fun h => hw (List.mem_cons.2 h))
    rw [List.foldl_cons, ih _ hus, s.thread?_release_other num step hu]

/-- How long after the end of a round a member in a slot of a core waits (R40). -/
def releaseDelay (step c : Nat) : Nat := step * ((xOf c + 2 * yOf c) % 16)

variable {s num step}

/-- Of the members that are released, each in a slot waits at its GBAR until its own time, or keeps the release with that time. -/
theorem State.releases_slot {us : List Nat} (hn : us.Nodup) {u : Nat} (hu : u ∈ us) {t : Thread} {c k : Nat} (ht : s.thread? u = some t)
    (hp : t.place = .slot c k) :
    let s' := us.foldl (fun s u => s.release num step u) s
    (t.wait = .gbar num → (s.cycle + releaseDelay step c, .barrierRelease u t.stamp) ∈ s'.timers ∧ s'.thread? u = some t) ∧
    (t.wait ≠ .gbar num → s'.thread? u = some { t with released := t.released ++ [(num, s.cycle + releaseDelay step c)] }) := by
  obtain ⟨before, later, rfl⟩ := List.append_of_mem hu
  obtain ⟨-, hlater, hdisj⟩ := List.nodup_append.1 hn
  have hb : u ∉ before := fun h => hdisj u h u (List.mem_cons_self ..) rfl
  have hl : u ∉ later := (List.nodup_cons.1 hlater).1
  simp only [List.foldl_append, List.foldl_cons]
  have hcy := s.cycle_releases num step before
  have ht₁ := (s.thread?_releases_other num step before hb).trans ht
  generalize before.foldl (fun s u => s.release num step u) s = s₁ at hcy ht₁ ⊢
  rw [State.thread?_releases_other _ _ _ _ hl, ← hcy]
  constructor <;> intro hw
  · have hr : s₁.release num step u = s₁.after (releaseDelay step c) (.barrierRelease u t.stamp) := by
      simp only [State.release, ht₁, hp, hw, if_true, releaseDelay]
    rw [hr]
    exact ⟨State.timers_releases _ _ _ _ (List.mem_append_right _ (List.mem_singleton.2 rfl)), ht₁⟩
  · have hr : s₁.release num step u = s₁.modThread u (fun t => { t with released := t.released ++ [(num, s₁.cycle + releaseDelay step c)] }) := by
      simp only [State.release, ht₁, hp, hw, if_false, releaseDelay]
    rw [hr]
    exact State.thread?_modThread ht₁ _

end releases

/-! ### The rounds of a set (R38) -/

theorem State.checkRound_open (s : State) {gr : Group} (h : gr.complete = false) : s.checkRound gr = s.putGroup gr := by
  unfold State.checkRound
  rw [if_neg (by simp [h])]

/-- The members that the end of a round releases, those of the next round with them if that is complete too. -/
def Group.freed (gr : Group) : List Nat := gr.out ++ if gr.next.complete then gr.next.out else []
theorem State.checkRound_complete (s : State) {gr : Group} (h : gr.complete = true) :
    ∃ left : Group, s.checkRound gr = gr.freed.foldl (fun s u => s.release gr.num gr.step u) (s.putGroup left) := by
  unfold State.checkRound Group.freed
  rw [if_pos h]
  dsimp only
  split
  · exact ⟨_, rfl⟩
  · exact ⟨_, by rw [List.append_nil]⟩

theorem Group.mem_out {gr : Group} {ms : List Member} (hr : gr.round = some ms) {u : Nat} :
    u ∈ gr.out ↔ u ∈ gr.arrived ∧ .thread u ∈ ms := by
  simp [Group.out, hr]
/-- A counted member of a complete round has arrived. -/
theorem Group.arrived_of_complete {gr : Group} {ms : List Member} (hr : gr.round = some ms) (hc : gr.complete = true) {u : Nat}
    (hu : .thread u ∈ ms) : u ∈ gr.arrived := by
  unfold Group.complete at hc
  rw [hr] at hc
  simpa using List.all_eq_true.1 hc _ hu
/-- No thread is released twice: the arrivals of the next round are those that the round before does not count. -/
theorem Group.nodup_freed {gr : Group} (hn : gr.arrived.Nodup) : gr.freed.Nodup := by
  have hout : gr.out.Nodup := hn.filter _
  unfold Group.freed
  split
  · refine List.nodup_append.2 ⟨hout, (hn.filter _).filter _, fun a ha b hb hab => ?_⟩
    have hb : b ∈ gr.next.arrived := List.mem_of_mem_filter hb
    have hin := (List.mem_filter.1 ha).2
    have hnot := (List.mem_filter.1 hb).2
    rw [hab] at hin
    rw [hin] at hnot
    cases hnot
  · rwa [List.append_nil]

theorem barrierRelease_here {s : State} {u num : Nat} {t : Thread} (ht : s.thread? u = some t) (hw : t.wait = .gbar num) :
    exec (.barrierRelease u t.stamp) s = .next (({ s with threads := Tab.insert s.threads u t.finish } : State).progress t.attr.ctx) := by
  show execBarrierRelease u t.stamp s = _
  simp only [execBarrierRelease, ht, hw, if_true, State.modThread_of s u _ ht]

/-- Settles O23: the end of a round is a run of releases, no thread twice, so that each member meets its own release alone. -/
theorem barrierRounds : Obligations.BarrierRounds := by
  refine ⟨fun s gr hc => s.checkRound_open hc, fun s gr ms hr hc _ _ hn => ⟨fun u hu t c k ht hp => ?_, fun hnext u hu => ?_⟩,
    fun s u t num ht hw => barrierRelease_here ht hw⟩
  · obtain ⟨left, he⟩ := s.checkRound_complete hc
    have hfree : u ∈ gr.freed := List.mem_append_left _ ((Group.mem_out hr).2 ⟨Group.arrived_of_complete hr hc hu, hu⟩)
    rw [he]
    exact State.releases_slot (s := s.putGroup left) (Group.nodup_freed hn) hfree ht hp
  · obtain ⟨left, he⟩ := s.checkRound_complete hc
    have hfree : gr.freed = gr.out := by rw [Group.freed, if_neg (by simp [hnext]), List.append_nil]
    rw [he, hfree]
    exact State.thread?_releases_other (s.putGroup left) _ _ _ fun hm => hu ((Group.mem_out hr).1 hm).2

end Sys2Proof.Machine

/-! ## Loads of global memory (O10) -/

namespace Sys2Proof.Machine

/-! ### An access to a line beside a change of the thread -/

section beside
variable (s : State) (t : Thread)

theorem State.writeBackByte_withThread (loc : Nat) : (s.withThread t).writeBackByte loc = (s.writeBackByte loc).withThread t := by
  unfold State.writeBackByte
  change (match Tab.find? s.near loc with | none => _ | some n => _) = _
  cases Tab.find? s.near loc with
  | none => rfl
  | some n => dsimp only; split <;> rfl
theorem State.writeBackLine_withThread (line : Nat) : (s.withThread t).writeBackLine line = (s.writeBackLine line).withThread t := by
  have hfold : ∀ (l : List Nat) (s : State), l.foldl (fun s i => s.writeBackByte (64 * line + i)) (s.withThread t) =
      (l.foldl (fun s i => s.writeBackByte (64 * line + i)) s).withThread t := by
    intro l
    induction l with
    | nil => intro s; rfl
    | cons i l ih => intro s; rw [List.foldl_cons, List.foldl_cons, State.writeBackByte_withThread, ih]
  unfold State.writeBackLine
  rw [hfold]
  generalize List.foldl _ s _ = s'
  rfl
theorem State.mayEvict_withThread (line : Nat) : (s.withThread t).mayEvict line = (s.mayEvict line).withThread t := by
  unfold State.mayEvict
  change (if s.staleLine line then _ else _) = _
  cases s.staleLine line with
  | false => rfl
  | true =>
    change (if (s.choose 2).1 = 1 then ((s.choose 2).2.withThread t).writeBackLine line else (s.choose 2).2.withThread t) = _
    rw [State.writeBackLine_withThread]
    simp only [if_true]
    split <;> rfl
theorem State.meetError_withThread (line : Nat) : (s.withThread t).meetError line = (s.meetError line).withThread t := by
  unfold State.meetError
  change (if Store.get s.latent line = 0#1 then _ else _) = _
  split <;> rfl
theorem State.touchLine_withThread (line : Nat) : (s.withThread t).touchLine line = (s.touchLine line).withThread t := by
  unfold State.touchLine
  dsimp only
  rw [State.mayEvict_withThread, State.meetError_withThread]
  have hl : ((s.mayEvict line).withThread t).holdsLine line = (s.mayEvict line).holdsLine line := rfl
  rw [hl]
  cases (s.mayEvict line).holdsLine line <;> rfl
theorem State.mapPage_withThread (e : TEntry) : (s.withThread t).mapPage e = (s.mapPage e).withThread t := by
  unfold State.mapPage
  change (if s.mapped.contains (e.ctx, e.page, e.frame) then _ else _) = _
  dsimp only
  split <;> rfl
theorem State.cacheEntry_withThread (e : TEntry) : (s.withThread t).cacheEntry e = (s.cacheEntry e).withThread t := by
  unfold State.cacheEntry
  change (if s.tcache.any _ then _ else if (s.tcache.filter _).length < _ then _ else _) = _
  dsimp only
  split
  · rfl
  · split <;> rfl
theorem State.useEntry_withThread (e : TEntry) (write : Bool) : (s.withThread t).useEntry e write = (s.useEntry e write).withThread t := by
  unfold State.useEntry
  rw [State.mapPage_withThread, State.cacheEntry_withThread]
  rfl

end beside

/-! ### Where the line and the page of a load stand -/

section reached
variable {s : State}

/-- The use of a translation leaves its records alone (R292, R315), and the full bits of a page that is mapped by it (R150). -/
theorem State.useEntry_eq (s : State) (e : TEntry) (write : Bool) : ∃ empty tcache used grants mapped free, s.useEntry e write =
    { s with empty := empty, tcache := tcache, used := used, grants := grants, mapped := mapped, free := free } := by
  have hmap : ∃ empty mapped, s.mapPage e = { s with empty := empty, mapped := mapped } := by
    unfold State.mapPage
    dsimp only
    split
    · exact ⟨s.empty, s.mapped, rfl⟩
    · exact ⟨_, _, rfl⟩
  have hcache : ∀ s : State, ∃ tcache free, s.cacheEntry e = { s with tcache := tcache, free := free } := by
    intro s
    unfold State.cacheEntry
    dsimp only
    split
    · exact ⟨s.tcache, s.free, rfl⟩
    · split
      · exact ⟨_, s.free, rfl⟩
      · exact ⟨_, _, rfl⟩
  obtain ⟨empty, mapped, hmap⟩ := hmap
  obtain ⟨tcache, free, hcache⟩ := hcache (s.mapPage e)
  unfold State.useEntry
  dsimp only
  rw [hcache, hmap]
  exact ⟨_, _, _, _, _, _, rfl⟩
theorem State.core_useEntry (s : State) (e : TEntry) (write : Bool) (c : Nat) : (s.useEntry e write).core c = s.core c := by
  obtain ⟨_, _, _, _, _, _, h⟩ := s.useEntry_eq e write
  rw [h]; rfl
theorem State.staleLine_useEntry (s : State) (e : TEntry) (write : Bool) (l : Nat) : (s.useEntry e write).staleLine l = s.staleLine l := by
  obtain ⟨_, _, _, _, _, _, h⟩ := s.useEntry_eq e write
  rw [h]; rfl
theorem State.openLine_useEntry (s : State) (e : TEntry) (write : Bool) (l : Nat) : (s.useEntry e write).openLine l = s.openLine l := by
  obtain ⟨_, _, _, _, _, _, h⟩ := s.useEntry_eq e write
  rw [h]; rfl
theorem State.cur_useEntry (s : State) (e : TEntry) (write : Bool) : (s.useEntry e write).cur = s.cur := by
  obtain ⟨_, _, _, _, _, _, h⟩ := s.useEntry_eq e write
  rw [h]
theorem State.cached_useEntry (s : State) (e : TEntry) (write : Bool) : (s.useEntry e write).cached = s.cached := by
  obtain ⟨_, _, _, _, _, _, h⟩ := s.useEntry_eq e write
  rw [h]

theorem isHbm_line (loc : Nat) : isHbm (64 * (loc / 64)) = isHbm loc := by
  unfold isHbm
  rw [decide_eq_decide]
  omega
/-- An ordinary access to one place touches the line that it lies in, if that is in HBM. -/
theorem State.touchPlaces_one (s : State) (loc : Nat) : s.touchPlaces [loc] = if isHbm loc then s.touchLine (loc / 64) else s := by
  show (if isHbm (64 * (loc / 64)) then s.touchLine (loc / 64) else s) = _
  rw [isHbm_line]
theorem State.core_touchPlaces (s : State) (locs : List Nat) (c : Nat) : (s.touchPlaces locs).core c = s.core c := by
  unfold State.core
  rw [State.cores_touchPlaces]
theorem State.touchPlaces_withThread (s : State) (t : Thread) (loc : Nat) :
    (s.withThread t).touchPlaces [loc] = (s.touchPlaces [loc]).withThread t := by
  rw [State.touchPlaces_one, State.touchPlaces_one, State.touchLine_withThread]
  split <;> rfl
/-- A read by a thread of a general core touches its line as any ordinary access does (R334). -/
theorem State.reachLine_core {t : Thread} (hs : t.settOn = none) (s : State) (loc : Nat) : s.reachLine t loc = s.touchPlaces [loc] := by
  rw [State.touchPlaces_one]
  simp only [State.reachLine, hs, Option.isSome_none, Bool.false_eq_true, if_false]

theorem State.spot_global {t : Thread} (hs : t.settOn = none) {va : Nat} {p : Perm} (mig : Bool) (hv : windowOf va < 14) :
    s.spot t va p mig = s.globalSpot t.attr.ctx va p := by
  simp only [State.spot, hs, State.coreSpot]
  rw [if_neg (by omega), if_neg (by omega)]
/-- A .mig access to a place that no other core owns stays where it is (R156). -/
theorem Act.maybeTravel_owner {t : Thread} (h : s.thread? s.cur = some t) (hs : t.settOn = none) {va : Nat} {x : Word} {a : BitVec 5}
    (ho : ∀ o, s.migOwner t.attr.ctx t.core va = some o → o = t.core) : Act.maybeTravel va x a s = .ok () s := by
  unfold Act.maybeTravel
  rw [Act.me_bind h, Act.get_bind, Thread.here_core hs]
  split
  · rfl
  · cases hm : s.migOwner t.attr.ctx t.core va with
    | none => rfl
    | some o => dsimp only; rw [if_pos (ho o hm)]; rfl
/-- A read of a line without poison touches it and goes on. -/
theorem Act.clean_touch {t : Thread} (h : s.thread? s.cur = some t) (hs : t.settOn = none) {va loc : Nat}
    (hp : (s.touchPlaces [loc]).poisoned loc = false) : Act.clean va loc s = .ok () (s.touchPlaces [loc]) := by
  unfold Act.clean
  rw [Act.me_bind h, Act.modify_bind, State.reachLine_core hs, Act.get_bind]
  simp [hp]

end reached

/-! ### The load -/

section load
variable {s : State} {t : Thread} {d a : BitVec 5} {i : BitVec 10} {g : BitVec 5}

theorem State.waits_withThread (s : State) (t t' : Thread) (w : Wait) : (s.withThread t).waits t' w = s.waits t' w := by
  unfold State.waits
  simp only [State.withThread_withThread]
/-- The thread awaits the reply of a load of its chunk. -/
theorem Act.awaitLoad_run (h : s.thread? s.cur = some t) (d : BitVec 5) (e : Event) :
    Act.awaitLoad false d e s = .error () ((s.push e).waits
      { t.awaits d with chunk := { (t.awaits d).chunk with count := (t.awaits d).chunk.count + 1 } } .reply) := by
  unfold Act.awaitLoad
  rw [Act.modify_bind, Act.modMe_bind (s := s.push e) h, Act.park_run (State.thread?_withThread _ _)]
  rw [State.waits_withThread]
  rfl

theorem Act.load_global {size va : Nat} {x : Word} {e : TEntry} {loc : Nat} (mig : Bool) (h : Inside s t [d, a] g) (hs : t.settOn = none)
    (hso : t.solo = false) (hf : t.Base mig a x) (hc : checkAddr x (i.toInt * size) size false = .ok va)
    (hfit : sizeFits (fmtOf x) size = true) (hv : windowOf va < 14) (hspot : s.globalSpot t.attr.ctx va .rd = .global e loc)
    (hdev : remoteDev loc = none) (hown : ∀ o, s.migOwner t.attr.ctx t.core va = some o → o = t.core)
    (hb : ∀ k q, elemTable (fmtOf x) = some (k, q) → (s.core t.core).eng.building.contains k = false)
    (ho : (s.useEntry e false).owned (loc / 64) = false) (hp : ((s.useEntry e false).touchPlaces [loc]).poisoned loc = false) :
    let q := (s.useEntry e false).touchPlaces [loc]
    let r := loadValue (s.tableOf t.core) (fmtOf x) t.fz (q.see t va loc size)
    let t' := ((((t.opened s.co 4).noteRead loc (some e.page)).flagged r.2).awaits d)
    Act.load size mig d a i g s = .error () ((q.push (.replyArrival s.cur d r.1)).waits
      { t' with chunk := { t'.chunk with count := t'.chunk.count + 1 } } .reply) := by
  intro q r t'
  have ha : isPort a = false := h.owns.port (by simp)
  have hn := Inside.now s t 4
  unfold Act.load
  refine Act.issue_inside_stops h true (.inl rfl) 4 ?_
  rw [Act.base_bind hn (Thread.base_opened hf _ _) ha (by intro r hr; cases hr) (by simp), if_neg (by simp [checkAddr_ref hc])]
  refine (Act.address_bind hc (by simpa using hfit) _ _).trans ?_
  refine (Act.optional (fun _ => Act.maybeTravel_owner hn hs hown)).trans ?_
  refine (Act.bind_ok (Act.needTable_core hn hs _ hb)).trans ?_
  refine (Act.me_bind hn _).trans ?_
  rw [Act.get_bind]
  have hspot' : (s.withThread (t.opened s.co 4)).spot (t.opened s.co 4) va .rd mig = .global e loc :=
    (State.spot_global hs mig hv).trans hspot
  rw [hspot']
  refine (Act.modify_bind _ _ _).trans ?_
  rw [State.useEntry_withThread, if_neg (by simp [hdev])]
  have hn₁ : ((s.useEntry e false).withThread (t.opened s.co 4)).thread? ((s.useEntry e false).withThread (t.opened s.co 4)).cur =
    some (t.opened s.co 4) := State.thread?_withThread _ _
  refine (Act.claim_bind hn₁ (by simpa using hso) ho _ _).trans ?_
  have hclean : Act.clean va loc ((s.useEntry e false).withThread (t.opened s.co 4)) = .ok () (q.withThread (t.opened s.co 4)) := by
    rw [← State.touchPlaces_withThread]
    exact Act.clean_touch hn₁ hs (by rw [State.touchPlaces_withThread]; exact hp)
  refine (Act.bind_ok hclean).trans ?_
  have hn₂ : (q.withThread (t.opened s.co 4)).thread? (q.withThread (t.opened s.co 4)).cur = some (t.opened s.co 4) :=
    State.thread?_withThread _ _
  have hr : loadValue ((q.withThread (t.opened s.co 4)).tableOf (t.opened s.co 4).core) (fmtOf x) (t.opened s.co 4).fz
      ((q.withThread (t.opened s.co 4)).see (t.opened s.co 4) va loc size) = r := by
    have hcore : (q.withThread (t.opened s.co 4)).tableOf (t.opened s.co 4).core = s.tableOf t.core := by
      funext k
      show Tab.get DTable.reset (q.core t.core).eng.tables k = _
      rw [State.core_touchPlaces, State.core_useEntry]
      rfl
    rw [State.see_withThread, State.see_opened, hcore]
    rfl
  rw [Act.get_bind, if_neg (by simp [ha])]
  dsimp only
  rw [hr, ha]
  refine (Act.modMe_bind hn₂ _ _).trans ?_
  refine (Act.pop_bind _ (Thread.baseFields_regs mig ha) _).trans ?_
  refine (Act.raise_bind (State.thread?_withThread _ _) _ _).trans ?_
  refine (Act.awaitLoad_run (State.thread?_withThread _ _) _ _).trans ?_
  have hcur : (q.withThread (t.opened s.co 4)).cur = s.cur := by
    rw [State.cur_withThread, State.cur_touchPlaces, State.cur_useEntry]
  rw [hcur]
  simp only [State.withThread_withThread, State.withThread_push, State.waits_withThread]
  rfl

end load

/-- The instructions that load, with the size of what they load and whether they may travel (R153, R156). -/
def loadForms (d a : BitVec 5) (i : BitVec 10) (g : BitVec 5) : List (Instr × Nat × Bool) :=
  [(.ldB d a i g, 1, false), (.ldH d a i g, 2, false), (.ldW d a i g, 4, false), (.ldD d a i g, 8, false), (.ldBMig d a i g, 1, true),
    (.ldHMig d a i g, 2, true), (.ldWMig d a i g, 4, true), (.ldDMig d a i g, 8, true)]
theorem exec_loadForms {d a : BitVec 5} {i : BitVec 10} {g : BitVec 5} :
    ∀ p ∈ loadForms d a i g, exec p.1 = Act.go (Act.load p.2.1 p.2.2 d a i g) := by
  simp only [loadForms, List.forall_mem_cons]
  exact ⟨rfl, rfl, rfl, rfl, rfl, rfl, rfl, rfl, fun _ h => nomatch h⟩

/-- Settles O10: a load of any size takes the one path of `Act.load`, and the touch of a line that shows all it holds only marks it held. -/
theorem globalLoads : Obligations.GlobalLoads := by
  intro s t d a i g va x e loc h hs hso p hp hbase hc hfit hv hspot hdev hown hb ho q hpoison r t'
  refine ⟨?_, fun hstale => ?_, fun hopen => ?_⟩
  · rw [exec_loadForms p hp]
    exact Act.go_error (Act.load_global p.2.2 h hs hso hbase hc hfit hv hspot hdev hown hb ho hpoison)
  · show ((s.useEntry e false).touchPlaces [loc]).mem = s.mem
    rw [State.touchPlaces_one]
    split
    · rw [State.mem_touchLine ((s.staleLine_useEntry e false _).trans hstale), State.mem_useEntry]
    · exact State.mem_useEntry ..
  · show (s.useEntry e false).touchPlaces [loc] = _
    rw [State.touchPlaces_one]
    split
    · rw [State.touchLine_closed ((s.openLine_useEntry e false _).trans hopen), State.cached_useEntry]
    · rw [← s.cached_useEntry e false]
end Sys2Proof.Machine

/-! ## Chunks at the arbiters (O29) -/

namespace Sys2Proof.Machine

/-! ### What giving up reserved lines leaves alone (R328) -/

section unreserved
variable (s : State) (u : Nat)

@[simp] theorem State.mem_unreserve : (s.unreserve u).mem = s.mem := by unfold State.unreserve; split <;> rfl
@[simp] theorem State.empty_unreserve : (s.unreserve u).empty = s.empty := by unfold State.unreserve; split <;> rfl
theorem State.thread?_unreserve {s : State} {u w : Nat} {t : Thread} (h : s.thread? w = some t) (hw : t.wait ≠ .owned) :
    (s.unreserve u).thread? w = some t := by
  unfold State.unreserve
  split
  · exact State.thread?_wakeAll_of (s := { s with reserved := _ }) h (decide_eq_false hw)
  · exact h
/-- Afterwards the thread holds no line. -/
theorem State.reserved_unreserve : ∀ r ∈ (s.unreserve u).reserved, r.2 ≠ u := by
  intro r hr
  unfold State.unreserve at hr
  split at hr
  · exact of_decide_eq_true (List.mem_filter.1 hr).2
  · rename_i hn
    intro he
    exact hn (List.any_eq_true.2 ⟨r, hr, decide_eq_true he⟩)

end unreserved

/-! ### A chunk that commits (R325, R336) -/

/-- A chunk of an unsealed thread has taken effect: its bytes stand in memory, and the thread is rid of the packet that brought it here. -/
def State.Applied (s s' : State) (u : Nat) (t : Thread) (c : Chunk) : Prop :=
  s'.mem = c.writes.foldr (fun w m => Store.put m w.loc w.val) s.mem ∧ s'.empty = s.empty ∧
  s'.thread? u = some { t with packet := none }

/-- The bytes of a chunk, oldest first, written one after another. -/
theorem putFold_writes (ws : List WEntry) (m : Store 8) :
    (ws.reverse.map (fun w => (w.loc, w.val))).foldl (fun m w => Store.put m w.1 w.2) m = ws.foldr (fun w m => Store.put m w.loc w.val) m := by
  rw [List.foldl_map, List.foldl_reverse]

section applied
variable {s : State} {u : Nat} {t : Thread} {c : Chunk}

theorem State.applied_applyChunk (h : s.thread? u = some t) (hs : t.attr.isSealed = false)
    (hl : ∀ w ∈ c.writes, s.staleLine (w.loc / 64) = false) (ha : ∀ l v k x r, t.wait ≠ .addr l v k x r) (hn : ∀ l, t.wait ≠ .nmstat l)
    (ho : t.wait ≠ .owned) : s.Applied (s.applyChunk u t c) u t c := by
  have hthread := State.thread?_commitBytes h ha hn (c.writes.reverse.map fun w => (w.loc, w.val))
  have hmem : (s.commitBytes (c.writes.reverse.map fun w => (w.loc, w.val))).mem = _ := s.mem_commitBytes _ fun w hw _ => by
    obtain ⟨e, he, rfl⟩ := List.mem_map.1 hw
    exact hl e (List.mem_reverse.1 he)
  have hempty := s.empty_commitBytes (c.writes.reverse.map fun w => (w.loc, w.val))
  unfold State.applyChunk
  simp only [hs, Bool.false_eq_true, if_false]
  generalize s.commitBytes _ = s₁ at hthread hmem hempty ⊢
  have hpacket := State.thread?_modThread hthread (fun t => { t with packet := none })
  refine ⟨?_, ?_, ?_⟩
  · simpa only [State.mem_progress, State.mem_count, State.mem_unreserve, State.mem_modThread, putFold_writes] using hmem
  · simp [hempty]
  · show ((((s₁.modThread u _).unreserve u).count t.core 4 1).progress t.attr.ctx).thread? u = _
    unfold State.thread?
    rw [State.threads_progress, State.threads_count]
    exact State.thread?_unreserve hpacket ho

end applied

/-! ### A chunk that starts again (R51, R328) -/

/-- A thread stands at the start of a chunk again, with what its slot shadow held, and nothing committed. -/
def State.Restarted (s s' : State) (u : Nat) (c : Chunk) (n : Nat) (b : Bool) : Prop :=
  s'.mem = s.mem ∧ s'.empty = s.empty ∧ ∃ t', s'.thread? u = some t' ∧
    t'.pc = c.startPc ∧ t'.regs = c.shadow.regs ∧ t'.preds = c.shadow.preds ∧ t'.fflags = c.shadow.fflags ∧ t'.tvec = c.shadow.tvec ∧
    t'.sq = n ∧ t'.solo = b ∧ t'.prev = none ∧ t'.chunk.writes = [] ∧ t'.chunk.reads = [] ∧ t'.chunk.count = 0

section restarted
variable {s : State} {u : Nat} {t : Thread} {c : Chunk}

@[simp] theorem State.mem_squash : (s.squash u t c).mem = s.mem := by
  unfold State.squash
  split
  · simp
  · dsimp only
    split <;> split <;> simp
@[simp] theorem State.empty_squash : (s.squash u t c).empty = s.empty := by
  unfold State.squash
  split
  · simp
  · dsimp only
    split <;> split <;> simp
theorem State.thread?_squash (h : s.thread? u = some t) (hp : t.prev = some c) : ∃ n, (s.squash u t c).thread? u =
    some { t.restore c s.co with chunk := { (t.restore c s.co).chunk with
      sq := if c.solo then c.sq else c.sq + 1, solo := c.solo || decide (4 ≤ c.sq + 1), soloAt := n } } := by
  have h₁ : ({ s with pending := s.pending.filter (fun e => !isReplyTo u e) } : State).thread? u = some t := h
  have hlast : (t.prev.isNone || decide (t.prev = some c)) = true := by simp [hp]
  unfold State.squash
  simp only [hlast, if_true]
  cases hsolo : c.solo with
  | true =>
    refine ⟨c.soloAt, (State.thread?_unreserve (State.thread?_modThread h₁ _) (by simp [Thread.restore])).trans ?_⟩
    simp only [Thread.restore, hsolo, Bool.true_or, if_true]
  | false =>
    refine ⟨if decide (4 ≤ c.sq + 1) then s.nextUid else c.soloAt, Eq.trans ?_ (State.thread?_modThread h₁ fun _ => _)⟩
    unfold State.thread?
    cases decide (4 ≤ c.sq + 1) <;> simp only [Bool.false_or, Bool.false_eq_true, if_false, if_true, State.threads_count] <;> rfl
theorem State.restarted_squash (h : s.thread? u = some t) (hp : t.prev = some c) :
    s.Restarted (s.squash u t c) u c (if c.solo then c.sq else c.sq + 1) (c.solo || decide (4 ≤ c.sq + 1)) := by
  obtain ⟨n, ht⟩ := State.thread?_squash h hp
  exact ⟨s.mem_squash, s.empty_squash, _, ht, rfl, rfl, rfl, rfl, rfl, rfl, rfl, rfl, rfl, rfl, rfl⟩
theorem State.restarted_restartSolo (h : s.thread? u = some t) (hp : t.prev = some c) (hsolo : c.solo = true) :
    s.Restarted (s.restartSolo u) u c c.sq true := by
  have hc : t.soloChunk = c := by unfold Thread.soloChunk; rw [hp]; exact if_pos hsolo
  unfold State.restartSolo
  refine ⟨by simp, by simp, _, State.thread?_unreserve (State.thread?_modThread h _) (by simp [Thread.restart, Thread.restore]), ?_⟩
  unfold Thread.restart
  rw [hc, hp]
  exact ⟨rfl, rfl, rfl, rfl, rfl, rfl, hsolo, if_pos hsolo, rfl, rfl, rfl⟩

end restarted

/-! ### The arbiters' decision (R327, R328, R332) -/

section decided
variable {s : State} {u : Nat} {t : Thread} {c : Chunk}

/-- A chunk of an unsealed thread has committed, and the thread goes on with the next, which may have waited for this one. -/
def State.Committed (s s' : State) (u : Nat) (t : Thread) (c : Chunk) : Prop :=
  s'.mem = c.writes.foldr (fun w m => Store.put m w.loc w.val) s.mem ∧ s'.empty = s.empty ∧
  let t' : Thread := { t with prev := none, packet := none }
  s'.thread? u = some (if t.wait = .commit then t'.wake else t')

/-- The thread whose chunk was at the arbiters, once they have decided. -/
def afterDecision (u : Nat) : Commit × State → State
  | (.done, s) => s.modThread u (fun t =>
      let t := { t with prev := none }
      if t.wait = .commit then t.wake else t)
  | (.squashed, s) => s
  | (.blocked, s) => s.push (.chunkCommit u)
theorem execChunkCommit_of (h : s.thread? u = some t) (hp : t.prev = some c) :
    exec (.chunkCommit u) s = .next (afterDecision u (s.tryCommit u t c)) := by
  show execChunkCommit u s = _
  simp only [execChunkCommit, h, hp]
  rfl
theorem State.committed_of_applied {s₁ : State} (h : s.Applied s₁ u t c) : s.Committed (afterDecision u (.done, s₁)) u t c := by
  obtain ⟨hmem, hempty, ht⟩ := h
  exact ⟨(State.mem_modThread ..).trans hmem, (State.empty_modThread ..).trans hempty, State.thread?_modThread ht _⟩

/-- No committed write has met the chunk's reads, nor has a translation that it used been removed, or only the latter counts for it. -/
def State.Sound (s : State) (c : Chunk) : Prop := c.lost = false ∧ (c.solo = true ∨ s.conflict c = false)

theorem State.tryCommit_unsound (h : c.lost = true ∨ (c.solo = false ∧ s.conflict c = true)) :
    s.tryCommit u t c = (.squashed, s.squash u t c) := by
  unfold State.tryCommit
  rw [if_pos]
  rcases h with h | ⟨h, hc⟩ <;> simp [*]
theorem State.tryCommit_held (h : s.Sound c) (hb : s.holdsBack u t.attr.isSealed (linesOf (c.writes.map (·.loc))) = true) :
    s.tryCommit u t c = if c.solo then (.squashed, s.restartSolo u) else (.blocked, s) := by
  unfold State.tryCommit
  rw [if_neg, if_pos hb]
  obtain ⟨hl, hs | hc⟩ := h <;> simp [*]
/-- Where nothing holds its lines a sound chunk is applied, or squashed where its signatures could overlap (R50). -/
theorem State.tryCommit_free (h : s.Sound c) (hb : s.holdsBack u t.attr.isSealed (linesOf (c.writes.map (·.loc))) = false) :
    (s.tryCommit u t c = (.done, s.applyChunk u t c)) ∨ (c.solo = false ∧ s.mayOverlap c = true ∧
      (s.tryCommit u t c = (.done, (s.choose 1024).2.applyChunk u t c) ∨ s.tryCommit u t c = (.squashed, (s.choose 1024).2.squash u t c))) := by
  have hsound : ¬ (c.lost || (!c.solo && s.conflict c)) = true := by
    obtain ⟨hl, hs | hc⟩ := h <;> simp [*]
  unfold State.tryCommit
  rw [if_neg hsound, if_neg (by simp [hb])]
  split
  · rename_i hover
    obtain ⟨hsolo, hmay⟩ : c.solo = false ∧ s.mayOverlap c = true := by simpa using hover
    dsimp only
    split
    · exact .inr ⟨hsolo, hmay, .inr rfl⟩
    · exact .inr ⟨hsolo, hmay, .inl rfl⟩
  · exact .inl rfl

end decided

/-- Settles O29: the arbiters' decision has three outcomes, and each of them was followed through above. -/
theorem chunkCommits : Obligations.ChunkCommits := by
  intro s u t c h hp hseal _ lines commits restarts
  have hback : s.holdsBack u t.attr.isSealed lines = s.heldBack u lines := by simp only [State.holdsBack, hseal, Bool.false_eq_true, if_false]
  simp only [execChunkCommit_of h hp]
  refine ⟨fun hlost hmet => ⟨fun hfree hstale ha hn ho => ⟨_, rfl, ?_⟩, fun hheld => ?_⟩, fun hmet => ⟨_, rfl, ?_⟩⟩
  · have hcommits : commits (afterDecision u (.done, s.applyChunk u t c)) :=
      State.committed_of_applied (State.applied_applyChunk h hseal hstale ha hn ho)
    rcases State.tryCommit_free (t := t) ⟨hlost, hmet⟩ (hback.trans hfree) with he | ⟨hsolo, hmay, he | he⟩ <;> rw [he]
    · exact ⟨.inl hcommits, fun _ => hcommits⟩
    · have hcommits' : commits (afterDecision u (.done, (s.choose 1024).2.applyChunk u t c)) :=
        State.committed_of_applied (s := s) (State.applied_applyChunk (s := (s.choose 1024).2) h hseal hstale ha hn ho)
      exact ⟨.inl hcommits', fun _ => hcommits'⟩
    · have hrestarts := State.restarted_squash (s := (s.choose 1024).2) h hp
      simp only [hsolo] at hrestarts
      refine ⟨.inr ⟨hsolo, hmay, hrestarts⟩, fun hno => ?_⟩
      rw [hsolo, hmay] at hno
      simp at hno
  · rw [State.tryCommit_held ⟨hlost, hmet⟩ (hback.trans hheld)]
    refine ⟨fun hsolo => ?_, fun hsolo => ⟨_, rfl, ?_⟩⟩
    · simp only [hsolo]
      rfl
    · rw [hsolo]
      exact ⟨State.restarted_restartSolo h hp hsolo, State.reserved_unreserve (s.modThread u _) u⟩
  · rw [State.tryCommit_unsound hmet]
    exact State.restarted_squash h hp

end Sys2Proof.Machine

/-! ## What the end of a thread leaves alone -/

namespace Sys2Proof.Machine

/-- Committed memory, the full/empty bits and the publications under way are as they were in an earlier state. -/
def State.SameStore (s₀ s : State) : Prop := s.mem = s₀.mem ∧ s.empty = s₀.empty ∧ s.outbox = s₀.outbox

section sameStore
variable {s₀ s : State}

theorem State.SameStore.refl (s : State) : s.SameStore s := ⟨rfl, rfl, rfl⟩
theorem State.SameStore.mem_eq (h : s₀.SameStore s) : s.mem = s₀.mem := h.1
theorem State.SameStore.outbox_eq (h : s₀.SameStore s) : s.outbox = s₀.outbox := h.2.2
theorem State.SameStore.ite {c : Prop} [Decidable c] {t : State} (hs : s₀.SameStore s) (ht : s₀.SameStore t) :
    s₀.SameStore (if c then s else t) := by
  split
  · exact hs
  · exact ht
theorem State.SameStore.foldl {α : Type} {f : State → α → State} (hf : ∀ s a, s₀.SameStore s → s₀.SameStore (f s a)) (l : List α)
    (h : s₀.SameStore s) : s₀.SameStore (l.foldl f s) := foldl_inv hf l s h
theorem State.SameStore.modThread (h : s₀.SameStore s) (u f) : s₀.SameStore (s.modThread u f) := by
  unfold State.modThread
  split
  · exact h
  · exact h
theorem State.SameStore.modCtx (h : s₀.SameStore s) (ctx f) : s₀.SameStore (s.modCtx ctx f) := by
  unfold State.modCtx
  split
  · exact h
  · exact h
theorem State.SameStore.progress (h : s₀.SameStore s) (ctx) : s₀.SameStore (s.progress ctx) := .ite h (h.modCtx ..)
theorem State.SameStore.unreserve (h : s₀.SameStore s) (u) : s₀.SameStore (s.unreserve u) := .ite h h
theorem State.SameStore.release (h : s₀.SameStore s) (num step u) : s₀.SameStore (s.release num step u) := by
  obtain hr | ⟨n, e, hr⟩ | ⟨f, hr⟩ := s.release_cases num step u <;> rw [hr]
  · exact h
  · exact h
  · exact h.modThread ..
theorem State.SameStore.checkRound (h : s₀.SameStore s) (g) : s₀.SameStore (s.checkRound g) :=
  have hput : ∀ g, s₀.SameStore (s.putGroup g) := fun _ => h
  .ite (.ite (.foldl (fun _ _ h => h.release ..) _ (hput _)) (.foldl (fun _ _ h => h.release ..) _ (hput _))) (hput _)
theorem State.SameStore.leaveGroups (h : s₀.SameStore s) (u) : s₀.SameStore (s.leaveGroups u) := .foldl (fun _ _ h => h.checkRound _) _ h
theorem State.SameStore.wakeQueue (h : s₀.SameStore s) (c e) : s₀.SameStore (s.wakeQueue c e) := by
  unfold State.wakeQueue
  split
  · exact h
  · exact h.modThread ..
theorem State.SameStore.leaveQueue (h : s₀.SameStore s) (c u e) : s₀.SameStore (s.leaveQueue c u e) :=
  have hcore : s₀.SameStore (s.modCore c fun q => q.setWait e (setDel ((s.core c).qwait e) u)) := h
  .ite (.ite (hcore.wakeQueue ..) hcore) h
theorem State.SameStore.leaveQueues (h : s₀.SameStore s) (u) : s₀.SameStore (s.leaveQueues u) := by
  unfold State.leaveQueues
  split
  · exact h
  · exact .foldl (fun _ _ h => h.leaveQueue ..) _ h
theorem State.SameStore.pokeHandler (h : s₀.SameStore s) (c) : s₀.SameStore (s.pokeHandler c) := .ite h (.ite h (.ite h h))
theorem State.SameStore.dropLaunch (h : s₀.SameStore s) (a) : s₀.SameStore (s.dropLaunch a) := by
  unfold State.dropLaunch
  split
  · exact h
  · exact .ite h h
theorem State.SameStore.checkClaim (h : s₀.SameStore s) (c) : s₀.SameStore (s.checkClaim c) := by
  refine .ite h ?_
  split
  · exact h
  · exact .ite h h
theorem State.SameStore.reindex (h : s₀.SameStore s) (c) : s₀.SameStore (s.reindex c) := by
  unfold State.reindex
  dsimp only
  split
  · exact h
  · split
    · exact h
    · exact h.modThread ..
theorem State.SameStore.forget (h : s₀.SameStore s) (u) : s₀.SameStore (s.forget u) := by
  have herased : s₀.SameStore ((s.erased u).unreserve u) := (show s₀.SameStore (s.erased u) from h.leaveQueues u).unreserve u
  unfold State.forget
  dsimp only
  split
  · exact herased
  · exact herased
theorem State.SameStore.vacate (h : s₀.SameStore s) (u t) : s₀.SameStore (s.vacate u t) := by
  unfold State.vacate
  extract_lets a b
  have ha : s₀.SameStore a := by
    unfold a
    split
    · exact h
    · exact h
  have hb : s₀.SameStore b := .ite ha (ha.dropLaunch _)
  clear_value b
  split
  · exact .ite (hb.pokeHandler _) (hb.checkClaim _)
  · exact (hb.checkClaim _).reindex _
  · exact hb
theorem State.SameStore.endThread (h : s₀.SameStore s) (u) : s₀.SameStore (s.endThread u) := by
  cases ht : s.thread? u with
  | none => rw [State.endThread_none ht]; exact h
  | some t =>
    rw [State.endThread_some ht]
    exact ((h.leaveGroups u).forget u).vacate u t

end sameStore

end Sys2Proof.Machine

/-! ## Publications (O21) -/

namespace Sys2Proof.Machine

/-! ### The footprint as one event (R52, R336) -/

/-- Without a watch a commit sends no message (R177). -/
theorem State.pending_commitBytes (s : State) (h : s.watches = []) (ws : List (Nat × Byte)) : (s.commitBytes ws).pending = s.pending := by
  unfold State.commitBytes State.afterCommit State.watchHits
  dsimp only
  rw [foldl_keeps (p := fun s : State => s.pending) (fun s a => State.pending_progress ..)]
  dsimp only
  rw [foldl_keeps (p := fun s : State => s.watches) (by intro s a; split <;> rfl),
    foldl_keeps (p := fun s : State => s.watches) (by intro s a; rfl), State.watches_touchPlaces,
    foldl_keeps (p := fun s : State => s.pending) (by intro s a; split <;> rfl),
    foldl_keeps (p := fun s : State => s.pending) (by intro s a; rfl), State.pending_touchPlaces]
  simp [h]

/-- A sealed thread has published: its footprint is committed, its held commands wait for their turn, and it is unsealed. -/
structure State.Published (s s' : State) (u : Nat) (t : Thread) : Prop where
  here    : s'.thread? u = some t.published
  mem     : s'.mem = t.foot.foldr (fun w m => Store.put m w.loc w.val) s.mem
  pending : s'.pending = s.pending
  outbox  : s'.outbox = s.outbox ++ (if t.held = [] then [] else [⟨u, t.attr, t.core, t.slot, none, t.held⟩])
  cur     : s'.cur = s.cur

section published

/-- Full bits change nothing else. -/
theorem State.setFulls_eq (l : List (Nat × Bool)) (s : State) : ∃ empty, l.foldl (fun s e => s.setFull e.1 e.2) s = { s with empty := empty } := by
  induction l generalizing s with
  | nil => exact ⟨s.empty, rfl⟩
  | cons e l ih =>
    obtain ⟨empty, h⟩ := ih (s.setFull e.1 e.2)
    exact ⟨empty, h⟩
theorem State.wordsChanged_none {s : State} (h : s.waiters = []) (l : List (Nat × Bool)) :
    l.foldl (fun s e => s.wordChanged (8 * e.1)) s = s :=
  foldl_inv (P := fun x => x = s) (fun x e hx => by rw [hx]; exact State.wordChanged_none h _) l s rfl

variable {s : State} {u : Nat} {t : Thread}

theorem State.published_publish (h : s.thread? u = some t) (hseal : t.attr.isSealed = true) (hrun : t.wait = .running)
    (hwait : s.waiters = []) (hwatch : s.watches = []) (hstale : ∀ w ∈ t.foot, s.staleLine (w.loc / 64) = false) :
    s.Published (s.publish u) u t := by
  have hthread := State.thread?_commitBytes h (by simp [hrun]) (by simp [hrun]) (t.foot.reverse.map fun w => (w.loc, w.val))
  have hmem : (s.commitBytes (t.foot.reverse.map fun w => (w.loc, w.val))).mem = _ := s.mem_commitBytes _ fun w hw _ => by
    obtain ⟨e, he, rfl⟩ := List.mem_map.1 hw
    exact hstale e (List.mem_reverse.1 he)
  rw [putFold_writes] at hmem
  have hpend := s.pending_commitBytes hwatch (t.foot.reverse.map fun w => (w.loc, w.val))
  have hout := s.outbox_commitBytes (t.foot.reverse.map fun w => (w.loc, w.val))
  have hcur := s.cur_commitBytes (t.foot.reverse.map fun w => (w.loc, w.val))
  have hquiet := (s.waiters_commitBytes (t.foot.reverse.map fun w => (w.loc, w.val))).trans hwait
  unfold State.publish
  simp only [h, hseal, if_true]
  generalize s.commitBytes _ = s₁ at hthread hmem hpend hout hcur hquiet ⊢
  obtain ⟨empty, hbits⟩ := s₁.setFulls_eq t.footFull
  have hcopied : (({ s₁ with empty := empty } : State).countCopied t.core t.copied).thread? u = some t := hthread
  rw [hbits, State.wordsChanged_none (s := { s₁ with empty := empty }) hquiet, State.modThread_of _ _ _ hcopied]
  cases hheld : t.held.isEmpty
  case false =>
    have hne : ¬ t.held = [] := by simpa using hheld
    exact ⟨(congrArg (Tab.find? · u) (State.threads_progress ..)).trans (Tab.find?_insert_same ..), (State.mem_progress ..).trans hmem,
      (State.pending_progress ..).trans hpend, (State.outbox_progress ..).trans (by rw [if_neg hne, ← hout]; rfl),
      (State.cur_progress ..).trans hcur⟩
  case true =>
    have hnil : t.held = [] := by simpa using hheld
    exact ⟨(congrArg (Tab.find? · u) (State.threads_progress ..)).trans (Tab.find?_insert_same ..), (State.mem_progress ..).trans hmem,
      (State.pending_progress ..).trans hpend, (State.outbox_progress ..).trans (by rw [if_pos hnil, List.append_nil, ← hout]; rfl),
      (State.cur_progress ..).trans hcur⟩

/-- A publication whose footprint leads where it led, at lines that nothing holds, takes effect. -/
theorem Act.publish_run (h : s.thread? s.cur = some t) (hseal : t.attr.isSealed = true)
    (hfoot : ∀ w ∈ t.foot, s.relocate t.attr.ctx w = some w) (hfree : s.heldBack s.cur (linesOf (t.foot.map (·.loc))) = false) :
    Act.publish s = .ok () ((s.withThread t).publish s.cur) := by
  have hfind : t.foot.find? (fun w => (s.relocate t.attr.ctx w).isNone) = none := by
    rw [List.find?_eq_none]
    intro w hw
    simp [hfoot w hw]
  have hmap : t.foot.map (fun w => (s.relocate t.attr.ctx w).getD w) = t.foot := by
    refine (List.map_congr_left fun w hw => ?_).trans (List.map_id _)
    rw [hfoot w hw]; rfl
  unfold Act.publish
  rw [Act.me_bind h, if_pos hseal]
  rw [Act.get_bind, hfind]
  refine (Act.modMe_bind h _ _).trans ?_
  rw [hmap]
  refine (Act.me_bind (State.thread?_withThread _ _) _).trans ?_
  rw [Act.get_bind]
  have hheld : (s.withThread t).heldBack (s.withThread t).cur (linesOf (t.foot.map (·.loc))) = false := hfree
  rw [if_neg]
  · rfl
  · simp only [hheld, Bool.and_false, Bool.false_eq_true, not_false_eq_true]

end published

/-! ### The thread past its instruction, or waiting -/

section past
variable (s : State) (t : Thread)

theorem State.Inv.withThread {s : State} (h : s.Inv) (t : Thread) : (s.withThread t).Inv :=
  ⟨⟨h.mem, h.empty, Tab.rising_insert h.threads _ _, h.cores⟩, h.frozen⟩
theorem State.thread?_pastEnd (len : Nat) : (s.pastEnd t len).thread? s.cur = some (t.done len) :=
  (congrArg (Tab.find? · s.cur) (State.threads_progress ..)).trans (State.thread?_withThread ..)
theorem State.pending_pastEnd (len : Nat) : (s.pastEnd t len).pending = s.pending := State.pending_progress ..
theorem State.thread?_waits (w : Wait) : (s.waits t w).thread? s.cur = some (t.parked w) := by
  unfold State.waits
  split <;> exact State.thread?_withThread s (t.parked w)
theorem State.pending_waits (w : Wait) : (s.waits t w).pending = s.pending := by
  unfold State.waits
  split <;> rfl
theorem State.sameStore_waits (w : Wait) : s.SameStore (s.waits t w) := by
  unfold State.waits
  split <;> exact .refl s

end past

/-! ### PUBL and QUIT (R54, R171) -/

section forms
variable {s s₁ : State} {t : Thread} {g : BitVec 5}

theorem execPubl_published {s₂ : State} (h : Ends s s₁ t [] [] 4 g) (hh : t.handler = false) (hp : Act.publish s₁ = .ok () s₂)
    (hpub : s₁.Published s₂ s₁.cur t) (hout : ∀ o ∈ s₁.outbox, o.uid ≠ s₁.cur) :
    exec (.publ g) s = .next (if t.held = [] then s₂.pastEnd t.published 4 else s₂.waits t.published .xfence) := by
  have hany : s₂.outbox.any (fun o => decide (o.uid = s₂.cur)) = decide (t.held ≠ []) := by
    have hold : s₁.outbox.any (fun o => decide (o.uid = s₁.cur)) = false := by simpa using hout
    rw [hpub.outbox, hpub.cur, List.any_append, hold]
    split <;> simp [*]
  have hhere : s₂.thread? s₂.cur = some t.published := hpub.cur ▸ hpub.here
  split
  · rename_i hheld
    refine Act.go_ok (Act.issue_closed h.toClosed .ending rfl ?_ hhere)
    refine (Act.me_bind h.here _).trans ?_
    rw [if_neg (by simp [hh])]
    refine (Act.bind_ok hp).trans ?_
    rw [Act.get_bind, hany, if_neg (by simp [hheld])]
    rfl
  · rename_i hheld
    refine Act.go_error (Act.issue_stops h.toClosed .ending rfl ?_)
    refine (Act.me_bind h.here _).trans ?_
    rw [if_neg (by simp [hh])]
    refine (Act.bind_ok hp).trans ?_
    rw [Act.get_bind, hany, if_pos (by simp [hheld])]
    exact Act.park_run hhere _
theorem execQuit_published {s₂ : State} (h : Ends s s₁ t [] [] 4 g) (hs : t.settOn = none) (hh : t.handler = false)
    (hp : Act.publish s₁ = .ok () s₂) : exec (.quit g) s = .next ((s₂.progress t.attr.ctx).endThread s₂.cur) := by
  refine Act.go_error (Act.issue_stops h.toClosed ⟨true, true⟩ rfl ?_)
  refine (Act.me_bind h.here _).trans ?_
  rw [if_neg (by simp [hh]), hs]
  refine (Act.bind_ok hp).trans ?_
  rfl

end forms

/-! ### The held commands (R52, R336) -/

section pump
variable {s : State} {o : Outbox}

theorem State.pumpBox_underway (h : o.now.any s.underway = true) : s.pumpBox o = (some o, s) := by
  unfold State.pumpBox
  rw [if_pos h]
theorem State.pumpBox_launch {r : LaunchReq} {pc : Nat} {x : Word} {hs : List Held} (h : o.now.any s.underway = false)
    (hr : o.rest = ⟨.step (.launchAdmission r), pc, x⟩ :: hs) :
    s.pumpBox o = (some { o with now := some (.launchAdmission r), rest := hs }, s.push (.launchAdmission r)) := by
  unfold State.pumpBox
  rw [if_neg (by simp [h]), hr]
  rfl
theorem State.pumpBox_done {t : Thread} (h : o.now.any s.underway = false) (hr : o.rest = []) (ht : s.thread? o.uid = some t)
    (hw : t.wait = .xfence) : s.pumpBox o = (none, { s with threads := Tab.insert s.threads o.uid t.finish }) := by
  unfold State.pumpBox
  rw [if_neg (by simp [h]), hr]
  simp only [State.modThread_of s _ _ ht, hw, if_true]

end pump

/-- Settles O21: the publication takes effect in `Published`, after which PUBL passes or waits and QUIT ends the thread. -/
theorem publication : Obligations.Publication := by
  refine ⟨fun s s₁ t g h hs hh hseal hrun hinv hwait hwatch hfoot hfree hout => ?_,
    fun s o => ⟨State.pumpBox_underway, fun hnow => ⟨fun r pc x hs hr => State.pumpBox_launch hnow hr,
      fun t hr ht hw => State.pumpBox_done hnow hr ht hw⟩⟩⟩
  have hp := Act.publish_run h.here hseal (fun w hw => (hfoot w hw).1) hfree
  have hpub : s₁.Published ((s₁.withThread t).publish s₁.cur) s₁.cur t := by
    obtain ⟨hhere, hmem, hpend, hbox, hcur⟩ := State.published_publish (s := s₁.withThread t) (State.thread?_withThread ..) hseal hrun
      hwait hwatch fun w hw => (hfoot w hw).2
    exact ⟨hhere, hmem, hpend, hbox, hcur⟩
  have hinv' : ((s₁.withThread t).publish s₁.cur).Inv := (hinv.withThread t).publish _
  generalize (s₁.withThread t).publish s₁.cur = s₂ at hp hpub hinv'
  have hquit : ∀ s' : State, s₂.SameStore s' →
      ∃ s'', exec (.quit g) s = .next s'' ∧ s''.thread? s₁.cur = none ∧ s''.mem = s'.mem ∧ s''.outbox = s'.outbox := by
    intro s' hsame
    have hended : s₂.SameStore ((s₂.progress t.attr.ctx).endThread s₂.cur) := ((State.SameStore.refl s₂).progress _).endThread _
    refine ⟨_, execQuit_published h hs hh hp, ?_, hended.mem_eq.trans hsame.mem_eq.symm, hended.outbox_eq.trans hsame.outbox_eq.symm⟩
    exact State.gone_iff.1 (hpub.cur ▸ (hinv'.progress t.attr.ctx).gone_endThread s₂.cur)
  refine ⟨_, execPubl_published h hh hp hpub hout, ?_⟩
  have hpast : (if t.held = [] then s₂.pastEnd t.published 4 else s₂.waits t.published .xfence).thread? s₁.cur =
      some (if t.held = [] then t.published.done 4 else t.published.parked .xfence) ∧
      (if t.held = [] then s₂.pastEnd t.published 4 else s₂.waits t.published .xfence).pending = s₂.pending ∧
      s₂.SameStore (if t.held = [] then s₂.pastEnd t.published 4 else s₂.waits t.published .xfence) := by
    rw [← hpub.cur]
    split
    · exact ⟨State.thread?_pastEnd .., State.pending_pastEnd .., State.SameStore.progress (s := s₂.withThread _) (.refl s₂) _⟩
    · exact ⟨State.thread?_waits .., State.pending_waits .., State.sameStore_waits ..⟩
  obtain ⟨hthread, hpend, hsame⟩ := hpast
  exact ⟨hthread, hsame.mem_eq.trans hpub.mem, hpend.trans hpub.pending, hsame.outbox_eq.trans hpub.outbox, hquit _ hsame⟩

end Sys2Proof.Machine

/-! ## Arrivals (O50) -/

namespace Sys2Proof.Machine

/-! ### Cores and registers after a change -/

section changed
variable {s : State}

theorem State.core_modCore {c : Nat} (h : Tab.rising s.cores = true) (f : Core → Core) : (s.modCore c f).core c = f (s.core c) :=
  Tab.get_put_same _ h _ _
theorem State.core_modCore_other {c d : Nat} (hd : d ≠ c) (f : Core → Core) : (s.modCore c f).core d = s.core d := by
  unfold State.core State.modCore Tab.get Tab.put
  dsimp only
  split
  · rw [Tab.find?_erase_other _ hd]
  · rw [Tab.find?_insert_other _ _ hd]
theorem State.core_progress (s : State) (ctx c : Nat) : (s.progress ctx).core c = s.core c := by
  unfold State.core
  rw [State.cores_progress]
/-- A register that has been given a full value holds it. -/
theorem Thread.reg_putReg_full (t : Thread) (k : Nat) (v : Word) (a p : Bool) : (t.putReg k ⟨v, true, a, p⟩).reg k = ⟨v, true, a, p⟩ := by
  unfold Thread.reg Thread.putReg Tab.put
  rw [if_neg (by simp [Reg.empty])]
  unfold Tab.get
  rw [Tab.find?_insert_same]
  rfl
theorem Thread.reg_fillReg (t : Thread) (k : Nat) (v : Word) : (t.fillReg k v).reg k = ⟨v, true, false, false⟩ := t.reg_putReg_full ..

end changed

/-! ### Replies (R32, R48, R397) -/

section replies
variable {s : State} {u : Nat} {reg : BitVec 5} {v : Word} {t : Thread}

theorem State.reply_awaited (h : s.thread? u = some t) (hw : t.wait = .reply ∨ t.wait = .handle) : s.reply u reg v =
    { s with threads := Tab.insert s.threads u (if reg.toNat < 28 then t.fillReg reg.toNat v else t).finish } := by
  unfold State.reply
  rw [h]
  rcases hw with hw | hw <;> simp only [hw] <;> exact State.modThread_of s u _ h
theorem State.reply_other (h : s.thread? u = some t) (hr : t.wait ≠ .reply) (hh : t.wait ≠ .handle) :
    s.reply u reg v = if reg.toNat < 28 ∧ (t.reg reg.toNat).pend then s.fillPend u reg.toNat v else s := by
  unfold State.reply
  rw [h]
  dsimp only
  split
  · contradiction
  · contradiction
  · rfl
theorem State.fillPend_of (h : s.thread? u = some t) (r : Nat) (v : Word) : s.fillPend u r v =
    { s with threads := Tab.insert s.threads u (if t.wait = .reg r then (t.fillReg r v).wake else t.fillReg r v) } :=
  State.modThread_of s u _ h

theorem execReplyArrival_cases (h : s.thread? u = some t) :
    (t.wait = .reply ∨ t.wait = .handle → exec (.replyArrival u reg v) s = .next { s with
      threads := Tab.insert s.threads u (if reg.toNat < 28 then t.fillReg reg.toNat v else t).finish }) ∧
    (t.wait ≠ .reply → t.wait ≠ .handle → reg.toNat < 28 → (t.reg reg.toNat).pend = true → ∃ s' t', exec (.replyArrival u reg v) s = .next s' ∧
      s'.thread? u = some t' ∧ t'.reg reg.toNat = ⟨v, true, false, false⟩ ∧ t'.pc = t.pc ∧ s' = { s with threads := s'.threads }) ∧
    (t.wait ≠ .reply → t.wait ≠ .handle → (reg.toNat < 28 → (t.reg reg.toNat).pend = false) → exec (.replyArrival u reg v) s = .next s) := by
  refine ⟨fun hw => congrArg Host.Outcome.next (State.reply_awaited h hw), fun hr hh hreg hpend => ?_, fun hr hh hpend => congrArg Host.Outcome.next ?_⟩
  · have hfill : s.reply u reg v = _ := (State.reply_other h hr hh).trans ((if_pos ⟨hreg, hpend⟩).trans (State.fillPend_of h _ v))
    refine ⟨_, _, congrArg Host.Outcome.next hfill, State.thread?_insert .., ?_, ?_, rfl⟩
    · split <;> exact t.reg_fillReg _ v
    · split <;> rfl
  · rw [State.reply_other h hr hh, if_neg]
    rintro ⟨hreg, hp⟩
    rw [hpend hreg] at hp
    cases hp

end replies

/-! ### Messages (R41, R43, R358) -/

section messages
variable {s : State} {c : Nat} {m : Message}

/-- What a step may add is a handler's start. -/
theorem State.pokeHandler_eq (s : State) (c : Nat) : ∃ more, s.pokeHandler c = { s with pending := s.pending ++ more } ∧
    (s.inSlot c Config.handlerSlot = none → (s.core c).lights = [] → (s.core c).msgs ≠ [] → .messageHandlerStart c ∈ more) := by
  unfold State.pokeHandler
  split
  · rename_i hfull
    refine ⟨[], by rw [List.append_nil], fun hfree => ?_⟩
    rw [hfree] at hfull
    cases hfull
  · split
    · rename_i hlights
      refine ⟨[.lightHandlerStart c], rfl, fun _ hnone => ?_⟩
      simp [hnone] at hlights
    · split
      · exact ⟨[.messageHandlerStart c], rfl, fun _ _ _ => List.mem_singleton.2 rfl⟩
      · rename_i hmsgs
        exact ⟨[], by rw [List.append_nil], fun _ _ hne => absurd (by simpa using hmsgs) hne⟩
/-- The end of IDLE moves no thread (R289). -/
theorem State.inSlot_endIdle (s : State) (c d k : Nat) (h : s.inSlot d k = none) : (s.endIdle c).inSlot d k = none := by
  unfold State.inSlot State.endIdle at *
  rw [List.find?_eq_none] at h ⊢
  intro e he
  obtain ⟨x, hx, rfl⟩ := List.mem_map.1 he
  have := h x hx
  dsimp only
  split
  · split <;> exact this
  · exact this
theorem State.thread?_endIdle {u k : Nat} {b : Bool} {t : Thread} (h : s.thread? u = some t) (hw : t.wait = .idle b)
    (hp : t.place = .slot c k) : (s.endIdle c).thread? u = some t.finish := by
  refine (Tab.find?_map (fun e : Nat × Thread => (e.1, match e.2.wait, e.2.place with
    | .idle _, .slot d _ => if d = c then e.2.finish else e.2
    | _, _ => e.2)) (fun _ => rfl) s.threads).trans ?_
  have h' : Tab.find? s.threads u = some t := h
  simp only [h', Option.map_some, hw, hp, if_true]

theorem execMessageArrival_kept (ht : s.coreFenced c = false) (htag : (s.core c).tag = some m.ctx)
    (hl : isSettMessage m = false ∨ s.liveLaunch c ≠ none) : exec (.messageArrival c m) s = .next (if 8 ≤ (s.core c).msgs.length
      then s.requeueMessage c m
      else ((s.modCore c (fun q => { q with msgs := q.msgs ++ [m] })).endIdle c).pokeHandler c) := by
  have hkeep : ¬ (isSettMessage m && (s.liveLaunch c).isNone) = true := by
    rcases hl with hl | hl <;> simp [hl]
  show execMessageArrival c m s = _
  unfold execMessageArrival
  rw [if_neg (by simp [ht, htag]), if_neg hkeep]

theorem execMessageArrival_cases (hinv : s.Inv) :
    ((s.coreFenced c = true ∨ (s.core c).tag ≠ some m.ctx) → isWatchMessage m = false → exec (.messageArrival c m) s = .next s) ∧
    (s.coreFenced c = false → (s.core c).tag = some m.ctx → isSettMessage m = true → s.liveLaunch c = none → exec (.messageArrival c m) s = .next s) ∧
    (s.coreFenced c = false → (s.core c).tag = some m.ctx → (isSettMessage m = false ∨ s.liveLaunch c ≠ none) → 8 ≤ (s.core c).msgs.length → ∃ s', exec (.messageArrival c m) s = .next s' ∧
      .messageArrival c m ∈ s'.pending ∧ s' = { s with pending := s'.pending }) ∧
    (s.coreFenced c = false → (s.core c).tag = some m.ctx → (isSettMessage m = false ∨ s.liveLaunch c ≠ none) → (s.core c).msgs.length < 8 → ∃ s', exec (.messageArrival c m) s = .next s' ∧
      s'.core c = { s.core c with msgs := (s.core c).msgs ++ [m] } ∧ (∀ d, d ≠ c → s'.core d = s.core d) ∧
      (s.inSlot c 16 = none → (s.core c).lights = [] → .messageHandlerStart c ∈ s'.pending) ∧
      (∀ u t k b, s.thread? u = some t → t.wait = .idle b → t.place = .slot c k → s'.thread? u = some t.finish) ∧
      s' = { s with cores := s'.cores, threads := s'.threads, pending := s'.pending }) := by
  refine ⟨fun hgone hw => ?_, fun ht htag hm hl => ?_, fun ht htag hl hfull => ?_, fun ht htag hl hroom => ?_⟩
  · show execMessageArrival c m s = _
    unfold execMessageArrival
    rw [if_pos (by simpa using hgone), if_neg (by simp [hw])]
  · show execMessageArrival c m s = _
    unfold execMessageArrival
    rw [if_neg (by simp [ht, htag]), if_pos (by simp [hm, hl])]
  · refine ⟨_, (execMessageArrival_kept ht htag hl).trans (congrArg _ (if_pos hfull)), ?_, rfl⟩
    exact List.mem_append_right _ (List.mem_cons_self ..)
  · have hcore := State.core_modCore (c := c) hinv.cores fun q => { q with msgs := q.msgs ++ [m] }
    have hother := fun d hd => State.core_modCore_other (s := s) (c := c) (d := d) hd fun q => { q with msgs := q.msgs ++ [m] }
    have hstep := (execMessageArrival_kept ht htag hl).trans (congrArg _ (if_neg (Nat.not_le.2 hroom)))
    obtain ⟨more, hpoke, hstart⟩ := ((s.modCore c (fun q => { q with msgs := q.msgs ++ [m] })).endIdle c).pokeHandler_eq c
    rw [hpoke] at hstep
    refine ⟨_, hstep, hcore, hother, fun hslot hlights => ?_, fun u t k b h hw hp => ?_, rfl⟩
    · refine List.mem_append_right _ (hstart (State.inSlot_endIdle _ c c 16 hslot) ?_ ?_)
      · exact (congrArg Core.lights hcore).trans hlights
      · intro hnil
        have hmsgs := (congrArg Core.msgs hcore).symm.trans hnil
        simp at hmsgs
    · exact State.thread?_endIdle (s := s.modCore c _) h hw hp

end messages

/-! ### Handlers (R42, R357) -/

section handlers
variable {s : State} {c : Nat}

/-- The value of a position in a numbered list. -/
theorem Tab.find?_zipIdx {α β : Type} (f : α → β) (l : List α) (n i : Nat) :
    Tab.find? ((l.zipIdx n).map fun v => (v.2, f v.1)) (n + i) = l[i]?.map f := by
  induction l generalizing n i with
  | nil => rfl
  | cons a l ih =>
    rw [List.zipIdx_cons, List.map_cons]
    cases i with
    | zero => simp [Tab.find?]
    | succ i =>
      have hne : ¬ n = n + (i + 1) := by omega
      have hsucc : n + (i + 1) = n + 1 + i := by omega
      simp only [Tab.find?, hne, if_false, List.getElem?_cons_succ]
      rw [hsucc]
      exact ih (n + 1) i

/-- The run of a handler as it begins for a launch (R42). -/
def State.handlerRun (s : State) (c : Nat) (l : Launch) (pc : Nat) (regs : List Word) : Thread :=
  let attr : Attr := { l.attr with tid := 0xFFFFFFFF#32, count := 8, prio := l.prio, isSealed := false, restart := false }
  let t := Thread.fresh (.slot c Config.handlerSlot) attr pc l.tvec s.co
  let t := { t with
    regs := regs.zipIdx.map (fun v : Word × Nat => (v.2, (⟨v.1, true, false, false⟩ : Reg))), handler := true, enter := s.nextUid, home := some c }
  { t with chunk := t.newChunk s.co }
theorem State.reg_handlerRun (s : State) (c : Nat) (l : Launch) (pc : Nat) {regs : List Word} {i : Nat} {v : Word} (h : regs[i]? = some v) :
    (s.handlerRun c l pc regs).reg i = ⟨v, true, false, false⟩ := by
  have hfind := Tab.find?_zipIdx (fun v : Word => (⟨v, true, false, false⟩ : Reg)) regs 0 i
  rw [Nat.zero_add, h] at hfind
  exact congrArg (Option.getD · Reg.empty) hfind

theorem State.thread?_startHandler (s : State) (c : Nat) (l : Launch) (pc : Nat) (regs : List Word) :
    (s.startHandler c l pc regs).thread? s.nextUid = some (s.handlerRun c l pc regs) := by
  unfold State.startHandler
  refine State.thread?_wakeAll_of ?_ rfl
  unfold State.thread?
  rw [State.threads_progress]
  exact Tab.find?_insert_same ..
theorem State.mem_startHandler (s : State) (c : Nat) (l : Launch) (pc : Nat) (regs : List Word) :
    (s.startHandler c l pc regs).mem = s.mem := State.mem_progress ..
theorem State.waiters_startHandler (s : State) (c : Nat) (l : Launch) (pc : Nat) (regs : List Word) :
    (s.startHandler c l pc regs).waiters = s.waiters := State.waiters_progress ..
/-- The queues of the core stay as they were. -/
theorem State.core_startHandler (h : Tab.rising s.cores = true) (l : Launch) (pc : Nat) (regs : List Word) :
    ∃ turns perf, (s.startHandler c l pc regs).core c = { s.core c with turnAt := turns, perf := perf } := by
  have hdelayed : ∀ s' : State, s'.cores = s.cores → ∃ turns perf,
      ((s'.modCore c fun q => q.delayTurn Config.handlerSlot s'.cycle).count c 15 1).core c = { s.core c with turnAt := turns, perf := perf } := by
    intro s' hs'
    have hc : s'.core c = s.core c := by unfold State.core; rw [hs']
    have h' : Tab.rising s'.cores = true := by rw [hs']; exact h
    have hcount := State.core_modCore (s := s'.modCore c fun q => q.delayTurn Config.handlerSlot s'.cycle) (c := c) (Tab.rising_put h' _ _)
      fun q => { q with perf := Store.put q.perf 15 (Store.get q.perf 15 + BitVec.ofNat 64 1) }
    rw [State.core_modCore h', hc] at hcount
    exact ⟨_, _, hcount⟩
  unfold State.startHandler
  dsimp only
  rw [show ∀ (s : State) p, (s.wakeAll p).core c = s.core c from fun _ _ => rfl, State.core_progress]
  exact hdelayed _ rfl

theorem State.liveLaunch_modCore (h : Tab.rising s.cores = true) {f : Core → Core} (hf : (f (s.core c)).tag = (s.core c).tag) :
    (s.modCore c f).liveLaunch c = s.liveLaunch c := by
  have htag : ((s.modCore c f).core c).tag = (s.core c).tag := (congrArg Core.tag (State.core_modCore h f)).trans hf
  unfold State.liveLaunch
  rw [htag]
  rfl
theorem State.servePorts_none (h : s.waiters = []) (c : Nat) : s.servePorts c = s := by
  unfold State.servePorts
  rw [h]
  rfl

theorem State.servePorts_wakePorts (h : s.waiters = []) (c : Nat) : (s.wakePorts c).servePorts c = s.wakePorts c :=
  State.servePorts_none (s := s.wakePorts c) h c

theorem execMessageHandlerStart_cases {m : Message} {rest : List Message} {l : Launch} (hinv : s.Inv) (hfree : s.handlerFree c = true)
    (hlights : (s.core c).lights = []) (hmsgs : (s.core c).msgs = m :: rest) (hl : s.liveLaunch c = some l) :
    ∃ s' t, exec (.messageHandlerStart c) s = .next s' ∧
      s'.thread? s.nextUid = some t ∧ t.place = .slot c 16 ∧ t.handler = true ∧ t.pc = (m.words.headD 0#64).toNat % 2 ^ 48 ∧ t.tvec = l.tvec ∧
      t.attr.ctx = l.attr.ctx ∧ t.attr.seq = l.attr.seq ∧ t.attr.count = 8 ∧ t.reg 0 = ⟨m.sender, true, false, false⟩ ∧
      (∀ j v, m.words[j + 1]? = some v → t.reg (j + 1) = ⟨v, true, false, false⟩) ∧ (s'.core c).msgs = rest ∧ s'.mem = s.mem := by
  have hcores : Tab.rising (s.modCore c fun q => { q with msgs := rest }).cores = true := (hinv.modCore c _).cores
  obtain ⟨turns, perf, hcore⟩ := State.core_startHandler hcores l ((m.words.headD 0#64).toNat % 2 ^ 48) (m.sender :: m.words.drop 1) (c := c)
  have hexec : exec (.messageHandlerStart c) s = .next ((s.modCore c fun q => { q with msgs := rest }).startHandler c l
      ((m.words.headD 0#64).toNat % 2 ^ 48) (m.sender :: m.words.drop 1)) := by
    show execMessageHandlerStart c s = _
    unfold execMessageHandlerStart
    rw [if_pos (by simp [hfree, hlights]), hmsgs]
    dsimp only
    rw [State.liveLaunch_modCore (f := fun q => { q with msgs := rest }) hinv.cores rfl, hl]
  refine ⟨_, _, hexec, State.thread?_startHandler .., rfl, rfl, rfl, rfl, rfl, rfl, rfl, State.reg_handlerRun _ _ _ _ rfl,
    fun j v hj => State.reg_handlerRun _ _ _ _ ?_, ?_, State.mem_startHandler ..⟩
  · rw [List.getElem?_cons_succ, List.getElem?_drop, Nat.add_comm 1 j]
    exact hj
  · rw [hcore, State.core_modCore hinv.cores]

theorem execLightHandlerStart_cases {x : Nat} {g0 g1 : Word} {more : List (Nat × Word × Word)} {l : Launch} (hinv : s.Inv)
    (hwait : s.waiters = []) (hfree : s.handlerFree c = true) (hlights : (s.core c).lights = (x, g0, g1) :: more)
    (hl : Tab.find? s.launches x = some l) :
    ∃ s' t, exec (.lightHandlerStart c) s = .next s' ∧
      s'.thread? s.nextUid = some t ∧ t.place = .slot c 16 ∧ t.handler = true ∧ t.pc = l.attr.handler ∧ t.attr.ctx = l.attr.ctx ∧
      t.reg 0 = ⟨g0, true, false, false⟩ ∧ t.reg 1 = ⟨g1, true, false, false⟩ ∧ (s'.core c).lights = more ∧ s'.mem = s.mem := by
  have hcores : Tab.rising (s.modCore c fun q => { q with lights := more }).cores = true := (hinv.modCore c _).cores
  obtain ⟨turns, perf, hcore⟩ := State.core_startHandler hcores l l.attr.handler [g0, g1] (c := c)
  have hthread := (s.modCore c fun q => { q with lights := more }).thread?_startHandler c l l.attr.handler [g0, g1]
  have hnone := ((s.modCore c fun q => { q with lights := more }).waiters_startHandler c l l.attr.handler [g0, g1]).trans hwait
  have hmem := (s.modCore c fun q => { q with lights := more }).mem_startHandler c l l.attr.handler [g0, g1]
  have hexec : exec (.lightHandlerStart c) s = .next (((s.modCore c fun q => { q with lights := more }).startHandler c l
      l.attr.handler [g0, g1]).wakePorts c) := by
    show execLightHandlerStart c s = _
    unfold execLightHandlerStart
    rw [if_pos hfree, hlights]
    dsimp only
    rw [show Tab.find? (s.modCore c fun q => { q with lights := more }).launches x = some l from hl]
    dsimp only
    rw [State.servePorts_wakePorts hnone]
  have hlit : (((s.modCore c fun q => { q with lights := more }).startHandler c l l.attr.handler [g0, g1]).core c).lights = more := by
    rw [hcore, State.core_modCore hinv.cores]
  generalize (s.modCore c fun q => { q with lights := more }).startHandler c l l.attr.handler [g0, g1] = s₁ at hthread hmem hexec hlit
  exact ⟨_, _, hexec, State.thread?_wakeAll_of hthread (Bool.and_false _), rfl, rfl, rfl, rfl, State.reg_handlerRun _ _ _ _ rfl,
    State.reg_handlerRun _ _ _ _ rfl, hlit, hmem⟩

end handlers

/-! ### Remote fills (R162, R296, R397) -/

section fills
variable {s : State}

/-- The operand of a remote fill, taken apart (R162). -/
theorem malformedFill_of {target : Word} {c k r dev : Nat} (h : target.toNat = c + 2 ^ 16 * k + 2 ^ 24 * r + 2 ^ 32 * dev)
    (hc : c < 16384) (hk : k ≤ 16) (hr : r < 28) (hd : dev < 4096) : malformedFill target = false := by
  unfold malformedFill
  simp only [h, Bool.or_eq_false_iff, decide_eq_false_iff_not, not_not]
  refine ⟨⟨⟨⟨⟨?_, ?_⟩, ?_⟩, ?_⟩, ?_⟩, ?_⟩ <;> omega
theorem execRfillDelivery_here {u : Nat} {reg : BitVec 5} {target v : Word} {t : Thread} (h : s.thread? u = some t)
    (hm : malformedFill target = false) (hd : target.toNat / 2 ^ 32 % 4096 = s.device.devid.toNat) : exec (.rfillDelivery u reg target v) s =
    .next (((s.remoteFill t.attr.ctx target v).2.progress t.attr.ctx).push
      (.replyArrival u reg (BitVec.ofNat 64 (s.remoteFill t.attr.ctx target v).1))) := by
  show execRfillDelivery u reg target v s = _
  unfold execRfillDelivery
  rw [h]
  dsimp only
  rw [if_neg (by simp [hm]), if_pos hd]

theorem execRfillDelivery_cases {u w c k r : Nat} {reg : BitVec 5} {target v : Word} {t o : Thread} (h : s.thread? u = some t)
    (ht : target.toNat = c + 2 ^ 16 * k + 2 ^ 24 * r + 2 ^ 32 * s.device.devid.toNat) (hc : c < 16384) (hk : k ≤ 16) (hr : r < 28) :
    (s.coreFenced c = true → exec (.rfillDelivery u reg target v) s = .next ((s.progress t.attr.ctx).push (.replyArrival u reg 3#64))) ∧
    (s.coreFenced c = false → s.inSlot c k = some (w, o) → o.attr.ctx = t.attr.ctx → r < o.attr.count →
      ((o.reg r).armed = true → (o.reg r).full = false → exec (.rfillDelivery u reg target v) s =
        .next (((s.modThread w (fun t => if t.wait = .reg r then (t.fillReg r v).wake else t.fillReg r v)).progress t.attr.ctx).push (.replyArrival u reg 0#64))) ∧
      (s.fillTarget t.attr.ctx c k r = none → exec (.rfillDelivery u reg target v) s = .next ((s.progress t.attr.ctx).push (.replyArrival u reg 1#64)))) := by
  have hdev : s.device.devid.toNat < 4096 := s.device.devid.isLt
  have hm := malformedFill_of ht hc hk hr hdev
  have hcore : target.toNat % 2 ^ 14 = c := by omega
  have hslot : target.toNat / 2 ^ 16 % 32 = k := by omega
  have hreg : target.toNat / 2 ^ 24 % 32 = r := by omega
  rw [execRfillDelivery_here h hm (by omega)]
  refine ⟨fun hf => ?_, fun hf hin hctx hcount => ⟨fun harm hempty => ?_, fun hnone => ?_⟩⟩
  · have hfill : s.remoteFill t.attr.ctx target v = (3, s) := by
      unfold State.remoteFill
      rw [if_neg (by simp [hm]), hcore, if_pos hf]
    rw [hfill]
  · have htarget : s.fillTarget t.attr.ctx c k r = some w := by
      unfold State.fillTarget
      rw [hin]
      exact if_pos ⟨hctx, by simp [Thread.armedAt, hcount, harm, hempty]⟩
    have hfill : s.remoteFill t.attr.ctx target v = (0, s.fillPend w r v) := by
      unfold State.remoteFill
      rw [if_neg (by simp [hm]), hcore, hslot, hreg, if_neg (by simp [hf]), htarget]
    rw [hfill]
    rfl
  · have hfill : s.remoteFill t.attr.ctx target v = (1, s) := by
      unfold State.remoteFill
      rw [if_neg (by simp [hm]), hcore, hslot, hreg, if_neg (by simp [hf]), hnone, hin]
      dsimp only
      rw [if_pos ⟨hctx, hcount⟩]
    rw [hfill]

end fills

/-! ### The Bed fault queue (R316) -/

theorem execFaultQueueResolution_thread {s : State} {ctx page u va : Nat} {t : Thread} (hq : s.faultq = [⟨ctx, page, [.thread u]⟩])
    (h : s.thread? u = some t) (hw : t.wait = .page va) :
    exec (.faultQueueResolution ctx page true) s = .next { s with faultq := [], threads := Tab.insert s.threads u t.wake } ∧
    (t.settOn = none → exec (.faultQueueResolution ctx page false) s = .next { s with
      faultq := [], threads := Tab.insert s.threads u { t with async := (0x08, BitVec.ofNat 64 va) :: t.async, wait := .running, back := true } }) := by
  have hexec : ∀ ok : Bool, exec (.faultQueueResolution ctx page ok) s = .next (
      if ok then ({ s with faultq := [] } : State).wakeWaiter (.thread u) else ({ s with faultq := [] } : State).failWaiter (.thread u)) := by
    intro ok
    show execFaultQueueResolution ctx page ok s = _
    simp [execFaultQueueResolution, hq]
  have h' : ({ s with faultq := [] } : State).thread? u = some t := h
  refine ⟨(hexec true).trans (congrArg Host.Outcome.next ?_), fun hs => (hexec false).trans (congrArg Host.Outcome.next ?_)⟩
  · simp only [if_true, State.wakeWaiter, h', hw]
    exact State.modThread_of _ _ _ h'
  · simp only [Bool.false_eq_true, if_false, State.failWaiter, h', hw, hs]
    refine (State.modThread_of _ _ _ h').trans ?_
    simp [hw]

/-! ### Fences (R168) -/

theorem execFenceCompletion_cases {s : State} {u scope : Nat} {t : Thread} (h : s.thread? u = some t) (hw : t.wait = .fence) :
    (scope ≠ 0 → s.postsOpen u (decide (scope = 2)) = true → exec (.fenceCompletion u scope) s = .next (s.push (.fenceCompletion u scope))) ∧
    (scope = 0 ∨ s.postsOpen u (decide (scope = 2)) = false → exec (.fenceCompletion u scope) s = .next (({ s with
      co := s.co + 1, threads := Tab.insert s.threads u t.finish } : State).progress t.attr.ctx)) := by
  have hexec : exec (.fenceCompletion u scope) s = .next (if scope ≠ 0 ∧ s.postsOpen u (decide (scope = 2)) = true then
      s.push (.fenceCompletion u scope) else ({ s.modThread u Thread.finish with co := s.co + 1 } : State).progress t.attr.ctx) := by
    show execFenceCompletion u scope s = _
    simp only [execFenceCompletion, h, hw, ne_eq, not_true_eq_false, if_false]
  refine ⟨fun hs hb => hexec.trans (congrArg Host.Outcome.next (if_pos ⟨hs, hb⟩)), fun hdone => hexec.trans (congrArg Host.Outcome.next ?_)⟩
  rw [if_neg, State.modThread_of s u _ h]
  rintro ⟨hs, hb⟩
  rcases hdone with hdone | hdone
  · exact hs hdone
  · rw [hdone] at hb
    cases hb

/-! ### XFENCE (R169, R334) -/

section xfence

/-- What the write-back of some bytes leaves: no HBM copy of theirs that differs, every other copy as it was, and no committed byte changed
but those that near memory had passed by. -/
structure State.BackFor (s s' : State) (mine : Nat → Prop) : Prop where
  rising : Tab.rising s'.near = true
  gone   : ∀ a, mine a → Tab.find? s'.near a = none
  kept   : ∀ a, ¬ mine a → Tab.find? s'.near a = Tab.find? s.near a
  other  : ∀ a, ¬ mine a → Store.get s'.mem a = Store.get s.mem a
  clean  : ∀ a, (Tab.find? s.near a = none ∨ ∃ n, Tab.find? s.near a = some n ∧ n.getLsbD 8 = true) → Store.get s'.mem a = Store.get s.mem a

theorem State.BackFor.refl {s : State} (h : Tab.rising s.near = true) : s.BackFor s fun _ => False :=
  ⟨h, fun _ hf => hf.elim, fun _ _ => rfl, fun _ _ => rfl, fun _ _ => rfl⟩
theorem State.BackFor.trans {s s₁ s₂ : State} {p q : Nat → Prop} (h₁ : s.BackFor s₁ p) (h₂ : s₁.BackFor s₂ q) :
    s.BackFor s₂ fun a => p a ∨ q a := by
  refine ⟨h₂.rising, fun a ha => ?_, fun a ha => ?_, fun a ha => ?_, fun a ha => ?_⟩
  · by_cases hq : q a
    · exact h₂.gone a hq
    · exact (h₂.kept a hq).trans (h₁.gone a (ha.resolve_right hq))
  · obtain ⟨hp, hq⟩ := not_or.1 ha
    exact (h₂.kept a hq).trans (h₁.kept a hp)
  · obtain ⟨hp, hq⟩ := not_or.1 ha
    exact (h₂.other a hq).trans (h₁.other a hp)
  · refine (h₂.clean a ?_).trans (h₁.clean a ha)
    by_cases hp : p a
    · exact .inl (h₁.gone a hp)
    · rw [h₁.kept a hp]
      exact ha
theorem State.BackFor.congr {s s' : State} {p q : Nat → Prop} (h : s.BackFor s' p) (hpq : ∀ a, p a ↔ q a) : s.BackFor s' q := by
  rwa [show q = p from funext fun a => propext (hpq a).symm]
theorem State.BackFor.of_eq {s s₁ s₂ : State} {p : Nat → Prop} (h : s.BackFor s₁ p) (hn : s₂.near = s₁.near) (hm : s₂.mem = s₁.mem) :
    s.BackFor s₂ p := by
  constructor
  · rw [hn]; exact h.rising
  · rw [hn]; exact h.gone
  · rw [hn]; exact h.kept
  · rw [hm]; exact h.other
  · rw [hm]; exact h.clean
theorem State.BackFor.foldl {α : Type} {f : State → α → State} {p : α → Nat → Prop}
    (hf : ∀ (s : State) x, Tab.rising s.near = true → s.BackFor (f s x) (p x)) (l : List α) {s : State} (h : Tab.rising s.near = true) :
    s.BackFor (l.foldl f s) fun a => ∃ x ∈ l, p x a := by
  induction l generalizing s with
  | nil => exact (State.BackFor.refl h).congr (by simp)
  | cons x l ih => exact ((hf s x h).trans (ih (hf s x h).rising)).congr (by simp)

theorem State.backFor_writeBackByte {s : State} (h : Tab.rising s.near = true) (loc : Nat) : s.BackFor (s.writeBackByte loc) (· = loc) := by
  unfold State.writeBackByte
  cases hn : Tab.find? s.near loc with
  | none => exact ⟨h, fun a ha => ha ▸ hn, fun _ _ => rfl, fun _ _ => rfl, fun _ _ => rfl⟩
  | some n =>
    have hgone : ∀ a, a = loc → Tab.find? (Tab.erase s.near loc) a = none := fun a ha => ha ▸ Tab.find?_erase_same h loc
    have hkept : ∀ a, ¬ a = loc → Tab.find? (Tab.erase s.near loc) a = Tab.find? s.near a := fun a ha => Tab.find?_erase_other _ ha
    dsimp only
    split
    · exact ⟨Tab.rising_erase h loc, hgone, hkept, fun _ _ => rfl, fun _ _ => rfl⟩
    · rename_i hdirty
      refine ⟨Tab.rising_erase h loc, hgone, hkept, fun a ha => Store.get_put_other _ _ ha, fun a ha => Store.get_put_other _ _ ?_⟩
      rintro rfl
      rw [hn] at ha
      obtain ha | ⟨m, hm, hd⟩ := ha
      · cases ha
      · cases hm
        exact hdirty hd
theorem State.backFor_writeBackLine {s : State} (h : Tab.rising s.near = true) (line : Nat) :
    s.BackFor (s.writeBackLine line) (· / 64 = line) := by
  have hbytes := (State.BackFor.foldl (f := fun s i => s.writeBackByte (64 * line + i))
    (fun s i hs => State.backFor_writeBackByte hs (64 * line + i)) (List.range 64) h).congr (q := (· / 64 = line)) fun a => by
      constructor
      · rintro ⟨i, hi, rfl⟩
        have := List.mem_range.1 hi
        omega
      · intro ha
        exact ⟨a % 64, List.mem_range.2 (by omega), by omega⟩
  unfold State.writeBackLine
  generalize List.foldl _ s _ = s' at hbytes ⊢
  exact ⟨hbytes.rising, hbytes.gone, hbytes.kept, hbytes.other, hbytes.clean⟩
theorem State.threads_writeBackLines (ls : List Nat) (s : State) : (ls.foldl State.writeBackLine s).threads = s.threads :=
  foldl_keeps (p := fun s : State => s.threads) (fun s l => s.threads_writeBackLine l) ls s

theorem execXfenceCompletion_cases {s : State} {u ctx base len : Nat} {t : Thread} (h : s.thread? u = some t) (hw : t.wait = .xfence)
    (hnear : Tab.rising s.near = true)
    (hfree : s.nearBusy (((s.rangeLines ctx base len).map (fun l => settOf (64 * l))).eraseDups) = false) :
    ∃ s', exec (.xfenceCompletion u ctx base len t.stamp) s = .next s' ∧ s'.thread? u = some t.finish ∧
      s.BackFor s' (· / 64 ∈ s.rangeLines ctx base len) := by
  have hback := (State.BackFor.foldl (fun _ l hs => State.backFor_writeBackLine hs l) (s.rangeLines ctx base len) hnear).congr
    (q := (· / 64 ∈ s.rangeLines ctx base len)) (by simp)
  have hthread : ((s.rangeLines ctx base len).foldl State.writeBackLine s).thread? u = some t :=
    (congrArg (Tab.find? · u) (State.threads_writeBackLines ..)).trans h
  have hexec : ∃ co, exec (.xfenceCompletion u ctx base len t.stamp) s = .next ((({ (s.rangeLines ctx base len).foldl State.writeBackLine s with
      co := co } : State).modThread u (fun t' => if t'.wait = .xfence ∧ t'.stamp = t.stamp then t'.finish else t')).progress ctx) := by
    show ∃ co, execXfenceCompletion u ctx base len t.stamp s = _
    unfold execXfenceCompletion
    dsimp only
    rw [if_neg (by simp [hfree])]
    exact ⟨_, rfl⟩
  obtain ⟨co, hexec⟩ := hexec
  generalize (s.rangeLines ctx base len).foldl State.writeBackLine s = s₁ at hback hthread hexec
  refine ⟨_, hexec, ?_, ?_⟩
  · unfold State.thread?
    rw [State.threads_progress]
    refine (State.thread?_modThread (s := { s₁ with co := co }) hthread _).trans ?_
    rw [if_pos ⟨hw, rfl⟩]
  · exact hback.of_eq ((State.near_progress ..).trans (State.near_modThread ..)) ((State.mem_progress ..).trans (State.mem_modThread ..))

end xfence

/-- Settles O50: each arrival from its own section above. -/
theorem arrivalEvents : Obligations.ArrivalEvents := by
  refine ⟨fun s u reg v t h => execReplyArrival_cases h, fun s c m hinv => execMessageArrival_cases hinv,
    fun s c m rest l x g0 g1 more hinv hwait hfree => ⟨execMessageHandlerStart_cases hinv hfree, execLightHandlerStart_cases hinv hwait hfree⟩,
    fun s u w c k r reg target v t o h ht hc hk hr => execRfillDelivery_cases h ht hc hk hr,
    fun s ctx page u va t hq h hw => execFaultQueueResolution_thread hq h hw,
    fun s u scope t h hw => execFenceCompletion_cases h hw, fun s u ctx base len t h hw _ hnear hfree => ?_⟩
  obtain ⟨s', hexec, hthread, hback⟩ := execXfenceCompletion_cases h hw hnear hfree
  refine ⟨s', hexec, hthread, fun a ha => ⟨?_, hback.gone a ha⟩, fun a ha => ⟨hback.other a ha, hback.kept a ha⟩, fun a n _ hclean => hback.clean a ?_⟩
  · unfold State.hbmByte
    rw [hback.gone a ha]
  · exact hclean.imp_right fun hn => ⟨n, hn⟩

end Sys2Proof.Machine

/-! ## Slots and the launch table (O49) -/

namespace Sys2Proof.Machine

/-- What a thread of the launch of a sequence number takes from it. -/
def twinAttr (seq : Nat) : Attr := ⟨0, 0, 0, 0#28, seq, 0#32, 8, 0, false, false⟩
/-- A launch of a sequence number with some broadcast words. -/
def twinLaunch (seq : Nat) (image : List Word) : Launch := ⟨twinAttr seq, 0, 0#64, 0, 2, 0#64, 0, 0, image, 1, [], 0, 0, 1⟩
/-- A launch table with one key twice, and a thread of launch 1 in slot 0 of core 0. Launch 1 is at key 0, without broadcast words, and
again at key 7, with one; launch 2, with broadcast words too, stands second at key 0. -/
def twinKeys : State :=
  { State.reset with
    threads := [(0, Thread.fresh (.slot 0 0) (twinAttr 1) 0 0#64 0)]
    cores := [(0, { Core.reset 0 with tag := some 0 })]
    launches := [(0, twinLaunch 1 []), (0, twinLaunch 2 [0#64]), (7, twinLaunch 1 [0#64])]
    ctxs := [(0, { CtxPage.reset with state := 1, allow := 1#1024 })]
    nextUid := 1 }
/-- A SPAWN of launch 2 for core 0, from a parent that is not there. -/
def twinSpawn : SpawnPacket := ⟨9, 0, 0, twinAttr 2, 0#64, [], false, 0⟩

theorem spawnRefused_twinKeys : twinKeys.spawnRefused twinSpawn.attr.ctx twinSpawn.core = false := by
  have hfaces : twinKeys.coreFenced twinSpawn.core = false := by decide
  have hcluster : twinKeys.allowed twinSpawn.attr.ctx twinSpawn.core = true := BitVec.getLsbD_one.trans (by decide)
  rw [State.spawnRefused, hfaces, hcluster]
  rfl
theorem freeSlot_twinKeys : twinKeys.freeSlot twinSpawn.core = some 1 := by decide
theorem claimants_twinKeys : twinKeys.claimants twinSpawn.core twinSpawn.attr.ctx = [] := by decide
theorem launchOf_twinKeys : twinKeys.launchOf twinSpawn.attr = some (0, twinLaunch 2 [0#64]) := by decide
theorem windowBusy_twinKeys : twinKeys.windowBusy 1 twinSpawn.core = false := by decide

/-- Counting the child as alive writes launch 2 over the first entry of key 0. The thread in slot 0 is one of key 7 from then on, with
broadcast words, so the child waits in the stockpile. -/
theorem place_twinSpawn {s' : State} (h : exec (.spawnPacketAccept twinSpawn) twinKeys = .next s') :
    (s'.thread? 1).map Thread.place = some (.stock 0) := by
  have hexec : exec (.spawnPacketAccept twinSpawn) twinKeys = _ := congrArg Host.Outcome.next (if_neg (by simp [spawnRefused_twinKeys]))
  obtain rfl : s' = _ := (Host.Outcome.next.inj (hexec.symm.trans h)).symm
  decide

/-- Refutes O49: the SPAWN clause asks nothing of the launch table, and neither would `State.Inv`. A table in which launch 2 shares its
key with the launch of the thread that lives on the core (`twinKeys`) meets every hypothesis, and the child waits in the stockpile. -/
theorem not_slotEvents : ¬ Obligations.SlotEvents := by
  rintro ⟨-, -, -, -, hspawn, -⟩
  have hbusy : ∀ j l, twinKeys.launchOf twinSpawn.attr = some (j, l) → twinKeys.windowBusy l.image.length twinSpawn.core = false := by
    intro j l hl
    obtain ⟨rfl, rfl⟩ := Prod.mk.inj (Option.some.inj (hl.symm.trans launchOf_twinKeys))
    exact windowBusy_twinKeys
  obtain ⟨s', t', hexec, hthread, hslot, -⟩ := (hspawn twinKeys twinSpawn 1).2 spawnRefused_twinKeys List.nodup_nil rfl freeSlot_twinKeys
    (by decide) rfl (by decide) rfl (by simp [claimants_twinKeys]) hbusy
  have hstock : some t'.place = some (.stock 0) := (congrArg (Option.map Thread.place) hthread).symm.trans (place_twinSpawn hexec)
  rw [hslot] at hstock
  cases hstock

end Sys2Proof.Machine

/-!
## Words and instructions (O58, O57)

The words of an instruction decode to it by the law of each instruction (`Laws.RoundTrip.all`). For the other direction the decoder compares only
the first word; the literal words are right because every row of the opcode map reads its B source, and nothing else, from them.
-/

namespace Sys2Proof

/-! ### Literal words (R107) -/

/-- The instruction that was read, if any, has as its literal words the first of the two words that follow (R107), in their order. -/
def ReadsLiterals (l1 l2 : Half) (o : Option Instr) : Prop := ∀ i ∈ o, [l1, l2].take (encode i).tail.length = (encode i).tail

section literals
variable (w l1 l2 : Half)

@[simp] theorem Src.take_words_srcOf (c : BitVec 5) : [l1, l2].take (srcOf c l1 l2).words.length = (srcOf c l1 l2).words := by
  unfold srcOf
  split
  · rfl
  split
  · simp only [Src.words, low_append, high_append]
    rfl
  · rfl
@[simp] theorem readsLiterals_none : ReadsLiterals l1 l2 none := nofun
@[simp] theorem readsLiterals_some {i : Instr} : ReadsLiterals l1 l2 (some i) ↔
    [l1, l2].take (encode i).tail.length = (encode i).tail := by simp [ReadsLiterals]

/-! ### The rows of each opcode that has several (R109) -/

@[simp] theorem readsLiterals_decode01 : ReadsLiterals l1 l2 (decode01 w l1 l2) := by
  unfold decode01; split <;> simp [encode]
@[simp] theorem readsLiterals_decode02 : ReadsLiterals l1 l2 (decode02 w l1 l2) := by
  unfold decode02; split <;> simp [encode]
@[simp] theorem readsLiterals_decode0D : ReadsLiterals l1 l2 (decode0D w l1 l2) := by
  unfold decode0D; split <;> simp [encode]
@[simp] theorem readsLiterals_decode0F : ReadsLiterals l1 l2 (decode0F w l1 l2) := by
  unfold decode0F; split <;> simp [encode]
@[simp] theorem readsLiterals_decode19 : ReadsLiterals l1 l2 (decode19 w l1 l2) := by
  unfold decode19; split <;> simp [encode]
@[simp] theorem readsLiterals_decode1C : ReadsLiterals l1 l2 (decode1C w l1 l2) := by
  unfold decode1C; split <;> simp [encode]
@[simp] theorem readsLiterals_decode1E : ReadsLiterals l1 l2 (decode1E w l1 l2) := by
  unfold decode1E; split <;> simp [encode]
@[simp] theorem readsLiterals_decode20 : ReadsLiterals l1 l2 (decode20 w l1 l2) := by
  unfold decode20; split <;> simp [encode]
@[simp] theorem readsLiterals_decode22 : ReadsLiterals l1 l2 (decode22 w l1 l2) := by
  unfold decode22; split <;> simp [encode]
@[simp] theorem readsLiterals_decode23 : ReadsLiterals l1 l2 (decode23 w l1 l2) := by
  unfold decode23; repeat' split
  all_goals simp [encode]
@[simp] theorem readsLiterals_decode2C : ReadsLiterals l1 l2 (decode2C w) := by
  unfold decode2C; split <;> simp [encode]
@[simp] theorem readsLiterals_decode52 : ReadsLiterals l1 l2 (decode52 w l1 l2) := by
  unfold decode52; split <;> simp [encode]
@[simp] theorem readsLiterals_decode53 : ReadsLiterals l1 l2 (decode53 w l1 l2) := by
  unfold decode53; split <;> simp [encode]
@[simp] theorem readsLiterals_decode54 : ReadsLiterals l1 l2 (decode54 w l1 l2) := by
  unfold decode54; split <;> simp [encode]
@[simp] theorem readsLiterals_decode55 : ReadsLiterals l1 l2 (decode55 w l1 l2) := by
  unfold decode55; split <;> simp [encode]
@[simp] theorem readsLiterals_decode56 : ReadsLiterals l1 l2 (decode56 w l1 l2) := by
  unfold decode56; split <;> simp [encode]
@[simp] theorem readsLiterals_decode59 : ReadsLiterals l1 l2 (decode59 w) := by
  unfold decode59; split <;> simp [encode]
@[simp] theorem readsLiterals_decode5A : ReadsLiterals l1 l2 (decode5A w l1 l2) := by
  unfold decode5A; split <;> simp [encode]
@[simp] theorem readsLiterals_decode5D : ReadsLiterals l1 l2 (decode5D w) := by
  unfold decode5D; split <;> simp [encode]
@[simp] theorem readsLiterals_decode60 : ReadsLiterals l1 l2 (decode60 w) := by
  unfold decode60; repeat' split
  all_goals simp [encode]
@[simp] theorem readsLiterals_decode61 : ReadsLiterals l1 l2 (decode61 w) := by
  unfold decode61; repeat' split
  all_goals simp [encode]
@[simp] theorem readsLiterals_decode62 : ReadsLiterals l1 l2 (decode62 w) := by
  unfold decode62; repeat' split
  all_goals simp [encode]
@[simp] theorem readsLiterals_decode63 : ReadsLiterals l1 l2 (decode63 w) := by
  unfold decode63; repeat' split
  all_goals simp [encode]
@[simp] theorem readsLiterals_decode64 : ReadsLiterals l1 l2 (decode64 w) := by
  unfold decode64; repeat' split
  all_goals simp [encode]
@[simp] theorem readsLiterals_decode65 : ReadsLiterals l1 l2 (decode65 w) := by
  unfold decode65; split <;> simp [encode]
@[simp] theorem readsLiterals_decode66 : ReadsLiterals l1 l2 (decode66 w) := by
  unfold decode66; split <;> simp [encode]
@[simp] theorem readsLiterals_decode70 : ReadsLiterals l1 l2 (decode70 w) := by
  unfold decode70; split <;> simp [encode]
@[simp] theorem readsLiterals_decode72 : ReadsLiterals l1 l2 (decode72 w) := by
  unfold decode72; repeat' split
  all_goals simp [encode]
@[simp] theorem readsLiterals_decode74 : ReadsLiterals l1 l2 (decode74 w) := by
  unfold decode74; split <;> simp [encode]

theorem readsLiterals_candidate : ReadsLiterals l1 l2 (candidate w l1 l2) := by
  unfold candidate; split <;> simp [encode]

end literals

/-! ### What the decoder accepts and refuses (R102, R110) -/

section decode
variable {w l1 l2 : Half} {i : Instr}

theorem decode_eq_some_iff : decode w l1 l2 = some i ↔ candidate w l1 l2 = some i ∧ (encode i).headD 0#32 = w ∧ i.wf = true := by
  constructor
  · intro h
    unfold decode at h
    split at h
    · cases h
    next j hj =>
      split at h
      next hok =>
        obtain rfl := Option.some.inj h
        simpa [hj] using hok
      · cases h
  · rintro ⟨hc, hw, hwf⟩
    exact decode_of hc hw hwf

/-- A word is refused when its row is ill-formed, or has another word: then a reserved or unused field is not zero. -/
theorem decode_eq_none_of_candidate {o : Option Instr} (hc : candidate w l1 l2 = o)
    (hno : ∀ i ∈ o, i.wf = true → (encode i).headD 0#32 ≠ w) : decode w l1 l2 = none :=
  Option.eq_none_iff_forall_ne_some.2 fun i h =>
    have ⟨hi, hw, hwf⟩ := decode_eq_some_iff.1 h
    hno i (hc ▸ hi) hwf hw

theorem encode_of_decode (h : decode w l1 l2 = some i) : encode i = [w, l1, l2].take (encode i).length := by
  obtain ⟨hc, hw, hwf⟩ := decode_eq_some_iff.1 h
  obtain ⟨v, vs, hvs⟩ := List.exists_cons_of_length_pos (length_encode_pos hwf)
  have htail := readsLiterals_candidate w l1 l2 i hc
  rw [hvs] at hw htail ⊢
  exact congrArg₂ List.cons hw htail.symm

end decode

/-! ### The obligations -/

/-- Settles O58: each instruction has its law, and what decodes has the first word by the decoder's own check and the literal words because
its row read them. -/
theorem wordsAndInstructions : Obligations.WordsAndInstructions := by
  unfold Obligations.WordsAndInstructions
  refine ⟨fun i hwf => ⟨length_encode_pos hwf, length_encode_le i, Laws.RoundTrip.all i hwf⟩, fun w l1 l2 i h => ?_⟩
  obtain ⟨-, -, hwf⟩ := decode_eq_some_iff.1 h
  exact ⟨hwf, encode_of_decode h⟩

/-- Settles O57: twelve of the words are the words of the instructions they stand for; of the others one row is ill-formed, one has another
word, and one opcode has no row. -/
theorem wordsDecode : Obligations.WordsDecode := by
  unfold Obligations.WordsDecode
  have reads (i : Instr) (l1 l2 : Half) (hwf : i.wf = true) := Laws.RoundTrip.all i hwf l1 l2
  refine ⟨reads (.add 3#5 4#5 (.reg 5#5) 0#5) 0 0 rfl, reads (.sub 3#5 4#5 (.lit32 0xFFFFFFFF#32) 6#5) 0 0 rfl,
    reads (.addImm 3#5 4#5 0x3FF#10 0#5) 0 0 rfl, reads (.ldD 7#5 8#5 2#10 0#5) 0 0 rfl, reads (.stD 7#5 8#5 0x3FE#10 0#5) 0 0 rfl,
    reads (.lde 7#5 8#5 0#10 0#5) 0 0 rfl, reads (.const 2#5 0xC1#8 0#5) 0 0 rfl, reads (.send 1#5 2#5 3#5 0#5) 0 0 rfl,
    reads (.vfma 3#4 1#4 2#4 0#2 0#5) 0 0 rfl, reads (.mma 1#1 6#5 7#5 0#5) 0 0 rfl, reads (.ccopy 9#5 10#5 0#5) 0 0 rfl,
    reads (.nmstat 3#5 8#5 0#5) 0 0 rfl, ?guard, ?reserved, ?opcode⟩
  case guard =>
    refine decode_eq_none_of_candidate (o := some (.add 3#5 4#5 (.reg 5#5) 1#5)) rfl ?_
    rintro _ ⟨⟩ hwf
    cases hwf
  case reserved =>
    refine decode_eq_none_of_candidate (o := some (.const 2#5 0xC1#8 0#5)) rfl ?_
    rintro _ ⟨⟩ -
    decide
  case opcode => exact decode_eq_none_of_candidate (o := none) rfl nofun
end Sys2Proof

/-!
## Guards that are false (O28)

A form inside the chunk passes (`Act.issueTo_false`). A chunk-ending one first ends the chunk by `Act.endIdly`, which leaves an idle chunk,
hands an open one to the arbiters, or waits for the one before it (log 106).
-/

namespace Sys2Proof.Machine

/-- The thread with its open chunk at the arbiters and the next one begun (R50). -/
def Thread.handedOver (t : Thread) (co : Nat) : Thread := { t with prev := some t.chunk, chunk := t.newChunk co }

section falseGuard
variable {s : State} {t : Thread}

theorem Act.passChunk_free (hprev : t.prev = none) :
    Act.passChunk (s.withThread t) = .ok () ((s.push (.chunkCommit s.cur)).withThread (t.handedOver s.co)) := by
  have hhere := State.thread?_withThread s t
  unfold Act.passChunk
  rw [Act.get_bind, Act.me_bind hhere, if_neg (by simp [hprev]), Act.modMe_bind hhere, Act.modify_run, State.withThread_withThread]
  rfl
theorem Act.passChunk_waits (hprev : t.prev.isSome = true) : Act.passChunk (s.withThread t) = .error () (s.waits t .commit) := by
  have hhere := State.thread?_withThread s t
  unfold Act.passChunk
  rw [Act.get_bind, Act.me_bind hhere, if_pos hprev, Act.park_run hhere, State.waits_withThread]
theorem Act.endIdly_open (hs : t.settOn = none) (hidle : t.chunk.idle = false) :
    Act.endIdly (s.withThread t) = Act.passChunk (s.withThread t) := by
  unfold Act.endIdly
  rw [Act.me_bind (State.thread?_withThread s t), if_neg (by simp [hs, hidle])]

variable {fields : List (BitVec 5)} {g : BitVec 5} {f : Form} {len : Nat}

/-- No progress of the context (R104, R388): a false guard only moves the pc. -/
theorem Act.retire_ends_false (h : s.thread? s.cur = some t) : Act.retire true false len none s = .ok () (s.withThread (t.done len)) := by
  unfold Act.retire
  rw [Act.modMe_bind h, Act.me_bind (State.thread?_withThread _ _)]
  rfl

/-- Inside its chunk, a form whose guard is false passes. -/
theorem Act.go_inside_false (h : s.thread? s.cur = some t) (ho : t.Owns fields) (hr : t.Roomy) (hs : t.settOn = none)
    (hg : t.guard g = false) (onSett : Bool) (len : Nat) (body : Act (Option Nat)) :
    Act.go (Act.issueTo ⟨false, onSett⟩ len fields g body) s = .next (s.withThread (t.opened s.co len).passed) :=
  Act.go_ok (Act.issueTo_false h ho hr hg onSett (.inr hs) len body)

section ends
variable (h : s.thread? s.cur = some t) (hs : t.settOn = none) (ho : ∀ r ∈ fields, t.beyond r = false) (hg : t.guard g = false)
  (hf : f.ends = true) (hidle : t.chunk.idle = false)
include h hs ho hg hf hidle

/-- Before a chunk-ending form whose guard is false, an open chunk is only passed on (log 106). -/
theorem Act.begin_false_open : Act.begin f len fields (fun t => t.guard g) s = Act.passChunk (s.withThread (t.begun len)) := by
  have hb : fields.any t.beyond = false := by simpa using ho
  have hend := Act.endIdly_open (s := s) (t := t.begun len) hs hidle
  unfold Act.begin
  rw [Act.me_bind h, Act.modMe_bind h, hs, hb, hf]
  simp only [Option.isSome_none, Bool.false_and, Bool.true_or, Bool.false_eq_true, if_false, if_true, hg]
  exact hend

theorem Act.issueTo_false_free (hprev : t.prev = none) (body : Act (Option Nat)) :
    Act.issueTo f len fields g body s = .ok () ((s.push (.chunkCommit s.cur)).withThread (((t.begun len).handedOver s.co).done len)) := by
  have hpass := (Act.begin_false_open (len := len) h hs ho hg hf hidle).trans (Act.passChunk_free hprev)
  have hhere := State.thread?_withThread (s.push (.chunkCommit s.cur)) ((t.begun len).handedOver s.co)
  have hg' : ((t.begun len).handedOver s.co).guard g = false := hg
  unfold Act.issueTo
  rw [Act.bind_ok hpass, Act.me_bind hhere, hg', if_neg Bool.false_ne_true, Act.pure_bind', hf, Bool.true_or]
  exact (Act.retire_ends_false hhere).trans (congrArg _ (State.withThread_withThread ..))

theorem Act.issueTo_false_waits (hprev : t.prev.isSome = true) (body : Act (Option Nat)) :
    Act.issueTo f len fields g body s = .error () (s.waits (t.begun len) .commit) :=
  Act.bind_error ((Act.begin_false_open h hs ho hg hf hidle).trans (Act.passChunk_waits hprev))

end ends

/-- What a chunk-ending form does whose guard is false (R104, log 106). -/
theorem Act.go_ends_false (h : s.thread? s.cur = some t) (hs : t.settOn = none) (hg : t.guard g = false)
    (ho : ∀ r ∈ fields, t.beyond r = false) (hf : f.ends = true) (len : Nat) (body : Act (Option Nat)) :
    let t' := t.begun len
    Act.go (Act.issueTo f len fields g body) s = .next (
      if t.chunk.idle then s.withThread (t'.done len)
      else if t.prev.isSome then s.waits t' .commit
      else (s.withThread ((t'.handedOver s.co).done len)).push (.chunkCommit s.cur)) := by
  cases hidle : t.chunk.idle with
  | true => exact Act.go_ok (Act.issueTo_closed_false h hs ho hg hidle f (by simp [hf]) body)
  | false =>
    cases hprev : t.prev with
    | none => exact Act.go_ok (Act.issueTo_false_free h hs ho hg hf hidle hprev body)
    | some c => exact Act.go_error (Act.issueTo_false_waits h hs ho hg hf hidle (hprev ▸ rfl) body)
end falseGuard

/-- Settles O28: whatever its body, a form whose guard is false passes inside the chunk, or ends the chunk idly. -/
theorem falseGuards : Obligations.FalseGuards := by
  unfold Obligations.FalseGuards
  intro s t d a b i o v r g hg hs h
  refine ⟨fun ho hr => ?_, ?_⟩
  · have hpass {fields : List (BitVec 5)} (hf : fields ⊆ d :: a :: b.fields) :=
      Act.go_inside_false h (ho.sub hf) hr hs hg
    have hab : a :: b.fields ⊆ d :: a :: b.fields := List.subset_cons_self ..
    have hda : [d, a] ⊆ d :: a :: b.fields := by simp
    have hd : [d] ⊆ d :: a :: b.fields := by simp
    have ha : [a] ⊆ d :: a :: b.fields := by simp
    simp only [List.forall_mem_cons]
    exact ⟨hpass (List.Subset.refl _) .., hpass hab .., hpass hda .., hpass (List.Subset.refl _) .., hpass (List.nil_subset _) ..,
      hpass (List.Subset.refl _) .., hpass (List.nil_subset _) .., hpass hd .., hpass hda .., hpass hda .., hpass hd .., hpass ha .., nofun⟩
  · have hends {fields : List (BitVec 5)} {f : Form} := Act.go_ends_false (fields := fields) (f := f) h hs hg
    iterate 7 refine List.forall_mem_cons.2 ⟨fun ho => hends ho rfl .., ?_⟩
    exact List.forall_mem_nil _
end Sys2Proof.Machine

/-!
## Integer, bit-field, compare and predicate forms (O1 to O3)

Each form is one of the shapes of `Laws/Scalar.lean` with its own function; the lemmas here say what those functions give.
-/

namespace Sys2Proof.Machine

/-! ### The choice of an operand by order (R130) -/

theorem ite_slt {x y u v : Word} : (if x.slt y then u else v) = if x.toInt < y.toInt then u else v := by
  simp only [BitVec.slt_eq_decide, decide_eq_true_eq]
theorem ite_ult {x y u v : Word} : (if x.ult y then u else v) = if x.toNat < y.toNat then u else v := by
  simp only [BitVec.ult_eq_decide, decide_eq_true_eq]

/-! ### The shapes, run -/

section shapes
variable {s : State} {t : Thread} {d a : BitVec 5} {b : Src} {i : BitVec 10} {k : BitVec 4} {g : BitVec 5}

theorem Act.go_op2 (h : Inside s t (d :: a :: b.fields) g) (hf : t.Holds (a :: b.fields)) {f : Word → Word → Word} {v : Word}
    (hv : f (t.val a) (t.source b) = v) : Act.go (Act.op2 d a b g f) s = .next (s.withThread (t.wrote s.co b.len d v)) :=
  hv ▸ Act.go_ok (Act.op2_inside h hf f)
theorem Act.go_op1 (h : Inside s t (d :: b.fields) g) (hf : t.Holds b.fields) {f : Word → Word} {v : Word} (hv : f (t.source b) = v) :
    Act.go (Act.op1 d b g f) s = .next (s.withThread (t.wrote s.co b.len d v)) :=
  hv ▸ Act.go_ok (Act.op1_inside h hf f)
theorem Act.go_cmp (h : Inside s t (a :: b.fields) g) (hf : t.Holds (a :: b.fields)) {f : Word → Word → Bool} {v : Bool}
    (hv : f (t.val a) (t.source b) = v) :
    Act.go (Act.cmp k a b g f) s = .next (s.withThread ((t.opened s.co b.len).setPred k v).passed) :=
  hv ▸ Act.go_ok (Act.cmp_inside h hf f)
theorem Act.go_cmpI (h : Inside s t [a] g) (hf : t.Holds [a]) {f : Word → Word → Bool} {v : Bool}
    (hv : f (t.val a) (i.signExtend 64) = v) :
    Act.go (Act.cmpI k a i g f) s = .next (s.withThread ((t.opened s.co 4).setPred k v).passed) :=
  hv ▸ Act.go_ok (Act.cmpI_inside h hf f)

end shapes

/-- Settles O1: the meaning of each form is a shape with its function, and the function is the stated one but for MIN and MAX, which ask
the machine's own order. -/
theorem integerAndImmediateResults : Obligations.IntegerAndImmediateResults := by
  unfold Obligations.IntegerAndImmediateResults
  constructor
  · intro s t d a b g h hf x y n
    have run {f : Word → Word → Word} {v : Word} := Act.go_op2 (f := f) (v := v) h hf
    simp only [List.forall_mem_cons]
    exact ⟨run rfl, run rfl, run rfl, run rfl, run rfl, run rfl, run rfl, run rfl, run rfl, run ite_slt, run ite_ult, run ite_slt, run ite_ult,
      run rfl, run rfl, run rfl, run rfl, run rfl, run rfl, run rfl, run rfl, List.forall_mem_nil _⟩
  · intro s t d a i g x y n
    refine ⟨fun h hf => ?_, execMovImm_inside⟩
    have run (f : Word → Word → Word) := Act.go_ok (Act.opI_inside (i := i) h hf f)
    simp only [List.forall_mem_cons]
    exact ⟨run _, run _, run _, run _, run _, run _, run _, run _, run _, List.forall_mem_nil _⟩

/-! ### Counts of bits (R133) -/

section counts
variable {y : Word}

theorem countLead_zero : countLead 0#64 = 64#64 := rfl

theorem Word.toNat_ne_zero (h : y ≠ 0#64) : y.toNat ≠ 0 := fun h0 => h (BitVec.eq_of_toNat_eq h0)
/-- The leading zeros stand above the first bit that is set. -/
theorem toNat_countLead (h : y ≠ 0#64) : (countLead y).toNat = 63 - y.toNat.log2 := by
  unfold countLead
  rw [if_neg h, BitVec.toNat_ofNat, Nat.mod_eq_of_lt (by omega)]
theorem log2_lt (h : y ≠ 0#64) : y.toNat.log2 < 64 := (Nat.log2_lt (Word.toNat_ne_zero h)).2 y.isLt

theorem countLead_le (y : Word) : (countLead y).toNat ≤ 64 := by
  by_cases h : y = 0#64
  · subst h; decide
  · rw [toNat_countLead h]; omega
theorem getLsbD_above_countLead {j : Nat} (hj : 64 - (countLead y).toNat ≤ j) : y.getLsbD j = false := by
  by_cases h : y = 0#64
  · subst h; exact BitVec.getLsbD_zero
  · rw [toNat_countLead h] at hj
    have hlog := log2_lt h
    rw [← BitVec.testBit_toNat]
    exact Nat.testBit_lt_two_pow (Nat.lt_of_lt_of_le Nat.lt_log2_self (Nat.pow_le_pow_right (by omega) (by omega)))
theorem getLsbD_at_countLead (h : y ≠ 0#64) : y.getLsbD (63 - (countLead y).toNat) = true := by
  have hlog := log2_lt h
  rw [toNat_countLead h, Nat.sub_sub_self (by omega), ← BitVec.testBit_toNat]
  exact Nat.testBit_log2 (Word.toNat_ne_zero h)

/-- CTZ names the first bit that is set, or 64. -/
theorem countTrail_cases (y : Word) : (y = 0#64 ∧ (countTrail y).toNat = 64) ∨
    ((countTrail y).toNat < 64 ∧ y.getLsbD (countTrail y).toNat = true ∧ ∀ j < (countTrail y).toNat, y.getLsbD j = false) := by
  unfold countTrail
  cases hfind : (List.range 64).find? (fun i => y.getLsbD i) with
  | none =>
    rw [List.find?_range_eq_none] at hfind
    exact .inl ⟨BitVec.eq_of_getLsbD_eq fun i hi => by simpa using hfind i hi, rfl⟩
  | some i =>
    obtain ⟨hset, hlt, hlow⟩ := List.find?_range_eq_some.1 hfind
    have hi : i < 64 := List.mem_range.1 hlt
    have hn : (BitVec.ofNat 64 ((some i).getD 64)).toNat = i := by
      rw [Option.getD_some, BitVec.toNat_ofNat, Nat.mod_eq_of_lt (by omega)]
    rw [hn]
    exact .inr ⟨hi, hset, fun j hj => by simpa using hlow j hj⟩
theorem countTrail_zero : countTrail 0#64 = 64#64 := by
  rcases countTrail_cases 0#64 with ⟨-, h⟩ | ⟨-, hset, -⟩
  · exact BitVec.eq_of_toNat_eq h
  · rw [BitVec.getLsbD_zero] at hset
    contradiction
theorem countTrail_le (y : Word) : (countTrail y).toNat ≤ 64 := by
  rcases countTrail_cases y with ⟨-, h⟩ | ⟨h, -⟩ <;> omega
theorem getLsbD_below_countTrail {j : Nat} (hj : j < (countTrail y).toNat) : y.getLsbD j = false := by
  rcases countTrail_cases y with ⟨rfl, -⟩ | ⟨-, -, h⟩
  · exact BitVec.getLsbD_zero
  · exact h j hj
theorem getLsbD_at_countTrail (h : y ≠ 0#64) : y.getLsbD (countTrail y).toNat = true := by
  rcases countTrail_cases y with ⟨h0, -⟩ | ⟨-, hset, -⟩
  · exact absurd h0 h
  · exact hset

theorem toNat_popCount (y : Word) : (popCount y).toNat = ((List.range 64).filter (fun j => y.getLsbD j)).length := by
  have hle := List.length_filter_le (fun j => y.getLsbD j) (List.range 64)
  rw [List.length_range] at hle
  unfold popCount
  rw [BitVec.toNat_ofNat, Nat.mod_eq_of_lt (by omega)]
theorem getLsbD_bitReverse (y : Word) {j : Nat} (hj : j < 64) : (bitReverse y).getLsbD j = y.getLsbD (63 - j) := by
  unfold bitReverse
  rw [BitVec.getLsbD_reverse, BitVec.getMsbD_eq_getLsbD, decide_eq_true hj, Bool.true_and]

end counts

/-! ### Fields (R134) -/

theorem absWord_eq (y : Word) : absWord y = if y.toInt < 0 then 0 - y else y := by
  unfold absWord
  rw [ite_slt, ← BitVec.zero_sub]
  rfl
/-- The mask of a field: its bits are those of the field. -/
theorem getLsbD_fieldMask {w pos j : Nat} (hj : j < 64) :
    (BitVec.ofNat 64 ((2 ^ w - 1) * 2 ^ pos)).getLsbD j = decide (pos ≤ j ∧ j < pos + w) := by
  rw [BitVec.getLsbD_ofNat, decide_eq_true hj, Bool.true_and, Nat.testBit_mul_two_pow, Nat.testBit_two_pow_sub_one, ← Bool.decide_and,
    decide_eq_decide]
  omega
/-- INS replaces the field and keeps the other bits. -/
theorem getLsbD_insertField (d a b : Word) {j : Nat} (hj : j < 64) :
    (insertField d a b).getLsbD j =
      if fieldPos b ≤ j ∧ j < fieldPos b + fieldWidth b then a.getLsbD (j - fieldPos b) else d.getLsbD j := by
  unfold insertField
  dsimp only
  rw [BitVec.getLsbD_or, BitVec.getLsbD_and, BitVec.getLsbD_and, BitVec.getLsbD_not, getLsbD_fieldMask hj, BitVec.getLsbD_shiftLeft]
  by_cases hin : fieldPos b ≤ j ∧ j < fieldPos b + fieldWidth b
  · simp [hin, hj, Nat.not_lt.2 hin.1]
  · simp [hin, hj]

/-- Settles O2: the shapes give each form the model's function, and the functions are read off bit by bit above. -/
theorem unaryAndFieldResults : Obligations.UnaryAndFieldResults := by
  unfold Obligations.UnaryAndFieldResults
  intro s t d a b k n g x y pos w fld
  refine ⟨fun h hf => ?_, fun h hf => ⟨?_, ?_, fun hd => ⟨_, execIns_inside h ?_, fun j hj => getLsbD_insertField _ _ _ hj⟩,
    execSel_inside h hf⟩, fun j hj => getLsbD_bitReverse y hj, countLead_le y, fun j hj => getLsbD_above_countLead hj, getLsbD_at_countLead,
    countLead_zero, countTrail_zero, countTrail_le y, fun j hj => getLsbD_below_countTrail hj, getLsbD_at_countTrail, toNat_popCount y⟩
  · have run {f : Word → Word} {v : Word} := Act.go_op1 (f := f) (v := v) h hf
    simp only [List.forall_mem_cons]
    exact ⟨run rfl, run (BitVec.zero_sub _).symm, run (absWord_eq _), run rfl, run rfl, run rfl, run rfl, List.forall_mem_nil _⟩
  · exact Act.go_op2 h hf rfl
  · exact Act.go_op2 h hf rfl
  · exact List.forall_mem_cons.2 ⟨hd d (by simp), hf⟩

/-! ### Conditions and predicates (R126, R136, R142) -/

/-- What a condition of CMP asks of two words, as integers. -/
theorem Cond.holds_signed (x y : Word) :
    Cond.lt.holds x y = decide (x.toInt < y.toInt) ∧ Cond.ge.holds x y = decide (y.toInt ≤ x.toInt) ∧
    Cond.le.holds x y = decide (x.toInt ≤ y.toInt) ∧ Cond.gt.holds x y = decide (y.toInt < x.toInt) := by
  simp only [Cond.holds, BitVec.slt_eq_decide, ← decide_not, not_lt, and_self]
/-- The same for the conditions that take words as naturals. -/
theorem Cond.holds_unsigned (x y : Word) :
    Cond.lo.holds x y = decide (x.toNat < y.toNat) ∧ Cond.hs.holds x y = decide (y.toNat ≤ x.toNat) ∧
    Cond.ls.holds x y = decide (x.toNat ≤ y.toNat) ∧ Cond.hi.holds x y = decide (y.toNat < x.toNat) := by
  simp only [Cond.holds, BitVec.ult_eq_decide, ← decide_not, not_lt, and_self]

theorem Thread.getLsbD_setPred (t : Thread) (k : BitVec 4) (v : Bool) {j : Nat} (hj : j < 16) :
    (t.setPred k v).preds.getLsbD j = if j = k.toNat then v else t.preds.getLsbD j := by
  have hbit : (1#16 <<< k.toNat).getLsbD j = decide (j = k.toNat) := by
    rw [BitVec.getLsbD_shiftLeft, BitVec.getLsbD_one, Bool.eq_iff_iff]
    simp
    omega
  cases v with
  | true =>
    change (t.preds ||| 1#16 <<< k.toNat).getLsbD j = _
    rw [BitVec.getLsbD_or, hbit]
    by_cases hjk : j = k.toNat <;> simp [hjk]
  | false =>
    change (t.preds &&& ~~~(1#16 <<< k.toNat)).getLsbD j = _
    rw [BitVec.getLsbD_and, BitVec.getLsbD_not, hbit, decide_eq_true hj]
    by_cases hjk : j = k.toNat <;> simp [hjk]
theorem Thread.pred_toNat (t : Thread) (k : BitVec 4) : t.pred k.toNat = if k = 0#4 then true else t.preds.getLsbD k.toNat := by
  unfold Thread.pred
  by_cases hk : k = 0#4
  · subst hk; rfl
  · have hn : k.toNat ≠ 0 := fun h0 => hk (BitVec.eq_of_toNat_eq h0)
    rw [if_neg hk, decide_eq_false hn, Bool.false_or]

/-- Settles O3: a compare writes what its condition holds, and p0 reads as 1. -/
theorem comparesAndPredicates : Obligations.ComparesAndPredicates := by
  unfold Obligations.ComparesAndPredicates
  constructor
  · intro s t k a b i g x y z
    refine ⟨fun h hf => ?_, fun h hf => ?_, fun v j hj => Thread.getLsbD_setPred t k v hj⟩
    · have run {f : Word → Word → Bool} {v : Bool} := Act.go_cmp (k := k) (f := f) (v := v) h hf
      obtain ⟨hlt, hge, hle, hgt⟩ := Cond.holds_signed x y
      obtain ⟨hlo, hhs, hls, hhi⟩ := Cond.holds_unsigned x y
      simp only [List.forall_mem_cons]
      exact ⟨run rfl, run rfl, run hlt, run hge, run hle, run hgt, run hlo, run hhs, run hls, run hhi, List.forall_mem_nil _⟩
    · have run {f : Word → Word → Bool} {v : Bool} := Act.go_cmpI (k := k) (i := i) (f := f) (v := v) h hf
      obtain ⟨hlt, hge, hle, hgt⟩ := Cond.holds_signed x z
      obtain ⟨hlo, hhs, -, -⟩ := Cond.holds_unsigned x z
      simp only [List.forall_mem_cons]
      exact ⟨run rfl, run rfl, run hlt, run hge, run hle, run hgt, run hlo, run hhs, List.forall_mem_nil _⟩
  · intro s t d a b g h x y
    have run (q : BitVec 4) (f : Bool → Bool → Bool) := Act.go_ok (Act.pred2_inside (k := d) (p := a) (q := q) h f)
    simp only [Thread.pred_toNat] at run
    simp only [List.forall_mem_cons]
    exact ⟨run b (· && ·), run b (· || ·), run b (· != ·), run a (fun p _ => !p), run a (fun p _ => p), List.forall_mem_nil _⟩

end Sys2Proof.Machine

/-!
## Pointers, windows and transfers (O4, O5, O7)
-/

namespace Sys2Proof.Machine

section inside
variable {s s₁ : State} {t : Thread} {d a : BitVec 5} {b : Src} {o : BitVec 20} {i : BitVec 10} {g : BitVec 5}

theorem Inside.sub {fields rs : List (BitVec 5)} (h : Inside s t fields g) (hs : rs ⊆ fields) : Inside s t rs g :=
  ⟨h.here, h.owns.sub hs, h.guard, h.room⟩

/-! ### Results in range (R138 to R141) -/

/-- The bits of a pointer, or of a reference, that a step changes (R138). -/
def stepBits (x : Word) : Nat := if isRef x then 40 else 48
theorem stepPointer_ok {x : Word} {off : Int} (h0 : 0 ≤ (x.toNat % 2 ^ stepBits x : Nat) + off)
    (h1 : (x.toNat % 2 ^ stepBits x : Nat) + off < 2 ^ stepBits x) : stepPointer x off =
      .ok (BitVec.ofNat 64 (x.toNat / 2 ^ stepBits x * 2 ^ stepBits x + ((x.toNat % 2 ^ stepBits x : Nat) + off).toNat)) :=
  if_neg (not_or.2 ⟨not_lt.2 h0, not_le.2 h1⟩)
theorem stepPointer_error {x : Word} {off : Int}
    (h : (x.toNat % 2 ^ stepBits x : Nat) + off < 0 ∨ 2 ^ stepBits x ≤ (x.toNat % 2 ^ stepBits x : Nat) + off) :
    stepPointer x off = .error (0x04, x) :=
  if_pos h

theorem Act.go_op2E (h : Inside s t (d :: a :: b.fields) g) (hf : t.Holds (a :: b.fields)) {f : Word → Word → Except (Nat × Word) Word}
    {v : Word} (hv : f (t.val a) (t.source b) = .ok v) :
    Act.go (Act.op2E d a b g f) s = .next (s.withThread (t.wrote s.co b.len d v)) :=
  Act.go_ok (Act.op2E_inside h hf hv)
theorem Act.go_stepI {off : Int} (h : Inside s t [d, a] g) (hf : t.Holds [a]) {v : Word} (hv : stepPointer (t.val a) off = .ok v) :
    Act.go (Act.stepI d a off g) s = .next (s.withThread (t.wrote s.co 4 d v)) :=
  Act.go_ok (Act.stepI_inside h hf hv)

/-- Settles O4: the checks of each form pass, and what it then builds is what the model's function builds. -/
theorem pointerResults : Obligations.PointerResults := by
  unfold Obligations.PointerResults
  intro s t d a b i g x y w stepped fits
  refine ⟨fun h hf => ⟨fun hr => ?adda, fun hr => ?suba, fun hx hfmt hblk => ?ptag, fun hx hy => ?href, fun hx hy => ?lwin⟩,
    fun h hf => ⟨fun hr => ?addaImm, fun hr => ?subaImm, execPfmt_inside h hf⟩, fun h hf hy => execLwinOwn_inside h hf hy⟩
  case adda => exact Act.go_op2E h hf (stepPointer_ok hr.1 hr.2)
  case suba => exact Act.go_op2E h hf (stepPointer_ok hr.1 hr.2)
  case ptag => exact Act.go_op2E h hf ((if_neg (ne_true_of_eq_false hx)).trans
    (if_neg (not_or.2 ⟨Nat.not_lt.2 hfmt, Nat.not_lt.2 hblk⟩)))
  case href => exact Act.go_op2E h hf ((if_neg (Nat.not_le.2 hx)).trans (if_neg (Nat.not_le.2 hy)))
  case lwin => exact Act.go_op2E h hf ((if_neg (Nat.not_lt.2 hx)).trans (if_neg (Nat.not_lt.2 hy)))
  case addaImm => exact Act.go_stepI h hf (stepPointer_ok hr.1 hr.2)
  case subaImm => exact Act.go_stepI h hf (stepPointer_ok hr.1 hr.2)

/-! ### Faults (R282, R392) -/

/-- A body that faults inside the chunk, having changed nothing: the chunk ends and the trap is entered at the instruction. -/
theorem Act.issue_faults {fields : List (BitVec 5)} {len cause : Nat} {v : Word} {body : Act Unit} (h : Inside s t fields g)
    (hb : body (s.withThread (t.opened s.co len)) = (Act.fault cause v : Act Unit) (s.withThread (t.opened s.co len)))
    (hs : t.settOn = none) (hc : (s.withThread (t.opened s.co len)).commitAll s.cur = (.done, s₁)) :
    Act.go (Act.issue .plain len fields g body) s = .next (s₁.enterTrap s₁.cur cause v t.pc) :=
  Act.go_error (Act.issue_inside_stops h true (.inl rfl) len (hb.trans (Act.fault_core (Inside.now s t len) hs hc cause v)))

theorem Act.op2E_faults (h : Inside s t (d :: a :: b.fields) g) (hf : t.Holds (a :: b.fields)) (hs : t.settOn = none)
    (hc : (s.withThread (t.opened s.co b.len)).commitAll s.cur = (.done, s₁)) {f : Word → Word → Except (Nat × Word) Word} {c : Nat}
    {v : Word} (hv : f (t.val a) (t.source b) = .error (c, v)) :
    Act.go (Act.op2E d a b g f) s = .next (s₁.enterTrap s₁.cur c v t.pc) := by
  obtain ⟨-, ha, hb, hab, hd'⟩ := owns3 h.owns
  have hn := Inside.now s t b.len
  refine Act.issue_faults h ?_ hs hc
  rw [Act.ready_bind hn hf hab hd', Act.read_bind hn _ ha, Act.readSrc_bind hn _ hb, Thread.source_opened, Thread.opened_val, hv]
theorem Act.stepI_faults {off : Int} (h : Inside s t [d, a] g) (hf : t.Holds [a]) (hs : t.settOn = none)
    (hc : (s.withThread (t.opened s.co 4)).commitAll s.cur = (.done, s₁)) {c : Nat} {v : Word}
    (hv : stepPointer (t.val a) off = .error (c, v)) :
    Act.go (Act.stepI d a off g) s = .next (s₁.enterTrap s₁.cur c v t.pc) := by
  have hn := Inside.now s t 4
  have ha : isPort a = false := h.owns.port (by simp)
  have hd : isPort d = false := h.owns.port (by simp)
  refine Act.issue_faults h ?_ hs hc
  rw [Act.ready_bind hn hf (by simp [ha]) (by simp [hd]), Act.read_bind hn _ ha, Thread.opened_val, hv]
theorem execLwinOwn_faults (h : Inside s t (d :: b.fields) g) (hf : t.Holds b.fields) (hs : t.settOn = none)
    (hc : (s.withThread (t.opened s.co b.len)).commitAll s.cur = (.done, s₁)) (hy : 0xFFFF < (t.source b).toNat) :
    execLwinOwn d b g s = .next (s₁.enterTrap s₁.cur 0x04 (t.source b) t.pc) := by
  obtain ⟨-, hb, hd'⟩ := owns2 h.owns
  have hn := Inside.now s t b.len
  refine Act.issue_faults h ?_ hs hc
  rw [Act.ready_bind hn hf hb hd', Act.readSrc_bind hn _ hb, Thread.source_opened, if_pos hy]

/-- A target that R143 does not allow is the fault. -/
theorem Act.target_illegal {n : Int} (h : ¬ LegalTarget n) :
    Act.target n = Act.fault 0x01 (BitVec.ofInt 64 (2 ^ 63 + n % 2 ^ 63)) := by
  unfold Act.target
  refine if_neg fun ⟨h0, hl⟩ => h ?_
  obtain ⟨m, rfl⟩ := Int.eq_ofNat_of_zero_le h0
  simp only [legalTarget, windowOf, Bool.and_eq_true, decide_eq_true_eq, Int.toNat_natCast] at hl
  obtain ⟨⟨hlt, hmod⟩, hwin⟩ := hl
  have hwin := of_decide_eq_true hwin
  unfold LegalTarget
  omega
/-- Whatever would follow the check of a target that is not allowed. -/
theorem Act.target_faults {α : Type} {len : Nat} {n : Int} (hs : t.settOn = none)
    (hc : (s.withThread (t.opened s.co len)).commitAll s.cur = (.done, s₁)) (hn : ¬ LegalTarget n) (f : Nat → Act α) :
    (Act.target n >>= f) (s.withThread (t.opened s.co len)) =
      .error () (s₁.enterTrap s₁.cur 0x01 (BitVec.ofInt 64 (2 ^ 63 + n % 2 ^ 63)) t.pc) := by
  refine Act.bind_error ?_
  rw [Act.target_illegal hn]
  exact Act.fault_core (Inside.now s t len) hs hc _ _

section transfers
variable (hs : t.settOn = none)
include hs

theorem execBr_faults (h : Inside s t [] g) (hc : (s.withThread (t.opened s.co 4)).commitAll s.cur = (.done, s₁))
    (hn : ¬ LegalTarget (t.pc + 4 * o.toInt)) :
    execBr o g s = .next (s₁.enterTrap s₁.cur 0x01 (BitVec.ofInt 64 (2 ^ 63 + (t.pc + 4 * o.toInt) % 2 ^ 63)) t.pc) :=
  Act.go_error (Act.issueTo_inside_stops h true (.inl rfl) 4 ((Act.me_bind (Inside.now s t 4) _).trans (Act.target_faults hs hc hn _)))
theorem execCall_faults (h : Inside s t [] g) (hc : (s.withThread (t.opened s.co 4)).commitAll s.cur = (.done, s₁))
    (hn : ¬ LegalTarget (t.pc + 4 * o.toInt)) :
    execCall o g s = .next (s₁.enterTrap s₁.cur 0x01 (BitVec.ofInt 64 (2 ^ 63 + (t.pc + 4 * o.toInt) % 2 ^ 63)) t.pc) :=
  Act.go_error (Act.issueTo_inside_stops h true (.inl rfl) 4 ((Act.me_bind (Inside.now s t 4) _).trans (Act.target_faults hs hc hn _)))
theorem execJmp_faults (h : Inside s t b.fields g) (hf : t.Holds b.fields)
    (hc : (s.withThread (t.opened s.co b.len)).commitAll s.cur = (.done, s₁)) (hn : ¬ LegalTarget (t.source b).toNat) :
    execJmp b g s = .next (s₁.enterTrap s₁.cur 0x01 (BitVec.ofInt 64 (2 ^ 63 + (t.source b).toNat % 2 ^ 63)) t.pc) := by
  have hb := h.owns.noPort
  have hh := Inside.now s t b.len
  refine Act.go_error (Act.issueTo_inside_stops h true (.inl rfl) b.len ?_)
  rw [Act.ready_bind hh hf hb (by simp), Act.readSrc_bind hh _ hb, Thread.source_opened]
  exact Act.target_faults hs hc hn _
theorem execCallr_faults (h : Inside s t (d :: b.fields) g) (hf : t.Holds b.fields)
    (hc : (s.withThread (t.opened s.co b.len)).commitAll s.cur = (.done, s₁)) (hn : ¬ LegalTarget (t.source b).toNat) :
    execCallr d b g s = .next (s₁.enterTrap s₁.cur 0x01 (BitVec.ofInt 64 (2 ^ 63 + (t.source b).toNat % 2 ^ 63)) t.pc) := by
  obtain ⟨-, hb, -⟩ := owns2 h.owns
  have hh := Inside.now s t b.len
  refine Act.go_error (Act.issueTo_inside_stops h true (.inl rfl) b.len ?_)
  rw [Act.ready_bind hh hf hb (by simp), Act.me_bind hh, Act.readSrc_bind hh _ hb, Thread.source_opened]
  exact Act.target_faults hs hc hn _
theorem execLoop_faults (h : Inside s t [d] g) (hf : t.Holds [d]) (hx : t.val d - 1#64 ≠ 0#64)
    (hc : (s.withThread (t.opened s.co 4)).commitAll s.cur = (.done, s₁)) (hn : ¬ LegalTarget (t.pc + 4 * i.toInt)) :
    execLoop d i g s = .next (s₁.enterTrap s₁.cur 0x01 (BitVec.ofInt 64 (2 ^ 63 + (t.pc + 4 * i.toInt) % 2 ^ 63)) t.pc) := by
  have hd := h.owns.noPort
  have hh := Inside.now s t 4
  refine Act.go_error (Act.issueTo_inside_stops h true (.inl rfl) 4 ?_)
  rw [Act.ready_bind hh hf hd (by simp), Act.me_bind hh, Act.read_bind hh _ (h.owns.port (by simp)), Thread.opened_val, if_neg hx]
  exact Act.target_faults hs hc hn _

end transfers
end inside

/-- Settles O5: each form's check fails before anything is written, and the fault ends the chunk as it stands. -/
theorem pointerAndTargetFaults : Obligations.PointerAndTargetFaults := by
  unfold Obligations.PointerAndTargetFaults
  constructor
  · intro s s₁ t d a b i g hs x y w leaves faults
    refine ⟨fun h hf hc => ?_, fun h hf hc => ⟨fun hl => ?_, fun hl => ?_⟩, fun h hf hc hy => execLwinOwn_faults h hf hs hc hy⟩
    · have run {f : Word → Word → Except (Nat × Word) Word} {c : Nat} {v : Word} := Act.op2E_faults (f := f) (c := c) (v := v) h hf hs hc
      refine ⟨fun hl => ?adda, fun hl => ?suba, fun hx => ?reference, fun hx hy => ?codes, fun hx => ?handle, fun hx hy => ?offset,
        fun hx => ?core, fun hx hy => ?address⟩
      case adda => exact run (stepPointer_error hl)
      case suba => exact run (stepPointer_error hl)
      case reference => exact run (if_pos hx)
      case codes => exact run ((if_neg (ne_true_of_eq_false hx)).trans (if_pos hy))
      case handle => exact run (if_pos hx)
      case offset => exact run ((if_neg (Nat.not_le.2 hx)).trans (if_pos hy))
      case core => exact run (if_pos hx)
      case address => exact run ((if_neg (Nat.not_lt.2 hx)).trans (if_pos hy))
    · exact Act.stepI_faults h hf hs hc (stepPointer_error hl)
    · exact Act.stepI_faults h hf hs hc (stepPointer_error hl)
  · intro s s₁ t d b o i g hs faults near back y
    exact ⟨fun h hn hc => ⟨execBr_faults hs h hc hn, execCall_faults hs h hc hn⟩,
      fun h hf hn hc => ⟨execJmp_faults hs (h.sub (List.subset_cons_self ..)) hf hc hn, execCallr_faults hs h hf hc hn⟩,
      fun h hf hx hn hc => execLoop_faults hs h hf hx hc hn⟩

/-- Settles O7: a target that R143 allows is gone to, after the link or the count is written. -/
theorem transferResults : Obligations.TransferResults := by
  unfold Obligations.TransferResults
  intro s t d b o i g near back y x
  exact ⟨fun h hn => ⟨execBr_inside h hn, execCall_inside h hn⟩, execJmp_inside, execCallr_inside,
    fun h hf => ⟨execLoop_over h hf, execLoop_taken h hf⟩⟩

end Sys2Proof.Machine

/-!
## The FP32 forms (O6)
-/

namespace Sys2Proof.Machine

section floats
variable {s : State} {t : Thread} {d a : BitVec 5} {b : Src} {k : BitVec 4} {g : BitVec 5}

/-- NV of a comparison, as a condition on its operands (R61, R147). -/
theorem cmpFlags_eq (x y : FV) : cmpFlags x y = if x = .nan true ∨ y = .nan true then flagNV else 0#6 := by
  unfold cmpFlags
  simp only [Bool.or_eq_true, decide_eq_true_eq]
/-- The bits of FFLAGS that a form may set (R68): NX, UF, OF and NV. -/
theorem getLsbD_stickyMask (j : Nat) : (0x17#6).getLsbD j = decide (j ∈ [0, 1, 2, 4]) := by
  by_cases hj : j < 6
  · interval_cases j <;> rfl
  · rw [BitVec.getLsbD_of_ge _ _ (by omega), eq_comm, decide_eq_false_iff_not]
    simp only [List.mem_cons, List.not_mem_nil, or_false]
    omega
theorem Thread.getLsbD_flagged (t : Thread) (f : Flags) (j : Nat) :
    (t.flagged f).fflags.getLsbD j = (t.fflags.getLsbD j || (decide (j ∈ [0, 1, 2, 4]) && f.getLsbD j)) := by
  change (t.fflags ||| (f &&& 0x17#6).setWidth 64).getLsbD j = _
  rw [BitVec.getLsbD_or, BitVec.getLsbD_setWidth, BitVec.getLsbD_and, getLsbD_stickyMask]
  by_cases hj : j < 64
  · rw [decide_eq_true hj, Bool.true_and, Bool.and_comm (f.getLsbD j)]
  · rw [BitVec.getLsbD_of_ge f j (by omega)]
    simp

theorem Act.go_fcvt (h : Inside s t (d :: b.fields) g) (hf : t.Holds b.fields) {f : Bool → Bool → Word → Word × Flags} {r : Word × Flags}
    (hr : f t.fz t.sat (t.source b) = r) :
    Act.go (Act.fcvt d b g f) s = .next (s.withThread (((t.opened s.co b.len).flagged r.2).setReg d.toNat r.1).passed) :=
  hr ▸ Act.go_ok (Act.fcvt_inside h hf f)

end floats

/-- Settles O6: each form is a shape with its function of exact values, which are the ones stated once fz has been applied. -/
theorem floatResults : Obligations.FloatResults := by
  unfold Obligations.FloatResults
  intro s t d a k b m g fz sat f32 x y b64 low rnd widened toInt gives
  refine ⟨fun h hf => ⟨?_, fun hd => execFfma_inside h (List.forall_mem_cons.2 ⟨hd d (by simp), hf⟩)⟩, fun h hf => ?_,
    fun h hf => ?_, fun f j => Thread.getLsbD_flagged t f j⟩
  · have run (f : FV → FV → FV) := Act.go_ok (Act.fop_inside h hf f)
    have pick (big : Bool) := Act.go_ok (Act.fpick_inside big h hf)
    simp only [List.forall_mem_cons]
    exact ⟨run FV.add, run fun x y => x.add y.negate, run FV.mul, pick false, pick true, List.forall_mem_nil _⟩
  · have run (c : FCond) := Act.go_ok (Act.fcmp_inside (k := k) c h hf)
    simp only [cmpFlags_eq] at run
    simp only [List.forall_mem_cons]
    exact ⟨run .eq, run .ne, run .lt, run .le, run .gt, run .ge, run .un, run .or, List.forall_mem_nil _⟩
  · have run {f : Bool → Bool → Word → Word × Flags} {r : Word × Flags} := Act.go_fcvt (f := f) (r := r) h hf
    simp only [List.forall_mem_cons]
    exact ⟨run rfl, run rfl, run rfl, run rfl, run rfl, run rfl, run rfl, run rfl, run rfl, run rfl, run rfl, List.forall_mem_nil _⟩

end Sys2Proof.Machine

/-!
## The constant window and the ports (O27)
-/

namespace Sys2Proof.Machine

/-! ### CONST (R137) -/

theorem Thread.ilen_setReg (t : Thread) (k : Nat) (v : Word) : (t.setReg k v).ilen = t.ilen := rfl
theorem Thread.ilen_noteRead (t : Thread) (loc : Nat) (p : Option Nat) : (t.noteRead loc p).ilen = t.ilen := by
  unfold Thread.noteRead
  split <;> rfl
/-- A read that is noted takes no place in the chunk. -/
theorem Thread.room_noteRead {t : Thread} (h : t.settOn.isSome = true ∨ t.chunk.count + 1 < t.limit) (loc : Nat) (p : Option Nat) :
    (t.noteRead loc p).settOn.isSome = true ∨ (t.noteRead loc p).chunk.count + 1 < (t.noteRead loc p).limit := by
  unfold Thread.noteRead
  split <;> exact h
theorem Thread.room_setReg {t : Thread} (h : t.settOn.isSome = true ∨ t.chunk.count + 1 < t.limit) (k : Nat) (v : Word) :
    (t.setReg k v).settOn.isSome = true ∨ (t.setReg k v).chunk.count + 1 < (t.setReg k v).limit := h

theorem execConst_inside {s : State} {t : Thread} {d : BitVec 5} {n : BitVec 8} {g : BitVec 5} (h : Inside s t [d] g) (hs : t.settOn = none)
    (hso : t.solo = false) (ho : s.owned (localLoc t.core (8 * n.toNat) / 64) = false)
    (hp : s.poisoned (localLoc t.core (8 * n.toNat)) = false) :
    execConst d n g s = .next (s.withThread (((t.opened s.co 4).noteRead (localLoc t.core (8 * n.toNat)) none).setReg d.toNat
      (BitVec.ofNat 64 (s.see t (15 * 2 ^ 44 + 8 * n.toNat) (localLoc t.core (8 * n.toNat)) 8))).passed) := by
  have hn := Inside.now s t 4
  have hd : isPort d = false := h.owns.port (by simp)
  refine Act.go_ok (Act.plain h ?_ ?_ ?_)
  · rw [Act.me_bind hn]
    rw [Thread.opened_settOn, hs]
    refine (Act.claim_bind hn (by simpa using hso) ho _ _).trans ?_
    refine (Act.clean_bind hn (isHbm_localLoc _ _) hp _).trans ?_
    rw [Act.get_bind]
    refine (Act.modMe_bind hn _ _).trans ?_
    refine (Act.write_reg (State.thread?_withThread _ _) hd _).trans ?_
    simp only [State.withThread_withThread, State.see_withThread, State.see_opened]
    rfl
  · rw [Thread.ilen_setReg, Thread.ilen_noteRead, Thread.opened_ilen]
  · exact Thread.room_setReg (Thread.room_noteRead (h.opened 4) _ _) _ _

/-! ### A thread whose chunk has ended -/

theorem State.commitAll_ended {s : State} {t : Thread} (h : s.thread? s.cur = some t) (he : t.Ended) : s.commitAll s.cur = (.done, s) := by
  obtain ⟨hprev, hidle⟩ := he
  unfold State.commitAll
  rw [h]
  simp only [hprev, hidle, if_true]
/-- The state past an instruction is the same whatever the thread was written as before. -/
theorem State.pastEnd_withThread (s : State) (u t : Thread) (len : Nat) :
    (s.withThread u).pastEnd t len = s.pastEnd t len := by
  unfold State.pastEnd
  rw [State.withThread_withThread]

/-! ### MOV and MOV.CTL to a downstream port (R95, R126, R355) -/

/-- The shape of MOV and MOV.CTL to a port, with the control bit that the word takes. -/
def Act.moveTo (port : BitVec 5) (b : Src) (ctl : Bool) (g : BitVec 5) : Act Unit :=
  Act.issue .plain b.len (port :: b.fields) g (do
    Act.ready b.fields [port]
    let y ← Act.readSrc [] b
    Act.pop b.fields
    Act.writeCtl port y ctl)

/-- MOV.CTL to the port that its field names, and MOV to the same one, with their control bits. -/
theorem exec_moveForms (o : BitVec 1) (b : Src) (g : BitVec 5) :
    ∀ p ∈ ([(.movCtl o b g, true), (.mov (if o = 0#1 then 30#5 else 31#5) b g, false)] : List (Instr × Bool)),
      exec p.1 = Act.go (Act.moveTo (if o = 0#1 then 30#5 else 31#5) b p.2 g) := by
  simp only [List.forall_mem_cons]
  exact ⟨rfl, rfl, List.forall_mem_nil _⟩

section push
variable {s s₁ : State} {t : Thread} {port : BitVec 5} {b : Src} {ctl : Bool} {g : BitVec 5}
  (h : Closed s s₁ t (port :: b.fields) b.len g) (hport : isPort port = true)
include h hport

theorem Act.moveTo_noTarget (hs : t.settOn = none) (he : t.Ended) (hf : t.Holds b.fields)
    (htarget : s₁.portTarget t.core port.toNat = none) :
    Act.go (Act.moveTo port b ctl g) s = .next (s₁.enterTrap s₁.cur 0x15 (port.setWidth 64) t.pc) := by
  refine Act.go_error (Act.issue_stops h .plain (by simp [hport]) (Act.bind_error ?_))
  refine (Act.bind_ok (Act.needAll_full h.here _ hf)).trans (Act.bind_error ?_)
  refine (Act.me_bind h.here _).trans ?_
  rw [if_pos hport, Act.get_bind, htarget]
  exact Act.bind_error (Act.fault_core h.here hs (State.commitAll_ended h.here he) _ _)

variable {q : Nat} (htarget : s₁.portTarget t.core port.toNat = some q)
include htarget

theorem Act.moveTo_full (hf : t.Holds b.fields) (hfull : 4 ≤ s₁.portLoad q (port.toNat - 2)) :
    Act.go (Act.moveTo port b ctl g) s = .next (s₁.waits t (.portOut port.toNat)) := by
  refine Act.go_error (Act.issue_stops h .plain (by simp [hport]) (Act.bind_error ?_))
  refine (Act.bind_ok (Act.needAll_full h.here _ hf)).trans (Act.bind_error ?_)
  refine (Act.me_bind h.here _).trans ?_
  rw [if_pos hport, Act.get_bind, htarget]
  dsimp only
  rw [if_pos hfull]
  exact Act.bind_error (Act.park_run h.here _)
theorem Act.moveTo_sends (hf : t.Holds b.fields) (hb : b.fields.any isPort = false) (hroom : ¬ 4 ≤ s₁.portLoad q (port.toNat - 2)) :
    Act.go (Act.moveTo port b ctl g) s =
      .next ((s₁.sendWord q (port.toNat - 2) (t.source b) ctl (sideOf t.core q)).pastEnd t b.len) := by
  have hneedRoom : Act.needRoom [port] s₁ = .ok () s₁ := by
    refine (Act.me_bind h.here _).trans ?_
    rw [if_pos hport, Act.get_bind, htarget]
    dsimp only
    rw [if_neg hroom]
    rfl
  have hready : Act.ready b.fields [port] s₁ = .ok () s₁ := by
    unfold Act.ready
    rw [Act.bind_ok (Act.needAll_full h.here _ hf), Act.bind_ok hneedRoom, Act.needWords_regs s₁ hb]
  refine Act.go_ok (Act.issue_closed h .plain (by simp [hport]) ?_ h.here)
  rw [Act.bind_ok hready, Act.readSrc_bind h.here _ hb, Act.pop_bind _ hb]
  unfold Act.writeCtl
  rw [Act.me_bind h.here, if_pos hport, Act.modify_run, State.pushPort, htarget]
/-- Whether the word leaves or waits is a matter of the room at its target. -/
theorem Act.moveTo_target (hf : t.Holds b.fields) (hb : b.fields.any isPort = false) :
    Act.go (Act.moveTo port b ctl g) s = .next (
      if 4 ≤ s₁.portLoad q (port.toNat - 2) then s₁.waits t (.portOut port.toNat)
      else (s₁.sendWord q (port.toNat - 2) (t.source b) ctl (sideOf t.core q)).pastEnd t b.len) := by
  split
  · next hfull => exact Act.moveTo_full h hport htarget hf hfull
  · next hroom => exact Act.moveTo_sends h hport htarget hf hb hroom

end push

/-! ### A word on its way (R356) -/

theorem State.timers_sendWord (s : State) (q n : Nat) (v : Word) (ctl : Bool) (side : Nat) :
    ∃ first rest, s.timers = first ++ rest ∧
      (s.sendWord q n v ctl side).timers = first ++ (s.cycle + 2, .portWordDelivery q (n + 32 * side) v ctl) :: rest :=
  ⟨_, _, (List.prefix_iff_eq_append.1 (List.takeWhile_prefix _)).symm, rfl⟩

theorem State.sendWord_only_timers (s : State) (q n : Nat) (v : Word) (ctl : Bool) (side : Nat) :
    { s.sendWord q n v ctl side with timers := s.timers } = s := rfl
theorem State.mem_timers_sendWord (s : State) (q n : Nat) (v : Word) (ctl : Bool) (side : Nat) :
    (s.cycle + 2, .portWordDelivery q (n + 32 * side) v ctl) ∈ (s.sendWord q n v ctl side).timers ∧
      ∀ e ∈ s.timers, e ∈ (s.sendWord q n v ctl side).timers := by
  obtain ⟨first, rest, hold, hnew⟩ := s.timers_sendWord q n v ctl side
  rw [hold, hnew]
  refine ⟨List.mem_append_right _ List.mem_cons_self, fun e he => ?_⟩
  rcases List.mem_append.1 he with he | he
  · exact List.mem_append_left _ he
  · exact List.mem_append_right _ (List.mem_cons_of_mem _ he)

/-! ### A wake beside a change of the thread -/

theorem Tab.insert_map_insert {α : Type} (g : Nat × α → α) (k : Nat) (u v : α) (m : Tab α) :
    Tab.insert ((Tab.insert m k u).map fun e => (e.1, g e)) k v = Tab.insert (m.map fun e => (e.1, g e)) k v := by
  induction m with
  | nil => simp [Tab.insert]
  | cons e m ih =>
    obtain ⟨j, w⟩ := e
    by_cases hlt : k < j
    · simp [Tab.insert, hlt]
    · by_cases heq : k = j
      · simp [Tab.insert, heq]
      · simp [Tab.insert, hlt, heq, ih]
/-- What a wake does to a thread is lost when the thread is written after it. -/
theorem State.withThread_wakeAll_withThread (s : State) (p : Nat → Thread → Bool) (u t : Thread) :
    ((s.withThread u).wakeAll p).withThread t = (s.wakeAll p).withThread t := by
  unfold State.withThread State.wakeAll
  dsimp only
  rw [Tab.insert_map_insert (fun e : Nat × Thread => if p e.1 e.2 then e.2.wake else e.2)]

theorem State.pastEnd_wakePorts_withThread (s : State) (u t : Thread) (c len : Nat) :
    ((s.withThread u).wakePorts c).pastEnd t len = (s.wakePorts c).pastEnd t len := by
  unfold State.pastEnd State.wakePorts
  rw [State.withThread_wakeAll_withThread]

/-! ### The words that one pop takes (R95, R356, R357) -/

section pop
variable {s : State} {t : Thread} {c p : Nat}

theorem State.takes_zero : s.takes t c p 0 = [] := by
  unfold State.takes
  exact List.take_zero
/-- A word that entered the queue in this cycle is not taken. -/
theorem State.takes_new (h : (s.wordsFor t c p).length ≤ (s.core c).newWords p) (n : Nat) : s.takes t c p n = [] := by
  unfold State.takes
  dsimp only
  rw [Nat.sub_eq_zero_of_le h, List.take_zero, List.take_nil]
theorem State.takes_one {w : Word × Bool} {rest : List (Word × Bool)} (hw : s.wordsFor t c p = w :: rest)
    (h : (s.core c).newWords p < (s.wordsFor t c p).length) : s.takes t c p 1 = [w] := by
  unfold State.takes
  dsimp only
  obtain ⟨n, hn⟩ := Nat.exists_eq_succ_of_ne_zero (Nat.sub_ne_zero_of_lt h)
  rw [hn, hw, List.take_succ_cons, List.take_succ_cons, List.take_zero]
/-- Words without a control bit raise no light handler. -/
theorem State.raises_data {n : Nat} (h : ∀ w ∈ s.takes t c p n, w.2 = false) : s.raises t c p n = 0 := by
  have hnone : (s.takes t c p n).filter (·.2) = [] := List.filter_eq_nil_iff.2 fun w hw => by simp [h w hw]
  unfold State.raises
  rw [hnone]
  split
  · exact ite_self _
  · rfl
theorem State.lightRoom_none {n0 n1 : Nat} (h0 : s.raises t c 28 n0 = 0) (h1 : s.raises t c 29 n1 = 0) :
    s.lightRoom t c n0 n1 = true := by
  unfold State.lightRoom
  rw [h0, h1]
  rfl

/-- A field that names an upstream port takes one word of it: it waits while the port holds none for it. -/
theorem State.portWait_waits {r : BitVec 5} (hr : r = 28#5 ∨ r = 29#5)
    (h : (s.wordsFor t c r.toNat).length ≤ (s.core c).newWords r.toNat ∨ s.portHeld c r.toNat = true) :
    s.portWait t c (portUses 28 [r]) (portUses 29 [r]) = some r.toNat := by
  have hnone (hl : (s.wordsFor t c r.toNat).length ≤ (s.core c).newWords r.toNat) : (s.takes t c r.toNat 1).length ≠ 1 := by
    rw [State.takes_new hl]
    decide
  rcases hr with rfl | rfl
  · change s.portWait t c 1 0 = some 28
    unfold State.portWait State.lacksWords
    by_cases hk : s.portHeld c 28 = true
    · rw [if_pos ⟨by decide, hk⟩]
    · rw [if_neg (fun hh => hk hh.2), if_neg (fun hh => hh.1 rfl),
        if_pos (show (s.takes t c 28 1).length ≠ 1 from hnone (h.resolve_right hk))]
  · change s.portWait t c 0 1 = some 29
    unfold State.portWait State.lacksWords
    rw [if_neg (fun hh => hh.1 rfl)]
    by_cases hk : s.portHeld c 29 = true
    · rw [if_pos ⟨by decide, hk⟩]
    · rw [if_neg (fun hh => hk hh.2), if_neg (fun hh => hh (congrArg List.length State.takes_zero)),
        if_pos (show (s.takes t c 29 1).length ≠ 1 from hnone (h.resolve_right hk))]
/-- It takes a data word that stands there from before this cycle and is kept for nobody. -/
theorem State.portWait_goes {r : BitVec 5} {v : Word} {rest : List (Word × Bool)} (hr : r = 28#5 ∨ r = 29#5)
    (hk : s.portHeld c r.toNat = false) (hw : s.wordsFor t c r.toNat = (v, false) :: rest)
    (hnew : (s.core c).newWords r.toNat < (s.wordsFor t c r.toNat).length) :
    s.portWait t c (portUses 28 [r]) (portUses 29 [r]) = none := by
  have hone := State.takes_one hw hnew
  have hraise : s.raises t c r.toNat 1 = 0 := State.raises_data (by simp [hone])
  have hzero (q : Nat) : s.raises t c q 0 = 0 := State.raises_data (by simp [State.takes_zero])
  have hlen (q : Nat) : (s.takes t c q 0).length = 0 := congrArg List.length State.takes_zero
  have hk' : ¬ s.portHeld c r.toNat = true := by simp [hk]
  rcases hr with rfl | rfl
  · change s.portWait t c 1 0 = none
    unfold State.portWait State.lacksWords
    rw [if_neg (fun hh => hk' hh.2), if_neg (fun hh => hh.1 rfl), if_neg (fun hh => hh (congrArg List.length hone)),
      if_neg (fun hh => hh (hlen 29)), if_pos (State.lightRoom_none hraise (hzero 29))]
  · change s.portWait t c 0 1 = none
    unfold State.portWait State.lacksWords
    rw [if_neg (fun hh => hh.1 rfl), if_neg (fun hh => hk' hh.2), if_neg (fun hh => hh (hlen 28)),
      if_neg (fun hh => hh (congrArg List.length hone)), if_pos (State.lightRoom_none (hzero 28) hraise)]

end pop

/-! ### Whose word a pop takes -/

section take
variable {s : State} {u c p : Nat} {t : Thread}

theorem Thread.stashed_eq_nil_iff : t.stashed p = [] ↔ t.stash.any (fun w => decide (w.1 = p)) = false := by
  unfold Thread.stashed
  rw [List.map_eq_nil_iff, List.filter_eq_nil_iff, List.any_eq_false]
theorem State.takeWord_stash (h : s.thread? u = some t) (hs : t.stashed p ≠ []) :
    s.takeWord u c p = s.modThread u (fun t => { t with stash := t.stash.eraseP (fun w => decide (w.1 = p)) }) := by
  have hmine : t.stash.any (fun w => decide (w.1 = p)) = true := by
    rw [← Bool.not_eq_false]
    exact fun hh => hs (Thread.stashed_eq_nil_iff.2 hh)
  unfold State.takeWord
  rw [h]
  exact if_pos hmine
theorem State.takeWord_queue {w : Word × Bool} {rest : List (Word × Bool)} (h : s.thread? u = some t) (hs : t.stashed p = [])
    (hw : s.wordsFor t c p = w :: rest) :
    s.takeWord u c p = (s.modCore c (fun q => q.setQueue p rest)).wakeAll
      (fun _ t => match t.wait with
        | .portOut _ => true
        | _ => false) := by
  have hmine := Thread.stashed_eq_nil_iff.1 hs
  have hrest : ((s.core c).inQueue p).drop 1 = rest := by
    rw [State.wordsFor, hs, List.nil_append] at hw
    rw [hw, List.drop_succ_cons, List.drop_zero]
  have hcore : s.modCore c (fun q => q.setQueue p ((q.inQueue p).drop 1)) = s.modCore c (fun q => q.setQueue p rest) := by
    unfold State.modCore
    dsimp only
    rw [hrest]
  unfold State.takeWord
  rw [h, ← hcore]
  exact if_neg (ne_true_of_eq_false hmine)
/-- A pop of a data word raises nothing: threads that wait for words of the port look again. -/
theorem State.popPort_data {v : Word} {rest : List (Word × Bool)} (h : s.thread? u = some t) (hw : s.wordsFor t c p = (v, false) :: rest)
    (slot : Nat) : (s.popPort u c slot p).2 = (s.takeWord u c p).wakePorts c := by
  unfold State.popPort
  simp only [h, hw]

end take

/-! ### MOV from an upstream port (R95) -/

theorem isPort_of_upstream {p : BitVec 5} (hp : p = 28#5 ∨ p = 29#5) : isPort p = true := by
  rcases hp with rfl | rfl <;> rfl

section pull
variable {s s₁ : State} {t : Thread} {d p : BitVec 5} {g : BitVec 5} (hp : p = 28#5 ∨ p = 29#5) (hd : isPort d = false)
  (h : Closed s s₁ t [d, p] 4 g)
include hp hd h

/-- A register and a port that is read ask for the port's words only. -/
theorem Act.ready_upstream : Act.ready [p] [d] s₁ = Act.needWords [p] s₁ := by
  have hneed : Act.needAll [p] s₁ = .ok () s₁ := by
    unfold Act.needAll
    rw [if_pos (isPort_of_upstream hp)]
    rfl
  unfold Act.ready
  rw [Act.bind_ok hneed, Act.bind_ok (Act.needRoom_regs h.here [d] (by simp [hd]))]
theorem execMov_portWaits (hwait : (s₁.wordsFor t t.core p.toNat).length ≤ (s₁.core t.core).newWords p.toNat ∨
    s₁.portHeld t.core p.toNat = true) : execMov d (.reg p) g s = .next (s₁.waits t (.portIn p.toNat)) := by
  have hport := isPort_of_upstream hp
  have hready : Act.ready [p] [d] s₁ = .error () (s₁.waits t (.portIn p.toNat)) := by
    rw [Act.ready_upstream hp hd h, Act.needWords, if_pos (by simp [hport]), Act.get_bind, Act.me_bind h.here,
      State.portWait_waits hp hwait]
    exact Act.park_run h.here _
  exact Act.go_error (Act.issue_stops (len := 4) h .plain (by simp [hport]) (Act.bind_error hready))

/-- The word goes to D; `t'` is the thread once the word is taken. -/
theorem execMov_portTakes {v : Word} {rest : List (Word × Bool)} (hk : s₁.portHeld t.core p.toNat = false)
    (hw : s₁.wordsFor t t.core p.toNat = (v, false) :: rest)
    (hnew : (s₁.core t.core).newWords p.toNat < (s₁.wordsFor t t.core p.toNat).length) {s₂ : State} {t' : Thread}
    (hs₂ : (s₁.takeWord s₁.cur t.core p.toNat).wakePorts t.core = s₂) (ht' : s₂.thread? s₂.cur = some t') :
    execMov d (.reg p) g s = .next (s₂.pastEnd (t'.setReg d.toNat v) 4) := by
  have hport := isPort_of_upstream hp
  have hready : Act.ready [p] [d] s₁ = .ok () s₁ := by
    rw [Act.ready_upstream hp hd h, Act.needWords, if_pos (by simp [hport]), Act.get_bind, Act.me_bind h.here,
      State.portWait_goes hp hk hw hnew]
    rfl
  have hread : Act.readSrc [] (.reg p) s₁ = .ok v s₁ := by
    refine (Act.me_bind h.here _).trans ?_
    rw [if_pos hport, Act.get_bind, hw]
    rfl
  have hpop : Act.pop [p] s₁ = .ok () s₂ := by
    unfold Act.pop
    rw [if_pos hport]
    refine (Act.me_bind h.here _).trans ?_
    refine (Act.modify_bind _ _ _).trans ?_
    rw [State.popPort_data h.here hw, hs₂]
    rfl
  have hbody : Act.issue .plain 4 [d, p] g (do
      Act.ready [p] [d]
      let y ← Act.readSrc [] (.reg p)
      Act.pop [p]
      Act.write d y) s = .ok () ((s₂.withThread (t'.setReg d.toNat v)).pastEnd (t'.setReg d.toNat v) 4) := by
    refine Act.issue_closed h .plain (by simp [hport]) ?_ (State.thread?_withThread _ _)
    rw [Act.bind_ok hready, Act.bind_ok hread, Act.bind_ok hpop, Act.write_reg ht' hd]
  rw [State.pastEnd_withThread] at hbody
  exact Act.go_ok hbody

end pull

/-! ### PORT_WORD_DELIVERY (R356, R397) -/

theorem entryPort_add {p : Nat} (hp : p < 32) (side : Nat) : entryPort (p + 32 * side) = p := by
  unfold entryPort
  omega
theorem Core.inQueue_enqueue (q : Core) (p : Nat) (v : Word) (ctl : Bool) : (q.enqueue p v ctl).inQueue p = q.inQueue p ++ [(v, ctl)] := by
  unfold Core.enqueue Core.inQueue Core.setQueue
  dsimp only
  split <;> rfl
theorem execPortWordDelivery_live {s : State} {c p : Nat} (hp : p < 32) (hc : s.coreFenced c = false) (v : Word) (ctl : Bool) (side : Nat) :
    execPortWordDelivery c (p + 32 * side) v ctl s = .next (match s.savedReader c p with
      | some u => s.modThread u (fun t => { t with stash := t.stash ++ [(p, v, ctl)], portWait := none })
      | none => (s.modCore c (fun q => q.enqueue p v ctl)).wakePorts c) := by
  unfold execPortWordDelivery
  rw [entryPort_add hp, hc]
  rfl

/-- Settles O27: CONST, the words pushed, those in flight, those popped and those delivered, each from its own section above. -/
theorem constAndPorts : Obligations.ConstAndPorts := by
  unfold Obligations.ConstAndPorts
  intro s s₁ t d n g hs
  refine ⟨?const, ?push, ?flight, ?pull, ?delivery⟩
  case const => exact fun h hso ho hp => execConst_inside h hs hso ho hp
  case push =>
    intro b o hb hf he port p hp h
    have hport : isPort port = true := by
      change isPort (if o = 0#1 then 30#5 else 31#5) = true
      split <;> rfl
    rw [exec_moveForms o b g p hp]
    exact ⟨Act.moveTo_noTarget h hport hs he hf, fun q hq => Act.moveTo_target h hport hq hf hb⟩
  case flight =>
    intro q n v ctl side
    exact ⟨(s.mem_timers_sendWord q n v ctl side).1, (s.mem_timers_sendWord q n v ctl side).2, s.sendWord_only_timers q n v ctl side⟩
  case pull =>
    intro p hp hdlt hrun h words new
    have hd : isPort d = false := decide_eq_false (by omega)
    refine ⟨fun hwait => execMov_portWaits hp hd h hwait, fun v rest hk hw hnew => ⟨fun hst => ?_, fun hst => ?_⟩⟩
    · have hqueue := State.takeWord_queue h.here hst hw
      refine execMov_portTakes hp hd h hk hw hnew (congrArg (State.wakePorts · t.core) hqueue) ?_
      exact State.thread?_wakeAll_of (State.thread?_wakeAll_of h.here (by rw [hrun])) (by rw [hrun]; exact Bool.and_false _)
    · have hstash := State.takeWord_stash (c := t.core) h.here hst
      rw [State.modThread_here h.here] at hstash
      refine (execMov_portTakes hp hd h hk hw hnew (congrArg (State.wakePorts · t.core) hstash)
        (State.thread?_wakeAll_of (State.thread?_withThread _ _) ?_)).trans (congrArg _ (State.pastEnd_wakePorts_withThread ..))
      dsimp only
      rw [hrun]
      exact Bool.and_false _
  case delivery =>
    intro c p v ctl side hp hc
    have hexec := execPortWordDelivery_live hp hc v ctl side
    refine ⟨fun hnone => ?_, fun u t hsome ht => ?_, fun q => q.inQueue_enqueue p v ctl⟩
    · rw [hnone] at hexec
      exact hexec
    · rw [hsome] at hexec
      exact hexec.trans (congrArg _ (State.modThread_of s u _ ht))

end Sys2Proof.Machine

/-! ## Loads and stores of own local memory (O8, O9) -/

namespace Sys2Proof.Machine

/-- The bytes of a store stand among its entries, each at its own address and place. -/
theorem mem_entriesAt (n : Nat) : ∀ (va loc v k : Nat), k < n → (⟨va + k, loc + k, BitVec.ofNat 8 (v / 256 ^ k)⟩ : WEntry) ∈ entriesAt va loc v n := by
  induction n with
  | zero => intro va loc v k h; omega
  | succ n ih =>
    intro va loc v k h
    unfold entriesAt
    cases k with
    | zero => simp
    | succ k =>
      have hk := ih (va + 1) (loc + 1) (v / 256) k (by omega)
      rw [Nat.div_div_eq_div_mul, ← Nat.pow_succ'] at hk
      refine List.mem_append_left _ ?_
      convert hk using 2 <;> omega

/-- The instructions that store, with the size of what they store and whether they may travel (R153, R156). -/
def storeForms (d a : BitVec 5) (i : BitVec 10) (g : BitVec 5) : List (Instr × Nat × Bool) :=
  [(.stB d a i g, 1, false), (.stH d a i g, 2, false), (.stW d a i g, 4, false), (.stD d a i g, 8, false), (.stBMig d a i g, 1, true),
    (.stHMig d a i g, 2, true), (.stWMig d a i g, 4, true), (.stDMig d a i g, 8, true)]
theorem exec_storeForms {d a : BitVec 5} {i : BitVec 10} {g : BitVec 5} :
    ∀ p ∈ storeForms d a i g, exec p.1 = Act.go (Act.store p.2.1 p.2.2 d a i g) := by
  simp only [storeForms, List.forall_mem_cons]
  exact ⟨rfl, rfl, rfl, rfl, rfl, rfl, rfl, rfl, fun _ h => nomatch h⟩

/-- Settles O8: a load of any size takes the own-local branch of `Act.load`. -/
theorem localLoads : Obligations.LocalLoads := by
  intro s t d a i g va x h hs hso loc p hp hbase hc hfit hv hb ho hpoison r
  refine ⟨?_, fun hraw => ?_⟩
  · rw [exec_loadForms p hp]
    exact Act.go_ok (Act.load_local p.2.2 h hbase hs hso hc hfit hv hb ho hpoison)
  · show loadValue _ _ _ _ = _
    unfold loadValue
    exact if_pos hraw

/-- Settles O9: a store of any size takes the own-local branch of `Act.store`. -/
theorem localStores : Obligations.LocalStores := by
  intro s t d a i g va x h hd hs hso loc p hp hbase hc hfit hv hb ho r es htakes
  refine ⟨?_, fun hraw => ?_, mem_entriesAt _ _ _ _⟩
  · rw [exec_storeForms p hp]
    exact Act.go_ok (Act.store_local p.2.2 h hbase hd hs hso hc hfit hv hb ho htakes)
  · show storeValue _ _ _ _ _ = _
    unfold storeValue
    exact if_pos hraw

end Sys2Proof.Machine

/-! ## Armed registers and remote fills (O19) -/

namespace Sys2Proof.Machine

section ended
variable {s s₁ : State} {t : Thread} {fields sources : List (BitVec 5)} {len : Nat} {g : BitVec 5}

/-- No field of an instruction that ends its chunk names a port. -/
theorem Ends.noPort (h : Ends s s₁ t fields sources len g) {rs : List (BitVec 5)} (hsub : rs ⊆ fields) : rs.any isPort = false := by
  have hall := List.any_eq_false.1 h.regs
  exact List.any_eq_false.2 fun r hr => hall r (hsub hr)
/-- The fields of an instruction with the sources A and B name registers. -/
theorem Ends.operands {a : BitVec 5} {b : Src} (h : Ends s s₁ t fields sources len g) (hsub : a :: b.fields ⊆ fields) :
    isPort a = false ∧ b.fields.any isPort = false ∧ (a :: b.fields).any isPort = false :=
  ⟨h.port (hsub (by simp)), h.noPort fun r hr => hsub (List.mem_cons_of_mem _ hr), h.noPort hsub⟩

/-- The thread sends a request and waits for the reply that fills its register. -/
theorem Act.awaitReply_run (h : s.thread? s.cur = some t) (d : BitVec 5) (e : Event) :
    Act.awaitReply d e s = .error () ((s.push e).waits (t.awaits d) .reply) := by
  unfold Act.awaitReply
  rw [Act.modify_bind, Act.modMe_bind (s := s.push e) h, Act.park_run (State.thread?_withThread _ _), State.waits_withThread]
  rfl

end ended

/-- Settles O19: ARM changes its register alone, and RFILL sends its request. -/
theorem armAndFill : Obligations.ArmAndFill := by
  intro s s₁ t d a b g hs
  refine ⟨fun h => ?_, fun h => ?_⟩
  · have hn := Inside.now s t 4
    refine (Act.go_ok (Act.issue_inside h false (.inr hs) 4 (Act.modMe_run hn _) (State.thread?_withThread _ _) rfl (h.opened 4))).trans ?_
    rw [State.withThread_withThread, State.withThread_withThread]
    rfl
  · obtain ⟨ha, hb, hab⟩ := h.operands (a := a) (b := b) (List.subset_cons_self _ _)
    refine Act.go_error (Act.issue_stops h.toClosed .ending rfl ?_)
    rw [Act.ready_bind h.here h.full hab (by simp), Act.read_bind h.here _ ha, Act.readSrc_bind h.here _ hb, Act.pop_bind _ hab, Act.get_bind]
    exact Act.awaitReply_run h.here d _

end Sys2Proof.Machine

/-! ## The checks of an access (O12) -/

namespace Sys2Proof.Machine

section checks
variable {s s₁ : State} {t : Thread} {d a : BitVec 5} {i : BitVec 10} {g : BitVec 5} {x : Word} {size c : Nat} {v : Word}

/-- An address whose check fails is the fault. -/
theorem Act.address_error {off : Int} (h : checkAddr x off size false = .error (c, v)) (codes : Nat → Bool) :
    Act.address x off size codes = Act.fault c v := by
  unfold Act.address
  rw [h]
/-- An address that passes, through a pointer whose format code the access does not allow, is a pointer-tag fault. -/
theorem Act.address_code {off : Int} {va : Nat} {codes : Nat → Bool} (h : checkAddr x off size false = .ok va) (hc : codes (fmtOf x) = false) :
    Act.address x off size codes = Act.fault 0x03 x := by
  unfold Act.address
  rw [h]
  simp [hc]

section body
variable (mig : Bool) (h : Inside s t [d, a] g) (hs : t.settOn = none) (hf : t.Base mig a x) (hx : isRef x = false)
  (hc : (s.withThread (t.opened s.co 4)).commitAll s.cur = (.done, s₁))
  (haddr : Act.address x (i.toInt * size) size (fun c => sizeFits c size) = Act.fault c v)
include h hs hf hx hc haddr

theorem Act.load_faults : Act.go (Act.load size mig d a i g) s = .next (s₁.enterTrap s₁.cur c v t.pc) := by
  have hn := Inside.now s t 4
  refine Act.go_error (Act.issue_inside_stops h true (.inl rfl) 4 ?_)
  rw [Act.base_bind hn (Thread.base_opened hf _ _) (h.owns.port (by simp)) (by intro r hr; cases hr) (by simp), if_neg (by simp [hx]), haddr]
  exact Act.bind_error (Act.fault_core hn hs hc c v)
theorem Act.store_faults (hd : t.Holds [d]) : Act.go (Act.store size mig d a i g) s = .next (s₁.enterTrap s₁.cur c v t.pc) := by
  have hn := Inside.now s t 4
  have hmore : (t.opened s.co 4).Holds (if mig = true then [] else [d]) := by
    cases mig
    · exact hd
    · intro r hr; cases hr
  have hport : (if mig = true then [] else [d] : List (BitVec 5)).any isPort = false := by
    cases mig <;> simp [h.owns.port (r := d) (by simp)]
  refine Act.go_error (Act.issue_inside_stops h true (.inl rfl) 4 ?_)
  rw [Act.base_bind hn (Thread.base_opened hf _ _) (h.owns.port (by simp)) hmore hport, if_neg (by simp [hx]), haddr]
  exact Act.bind_error (Act.fault_core hn hs hc c v)

end body

/-! ### Where a check fails (R149) -/

theorem checkAddr_tag {off : Int} (h : badTag x = true) : checkAddr x off size false = .error (0x03, x) := by
  unfold checkAddr
  rw [if_pos h]
/-- What is left of the checks once the tag of a pointer has passed. -/
theorem checkAddr_pointer {off : Int} (hx : isRef x = false) (h : badTag x = false) : checkAddr x off size false =
    (let ea : Int := (x.toNat % 2 ^ 48 : Nat) + off
     if ea < 0 ∨ 2 ^ 48 ≤ ea then .error (0x04, x)
     else if ea.toNat % size ≠ 0 then .error (0x05, BitVec.ofNat 64 ea.toNat)
     else if straddles ea.toNat then .error (0x06, BitVec.ofNat 64 ea.toNat) else .ok ea.toNat) := by
  unfold checkAddr
  rw [if_neg (by simp [h]), if_neg (by simp [hx])]
theorem badTag_iff (hx : isRef x = false) : badTag x = true ↔ x.toNat / 2 ^ 57 % 64 ≠ 0 ∨ 12 < x.toNat / 2 ^ 52 % 32 := by
  unfold badTag
  rw [hx, Bool.not_false, Bool.true_and, Bool.or_eq_true]
  exact or_congr decide_eq_true_iff decide_eq_true_iff
theorem straddles_iff (n : Nat) : straddles n = true ↔
    (n / 2 ^ 44 = 14 ∧ (n / 2 ^ 30 % 2 ^ 14 ≠ 0 ∨ 0xC000 ≤ n % 2 ^ 16)) ∨
    (n / 2 ^ 44 = 15 ∧ (n / 2 ^ 16 % 2 ^ 28 ≠ 0 ∨ 0xC000 ≤ n % 2 ^ 16)) := by
  unfold straddles
  simp only [Bool.or_eq_true, Bool.and_eq_true]
  exact or_congr (and_congr decide_eq_true_iff (or_congr decide_eq_true_iff decide_eq_true_iff))
    (and_congr decide_eq_true_iff (or_congr decide_eq_true_iff decide_eq_true_iff))
theorem sizeFits_iff (code size : Nat) : sizeFits code size = true ↔
    code = 0 ∨ (code = 1 ∧ size = 4) ∨ ((code = 2 ∨ code = 3) ∧ size = 2) ∨ (4 ≤ code ∧ size = 1) := by
  unfold sizeFits
  split
  · simp [*]
  · split
    · simp [*]
    · split
      · rename_i h
        rcases h with rfl | rfl <;> simp
      · simp; omega

end checks

/-- Settles O12: every form runs its address through the checks before anything else, and the failing one is its fault. -/
theorem accessFaults : Obligations.AccessFaults := by
  intro s s₁ t d a i g x h hd hs hc hx p hp hf ea n faults tag escapes hole straddle code fits
  have hexec : ∀ c v, Act.address x (i.toInt * p.2.1) p.2.1 (fun c => sizeFits c p.2.1) = Act.fault c v → faults c v := by
    intro c v haddr
    change exec p.1 s = _
    rcases List.mem_append.1 hp with hp | hp
    · rw [exec_loadForms p hp]
      exact Act.load_faults p.2.2 h hs hf hx hc haddr
    · rw [exec_storeForms p hp]
      exact Act.store_faults p.2.2 h hs hf hx hc haddr hd
  have hfail : ∀ c v, checkAddr x (i.toInt * p.2.1) p.2.1 false = .error (c, v) → faults c v :=
    fun c v he => hexec c v (Act.address_error he _)
  have hrest : ¬ tag → _ := fun htag => checkAddr_pointer (size := p.2.1) (off := i.toInt * p.2.1) hx (Bool.eq_false_iff.2 fun hb => htag ((badTag_iff hx).1 hb))
  refine ⟨fun htag => hfail _ _ (checkAddr_tag ((badTag_iff hx).2 htag)), fun htag hesc => hfail _ _ ((hrest htag).trans (if_pos hesc)),
    fun htag hesc hal => hfail _ _ ((hrest htag).trans ((if_neg hesc).trans (if_pos hal))), fun htag hesc hal hstr => ?_,
    fun htag hesc hal hstr hfit => ?_⟩
  · exact hfail _ _ ((hrest htag).trans ((if_neg hesc).trans ((if_neg (not_not.2 hal)).trans (if_pos ((straddles_iff n).2 hstr)))))
  · have hok := (hrest htag).trans ((if_neg hesc).trans ((if_neg (not_not.2 hal)).trans (if_neg fun hb => hstr ((straddles_iff n).1 hb))))
    exact hexec _ _ (Act.address_code hok (Bool.eq_false_iff.2 fun hb => hfit ((sizeFits_iff _ _).1 hb)))

end Sys2Proof.Machine

/-! ## Hints, chunk ends and fences (O13) -/

namespace Sys2Proof.Machine

section hints
variable {s s₁ : State} {t : Thread} {a : BitVec 5} {b : Src} {i : BitVec 10} {g : BitVec 5}

/-- An instruction of the chunk that does nothing only passes. -/
theorem Act.issue_idle {fields : List (BitVec 5)} (h : Inside s t fields g) (onSett : Bool) (hs : onSett = true ∨ t.settOn = none) :
    Act.go (Act.issue ⟨false, onSett⟩ 4 fields g (pure ())) s = .next (s.withThread (t.opened s.co 4).passed) := by
  have hrun := Act.issue_inside h onSett hs 4 (body := pure ()) (Act.pure_run ..) (Inside.now s t 4) rfl (h.opened 4)
  rw [State.withThread_withThread] at hrun
  exact Act.go_ok hrun

/-- An open chunk that has room goes on (R49). -/
theorem Act.openChunk_going (h : s.thread? s.cur = some t) (hs : t.settOn = none) (hp : t.prev = none) (hi : t.chunk.idle = false)
    (hl : t.chunk.count < t.limit) : Act.openChunk s = .ok () (s.withThread t) := by
  unfold Act.openChunk
  rw [Act.me_bind h, if_neg (by simp [hs])]
  simp only [hp, Option.isSome_none, Bool.and_false, Bool.false_eq_true, if_false]
  rw [if_neg (Nat.not_le.2 hl), Act.get_bind, Act.modMe_run h, if_neg (by simp [hi])]

/-- CHEND of an open chunk, with none at the arbiters, hands it over and begins the next (R168). -/
theorem execChend_open (h : s.thread? s.cur = some t) (hs : t.settOn = none) (hp : t.prev = none) (hi : t.chunk.idle = false)
    (hl : t.chunk.count < t.limit) :
    let t₁ := (t.begun 4).done 4
    execChend g s = .next ((s.withThread { t₁ with prev := some t₁.chunk, chunk := t₁.newChunk s.co }).push (.chunkCommit s.cur)) := by
  intro t₁
  have hopen := Act.openChunk_going (s := s.withThread (t.begun 4)) (State.thread?_withThread _ _) hs hp hi hl
  have hbegin : Act.begin .coreOnly 4 [] (fun _ => true) s = .ok () (s.withThread (t.begun 4)) := by
    unfold Act.begin
    rw [Act.me_bind h, Act.modMe_bind h, hs]
    exact hopen.trans (by rw [State.withThread_withThread])
  refine Act.go_ok ((Act.bind_ok hbegin).trans ?_)
  refine (Act.me_bind (State.thread?_withThread _ _) _).trans ?_
  rw [if_neg (by simp [Thread.begun, hi]), if_neg (by simp [Thread.begun, hp])]
  refine (Act.modMe_bind (State.thread?_withThread _ _) _ _).trans ?_
  unfold Act.passChunk
  rw [Act.get_bind]
  refine (Act.me_bind (State.thread?_withThread _ _) _).trans ?_
  rw [if_neg (by simp [Thread.begun, hp])]
  refine (Act.modMe_bind (State.thread?_withThread _ _) _ _).trans ?_
  rw [Act.modify_run]
  simp only [State.withThread_withThread]
  rfl

theorem Act.fence_run (h : Ends s s₁ t [] [] 4 g) (scope : Nat) : Act.go (Act.fence scope g) s =
    .next (if t.attr.isSealed then s₁.pastEnd t 4 else (s₁.push (.fenceCompletion s₁.cur scope)).waits t .fence) := by
  cases hseal : t.attr.isSealed
  case true =>
    refine (Act.go_ok (Act.issue_closed h.toClosed .ending rfl ?_ h.here)).trans (by simp)
    rw [Act.me_bind h.here, hseal]
    rfl
  case false =>
    refine (Act.go_error (Act.issue_stops h.toClosed .ending rfl ?_)).trans (by simp; rfl)
    rw [Act.me_bind h.here, hseal]
    exact Act.park_run (s := s₁.push _) h.here _

theorem execXfence_empty (h : Ends s s₁ t (a :: b.fields) (a :: b.fields) b.len g) (hlen : (t.source b).toNat = 0) :
    execXfence a b g s = .next (s₁.pastEnd t b.len) := by
  obtain ⟨ha, hb, hab⟩ := h.operands (List.Subset.refl _)
  refine Act.go_ok (Act.issue_closed h.toClosed .ending rfl ?_ h.here)
  rw [Act.ready_bind h.here h.full hab (by simp), Act.read_bind h.here _ ha, Act.readSrc_bind h.here _ hb, Act.me_bind h.here,
    if_pos (BitVec.eq_of_toNat_eq hlen)]
  exact Act.pop_regs _ hab
theorem execXfence_range (h : Ends s s₁ t (a :: b.fields) (a :: b.fields) b.len g) (hlen : (t.source b).toNat ≠ 0)
    (hr : (t.val a).toNat % 2 ^ 48 + (t.source b).toNat ≤ 14 * 2 ^ 44) :
    let base := (t.val a).toNat % 2 ^ 48
    let len := (t.source b).toNat
    execXfence a b g s = .next (
      if t.attr.isSealed then
        s₁.pastEnd { t with held := t.held ++ [⟨.step (.xfenceCompletion s₁.cur t.attr.ctx base len 0), t.pc, t.val a⟩] } b.len
      else (s₁.push (.xfenceCompletion s₁.cur t.attr.ctx base len (t.stamp + 1))).waits t .xfence) := by
  intro base len
  obtain ⟨ha, hb, hab⟩ := h.operands (List.Subset.refl _)
  have hne : ¬ t.source b = 0#64 := fun h0 => hlen (by rw [h0]; rfl)
  have hglobal : globalRange base len = true := decide_eq_true hr
  have hready := Act.ready_bind (β := Unit) h.here h.full hab (ds := []) (by simp)
  cases hseal : t.attr.isSealed
  case true =>
    refine (Act.go_ok (Act.issue_closed h.toClosed .ending rfl (s₂ := s₁.withThread { t with held := t.held ++
      [⟨.step (.xfenceCompletion s₁.cur t.attr.ctx base len 0), t.pc, t.val a⟩] }) ?_ (State.thread?_withThread _ _))).trans ?_
    · rw [hready, Act.read_bind h.here _ ha, Act.readSrc_bind h.here _ hb, Act.me_bind h.here, if_neg hne]
      refine (congrFun (if_pos hglobal) _).trans ?_
      rw [Act.pop_bind _ hab, Act.get_bind, if_pos hseal]
      exact Act.modMe_run h.here _
    · rw [State.pastEnd_withThread]
      rfl
  case false =>
    refine Act.go_error (Act.issue_stops h.toClosed .ending rfl ?_)
    rw [hready, Act.read_bind h.here _ ha, Act.readSrc_bind h.here _ hb, Act.me_bind h.here, if_neg hne]
    refine (congrFun (if_pos hglobal) _).trans ?_
    rw [Act.pop_bind _ hab, Act.get_bind, hseal]
    exact Act.park_run (s := s₁.push _) h.here _

end hints

/-- Settles O13: each form's run above. -/
theorem hintsAndFences : Obligations.HintsAndFences := by
  unfold Obligations.HintsAndFences
  refine ⟨fun s t a i g hs => ⟨fun h => ?_, fun h => ?_, fun s₀ t₀ h hs hp hi hl => execChend_open (g := g) h hs hp hi hl⟩,
    fun s s₁ t a b g => ⟨fun h => ?_, fun h => ⟨execXfence_empty h, execXfence_range h⟩⟩⟩
  · exact Act.issue_idle h false (.inr hs)
  · exact Act.issue_idle h false (.inr hs)
  · simp only [List.forall_mem_cons]
    exact ⟨Act.fence_run h 0, Act.fence_run h 1, Act.fence_run h 2, List.forall_mem_nil _⟩

end Sys2Proof.Machine

/-! ## Where a checked address leads (O16, O18, O25) -/

namespace Sys2Proof.Machine

section leads
variable {s s₁ s₂ : State} {t : Thread} {va loc : Nat} {p : Perm}

/-- A form goes on at the place where its address leads, in the state that remembers the translation. -/
theorem State.Leads.run {α : Type} (h : s.Leads s₂ t va p loc) (bad : Nat → Act α) (absent : Act α) (go : Nat → Act α) :
    (match s.spot t va p false with
      | .bad c => bad c
      | .absent => absent
      | .near loc => go loc
      | .remote _ loc => go loc
      | .global e loc => (modify (fun s : State => s.useEntry e (decide (p = Perm.wr))) : Act Unit) >>= fun _ => go loc) s = go loc s₂ := by
  rcases h with ⟨hspot, rfl⟩ | ⟨c, hspot, rfl⟩ | ⟨e, hspot, rfl⟩ <;> rw [hspot]
  rfl
theorem State.here_useEntry (h : s.thread? s.cur = some t) (e : TEntry) (write : Bool) :
    (s.useEntry e write).thread? (s.useEntry e write).cur = some t := by
  unfold State.thread? at h ⊢
  rw [State.threads_useEntry, State.cur_useEntry, h]
theorem State.Leads.cur_eq (h : s.Leads s₂ t va p loc) : s₂.cur = s.cur := by
  rcases h with ⟨-, rfl⟩ | ⟨c, -, rfl⟩ | ⟨e, -, rfl⟩
  · rfl
  · rfl
  · exact State.cur_useEntry ..
theorem State.Leads.here (h : s.Leads s₂ t va p loc) (ht : s.thread? s.cur = some t) : s₂.thread? s₂.cur = some t := by
  rcases h with ⟨-, rfl⟩ | ⟨c, -, rfl⟩ | ⟨e, -, rfl⟩
  · exact ht
  · exact ht
  · exact State.here_useEntry ht ..
theorem State.here_touchPlaces (h : s.thread? s.cur = some t) (locs : List Nat) : (s.touchPlaces locs).thread? (s.touchPlaces locs).cur = some t := by
  unfold State.thread? at h ⊢
  rw [State.threads_touchPlaces, State.cur_touchPlaces, h]

/-- An access outside the chunk, to a line that no engine owns and that is not poisoned, touches it and goes on. -/
theorem Act.reach_bind {β : Type} (h : s.thread? s.cur = some t) (hs : t.settOn = none) (ho : s.owned (loc / 64) = false)
    (hp : (s.touchPlaces [loc]).poisoned loc = false) (f : Unit → Act β) :
    (Act.recall loc >>= fun _ => Act.clean va loc >>= f) s = f () (s.touchPlaces [loc]) :=
  (Act.bind_ok (Act.recall_free ho)).trans (Act.bind_ok (Act.clean_touch h hs hp))

end leads

end Sys2Proof.Machine

/-! ## Waits for an address (O18) -/

namespace Sys2Proof.Machine

/-- The issue of an instruction that ends its chunk, whose body goes on or waits by a condition. -/
theorem Act.issue_either {s s₁ s₂ s₃ : State} {t t₂ : Thread} {fields : List (BitVec 5)} {len : Nat} {g : BitVec 5}
    (h : Closed s s₁ t fields len g) (f : Form) (hf : (f.ends || fields.any isPort) = true) {body : Act Unit} {c : Bool}
    (hb : body s₁ = if c then .ok () s₂ else .error () s₃) (ht : s₂.thread? s₂.cur = some t₂) :
    Act.go (Act.issue f len fields g body) s = .next (if c then s₂.pastEnd t₂ len else s₃) := by
  cases c
  case true => exact Act.go_ok (Act.issue_closed h f hf hb ht)
  case false => exact Act.go_error (Act.issue_stops h f hf hb)

/-- The thread past a WAITA whose condition holds: the timed form writes 1 (R167). -/
def Thread.answered (t : Thread) : Option (BitVec 5) → Thread
  | some d => t.setReg d.toNat 1#64
  | none => t
/-- The state in which such a WAITA has written its answer. -/
def State.answers (s : State) (t : Thread) : Option (BitVec 5) → State
  | some d => s.withThread (t.answered (some d))
  | none => s
/-- The state in which the limit of a timed WAITA runs (R167). -/
def State.limited (s : State) (t : Thread) : Option (BitVec 5) → State
  | some d => s.after (t.val d).toNat (.waitaTimeout s.cur (t.stamp + 1))
  | none => s

section waita
variable {s s₁ s₂ : State} {t : Thread} {a : BitVec 5} {b : Src} {g : BitVec 5} {va loc : Nat}

theorem State.here_answers (h : s.thread? s.cur = some t) (timed : Option (BitVec 5)) :
    (s.answers t timed).thread? (s.answers t timed).cur = some (t.answered timed) := by
  cases timed with
  | none => exact h
  | some d => exact State.thread?_withThread ..
theorem State.pastEnd_answers (s : State) (t : Thread) (timed : Option (BitVec 5)) (len : Nat) :
    (s.answers t timed).pastEnd (t.answered timed) len = s.pastEnd (t.answered timed) len := by
  cases timed with
  | none => rfl
  | some d => exact State.pastEnd_withThread ..
theorem State.here_limited (h : s.thread? s.cur = some t) (timed : Option (BitVec 5)) :
    (s.limited t timed).thread? (s.limited t timed).cur = some t := by
  cases timed <;> exact h

/-- The limit that a timed WAITA reads is in range; the untimed form reads none. -/
theorem Act.limit_bind {timed : Option (BitVec 5)} (h : s.thread? s.cur = some t) (hport : timed.toList.any isPort = false)
    (hlim : ∀ d ∈ timed, t.val d ≠ 0#64 ∧ (t.val d).toNat < 2 ^ 32) : ∃ lim : Word,
      (timed.isSome && (decide (lim = 0#64) || decide (2 ^ 32 ≤ lim.toNat))) = false ∧ (∀ d ∈ timed, lim = t.val d) ∧
      ∀ k : Word → Act Unit, (match timed with
        | some d => Act.read [] d >>= k
        | none => (pure 1#64 : Act Word) >>= k) s = k lim s := by
  cases timed with
  | none => exact ⟨1#64, rfl, fun d hd => (nomatch hd), fun k => rfl⟩
  | some d =>
    obtain ⟨hne, hlt⟩ := hlim d rfl
    refine ⟨t.val d, ?_, fun e he => ?_, Act.read_bind h _ (by simpa using hport)⟩
    · rw [decide_eq_false hne, decide_eq_false (Nat.not_le.2 hlt)]
      rfl
    · cases he
      rfl

theorem Act.waita_run (cond : Nat) (timed : Option (BitVec 5)) (hs : t.settOn = none) (hc : checkAddr (t.val a) 0 8 false = .ok va)
    (hf : fmtOf (t.val a) = 0) (hl : s₁.Leads s₂ t va .rd loc) (ho : s₂.owned (loc / 64) = false)
    (hp : (s₂.touchPlaces [loc]).poisoned loc = false)
    (h : Ends s s₁ t (timed.toList ++ (a :: b.fields)) (a :: b.fields ++ timed.toList) b.len g)
    (hlim : ∀ d ∈ timed, t.val d ≠ 0#64 ∧ (t.val d).toNat < 2 ^ 32) :
    let s₃ := s₂.touchPlaces [loc]
    Act.go (Act.waita cond timed a b g) s = .next (
      if waitCond cond (BitVec.ofNat 64 (s₃.see t (t.spell va) loc 8)) (t.source b) then s₃.pastEnd (t.answered timed) b.len
      else (s₃.limited t timed).waits t (.addr loc va cond (t.source b) (timed.map (·.toNat)))) := by
  intro s₃
  obtain ⟨ha, hb, hab⟩ := h.operands (List.subset_append_right _ _)
  have hall : (a :: b.fields ++ timed.toList).any isPort = false :=
    h.noPort (List.append_subset.2 ⟨List.subset_append_right _ _, List.subset_append_left _ _⟩)
  have h₂ := hl.here h.here
  have h₃ : s₃.thread? s₃.cur = some t := State.here_touchPlaces h₂ _
  obtain ⟨lim, hok, hval, hread⟩ := Act.limit_bind h.here (h.noPort (List.subset_append_left _ _)) hlim
  refine (Act.issue_either h.toClosed .ending rfl (s₂ := s₃.answers t timed) ?_ (State.here_answers h₃ timed)).trans
    (by rw [State.pastEnd_answers])
  rw [Act.ready_bind h.here h.full hall (by simp), Act.read_bind h.here _ ha, Act.readSrc_bind h.here _ hb]
  refine (hread _).trans ?_
  refine (congrFun (if_neg (ne_true_of_eq_false hok)) _).trans ?_
  refine (Act.address_bind hc (by simp [hf]) _ _).trans ?_
  refine (Act.me_bind h.here _).trans ?_
  rw [Act.get_bind]
  refine (hl.run _ _ _).trans ?_
  refine (Act.reach_bind h₂ hs ho hp _).trans ?_
  rw [Act.get_bind]
  refine (Act.pop_bind _ hab _).trans ?_
  split
  · cases timed with
    | none => rfl
    | some d => exact Act.write_reg h₃ (h.port (by simp)) _
  · refine Eq.trans ?_ (Act.park_run (State.here_limited h₃ timed) _)
    cases timed with
    | none => rfl
    | some d => 
      cases hval d rfl
      rfl

end waita

/-- Settles O18: every form is `Act.waita` with its condition. -/
theorem waitaCompletes : Obligations.WaitaCompletes := by
  intro s s₁ s₂ t d a b g va loc hs hc hf hl ho s₃ hp v y
  have hcur : s₃.cur = s₁.cur := (State.cur_touchPlaces ..).trans hl.cur_eq
  have forms {cond : Nat} {c : Bool} {i it : Instr} (hi : exec i = Act.go (Act.waita cond none a b g))
      (hit : exec it = Act.go (Act.waita cond (some d) a b g)) (hcond : waitCond cond v y = c) :
      (Ends s s₁ t (a :: b.fields) (a :: b.fields) b.len g →
        exec i s = .next (if c then s₃.pastEnd t b.len else s₃.waits t (.addr loc va cond y none))) ∧
      (Ends s s₁ t (d :: a :: b.fields) (a :: b.fields ++ [d]) b.len g → t.val d ≠ 0#64 → (t.val d).toNat < 2 ^ 32 →
        exec it s = .next (if c then s₃.pastEnd (t.setReg d.toNat 1#64) b.len
          else (s₃.after (t.val d).toNat (.waitaTimeout s₁.cur (t.stamp + 1))).waits t (.addr loc va cond y (some d.toNat)))) := by
    rw [hi, hit, ← hcond, ← hcur]
    refine ⟨fun h => Act.waita_run cond none hs hc hf hl ho hp ?_ (fun d hd => nomatch hd),
      fun h hne hlt => Act.waita_run cond (some d) hs hc hf hl ho hp h fun e he => Option.some.inj he ▸ ⟨hne, hlt⟩⟩
    exact (List.append_nil (a :: b.fields)).symm ▸ h
  simp only [List.forall_mem_cons]
  exact ⟨forms rfl rfl (if_pos rfl), forms rfl rfl ((if_neg (by decide)).trans (if_pos rfl)),
    forms rfl rfl ((if_neg (by decide)).trans (if_neg (by decide))), List.forall_mem_nil _⟩

end Sys2Proof.Machine

/-! ## Atomics (O16) -/

namespace Sys2Proof.Machine

/-! ### A word committed as one event (R336) -/

section word
variable {s : State} {t : Thread} {u va loc n v : Nat}

/-- A thread with nothing buffered, and no footprint, reads committed memory. -/
theorem State.see_memory (s : State) (hw : t.chunk.writes = []) (hseal : t.attr.isSealed = false) (hs : t.settOn = none) :
    ∀ (n va loc : Nat), s.see t va loc n = s.readLoc loc n
  | 0, _, _ => rfl
  | n + 1, va, loc => by
    have hbyte : s.seeByte t va loc = Store.get s.mem loc := by
      simp [State.seeByte, Thread.over, hw, hseal, hs]
    rw [State.see, hbyte, State.see_memory s hw hseal hs n]
    rfl
/-- The write of an unsealed thread goes to memory (R336). -/
theorem State.writeFor_unsealed (h : s.thread? u = some t) (hseal : t.attr.isSealed = false) :
    s.writeFor u va loc n v = (s.commitWord loc n v).progress t.attr.ctx := by
  simp only [State.writeFor, h, hseal, Bool.false_eq_true, if_false]

/-- The bytes of a word lie in lines that show all they hold. -/
def State.Shows (s : State) (loc n : Nat) : Prop := ∀ k, k < n → isHbm (loc + k) = true → s.staleLine ((loc + k) / 64) = false

theorem State.shows_local (s : State) (c o n : Nat) : s.Shows (localLoc c o) n := by
  intro k _ hhbm
  have hplace : localLoc c o + k = localLoc c (o + k) := by unfold localLoc; omega
  rw [hplace, isHbm_localLoc] at hhbm
  exact Bool.noConfusion hhbm
theorem State.mem_commitWord (h : s.Shows loc n) :
    (s.commitWord loc n v).mem = (bytesAt loc v n).foldl (fun m w => Store.put m w.1 w.2) s.mem := by
  refine s.mem_commitBytes _ fun w hw hhbm => ?_
  obtain ⟨hlow, hhigh⟩ := bytesAt_loc hw
  obtain ⟨k, hk⟩ := Nat.exists_eq_add_of_le hlow
  rw [hk] at hhbm ⊢
  exact h k (by omega) hhbm
theorem State.readLoc_commitWord (hmem : Memory.wf s.mem) (h : s.Shows loc n) : (s.commitWord loc n v).readLoc loc n = v % 256 ^ n := by
  unfold State.readLoc
  rw [State.mem_commitWord h]
  exact Store.read_bytesAt n _ _ _ hmem
theorem State.sameBut_commitWord (h : s.Shows loc n) : SameBut s.mem (s.commitWord loc n v).mem loc n := by
  intro a ha
  rw [State.mem_commitWord h]
  exact Store.get_putFold_other (fun w hw hwa => by have := bytesAt_loc hw; omega) _

end word

/-! ### The request (R163) -/

section request
variable {s s₁ s₂ : State} {t : Thread} {d a : BitVec 5} {b : Src} {g : BitVec 5} {va loc : Nat}

/-- The size of the word of an atomic. -/
def atomicSize (op : AtomOp) : Nat := if op = .fadd then 4 else 8
/-- The register that an atomic reads beside A and B. -/
def atomicExtra (op : AtomOp) (d : BitVec 5) : List (BitVec 5) := if op = .cas then [d] else []

/-- A register that only some forms read. -/
theorem Act.maybeRead_bind (c : Prop) [Decidable c] (h : s.thread? s.cur = some t) (l : List (BitVec 5)) (hd : c → isPort d = false)
    (k : Word → Act Unit) :
    (if c then Act.read l d >>= k else (pure 0#64 : Act Word) >>= k) s = k (if c then t.val d else 0#64) s := by
  split
  · rename_i hc
    exact Act.read_bind h _ (hd hc) _
  · rfl

theorem Act.atomic_run (op : AtomOp) (hs : t.settOn = none) (h : Ends s s₁ t (d :: a :: b.fields) (a :: b.fields ++ atomicExtra op d) b.len g)
    (hc : checkAddr (t.val a) 0 (atomicSize op) false = .ok va) (hf : fmtOf (t.val a) = 0 ∨ (op = .fadd ∧ fmtOf (t.val a) = 1))
    (hl : s₁.Leads s₂ t va .wr loc) (ho : s₂.owned (loc / 64) = false) (hp : (s₂.touchPlaces [loc]).poisoned loc = false) :
    Act.go (Act.atomic op d a b g) s = .next (((s₂.touchPlaces [loc]).push (.atomicApply
      (t.access s₁.cur (.atomic op) d va loc (atomicSize op) (t.source b) (if op = .cas then t.val d else 0#64)))).waits (t.awaits d) .reply) := by
  obtain ⟨ha, hb, hab⟩ := h.operands (List.subset_cons_self _ _)
  have hd : isPort d = false := h.port (by simp)
  have hall : (a :: b.fields ++ atomicExtra op d).any isPort = false := by
    rw [List.any_append, hab]
    unfold atomicExtra
    split <;> simp [hd]
  have h₂ := hl.here h.here
  refine Act.go_error (Act.issue_stops h.toClosed .ending rfl ?_)
  refine (Act.ready_bind h.here h.full hall (by simp) _).trans ?_
  refine (Act.read_bind h.here _ ha _).trans ?_
  refine (Act.readSrc_bind h.here _ hb _).trans ?_
  refine (Act.maybeRead_bind _ h.here _ (fun _ => hd) _).trans ?_
  refine (Act.address_bind hc (by rcases hf with hf | ⟨ho, hf⟩ <;> simp [*]) _ _).trans ?_
  refine (Act.me_bind h.here _).trans ?_
  rw [Act.get_bind]
  refine (hl.run _ _ _).trans ?_
  refine (Act.reach_bind h₂ hs ho hp _).trans ?_
  refine (Act.pop_bind _ hab _).trans ?_
  exact Act.awaitReply_run (State.here_touchPlaces h₂ _) d _

/-- The atomics with their operations (R163). -/
def atomicForms (d a : BitVec 5) (b : Src) (g : BitVec 5) : List (Instr × AtomOp) :=
  [(.aadd d a b g, .add), (.aminS d a b g, .minS), (.aminN d a b g, .minN), (.amaxS d a b g, .maxS), (.amaxN d a b g, .maxN),
    (.aand d a b g, .and), (.aor d a b g, .or), (.axor d a b g, .xor), (.aswp d a b g, .swp), (.acas d a b g, .cas), (.afadd d a b g, .fadd)]
theorem exec_atomicForms : ∀ p ∈ atomicForms d a b g, exec p.1 = Act.go (Act.atomic p.2 d a b g) := by
  simp only [atomicForms, List.forall_mem_cons]
  exact ⟨rfl, rfl, rfl, rfl, rfl, rfl, rfl, rfl, rfl, rfl, rfl, List.forall_mem_nil _⟩

end request

/-! ### The event at the word's home (R163, R336) -/

section home
variable {s : State} {t : Thread} {op : AtomOp} {a : Access}

theorem State.staleLine_of_closed {line : Nat} (h : s.openLine line = false) : s.staleLine line = false := by
  unfold State.openLine at h
  exact (Bool.or_eq_false_iff.1 h).1
/-- The touch of a line that shows all it holds only marks it held (R334). -/
theorem State.touchPlaces_quiet {loc : Nat} (h : s.openLine (loc / 64) = false) : ∃ cached, s.touchPlaces [loc] = { s with cached := cached } :=
  ⟨_, s.touchPlaces_closed [loc] fun x hx _ => by rw [List.mem_singleton.1 hx]; exact h⟩

theorem execAtomicApply_run (ht : s.thread? a.uid = some t) (hk : a.kind = .atomic op) (hseal : t.attr.isSealed = false)
    (hw : t.chunk.writes = []) (hs : t.settOn = none) (hserve : s.homeServes a.loc a.ctx = true)
    (hfree : s.writeHeld a.uid a.loc = false) (hp : s.poisoned a.loc = false) (hopen : s.openLine (a.loc / 64) = false) :
    let old := BitVec.ofNat 64 (s.readLoc a.loc a.size)
    ∃ cached, execAtomicApply a s = .next (((({ s with cached := cached } : State).commitWord a.loc a.size
      (AtomOp.result op old a.data a.expd).toNat).progress t.attr.ctx).push (.replyArrival a.uid a.reg old)) := by
  intro old
  obtain ⟨cached, htouch⟩ := State.touchPlaces_quiet hopen
  refine ⟨cached, ?_⟩
  have hp' : (s.touchPlaces [a.loc]).poisoned a.loc = false := by rw [htouch]; exact hp
  have hsee : (s.touchPlaces [a.loc]).see t (t.spell a.va) a.loc a.size = s.readLoc a.loc a.size := by
    rw [htouch, State.see_memory _ hw hseal hs]
    rfl
  have hwrite : (s.touchPlaces [a.loc]).writeFor a.uid (t.spell a.va) a.loc a.size (AtomOp.result op old a.data a.expd).toNat = _ :=
    State.writeFor_unsealed (by rw [htouch]; exact ht) hseal
  unfold execAtomicApply
  simp only [ht, hk, hserve, hfree, hp', hseal, hsee, Bool.not_true, Bool.false_eq_true, if_false, Bool.false_and]
  rw [hwrite, htouch]

end home

/-- Settles O16: the request of each form, and the one event at the home. -/
theorem atomics : Obligations.Atomics := by
  constructor
  · intro s s₁ s₂ t d a b g va loc hs p hp size h hc hf hl ho hpoison
    rw [exec_atomicForms p hp]
    exact Act.atomic_run p.2 hs h hc hf hl ho hpoison
  · intro s t op a ht hk hseal hw hinv hs hsize hserve hfree hp hopen old x new
    have hnew : new = AtomOp.result op old a.data a.expd := by
      cases op
      case minS => exact ite_slt.symm
      case maxS => exact ite_slt.symm
      case minN => exact ite_ult.symm
      case maxN => exact ite_ult.symm
      all_goals rfl
    have hpos : 0 < a.size := by rw [hsize]; split <;> decide
    obtain ⟨cached, hrun⟩ := execAtomicApply_run ht hk hseal hw hs hserve hfree hp (hopen 0 hpos)
    have hshows : ({ s with cached := cached } : State).Shows a.loc a.size := fun k hk _ => State.staleLine_of_closed (hopen k hk)
    have hread := State.readLoc_commitWord (v := new.toNat) (s := { s with cached := cached }) hinv.mem hshows
    have hbut := State.sameBut_commitWord (v := new.toNat) hshows
    have hempty := State.empty_commitBytes ({ s with cached := cached } : State) (bytesAt a.loc new.toNat a.size)
    have hcores := State.cores_commitBytes ({ s with cached := cached } : State) (bytesAt a.loc new.toNat a.size)
    rw [← hnew] at hrun
    refine ⟨_, hrun, ?_⟩
    unfold State.commitWord at hread hbut ⊢
    generalize State.commitBytes _ _ = q at hread hbut hempty hcores ⊢
    refine ⟨?_, ?_, List.mem_append_right _ (List.mem_singleton_self _), ?_, ?_⟩
    · rw [← hread]
      simp [State.readLoc]
    · simpa using hbut
    · simpa using hempty
    · simpa using hcores

end Sys2Proof.Machine

/-! ## Packets, messages and launches (O25) -/

namespace Sys2Proof.Machine

section sent
variable {s s₁ s₂ : State} {t : Thread} {d a n : BitVec 5} {b : Src} {g : BitVec 5} {len : Nat} {va loc : Nat}

/-- A fault of a thread whose chunk has ended finds nothing left to commit. -/
theorem Act.fault_ended {α : Type} (h : s.thread? s.cur = some t) (hs : t.settOn = none) (he : t.Ended) (cause : Nat) (v : Word) :
    (Act.fault cause v : Act α) s = .error () (s.enterTrap s.cur cause v t.pc) :=
  Act.fault_core h hs (State.commitAll_ended h he) cause v

/-- The issue of an instruction that ends its chunk turns on what its body does once the chunk has ended. -/
theorem Act.issue_congr {fields : List (BitVec 5)} (h : Closed s s₁ t fields len g) (f : Form) (hf : (f.ends || fields.any isPort) = true)
    {body body' : Act Unit} (hb : body s₁ = body' s₁) : Act.issue f len fields g body s = Act.issue f len fields g body' s := by
  unfold Act.issue Act.issueTo
  rw [Act.bind_ok (Act.begin_closed h f hf), Act.bind_ok (Act.begin_closed h f hf), Act.me_bind h.here, Act.me_bind h.here, if_pos h.guard,
    if_pos h.guard]
  simp only [Act.bind_run, hb]
theorem Act.go_congr {m m' : Act Unit} (h : m s = m' s) : Act.go m s = Act.go m' s := by
  unfold Act.go Act.done
  rw [h]

/-- The registers of a run of `n` from `d` on (R170, R175). -/
def runOf (d n : BitVec 5) : List (BitVec 5) := (List.range n.toNat).map (fun k => d + BitVec.ofNat 5 k)
theorem toNat_add_ofNat {k : Nat} (h : d.toNat + k < 32) : (d + BitVec.ofNat 5 k).toNat = d.toNat + k := by
  rw [BitVec.toNat_add, BitVec.toNat_ofNat]
  omega
theorem mem_runOf {k : Nat} (h : k < n.toNat) : d + BitVec.ofNat 5 k ∈ runOf d n :=
  List.mem_map.2 ⟨k, List.mem_range.2 h, rfl⟩
/-- A run without ports lies below register 28. -/
theorem runOf_below (hp : (runOf d n).any isPort = false) (hn : n ≠ 0#5) : d.toNat + n.toNat ≤ 28 := by
  have hall := List.any_eq_false.1 hp
  by_contra hlt
  have hpos : 0 < n.toNat := Nat.pos_of_ne_zero fun h0 => hn (BitVec.eq_of_toNat_eq h0)
  have hreach : ∃ k, k < n.toNat ∧ 28 ≤ d.toNat + k ∧ d.toNat + k < 32 := ⟨28 - d.toNat, by omega, by omega, by omega⟩
  obtain ⟨k, hk, hge, hlt⟩ := hreach
  exact hall _ (mem_runOf hk) (decide_eq_true (by rw [toNat_add_ofNat hlt]; exact hge))
/-- A run whose registers the thread has passes at decode (R110). -/
theorem Act.runFits_run (h : s.thread? s.cur = some t) (hp : (runOf d n).any isPort = false) (hb : ∀ r ∈ runOf d n, t.beyond r = false) :
    Act.runFits d n s = .ok () s := by
  unfold Act.runFits
  rw [Act.me_bind h, if_neg]
  · rfl
  · intro hc
    obtain ⟨hne, hlt⟩ := (Bool.and_eq_true _ _).mp hc
    have hn : n ≠ 0#5 := of_decide_eq_true hne
    have hlt : t.attr.count < d.toNat + n.toNat := of_decide_eq_true hlt
    have hbelow := runOf_below hp hn
    have hpos : 0 < n.toNat := Nat.pos_of_ne_zero fun h0 => hn (BitVec.eq_of_toNat_eq h0)
    have hlast := hb _ (mem_runOf (k := n.toNat - 1) (by omega))
    unfold Thread.beyond at hlast
    rw [toNat_add_ofNat (by omega)] at hlast
    simp only [Bool.and_eq_false_iff, decide_eq_false_iff_not] at hlast
    omega
theorem Act.then_run {m k : Act Unit} {s' : State} (h : m s = .ok () s') : (m *> k) s = k s' := by
  change EStateM.seqRight m (fun _ => k) s = _
  unfold EStateM.seqRight
  rw [h]
/-- The check of a run at decode passes before the instruction is issued. -/
theorem Ends.runFits {fields sources : List (BitVec 5)} (h : Ends s s₁ t fields sources len g) (hsub : runOf d n ⊆ fields) (m : Act Unit) :
    Act.go (Act.runFits d n *> m) s = Act.go m s := by
  obtain ⟨t₀, h₀, -, hb, -⟩ := h.before
  unfold Act.go Act.done
  rw [Act.then_run (Act.runFits_run h₀ (h.noPort hsub) fun r hr => hb r (hsub hr))]

theorem execSpawn_run (hs : t.settOn = none) (he : t.Ended) (hseal : t.attr.isSealed = false)
    (h : Ends s s₁ t (a :: b.fields ++ runOf d n) (a :: b.fields) b.len g) (hT : LegalTarget (t.source b).toNat) :
    execSpawn d a b n g s = .next (if s₁.spawnRefused t.attr.ctx (t.val a).toNat then s₁.enterTrap s₁.cur 0x11 (t.val a) t.pc else
      (s₁.push (.spawnPacketAccept (t.childPacket s₁.cur (t.val a).toNat (t.source b).toNat (runOf d n)))).waits t .reply) := by
  obtain ⟨ha, hb, hab⟩ := h.operands (List.subset_append_left _ _)
  refine (h.runFits (List.subset_append_right _ _) _).trans (Act.go_error (Act.issue_stops h.toClosed .ending rfl ?_))
  rw [Act.ready_bind h.here h.full hab (by simp), Act.read_bind h.here _ ha, Act.readSrc_bind h.here _ hb]
  refine (Act.target_bind hT _ _).trans ?_
  refine (Act.me_bind h.here _).trans ?_
  rw [Act.get_bind, if_neg (by simp [hseal])]
  split
  · exact Act.fault_ended h.here hs he _ _
  · refine (Act.pop_bind _ hab _).trans ?_
    rw [Act.modify_bind, hseal]
    refine (Act.park_run (s := s₁.push _) h.here _).trans ?_
    unfold Thread.childPacket
    rw [hseal]
    rfl

/-- A word that names a core of this device, with word 0 of the message a legal target, passes the checks of a SEND (R43, R175). -/
theorem badSend_ok {x : Word} {m : Message} (hk : x.toNat / 2 ^ 44 = 0) (hr : x.toNat / 2 ^ 14 % 2 ^ 18 = 0)
    (hw : legalTarget (m.words.headD 0#64).toNat = true) : badSend x m = false := by
  unfold badSend badTarget
  rw [decide_eq_false (not_not.2 hk), decide_eq_false (not_not.2 hr), hw]
  rfl
theorem execSend_run (hs : t.settOn = none) (he : t.Ended) (hseal : t.attr.isSealed = false)
    (h : Ends s s₁ t (a :: runOf d n) (a :: runOf d n) 4 g) (hk : (t.val a).toNat / 2 ^ 44 = 0)
    (hr : (t.val a).toNat / 2 ^ 14 % 2 ^ 18 = 0) (hdev : (t.val a).toNat / 2 ^ 32 = s₁.device.devid.toNat)
    (hw : legalTarget (((runOf d n).map t.val).headD 0#64).toNat = true) :
    let c := (t.val a).toNat % 2 ^ 14
    execSend d a n g s = .next (if s₁.sendRefused t.attr.ctx c then s₁.enterTrap s₁.cur 0x12 (t.val a) t.pc
      else if 8 ≤ s₁.messageLoad c then s₁.waits t (.send c)
      else (s₁.push (.messageArrival c (t.message s₁.device.devid.toNat ((runOf d n).map t.val)))).pastEnd t 4) := by
  intro c
  have ha : isPort a = false := h.port (by simp)
  have har : (a :: runOf d n).any isPort = false := h.noPort (List.Subset.refl _)
  have htarget : targetDev (t.val a) = s₁.device.devid.toNat := by
    unfold targetDev
    omega
  have hgood : badSend (t.val a) (t.message s₁.device.devid.toNat ((runOf d n).map t.val)) = false := badSend_ok hk hr hw
  refine (h.runFits (List.subset_cons_self _ _) _).trans ?_
  refine (Act.go_congr (Act.issue_congr h.toClosed .ending rfl (body' := if s₁.sendRefused t.attr.ctx c then Act.fault 0x12 (t.val a)
    else if 8 ≤ s₁.messageLoad c then Act.park (.send c)
    else (do
      Act.pop [a]
      modify (fun s => s.push (.messageArrival c (t.message s₁.device.devid.toNat ((runOf d n).map t.val)))))) ?_)).trans ?_
  · refine (Act.ready_bind h.here h.full har (by simp) _).trans ?_
    rw [Act.read_bind h.here _ ha, Act.me_bind h.here, Act.get_bind, if_neg (ne_true_of_eq_false hseal)]
    exact (congrFun (if_neg (ne_true_of_eq_false hgood)) _).trans ((congrFun (if_neg (not_not.2 htarget)) _).trans rfl)
  · split
    · exact Act.go_error (Act.issue_stops h.toClosed .ending rfl (Act.fault_ended h.here hs he _ _))
    · split
      · exact Act.go_error (Act.issue_stops h.toClosed .ending rfl (Act.park_run h.here _))
      · exact Act.go_ok (Act.issue_closed h.toClosed .ending rfl ((Act.pop_bind _ (by simp [ha]) _).trans (Act.modify_run _ _)) h.here)

theorem execLaunch_run (hs : t.settOn = none) (hseal : t.attr.isSealed = false) (h : Ends s s₁ t [d, a] [a] 4 g)
    (hc : checkAddr (t.val a) 0 64 false = .ok va) (hl : s₁.Leads s₂ t va .rd loc) (hp : (s₂.touchPlaces [loc]).poisoned loc = false) :
    execLaunch d a g s = .next (((s₂.touchPlaces [loc]).push (.launchAdmission (t.request s₁.cur d va))).waits (t.awaits d) .reply) := by
  have ha : isPort a = false := h.port (by simp)
  have h₂ := hl.here h.here
  refine Act.go_error (Act.issue_stops h.toClosed .ending rfl ?_)
  rw [Act.ready_bind h.here h.full (by simp [ha]) (by simp), Act.read_bind h.here _ ha]
  refine (Act.address_bind hc rfl _ _).trans ?_
  refine (Act.me_bind h.here _).trans ?_
  rw [Act.get_bind]
  refine (hl.run _ _ _).trans ?_
  refine (Act.bind_ok (Act.clean_touch h₂ hs hp)).trans ?_
  refine (Act.pop_bind _ (by simp [ha]) _).trans ?_
  rw [if_neg (by simp [hseal])]
  exact Act.awaitReply_run (State.here_touchPlaces h₂ _) d _

end sent

/-- Settles O25: the run of each form. -/
theorem packetsAndMessages : Obligations.PacketsAndMessages := by
  intro s s₁ s₂ t d a b n g hs he hseal run x
  exact ⟨execSpawn_run hs he hseal, execSend_run hs he hseal, fun va loc h hc hl hp => execLaunch_run hs hseal h hc hl hp⟩

end Sys2Proof.Machine

/-! ## Watches (O26) -/

namespace Sys2Proof.Machine

section watch
variable {s s₁ : State} {t : Thread} {d a : BitVec 5} {g : BitVec 5} {va : Nat} {w : Nat → Nat}

theorem legalTarget_iff (n : Nat) : legalTarget n = true ↔ LegalTarget (n : Int) := by
  unfold legalTarget LegalTarget windowOf
  rw [Bool.and_eq_true, Bool.and_eq_true]
  constructor
  · rintro ⟨⟨h0, h1⟩, h2⟩
    have h0 := of_decide_eq_true h0
    have h1 := of_decide_eq_true h1
    have h2 := of_decide_eq_true h2
    omega
  · rintro ⟨-, h0, h1, h2⟩
    exact ⟨⟨decide_eq_true (by omega), decide_eq_true (by omega)⟩, decide_eq_true (by omega)⟩

/-- The words of a descriptor that R176 does not refuse: its range, in a global window, and the entry of its handler. -/
def WellFormed (w : Nat → Nat) : Prop :=
  w 0 % 8 = 0 ∧ w 0 < 14 * 2 ^ 44 ∧ 8 ≤ w 1 ∧ w 1 ≤ 65536 ∧ w 1 % 8 = 0 ∧ LegalTarget (w 4)
/-- The same as WATCH checks it, one field after another. -/
theorem not_wellFormed_iff (w : Nat → Nat) : ¬ WellFormed w ↔
    w 0 % 8 ≠ 0 ∨ 2 ^ 48 ≤ w 0 ∨ 14 ≤ windowOf (w 0) ∨ w 1 < 8 ∨ 65536 < w 1 ∨ w 1 % 8 ≠ 0 ∨ (!legalTarget (w 4)) = true := by
  have htarget : (!legalTarget (w 4)) = true ↔ ¬ LegalTarget (w 4) := by
    rw [← legalTarget_iff]
    simp
  rw [htarget]
  unfold WellFormed windowOf
  by_cases hT : LegalTarget (w 4)
  · simp only [hT, and_true, not_true_eq_false, or_false]
    omega
  · simp only [hT, and_false, not_false_eq_true, or_true]

theorem State.watches_useEntry (s : State) (e : TEntry) (write : Bool) : (s.useEntry e write).watches = s.watches := by
  obtain ⟨_, _, _, _, _, _, h⟩ := s.useEntry_eq e write
  rw [h]
theorem State.nextWatch_useEntry (s : State) (e : TEntry) (write : Bool) : (s.useEntry e write).nextWatch = s.nextWatch := by
  obtain ⟨_, _, _, _, _, _, h⟩ := s.useEntry_eq e write
  rw [h]

/-- WATCH answers a descriptor that it does not take. -/
def Act.refuseWatch (d a : BitVec 5) (u : Nat) : Act Unit := do
  Act.pop [a]
  Act.awaitReply d (.replyArrival u d (BitVec.allOnes 64))
/-- What WATCH does with the words of a descriptor that it has read, in the state in which it read them (R176). -/
def Act.judgeWatch (d a : BitVec 5) (t : Thread) (s : State) (w : Nat → Nat) : Act Unit :=
  if w 0 % 8 ≠ 0 ∨ 2 ^ 48 ≤ w 0 ∨ 14 ≤ windowOf (w 0) ∨ w 1 < 8 ∨ 65536 < w 1 ∨ w 1 % 8 ≠ 0 ∨ !legalTarget (w 4) then
    Act.refuseWatch d a s.cur
  else
    match s.lookup t.attr.ctx (w 0) with
    | none => Act.hold (w 0)
    | some e =>
      let size := if e.level = 2 then 2 ^ 30 else if e.level = 1 then 2 ^ 21 else 2 ^ 16
      let slice := s.homeSlice e (w 0)
      if w 0 / size ≠ (w 0 + w 1 - 1) / size ∨ 16 ≤ (s.watches.filter (fun x => decide (x.slice = slice))).length then
        Act.refuseWatch d a s.cur
      else do
        Act.pop [a]
        modify (fun s => { s.useEntry e false with
          watches := s.watches ++ [⟨t.attr.ctx, s.nextWatch, t.core, slice, w 0, w 1, BitVec.ofNat 64 (w 2), BitVec.ofNat 64 (w 3),
            BitVec.ofNat 64 (w 4)⟩]
          nextWatch := (s.nextWatch + 1) % 2 ^ 32 })
        Act.awaitReply d (.replyArrival s.cur d (BitVec.ofNat 64 s.nextWatch))

/-- The words of the descriptor at an address of the thread's own local memory. -/
def State.descriptor (s : State) (t : Thread) (va k : Nat) : Nat := s.see t (va + 8 * k) (localLoc t.core (va % 2 ^ 16 + 8 * k)) 8

theorem localLoc_add (c o k : Nat) : localLoc c o + k = localLoc c (o + k) := by
  unfold localLoc
  omega

/-- WATCH of a descriptor in own local memory, on lines that are clean and free, judges the words it reads there (R176, R332). -/
theorem execWatch_reads (h : Ends s s₁ t [d, a] [a] 4 g) (hc : checkAddr (t.val a) 0 8 false = .ok va) (hf : fmtOf (t.val a) = 0)
    (hwin : windowOf (t.spell va) = 15) (hin : t.spell va % 2 ^ 16 + 40 ≤ 0xC000)
    (hline : ∀ k ∈ [0, 39], s₁.owned ((localLoc t.core (t.spell va % 2 ^ 16) + k) / 64) = false ∧
      s₁.poisoned (localLoc t.core (t.spell va % 2 ^ 16) + k) = false) :
    execWatch d a g s = Act.go (Act.issue .ending 4 [d, a] g (Act.judgeWatch d a t s₁ (s₁.descriptor t (t.spell va)))) s := by
  have ha : isPort a = false := h.port (by simp)
  obtain ⟨ho, hp⟩ := hline 0 (by simp)
  obtain ⟨ho', hp'⟩ := hline 39 (by simp)
  have hhbm (k : Nat) : isHbm (localLoc t.core (t.spell va % 2 ^ 16) + k) = false := by rw [localLoc_add, isHbm_localLoc]
  refine Act.go_congr (Act.issue_congr h.toClosed .ending rfl ?_)
  rw [Act.ready_bind h.here h.full (by simp [ha]) (by simp), Act.read_bind h.here _ ha]
  refine (Act.address_bind hc (by simp [hf]) _ _).trans ?_
  refine (Act.me_bind h.here _).trans ?_
  refine (congrFun (if_neg (not_or.2 ⟨not_not.2 hwin, Nat.not_lt.2 hin⟩)) _).trans ?_
  refine (Act.bind_ok (Act.recall_free ho)).trans ?_
  refine (Act.bind_ok (Act.recall_free ho')).trans ?_
  refine (Act.clean_bind h.here (hhbm 0) hp _).trans ?_
  refine (Act.clean_bind h.here (hhbm 39) hp' _).trans ?_
  rw [Act.get_bind]
  unfold Act.judgeWatch Act.refuseWatch State.descriptor
  rfl

theorem Act.refuseWatch_run (h : s.thread? s.cur = some t) (ha : isPort a = false) (u : Nat) :
    Act.refuseWatch d a u s = .error () ((s.push (.replyArrival u d (BitVec.allOnes 64))).waits (t.awaits d) .reply) :=
  (Act.pop_bind _ (by simp [ha]) _).trans (Act.awaitReply_run h d _)
theorem Act.judgeWatch_refused (h : s.thread? s.cur = some t) (ha : isPort a = false) (hw : ¬ WellFormed w) :
    Act.judgeWatch d a t s w s = .error () ((s.push (.replyArrival s.cur d (BitVec.allOnes 64))).waits (t.awaits d) .reply) :=
  (congrFun (if_pos ((not_wellFormed_iff w).1 hw)) _).trans (Act.refuseWatch_run h ha _)
theorem Act.judgeWatch_run {e : TEntry} (h : s.thread? s.cur = some t) (ha : isPort a = false) (hw : WellFormed w)
    (he : s.lookup t.attr.ctx (w 0) = some e) :
    let size := if e.level = 2 then 2 ^ 30 else if e.level = 1 then 2 ^ 21 else 2 ^ 16
    let slice := s.homeSlice e (w 0)
    let answers (s' : State) (v : Word) : State := (s'.push (.replyArrival s.cur d v)).waits (t.awaits d) .reply
    Act.judgeWatch d a t s w s = .error () (
      if w 0 / size ≠ (w 0 + w 1 - 1) / size ∨ 16 ≤ (s.watches.filter (fun x => decide (x.slice = slice))).length then
        answers s (BitVec.allOnes 64)
      else answers ((s.useEntry e false).watching ⟨t.attr.ctx, s.nextWatch, t.core, slice, w 0, w 1, BitVec.ofNat 64 (w 2),
        BitVec.ofNat 64 (w 3), BitVec.ofNat 64 (w 4)⟩) (BitVec.ofNat 64 s.nextWatch)) := by
  intro size slice answers
  unfold Act.judgeWatch
  rw [if_neg fun hbad => (not_wellFormed_iff w).2 hbad hw, he]
  by_cases hfull : w 0 / size ≠ (w 0 + w 1 - 1) / size ∨ 16 ≤ (s.watches.filter (fun x => decide (x.slice = slice))).length
  · rw [if_pos hfull]
    exact (congrFun (if_pos hfull) _).trans (Act.refuseWatch_run h ha _)
  · rw [if_neg hfull]
    refine (congrFun (if_neg hfull) _).trans ?_
    refine (Act.pop_bind _ (by simp [ha]) _).trans ?_
    rw [Act.modify_bind, ← s.watches_useEntry e false, ← s.nextWatch_useEntry e false]
    exact Act.awaitReply_run (s := (s.useEntry e false).watching _) (State.here_useEntry h e false) d _

theorem execUnwatch_run (h : Ends s s₁ t [a] [a] 4 g) :
    let left := s₁.watches.filter (fun w => !(decide (w.ctx = t.attr.ctx) && decide (w.id = (t.val a).toNat)))
    execUnwatch a g s = .next ({ s₁ with watches := left }.pastEnd t 4) := by
  have ha : isPort a = false := h.port (by simp)
  refine Act.go_ok (Act.issue_closed h.toClosed .ending rfl ?_ h.here)
  rw [Act.ready_bind h.here h.full (by simp [ha]) (by simp), Act.read_bind h.here _ ha, Act.me_bind h.here, Act.pop_bind _ (by simp [ha])]
  rfl

end watch

/-- Settles O26: WATCH reads its descriptor and judges it, UNWATCH filters the watches. -/
theorem watches : Obligations.Watches := by
  intro s s₁ t d a g va hs
  refine ⟨?_, execUnwatch_run⟩
  intro h hc hf hwin hin hline w good answers
  have ha : isPort a = false := h.port (by simp)
  have hreads := execWatch_reads h hc hf hwin hin hline
  refine ⟨fun hbad => ?_, fun e hgood he => ?_⟩
  · exact hreads.trans (Act.go_error (Act.issue_stops h.toClosed .ending rfl (Act.judgeWatch_refused h.here ha hbad)))
  · have hrun := hreads.trans (Act.go_error (Act.issue_stops h.toClosed .ending rfl (Act.judgeWatch_run h.here ha hgood he)))
    intro size slice
    split
    · rename_i hfull
      exact hrun.trans (congrArg _ (if_pos hfull))
    · rename_i hfull
      exact hrun.trans (congrArg _ (if_neg hfull))

end Sys2Proof.Machine

/-! ## Synchronising accesses of own local memory (O14, O15) -/

namespace Sys2Proof.Machine

/-! ### The access at issue (R159) -/

/-- Whether a synchronising form fills a register with its word. -/
def fillsReg (kind : AccessKind) : Bool := decide (kind = .lde) || decide (kind = .ldf)
/-- Whether a synchronising form stores a register in its word. -/
def storesWord (kind : AccessKind) : Bool := decide (kind = .stf) || decide (kind = .sts)

section issue
variable {s s₁ s₂ : State} {t : Thread} {d a : BitVec 5} {i : BitVec 10} {g : BitVec 5} {va loc : Nat} {kind : AccessKind}

theorem State.holdsBack_unsealed (s : State) (u : Nat) (lines : List Nat) : s.holdsBack u false lines = s.heldBack u lines := by
  simp only [State.holdsBack, Bool.false_eq_true, if_false]
/-- A line that nothing holds back is owned by no engine command. -/
theorem State.owned_of_heldBack {line : Nat} {u : Nat} (h : s.heldBack u [line] = false) : s.owned line = false := by
  simp only [State.heldBack, List.any_cons, List.any_nil, Bool.or_false, Bool.or_eq_false_iff] at h
  exact h.1.1
theorem Act.needLine_free (h : s.thread? s.cur = some t) (hseal : t.attr.isSealed = false) (hfree : s.heldBack s.cur [loc / 64] = false) :
    Act.needLine loc s = .ok () s := by
  unfold Act.needLine
  rw [Act.bind_ok (Act.recall_free (State.owned_of_heldBack hfree)), Act.me_bind h, Act.get_bind, hseal, State.holdsBack_unsealed, hfree]
  rfl
/-- A synchronising access of the thread's own core needs its line, but for LDF, which only reads it. -/
theorem Act.ownLine_bind {c : Prop} [Decidable c] (h : s.thread? s.cur = some t) (hseal : t.attr.isSealed = false)
    (hfree : c → s.heldBack s.cur [loc / 64] = false) (ho : s.owned (loc / 64) = false) (k : Unit → Act Unit) :
    (if c then Act.needLine loc >>= k else Act.recall loc >>= k) s = k () s := by
  split
  · rename_i hc
    exact Act.bind_ok (Act.needLine_free h hseal (hfree hc))
  · exact Act.bind_ok (Act.recall_free ho)
/-- A read of a word outside HBM, whose line is not poisoned, changes nothing. -/
theorem Act.clean_near (h : s.thread? s.cur = some t) (hl : isHbm loc = false) (hp : s.poisoned loc = false) :
    Act.clean va loc s = .ok () s := by
  unfold Act.clean
  rw [Act.me_bind h, Act.modify_bind, State.reachLine_local s t hl, Act.get_bind, if_neg (ne_true_of_eq_false hp)]
  rfl
/-- A change of the thread that only some forms make. -/
theorem Act.maybeMod_bind (c : Prop) [Decidable c] (h : s.thread? s.cur = some t) (f f' : Thread → Thread) (k : Unit → Act Unit) :
    (if c then Act.modMe f >>= fun _ => Act.modMe f' >>= k else Act.modMe f' >>= k) s =
      k () (s.withThread (f' (if c then f t else t))) := by
  split
  · rw [Act.modMe_bind h, Act.modMe_bind (State.thread?_withThread ..), State.withThread_withThread]
  · exact Act.modMe_bind h _ _

/-- The thread that waits for a word (R32, R48). -/
def Thread.atWord (t : Thread) (kind : AccessKind) (d : BitVec 5) : Thread :=
  (if fillsReg kind then t.awaits d else t).parked .word
/-- The access of a synchronising form on its way to its word (R159). -/
def Thread.syncAccess (t : Thread) (u : Nat) (kind : AccessKind) (d a : BitVec 5) (va : Nat) : Access :=
  t.access u kind (if kind = .clre then 31#5 else d) va (t.localPlace va) 8 (if storesWord kind then t.val d else 0#64)
    (if kind = .sts then a.setWidth 64 else 0#64)

/-- A synchronising form on an own-local word goes to the word at once, its thread waiting there. -/
theorem Act.sync_own (hs : t.settOn = none) (hseal : t.attr.isSealed = false) (hown : t.OwnLocal va)
    (hc : checkAddr (t.val a) (i.toInt * 8) 8 false = .ok va) (hf : fmtOf (t.val a) = 0)
    (h : Ends s s₁ t (if kind = .clre then [a] else [d, a]) (if storesWord kind then [a, d] else [a]) 4 g)
    (hfree : kind ≠ .ldf → s₁.heldBack s₁.cur [t.localPlace va / 64] = false) (ho : s₁.owned (t.localPlace va / 64) = false)
    (hp : fillsReg kind = true → s₁.poisoned (t.localPlace va) = false)
    (hend : (Act.parked : Act Unit) ((s₁.withThread (t.atWord kind d)).atHome (t.syncAccess s₁.cur kind d a va)) = .error () s₂) :
    Act.go (Act.sync kind d a i g) s = .next s₂ := by
  have ha : isPort a = false := h.port (by split <;> simp)
  have hd : storesWord kind = true → isPort d = false := fun hst => h.port (by
    rw [if_neg (by rintro rfl; exact Bool.noConfusion hst)]
    simp)
  have hports : (if storesWord kind then [a, d] else [a] : List (BitVec 5)).any isPort = false := by
    split
    · simp [ha, hd ‹_›]
    · simp [ha]
  have hspot (p : Perm) : s₁.spot t va p false = .near (t.localPlace va) := State.spot_local hs p false hown.2
  refine Act.go_error (Act.issue_stops h.toClosed .ending rfl ?_)
  refine (Act.ready_bind h.here h.full hports (by simp) _).trans ?_
  refine (Act.read_bind h.here _ ha _).trans ?_
  refine (Act.address_bind hc (by simp [hf]) _ _).trans ?_
  refine (Act.me_bind h.here _).trans ?_
  rw [Act.get_bind]
  refine (Act.maybeRead_bind _ h.here _ hd _).trans ?_
  rw [hspot]
  refine (Act.ownLine_bind h.here hseal (fun hk => hfree ?_) ho _).trans ?_
  · simpa using hk
  refine (Act.optional (fun hk => ?_)).trans ?_
  · exact Act.clean_near h.here (isHbm_localLoc ..) (hp hk)
  refine (Act.pop_bind _ (rs := if kind = .sts then [] else if storesWord kind then [a, d] else [a]) ?_ _).trans ?_
  · split
    · rfl
    · exact hports
  refine (Act.maybeMod_bind _ h.here _ _ _).trans ?_
  exact hend

end issue

/-! ### The word serves the access (R159, R388) -/

section serve
variable {s : State} {t : Thread} {a : Access} {d : BitVec 5}

/-- An access that its own core answers: its thread goes on past its instruction, and its context makes progress. -/
theorem State.answer_here (h : s.thread? s.cur = some t) (hu : a.uid = s.cur) (hs : t.settOn = none)
    (hl : localCore a.loc = some t.core) (reg : BitVec 5) (v : Word) : s.answer a reg v =
      (s.withThread (if reg.toNat < 28 then t.fillReg reg.toNat v else t).finish).progress t.attr.ctx := by
  have hthread : (s.progress t.attr.ctx).thread? (s.progress t.attr.ctx).cur = some t := by
    unfold State.thread?
    rw [State.threads_progress, State.cur_progress]
    exact h
  rw [State.answer_own (hu ▸ h) hs hl, hu, ← State.cur_progress s t.attr.ctx, State.modThread_here hthread]
  refine (State.withThread_progress s h ?_ ?_ ?_ _).symm <;> split <;> rfl

/-- An access that takes no port word lacks none. -/
theorem State.lacksWords_zero (s : State) (t : Thread) (c : Nat) : s.lacksWords t c 0 0 = none := by
  have hzero (q : Nat) : s.raises t c q 0 = 0 := State.raises_data (by simp [State.takes_zero])
  have hlen (q : Nat) : (s.takes t c q 0).length = 0 := congrArg List.length State.takes_zero
  unfold State.lacksWords
  rw [if_neg (not_not.2 (hlen 28)), if_neg (not_not.2 (hlen 29)), if_pos (State.lightRoom_none (hzero 28) (hzero 29))]

section free
variable (h : s.thread? a.uid = some t) (hseal : t.attr.isSealed = false) (ho : s.owned (a.loc / 64) = false)
include h hseal ho

/-- A word whose line an access may use serves it by its kind and its full bit (R159). -/
theorem State.serveWord_ldf (hk : a.kind = .ldf) : s.serveWord a =
    if s.full (a.loc / 8) then some (s.answer a a.reg (BitVec.ofNat 64 (s.see t (t.spell a.va) a.loc 8))) else none := by
  unfold State.serveWord
  simp only [h, ho, hk, State.seeFull_plain hseal, ne_eq, not_true_eq_false, decide_false, Bool.false_and, Bool.or_false, Bool.false_eq_true,
    if_false]

variable (hfree : s.heldBack a.uid [a.loc / 64] = false)
include hfree

theorem State.writeHeld_free : s.writeHeld a.uid a.loc = false := by
  simp only [State.writeHeld, h, hseal, ho, State.holdsBack_unsealed, hfree, Bool.or_false]
theorem State.serveWord_lde (hk : a.kind = .lde) : s.serveWord a =
    if s.full (a.loc / 8) then
      some ((s.bitEvent a.loc false).answer a a.reg (BitVec.ofNat 64 (s.see t (t.spell a.va) a.loc 8))) else none := by
  unfold State.serveWord
  simp only [h, ho, hk, State.seeFull_plain hseal, State.writeHeld_free h hseal ho hfree, Bool.and_false, Bool.or_false, Bool.false_eq_true,
    if_false, State.bitFor_plain h hseal]
theorem State.serveWord_clre (hk : a.kind = .clre) : s.serveWord a = some ((s.bitEvent a.loc false).answer a 31#5 0#64) := by
  unfold State.serveWord
  simp only [h, ho, hk, State.writeHeld_free h hseal ho hfree, Bool.and_false, Bool.or_false, Bool.false_eq_true, if_false,
    State.bitFor_plain h hseal]
theorem State.serveWord_stf (hk : a.kind = .stf) : s.serveWord a =
    some (((s.writeFor a.uid (t.spell a.va) a.loc 8 a.data.toNat).bitFor a.uid a.loc true).answer a 31#5 0#64) := by
  unfold State.serveWord
  simp only [h, ho, hk, hseal, State.writeHeld_free h hseal ho hfree, Bool.and_false, Bool.false_and, Bool.or_false, Bool.false_eq_true, if_false]
/-- An STS that names no port, at an empty word, stores as STF does; at a full word it waits. -/
theorem State.serveWord_sts (hk : a.kind = .sts) (hports : keptPorts a = []) (hreg : isPort a.reg = false) : s.serveWord a =
    if s.full (a.loc / 8) then none else
    some (((s.writeFor a.uid (t.spell a.va) a.loc 8 a.data.toNat).bitFor a.uid a.loc true).answer a 31#5 0#64) := by
  unfold State.serveWord
  simp only [h, ho, hk, hseal, hports, hreg, State.seeFull_plain hseal, State.writeHeld_free h hseal ho hfree, List.count_nil,
    State.lacksWords_zero, Option.isSome_none, List.foldl_nil, Bool.and_false, Bool.false_and, Bool.or_false, Bool.false_eq_true, if_false]

end free

/-- A word that serves an access while nothing waits is done with it. -/
theorem State.atHome_served {q : State} (h : s.serveWord a = some q) (hw : q.waiters = []) : s.atHome a = q := by
  unfold State.atHome
  rw [h]
  exact State.wordChanged_none hw _
theorem State.atHome_waits (h : s.serveWord a = none) : s.atHome a = { s with waiters := s.waiters ++ [a] } := by
  unfold State.atHome
  rw [h]

end serve

/-! ### A word stored and set full (R159, R165) -/

section stored
variable {s : State} {t c : Thread} {u loc : Nat} {v : Word}

theorem State.full_bitEvent_other (s : State) (f : Bool) {w : Nat} (h : w ≠ loc / 8) : (s.bitEvent loc f).full w = s.full w := by
  unfold State.full
  exact congrArg (fun b => decide (b = 0#1)) (Store.get_put_other s.empty _ h)
theorem State.full_bitEvent_cleared (s : State) (loc : Nat) : (s.bitEvent loc false).full (loc / 8) = false := by
  have hget : Store.get (s.bitEvent loc false).empty (loc / 8) = 1#1 :=
    congrArg (Option.getD · 0#1) (Tab.find?_insert_same s.empty (loc / 8) 1#1)
  unfold State.full
  rw [hget]
  rfl
theorem State.full_bitEvent_set (h : Tab.wf 0#1 s.empty = true) (loc : Nat) : (s.bitEvent loc true).full (loc / 8) = true := by
  have hget : Store.get (s.bitEvent loc true).empty (loc / 8) = 0#1 := Store.get_put_same h (loc / 8) 0#1
  unfold State.full
  rw [hget]
  rfl
theorem State.thread?_bitEvent (s : State) (loc : Nat) (f : Bool) (u : Nat) : (s.bitEvent loc f).thread? u = s.thread? u := rfl
theorem State.cur_bitEvent (s : State) (loc : Nat) (f : Bool) : (s.bitEvent loc f).cur = s.cur := rfl
theorem State.waiters_bitEvent (s : State) (loc : Nat) (f : Bool) : (s.bitEvent loc f).waiters = s.waiters := rfl
theorem State.mem_bitEvent (s : State) (loc : Nat) (f : Bool) : (s.bitEvent loc f).mem = s.mem := rfl

/-- The state in which an unsealed thread has written a word. -/
def State.written (s : State) (t : Thread) (loc : Nat) (v : Word) : State := (s.commitWord loc 8 v.toNat).progress t.attr.ctx
/-- The state in which a store of an unsealed thread has written its word and set it full. -/
def State.stored (s : State) (t : Thread) (loc : Nat) (v : Word) : State := (s.written t loc v).bitEvent loc true

theorem State.thread?_written (h : s.thread? u = some t) (ha : ∀ l v c w r, t.wait ≠ .addr l v c w r) (hn : ∀ l, t.wait ≠ .nmstat l) :
    (s.written c loc v).thread? u = some t := by
  have hcommit := State.thread?_commitBytes h ha hn (bytesAt loc v.toNat 8)
  unfold State.thread? at hcommit ⊢
  unfold State.written State.commitWord
  rw [State.threads_progress, hcommit]
theorem State.cur_written (s : State) (t : Thread) (loc : Nat) (v : Word) : (s.written t loc v).cur = s.cur := by
  unfold State.written State.commitWord
  rw [State.cur_progress, State.cur_commitBytes]
theorem State.waiters_written (s : State) (t : Thread) (loc : Nat) (v : Word) : (s.written t loc v).waiters = s.waiters := by
  unfold State.written State.commitWord
  rw [State.waiters_progress, State.waiters_commitBytes]
theorem State.empty_written (s : State) (t : Thread) (loc : Nat) (v : Word) : (s.written t loc v).empty = s.empty := by
  unfold State.written State.commitWord
  rw [State.empty_progress, State.empty_commitBytes]
theorem State.mem_written (s : State) (t : Thread) (loc : Nat) (v : Word) : (s.written t loc v).mem = (s.commitWord loc 8 v.toNat).mem := by
  unfold State.written
  rw [State.mem_progress]
/-- The word holds the value, and no other byte has changed. -/
theorem State.readLoc_written (hmem : Memory.wf s.mem) (h : s.Shows loc 8) (t : Thread) (v : Word) :
    Store.read (s.written t loc v).mem loc 8 = v.toNat := by
  have hread := State.readLoc_commitWord (v := v.toNat) hmem h
  unfold State.readLoc at hread
  rw [State.mem_written, hread]
  exact Nat.mod_eq_of_lt v.isLt
theorem State.sameBut_written (h : s.Shows loc 8) (t : Thread) (v : Word) : SameBut s.mem (s.written t loc v).mem loc 8 := by
  rw [State.mem_written]
  exact State.sameBut_commitWord h
theorem State.full_written (s : State) (t : Thread) (loc : Nat) (v : Word) (w : Nat) : (s.written t loc v).full w = s.full w := by
  unfold State.full
  rw [State.empty_written]

theorem State.cur_stored (s : State) (t : Thread) (loc : Nat) (v : Word) : (s.stored t loc v).cur = s.cur := by
  unfold State.stored
  rw [State.cur_bitEvent, State.cur_written]
theorem State.mem_stored (s : State) (t : Thread) (loc : Nat) (v : Word) : (s.stored t loc v).mem = (s.written t loc v).mem := by
  unfold State.stored
  rw [State.mem_bitEvent]
theorem State.readLoc_stored (hmem : Memory.wf s.mem) (h : s.Shows loc 8) (t : Thread) (v : Word) :
    Store.read (s.stored t loc v).mem loc 8 = v.toNat := by
  rw [State.mem_stored, State.readLoc_written hmem h]
theorem State.sameBut_stored (h : s.Shows loc 8) (t : Thread) (v : Word) : SameBut s.mem (s.stored t loc v).mem loc 8 := by
  rw [State.mem_stored]
  exact State.sameBut_written h t v
theorem State.full_stored (h : Tab.wf 0#1 s.empty = true) (t : Thread) (loc : Nat) (v : Word) : (s.stored t loc v).full (loc / 8) = true := by
  unfold State.stored
  exact State.full_bitEvent_set (by rw [State.empty_written]; exact h) loc
theorem State.full_stored_other (s : State) (t : Thread) (v : Word) {w : Nat} (h : w ≠ loc / 8) : (s.stored t loc v).full w = s.full w :=
  (State.full_bitEvent_other _ true h).trans (State.full_written ..)

end stored

/-! ### The forms (R159, R160) -/

section forms
variable {s s₁ : State} {t : Thread} {d a : BitVec 5} {i : BitVec 10} {g : BitVec 5} {va : Nat}

theorem State.bitEvent_withThread (s : State) (t : Thread) (loc : Nat) (f : Bool) :
    (s.withThread t).bitEvent loc f = (s.bitEvent loc f).withThread t := rfl
theorem Thread.spell_atWord (t : Thread) (kind : AccessKind) (va : Nat) : (t.atWord kind d).spell va = t.spell va := by
  unfold Thread.atWord
  split <;> rfl
/-- A thread at a word sees there what it saw before it waited. -/
theorem State.see_atWord (s : State) (t : Thread) (kind : AccessKind) : ∀ n va loc : Nat, s.see (t.atWord kind d) va loc n = s.see t va loc n
  | 0, _, _ => rfl
  | n + 1, va, loc => by
    have hbyte : s.seeByte (t.atWord kind d) va loc = s.seeByte t va loc := by
      unfold Thread.atWord
      split <;> rfl
    rw [State.see, State.see, hbyte, State.see_atWord s t kind n]

/-- An STS of registers keeps no port's words. -/
theorem keptPorts_none {u : Nat} (ha : isPort a = false) (hd : isPort d = false) : keptPorts (t.syncAccess u .sts d a va) = [] := by
  have ha : ¬ 28 ≤ a.toNat := of_decide_eq_false ha
  have hd : ¬ 28 ≤ d.toNat := of_decide_eq_false hd
  have hwide : (a.setWidth 64).toNat = a.toNat := by
    rw [BitVec.toNat_setWidth]
    omega
  refine (if_pos rfl).trans (List.filter_eq_nil_iff.2 fun p hp => ?_)
  rcases List.mem_cons.1 hp with rfl | hp
  · intro hge
    exact ha (hwide ▸ of_decide_eq_true hge)
  · cases List.mem_singleton.1 hp
    exact fun hge => hd (of_decide_eq_true hge)

section own
variable (hs : t.settOn = none) (hseal : t.attr.isSealed = false) (hown : t.OwnLocal va)
  (hc : checkAddr (t.val a) (i.toInt * 8) 8 false = .ok va) (hf : fmtOf (t.val a) = 0)
include hs hseal hown hc hf

/-- A form whose word serves it at once, while nothing waits. -/
theorem Act.sync_served {kind : AccessKind} {q : State} {reg : BitVec 5} {v : Word}
    (h : Ends s s₁ t (if kind = .clre then [a] else [d, a]) (if storesWord kind then [a, d] else [a]) 4 g)
    (hfree : kind ≠ .ldf → s₁.heldBack s₁.cur [t.localPlace va / 64] = false) (ho : s₁.owned (t.localPlace va / 64) = false)
    (hp : fillsReg kind = true → s₁.poisoned (t.localPlace va) = false)
    (hserve : (s₁.withThread (t.atWord kind d)).serveWord (t.syncAccess s₁.cur kind d a va) =
      some (q.answer (t.syncAccess s₁.cur kind d a va) reg v))
    (hq : q.thread? q.cur = some (t.atWord kind d)) (hcur : q.cur = s₁.cur) (hw : q.waiters = []) :
    Act.go (Act.sync kind d a i g) s = .next ((q.withThread
      (if reg.toNat < 28 then (t.atWord kind d).fillReg reg.toNat v else t.atWord kind d).finish).progress t.attr.ctx) := by
  have hset : (t.atWord kind d).settOn = none ∧ (t.atWord kind d).core = t.core ∧ (t.atWord kind d).attr = t.attr := by
    unfold Thread.atWord
    split <;> exact ⟨hs, rfl, rfl⟩
  obtain ⟨hset, hcore, hattr⟩ := hset
  have hanswer := State.answer_here (a := t.syncAccess s₁.cur kind d a va) hq hcur.symm hset (hcore ▸ hown.place) reg v
  rw [hattr] at hanswer
  refine Act.sync_own hs hseal hown hc hf h hfree ho hp ?_
  rw [State.atHome_served (hserve.trans (congrArg some hanswer)) ((State.waiters_progress ..).trans hw)]
  refine Act.parked_running (t := (if reg.toNat < 28 then (t.atWord kind d).fillReg reg.toNat v else t.atWord kind d).finish) ?_ rfl
  rw [State.cur_progress]
  exact (congrArg (Tab.find? · _) (State.threads_progress ..)).trans (State.thread?_withThread ..)

section fills
variable (h : Ends s s₁ t [d, a] [a] 4 g) (ho : s₁.owned (t.localPlace va / 64) = false) (hp : s₁.poisoned (t.localPlace va) = false)
  (hfull : s₁.full (t.localPlace va / 8) = true) (hw : s₁.waiters = [])
include h ho hp hfull hw

theorem execLdf_full : exec (.ldf d a i g) s = .next ((s₁.withThread (((t.awaits d).parked .word).fillReg d.toNat
    (BitVec.ofNat 64 (s₁.see t (t.spell va) (t.localPlace va) 8))).finish).progress t.attr.ctx) := by
  have hd : d.toNat < 28 := Nat.not_le.1 (of_decide_eq_false (h.port (by simp)))
  have hserve := (State.serveWord_ldf (a := t.syncAccess s₁.cur .ldf d a va) (State.thread?_withThread s₁ (t.atWord .ldf d)) hseal
    ho rfl).trans (if_pos hfull)
  refine (Act.sync_served hs hseal hown hc hf h (fun hk => absurd rfl hk) ho (fun _ => hp) hserve
    (State.thread?_withThread s₁ _) rfl hw).trans ?_
  rw [State.withThread_withThread, if_pos (show (t.syncAccess s₁.cur .ldf d a va).reg.toNat < 28 from hd), State.see_withThread,
    Thread.spell_atWord, State.see_atWord]
  rfl
theorem execLde_full (hfree : s₁.heldBack s₁.cur [t.localPlace va / 64] = false) : exec (.lde d a i g) s =
    .next (((s₁.bitEvent (t.localPlace va) false).withThread (((t.awaits d).parked .word).fillReg d.toNat
      (BitVec.ofNat 64 (s₁.see t (t.spell va) (t.localPlace va) 8))).finish).progress t.attr.ctx) := by
  have hd : d.toNat < 28 := Nat.not_le.1 (of_decide_eq_false (h.port (by simp)))
  have hserve := (State.serveWord_lde (a := t.syncAccess s₁.cur .lde d a va) (State.thread?_withThread s₁ (t.atWord .lde d)) hseal
    ho hfree rfl).trans (if_pos hfull)
  refine (Act.sync_served hs hseal hown hc hf h (fun _ => hfree) ho (fun _ => hp) hserve (State.thread?_withThread s₁ _) rfl hw).trans ?_
  rw [State.bitEvent_withThread, State.withThread_withThread, if_pos (show (t.syncAccess s₁.cur .lde d a va).reg.toNat < 28 from hd),
    State.see_withThread, Thread.spell_atWord, State.see_atWord]
  rfl

end fills

theorem execClre_run (h : Ends s s₁ t [a] [a] 4 g) (hfree : s₁.heldBack s₁.cur [t.localPlace va / 64] = false) (hw : s₁.waiters = []) :
    exec (.clre a i g) s =
      .next (((s₁.bitEvent (t.localPlace va) false).withThread (t.parked .word).finish).progress t.attr.ctx) := by
  have ho := State.owned_of_heldBack hfree
  have hserve := State.serveWord_clre (a := t.syncAccess s₁.cur .clre 0#5 a va) (State.thread?_withThread s₁ (t.atWord .clre 0#5)) hseal
    ho hfree rfl
  refine (Act.sync_served hs hseal hown hc hf h (fun _ => hfree) ho (fun hk => Bool.noConfusion hk) hserve
    (State.thread?_withThread s₁ _) rfl hw).trans ?_
  rw [State.bitEvent_withThread, State.withThread_withThread]
  rfl

/-- A store to an own-local word that the word takes. -/
theorem Act.sync_stores {kind : AccessKind} (hk : kind = .stf ∨ kind = .sts) (h : Ends s s₁ t [d, a] [a, d] 4 g)
    (hfree : s₁.heldBack s₁.cur [t.localPlace va / 64] = false) (hw : s₁.waiters = [])
    (hserve : (s₁.withThread (t.parked .word)).serveWord (t.syncAccess s₁.cur kind d a va) =
      some ((((s₁.withThread (t.parked .word)).writeFor s₁.cur (t.spell va) (t.localPlace va) 8 (t.val d).toNat).bitFor s₁.cur
        (t.localPlace va) true).answer (t.syncAccess s₁.cur kind d a va) 31#5 0#64)) :
    Act.go (Act.sync kind d a i g) s = .next ((((s₁.withThread (t.parked .word)).stored t (t.localPlace va) (t.val d)).withThread
      (t.parked .word).finish).progress t.attr.ctx) := by
  have hthread : (s₁.withThread (t.parked .word)).thread? s₁.cur = some (t.parked .word) := State.thread?_withThread ..
  have hwrite : (s₁.withThread (t.parked .word)).writeFor s₁.cur (t.spell va) (t.localPlace va) 8 (t.val d).toNat =
      (s₁.withThread (t.parked .word)).written t (t.localPlace va) (t.val d) := State.writeFor_unsealed (t := t.parked .word) hthread hseal
  have hwritten := State.thread?_written (c := t) (loc := t.localPlace va) (v := t.val d) hthread (by simp [Thread.parked])
    (by simp [Thread.parked])
  rw [hwrite, State.bitFor_plain hwritten hseal] at hserve
  have hatWord : t.atWord kind d = t.parked .word := by rcases hk with rfl | rfl <;> rfl
  have hfields : (if kind = .clre then [a] else [d, a]) = [d, a] := by rcases hk with rfl | rfl <;> rfl
  have hsources : (if storesWord kind then [a, d] else [a]) = [a, d] := by rcases hk with rfl | rfl <;> rfl
  have hfills : fillsReg kind = false := by rcases hk with rfl | rfl <;> rfl
  have hrun := Act.sync_served (kind := kind) (d := d) (q := (s₁.withThread (t.parked .word)).stored t (t.localPlace va) (t.val d))
    (reg := 31#5) (v := 0#64) hs hseal hown hc hf (hfields ▸ hsources ▸ h) (fun _ => hfree) (State.owned_of_heldBack hfree)
    (fun hfill => absurd hfill (by simp [hfills])) (hatWord ▸ hserve)
  rw [hatWord] at hrun
  refine hrun ?_ ?_ ?_
  · unfold State.stored
    rw [State.cur_bitEvent, State.cur_written, State.thread?_bitEvent]
    exact hwritten
  · unfold State.stored
    rw [State.cur_bitEvent, State.cur_written, State.cur_withThread]
  · unfold State.stored
    rw [State.waiters_bitEvent, State.waiters_written, State.waiters_withThread, hw]

/-- STF, and STS of an empty word, store (R159). -/
theorem execStore_run (h : Ends s s₁ t [d, a] [a, d] 4 g) (hfree : s₁.heldBack s₁.cur [t.localPlace va / 64] = false)
    (hw : s₁.waiters = []) : ∀ j ∈ ([.stf d a i g] ++ (if s₁.full (t.localPlace va / 8) then [] else [.sts d a i g]) : List Instr),
    exec j s = .next ((((s₁.withThread (t.parked .word)).stored t (t.localPlace va) (t.val d)).withThread
      (t.parked .word).finish).progress t.attr.ctx) := by
  have hthread : (s₁.withThread (t.parked .word)).thread? s₁.cur = some (t.parked .word) := State.thread?_withThread ..
  have ho := State.owned_of_heldBack hfree
  intro j hj
  rcases List.mem_append.1 hj with hj | hj
  · cases List.mem_singleton.1 hj
    exact Act.sync_stores hs hseal hown hc hf (.inl rfl) h hfree hw
      (State.serveWord_stf (t := t.parked .word) (a := t.syncAccess s₁.cur .stf d a va) hthread hseal ho hfree rfl)
  · cases hfull : s₁.full (t.localPlace va / 8)
    case true => simp [hfull] at hj
    case false =>
      rw [hfull] at hj
      cases List.mem_singleton.1 hj
      have hd : isPort d = false := h.port (by simp)
      have ha : isPort a = false := h.port (by simp)
      refine Act.sync_stores hs hseal hown hc hf (.inr rfl) h hfree hw ?_
      exact (State.serveWord_sts (t := t.parked .word) (a := t.syncAccess s₁.cur .sts d a va) hthread hseal ho hfree rfl (keptPorts_none ha hd) hd).trans
        (if_neg (ne_true_of_eq_false hfull))

end own
end forms

theorem Thread.reg_finish (t : Thread) (k : Nat) : t.finish.reg k = t.reg k := rfl
theorem Thread.pc_filled (t : Thread) (d : BitVec 5) (k : Nat) (v : Word) :
    (((t.awaits d).parked .word).fillReg k v).finish.pc = t.pc + t.ilen := rfl

/-- Settles O14: LDE and LDF are answered at once, STF and STS store, and CLRE clears the bit. -/
theorem syncAccesses : Obligations.SyncAccesses := by
  constructor
  · intro s s₁ t d a i g va h hs hseal hown hc hf loc ho hp hfull v t'
    refine ⟨fun hw hfree => execLde_full hs hseal hown hc hf h ho hp hfull hw hfree,
      fun hw => execLdf_full hs hseal hown hc hf h ho hp hfull hw, (Thread.reg_finish ..).trans (Thread.reg_fillReg ..), ?_, State.full_bitEvent_cleared ..,
      fun w hne => State.full_bitEvent_other _ _ hne⟩
    rw [← h.length]
    exact Thread.pc_filled ..
  · intro s s₁ t d a i g va hs hseal hown hinv hc hf loc hfree hw
    refine ⟨fun h j hj => ?_, fun h => execClre_run hs hseal hown hc hf h hfree hw⟩
    refine ⟨_, execStore_run hs hseal hown hc hf h hfree hw j hj, ?_⟩
    have hshows : (s₁.withThread (t.parked .word)).Shows loc 8 := State.shows_local _ _ _ _
    have hcur : ((s₁.withThread (t.parked .word)).stored t loc (t.val d)).cur = s₁.cur := State.cur_stored ..
    have hread := State.readLoc_stored (s := s₁.withThread (t.parked .word)) hinv.mem hshows t (t.val d)
    have hbut := State.sameBut_stored hshows t (t.val d)
    have hfull := State.full_stored (s := s₁.withThread (t.parked .word)) hinv.empty t loc (t.val d)
    have hother (w : Nat) (hne : w ≠ loc / 8) := State.full_stored_other (s₁.withThread (t.parked .word)) t (t.val d) hne
    change (State.progress (State.withThread (State.stored _ t loc (t.val d)) _) _).thread? s₁.cur = _ ∧ _
    generalize State.stored _ t loc (t.val d) = q at hcur hread hbut hfull hother ⊢
    refine ⟨?_, ?_, ?_, ?_, ?_⟩
    · rw [← hcur]
      exact (congrArg (Tab.find? · _) (State.threads_progress ..)).trans (State.thread?_withThread ..)
    · unfold State.readLoc
      rw [State.mem_progress]
      exact hread
    · rw [State.mem_progress]
      exact hbut
    · unfold State.full
      rw [State.empty_progress]
      exact hfull
    · intro w hne
      unfold State.full
      rw [State.empty_progress]
      exact hother w hne


section waiting
variable {s s₁ : State} {t : Thread} {d a : BitVec 5} {i : BitVec 10} {g : BitVec 5} {va c k : Nat}

/-- A form whose word does not serve it waits there, behind those that wait already (R160). -/
theorem Act.sync_waits {kind : AccessKind} (hs : t.settOn = none) (hplace : t.place = .slot c k) (hseal : t.attr.isSealed = false)
    (hown : t.OwnLocal va) (hc : checkAddr (t.val a) (i.toInt * 8) 8 false = .ok va) (hf : fmtOf (t.val a) = 0)
    (h : Ends s s₁ t (if kind = .clre then [a] else [d, a]) (if storesWord kind then [a, d] else [a]) 4 g)
    (hfree : s₁.heldBack s₁.cur [t.localPlace va / 64] = false) (hp : fillsReg kind = true → s₁.poisoned (t.localPlace va) = false)
    (hserve : (s₁.withThread (t.atWord kind d)).serveWord (t.syncAccess s₁.cur kind d a va) = none) :
    Act.go (Act.sync kind d a i g) s = .next { (s₁.withThread (t.atWord kind d)).count c 7 1 with
      waiters := s₁.waiters ++ [t.syncAccess s₁.cur kind d a va] } := by
  refine Act.sync_own hs hseal hown hc hf h (fun _ => hfree) (State.owned_of_heldBack hfree) hp ?_
  rw [State.atHome_waits hserve]
  have hwait : (t.atWord kind d).wait ≠ .running ∧ (t.atWord kind d).place = .slot c k := by
    unfold Thread.atWord
    split <;> exact ⟨Wait.noConfusion, hplace⟩
  refine Act.parked_slot ?_ hwait.1 hwait.2
  exact State.thread?_withThread s₁ _

end waiting

/-- Settles O15: the word serves none of the three, which wait there. -/
theorem syncWaits : Obligations.SyncWaits := by
  intro s s₁ t d a i g va c k hs hplace hseal hown hc hf loc acc hfree waiting
  refine ⟨fun h hp hempty => ⟨?_, ?_⟩, fun h hfull => ?_⟩
  · have hserve := (State.serveWord_lde (t := t.atWord .lde d) (a := t.syncAccess s₁.cur .lde d a va) (State.thread?_withThread s₁ _) hseal
      (State.owned_of_heldBack hfree) hfree rfl).trans (if_neg (ne_true_of_eq_false hempty))
    exact Act.sync_waits hs hplace hseal hown hc hf h hfree (fun _ => hp) hserve
  · have hserve := (State.serveWord_ldf (t := t.atWord .ldf d) (a := t.syncAccess s₁.cur .ldf d a va) (State.thread?_withThread s₁ _) hseal
      (State.owned_of_heldBack hfree) rfl).trans (if_neg (ne_true_of_eq_false hempty))
    exact Act.sync_waits hs hplace hseal hown hc hf h hfree (fun _ => hp) hserve
  · have hd : isPort d = false := h.port (by simp)
    have ha : isPort a = false := h.port (by simp)
    have hserve := (State.serveWord_sts (t := t.atWord .sts d) (a := t.syncAccess s₁.cur .sts d a va) (State.thread?_withThread s₁ _) hseal
      (State.owned_of_heldBack hfree) hfree rfl (keptPorts_none ha hd) hd).trans (if_pos hfull)
    exact Act.sync_waits hs hplace hseal hown hc hf h hfree (fun hfill => Bool.noConfusion hfill) hserve

end Sys2Proof.Machine

/-! ## Posted stores at issue (O17) -/

namespace Sys2Proof.Machine

section posted
variable {s s₁ : State} {t : Thread} {a : BitVec 5} {b : Src} {g : BitVec 5} {va loc c : Nat} {v : Word} {fill : Bool}

/-! ### To an own-local word -/

/-- The state in which a posted store of an unsealed thread has written its word (R165). -/
def State.postWritten (s : State) (t : Thread) (loc : Nat) (v : Word) (fill : Bool) : State :=
  if fill then s.stored t loc v else s.written t loc v

theorem State.thread?_postWritten {u : Nat} (h : s.thread? u = some t) (hrun : t.wait = .running) :
    (s.postWritten t loc v fill).thread? u = some t := by
  have hwritten := State.thread?_written (c := t) (loc := loc) (v := v) h (by simp [hrun]) (by simp [hrun])
  unfold State.postWritten State.stored
  split
  · rw [State.thread?_bitEvent, hwritten]
  · exact hwritten
theorem State.cur_postWritten (s : State) (t : Thread) (loc : Nat) (v : Word) (fill : Bool) : (s.postWritten t loc v fill).cur = s.cur := by
  unfold State.postWritten
  split
  · exact State.cur_stored ..
  · exact State.cur_written ..
theorem State.mem_postWritten (s : State) (t : Thread) (loc : Nat) (v : Word) (fill : Bool) :
    (s.postWritten t loc v fill).mem = (s.written t loc v).mem := by
  unfold State.postWritten
  split
  · exact State.mem_stored ..
  · rfl
theorem State.full_postWritten (h : Tab.wf 0#1 s.empty = true) (t : Thread) (loc : Nat) (v : Word) (fill : Bool) :
    (s.postWritten t loc v fill).full (loc / 8) = (fill || s.full (loc / 8)) := by
  unfold State.postWritten
  cases fill
  case true => exact State.full_stored h t loc v
  case false => exact State.full_written ..
theorem State.full_postWritten_other (s : State) (t : Thread) (v : Word) (fill : Bool) {w : Nat} (h : w ≠ loc / 8) :
    (s.postWritten t loc v fill).full w = s.full w := by
  unfold State.postWritten
  split
  · exact State.full_stored_other s t v h
  · exact State.full_written ..
theorem State.postWrite_unsealed (h : s.thread? s.cur = some t) (hseal : t.attr.isSealed = false) (hrun : t.wait = .running)
    (hw : s.waiters = []) (va loc : Nat) (v : Word) (fill : Bool) :
    s.postWrite s.cur va loc v fill = s.postWritten t loc v fill := by
  have hwrite : s.writeFor s.cur va loc 8 v.toNat = s.written t loc v := State.writeFor_unsealed h hseal
  have hwritten := State.thread?_written (c := t) (loc := loc) (v := v) h (by simp [hrun]) (by simp [hrun])
  unfold State.postWrite State.postWritten
  dsimp only
  rw [hwrite, State.bitFor_plain hwritten hseal, State.wordChanged_none]
  · rfl
  · rw [State.waiters_bitEvent, State.waiters_written, hw]

theorem State.mem_pastEnd (s : State) (t : Thread) (len : Nat) : (s.pastEnd t len).mem = s.mem := by
  unfold State.pastEnd
  rw [State.mem_progress, State.mem_withThread]
theorem State.empty_pastEnd (s : State) (t : Thread) (len : Nat) : (s.pastEnd t len).empty = s.empty := by
  unfold State.pastEnd
  rw [State.empty_progress, State.empty_withThread]
theorem State.full_pastEnd (s : State) (t : Thread) (len w : Nat) : (s.pastEnd t len).full w = s.full w := by
  unfold State.full
  rw [State.empty_pastEnd]
theorem State.core_pastEnd (s : State) (t : Thread) (len c : Nat) : (s.pastEnd t len).core c = s.core c :=
  State.core_progress ..

section own
variable (h : Ends s s₁ t (a :: b.fields) (a :: b.fields) b.len g) (hseal : t.attr.isSealed = false)
  (hc : checkAddr (t.val a) 0 8 false = .ok va) (hf : fmtOf (t.val a) = 0)
include h hseal hc hf

theorem Act.post_own (hs : t.settOn = none) (hown : t.OwnLocal va) (hfree : s₁.heldBack s₁.cur [t.localPlace va / 64] = false)
    (hfirst : s₁.postsTo s₁.cur t.core = false) (hw : s₁.waiters = []) (hrun : t.wait = .running) :
    Act.go (Act.post fill a b g) s = .next ((s₁.postWritten t (t.localPlace va) (t.source b) fill).pastEnd t b.len) := by
  obtain ⟨ha, hb, hab⟩ := h.operands (List.Subset.refl _)
  have hspot : s₁.spot t va .wr false = .near (t.localPlace va) := State.spot_local hs _ _ hown.2
  refine Act.go_ok (Act.issue_closed h.toClosed .ending rfl (s₂ := s₁.postWritten t (t.localPlace va) (t.source b) fill) ?_ ?_)
  · rw [Act.ready_bind h.here h.full hab (by simp), Act.read_bind h.here _ ha, Act.readSrc_bind h.here _ hb]
    refine (Act.address_bind hc (by simp [hf]) _ _).trans ?_
    refine (Act.me_bind h.here _).trans ?_
    rw [Act.get_bind, hspot]
    refine (Act.bind_ok (Act.needLine_free h.here hseal hfree)).trans ?_
    rw [if_neg (by simp [hseal]), if_neg (by simp [hfirst])]
    refine (Act.pop_bind _ hab _).trans ?_
    rw [Act.modify_run, State.postWrite_unsealed h.here hseal hrun hw]
  · rw [State.cur_postWritten]
    exact State.thread?_postWritten h.here hrun

/-! ### To any other address -/

/-- The access of a posted store on its way (R165). -/
def Thread.postAccess (t : Thread) (u va : Nat) (v : Word) (fill : Bool) : Access :=
  { t.access u (if fill then .pstf else .pst) 0#5 va 0 8 v 0#64 with fmt := 0 }
/-- The journal entry of a posted store (R165). -/
def State.postEntry (s : State) (t : Thread) (va : Nat) (v : Word) (fill : Bool) : JEntry :=
  ⟨s.cur, t.postAccess s.cur va v fill, s.postOrder, false, t.attr.seq, t.attr.tid.toNat⟩
/-- The state in which a posted store has taken an entry and is on its way (R165). -/
def State.posting (s : State) (t : Thread) (k va : Nat) (v : Word) (fill : Bool) : State :=
  (s.modCore t.core (fun q => { q with journal := Tab.insert q.journal k (s.postEntry t va v fill) })).push (.postedStoreApply t.core k)

theorem Act.post_far {k : Nat} (hfar : ∀ loc, s₁.spot t va .wr false ≠ .near loc) (hk : (s₁.core t.core).freeEntry = some k) :
    Act.go (Act.post fill a b g) s = .next ((s₁.posting t k va (t.source b) fill).pastEnd t b.len) := by
  obtain ⟨ha, hb, hab⟩ := h.operands (List.Subset.refl _)
  refine Act.go_ok (Act.issue_closed h.toClosed .ending rfl (s₂ := s₁.posting t k va (t.source b) fill) ?_ h.here)
  rw [Act.ready_bind h.here h.full hab (by simp), Act.read_bind h.here _ ha, Act.readSrc_bind h.here _ hb]
  refine (Act.address_bind hc (by simp [hf]) _ _).trans ?_
  refine (Act.me_bind h.here _).trans ?_
  rw [Act.get_bind]
  have hopen : ¬ t.attr.isSealed = true := ne_true_of_eq_false hseal
  cases hspot : s₁.spot t va .wr false
  case near loc => exact absurd hspot (hfar loc)
  -- whatever the address names otherwise, the store is posted
  all_goals
    refine (congrFun (if_neg hopen) _).trans ?_
    rw [hk]
    exact (Act.pop_bind _ hab _).trans rfl

end own

theorem State.core_modCore_of_ne {f : Core → Core} (h : f (s.core c) ≠ Core.reset c) : (s.modCore c f).core c = f (s.core c) := by
  have hput : (s.modCore c f).cores = Tab.insert s.cores c (f (s.core c)) := if_neg h
  unfold State.core
  rw [hput]
  exact congrArg (Option.getD · _) (Tab.find?_insert_same ..)

/-- A fold by steps that never go down ends no lower than any of its steps reaches. -/
theorem le_foldl {α : Type} {f : Nat → α → Nat} (hf : ∀ m x, m ≤ f m x) (l : List α) : ∀ m, m ≤ l.foldl f m := by
  induction l with
  | nil => exact fun m => le_rfl
  | cons x l ih => exact fun m => (hf m x).trans (ih _)
theorem lt_foldl {α : Type} {f : Nat → α → Nat} {n : Nat} {x : α} (hf : ∀ m x, m ≤ f m x) (hx : ∀ m, n < f m x) {l : List α} (h : x ∈ l) :
    ∀ m, n < l.foldl f m := by
  induction l with
  | nil => exact absurd h List.not_mem_nil
  | cons y l ih =>
    intro m
    rcases List.mem_cons.1 h with rfl | h
    · exact (hx m).trans_le (le_foldl hf l _)
    · exact ih h _
/-- A new entry comes after every other one of any core (R165). -/
theorem State.lt_postOrder {x : Nat × JEntry} (h : x ∈ (s.core c).journal) : x.2.order < s.postOrder := by
  have hcore : ∃ q, (c, q) ∈ s.cores ∧ x ∈ q.journal := by
    cases hq : Tab.find? s.cores c with
    | none =>
      have hreset : s.core c = Core.reset c := by
        unfold State.core Tab.get
        rw [hq]
        rfl
      rw [hreset] at h
      exact absurd h List.not_mem_nil
    | some q =>
      have hfound : s.core c = q := by
        unfold State.core Tab.get
        rw [hq]
        rfl
      exact ⟨q, Tab.mem_of_find? hq, hfound ▸ h⟩
  obtain ⟨q, hq, hx⟩ := hcore
  have hstep (m : Nat) (e : Nat × JEntry) : m ≤ max m (e.2.order + 1) := Nat.le_max_left ..
  exact lt_foldl (fun m q => le_foldl hstep q.2.journal m) (fun m => lt_foldl hstep (fun m => Nat.le_max_right ..) hx m) hq 0

theorem State.journal_posting (s : State) (t : Thread) (k va : Nat) (v : Word) (fill : Bool) :
    Tab.find? ((s.posting t k va v fill).core t.core).journal k = some (s.postEntry t va v fill) := by
  have hfound := Tab.find?_insert_same (s.core t.core).journal k (s.postEntry t va v fill)
  have hne : ({ s.core t.core with journal := Tab.insert (s.core t.core).journal k (s.postEntry t va v fill) } : Core) ≠ Core.reset t.core := by
    intro heq
    have hnone : Tab.insert (s.core t.core).journal k (s.postEntry t va v fill) = [] := congrArg Core.journal heq
    rw [hnone] at hfound
    cases hfound
  have hcore : (s.posting t k va v fill).core t.core = _ := State.core_modCore_of_ne
    (f := fun q => { q with journal := Tab.insert q.journal k (s.postEntry t va v fill) }) hne
  rw [hcore]
  exact hfound

/-- The forms of a posted store (R165). -/
def postForms (a : BitVec 5) (b : Src) (g : BitVec 5) : List (Instr × Bool) := [(.pst a b g, false), (.pstF a b g, true)]
theorem exec_postForms : ∀ p ∈ postForms a b g, exec p.1 = Act.go (Act.post p.2 a b g) := by
  simp only [postForms, List.forall_mem_cons]
  exact ⟨rfl, rfl, List.forall_mem_nil _⟩

end posted

/-- Settles O17: the own-local store is written at once, any other takes the lowest free entry. -/
theorem postedStores : Obligations.PostedStores := by
  intro s s₁ t a b g va h hs hseal hc hf p hp
  rw [exec_postForms p hp]
  refine ⟨fun hown hinv hfree hfirst hw hrun => ⟨_, Act.post_own h hseal hc hf hs hown hfree hfirst hw hrun, ?_⟩,
    fun k hfar hk => ⟨_, Act.post_far h hseal hc hf hfar hk, ?_⟩⟩
  · have hshows : s₁.Shows (t.localPlace va) 8 := State.shows_local _ _ _ _
    have hcur := State.cur_postWritten s₁ t (t.localPlace va) (t.source b) p.2
    refine ⟨?_, ?_, ?_, ?_, fun w hne => ?_⟩
    · rw [← hcur]
      exact State.thread?_pastEnd ..
    · unfold State.readLoc
      rw [State.mem_pastEnd, State.mem_postWritten, State.readLoc_written hinv.mem hshows]
    · rw [State.mem_pastEnd, State.mem_postWritten]
      exact State.sameBut_written hshows t _
    · rw [State.full_pastEnd, State.full_postWritten hinv.empty]
    · rw [State.full_pastEnd, State.full_postWritten_other _ _ _ _ hne]
  · refine ⟨State.thread?_pastEnd .., State.mem_pastEnd .., State.empty_pastEnd .., State.pending_pastEnd .., s₁.postEntry t va (t.source b) p.2,
      ?_, rfl, rfl, rfl, rfl, rfl, fun x hx => State.lt_postOrder hx⟩
    rw [State.core_pastEnd]
    exact State.journal_posting ..

end Sys2Proof.Machine


/-! ## Threads that end (O20) -/

namespace Sys2Proof.Machine

section ends
variable {s s₀ s₁ : State} {t : Thread} {g : BitVec 5}

theorem State.SameStore.freeHandles (h : s₀.SameStore s) (ctx hs) : s₀.SameStore (s.freeHandles ctx hs) := by
  refine .foldl (fun x e hx => ?_) hs h
  dsimp only
  split
  · exact hx
  · exact hx
theorem State.SameStore.setCores (h : s₀.SameStore s) (cores : List (Nat × Core)) : s₀.SameStore { s with cores := cores } := h
theorem State.SameStore.discardFoot (h : s₀.SameStore s) (u) : s₀.SameStore (s.discardFoot u) := by
  unfold State.discardFoot
  split
  · exact h
  · rename_i t _
    exact .ite (((h.freeHandles t.attr.ctx t.allocs).setCores _).modThread u _) h
theorem State.SameStore.loseThread (h : s₀.SameStore s) (u) : s₀.SameStore (s.loseThread u) := (h.discardFoot u).endThread u
theorem State.Inv.gone_loseThread (h : s.Inv) (u : Nat) : (s.loseThread u).Gone u := (h.discardFoot u).gone_endThread u

/-- Only a sealed thread publishes (R54). -/
theorem State.publish_unsealed (h : s.thread? u = some t) (hseal : t.attr.isSealed = false) : s.publish u = s := by
  unfold State.publish
  rw [h]
  exact if_neg (by simp [hseal])
theorem Act.publish_unsealed (h : s.thread? s.cur = some t) (hseal : t.attr.isSealed = false) : Act.publish s = .ok () s := by
  unfold Act.publish
  rw [Act.me_bind h, if_neg (by simp [hseal])]
  refine (Act.me_bind h _).trans ?_
  rw [Act.get_bind, hseal]
  exact congrArg (EStateM.Result.ok ()) (State.publish_unsealed h hseal)

theorem execHend_handler (h : Ends s s₁ t [] [] 4 g) (hh : t.handler = true) :
    exec (.hend g) s = .next ((s₁.progress t.attr.ctx).endThread s₁.cur) := by
  refine Act.go_error (Act.issue_stops h.toClosed .ending rfl ?_)
  refine (Act.me_bind h.here _).trans ?_
  rw [if_pos hh]
  rfl
theorem execSdrop_sealed (h : Ends s s₁ t [] [] 4 g) (hh : t.handler = false) (hseal : t.attr.isSealed = true) :
    exec (.sdrop g) s = .next ((s₁.progress t.attr.ctx).loseThread s₁.cur) := by
  refine Act.go_error (Act.issue_stops h.toClosed .ending rfl ?_)
  refine (Act.me_bind h.here _).trans ?_
  rw [if_neg (by simp [hh, hseal])]
  rfl

end ends

/-- Settles O20: no end of a thread writes to memory, and after it nothing names the thread. -/
theorem threadEnds : Obligations.ThreadEnds := by
  intro s s₁ t g h hs hinv
  have hmade := hinv.progress t.attr.ctx
  have hsame : s₁.SameStore (s₁.progress t.attr.ctx) := (State.SameStore.refl s₁).progress _
  refine ⟨fun hh hseal => execQuit_published h hs hh (Act.publish_unsealed h.here hseal), execHend_handler h, execSdrop_sealed h, ?_⟩
  simp only [List.forall_mem_cons]
  refine ⟨?_, ?_, List.forall_mem_nil _⟩
  · obtain ⟨hmem, hempty, -⟩ := hsame.endThread s₁.cur
    exact ⟨State.gone_iff.1 (hmade.gone_endThread _), hmem, hempty⟩
  · obtain ⟨hmem, hempty, -⟩ := hsame.loseThread s₁.cur
    exact ⟨State.gone_iff.1 (hmade.gone_loseThread _), hmem, hempty⟩

end Sys2Proof.Machine


/-! ## Group sets (O22) -/

namespace Sys2Proof.Machine

/-! ### A set after it changes (R37, R38) -/

section sets
variable {s s₁ : State} {t : Thread} {a : BitVec 5} {b : Src} {g : BitVec 5} {gr : Group} {ctx num u : Nat}

theorem State.of_group? (h : s.group? ctx num = some gr) : gr.ctx = ctx ∧ gr.num = num := by
  have hfound := List.find?_some h
  simpa using hfound
theorem State.group?_putGroup (s : State) (gr : Group) :
    (s.putGroup gr).group? gr.ctx gr.num = if gr.members.isEmpty then none else some gr := by
  have hrest : (s.groups.filter fun h => !(decide (h.ctx = gr.ctx) && decide (h.num = gr.num))).find?
      (fun h => decide (h.ctx = gr.ctx) && decide (h.num = gr.num)) = none := by
    rw [List.find?_eq_none]
    intro h hh
    have hother := (List.mem_filter.1 hh).2
    rw [Bool.not_eq_true'] at hother
    simp [hother]
  unfold State.group? State.putGroup
  dsimp only
  split
  · exact hrest
  · rw [List.find?_append, hrest]
    simp
theorem State.group?_putGroup_some (s : State) (hm : gr.members.isEmpty = false) : (s.putGroup gr).group? gr.ctx gr.num = some gr := by
  rw [State.group?_putGroup, hm]
  rfl

variable (s) in
theorem State.groups_cur_release (num step u : Nat) :
    (s.release num step u).groups = s.groups ∧ (s.release num step u).cur = s.cur := by
  obtain h | ⟨n, e, h⟩ | ⟨f, h⟩ := s.release_cases num step u <;> rw [h]
  · exact ⟨rfl, rfl⟩
  · exact ⟨rfl, rfl⟩
  · exact ⟨State.groups_modThread .., State.cur_modThread ..⟩
variable (s) in
theorem State.groups_cur_releases (num step : Nat) (us : List Nat) :
    (us.foldl (fun s u => s.release num step u) s).groups = s.groups ∧ (us.foldl (fun s u => s.release num step u) s).cur = s.cur :=
  foldl_inv (P := fun x : State => x.groups = s.groups ∧ x.cur = s.cur)
    (fun x u hx => ⟨(x.groups_cur_release num step u).1.trans hx.1, (x.groups_cur_release num step u).2.trans hx.2⟩) us s ⟨rfl, rfl⟩
/-- A member in a slot that waits at its GBAR is released in the timers alone (R40). -/
theorem State.thread?_release_gbar {c k w step : Nat} (h : s.thread? u = some t) (hp : t.place = .slot c k) (hw : t.wait = .gbar num) :
    (s.release num step w).thread? u = some t := by
  by_cases hu : u = w
  · subst hu
    unfold State.release
    simp only [h, hp, hw, if_true]
    exact h
  · rw [s.thread?_release_other num step hu]
    exact h

theorem Group.arrived_of_freed (h : u ∈ gr.freed) : u ∈ gr.arrived := by
  unfold Group.freed at h
  rcases List.mem_append.1 h with h | h
  · exact List.mem_of_mem_filter h
  · split at h
    · exact List.mem_of_mem_filter (List.mem_of_mem_filter h)
    · cases h
/-- After an arrival or a departure the set has its members, whatever round is open, and the rest is releases. -/
theorem State.checkRound_eq (s : State) (gr : Group) : ∃ (left : Group) (us : List Nat), left.ctx = gr.ctx ∧ left.num = gr.num ∧
    left.members = gr.members ∧ (∀ u ∈ us, u ∈ gr.arrived) ∧
    s.checkRound gr = us.foldl (fun s u => s.release gr.num gr.step u) (s.putGroup left) := by
  cases hc : gr.complete with
  | false => exact ⟨gr, [], rfl, rfl, rfl, nofun, s.checkRound_open hc⟩
  | true =>
    unfold State.checkRound
    rw [if_pos hc]
    dsimp only
    cases hn : gr.next.complete with
    | true =>
      refine ⟨gr.next.next, gr.out ++ gr.next.out, rfl, rfl, rfl, fun u hu => ?_, if_pos rfl⟩
      exact Group.arrived_of_freed (by rwa [Group.freed, if_pos hn])
    | false => exact ⟨gr.next, gr.out, rfl, rfl, rfl, fun u hu => List.mem_of_mem_filter hu, if_neg Bool.false_ne_true⟩
theorem State.cur_checkRound (s : State) (gr : Group) : (s.checkRound gr).cur = s.cur := by
  obtain ⟨left, us, -, -, -, -, h⟩ := s.checkRound_eq gr
  rw [h]
  exact ((s.putGroup left).groups_cur_releases _ _ us).2
theorem State.thread?_checkRound_absent (h : u ∉ gr.arrived) : (s.checkRound gr).thread? u = s.thread? u := by
  obtain ⟨left, us, -, -, -, hus, he⟩ := s.checkRound_eq gr
  rw [he]
  exact State.thread?_releases_other (s.putGroup left) _ _ _ fun hm => h (hus u hm)
theorem State.thread?_checkRound_gbar {c k : Nat} (h : s.thread? u = some t) (hp : t.place = .slot c k) (hw : t.wait = .gbar gr.num) :
    (s.checkRound gr).thread? u = some t := by
  obtain ⟨left, us, -, -, -, -, he⟩ := s.checkRound_eq gr
  rw [he]
  exact foldl_inv (P := fun x : State => x.thread? u = some t) (fun x w hx => State.thread?_release_gbar hx hp hw) us _ h
theorem State.members_checkRound {gr' : Group} (h : (s.checkRound gr).group? gr.ctx gr.num = some gr') : gr'.members = gr.members := by
  obtain ⟨left, us, hctx, hnum, hmem, -, he⟩ := s.checkRound_eq gr
  have hput : (s.putGroup left).group? left.ctx left.num = some gr' := by
    rw [hctx, hnum, ← h, he]
    exact congrArg (List.find? _) ((s.putGroup left).groups_cur_releases _ _ us).1.symm
  rw [State.group?_putGroup] at hput
  split at hput
  · cases hput
  · rw [← hmem, ← Option.some.inj hput]
theorem Group.not_mem_without (gr : Group) (m : Member) : m ∉ (gr.without m).members := by
  simp [Group.without]
theorem Group.not_arrived_without (gr : Group) (u : Nat) : u ∉ (gr.without (.thread u)).arrived := by
  simp [Group.without]

/-! ### JOIN (R37) -/

theorem State.group?_joinSet_new {step : Nat} {m : Member} (h : s.group? ctx num = none) :
    (s.joinSet ctx num step [m]).group? ctx num = some ⟨ctx, num, step, [m], none, []⟩ := by
  unfold State.joinSet
  rw [h]
  exact s.group?_putGroup_some (gr := ⟨ctx, num, step, [m], none, []⟩) rfl
theorem Group.mem_join {m n : Member} :
    n ∈ gr.members ++ [m].filter (fun m => !gr.members.contains m) ↔ n = m ∨ n ∈ gr.members := by
  by_cases hm : m ∈ gr.members
  · simp only [List.filter_cons, List.contains_iff_mem.2 hm, Bool.not_true, Bool.false_eq_true, if_false, List.filter_nil, List.append_nil]
    exact ⟨.inr, fun h => h.elim (fun h => h ▸ hm) id⟩
  · simp [hm, or_comm]
theorem State.group?_joinSet_old {step : Nat} {m : Member} (h : s.group? ctx num = some gr) :
    (s.joinSet ctx num step [m]).group? ctx num =
      some { gr with members := gr.members ++ [m].filter (fun m => !gr.members.contains m) } := by
  obtain ⟨rfl, rfl⟩ := State.of_group? h
  unfold State.joinSet
  rw [h]
  have hin : m ∈ gr.members ++ [m].filter (fun m => !gr.members.contains m) := Group.mem_join.2 (.inl rfl)
  refine s.group?_putGroup_some (gr := { gr with members := _ }) ?_
  cases hl : gr.members ++ [m].filter (fun m => !gr.members.contains m) with
  | nil => rw [hl] at hin; cases hin
  | cons => rfl
theorem State.threads_cur_joinSet (s : State) (ctx num step : Nat) (ms : List Member) :
    (s.joinSet ctx num step ms).threads = s.threads ∧ (s.joinSet ctx num step ms).cur = s.cur := by
  unfold State.joinSet
  split
  · exact ⟨rfl, rfl⟩
  · exact ⟨rfl, rfl⟩
theorem State.here_joinSet (h : s.thread? s.cur = some t) (ctx num step : Nat) (ms : List Member) :
    (s.joinSet ctx num step ms).thread? (s.joinSet ctx num step ms).cur = some t := by
  obtain ⟨hthreads, hcur⟩ := s.threads_cur_joinSet ctx num step ms
  unfold State.thread?
  rw [hthreads, hcur]
  exact h

theorem execJoin_run (h : Ends s s₁ t (a :: b.fields) (a :: b.fields) b.len g) (hs : t.settOn = none) (he : t.Ended) :
    exec (.join a b g) s = .next (if s₁.group? t.attr.ctx ((t.val a).toNat % 2 ^ 32) = none ∧ 4096 ≤ s₁.liveSets t.attr.ctx then
        s₁.enterTrap s₁.cur 0x13 (BitVec.ofNat 64 ((t.val a).toNat % 2 ^ 32)) t.pc
      else (s₁.joinSet t.attr.ctx ((t.val a).toNat % 2 ^ 32) ((t.source b).toNat % 256) [.thread s₁.cur]).pastEnd t b.len) := by
  obtain ⟨ha, hb, hab⟩ := h.operands (List.Subset.refl _)
  have hbody : ∀ k : Word → Word → Act Unit, (Act.ready (a :: b.fields) [] >>= fun _ => Act.read [] a >>= fun x =>
      Act.readSrc [a] b >>= fun y => k x y) s₁ = k (t.val a) (t.source b) s₁ := fun k => by
    rw [Act.ready_bind h.here h.full hab (by simp), Act.read_bind h.here _ ha, Act.readSrc_bind h.here _ hb]
  split
  · rename_i hfull
    refine Act.go_error (Act.issue_stops h.toClosed .ending rfl ((hbody _).trans ?_))
    refine (Act.me_bind h.here _).trans ?_
    rw [Act.get_bind, if_pos (by simpa using hfull)]
    exact Act.fault_ended h.here hs he _ _
  · rename_i hroom
    refine Act.go_ok (Act.issue_closed h.toClosed .ending rfl ((hbody _).trans ?_) (State.here_joinSet h.here ..))
    refine (Act.me_bind h.here _).trans ?_
    rw [Act.get_bind, if_neg (by simpa using hroom)]
    exact Act.pop_bind _ hab _

/-! ### LEAVE -/

section one
variable (h : Ends s s₁ t [a] [a] 4 g)
include h

/-- The body of an instruction of set a reads the register. -/
theorem Ends.reads {β : Type} (k : Word → Act β) :
    (Act.ready [a] [] >>= fun _ => Act.read [] a >>= k) s₁ = k (t.val a) s₁ := by
  rw [Act.bind_ok (h.ready (List.Subset.refl _)), Act.read_bind h.here _ (h.port (List.mem_singleton.2 rfl))]

theorem execLeave_member (hg : s₁.group? t.attr.ctx ((t.val a).toNat % 2 ^ 32) = some gr) (hm : .thread s₁.cur ∈ gr.members) :
    exec (.leave a g) s = .next ((s₁.checkRound (gr.without (.thread s₁.cur))).pastEnd t 4) := by
  have hcur := s₁.cur_checkRound (gr.without (.thread s₁.cur))
  have hhere := (State.thread?_checkRound_absent (s := s₁) (gr.not_arrived_without s₁.cur)).trans h.here
  refine Act.go_ok (Act.issue_closed h.toClosed .ending rfl ((h.reads _).trans ?_) ((congrArg _ hcur).trans hhere))
  refine (Act.me_bind h.here _).trans ?_
  rw [Act.get_bind, Act.pop_bind _ (h.noPort (List.Subset.refl _)), hg]
  exact congrFun (if_pos (List.contains_iff_mem.2 hm)) _
theorem execLeave_other (hg : ∀ gr, s₁.group? t.attr.ctx ((t.val a).toNat % 2 ^ 32) = some gr → .thread s₁.cur ∉ gr.members) :
    exec (.leave a g) s = .next (s₁.pastEnd t 4) := by
  refine Act.go_ok (Act.issue_closed h.toClosed .ending rfl ((h.reads _).trans ?_) h.here)
  refine (Act.me_bind h.here _).trans ?_
  rw [Act.get_bind, Act.pop_bind _ (h.noPort (List.Subset.refl _))]
  cases hset : s₁.group? t.attr.ctx ((t.val a).toNat % 2 ^ 32) with
  | none => rfl
  | some gr => exact congrFun (if_neg fun hc => hg gr hset (List.contains_iff_mem.1 hc)) _

/-! ### GBAR -/

theorem execGbar_faults (hs : t.settOn = none) (he : t.Ended)
    (hg : ∀ gr, s₁.group? t.attr.ctx ((t.val a).toNat % 2 ^ 32) = some gr → .thread s₁.cur ∉ gr.members) :
    exec (.gbar a g) s = .next (s₁.enterTrap s₁.cur 0x13 (BitVec.ofNat 64 ((t.val a).toNat % 2 ^ 32)) t.pc) := by
  refine Act.go_error (Act.issue_stops h.toClosed .ending rfl ((h.reads _).trans ?_))
  refine (Act.me_bind h.here _).trans ?_
  rw [Act.get_bind]
  cases hset : s₁.group? t.attr.ctx ((t.val a).toNat % 2 ^ 32) with
  | none => exact Act.fault_ended h.here hs he _ _
  | some gr =>
    have hnot : (!gr.members.contains (.thread s₁.cur)) = true := by simpa using hg gr hset
    exact (congrFun (if_pos hnot) _).trans (Act.fault_ended h.here hs he _ _)

section member
variable (hg : s₁.group? t.attr.ctx ((t.val a).toNat % 2 ^ 32) = some gr) (hm : .thread s₁.cur ∈ gr.members)
include hg hm

/-- A member whose round has completed passes, or waits for its own time (R40). -/
theorem execGbar_released {k : Nat} (hr : t.released = [((t.val a).toNat % 2 ^ 32, k)]) : exec (.gbar a g) s = .next (
    if k ≤ s₁.cycle then s₁.pastEnd { t with released := [] } 4
    else (s₁.after (k - s₁.cycle) (.barrierRelease s₁.cur (t.stamp + 1))).waits { t with released := [] } (.gbar ((t.val a).toNat % 2 ^ 32))) := by
  have hin : ¬ (!gr.members.contains (.thread s₁.cur)) = true := by simpa using hm
  have herase : t.released.erase ((t.val a).toNat % 2 ^ 32, k) = [] := by rw [hr]; exact List.erase_cons_head ..
  have hfound : t.released.find? (fun r => decide (r.1 = (t.val a).toNat % 2 ^ 32)) = some ((t.val a).toNat % 2 ^ 32, k) := by
    rw [hr]
    exact List.find?_cons_of_pos (decide_eq_true rfl)
  have hnone := h.noPort (List.Subset.refl [a])
  have hmod := Act.modMe_run h.here fun x => { x with released := x.released.erase ((t.val a).toNat % 2 ^ 32, k) }
  rw [herase] at hmod
  have hnow := State.thread?_withThread s₁ { t with released := [] }
  split
  · rename_i hpast
    refine (Act.go_ok (Act.issue_closed h.toClosed .ending rfl ((h.reads _).trans ?_) hnow)).trans (by rw [State.pastEnd_withThread])
    refine (Act.me_bind h.here _).trans ?_
    rw [Act.get_bind, hg]
    refine (congrFun (if_neg hin) _).trans ?_
    rw [hfound]
    exact (congrFun (if_pos hpast) _).trans ((Act.pop_bind _ hnone _).trans hmod)
  · rename_i hyet
    refine Act.go_error (Act.issue_stops h.toClosed .ending rfl ((h.reads _).trans ?_))
    refine (Act.me_bind h.here _).trans ?_
    rw [Act.get_bind, hg]
    refine (congrFun (if_neg hin) _).trans ?_
    rw [hfound]
    refine (congrFun (if_neg hyet) _).trans ((Act.pop_bind _ hnone _).trans ((Act.bind_ok hmod).trans ?_))
    rw [Act.modify_bind, State.withThread_after]
    exact (Act.park_run (State.thread?_withThread ..) _).trans (by rw [State.waits_withThread]; rfl)

variable (hr : ∀ r ∈ t.released, r.1 ≠ (t.val a).toNat % 2 ^ 32) {c k : Nat} (hp : t.place = .slot c k)
include hr hp

/-- A member without a release waits, and its arrival counts once (R38, R179). -/
theorem execGbar_arrives : exec (.gbar a g) s = .next (if s₁.cur ∈ gr.arrived then s₁.waits t (.gbar ((t.val a).toNat % 2 ^ 32)) else
    (((s₁.withThread (t.parked (.gbar ((t.val a).toNat % 2 ^ 32)))).checkRound
      { gr with round := some (gr.round.getD gr.members), arrived := gr.arrived ++ [s₁.cur] }).progress t.attr.ctx).count c 7 1) := by
  have hin : ¬ (!gr.members.contains (.thread s₁.cur)) = true := by simpa using hm
  have hfound : t.released.find? (fun r => decide (r.1 = (t.val a).toNat % 2 ^ 32)) = none :=
    List.find?_eq_none.2 fun r hm => by simpa using hr r hm
  obtain ⟨-, hnum⟩ := State.of_group? hg
  have hnow := State.thread?_withThread s₁ (t.parked (.gbar ((t.val a).toNat % 2 ^ 32)))
  have hwait : (t.parked (.gbar ((t.val a).toNat % 2 ^ 32))).wait ≠ .running := nofun
  refine Act.go_error (Act.issue_stops h.toClosed .ending rfl ((h.reads _).trans ?_))
  refine (Act.me_bind h.here _).trans ?_
  rw [Act.get_bind, hg]
  refine (congrFun (if_neg hin) _).trans ?_
  rw [hfound]
  refine (Act.pop_bind _ (h.noPort (List.Subset.refl [a])) _).trans ((Act.modMe_bind h.here _ _).trans ?_)
  by_cases hthere : s₁.cur ∈ gr.arrived
  · have hagain : ¬ (!gr.arrived.contains s₁.cur) = true := by simpa using hthere
    rw [if_pos hthere]
    refine (congrFun (if_neg hagain) _).trans ((Act.parked_slot hnow hwait hp).trans ?_)
    rw [State.waits, hp]
  · have hfirst : (!gr.arrived.contains s₁.cur) = true := by simpa using hthere
    rw [if_neg hthere]
    refine (congrFun (if_pos hfirst) _).trans ?_
    rw [Act.modify_bind]
    refine Act.parked_slot ?_ hwait hp
    rw [State.cur_progress, State.cur_checkRound, State.thread?, State.threads_progress]
    exact State.thread?_checkRound_gbar (gr := { gr with round := _, arrived := _ }) hnow hp (by rw [hnum]; rfl)

end member
end one
end sets

/-- Settles O22: a set changes in one place, and the end of a round only releases, so that the thread is still there to go on or to wait. -/
theorem groupSets : Obligations.GroupSets := by
  intro s s₁ t a b g c k hs hp he num set me faults
  refine ⟨fun h => ⟨?_, ?_⟩, fun h => ⟨?_, fun gr hg hm => ⟨fun hr => ⟨fun hfirst => ?_, fun hthere => ?_⟩, fun k hr => ?_⟩, fun hg => ?_⟩⟩
  · exact (execJoin_run h hs he).trans (apply_ite _ _ _ _)
  · cases hset : s₁.group? t.attr.ctx num with
    | none =>
      refine ⟨_, State.group?_joinSet_new hset, List.mem_singleton.2 rfl, fun g₀ h₀ => ?_, fun _ => rfl⟩
      exact absurd (hset.symm.trans h₀) nofun
    | some gr =>
      refine ⟨_, State.group?_joinSet_old hset, Group.mem_join.2 (.inl rfl), fun g₀ h₀ => ?_, fun h₀ => ?_⟩
      · obtain rfl := Option.some.inj (hset.symm.trans h₀)
        exact ⟨rfl, rfl, rfl, fun m => Group.mem_join⟩
      · exact absurd (hset.symm.trans h₀) nofun
  · by_cases hin : ∃ gr, set = some gr ∧ me ∈ gr.members
    · obtain ⟨gr, hg, hm⟩ := hin
      obtain ⟨hctx, hnum⟩ := State.of_group? hg
      refine ⟨_, execLeave_member h hg hm, fun gr' hg' => ?_, fun hnone => absurd hm (hnone gr hg)⟩
      rw [← hctx, ← hnum] at hg'
      rw [State.members_checkRound (gr := gr.without me) hg']
      exact gr.not_mem_without me
    · have hout : ∀ gr, set = some gr → me ∉ gr.members := fun gr hg hm => hin ⟨gr, hg, hm⟩
      exact ⟨s₁, execLeave_other h hout, hout, fun _ => rfl⟩
  · exact (execGbar_arrives h hg hm hr hp).trans (congrArg _ (if_neg hfirst))
  · exact (execGbar_arrives h hg hm hr hp).trans (congrArg _ (if_pos hthere))
  · exact execGbar_released h hg hm hr
  · exact execGbar_faults h hs he hg

end Sys2Proof.Machine


/-! ## Threads that move (O24) -/

namespace Sys2Proof.Machine

/-! ### A thread while others move (R353) -/

section moves
variable {s s₁ : State} {t : Thread} {u w c k : Nat} {P : Thread → Prop}

/-- A thread is there and has a property. -/
def State.Has (s : State) (u : Nat) (P : Thread → Prop) : Prop := ∃ t, s.thread? u = some t ∧ P t
/-- What does not turn on the index of an entry in the stockpile's SRAM. -/
def Unindexed (P : Thread → Prop) : Prop := ∀ t i, P t → P { t with index := i }

theorem State.Has.congr (h : s.Has u P) (ht : s₁.threads = s.threads) : s₁.Has u P := by
  obtain ⟨t, hu, hp⟩ := h
  exact ⟨t, (congrArg (Tab.find? · u) ht).trans hu, hp⟩
theorem State.Has.ite {b : Prop} [Decidable b] (h : s.Has u P) (h₁ : s₁.Has u P) : (if b then s else s₁).Has u P := by
  split
  · exact h
  · exact h₁
/-- A change of a thread leaves a property of all that it keeps. -/
theorem State.Has.modThread {f : Thread → Thread} (h : s.Has u P) (hf : ∀ t, P t → P (f t)) (w : Nat) : (s.modThread w f).Has u P := by
  obtain ⟨t, hu, hp⟩ := h
  by_cases hw : u = w
  · subst hw
    exact ⟨_, State.thread?_modThread hu f, hf t hp⟩
  · exact ⟨t, (State.thread?_modThread_other s f hw).trans hu, hp⟩
theorem State.Has.modThread_other {f : Thread → Thread} (h : s.Has w P) (hw : w ≠ u) : (s.modThread u f).Has w P := by
  obtain ⟨t, ht, hp⟩ := h
  exact ⟨t, (State.thread?_modThread_other s f hw).trans ht, hp⟩

theorem State.Has.modThread_congr {f : Thread → Thread} (h : (s.modThread u f).Has w P) (ht : s₁.threads = s.threads) :
    (s₁.modThread u f).Has w P := by
  refine h.congr ?_
  have hu : s₁.thread? u = s.thread? u := congrArg (Tab.find? · u) ht
  unfold State.modThread
  rw [hu]
  split
  · exact ht
  · exact congrArg (Tab.insert · _ _) ht

theorem State.Has.reindex (h : s.Has u P) (hP : Unindexed P) (c : Nat) : (s.reindex c).Has u P := by
  unfold State.reindex
  dsimp only
  split
  · exact h
  · split
    · exact h
    · exact h.modThread (fun t => hP t _) _
theorem State.threads_checkClaim (s : State) (c : Nat) : (s.checkClaim c).threads = s.threads := by
  unfold State.checkClaim
  extract_lets q cs held
  clear_value held cs
  split
  · rfl
  · split
    · rfl
    · split
      · rfl
      · rfl
theorem State.Has.checkClaim (h : s.Has u P) (c : Nat) : (s.checkClaim c).Has u P := h.congr (s.threads_checkClaim c)
theorem State.Has.pokeHandler (h : s.Has u P) (c : Nat) : (s.pokeHandler c).Has u P := .ite h (.ite h (.ite h h))
theorem State.threads_tagFor (s : State) (c ctx : Nat) : (s.tagFor c ctx).threads = s.threads := by
  unfold State.tagFor
  split
  · unfold State.loadImage
    extract_lets b img s₁ s₂ s₃
    have h₂ : s₂.threads = s.threads := by
      unfold s₂
      split
      · exact State.threads_modCtx ..
      · rfl
    have h₃ : s₃.threads = s.threads := by
      unfold s₃
      split
      · exact h₂
      · exact h₂
    exact (State.threads_checkClaim ..).trans h₃
  · rfl

/-- The thread once it has entered the stockpile for a core. -/
def Thread.stocked (t : Thread) (c enter : Nat) (from' : Option (Nat × Nat)) : Thread :=
  { t with place := .stock c, enter := enter, preempt := false, index := none, aged := 0, lastSlot := from' }
/-- The entry of a thread changes that thread, and of every other at most the index. -/
theorem State.Has.enterStock (hu : s.thread? u = some t) (hP : Unindexed P)
    (h : ∀ enter from', (s.modThread u fun t => t.stocked c enter from').Has w P) : (s.enterStock u c).Has w P := by
  unfold State.enterStock
  split
  · rename_i hnone
    exact absurd (hnone.symm.trans hu) nofun
  rename_i t' _
  extract_lets old s₁ from' s₂ s₃ out worse s₄ s₅
  clear_value old out from'
  have h₁ : s₁.threads = s.threads := by
    unfold s₁
    split
    · rfl
    · rfl
  have h₃ : s₃.Has w P := (h s₁.nextUid from').modThread_congr h₁
  have hindexed : ∀ x : State, x.Has w P → ∀ v i, (x.modThread v fun t => { t with index := i }).Has w P :=
    fun x hx v i => hx.modThread (fun t => hP t i) v
  have h₄ : s₄.Has w P := by
    unfold s₄
    split
    · exact hindexed _ h₃ _ _
    · split
      · exact h₃
      · exact .ite h₃ (hindexed _ (hindexed _ h₃ _ _) _ _)
  clear_value s₄
  have h₅ : s₅.Has w P := by
    unfold s₅
    split
    · exact .ite (h₄.pokeHandler _) (h₄.checkClaim _)
    · exact h₄
  clear_value s₅
  exact h₅

/-- The thread once it has entered a slot, its CTXSWAP answered if it comes back from one (R293). -/
def Thread.slotted (t : Thread) (c k : Nat) (back : Word) (enter : Nat) : Thread :=
  let t := match t.swapReg with
    | some r => t.setReg r back
    | none => t
  { t with place := .slot c k, enter := enter, index := none, swapReg := none, aged := 0, home := some c, toPlace := false
           ceded := false, portWait := none }
theorem Thread.slotted_kept (t : Thread) (c k : Nat) (back : Word) (enter : Nat) :
    (t.slotted c k back enter).place = .slot c k ∧ (t.slotted c k back enter).pc = t.pc ∧ (t.slotted c k back enter).attr = t.attr := by
  unfold Thread.slotted
  cases t.swapReg <;> exact ⟨rfl, rfl, rfl⟩
/-- A thread that enters a slot where it has been before is changed itself, and every other at most in its index. -/
theorem State.Has.enterSlot (hu : s.thread? u = some t) (hto : t.toPlace = false) (hP : Unindexed P)
    (h : ∀ back enter, (s.modThread u fun t => t.slotted c k back enter).Has w P) : (s.enterSlot u c k).Has w P := by
  unfold State.enterSlot
  split
  · rename_i hnone
    exact absurd (hnone.symm.trans hu) nofun
  rename_i t' ht'
  obtain rfl := Option.some.inj (ht'.symm.trans hu)
  have hend : ∀ (back : Word) (s₂ : State) (n : Nat) (f : Core → Core), s₂.threads = s.threads →
      let s₃ : State := { s₂.modThread u (fun t => t.slotted c k back s₂.nextUid) with nextUid := n }
      ((((if t'.toPlace then s₃.windowFor t' c else s₃).checkClaim c).modCore c f).reindex c).Has w P := by
    intro back s₂ n f ht s₃
    have hslot : s₃.Has w P := (h back s₂.nextUid).modThread_congr ht
    rw [if_neg (by simp [hto])]
    exact State.Has.reindex (s := (s₃.checkClaim c).modCore c f) (hslot.checkClaim c) hP c
  have htag := s.threads_tagFor c t'.attr.ctx
  extract_lets s₁
  have hfree : s₁.freeWord.2.threads = s.threads := (State.threads_freeWord s₁).trans htag
  cases t'.swapReg <;> cases t'.index
  · exact hend _ s₁ _ _ htag
  · exact hend _ s₁ _ _ htag
  · exact hend _ s₁.freeWord.2 _ _ hfree
  · exact hend _ s₁ _ _ htag

end moves

/-! ### YIELD (R171) -/

section yield
variable {s s₁ : State} {t o : Thread} {g : BitVec 5} {c k u : Nat}

/-- The thread that a YIELD leaves in the stockpile. -/
def Thread.Yielded (t : Thread) (c : Nat) (x : Thread) : Prop :=
  x.place = .stock c ∧ x.pc = (t.pc + 4) % 2 ^ 48 ∧ x.regs = t.regs ∧ x.attr = t.attr
/-- The thread that a YIELD brings into the slot. -/
def Thread.Resumed (o : Thread) (c k : Nat) (x : Thread) : Prop := x.place = .slot c k ∧ x.pc = o.pc ∧ x.attr = o.attr

/-- Entering the stockpile and giving the slot to an entry exchanges the two threads. -/
theorem State.swapped (h : s.thread? s.cur = some (t.done 4)) (ho : s.thread? u = some o) (hne : u ≠ s.cur) (hto : o.toPlace = false) :
    ((s.enterStock s.cur c).enterSlot u c k).Has u (o.Resumed c k) ∧ ((s.enterStock s.cur c).enterSlot u c k).Has s.cur (t.Yielded c) := by
  have hleft : (s.enterStock s.cur c).Has s.cur (t.Yielded c) :=
    State.Has.enterStock h (fun _ _ h => h) fun enter from' => ⟨_, State.thread?_modThread h _, rfl, rfl, rfl, rfl⟩
  have hother : (s.enterStock s.cur c).Has u fun x => x.pc = o.pc ∧ x.attr = o.attr ∧ x.toPlace = false :=
    State.Has.enterStock h (fun _ _ h => h) fun enter from' => State.Has.modThread_other ⟨o, ho, rfl, rfl, hto⟩ hne
  obtain ⟨o₁, ho₁, hpc, hattr, hto₁⟩ := hother
  constructor
  · refine State.Has.enterSlot ho₁ hto₁ (fun _ _ h => h) fun back enter => ⟨_, State.thread?_modThread ho₁ _, ?_⟩
    obtain ⟨hplace, hpc₂, hattr₂⟩ := o₁.slotted_kept c k back enter
    exact ⟨hplace, hpc₂.trans hpc, hattr₂.trans hattr⟩
  · exact State.Has.enterSlot ho₁ hto₁ (fun _ _ h => h) fun back enter => hleft.modThread_other hne.symm
/-- A thread that keeps its place may enter again wherever it fits (R310, R349). -/
theorem State.mayEnter_again (s : State) (hto : o.toPlace = false) (hced : o.ceded = false) (c : Nat) : s.mayEnter o c = true := by
  unfold State.mayEnter
  split
  · rfl
  · simp [hto, hced]

variable (h : Ends s s₁ t [] [] 4 g) (hh : t.handler = false) (hp : t.place = .slot c k)
include h hh hp

theorem execYield_alone (hno : s₁.stockOf c = []) : exec (.yield g) s = .next (s₁.pastEnd t 4) := by
  refine Act.go_ok (Act.issue_closed h.toClosed .ending rfl ?_ h.here)
  refine (Act.me_bind h.here _).trans ?_
  rw [Act.get_bind, if_neg (by simp [hh])]
  have hcore : t.core = c := by rw [Thread.core, hp]
  dsimp only
  rw [hcore, hno]
  rfl
theorem execYield_swaps (hone : s₁.stockOf c = [(u, o)]) (hrun : o.inRotation = true) (hoh : o.handler = false) (hto : o.toPlace = false)
    (hced : o.ceded = false) (hctx : o.attr.ctx = t.attr.ctx) (hprio : t.attr.prio ≤ o.attr.prio)
    (hfits : o.attr.count ≤ s₁.freeRegs c + t.attr.count) :
    exec (.yield g) s = .next (((s₁.withThread (t.done 4)).enterStock s₁.cur c).enterSlot u c k) := by
  refine Act.go_error (Act.issue_stops h.toClosed .ending rfl ?_)
  refine (Act.me_bind h.here _).trans ?_
  rw [Act.get_bind, if_neg (by simp [hh])]
  have hcore : t.core = c := by rw [Thread.core, hp]
  have hslot : t.slot = k := by rw [Thread.slot, hp]
  dsimp only
  rw [hcore, hslot, hone, List.filter_cons_of_pos (by simp [hrun, hoh, hctx, hprio, hfits, s₁.mayEnter_again hto hced])]
  exact Act.modMe_bind h.here _ _

end yield

/-! ### MIGR (R174) -/

section migr
variable {s s₁ : State} {t : Thread} {a : BitVec 5} {b : Src} {g : BitVec 5} {c k va : Nat}

/-- A thread whose chunk has ended leaves for the owner as it is (R45). -/
theorem Act.travel_ended {α : Type} {mask : BitVec 28} (h : s.thread? s.cur = some t) (hs : t.settOn = none) (he : t.Ended)
    (hm : maskCount mask ≤ 10) (o : Nat) : (Act.travel o mask none [] : Act α) s =
      .error () ((s.push (.migrationDeparture s.cur o mask)).waits { t with packet := none } .depart) := by
  unfold Act.travel
  rw [if_neg (by omega), Act.bind_ok (Act.endChunk_core h hs (State.commitAll_ended h he))]
  refine (Act.pop_bind _ rfl _).trans ((Act.modMe_bind h _ _).trans ?_)
  rw [Act.modify_bind, State.withThread_push]
  exact (Act.park_run (State.thread?_withThread ..) _).trans (congrArg _ (State.waits_withThread ..))
/-- An access to an absent page is held at the Bed (R316). -/
theorem Act.hold_run {α : Type} (h : s.thread? s.cur = some t) (va : Nat) : (Act.hold va : Act α) s =
    .error () (((s.count t.core 8 1).faultWait t.attr.ctx (va / 2 ^ 16) (.thread s.cur)).waits t (.page va)) := by
  unfold Act.hold
  rw [Act.me_bind h, Act.modify_bind]
  refine Act.park_run ?_ _
  unfold State.faultWait
  dsimp only
  split
  · exact h
  · exact h

variable (h : Ends s s₁ t (a :: b.fields) (a :: b.fields) b.len g) (hva : checkAddr (t.val a) 0 8 false = .ok va)
include h hva

/-- The body of a MIGR reads its operands and checks the address. -/
theorem Ends.migr {f : Form} (hf : f.ends = true) (k : Nat → Word → Act Unit) :
    Act.go (Act.issue f b.len (a :: b.fields) g (do
      Act.ready (a :: b.fields) []
      let x ← Act.read [] a
      let y ← Act.readSrc [a] b
      let va ← Act.address x 0 8 (fun _ => true)
      k va y)) s = Act.go (Act.issue f b.len (a :: b.fields) g (k va (t.source b))) s := by
  obtain ⟨ha, hb, hab⟩ := h.operands (List.Subset.refl _)
  refine Act.go_congr (Act.issue_congr h.toClosed f (by rw [hf]; rfl) ?_)
  rw [Act.ready_bind h.here h.full hab (by simp), Act.read_bind h.here _ ha, Act.readSrc_bind h.here _ hb]
  exact Act.address_bind hva rfl _ _

theorem execMigr_sealed (hseal : t.attr.isSealed = true) : exec (.migr a b g) s = .next (s₁.pastEnd t b.len) := by
  obtain ⟨-, -, hab⟩ := h.operands (List.Subset.refl _)
  refine (h.migr hva rfl _).trans (Act.go_ok (Act.issue_closed h.toClosed _ rfl ?_ h.here))
  refine (Act.me_bind h.here _).trans ?_
  rw [Act.get_bind, if_pos (by simp [hseal])]
  exact Act.pop_regs _ hab

section unsealed
variable (hseal : t.attr.isSealed = false) (hprog : t.program = false)
include hseal hprog

theorem execMigr_wide (hs : t.settOn = none) (he : t.Ended) (hm : 10 < maskCount ((t.source b).setWidth 28)) :
    exec (.migr a b g) s = .next (s₁.enterTrap s₁.cur 0x0A (((t.source b).setWidth 28).setWidth 64) t.pc) := by
  refine (h.migr hva rfl _).trans (Act.go_error (Act.issue_stops h.toClosed _ rfl ?_))
  refine (Act.me_bind h.here _).trans ?_
  rw [Act.get_bind, if_neg (by simp [hseal, hprog]), if_pos hm]
  exact Act.fault_ended h.here hs he _ _

variable (hm : maskCount ((t.source b).setWidth 28) ≤ 10)
include hm

theorem execMigr_absent (hp : t.core = c) (hw : windowOf va < 14) (hl : s₁.lookup t.attr.ctx va = none) : exec (.migr a b g) s =
    .next (((s₁.count c 8 1).faultWait t.attr.ctx (va / 2 ^ 16) (.thread s₁.cur)).waits t (.page va)) := by
  refine (h.migr hva rfl _).trans (Act.go_error (Act.issue_stops h.toClosed _ rfl ?_))
  refine (Act.me_bind h.here _).trans ?_
  rw [Act.get_bind, if_neg (by simp [hseal, hprog]), if_neg (by omega), if_pos (by simp [hw, hl]), ← hp]
  exact Act.hold_run h.here va

variable (hhere : t.here = c)
include hhere

theorem execMigr_stays (hl : windowOf va < 14 → s₁.lookup t.attr.ctx va ≠ none)
    (ho : s₁.migOwner t.attr.ctx c va = none ∨ s₁.migOwner t.attr.ctx c va = some c) :
    exec (.migr a b g) s = .next (s₁.pastEnd t b.len) := by
  obtain ⟨-, -, hab⟩ := h.operands (List.Subset.refl _)
  have hmapped : ¬ (decide (windowOf va < 14) && (s₁.lookup t.attr.ctx va).isNone) = true := by simpa using hl
  refine (h.migr hva rfl _).trans (Act.go_ok (Act.issue_closed h.toClosed _ rfl ?_ h.here))
  refine (Act.me_bind h.here _).trans ?_
  rw [Act.get_bind, if_neg (by simp [hseal, hprog]), if_neg (by omega), if_neg hmapped, hhere]
  rcases ho with ho | ho
  · rw [ho]
    exact Act.pop_regs _ hab
  · rw [ho]
    exact (congrFun (if_pos rfl) _).trans (Act.pop_regs _ hab)

variable {o : Nat} (ho : s₁.migOwner t.attr.ctx c va = some o) (hne : o ≠ c)
include ho hne

theorem execMigr_refused (hs : t.settOn = none) (he : t.Ended) (hw : windowOf va = 14) (hno : s₁.serves o t.attr.ctx = false) :
    exec (.migr a b g) s = .next (s₁.enterTrap s₁.cur 0x07 (BitVec.ofNat 64 va) t.pc) := by
  refine (h.migr hva rfl _).trans (Act.go_error (Act.issue_stops h.toClosed _ rfl ?_))
  refine (Act.me_bind h.here _).trans ?_
  rw [Act.get_bind, if_neg (by simp [hseal, hprog]), if_neg (by omega), if_neg (by simp [hw]), hhere, ho]
  refine (congrFun (if_neg hne) _).trans ((congrFun (if_pos (by simp [hw, hno])) _).trans ?_)
  exact Act.fault_ended h.here hs he _ _
theorem execMigr_departs (hs : t.settOn = none) (he : t.Ended) (hl : windowOf va < 14 → s₁.lookup t.attr.ctx va ≠ none)
    (hsrv : windowOf va = 14 → s₁.serves o t.attr.ctx = true) : exec (.migr a b g) s =
    .next ((s₁.push (.migrationDeparture s₁.cur o ((t.source b).setWidth 28))).waits { t.done b.len with packet := none } .depart) := by
  obtain ⟨-, -, hab⟩ := h.operands (List.Subset.refl _)
  have hmapped : ¬ (decide (windowOf va < 14) && (s₁.lookup t.attr.ctx va).isNone) = true := by simpa using hl
  have hserved : ¬ (decide (windowOf va = 14) && !s₁.serves o t.attr.ctx) = true := by simpa using hsrv
  refine (h.migr hva rfl _).trans (Act.go_error (Act.issue_stops h.toClosed _ rfl ?_))
  refine (Act.me_bind h.here _).trans ?_
  rw [Act.get_bind, if_neg (by simp [hseal, hprog]), if_neg (by omega), if_neg hmapped, hhere, ho]
  refine (congrFun (if_neg hne) _).trans ((congrFun (if_neg hserved) _).trans ?_)
  refine (Act.pop_bind _ hab _).trans ((Act.modMe_bind h.here _ _).trans ?_)
  refine (Act.travel_ended (State.thread?_withThread s₁ (t.done b.len)) hs he hm o).trans (congrArg _ ?_)
  rw [State.withThread_push, State.waits_withThread]
  rfl

end unsealed
end migr

/-- Settles O24: a YIELD only exchanges two threads, and what MIGR does turns on the mask, the page and the owner in turn. -/
theorem threadsMove : Obligations.ThreadsMove := by
  intro s s₁ t a b g c k hs hp he
  have hcore : t.core = c := by rw [Thread.core, hp]
  have hhere : t.here = c := by rw [Thread.here, hs, hcore]
  refine ⟨fun h hh _ => ⟨execYield_alone h hh hp, fun u o hone ho hne hrun hoh hto hced hctx hprio hfits => ?_⟩, fun va h hva => ?_⟩
  · have hexec := execYield_swaps h hh hp hone hrun hoh hto hced hctx hprio hfits
    obtain ⟨⟨o', ho', hplace, hpc, hattr⟩, t', ht', hplace', hpc', hregs', hattr'⟩ := State.swapped (s := s₁.withThread (t.done 4))
      (c := c) (k := k) (State.thread?_withThread ..) ((State.thread?_withThread_other _ _ hne).trans ho) hne hto
    exact ⟨_, o', t', hexec, ho', hplace, hpc, hattr, ht', hplace', hpc', hregs', hattr'⟩
  · intro mask
    refine ⟨execMigr_sealed h hva, fun hseal hprog => ⟨execMigr_wide h hva hseal hprog hs he, fun hm => ⟨?_, ?_, fun o ho hne => ?_, fun o ho hne => ?_⟩⟩⟩
    · exact execMigr_absent h hva hseal hprog hm hcore
    · exact execMigr_stays h hva hseal hprog hm hhere
    · exact execMigr_refused h hva hseal hprog hm hhere ho hne hs he
    · exact execMigr_departs h hva hseal hprog hm hhere ho hne hs he

end Sys2Proof.Machine


/-! ## Stores that the translation's own slice holds up (O11) -/

namespace Sys2Proof.Machine

section owned
variable {s : State} {t : Thread} {d a : BitVec 5} {i : BitVec 10} {g : BitVec 5} {size va loc : Nat} {e : TEntry}

/-- An access of a chunk to a line that an engine command owns waits (R332). -/
theorem Act.claim_owned (h : s.thread? s.cur = some t) (hso : t.solo = false) (ho : s.owned (loc / 64) = true) :
    Act.claim false loc s = .error () (s.waits t .owned) := by
  have hrecall : Act.recall loc s = .error () (s.waits t .owned) := by
    unfold Act.recall
    rw [Act.get_bind, if_pos ho]
    exact Act.park_run h .owned
  unfold Act.claim
  exact (Act.bind_ok (Act.reserve_off h hso loc)).trans hrecall

/-- A store asks who owns its line once it has used the translation, and the slice of that translation may have given up another one
(R315), through which an engine command's addresses led elsewhere (log 112). -/
theorem Act.store_owned (h : Inside s t [d, a] g) (hs : t.settOn = none) (hso : t.solo = false) (hf : t.Base false a (t.val a))
    (hfd : t.Holds [d]) (hc : checkAddr (t.val a) (i.toInt * size) size false = .ok va) (hfit : sizeFits (fmtOf (t.val a)) size = true)
    (hv : windowOf va < 14) (hspot : s.globalSpot t.attr.ctx va .wr = .global e loc) (hb : s.TableReady t (fmtOf (t.val a)))
    (ho : (s.useEntry e true).owned (loc / 64) = true) :
    Act.store size false d a i g s = .error () ((s.useEntry e true).waits (t.opened s.co 4) .owned) := by
  have hd : isPort d = false := h.owns.port (by simp)
  have ha : isPort a = false := h.owns.port (by simp)
  have hn := Inside.now s t 4
  have hbase := Thread.base_opened hf s.co 4
  have had : ((t.opened s.co 4).baseFields false a ++ [d]).any isPort = false := by
    rw [List.any_append, Thread.baseFields_regs false ha]
    simp [hd]
  have hall : (t.opened s.co 4).Holds ((t.opened s.co 4).baseFields false a ++ [d]) := by
    intro r hr
    exact (List.mem_append.1 hr).elim (hbase.holds r) (hfd r)
  have hmore : (t.opened s.co 4).Holds (if false = true then [] else [d]) := hfd
  unfold Act.store
  refine Act.issue_inside_stops h true (.inl rfl) 4 ?_
  rw [Act.base_bind hn hbase ha hmore (by simp [hd]), if_neg (by simp [checkAddr_ref hc])]
  refine (Act.address_bind hc hfit _ _).trans ?_
  refine (Act.optional fun h => absurd h Bool.false_ne_true).trans ?_
  refine (Act.me_bind hn _).trans ?_
  refine (Act.ready_bind hn hall had (by simp) _).trans ?_
  refine (Act.bind_ok (Act.needTable_core hn hs _ hb)).trans ?_
  rw [Act.get_bind]
  refine (Act.read_bind hn _ hd _).trans ?_
  have hspot' : (s.withThread (t.opened s.co 4)).spot (t.opened s.co 4) va .wr false = .global e loc := (State.spot_global hs false hv).trans hspot
  simp only [hspot']
  refine (Act.modify_bind _ _ _).trans ?_
  rw [State.useEntry_withThread]
  have hss : (t.opened s.co 4).settOn.isSome = false := by simp [hs]
  have hn₁ : ((s.useEntry e true).withThread (t.opened s.co 4)).thread? ((s.useEntry e true).withThread (t.opened s.co 4)).cur =
    some (t.opened s.co 4) := State.thread?_withThread _ _
  refine (congrFun (if_neg (by rw [hss]; exact Bool.false_ne_true)) _).trans ((congrFun (if_neg (by simp [ha, hd])) _).trans ?_)
  exact (Act.bind_error (Act.claim_owned hn₁ (by simpa using hso) ho)).trans (by rw [State.waits_withThread])

end owned

/-! ### A slice full of one stale translation -/

/-- A full slice of entries of one page has room only where they were. -/
theorem State.cacheEntry_full {s : State} {old e : TEntry} (hs : s.tcache = List.replicate (sliceRoom e.slice) old) (hold : old.slice = e.slice)
    (hne : old.page ≠ e.page) : s.cacheEntry e = { s with tcache := [e], free := s.free + 1 } := by
  have hroom : 0 < sliceRoom e.slice := by
    unfold sliceRoom
    split <;> decide
  have hout : ∀ k, (List.replicate (sliceRoom e.slice) old).getD (k % max (sliceRoom e.slice) 1) e = old := fun k => by
    have hk : k % max (sliceRoom e.slice) 1 < (List.replicate (sliceRoom e.slice) old).length := by
      rw [List.length_replicate, Nat.max_eq_left hroom]
      exact Nat.mod_lt _ hroom
    rw [List.getD_eq_getElem _ _ hk, List.getElem_replicate]
  have hsame : s.tcache.any (fun x => decide (x.ctx = e.ctx) && decide (x.page = e.page) && decide (x.slice = e.slice)) = false := by
    rw [hs, List.any_replicate]
    simp [hne]
  have hmine : s.tcache.filter (fun x => decide (x.slice = e.slice)) = List.replicate (sliceRoom e.slice) old := by
    rw [hs, List.filter_replicate_of_pos (by simp [hold])]
  unfold State.cacheEntry
  dsimp only
  rw [hsame, hmine, if_neg Bool.false_ne_true, if_neg (by simp)]
  unfold State.choose
  dsimp only
  rw [List.length_replicate, hout, hs, List.filter_replicate_of_neg (by simp)]
  rfl

/-- Word 0 of a leaf entry that maps its page to the first frame, for reads and writes (R375). -/
def staleLeaf : Nat := 2 ^ 63 + 2 ^ 62 + 2 ^ 57 + 2 ^ 56
/-- What slice 0 has cached of the page of 1 GiB at 2^30, before its entry was written again. -/
def staleEntry : TEntry := ⟨0, 2 ^ 14, 2 ^ 16, false, true, true, false, 0, 2, 0#64, 0⟩
/-- The walk's translation of address 0. -/
def freshEntry : TEntry := ⟨0, 0, 0, false, true, true, false, 0, 2, 0#64, 0⟩
/-- A command whose destination is the line at address 2^30. -/
def staleCmd : Cmd :=
  ⟨1, 0, .vst 0#4, 31, 0x40000000#64, 0#64, 0, MeCfg.reset 0, CeCfg.reset, none, [], [], [2 ^ 24], [], [], false, false, false, 1, 1, 0⟩
/-- A thread with an address of 0 in its register 0. -/
def staleThread : Thread :=
  { Thread.fresh (.slot 0 0) ⟨0, 0, 0, 0#28, 1, 0#32, 8, 0, false, false⟩ 0x10000 0#64 0 with regs := [(0, ⟨0#64, true, false, false⟩)] }
/-- The pages of 1 GiB at 0 and at 2^30 both lead to the first frame; slice 0 is full, of entries of the second from before. -/
def stalePages : State :=
  { State.reset with
    mem := Store.write (Store.write (Store.write [] (interleaved 0) 8 staleLeaf) (interleaved 16) 8 staleLeaf) (interleaved 8192) 8 (2 ^ 63)
    threads := [(0, staleThread)]
    cores := [(0, { Core.reset 0 with tag := some 0, vq := [staleCmd] })]
    tcache := List.replicate 256 staleEntry
    ctxs := [(0, { CtxPage.reset with state := 1, ptroot := 8192#64 })]
    nextUid := 1 }

theorem lookup_stalePages : stalePages.lookup 0 0 = some freshEntry := by decide
theorem spot_stalePages : stalePages.globalSpot 0 0 .wr = .global freshEntry 0 := by
  unfold State.globalSpot
  rw [lookup_stalePages]
  decide
theorem owned_stalePages : stalePages.owned 0 = false := by decide
theorem useEntry_stalePages : stalePages.useEntry freshEntry true =
    { stalePages with tcache := [freshEntry], used := [(0, 0)], grants := [(0, 0)], mapped := [(0, 0, 0)], free := 1 } := by
  have hcache := State.cacheEntry_full (s := stalePages.mapPage freshEntry) (old := staleEntry) (e := freshEntry) rfl rfl (by decide)
  unfold State.useEntry
  dsimp only
  rw [hcache]
  rfl
/-- Once the slice has given up what it had cached, the command's address leads to the line at 0. -/
theorem owned_useEntry_stalePages : (stalePages.useEntry freshEntry true).owned 0 = true := by
  rw [useEntry_stalePages]
  decide

theorem inside_stalePages : Inside stalePages staleThread [0#5, 0#5] 0#5 where
  here := rfl
  owns := by unfold Thread.Owns; decide
  guard := rfl
  room := .inr (by decide)
/-- The store waits: its translation leaves the slice no other, and then the command owns its line. -/
theorem store_stalePages : exec (.stB 0#5 0#5 0#10 0#5) stalePages =
    .next ((stalePages.useEntry freshEntry true).waits (staleThread.opened stalePages.co 4) .owned) :=
  Act.go_error (Act.store_owned (size := 1) inside_stalePages rfl rfl (.inr ⟨rfl, by unfold Thread.Holds; decide, rfl⟩)
    (by unfold Thread.Holds; decide) rfl rfl (by decide) spot_stalePages (fun _ _ h => nomatch h) owned_useEntry_stalePages)

/-- Refutes O11: its stores ask that no engine command owns the line before the store, when the model asks it after the store has used its
translation. On `stalePages` that translation makes a full slice give up a stale one (R315); the command that the walk then leads to the
line owns it, and the store waits (R332). -/
theorem not_farAccesses : ¬ Obligations.FarAccesses := by
  rintro ⟨hforms, -⟩
  obtain ⟨hstores, -⟩ := hforms stalePages staleThread 0#5 0#5 0#10 0#5 0 0 0#64 inside_stalePages rfl rfl
  have hstore := hstores (.stB 0#5 0#5 0#10 0#5, 1, false) (List.mem_cons_self ..) (.inr ⟨rfl, by unfold Thread.Holds; decide, rfl⟩)
    (by unfold Thread.Holds; decide) rfl rfl (fun _ _ h => nomatch h) nofun (by unfold Thread.Takes; decide) owned_stalePages
  obtain ⟨hpasses, -⟩ := hstore.1 freshEntry ((State.spot_global rfl false (by decide)).trans spot_stalePages)
  have hstate := Host.Outcome.next.inj (hpasses.symm.trans store_stalePages)
  have hthread := congrArg (State.thread? · (stalePages.useEntry freshEntry true).cur) hstate
  have hwait := congrArg Thread.wait (Option.some.inj ((State.thread?_withThread ..).symm.trans (hthread.trans (State.thread?_waits ..))))
  exact absurd (show Wait.running = Wait.owned from hwait) nofun

end Sys2Proof.Machine

/-! ## The entry of an engine command (O36) -/

namespace Sys2Proof.Machine

/-! ### The records of pages beside other changes (R292, R315) -/

theorem State.walk_at (s : State) (co ctx va : Nat) : ∀ n node : Nat, ({ s with co := co } : State).walk ctx va n node = s.walk ctx va n node
  | 0, _ => rfl
  | n + 1, node => by
    unfold State.walk
    dsimp only
    rw [State.walk_at s co ctx va n]
    rfl
theorem State.lookup_at (s : State) (co ctx va : Nat) : ({ s with co := co } : State).lookup ctx va = s.lookup ctx va := by
  unfold State.lookup
  simp only [State.walk_at]
  rfl
theorem State.cacheEntry_at (s : State) (co : Nat) (e : TEntry) :
    ({ s with co := co } : State).cacheEntry e = { s.cacheEntry e with co := co } := by
  unfold State.cacheEntry
  dsimp only
  split
  · rfl
  · split <;> rfl
theorem State.mapPage_at (s : State) (co : Nat) (e : TEntry) : ({ s with co := co } : State).mapPage e = { s.mapPage e with co := co } := by
  unfold State.mapPage
  dsimp only
  split <;> rfl
theorem State.useEntry_at (s : State) (co : Nat) (e : TEntry) (write : Bool) :
    ({ s with co := co } : State).useEntry e write = { s.useEntry e write with co := co } := by
  unfold State.useEntry
  dsimp only
  rw [State.mapPage_at, State.cacheEntry_at]

/-- What the use of one page of a context leaves (R292). -/
def State.usePage (s : State) (ctx : Nat) (write : Bool) (page : Nat) : State :=
  if windowOf (page * 2 ^ 16) < 14 then
    match s.lookup ctx (page * 2 ^ 16) with
    | some e => if e.allows (if write then .wr else .rd) then s.useEntry e write else s
    | none => s
  else s
theorem State.usePages_eq (s : State) (ctx : Nat) (vs : List Nat) (write : Bool) :
    s.usePages ctx vs write = ((vs.map (· / 1024)).eraseDups).foldl (fun s => s.usePage ctx write) s := rfl
/-- The use of a page does nothing, or uses the translation of some entry. -/
theorem State.usePage_cases (s : State) (ctx : Nat) (write : Bool) (page : Nat) :
    s.usePage ctx write page = s ∨ ∃ e, s.usePage ctx write page = s.useEntry e write := by
  unfold State.usePage
  by_cases hw : windowOf (page * 2 ^ 16) < 14
  · rw [if_pos hw]
    cases s.lookup ctx (page * 2 ^ 16) with
    | none => exact .inl rfl
    | some e => exact (ite_eq_or_eq ..).symm.imp id fun h => ⟨e, h⟩
  · exact .inl (if_neg hw)
theorem State.usePage_at (s : State) (co ctx : Nat) (write : Bool) (page : Nat) :
    ({ s with co := co } : State).usePage ctx write page = { s.usePage ctx write page with co := co } := by
  unfold State.usePage
  rw [State.lookup_at]
  by_cases hw : windowOf (page * 2 ^ 16) < 14
  · rw [if_pos hw, if_pos hw]
    cases s.lookup ctx (page * 2 ^ 16) with
    | none => rfl
    | some e =>
      dsimp only
      rw [State.useEntry_at]
      generalize e.allows _ = allowed
      cases allowed <;> rfl
  · rw [if_neg hw, if_neg hw]
theorem State.usePages_at (s : State) (co ctx : Nat) (vs : List Nat) (write : Bool) :
    ({ s with co := co } : State).usePages ctx vs write = { s.usePages ctx vs write with co := co } := by
  simp only [State.usePages_eq]
  generalize (vs.map (· / 1024)).eraseDups = pages
  induction pages generalizing s with
  | nil => rfl
  | cons page pages ih => rw [List.foldl_cons, List.foldl_cons, State.usePage_at, ih]

/-- Pages that are used leave their records, and the full bits of those that are mapped by it (R150). -/
theorem State.usePages_records (s : State) (ctx : Nat) (vs : List Nat) (write : Bool) : ∃ empty tcache used grants mapped free,
    s.usePages ctx vs write =
      { s with empty := empty, tcache := tcache, used := used, grants := grants, mapped := mapped, free := free } := by
  rw [State.usePages_eq]
  generalize (vs.map (· / 1024)).eraseDups = pages
  induction pages generalizing s with
  | nil => exact ⟨s.empty, s.tcache, s.used, s.grants, s.mapped, s.free, rfl⟩
  | cons page pages ih =>
    rw [List.foldl_cons]
    obtain ⟨empty, tcache, used, grants, mapped, free, hrest⟩ := ih (s.usePage ctx write page)
    refine ⟨empty, tcache, used, grants, mapped, free, hrest.trans ?_⟩
    rcases s.usePage_cases ctx write page with h | ⟨e, h⟩
    · rw [h]
    · obtain ⟨_, _, _, _, _, _, he⟩ := s.useEntry_eq e write
      rw [h, he]

/-! ### An entry of a queue (R183) -/

theorem Tab.insert_found {α : Type} {m : Tab α} (h : Tab.rising m = true) {k : Nat} {v : α} (hv : Tab.find? m k = some v) :
    Tab.insert m k v = m := by
  induction m with
  | nil => cases hv
  | cons e m ih =>
    obtain ⟨j, u⟩ := e
    obtain ⟨hlt, hm⟩ := Tab.rising_cons.1 h
    unfold Tab.find? at hv
    unfold Tab.insert
    by_cases hjk : j = k
    · rw [if_pos hjk] at hv
      rw [if_neg (by omega), if_pos hjk.symm, Option.some.inj hv, hjk]
    · rw [if_neg hjk] at hv
      rw [if_neg (Nat.lt_asymm (hlt _ (Tab.mem_of_find? hv))), if_neg (Ne.symm hjk), ih hm hv]
/-- A core that is not as reset left it stays as it is under a change that changes nothing of it. -/
theorem State.modCore_self {s : State} {c : Nat} {f : Core → Core} (hs : Tab.rising s.cores = true) (hne : s.core c ≠ Core.reset c)
    (hf : f (s.core c) = s.core c) : s.modCore c f = s := by
  have hfound : Tab.find? s.cores c = some (s.core c) := by
    unfold State.core Tab.get at hne ⊢
    cases hc : Tab.find? s.cores c with
    | none => rw [hc] at hne; exact absurd rfl hne
    | some q => rfl
  have hcores : Tab.put (Core.reset c) s.cores c (f (s.core c)) = s.cores := by
    rw [hf]
    exact (if_neg hne).trans (Tab.insert_found hs hfound)
  unfold State.modCore
  rw [hcores]

theorem Core.setWait_self (q : Core) (e : Engine) : q.setWait e (q.qwait e) = q := by cases e <;> rfl
theorem Core.eng_setCmds (q : Core) (e : Engine) (l : List Cmd) : (q.setCmds e l).eng = q.eng := by cases e <;> rfl

/-- The pages that a command names are recorded (R292). -/
def State.recorded (s : State) (ctx : Nat) (dst src : List Nat) : State := (s.usePages ctx dst true).usePages ctx src false
theorem State.recorded_at (s : State) (co ctx : Nat) (dst src : List Nat) :
    ({ s with co := co } : State).recorded ctx dst src = { s.recorded ctx dst src with co := co } :=
  (congrArg (·.usePages ctx src false) (s.usePages_at co ctx dst true)).trans ((s.usePages ctx dst true).usePages_at co ctx src false)
theorem State.recorded_eq (s : State) (ctx : Nat) (dst src : List Nat) : ∃ empty tcache used grants mapped free, s.recorded ctx dst src =
    { s with empty := empty, tcache := tcache, used := used, grants := grants, mapped := mapped, free := free } := by
  obtain ⟨_, _, _, _, _, _, hdst⟩ := s.usePages_records ctx dst true
  obtain ⟨_, _, _, _, _, _, hsrc⟩ := (s.usePages ctx dst true).usePages_records ctx src false
  unfold State.recorded
  rw [hsrc, hdst]
  exact ⟨_, _, _, _, _, _, rfl⟩

/-- A command stands at the end of its queue, and the vector engine's is counted (R383). -/
def State.queued (s : State) (c : Nat) (e : Engine) (cmd : Cmd) : State :=
  let r := s.modCore c (fun q => q.setCmds e (q.queue e ++ [cmd]))
  if e = .vector then r.count c 13 1 else r
theorem State.queued_eq (s : State) (c : Nat) (e : Engine) (cmd : Cmd) : ∃ cores, s.queued c e cmd = { s with cores := cores } := by
  unfold State.queued
  dsimp only
  split
  · exact ⟨_, rfl⟩
  · exact ⟨_, rfl⟩
theorem State.core_queued {s : State} {c : Nat} {e : Engine} {cmd : Cmd} (h : Tab.rising s.cores = true) :
    ∃ perf, (s.queued c e cmd).core c = { (s.core c).setCmds e ((s.core c).queue e ++ [cmd]) with perf := perf } := by
  have hput : Tab.rising (s.modCore c (fun q => q.setCmds e (q.queue e ++ [cmd]))).cores = true := Tab.rising_put h ..
  unfold State.queued
  dsimp only
  split
  · unfold State.count
    rw [State.core_modCore hput, State.core_modCore h]
    exact ⟨_, rfl⟩
  · rw [State.core_modCore h]
    exact ⟨((s.core c).setCmds e ((s.core c).queue e ++ [cmd])).perf, rfl⟩
theorem State.core_queued_other (s : State) {c k : Nat} (hk : k ≠ c) (e : Engine) (cmd : Cmd) : (s.queued c e cmd).core k = s.core k := by
  unfold State.queued State.count
  dsimp only
  split
  · rw [State.core_modCore_other hk, State.core_modCore_other hk]
  · rw [State.core_modCore_other hk]

/-- What the entry of a command leaves (R183 step 5, R332): an idle engine starts. -/
def State.enqueued (s : State) (t : Thread) (e : Engine) (cmd : Cmd) (dst src : List Nat) : State :=
  let r := (({ s with co := cmd.mark } : State).recorded t.attr.ctx dst src).queued t.core e cmd
  if ((s.core t.core).queue e).isEmpty then r.push (.engineCommandStart t.core e) else r
theorem Act.enqueue_run {s : State} {t : Thread} (h : s.thread? s.cur = some t) (e : Engine) (op : EngOp) (reg : Nat) (a b : Word)
    (dst src : List Nat) : Act.enqueue e op reg a b dst src s = .ok () (s.enqueued t e (s.newCmd t op reg a b dst src) dst src) := by
  unfold Act.enqueue
  rw [Act.me_bind h, Act.modify_run]
  rfl

section admitted
variable {s s' : State} {t : Thread} {e : Engine} {cmd : Cmd} {dst src : List Nat}

/-- The records of the pages, the core and an idle engine's start are all that an entry leaves. -/
theorem State.enqueued_eq (h : s.Inv) (hmark : cmd.mark = s.co + 1) (t : Thread) (e : Engine) (dst src : List Nat) : ∃ cores,
    s.enqueued t e cmd dst src = { s.recorded t.attr.ctx dst src with
      co := s.co + 1, cores := cores
      pending := s.pending ++ (if ((s.core t.core).queue e).isEmpty then [.engineCommandStart t.core e] else []) } ∧
    (∃ perf, Tab.get (Core.reset t.core) cores t.core =
      { (s.core t.core).setCmds e ((s.core t.core).queue e ++ [cmd]) with perf := perf }) ∧
    ∀ k, k ≠ t.core → Tab.get (Core.reset k) cores k = s.core k := by
  obtain ⟨empty, tcache, used, grants, mapped, free, hrec⟩ := s.recorded_eq t.attr.ctx dst src
  have hcores : (s.recorded t.attr.ctx dst src).cores = s.cores := by rw [hrec]
  have hpending : (s.recorded t.attr.ctx dst src).pending = s.pending := by rw [hrec]
  unfold State.enqueued
  rw [State.recorded_at, hmark, ← hpending]
  generalize s.recorded t.attr.ctx dst src = r at hcores
  have hcore : ∀ k, ({ r with co := s.co + 1 } : State).core k = s.core k := fun k => congrArg (Tab.get (Core.reset k) · k) hcores
  obtain ⟨cores, heq⟩ := ({ r with co := s.co + 1 } : State).queued_eq t.core e cmd
  obtain ⟨perf, hhere⟩ := State.core_queued (s := { r with co := s.co + 1 }) (c := t.core) (e := e) (cmd := cmd)
    ((congrArg Tab.rising hcores).trans h.cores)
  refine ⟨cores, ?_, ⟨perf, ?_⟩, fun k hk => ?_⟩
  · rw [heq]
    dsimp only
    split
    · rfl
    · rw [List.append_nil]
  · rw [heq, hcore] at hhere
    exact hhere
  · have hother := State.core_queued_other ({ r with co := s.co + 1 } : State) hk e cmd
    rw [heq, hcore] at hother
    exact hother
theorem State.enqueued_admitted (h : s.Inv) (hmark : cmd.mark = s.co + 1) (t : Thread) (e : Engine) (dst src : List Nat) :
    Admitted s (s.enqueued t e cmd dst src) t e cmd dst src ∧ (s.enqueued t e cmd dst src).ctxs = s.ctxs ∧
      (s.enqueued t e cmd dst src).threads = s.threads ∧ (s.enqueued t e cmd dst src).cur = s.cur := by
  obtain ⟨empty, tcache, used, grants, mapped, free, hrec⟩ := s.recorded_eq t.attr.ctx dst src
  obtain ⟨cores, heq, hhere, hother⟩ := State.enqueued_eq h hmark t e dst src
  have hctxs : (s.enqueued t e cmd dst src).ctxs = s.ctxs := by rw [heq, hrec]
  have hthreads : (s.enqueued t e cmd dst src).threads = s.threads := by rw [heq, hrec]
  refine ⟨⟨?_, fun k hk => ?_, ?_, fun u _ => congrArg (Tab.find? · u) hthreads, .inl hctxs, ?_⟩, hctxs, hthreads, by rw [heq, hrec]⟩
  · rw [heq]; exact hhere
  · rw [heq]; exact hother k hk
  · rw [heq]
  · rw [heq]; rfl

/-- The thread whose turn it is may change after its command has entered, and its context makes progress (R388). -/
theorem Admitted.withThread (h : Admitted s s' t e cmd dst src) (hcur : s'.cur = s.cur) (t' : Thread) :
    Admitted s (s'.withThread t') t e cmd dst src where
  core := h.core
  cores := h.cores
  starts := h.starts
  others u hu := (State.thread?_withThread_other s' t' (hcur ▸ hu)).trans (h.others u hu)
  pages := h.pages
  rest := congrArg (fun r : State => { r with threads := (s'.withThread t').threads }) h.rest
theorem State.ctxs_restartDog {s r : State} (h : r.ctxs = s.ctxs) (ctx : Nat) : (r.restartDog ctx).ctxs = (s.restartDog ctx).ctxs := by
  have hpage : r.page? ctx = s.page? ctx := by
    unfold State.page?
    rw [h]
  unfold State.restartDog State.modCtx
  rw [hpage]
  cases s.page? ctx with
  | none => exact h
  | some p =>
    unfold State.modPage State.ctxPage
    dsimp only
    rw [h]
theorem State.restartDog_eq (s : State) (ctx : Nat) : s.restartDog ctx = { s with ctxs := (s.restartDog ctx).ctxs } := by
  unfold State.restartDog State.modCtx
  cases s.page? ctx with
  | none => rfl
  | some p => rfl
theorem Admitted.progress (h : Admitted s s' t e cmd dst src) (hctxs : s'.ctxs = s.ctxs) :
    Admitted s (s'.progress t.attr.ctx) t e cmd dst src := by
  unfold State.progress
  split
  · exact h
  · have hdog := s'.restartDog_eq t.attr.ctx
    rw [hdog]
    exact ⟨h.core, h.cores, h.starts, h.others, .inr (State.ctxs_restartDog hctxs _),
      congrArg (fun r : State => { r with ctxs := (s'.restartDog t.attr.ctx).ctxs }) h.rest⟩

end admitted

section engages
variable {s s₁ s₂ : State} {t t₂ : Thread} {fields sources : List (BitVec 5)} {g : BitVec 5} {e : Engine}

/-- A core whose engine state carries a context is not as reset left it (R299). -/
theorem Engages.core_ne_reset (h : Engages s s₁ t fields sources g e) : s₁.core t.core ≠ Core.reset t.core := by
  intro heq
  have htag := h.tag
  rw [heq] at htag
  cases htag
/-- Nobody waits for the entry, and it is free: the checks before a form's own leave the state as it is (R183, R299, R358). -/
theorem Engages.ready {β : Type} (h : Engages s s₁ t fields sources g e) (hsub : sources ⊆ fields) (m : Act β) :
    (Act.needEngine >>= fun _ => Act.needEntry e >>= fun _ => Act.ready sources [] >>= fun _ => m) s₁ = m s₁ := by
  have hengine : Act.needEngine s₁ = .ok () s₁ := by
    unfold Act.needEngine
    rw [Act.me_bind h.here, Act.get_bind, if_pos h.tag]
    rfl
  have hentry : Act.needEntry e s₁ = .ok () s₁ := by
    have hwait : setDel ((s₁.core t.core).qwait e) s₁.cur = (s₁.core t.core).qwait e := by rw [h.first]; rfl
    unfold Act.needEntry
    rw [Act.me_bind h.here, Act.get_bind]
    refine (congrFun (if_pos (by simp [h.first, h.free])) _).trans ?_
    rw [Act.modify_run, State.modCore_self h.canon.cores h.core_ne_reset (by rw [hwait]; exact Core.setWait_self ..)]
    unfold State.wakeQueue
    rw [h.first]
  rw [Act.bind_ok hengine, Act.bind_ok hentry, Act.bind_ok (h.toEnds.ready hsub)]
/-- An engine form, from what it does once it has an entry. -/
theorem Engages.issue (h : Engages s s₁ t fields sources g e) (hsub : sources ⊆ fields) {body : Act Unit} (hb : body s₁ = .ok () s₂)
    (ht : s₂.thread? s₂.cur = some t₂) : Act.go (Act.engineForm e fields sources g body) s = .next (s₂.pastEnd t₂ 4) :=
  Act.go_ok (Act.issue_closed h.toClosed .ending rfl ((h.ready hsub body).trans hb) ht)

/-- A form has put a command into an engine's queue, and its thread, `t'` now, has passed it. -/
def Queues (s s₁ : State) (t t' : Thread) (e : Engine) (i : Instr) (cmd : Cmd) (dst src : List Nat) : Prop :=
  ∃ s', exec i s = .next s' ∧ Admitted s₁ s' t e cmd dst src ∧ s'.thread? s₁.cur = some (t'.done 4)
/-- The thread of a form that has put its command into the queue passes it. -/
theorem Engages.queues_of (h : Engages s s₁ t fields sources g e) (hsub : sources ⊆ fields) {i : Instr} {body : Act Unit} {cmd : Cmd}
    {dst src : List Nat} (hi : exec i = Act.go (Act.engineForm e fields sources g body)) (hb : body s₁ = .ok () s₂)
    (hadmitted : Admitted s₁ s₂ t e cmd dst src) (hctxs : s₂.ctxs = s₁.ctxs) (hcur : s₂.cur = s₁.cur)
    (ht : s₂.thread? s₂.cur = some t₂) (hattr : t₂.attr = t.attr) : Queues s s₁ t t₂ e i cmd dst src := by
  refine ⟨_, (congrFun hi s).trans (h.issue hsub hb ht), ?_, hcur ▸ State.thread?_pastEnd ..⟩
  unfold State.pastEnd
  rw [hattr]
  exact (hadmitted.withThread hcur _).progress hctxs
theorem Engages.queues (h : Engages s s₁ t fields sources g e) (hsub : sources ⊆ fields) {i : Instr} {body : Act Unit} {op : EngOp} {r : Nat}
    {x y : Word} {dst src : List Nat} (hi : exec i = Act.go (Act.engineForm e fields sources g body))
    (hb : body s₁ = Act.enqueue e op r x y dst src s₁) : Queues s s₁ t t e i (s₁.newCmd t op r x y dst src) dst src := by
  obtain ⟨hadmitted, hctxs, hthreads, hcur⟩ := State.enqueued_admitted (cmd := s₁.newCmd t op r x y dst src) h.canon rfl t e dst src
  exact h.queues_of hsub hi (hb.trans (Act.enqueue_run h.here ..)) hadmitted hctxs hcur
    (by unfold State.thread?; rw [hthreads, hcur]; exact h.here) rfl
/-- The same for a form whose register then awaits the value (R186). -/
theorem Engages.queues_expects (h : Engages s s₁ t fields sources g e) (hsub : sources ⊆ fields) {i : Instr} {op : EngOp} {r : Nat}
    {x y : Word} {dst src : List Nat} (a : BitVec 5)
    (hi : exec i = Act.go (Act.engineForm e fields sources g (do Act.enqueue e op r x y dst src; Act.awaitFill a))) :
    Queues s s₁ t (t.expects a) e i (s₁.newCmd t op r x y dst src) dst src := by
  obtain ⟨hadmitted, hctxs, hthreads, hcur⟩ := State.enqueued_admitted (cmd := s₁.newCmd t op r x y dst src) h.canon rfl t e dst src
  have hhere : (s₁.enqueued t e (s₁.newCmd t op r x y dst src) dst src).thread?
      (s₁.enqueued t e (s₁.newCmd t op r x y dst src) dst src).cur = some t := by
    unfold State.thread?
    rw [hthreads, hcur]
    exact h.here
  exact h.queues_of hsub hi ((Act.bind_ok (Act.enqueue_run h.here ..)).trans (Act.modMe_run hhere _)) (hadmitted.withThread hcur _) hctxs hcur
    (State.thread?_withThread ..) rfl

end engages

/-! ### Spans of a vector form (R190) -/

section spans
variable {s : State} {t : Thread} {a : Word} {unit : Nat}

/-- Offsets that pass the checks give their addresses. -/
theorem Act.spanCheck_ok {off : Nat → Int} {va : Nat → Nat} (l : List Nat) (h : ∀ i ∈ l, checkAddr a (off i) unit false = .ok (va i)) :
    Act.spanCheck a unit (l.map off) s = .ok (l.map va) s := by
  induction l with
  | nil => rfl
  | cons i l ih =>
    unfold Act.spanCheck
    rw [List.map_cons]
    dsimp only
    rw [h i (List.mem_cons_self ..)]
    exact Act.bind_ok (ih fun j hj => h j (List.mem_cons_of_mem _ hj))
/-- Addresses that lead somewhere pass (R305). -/
theorem Act.spanServed_ok (h : s.thread? s.cur = some t) {p : Perm} (ns : List Nat)
    (hns : ∀ n ∈ ns, ∀ k, s.coreSpot t.core t.attr.ctx n p ≠ .bad k) : Act.spanServed p ns s = .ok () s := by
  induction ns with
  | nil => rfl
  | cons n ns ih =>
    have hrest := ih fun m hm => hns m (List.mem_cons_of_mem _ hm)
    have hn := hns n (List.mem_cons_self ..)
    unfold Act.spanServed
    rw [Act.me_bind h, Act.get_bind]
    cases hspot : s.coreSpot t.core t.attr.ctx n p with
    | bad k => exact absurd hspot (hn k)
    | near _ => exact hrest
    | remote _ _ => exact hrest
    | global _ _ => exact hrest
    | absent => exact hrest
theorem checkAddr_base {va : Nat} (h : checkAddr a 0 unit false = .ok va) : va = a.toNat % 2 ^ 48 := by
  unfold checkAddr at h
  split at h
  · cases h
  split at h
  · cases h
  dsimp only at h
  split at h
  · cases h
  split at h
  · cases h
  split at h
  · cases h
  · cases h
    omega
/-- A scale run whose pointer passes its checks: the lines of its 16 bytes. -/
theorem Act.runPointer_ok (h : s.thread? s.cur = some t) {p : Perm} (hopen : s.OpenExtent t p a 16 16) (hfmt : fmtOf a = 0) :
    Act.runPointer p a s = .ok (spanLines 16 [a.toNat % 2 ^ 48]) s := by
  obtain ⟨va, hva, -, -, hspot⟩ := hopen
  have hcheck : Act.spanCheck a 16 [0] s = .ok [va] s := Act.spanCheck_ok (off := fun _ => 0) (va := fun _ => va) [0] fun _ _ => hva
  unfold Act.runPointer
  rw [Act.bind_ok hcheck, if_neg (not_not.2 hfmt)]
  refine (Act.bind_ok (Act.spanServed_ok h [va] fun n hn => List.mem_singleton.1 hn ▸ hspot)).trans ?_
  rw [checkAddr_base hva]
  rfl

/-- Lanes whose addresses pass their checks and lead somewhere (R149, R305). -/
def State.OpenLanes (s : State) (t : Thread) (x : Word) (p : Perm) (off : Nat → Int) (va : Nat → Nat) : Prop :=
  ∀ i, i < 16 → checkAddr x (off i) (elemBytes (fmtOf x)) false = .ok (va i) ∧ ∀ k, s.coreSpot t.core t.attr.ctx (va i) p ≠ .bad k
/-- The lines of 16 elements. -/
def laneLines (x : Word) (va : Nat → Nat) : List Nat := spanLines (elemBytes (fmtOf x)) ((List.range 16).map va)
/-- The permission that a form's lanes need. -/
def lanePerm (store : Bool) : Perm := if store then .wr else .rd
/-- Lanes that pass: the form goes on with their addresses. -/
theorem State.OpenLanes.check {x : Word} {p : Perm} {off : Nat → Int} {va : Nat → Nat} (hl : s.OpenLanes t x p off va) :
    Act.spanCheck x (elemBytes (fmtOf x)) ((List.range 16).map off) s = .ok ((List.range 16).map va) s :=
  Act.spanCheck_ok _ fun i hi => (hl i (List.mem_range.1 hi)).1
theorem State.OpenLanes.served {x : Word} {p : Perm} {off : Nat → Int} {va : Nat → Nat} (hl : s.OpenLanes t x p off va)
    (h : s.thread? s.cur = some t) : Act.spanServed p ((List.range 16).map va) s = .ok () s := by
  refine Act.spanServed_ok h _ fun n hn => ?_
  obtain ⟨i, hi, rfl⟩ := List.mem_map.1 hn
  exact (hl i (List.mem_range.1 hi)).2

end spans

/-! ### The forms -/

section forms
variable {s s₁ : State} {t : Thread} {a b g : BitVec 5} {i : Instr} {op : EngOp} {store : Bool} {codes : Nat → Nat → Bool} {va : Nat → Nat}

/-- The lines that a vector form owns, and those it reads: a store keeps those of which it reads a part (R332). -/
def laneDst (store : Bool) (x : Word) (va : Nat → Nat) (run : List Nat) : List Nat := if store then (laneLines x va ++ run).eraseDups else []
def laneSrc (store : Bool) (x : Word) (va : Nat → Nat) (run : List Nat) : List Nat :=
  ((if store then (if isH4 (fmtOf x) then laneLines x va else []) else laneLines x va) ++ run).eraseDups

theorem Engages.lanes (h : Engages s s₁ t [a] [a] g .vector) (hi : exec i = Act.go (Act.vecLanes op store false codes a none g))
    (hl : s₁.OpenLanes t (t.val a) (lanePerm store) (fun i => elemOffset (fmtOf (t.val a)) i) va)
    (hc : codes (fmtOf (t.val a)) (blkOf (t.val a)) = true) :
    Queues s s₁ t t .vector i (s₁.newCmd t op 0 (t.val a) 0#64 (laneDst store (t.val a) va []) (laneSrc store (t.val a) va []))
      (laneDst store (t.val a) va []) (laneSrc store (t.val a) va []) := by
  refine h.queues (List.Subset.refl _) hi ?_
  rw [Act.read_bind h.here _ (h.port (List.mem_singleton.2 rfl))]
  refine (Act.pure_bind' (0#64 : Word) _ _).trans ?_
  refine (Act.bind_ok hl.check).trans ?_
  refine (congrFun (if_neg (by simp [hc])) _).trans ?_
  refine (Act.bind_ok (hl.served h.here)).trans ?_
  refine (Act.pure_bind' ([] : List Nat) _ _).trans ?_
  cases store
  case true => rfl
  case false => rfl
theorem Engages.stridedLanes (h : Engages s s₁ t [a, b] [a, b] g .vector) (hi : exec i = Act.go (Act.vecLanes op store true codes a (some b) g))
    (hl : s₁.OpenLanes t (t.val a) (lanePerm store) (fun i => i * (t.val b).toInt) va)
    (hc : codes (fmtOf (t.val a)) (blkOf (t.val a)) = true) :
    Queues s s₁ t t .vector i (s₁.newCmd t op 0 (t.val a) (t.val b) (laneDst store (t.val a) va []) (laneSrc store (t.val a) va []))
      (laneDst store (t.val a) va []) (laneSrc store (t.val a) va []) := by
  refine h.queues (List.Subset.refl _) hi ?_
  rw [Act.read_bind h.here _ (h.port (by simp))]
  refine (Act.read_bind h.here _ (h.port (by simp)) _).trans ?_
  refine (Act.bind_ok hl.check).trans ?_
  refine (congrFun (if_neg (by simp [hc])) _).trans ?_
  refine (Act.bind_ok (hl.served h.here)).trans ?_
  refine (Act.pure_bind' ([] : List Nat) _ _).trans ?_
  cases store
  case true => rfl
  case false => rfl
theorem Engages.scaledLanes (h : Engages s s₁ t [a, b] [a, b] g .vector) (hi : exec i = Act.go (Act.vecLanes op store false codes a (some b) g))
    (hl : s₁.OpenLanes t (t.val a) (lanePerm store) (fun i => elemOffset (fmtOf (t.val a)) i) va)
    (hc : codes (fmtOf (t.val a)) (blkOf (t.val a)) = true) (hrun : s₁.OpenExtent t (lanePerm store) (t.val b) 16 16)
    (hf : fmtOf (t.val b) = 0) (run : List Nat) (hr : run = spanLines 16 [(t.val b).toNat % 2 ^ 48]) :
    Queues s s₁ t t .vector i (s₁.newCmd t op 0 (t.val a) (t.val b) (laneDst store (t.val a) va run) (laneSrc store (t.val a) va run))
      (laneDst store (t.val a) va run) (laneSrc store (t.val a) va run) := by
  subst hr
  refine h.queues (List.Subset.refl _) hi ?_
  rw [Act.read_bind h.here _ (h.port (by simp))]
  refine (Act.read_bind h.here _ (h.port (by simp)) _).trans ?_
  refine (Act.bind_ok hl.check).trans ?_
  refine (congrFun (if_neg (by simp [hc])) _).trans ?_
  refine (Act.bind_ok (hl.served h.here)).trans ?_
  refine (Act.bind_ok (Act.runPointer_ok h.here hrun hf)).trans ?_
  cases store
  case true => rfl
  case false => rfl

theorem laneDst_load (x : Word) (va : Nat → Nat) (run : List Nat) : laneDst false x va run = [] := rfl
theorem laneSrc_load (x : Word) (va : Nat → Nat) : laneSrc false x va [] = (laneLines x va).eraseDups :=
  congrArg List.eraseDups (List.append_nil _)
theorem laneDst_store (x : Word) (va : Nat → Nat) : laneDst true x va [] = (laneLines x va).eraseDups :=
  congrArg List.eraseDups (List.append_nil _)
theorem laneSrc_store (x : Word) (va : Nat → Nat) :
    laneSrc true x va [] = (if isH4 (fmtOf x) then laneLines x va else []).eraseDups := congrArg List.eraseDups (List.append_nil _)

/-- VPUTS and VGETS (R196). -/
theorem Engages.run (h : Engages s s₁ t [a] [a] g .vector) {p : Perm} {dst src : List Nat → List Nat}
    (hi : exec i = Act.go (Act.engineForm .vector [a] [a] g (do
      let x ← Act.read [] a
      let lines ← Act.runPointer p x
      Act.enqueue .vector op 0 x 0#64 (dst lines) (src lines)))) (hopen : s₁.OpenExtent t p (t.val a) 16 16) (hf : fmtOf (t.val a) = 0)
    (here : List Nat) (hh : here = spanLines 16 [(t.val a).toNat % 2 ^ 48]) :
    Queues s s₁ t t .vector i (s₁.newCmd t op 0 (t.val a) 0#64 (dst here) (src here)) (dst here) (src here) := by
  subst hh
  refine h.queues (List.Subset.refl _) hi ?_
  rw [Act.read_bind h.here _ (h.port (List.mem_singleton.2 rfl)), Act.bind_ok (Act.runPointer_ok h.here hopen hf)]

/-- The V forms, and the command that each is (R198). -/
def vecForms (n d a b : BitVec 4) (k m : BitVec 2) (g : BitVec 5) : List (Instr × EngOp) :=
  [(.vadd d a b m g, .vfun .add d a b m), (.vsub d a b m g, .vfun .sub d a b m), (.vmul d a b m g, .vfun .mul d a b m),
    (.vfma d a b m g, .vfun .fma d a b m), (.vmin d a b m g, .vfun .min d a b m), (.vmax d a b m g, .vfun .max d a b m),
    (.vabs d a m g, .vfun .abs d a 0#4 m), (.vneg d a m g, .vfun .neg d a 0#4 m), (.vrndRne d a m g, .vfun (.rnd 0) d a 0#4 m),
    (.vrndRz d a m g, .vfun (.rnd 1) d a 0#4 m), (.vrndRd d a m g, .vfun (.rnd 2) d a 0#4 m), (.vrndRu d a m g, .vfun (.rnd 3) d a 0#4 m),
    (.vfexp2 d a m g, .vfun .exp2 d a 0#4 m), (.vscale d a b m g, .vfun .scale d a b m), (.vrcp d a m g, .vfun .rcp d a 0#4 m),
    (.vrsq d a m g, .vfun .rsq d a 0#4 m), (.vcmpEq k a b m g, .vcmp 0 k a b m), (.vcmpNe k a b m g, .vcmp 1 k a b m),
    (.vcmpLt k a b m g, .vcmp 2 k a b m), (.vcmpLe k a b m g, .vcmp 3 k a b m), (.vcmpGt k a b m g, .vcmp 4 k a b m),
    (.vcmpGe k a b m g, .vcmp 5 k a b m), (.vcmpUn k a b m g, .vcmp 6 k a b m), (.vcmpOr k a b m g, .vcmp 7 k a b m),
    (.vsel d a b m g, .vsel d a b m), (.viadd d a b m g, .vfun .iadd d a b m), (.visub d a b m g, .vfun .isub d a b m),
    (.vimul d a b m g, .vfun .imul d a b m), (.vand d a b m g, .vfun .and d a b m), (.vor d a b m g, .vfun .or d a b m),
    (.vxor d a b m g, .vfun .xor d a b m), (.vshl d a b m g, .vfun .shl d a b m), (.vshr d a b m g, .vfun .shr d a b m),
    (.vshrS d a b m g, .vfun .shrS d a b m), (.vrsum d a m g, .vfun .rsum d a 0#4 m), (.vnzc d a m g, .vfun .nzc d a 0#4 m),
    (.vnzb d a m g, .vfun .nzb d a 0#4 m), (.vperm d a b m g, .vfun .perm d a b m), (.vslide n d a b m g, .vslide n d a b m),
    (.vcvtF2i d a m g, .vfun .f2i d a 0#4 m), (.vcvtF2iRz d a m g, .vfun .f2iRz d a 0#4 m), (.vcvtI2f d a m g, .vfun .i2f d a 0#4 m),
    (.vcvtF2b d a m g, .vfun .f2b d a 0#4 m), (.vcvtB2f d a m g, .vfun .b2f d a 0#4 m), (.vcvtF2h d a m g, .vfun .f2h d a 0#4 m),
    (.vcvtH2f d a m g, .vfun .h2f d a 0#4 m)]
theorem exec_vecForms (n d a b : BitVec 4) (k m : BitVec 2) (g : BitVec 5) :
    ∀ p ∈ vecForms n d a b k m g, exec p.1 = Act.go (Act.vecForm p.2 g) := by
  unfold vecForms
  repeat refine List.forall_mem_cons.2 ⟨rfl, ?_⟩
  exact List.forall_mem_nil _
theorem Engages.vcfg (h : Engages s s₁ t [a] [a] g .vector) (r : BitVec 6)
    (hlegal : r = 0#6 → t.val a &&& ~~~0xFF3#64 = 0#64 ∧ (t.val a).toNat / 16 % 16 ≤ 4) :
    Queues s s₁ t t .vector (.vcfg r a g) (s₁.newCmd t (.vcfg r) 0 (t.val a) 0#64 [] []) [] [] := by
  refine h.queues (List.Subset.refl _) rfl ?_
  rw [Act.read_bind h.here _ (h.port (List.mem_singleton.2 rfl)), if_neg]
  simpa using hlegal
/-- VLDX, when the engine that it will find is known: the lines of its active lanes (R192, log 113). -/
theorem Engages.vldx (h : Engages s s₁ t [a] [a] g .vector) (v : BitVec 4) (ht : badTag (t.val a) = false) (hr : isRef (t.val a) = false)
    (h4 : isH4 (fmtOf (t.val a)) = false) {ve : VeState} (hve : s₁.veAhead t.core = some ve) (lines : List Nat)
    (hl : lines = spanLines (elemBytes (fmtOf (t.val a))) (((List.range 16).filter (ve.active ve.mms)).filterMap (ve.laneAddr v (t.val a)))) :
    Queues s s₁ t t .vector (.vldx v a g) (s₁.newCmd t (.vldx v) 0 (t.val a) 0#64 [] lines) [] lines := by
  subst hl
  refine h.queues (List.Subset.refl _) rfl ?_
  rw [Act.read_bind h.here _ (h.port (List.mem_singleton.2 rfl)), ht, hr, h4]
  refine (Act.me_bind h.here _).trans ?_
  rw [Act.get_bind, hve]

end forms

/-- Settles O36: nothing holds a form back before its own checks, which its operands pass, and its command then takes the entry. -/
theorem vectorCommands : Obligations.VectorCommands := by
  intro s s₁ t g
  refine ⟨fun n d a b k m h p hp => h.queues (List.Subset.refl _) (exec_vecForms n d a b k m g p hp) rfl,
    fun r a h => h.vcfg r, fun r a h => h.queues_expects (List.nil_subset _) a rfl, fun v a b => ⟨?_, ?_, ?_⟩⟩
  · intro h va
    refine ⟨fun hl => ?_, fun hl => ?_⟩
    · have hq := h.lanes (i := .vld v a g) (store := false) rfl hl rfl
      rw [laneSrc_load] at hq
      exact hq
    · have hq := h.lanes (i := .vst v a g) (store := true) rfl hl rfl
      rw [laneSrc_store, laneDst_store] at hq
      exact hq
  · intro h
    exact ⟨fun ht hr h4 ve hve => h.vldx v ht hr h4 hve _ rfl,
      fun hrun => h.run (dst := id) (src := fun _ => []) rfl hrun.1 hrun.2 _ rfl,
      fun hrun => h.run (dst := fun _ => []) (src := id) rfl hrun.1 hrun.2 _ rfl⟩
  · intro h va
    refine ⟨fun hl h4 => ?_, fun hl hf hlo hhi hrun => ?_, fun hl hf hlo hhi hrun => ?_⟩
    · have hq := h.stridedLanes (i := .vlds v a b g) (store := false) rfl hl (by simp [h4])
      rw [laneSrc_load] at hq
      exact hq
    · exact h.scaledLanes (i := .vldb v a b g) (store := false) rfl hl (by simp [hf, hlo, hhi]) hrun.1 hrun.2 _ rfl
    · exact h.scaledLanes (i := .vstb v a b g) (store := true) rfl hl (by simp [hf, hlo, hhi]) hrun.1 hrun.2 _ rfl

end Sys2Proof.Machine

/-! ## What a V form leaves (O39) -/

namespace Sys2Proof.Machine

/-! ### The start of a vector command (R184) -/

section start
variable {s : State} {c : Nat} {e : Engine} {cmd : Cmd} {rest : List Cmd}

theorem State.core_touchSource (s : State) (cmd : Cmd) (k : Nat) : (s.touchSource cmd).core k = s.core k := by
  unfold State.core State.touchSource
  rw [State.cores_touchPlaces]
theorem State.core_usePages (s : State) (ctx : Nat) (vs : List Nat) (write : Bool) (k : Nat) : (s.usePages ctx vs write).core k = s.core k := by
  obtain ⟨_, _, _, _, _, _, h⟩ := s.usePages_records ctx vs write
  rw [h]
  rfl
theorem State.modCore_congr {f k : Core → Core} (h : f (s.core c) = k (s.core c)) : s.modCore c f = s.modCore c k := by
  unfold State.modCore
  rw [h]
/-- Only the head of a queue that has one is changed. -/
theorem State.modHead_of (hq : (s.core c).queue e = cmd :: rest) (f : Cmd → Cmd) : s.modHead c e f = s.modHead c e fun _ => f cmd :=
  State.modCore_congr (by rw [hq])

/-- A vector command is started: `ve` is what it will leave, its completion is on its way, and the lines and pages of its sources are noted. -/
def State.VecLeaves (s : State) (c : Nat) (cmd : Cmd) (ve : VeState) : Prop :=
  ∃ cmd', cmd'.result = some { EngResult.nothing with ve := some ve } ∧ cmd'.op = cmd.op ∧ cmd'.uid = cmd.uid ∧
    exec (.engineCommandStart c .vector) s =
      .next (((((s.touchSource cmd).usePages cmd.ctx cmd.vsrc false).modHead c .vector (fun _ => cmd')).push (.vectorCommandCompletion c)).wakeOwned)

/-- The head command, held back by nothing, that leaves a new state of the engine and no more. -/
theorem State.vecLeaves (hq : (s.core c).vq = cmd :: rest) (hr : cmd.result = none) (hw : s.engWaits c .vector cmd = false) {ve : VeState}
    (hrun : (s.touchSource cmd).vecRun c cmd false = .ok { EngResult.nothing with ve := some ve }) : s.VecLeaves c cmd ve := by
  have hqueue : (((s.touchSource cmd).usePages cmd.ctx cmd.vsrc false).core c).queue .vector = cmd :: rest := by
    rw [State.core_usePages, State.core_touchSource]
    exact hq
  have hhead : s.headCmd c .vector = some cmd := congrArg List.head? hq
  refine ⟨{ cmd with
    result := some { EngResult.nothing with ve := some ve }, src := [], vsrc := [], dst := (cmd.dst ++ []).eraseDups, stalled := false },
    rfl, rfl, rfl, congrArg Host.Outcome.next ?_⟩
  show s.engStart c .vector false (.vectorCommandCompletion c) (fun s => s.vecRun c) = _
  unfold State.engStart
  rw [hhead]
  dsimp only
  rw [if_neg (by simp [hr]), if_neg (by simp [hw]), hrun]
  dsimp only
  rw [State.modHead_of (s := State.usePages _ _ _ true) (rest := rest)]
  · rfl
  · exact hqueue

variable (hq : (s.core c).vq = cmd :: rest) (hr : cmd.result = none) (hw : s.engWaits c .vector cmd = false) {d a b : BitVec 4} {m : BitVec 2}
include hq hr hw

theorem State.vecLeaves_vfun {f : VFun} (hop : cmd.op = .vfun f d a b m) :
    s.VecLeaves c cmd ((s.core c).eng.ve.run (s.core c).tab f d a b m) := by
  refine State.vecLeaves hq hr hw ?_
  unfold State.vecRun
  rw [hop, State.core_touchSource]
theorem State.vecLeaves_vcmp {j : Nat} {k : BitVec 2} (hop : cmd.op = .vcmp j k a b m) :
    s.VecLeaves c cmd ((s.core c).eng.ve.compare j k a b m) := by
  refine State.vecLeaves hq hr hw ?_
  unfold State.vecRun
  rw [hop, State.core_touchSource]
theorem State.vecLeaves_vsel (hop : cmd.op = .vsel d a b m) : s.VecLeaves c cmd ((s.core c).eng.ve.select d a b m) := by
  refine State.vecLeaves hq hr hw ?_
  unfold State.vecRun
  rw [hop, State.core_touchSource]
theorem State.vecLeaves_vslide {n : BitVec 4} (hop : cmd.op = .vslide n d a b m) :
    s.VecLeaves c cmd ((s.core c).eng.ve.slide n d a b m) := by
  refine State.vecLeaves hq hr hw ?_
  unfold State.vecRun
  rw [hop, State.core_touchSource]

end start

/-! ### Lanes and flags -/

section lanes
variable (ve : VeState) (tab : Nat → DTable) (d a b : BitVec 4) (m : BitVec 2)

theorem Store.length_cells {w : Nat} (l : Store w) (n : Nat) : ∀ k, (Store.cells l k n).length = n := by
  induction n with
  | zero => exact fun _ => rfl
  | succ n ih => exact fun k => congrArg (· + 1) (ih (k + 1))
theorem VeState.length_reg (v : BitVec 4) : (ve.reg v).length = 16 := Store.length_cells ..

/-- The forms that work lane by lane. -/
def VFun.lanewise : VFun → Bool
  | .rsum => false
  | .nzc => false
  | .nzb => false
  | .perm => false
  | _ => true
/-- Lane `i` of a form that works lane by lane: an active one gets its value and raises its flags, another keeps what it holds (R185). -/
def VeState.laneOut (f : Half → Half → Half → Half × Flags) (i : Nat) : Half × Flags :=
  if ve.active m i then f ((ve.reg a).getD i 0#32) ((ve.reg b).getD i 0#32) ((ve.reg d).getD i 0#32) else ((ve.reg d).getD i 0#32, 0#6)
theorem VeState.run_lanewise {f : VFun} (hf : f.lanewise = true) {op : Half → Half → Half → Half × Flags}
    (hop : ∀ x y o, f.lane ve.fz ve.sat x y o = op x y o) : ve.run tab f d a b m =
      (ve.setReg d ((List.range 16).map (fun i => (ve.laneOut d a b m op i).1))).raise
        ((List.range 16).foldl (fun n i => n ||| (ve.laneOut d a b m op i).2) 0#6) := by
  have hlane : f.lane ve.fz ve.sat = op := funext fun x => funext fun y => funext fun o => hop x y o
  subst hlane
  unfold VeState.run
  dsimp only
  split
  case h_1 => cases hf
  case h_2 => cases hf
  case h_3 => cases hf
  case h_4 => cases hf
  case h_5 =>
    rw [List.map_map, List.foldl_map]
    rfl
theorem VeState.slide_eq (n : BitVec 4) : ve.slide n d a b m = ve.setReg d ((List.range 16).map (fun i => if ve.active m i then
    (if i + n.toNat < 16 then (ve.reg a).getD (i + n.toNat) 0#32 else (ve.reg b).getD (i + n.toNat - 16) 0#32)
    else (ve.reg d).getD i 0#32)) := by
  have hlane : ∀ i, (ve.reg a ++ ve.reg b).getD i 0#32 =
      if i < 16 then (ve.reg a).getD i 0#32 else (ve.reg b).getD (i - 16) 0#32 := by
    intro i
    have ha := ve.length_reg a
    split
    · exact List.getD_append _ _ _ _ (by omega)
    · rw [List.getD_append_right _ _ _ _ (by omega), ha]
  unfold VeState.slide
  simp only [hlane]

/-! ### Masks (R202) -/

/-- Bits put together from the lowest up. -/
theorem testBit_foldr (l : List (Bool × Flags)) (i : Nat) (hi : i < l.length) :
    (l.foldr (fun (o : Bool × Flags) (n : Nat) => (if o.1 then 1 else 0) + 2 * n) 0).testBit i = l[i].1 := by
  induction l generalizing i with
  | nil => cases hi
  | cons o l ih =>
    rw [List.foldr_cons]
    generalize l.foldr (fun (o : Bool × Flags) (n : Nat) => (if o.1 then 1 else 0) + 2 * n) 0 = n at ih
    have hlow : ((if o.1 then 1 else 0) + 2 * n) / 2 = n := by split <;> omega
    cases i with
    | zero => cases ho : o.1 <;> simp [ho, Nat.testBit_zero, Nat.add_mod]
    | succ i =>
      rw [Nat.testBit_succ, hlow]
      exact ih i (Nat.lt_of_succ_lt_succ hi)
theorem VeState.mask_setMask (k : BitVec 2) (x : BitVec 16) : (ve.setMask k x).mask k = x := by
  obtain ⟨⟨k, hk⟩⟩ := k
  interval_cases k <;> rfl
theorem VeState.lanes_setMask (k : BitVec 2) (x : BitVec 16) : (ve.setMask k x).lanes = ve.lanes := by
  unfold VeState.setMask
  split <;> rfl
theorem VeState.mask_compare (j : Nat) (k : BitVec 2) {i : Nat} (hi : i < 16) : ((ve.compare j k a b m).mask k).getLsbD i =
    if ve.active m i then (vecCond j).holds (laneF ve.fz ((ve.reg a).getD i 0#32)) (laneF ve.fz ((ve.reg b).getD i 0#32))
    else (ve.mask k).getLsbD i := by
  unfold VeState.compare
  extract_lets xs ys old out new
  have hmask : ((ve.setMask k new).raise (out.foldl (fun n o => n ||| o.2) 0#6)).mask k = new := ve.mask_setMask k new
  have hlen : out.length = 16 := by simp [out]
  rw [hmask, BitVec.getLsbD_ofNat, testBit_foldr out i (by omega)]
  simp only [out, hi, List.getElem_map, List.getElem_range, decide_true, Bool.true_and]
  split <;> rfl
theorem VeState.lanes_compare (j : Nat) (k : BitVec 2) : (ve.compare j k a b m).lanes = ve.lanes := ve.lanes_setMask ..

end lanes

/-! ### The tree of R84 -/

section tree
variable (fz sat : Bool)

/-- Two neighbours of a level, added with one rounding. -/
def pairSum (v : Nat → FV) (i : Nat) : Nat × Flags := round F32 fz sat ((v (2 * i)).add (v (2 * i + 1)))
/-- The next level. -/
def nextLevel (v : Nat → FV) (i : Nat) : FV := value F32 (pairSum fz sat v i).1
/-- The flags of the first `n` sums of a level. -/
def levelFlags (n : Nat) (v : Nat → FV) : Flags := (List.range n).foldl (fun f i => f ||| (pairSum fz sat v i).2) 0#6

theorem foldl_or {α : Type} (g : α → Flags) (l : List α) (x : Flags) :
    l.foldl (fun f i => f ||| g i) x = x ||| l.foldl (fun f i => f ||| g i) 0#6 := by
  induction l generalizing x with
  | nil => simp
  | cons i l ih => rw [List.foldl_cons, List.foldl_cons, ih (x ||| g i), ih (0#6 ||| g i), BitVec.zero_or, BitVec.or_assoc]
theorem sumPairs_level (v : Nat → FV) (l : List Nat) : sumPairs fz sat (l.flatMap fun i => [v (2 * i), v (2 * i + 1)]) =
    (l.map (nextLevel fz sat v), l.foldl (fun f i => f ||| (pairSum fz sat v i).2) 0#6) := by
  induction l with
  | nil => rfl
  | cons i l ih =>
    have hcons : sumPairs fz sat ((i :: l).flatMap fun i => [v (2 * i), v (2 * i + 1)]) =
        (nextLevel fz sat v i :: (sumPairs fz sat (l.flatMap fun i => [v (2 * i), v (2 * i + 1)])).1,
          (pairSum fz sat v i).2 ||| (sumPairs fz sat (l.flatMap fun i => [v (2 * i), v (2 * i + 1)])).2) := rfl
    rw [hcons, ih, List.foldl_cons, BitVec.zero_or, foldl_or (fun i => (pairSum fz sat v i).2) l (pairSum fz sat v i).2]
    rfl
theorem treeSum_levels (v : Nat → FV) :
    let v1 := nextLevel fz sat v
    let v2 := nextLevel fz sat v1
    let v3 := nextLevel fz sat v2
    treeSum fz sat ((List.range 16).map v) = (BitVec.ofNat 32 (pairSum fz sat v3 0).1,
      levelFlags fz sat 8 v ||| levelFlags fz sat 4 v1 ||| levelFlags fz sat 2 v2 ||| levelFlags fz sat 1 v3) := by
  intro v1 v2 v3
  have h0 : sumPairs fz sat ((List.range 16).map v) = ((List.range 8).map v1, levelFlags fz sat 8 v) := sumPairs_level fz sat v (List.range 8)
  have h1 : sumPairs fz sat ((List.range 8).map v1) = ((List.range 4).map v2, levelFlags fz sat 4 v1) := sumPairs_level fz sat v1 (List.range 4)
  have h2 : sumPairs fz sat ((List.range 4).map v2) = ((List.range 2).map v3, levelFlags fz sat 2 v2) := sumPairs_level fz sat v2 (List.range 2)
  have h3 : levelFlags fz sat 1 v3 = (pairSum fz sat v3 0).2 := BitVec.zero_or
  unfold treeSum
  rw [h0]
  dsimp only
  rw [h1]
  dsimp only
  rw [h2, h3]
  rfl

end tree

/-! ### Nonzero codes (R206) -/

section codes

theorem nzBits_lanes (kind : Nat) : 0 < 32 / nzBits kind ∧ 512 / nzBits kind = 16 * (32 / nzBits kind) := by
  unfold nzBits
  split
  · decide
  split
  · decide
  split <;> decide
/-- The numbers of 16 lanes of `w` codes each are those below 16 w, in order. -/
theorem range_lanes (n w : Nat) : (List.range n).flatMap (fun i => (List.range w).map (fun p => i * w + p)) = List.range (n * w) := by
  induction n with
  | zero => simp
  | succ n ih => rw [List.range_succ, List.flatMap_append, ih, Nat.succ_mul, List.range_add, List.flatMap_singleton]
theorem filterMap_ite {α β : Type} (p : α → Bool) (f : α → β) (l : List α) :
    l.filterMap (fun x => if p x then some (f x) else none) = (l.filter p).map f := by
  induction l with
  | nil => rfl
  | cons x l ih => cases hx : p x <;> simp [hx, ih]
/-- The codes that VNZC counts and VNZB marks: those of active lanes that are not zero. -/
def VeState.codesOf (ve : VeState) (tab : Nat → DTable) (xs : List Half) (act : Nat → Bool) : List Nat :=
  let bits := nzBits ve.nzk
  (List.range (512 / bits)).filter (fun e => act (e / (32 / bits)) &&
    nzCode ve.nzk (tab ve.nzt) ((xs.getD (e / (32 / bits)) 0#32).toNat / 2 ^ (bits * (e % (32 / bits))) % 2 ^ bits))
theorem VeState.nonzero_eq (ve : VeState) (tab : Nat → DTable) (xs : List Half) (act : Nat → Bool) :
    ve.nonzero tab xs act = ve.codesOf tab xs act := by
  obtain ⟨hpos, hall⟩ := nzBits_lanes ve.nzk
  unfold VeState.nonzero VeState.codesOf
  dsimp only
  generalize 32 / nzBits ve.nzk = w at hpos hall
  rw [hall, ← range_lanes, List.filter_flatMap]
  refine List.flatMap_congr fun i _ => ?_
  rw [List.filter_map]
  have hnumber : ∀ p ∈ List.range w, (i * w + p) / w = i ∧ (i * w + p) % w = p := by
    intro p hp
    have hlt := List.mem_range.1 hp
    exact ⟨by rw [Nat.mul_comm, Nat.mul_add_div hpos, Nat.div_eq_of_lt hlt, Nat.add_zero],
      by rw [Nat.mul_comm, Nat.mul_add_mod, Nat.mod_eq_of_lt hlt]⟩
  cases hact : act i with
  | false =>
    rw [if_neg Bool.false_ne_true, List.filter_eq_nil_iff.2, List.map_nil]
    intro p hp
    obtain ⟨hdiv, -⟩ := hnumber p hp
    simp [hdiv, hact]
  | true =>
    rw [if_pos rfl, filterMap_ite]
    congr 1
    refine List.filter_congr fun p hp => ?_
    obtain ⟨hdiv, hmod⟩ := hnumber p hp
    simp [hdiv, hmod, hact]

/-- A power of 2 added where its bit is clear sets that bit alone. -/
theorem testBit_add_pow {n k : Nat} (h : n.testBit k = false) (j : Nat) : (n + 2 ^ k).testBit j = (n.testBit j || decide (j = k)) := by
  induction k generalizing n j with
  | zero =>
    have heven : n % 2 = 0 := by simpa [Nat.testBit_zero] using h
    have hhalf : (n + 2 ^ 0) / 2 = n / 2 := by omega
    cases j with
    | zero => simp [Nat.testBit_zero]; omega
    | succ j => rw [Nat.testBit_succ, hhalf, Nat.testBit_succ, decide_eq_false (Nat.succ_ne_zero j), Bool.or_false]
  | succ k ih =>
    have hhalf : (n + 2 ^ (k + 1)) / 2 = n / 2 + 2 ^ k := by omega
    rw [Nat.testBit_succ] at h
    cases j with
    | zero => simp [Nat.testBit_zero]; omega
    | succ j => simp [Nat.testBit_succ, hhalf, ih h]
theorem testBit_sum_pow {ks : List Nat} (hks : ks.Nodup) (j : Nat) : ∀ n : Nat, (∀ k ∈ ks, n.testBit k = false) →
    (ks.foldl (fun n k => n + 2 ^ k) n).testBit j = (n.testBit j || decide (j ∈ ks)) := by
  induction ks with
  | nil => intro n _; simp
  | cons k ks ih =>
    intro n h
    obtain ⟨hk, hks⟩ := List.nodup_cons.1 hks
    have hclear := h k (List.mem_cons_self ..)
    rw [List.foldl_cons, ih hks, testBit_add_pow hclear]
    · simp [Bool.or_assoc]
    · intro i hi
      have hne : i ≠ k := fun he => hk (he ▸ hi)
      rw [testBit_add_pow hclear, h i (List.mem_cons_of_mem _ hi), decide_eq_false hne]
      rfl
/-- The lane that VNZB leaves: bit `c % 32` of lane `c / 32` for each of some different codes. -/
theorem getLsbD_codeLane {cs : List Nat} (hcs : cs.Nodup) (i j : Nat) (hj : j < 32) :
    (BitVec.ofNat 32 ((cs.filter (fun c => decide (c / 32 = i))).foldl (fun n c => n + 2 ^ (c % 32)) 0)).getLsbD j = decide (32 * i + j ∈ cs) := by
  have hfold : (cs.filter (fun c => decide (c / 32 = i))).foldl (fun n c => n + 2 ^ (c % 32)) 0 =
      ((cs.filter (fun c => decide (c / 32 = i))).map (· % 32)).foldl (fun n k => n + 2 ^ k) 0 :=
    (List.foldl_map (f := (· % 32)) (g := fun n k => n + 2 ^ k)).symm
  have hnodup : ((cs.filter (fun c => decide (c / 32 = i))).map (· % 32)).Nodup := by
    refine List.Nodup.map_on (fun x hx y hy hxy => ?_) (hcs.filter _)
    simp only [List.mem_filter, decide_eq_true_eq] at hx hy
    omega
  rw [BitVec.getLsbD_ofNat, hfold, testBit_sum_pow hnodup j 0 (by simp)]
  simp only [hj, decide_true, Bool.true_and, Nat.zero_testBit, Bool.false_or, decide_eq_decide, List.mem_map, List.mem_filter, decide_eq_true_eq]
  constructor
  · rintro ⟨x, ⟨hx, hi⟩, rfl⟩
    rwa [show 32 * i + x % 32 = x by omega]
  · intro h
    exact ⟨_, ⟨h, by omega⟩, by omega⟩

end codes

/-- VRSUM (R206, R84). -/
theorem VeState.run_rsum (ve : VeState) (tab : Nat → DTable) (d a b : BitVec 4) (m : BitVec 2) :
    let v0 (i : Nat) : FV := if ve.active m i then laneF ve.fz ((ve.reg a).getD i 0#32) else .zero true
    let v1 := nextLevel ve.fz ve.sat v0
    let v2 := nextLevel ve.fz ve.sat v1
    let v3 := nextLevel ve.fz ve.sat v2
    ve.run tab .rsum d a b m = (ve.setReg d (laneZero (BitVec.ofNat 32 (pairSum ve.fz ve.sat v3 0).1))).raise
      (levelFlags ve.fz ve.sat 8 v0 ||| levelFlags ve.fz ve.sat 4 v1 ||| levelFlags ve.fz ve.sat 2 v2 ||| levelFlags ve.fz ve.sat 1 v3) := by
  intro v0 v1 v2 v3
  have htree := treeSum_levels ve.fz ve.sat v0
  unfold VeState.run
  dsimp only at htree ⊢
  rw [htree]
/-- VNZC (R206). -/
theorem VeState.run_nzc (ve : VeState) (tab : Nat → DTable) (d a b : BitVec 4) (m : BitVec 2) :
    ve.run tab .nzc d a b m = ve.setReg d (laneZero (BitVec.ofNat 32 (ve.codesOf tab (ve.reg a) (ve.active m)).length)) := by
  rw [← VeState.nonzero_eq]
  rfl
/-- The lanes that VNZB leaves. -/
def codeLanes (cs : List Nat) : List Half :=
  (List.range 16).map (fun i => BitVec.ofNat 32 ((cs.filter (fun c => decide (c / 32 = i))).foldl (fun n c => n + 2 ^ (c % 32)) 0))
theorem VeState.run_nzb (ve : VeState) (tab : Nat → DTable) (d a b : BitVec 4) (m : BitVec 2) :
    ve.run tab .nzb d a b m = ve.setReg d (codeLanes (ve.codesOf tab (ve.reg a) (ve.active m))) := by
  rw [← VeState.nonzero_eq]
  rfl
theorem VeState.nodup_codesOf (ve : VeState) (tab : Nat → DTable) (xs : List Half) (act : Nat → Bool) : (ve.codesOf tab xs act).Nodup :=
  List.nodup_range.filter _
theorem getLsbD_codeLanes {cs : List Nat} (hcs : cs.Nodup) (i j : Nat) (hi : i < 16) (hj : j < 32) :
    ((codeLanes cs).getD i 0#32).getLsbD j = decide (32 * i + j ∈ cs) := by
  have hlen : i < (codeLanes cs).length := by simpa [codeLanes] using hi
  rw [List.getD_eq_getElem _ _ hlen, ← getLsbD_codeLane hcs i j hj]
  simp only [codeLanes, List.getElem_map, List.getElem_range]

/-- VRSQ of a lane (R201): an infinity and DZ of a zero, else one rounding. -/
theorem VFun.lane_rsq (fz sat : Bool) (x y o : Half) (rootOver : FV → FV) (hz : ∀ n, rootOver (.zero n) = .inf n)
    (hr : ∀ v : FV, v.isZero = false → rootOver v = FV.div (.ofInt 1) v.sqrt) : VFun.rsq.lane fz sat x y o =
      ((laneR fz sat (rootOver (laneF fz x))).1,
        (laneR fz sat (rootOver (laneF fz x))).2 ||| if (laneF fz x).isZero then flagDZ else 0#6) := by
  have hlane : VFun.rsq.lane fz sat x y o = ((laneR fz sat (vecRsq (laneF fz x)).1).1,
      (laneR fz sat (vecRsq (laneF fz x)).1).2 ||| (vecRsq (laneF fz x)).2) := rfl
  rw [hlane]
  cases laneF fz x with
  | zero n => rw [hz]; rfl
  | num q => rw [hr _ rfl]; rfl
  | inf n => rw [hr _ rfl]; rfl
  | nan n => rw [hr _ rfl]; rfl

/-- Settles O39: a V form at the head runs on the engine as it stands, and each form leaves the state that its rule gives. -/
theorem vectorResults : Obligations.VectorResults := by
  intro s c cmd rest _ hq hr hw ve fz sat lane leaves rnd with' toInt narrow expTwo rootOver d a b k m n add v0 v1 v2 v3 sums first bits codes
  have hvfun {f : VFun} (hop : cmd.op = .vfun f d a b m) : s.VecLeaves c cmd (ve.run (s.core c).tab f d a b m) :=
    State.vecLeaves_vfun hq hr hw hop
  refine ⟨fun hop => ?_, fun hop => ?_, fun hop => ?_, ?_, fun j hop => ?_, fun hop => State.vecLeaves_vsel hq hr hw hop, fun hop => hvfun hop,
    fun hop => ?_⟩
  · have hrun := hvfun hop
    rw [VeState.run_rsum] at hrun
    exact hrun
  · have hrun := hvfun hop
    rw [VeState.run_nzc] at hrun
    exact hrun
  · have hrun := hvfun hop
    rw [VeState.run_nzb] at hrun
    exact ⟨_, hrun, by simp [codeLanes], fun i j hi hj => getLsbD_codeLanes (ve.nodup_codesOf ..) i j hi hj⟩
  · have hform {f : VFun} {op : Half → Half → Half → Half × Flags} (hf : f.lanewise = true) (hlane : ∀ x y o, f.lane fz sat x y o = op x y o)
        (hop : cmd.op = .vfun f d a b m) :
        leaves ((ve.setReg d ((List.range 16).map (fun i => (ve.laneOut d a b m op i).1))).raise
          ((List.range 16).foldl (fun n i => n ||| (ve.laneOut d a b m op i).2) 0#6)) := by
      have hrun := hvfun hop
      rw [ve.run_lanewise _ d a b m hf hlane] at hrun
      exact hrun
    have hrsq : ∀ x y o, VFun.rsq.lane fz sat x y o =
        with' (laneR fz sat (rootOver (laneF fz x))) (if (laneF fz x).isZero then flagDZ else 0#6) := fun x y o =>
      VFun.lane_rsq fz sat x y o rootOver (fun _ => rfl) fun v hv => match v, hv with
        | .num _, _ => rfl
        | .inf _, _ => rfl
        | .nan _, _ => rfl
    repeat refine List.forall_mem_cons.2 ⟨hform rfl fun _ _ _ => rfl, ?_⟩
    refine List.forall_mem_cons.2 ⟨hform rfl hrsq, ?_⟩
    repeat refine List.forall_mem_cons.2 ⟨hform rfl fun _ _ _ => rfl, ?_⟩
    exact List.forall_mem_nil _
  · exact ⟨_, State.vecLeaves_vcmp hq hr hw hop, ve.lanes_compare .., fun i hi => ve.mask_compare _ _ _ _ _ hi⟩
  · have hslide := State.vecLeaves_vslide hq hr hw hop
    rw [VeState.slide_eq] at hslide
    exact hslide

end Sys2Proof.Machine

/-! ## Completions of engine commands (O42) -/

namespace Sys2Proof.Machine

/-! ### Lines that near memory has not passed by stay so (R334) -/

section fresh
variable {s : State} {l : Nat}

/-- A committed byte is still to be written back: its line shows no more than before. -/
theorem State.fresh_commitByte (h : s.staleLine l = false) (a : Nat) (v : Byte) : (s.commitByte a v).staleLine l = false := by
  unfold State.staleLine at h ⊢
  rw [List.any_eq_false] at h ⊢
  intro i hi
  have hold := h i hi
  by_cases hb : isHbm a = true
  · have hnear : (s.commitByte a v).near = Tab.insert s.near a (1#1 ++ s.hbmByte a) := if_pos hb
    rw [hnear]
    by_cases ha : 64 * l + i = a
    · have hdirty : (1#1 ++ s.hbmByte a : BitVec 9).getLsbD 8 = true := by
        rw [BitVec.getLsbD_append]
        rfl
      rw [ha, Tab.find?_insert_same]
      simp [hdirty]
    · rw [Tab.find?_insert_other _ _ ha]
      exact hold
  · have hnear : (s.commitByte a v).near = s.near := if_neg hb
    rw [hnear]
    exact hold
theorem State.near_touchLines (ls : List Nat) : ∀ s : State, (∀ l ∈ ls, isHbm (64 * l) = true → s.staleLine l = false) →
    (ls.foldl (fun s l => if isHbm (64 * l) then s.touchLine l else s) s).near = s.near := by
  induction ls with
  | nil => exact fun _ _ => rfl
  | cons l ls ih =>
    intro s h
    have hrest := fun k hk hb => h k (List.mem_cons_of_mem _ hk) hb
    rw [List.foldl_cons]
    split
    · rename_i hl
      have hnear := State.near_touchLine (h l (List.mem_cons_self ..) hl)
      rw [ih, hnear]
      intro k hk hb
      unfold State.staleLine
      rw [hnear]
      exact hrest k hk hb
    · exact ih s hrest
theorem State.fresh_commitBytes {ws : List (Nat × Byte)} (hws : ∀ w ∈ ws, s.staleLine (w.1 / 64) = false) (h : s.staleLine l = false) :
    (s.commitBytes ws).staleLine l = false := by
  have hnear : (({ s with co := s.co + 1 } : State).touchPlaces (ws.map (·.1))).near = s.near := by
    refine State.near_touchLines _ _ (linesOf_all (P := fun l => ({ s with co := s.co + 1 } : State).staleLine l = false) fun a ha _ => ?_)
    obtain ⟨w, hw, rfl⟩ := List.mem_map.1 ha
    exact hws w hw
  have hfold : (ws.foldl (fun s w => s.commitByte w.1 w.2) (({ s with co := s.co + 1 } : State).touchPlaces (ws.map (·.1)))).staleLine l = false := by
    refine foldl_inv (P := fun s : State => s.staleLine l = false) (fun s w hs => State.fresh_commitByte hs _ _) ws _ ?_
    unfold State.staleLine
    rw [hnear]
    exact h
  unfold State.commitBytes
  unfold State.staleLine at hfold ⊢
  rw [State.near_afterCommit, foldl_keeps (p := fun s : State => s.near) (by intro s a; split <;> rfl)]
  exact hfold

end fresh

/-! ### A thread while bytes are committed -/

section thread
variable {s : State} {u : Nat} {t : Thread}

/-- What follows a commit may end a thread's wait, and changes nothing of what the thread is (R167). -/
theorem State.attr_afterCommit (h : s.thread? u = some t) (words : List Nat) :
    ∃ t', (s.afterCommit words).thread? u = some t' ∧ t'.attr = t.attr := by
  unfold State.afterCommit State.thread?
  dsimp only
  rw [foldl_keeps (p := fun s : State => s.threads) (by intro s a; simp), Tab.find?_map _ (by intro e; rfl)]
  refine ⟨_, congrArg (Option.map _) h, ?_⟩
  dsimp only
  split
  · rename_i timed _
    split
    · cases timed <;> rfl
    · rfl
  · split <;> rfl
  · rfl
theorem State.attr_commitBytes (h : s.thread? u = some t) (ws : List (Nat × Byte)) :
    ∃ t', (s.commitBytes ws).thread? u = some t' ∧ t'.attr = t.attr := by
  unfold State.commitBytes
  refine State.attr_afterCommit ?_ _
  unfold State.thread?
  rw [foldl_keeps (p := fun s : State => s.threads) (by intro s a; split <;> rfl),
    foldl_keeps (p := fun s : State => s.threads) (by intro s a; rfl), State.threads_touchPlaces]
  exact h

end thread

/-! ### The state between the steps of a completion -/

/-- A core `q` of a state, its memory and its full/empty bits, where all that has changed besides since `s` is what waits and what is counted. -/
structure State.Standing (s s' : State) (c : Nat) (q : Core) (m : List Host.Cell) (E : Store 1) : Prop where
  inv     : s'.Inv
  mem     : s'.mem = m
  empty   : s'.empty = E
  here    : s'.core c = q
  others  : ∀ k, k ≠ c → s'.core k = s.core k
  waiters : s'.waiters = s.waiters
  fresh   : ∀ l, s.staleLine l = false → s'.staleLine l = false

section standing
variable {s s' : State} {c u : Nat} {q : Core} {m : List Host.Cell} {E : Store 1} {t : Thread} {e : Engine}

theorem State.Standing.refl (h : s.Inv) (c : Nat) : s.Standing s c (s.core c) s.mem s.empty := ⟨h, rfl, rfl, rfl, fun _ _ => rfl, rfl, fun _ h => h⟩
theorem State.Standing.modCore (h : s.Standing s' c q m E) (f : Core → Core) : s.Standing (s'.modCore c f) c (f q) m E where
  inv := h.inv.modCore ..
  mem := h.mem
  empty := h.empty
  here := by rw [State.core_modCore h.inv.cores, h.here]
  others k hk := (State.core_modCore_other hk f).trans (h.others k hk)
  waiters := h.waiters
  fresh := h.fresh
theorem State.Standing.count (h : s.Standing s' c q m E) (i n : Nat) :
    s.Standing (s'.count c i n) c { q with perf := Store.put q.perf i (Store.get q.perf i + BitVec.ofNat 64 n) } m E := h.modCore _
theorem State.Standing.push (h : s.Standing s' c q m E) (e : Event) : s.Standing (s'.push e) c q m E :=
  ⟨h.inv.push _, h.mem, h.empty, h.here, h.others, h.waiters, h.fresh⟩
/-- A change of threads, of what is pending and of the counts of contexts is none of these. -/
theorem State.Standing.of_eq (h : s.Standing s' c q m E) {r : State} (hinv : r.Inv)
    (heq : r = { s' with threads := r.threads, pending := r.pending, ctxs := r.ctxs }) : s.Standing r c q m E := by
  rw [heq]
  exact ⟨heq ▸ hinv, h.mem, h.empty, h.here, h.others, h.waiters, h.fresh⟩
theorem State.modThread_eq (s : State) (u : Nat) (f : Thread → Thread) : s.modThread u f = { s with threads := (s.modThread u f).threads } := by
  unfold State.modThread
  split <;> rfl
theorem State.Standing.modThread (h : s.Standing s' c q m E) (u : Nat) (f : Thread → Thread) : s.Standing (s'.modThread u f) c q m E :=
  h.of_eq (h.inv.modThread ..) (by rw [State.modThread_eq])

theorem State.pending_wakeQueue (s : State) (c : Nat) (e : Engine) : (s.wakeQueue c e).pending = s.pending := by
  unfold State.wakeQueue
  split
  · rfl
  · exact State.pending_modThread ..
theorem State.progressOf_eq (s was : State) (ctx : Nat) : s.progressOf was ctx = { s with ctxs := (s.progressOf was ctx).ctxs } := by
  unfold State.progressOf
  split
  · rfl
  · exact s.restartDog_eq ctx
theorem State.Standing.wakeQueue (h : s.Standing s' c q m E) (d : Nat) (e : Engine) : s.Standing (s'.wakeQueue d e) c q m E := by
  unfold State.wakeQueue
  split
  · exact h
  · exact h.modThread ..
theorem State.Standing.wakeAll (h : s.Standing s' c q m E) (p : Nat → Thread → Bool) : s.Standing (s'.wakeAll p) c q m E :=
  h.of_eq (h.inv.wakeAll p) rfl
theorem State.Standing.progressOf (h : s.Standing s' c q m E) (was : State) (ctx : Nat) : s.Standing (s'.progressOf was ctx) c q m E :=
  h.of_eq (h.inv.progressOf was ctx) (by rw [State.progressOf_eq])
theorem State.Standing.fillPend (h : s.Standing s' c q m E) (u r : Nat) (v : Word) : s.Standing (s'.fillPend u r v) c q m E := h.modThread ..
theorem State.Standing.headCmd (h : s.Standing s' c q m E) {cmd : Cmd} {rest : List Cmd} (hq : q.queue e = cmd :: rest) :
    s'.headCmd c e = some cmd := by
  unfold State.headCmd
  rw [h.here, hq]
  rfl
theorem Core.queue_setCmds (q : Core) (e : Engine) (l : List Cmd) : (q.setCmds e l).queue e = l := by
  cases e <;> rfl
theorem Core.queue_setCmds_other (q : Core) {e f : Engine} (h : f ≠ e) (l : List Cmd) : (q.setCmds e l).queue f = q.queue f := by
  cases e with
  | vector => cases f <;> [exact absurd rfl h; rfl; rfl]
  | matrix => cases f <;> [rfl; exact absurd rfl h; rfl]
  | copy => cases f <;> [rfl; rfl; exact absurd rfl h]
/-- The head command has left its queue (R358). -/
theorem State.Standing.popCmd (h : s.Standing s' c q m E) {cmd : Cmd} {rest : List Cmd} (hq : q.queue e = cmd :: rest) :
    s.Standing (s'.popCmd c e) c (q.setCmds e rest) m E := by
  have hmoved := h.modCore (fun q => q.setCmds e ((q.queue e).drop 1))
  rw [show (q.queue e).drop 1 = rest by rw [hq]; rfl] at hmoved
  unfold State.popCmd
  rw [h.headCmd hq]
  dsimp only
  refine State.Standing.progressOf (State.Standing.wakeAll (State.Standing.wakeAll (State.Standing.wakeQueue ?_ ..) _) _) ..
  split
  · exact hmoved
  · exact hmoved.push _
theorem State.Standing.pending_popCmd (h : s.Standing s' c q m E) {cmd : Cmd} {rest : List Cmd} (hq : q.queue e = cmd :: rest)
    (hrest : rest ≠ []) : .engineCommandStart c e ∈ (s'.popCmd c e).pending := by
  have hmoved := h.modCore (fun q => q.setCmds e ((q.queue e).drop 1))
  have hmore : (((s'.modCore c (fun q => q.setCmds e ((q.queue e).drop 1))).core c).queue e).isEmpty = false := by
    rw [hmoved.here, Core.queue_setCmds, hq, List.drop_one, List.tail_cons, List.isEmpty_eq_false_iff]
    exact hrest
  unfold State.popCmd
  rw [h.headCmd hq]
  dsimp only
  rw [hmore, State.progressOf_eq]
  show _ ∈ (State.wakeQueue _ c e).pending
  rw [State.pending_wakeQueue]
  exact List.mem_append_right _ (List.mem_singleton_self _)

theorem State.thread?_wakeQueue_of (h : s.thread? u = some t) (hrun : t.wait = .running) (c : Nat) (e : Engine) :
    (s.wakeQueue c e).thread? u = some t := by
  unfold State.wakeQueue
  split
  · exact h
  · rename_i w _ _
    by_cases hw : u = w
    · rw [← hw, State.thread?_modThread h, if_neg (by rw [hrun]; exact Wait.noConfusion)]
    · rw [State.thread?_modThread_other _ _ hw]
      exact h
theorem State.thread?_progressOf (s was : State) (ctx u : Nat) : (s.progressOf was ctx).thread? u = s.thread? u := by
  rw [State.progressOf_eq]
  rfl
/-- A thread that runs is not among those that a command leaving its queue wakes. -/
theorem State.thread?_popCmd (h : s.thread? u = some t) (hrun : t.wait = .running) (c : Nat) (e : Engine) :
    (s.popCmd c e).thread? u = some t := by
  unfold State.popCmd
  split
  · exact h
  · dsimp only
    rw [State.thread?_progressOf]
    refine State.thread?_wakeAll_of (State.thread?_wakeAll_of (State.thread?_wakeQueue_of ?_ hrun c e) ?_) ?_
    · split <;> exact h
    · rw [hrun]; rfl
    · rw [hrun]; rfl

/-- What a command of an unsealed thread leaves in memory (R332, R336). -/
theorem State.engCommit_unsealed (ht : s.thread? u = some t) (hseal : t.attr.isSealed = false) (eng : Nat) (ws : List WEntry) (fills : List Nat) :
    s.engCommit eng u false ws fills = if ws.isEmpty && fills.isEmpty then s
      else fills.foldl (fun s w => s.wordChanged (8 * w)) (fills.foldl (fun s w => s.setFull w true) (s.commitBytes (ws.map (fun w => (w.loc, w.val))))) := by
  unfold State.engCommit
  rw [Bool.false_or, ht]
  dsimp only
  rw [hseal]
  rfl
theorem State.setsFull_eq (l : List Nat) (s : State) :
    l.foldl (fun s w => s.setFull w true) s = { s with empty := l.foldl (fun E w => Store.put E w 0#1) s.empty } := by
  induction l generalizing s with
  | nil => rfl
  | cons w l ih => exact ih (s.setFull w true)
theorem State.Standing.engCommit (h : s.Standing s' c q m E) (ht : s'.thread? u = some t) (hseal : t.attr.isSealed = false) (eng : Nat)
    {ws : List WEntry} {fills : List Nat} (hws : ∀ w ∈ ws, s.staleLine (w.loc / 64) = false) (hfills : fills = [] ∨ s.waiters = []) :
    s.Standing (s'.engCommit eng u false ws fills) c q (ws.foldl (fun m w => Store.put m w.loc w.val) m)
      (fills.foldl (fun E w => Store.put E w 0#1) E) := by
  have hlines : ∀ w ∈ ws.map (fun w : WEntry => (w.loc, w.val)), s'.staleLine (w.1 / 64) = false := by
    intro w hw
    obtain ⟨x, hx, rfl⟩ := List.mem_map.1 hw
    exact h.fresh _ (hws x hx)
  have hinv := h.inv.engCommit eng u false ws fills
  rw [State.engCommit_unsealed ht hseal] at hinv ⊢
  by_cases hnone : (ws.isEmpty && fills.isEmpty) = true
  · obtain ⟨hw, hf⟩ := Bool.and_eq_true_iff.1 hnone
    rw [if_pos hnone, List.isEmpty_iff.1 hw, List.isEmpty_iff.1 hf]
    exact h
  · rw [if_neg hnone] at hinv ⊢
    have hquiet : fills.foldl (fun s w => s.wordChanged (8 * w)) (fills.foldl (fun s w => s.setFull w true)
        (s'.commitBytes (ws.map (fun w => (w.loc, w.val))))) =
        { s'.commitBytes (ws.map (fun w => (w.loc, w.val))) with empty := fills.foldl (fun E w => Store.put E w 0#1) s'.empty } := by
      rw [State.setsFull_eq, State.empty_commitBytes]
      rcases hfills with hf | hwait
      · rw [hf]
        rfl
      · refine foldl_inv (P := fun r : State => r = _) (fun r w hr => ?_) fills _ rfl
        rw [hr]
        refine State.wordChanged_none ?_ _
        exact (State.waiters_commitBytes ..).trans (h.waiters.trans hwait)
    rw [hquiet] at hinv ⊢
    refine ⟨hinv, ?_, ?_, ?_, fun k hk => ?_, ?_, fun l hl => ?_⟩
    · refine (s'.mem_commitBytes _ fun w hw _ => hlines w hw).trans ?_
      rw [List.foldl_map, h.mem]
    · show fills.foldl (fun E w => Store.put E w 0#1) s'.empty = _
      rw [h.empty]
    · rw [← h.here]
      unfold State.core
      rw [← s'.cores_commitBytes (ws.map (fun w => (w.loc, w.val)))]
    · rw [← h.others k hk]
      unfold State.core
      rw [← s'.cores_commitBytes (ws.map (fun w => (w.loc, w.val)))]
    · exact (State.waiters_commitBytes ..).trans h.waiters
    · exact State.fresh_commitBytes hlines (h.fresh l hl)

/-- A thread that waits for no word and no status record is as it was before its command's bytes were committed. -/
theorem State.thread?_engCommit (ht : s.thread? u = some t) (hseal : t.attr.isSealed = false) (hw : ∀ l v c w r, t.wait ≠ .addr l v c w r)
    (hn : ∀ l, t.wait ≠ .nmstat l) (eng : Nat) (ws : List WEntry) : (s.engCommit eng u false ws []).thread? u = some t := by
  rw [State.engCommit_unsealed ht hseal]
  split
  · exact ht
  · exact State.thread?_commitBytes ht hw hn _

end standing

/-! ### A command that ends (R184, R186, R197, R213, R258) -/

/-- The register that awaited a command's value holds it (R186). -/
def Thread.gotResult (t : Thread) (cmd : Cmd) (r : EngResult) : Thread :=
  match r.scalar with
  | some v => t.fillReg cmd.reg v
  | none => t
def State.gotResult (s : State) (cmd : Cmd) (r : EngResult) : State :=
  match r.scalar with
  | some v => s.fillPend cmd.uid cmd.reg v
  | none => s

/-- A command of an unsealed thread is at the head and its completion is clean: no fault, nothing that holds it, no line that near memory has
passed by. -/
structure State.Clean (s : State) (c : Nat) (e : Engine) (cmd : Cmd) (rest : List Cmd) (r : EngResult) (t : Thread) : Prop where
  inv    : s.Inv
  queue  : (s.core c).queue e = cmd :: rest
  result : cmd.result = some r
  void   : cmd.void = false
  fault  : r.fault = none
  lines  : ∀ w ∈ r.writes, s.staleLine (w.loc / 64) = false
  thread : s.thread? cmd.uid = some t
  plain  : t.attr.isSealed = false

/-- What is there once the head command, whose engine is left as `eng`, has gone: `rest` in its queue, its bytes committed, its thread `t`. -/
structure State.Ended (s s' : State) (c : Nat) (e : Engine) (cmd : Cmd) (rest : List Cmd) (r : EngResult) (t : Thread) (eng : EngState) : Prop where
  mem    : s'.mem = r.writes.foldl (fun m w => Store.put m w.loc w.val) s.mem
  empty  : s'.empty = s.empty
  queue  : (s'.core c).queue e = rest
  queues : ∀ f, f ≠ e → (s'.core c).queue f = (s.core c).queue f
  cores  : ∀ k, k ≠ c → s'.core k = s.core k
  eng    : (s'.core c).eng = eng
  thread : s'.thread? cmd.uid = some t
  starts : rest ≠ [] → .engineCommandStart c e ∈ s'.pending

section ended
variable {s s' : State} {c : Nat} {q : Core} {e : Engine} {cmd : Cmd} {rest : List Cmd} {r : EngResult} {t t' : Thread} {eng : EngState}

theorem State.Ended.push (h : s.Ended s' c e cmd rest r t eng) (x : Event) : s.Ended (s'.push x) c e cmd rest r t eng :=
  ⟨h.mem, h.empty, h.queue, h.queues, h.cores, h.eng, h.thread, fun hr => List.mem_append_left _ (h.starts hr)⟩
theorem State.Standing.ended (h : s.Standing s' c q (r.writes.foldl (fun m w => Store.put m w.loc w.val) s.mem) s.empty)
    (hqueue : ∀ f, q.queue f = (s.core c).queue f) (hq : (s.core c).queue e = cmd :: rest) (ht : s'.thread? cmd.uid = some t)
    (hrun : t.wait = .running) : s.Ended (s'.popCmd c e) c e cmd rest r t q.eng := by
  have hhead := (hqueue e).trans hq
  have hpop := h.popCmd hhead
  refine ⟨hpop.mem, hpop.empty, ?_, fun f hf => ?_, hpop.others, ?_, State.thread?_popCmd ht hrun c e, h.pending_popCmd hhead⟩
  · rw [hpop.here, Core.queue_setCmds]
  · rw [hpop.here, Core.queue_setCmds_other _ hf, hqueue]
  · rw [hpop.here, Core.eng_setCmds]

theorem State.Standing.gotResult {m : List Host.Cell} {E : Store 1} (h : s.Standing s' c q m E) (cmd : Cmd) (r : EngResult) :
    s.Standing (s'.gotResult cmd r) c q m E := by
  unfold State.gotResult
  split
  · exact h.fillPend ..
  · exact h
theorem Thread.wait_gotResult (t : Thread) (cmd : Cmd) (r : EngResult) : (t.gotResult cmd r).wait = t.wait := by
  unfold Thread.gotResult
  split <;> rfl
theorem State.thread?_gotResult (ht : s.thread? cmd.uid = some t) (hrun : t.wait = .running) (r : EngResult) :
    (s.gotResult cmd r).thread? cmd.uid = some (t.gotResult cmd r) := by
  unfold State.gotResult Thread.gotResult
  split
  · refine (State.thread?_modThread ht _).trans (congrArg some ?_)
    exact if_neg (by rw [show ∀ k v, (t.fillReg k v).wait = t.wait from fun _ _ => rfl, hrun]; exact Wait.noConfusion)
  · exact ht

/-- VECTOR_COMMAND_COMPLETION (R184, R186, R197). -/
theorem State.Clean.vector (h : s.Clean c .vector cmd rest r t) (hheld : s.engHeld cmd (linesOf (r.writes.map (·.loc))) = false)
    (hfills : r.fills = []) (hrun : t.wait = .running) :
    ∃ s', exec (.vectorCommandCompletion c) s = .next s' ∧
      s.Ended s' c .vector cmd rest r (t.gotResult cmd r) ((s.core c).eng.install r) := by
  have hstart := (State.Standing.refl h.inv c).modCore (fun q => { q with eng := q.eng.install r })
  have hcommit := hstart.engCommit (u := cmd.uid) h.thread h.plain 0 (ws := r.writes) (fills := []) h.lines (.inl rfl)
  have hthread := State.thread?_engCommit (s := s.modCore c (fun q => { q with eng := q.eng.install r })) h.thread h.plain
    (by rw [hrun]; exact fun _ _ _ _ _ => Wait.noConfusion) (by rw [hrun]; exact fun _ => Wait.noConfusion) 0 r.writes
  refine ⟨_, rfl, ?_⟩
  unfold State.engFinish
  rw [(State.Standing.refl h.inv c).headCmd h.queue]
  dsimp only
  rw [h.result]
  dsimp only
  rw [hheld, h.fault, h.void, hfills]
  exact (hcommit.gotResult cmd r).ended (fun f => by cases f <;> rfl) h.queue (State.thread?_gotResult hthread hrun r)
    ((t.wait_gotResult cmd r).trans hrun)

/-- What the command left of the matrix engine, over what the engine has become meanwhile (R223, R232). -/
def EngState.merged (q : EngState) (r : EngResult) : EngState :=
  match r.me with
  | some m => { q with me := q.me.merge m r.regs }
  | none => q
def State.matMerged (s : State) (c : Nat) (r : EngResult) : State :=
  match r.me with
  | some m => s.modMat c (fun now => now.merge m r.regs)
  | none => s
/-- A tile that stands ready to leave is delivered (R223). -/
def State.tileLeaves (s : State) (c : Nat) : State :=
  match (s.mat c).tileOut with
  | some _ => if s.pending.contains (.tileDelivery c) then s else s.push (.tileDelivery c)
  | none => s
/-- The engine as the command leaves it, its k-steps counted and its bytes committed. -/
def State.matCommitted (s : State) (c : Nat) (cmd : Cmd) (r : EngResult) : State :=
  (((s.matMerged c r).count c 11 r.ksteps).count c 12 r.kskips).engCommit 1 cmd.uid false r.writes []

theorem State.Standing.matMerged {m : List Host.Cell} {E : Store 1} (h : s.Standing s' c q m E) (r : EngResult) :
    s.Standing (s'.matMerged c r) c { q with eng := q.eng.merged r } m E := by
  unfold State.matMerged EngState.merged
  split
  · exact h.modCore _
  · exact h
theorem State.threads_matMerged (s : State) (c : Nat) (r : EngResult) : (s.matMerged c r).threads = s.threads := by
  unfold State.matMerged
  split <;> rfl
theorem State.Clean.thread?_matMerged (h : s.Clean c e cmd rest r t) : (s.matMerged c r).thread? cmd.uid = some t :=
  (congrArg (Tab.find? · cmd.uid) (s.threads_matMerged c r)).trans h.thread
theorem State.Clean.thread?_matCommitted (h : s.Clean c .matrix cmd rest r t) (hwait : t.wait = .matrix) :
    (s.matCommitted c cmd r).thread? cmd.uid = some t :=
  State.thread?_engCommit (s := ((s.matMerged c r).count c 11 r.ksteps).count c 12 r.kskips) h.thread?_matMerged h.plain
    (by rw [hwait]; exact fun _ _ _ _ _ => Wait.noConfusion) (by rw [hwait]; exact fun _ => Wait.noConfusion) 1 r.writes
theorem State.Clean.standing_matCommitted (h : s.Clean c .matrix cmd rest r t) : ∃ q, (∀ f, q.queue f = (s.core c).queue f) ∧
    q.eng = (s.core c).eng.merged r ∧
    s.Standing (s.matCommitted c cmd r) c q (r.writes.foldl (fun m w => Store.put m w.loc w.val) s.mem) s.empty := by
  have hmerged := (State.Standing.refl h.inv c).matMerged r
  have hcounted := (hmerged.count 11 r.ksteps).count 12 r.kskips
  exact ⟨_, fun f => by cases f <;> rfl, rfl, hcounted.engCommit (u := cmd.uid) h.thread?_matMerged h.plain 1 (fills := []) h.lines (.inl rfl)⟩

/-- MATRIX_COMMAND_COMPLETION in its order: the engine and the bytes, the thread, the queue, the tile (R213, R223, R226). -/
theorem State.Clean.matFinish (h : s.Clean c .matrix cmd rest r t) (hgoing : cmd.going = false)
    (hheld : s.engHeld cmd (linesOf (r.writes.map (·.loc))) = false) (hwait : t.wait = .matrix) :
    exec (.matrixCommandCompletion c) s = .next ((((s.matCommitted c cmd r).modThread cmd.uid (fun t => (t.gotResult cmd r).finish)).popCmd
      c .matrix).tileLeaves c) := by
  refine (show exec (.matrixCommandCompletion c) s = .next (s.matFinish c) from rfl).trans (congrArg _ ?_)
  have hbefore : (((s.matMerged c r).count c 11 r.ksteps).count c 12 r.kskips).thread? cmd.uid = some t := h.thread?_matMerged
  have hafter := h.thread?_matCommitted hwait
  unfold State.matFinish State.tileLeaves
  unfold State.matCommitted at hafter ⊢
  unfold State.matMerged at hafter hbefore ⊢
  rw [(State.Standing.refl h.inv c).headCmd h.queue]
  dsimp only
  rw [h.result]
  dsimp only
  rw [hgoing, hheld, h.void, h.fault]
  cases hme : r.me
  all_goals
    rw [hme] at hbefore hafter
    dsimp only at hbefore hafter ⊢
    simp only [hbefore, h.plain, Bool.false_and, Bool.false_eq_true, if_false, hafter, hwait]
    rfl
/-- MATRIX_COMMAND_COMPLETION: its thread, which waits, goes on (R213, R226). -/
theorem State.Clean.matrix (h : s.Clean c .matrix cmd rest r t) (hgoing : cmd.going = false)
    (hheld : s.engHeld cmd (linesOf (r.writes.map (·.loc))) = false) (hwait : t.wait = .matrix) :
    ∃ s', exec (.matrixCommandCompletion c) s = .next s' ∧
      s.Ended s' c .matrix cmd rest r (t.gotResult cmd r).finish ((s.core c).eng.merged r) := by
  obtain ⟨q, hqueue, heng, hcommit⟩ := h.standing_matCommitted
  refine ⟨_, h.matFinish hgoing hheld hwait, ?_⟩
  have hpop := (hcommit.modThread cmd.uid (fun t => (t.gotResult cmd r).finish)).ended hqueue h.queue
    (State.thread?_modThread (h.thread?_matCommitted hwait) _) rfl
  rw [heng] at hpop
  unfold State.tileLeaves
  split
  · split
    · exact hpop
    · exact hpop.push _
  · exact hpop

/-- COPY_COMMAND_COMPLETION's payload: all of it, when no stop has committed any (R256, R259). -/
theorem Cmd.pick_all (cmd : Cmd) (hb : cmd.boxes = []) (ws : List WEntry) :
    cmd.pick ws (fun m => !cmd.boxes.contains m) cmd.boxes.contains = ws.zipIdx := by
  unfold Cmd.pick
  rw [hb]
  exact List.filter_eq_self.2 fun _ _ => by simp
theorem State.copyRoom_plain (ht : s.thread? cmd.uid = some t) (hseal : t.attr.isSealed = false) (hvoid : cmd.void = false) (ws : List WEntry) :
    s.copyRoom cmd ws = ws.length := by
  unfold State.copyRoom
  rw [hvoid, ht]
  dsimp only
  rw [hseal]
  rfl

/-- ce.done is the bytes written; CGET leaves it (R258). -/
def EngState.counted (q : EngState) (op : EngOp) (n : Nat) : EngState :=
  match op with
  | .cget _ => q
  | _ => { q with done := BitVec.ofNat 64 n }
def State.copyCounted (s : State) (c : Nat) (cmd : Cmd) (done bytes : Nat) : State :=
  match cmd.op with
  | .cget _ => s
  | _ => (s.modCore c (fun q => { q with eng := { q.eng with done := BitVec.ofNat 64 done } })).copied c cmd bytes
/-- The completion word of a copy, as the bytes of a commit of its own. -/
def wordEntries (w : WEntry) (v : Word) : List WEntry :=
  (bytesAt w.loc v.toNat 8).zipIdx.map (fun b : (Nat × Byte) × Nat => ⟨w.va + b.2, b.1.1, b.1.2⟩)
def State.wordSet (s : State) (cmd : Cmd) : Option (WEntry × Word × Bool) → State
  | none => s
  | some (w, v, f) => s.engCommit 2 cmd.uid false (wordEntries w v) (if f then [w.loc / 8] else [])

/-- Memory and the full/empty bits once a completion word, if there is one, has been committed. -/
def wordMem (m : Store 8) : Option (WEntry × Word × Bool) → Store 8
  | none => m
  | some (w, v, _) => Store.write m w.loc 8 v.toNat
def wordFull (E : Store 1) : Option (WEntry × Word × Bool) → Store 1
  | none => E
  | some (w, _, f) => if f then Store.put E (w.loc / 8) 0#1 else E

/-- COPY_COMMAND_COMPLETION in its order: the payload, ce.done, the completion word, the register (R258). -/
theorem State.Clean.copyFinish (h : s.Clean c .copy cmd rest r t) (hboxes : cmd.boxes = [])
    (hheld : s.engHeld cmd (linesOf (r.writes.map (·.loc)) ++ r.cword.toList.map (fun w => w.1.loc / 64)) = false) :
    exec (.copyCommandCompletion c) s = .next (((((s.engCommit 2 cmd.uid false r.writes r.fills).copyCounted c cmd r.done r.writes.length).wordSet
      cmd r.cword).gotResult cmd r).popCmd c .copy) := by
  refine (show exec (.copyCommandCompletion c) s = .next (s.copyFinish c) from rfl).trans (congrArg _ ?_)
  unfold State.copyFinish
  rw [(State.Standing.refl h.inv c).headCmd h.queue]
  dsimp only
  rw [h.result]
  dsimp only
  rw [hheld, cmd.pick_all hboxes, List.zipIdx_map_fst, State.copyRoom_plain h.thread h.plain h.void, h.void, h.fault, List.take_length]
  rw [show decide (r.writes.length < r.writes.length) = false from decide_eq_false (Nat.lt_irrefl _)]
  rfl

theorem State.Standing.countCopied {m : List Host.Cell} {E : Store 1} (h : s.Standing s' c q m E) (bytes : Nat) :
    ∃ q', (∀ f, q'.queue f = q.queue f) ∧ q'.eng = q.eng ∧ s.Standing (s'.countCopied c bytes) c q' m E := by
  have hrest := h.modCore (fun q => { q with cbytes := ((s'.core c).cbytes + bytes) % 8 })
  refine ⟨_, ?_, ?_, hrest.count 14 (((s'.core c).cbytes + bytes) / 8)⟩
  · exact fun f => by cases f <;> rfl
  · rfl
theorem State.Standing.copyCounted {m : List Host.Cell} {E : Store 1} (h : s.Standing s' c q m E) (ht : s'.thread? cmd.uid = some t)
    (hseal : t.attr.isSealed = false) (done bytes : Nat) : ∃ q', (∀ f, q'.queue f = q.queue f) ∧ q'.eng = q.eng.counted cmd.op done ∧
      s.Standing (s'.copyCounted c cmd done bytes) c q' m E ∧ (s'.copyCounted c cmd done bytes).threads = s'.threads := by
  have hcopied : ∀ r : State, r.thread? cmd.uid = some t → r.copied c cmd bytes = r.countCopied c bytes := by
    intro r hr
    unfold State.copied
    rw [hr]
    dsimp only
    rw [hseal]
    rfl
  unfold State.copyCounted EngState.counted
  split
  · exact ⟨q, fun _ => rfl, rfl, h, rfl⟩
  · have hdone := h.modCore (fun q => { q with eng := { q.eng with done := BitVec.ofNat 64 done } })
    rw [hcopied (s'.modCore c _) ht]
    obtain ⟨q', hqueue, heng, hcount⟩ := hdone.countCopied bytes
    exact ⟨q', fun f => (hqueue f).trans (by cases f <;> rfl), heng, hcount, rfl⟩

/-- COPY_COMMAND_COMPLETION of a command without a completion word (R258). -/
theorem State.Clean.copy (h : s.Clean c .copy cmd rest r t) (hboxes : cmd.boxes = [])
    (hheld : s.engHeld cmd (linesOf (r.writes.map (·.loc))) = false) (hword : r.cword = none) (hfills : r.fills = []) (hrun : t.wait = .running) :
    ∃ s', exec (.copyCommandCompletion c) s = .next s' ∧
      s.Ended s' c .copy cmd rest r (t.gotResult cmd r) ((s.core c).eng.counted cmd.op r.done) := by
  have hcommit := (State.Standing.refl h.inv c).engCommit h.thread h.plain 2 (fills := []) h.lines (.inl rfl)
  have hthread := State.thread?_engCommit h.thread h.plain (by rw [hrun]; exact fun _ _ _ _ _ => Wait.noConfusion)
    (by rw [hrun]; exact fun _ => Wait.noConfusion) 2 r.writes
  obtain ⟨q, hqueue, heng, hcounted, hthreads⟩ := hcommit.copyCounted hthread h.plain r.done r.writes.length
  have hhere := (congrArg (Tab.find? · cmd.uid) hthreads).trans hthread
  refine ⟨_, h.copyFinish hboxes (by rw [hword]; simpa using hheld), ?_⟩
  rw [hword, hfills, ← heng]
  exact (hcounted.gotResult cmd r).ended hqueue h.queue (State.thread?_gotResult hhere hrun r) ((t.wait_gotResult cmd r).trans hrun)

theorem Store.write_eq_bytesAt (n : Nat) : ∀ (m : Store 8) (k v : Nat), Store.write m k n v = (bytesAt k v n).foldl (fun m b => Store.put m b.1 b.2) m := by
  induction n with
  | zero => exact fun _ _ _ => rfl
  | succ n ih => exact fun m k v => ih _ _ _
theorem wordEntries_put (w : WEntry) (v : Word) (m : Store 8) :
    (wordEntries w v).foldl (fun m w => Store.put m w.loc w.val) m = Store.write m w.loc 8 v.toNat := by
  rw [Store.write_eq_bytesAt, wordEntries, List.foldl_map]
  conv_rhs => rw [← List.zipIdx_map_fst 0 (bytesAt w.loc v.toNat 8), List.foldl_map]
theorem wordEntries_line {w x : WEntry} {v : Word} (hw : w.loc % 8 = 0) (hx : x ∈ wordEntries w v) : x.loc / 64 = w.loc / 64 := by
  obtain ⟨b, hb, rfl⟩ := List.mem_map.1 hx
  have hplace := bytesAt_loc (List.fst_mem_of_mem_zipIdx hb)
  dsimp only
  omega
/-- A word is full once its full bit has been set (R150). -/
theorem fullFold_get (ws : List Nat) : ∀ {E : Store 1}, Tab.wf 0#1 E = true → ∀ w,
    decide (Store.get (ws.foldl (fun E w => Store.put E w 0#1) E) w = 0#1) = (decide (Store.get E w = 0#1) || ws.contains w) := by
  induction ws with
  | nil => exact fun _ _ => (Bool.or_false _).symm
  | cons x ws ih =>
    intro E hE w
    rw [List.foldl_cons, ih (Store.wf_put hE x 0#1), List.contains_cons]
    by_cases hw : w = x
    · rw [hw, Store.get_put_same hE]
      simp
    · rw [Store.get_put_other _ _ hw, beq_false_of_ne hw, Bool.false_or]
theorem State.attr_engCommit (ht : s.thread? cmd.uid = some t) (hseal : t.attr.isSealed = false) (hwait : s.waiters = []) (eng : Nat)
    (ws : List WEntry) (fills : List Nat) : ∃ t', (s.engCommit eng cmd.uid false ws fills).thread? cmd.uid = some t' ∧ t'.attr = t.attr := by
  rw [State.engCommit_unsealed ht hseal]
  split
  · exact ⟨t, ht, rfl⟩
  · rw [State.setsFull_eq]
    obtain ⟨t', ht', hattr⟩ := State.attr_commitBytes ht (ws.map (fun w => (w.loc, w.val)))
    have hstep : ∀ (r : State) (w : Nat), r.waiters = [] ∧ r.thread? cmd.uid = some t' →
        (r.wordChanged (8 * w)).waiters = [] ∧ (r.wordChanged (8 * w)).thread? cmd.uid = some t' := by
      intro r w hr
      rw [State.wordChanged_none hr.1]
      exact hr
    have hquiet : (s.commitBytes (ws.map (fun w => (w.loc, w.val)))).waiters = [] := (State.waiters_commitBytes ..).trans hwait
    generalize s.commitBytes (ws.map (fun w => (w.loc, w.val))) = committed at ht' hquiet ⊢
    have hall := foldl_inv hstep fills { committed with empty := fills.foldl (fun E w => Store.put E w 0#1) committed.empty } ⟨hquiet, ht'⟩
    exact ⟨t', hall.2, hattr⟩
/-- The completion word is committed as an event of its own, with its full bit where it has one (R258). -/
theorem State.Standing.wordSet {m : List Host.Cell} {E : Store 1} (h : s.Standing s' c q m E) (ht : s'.thread? cmd.uid = some t)
    (hseal : t.attr.isSealed = false) (hwait : s.waiters = []) (word : Option (WEntry × Word × Bool))
    (hplace : ∀ x ∈ word, x.1.loc % 8 = 0) (hline : ∀ x ∈ word, s.staleLine (x.1.loc / 64) = false) :
    s.Standing (s'.wordSet cmd word) c q (wordMem m word) (wordFull E word) := by
  cases word with
  | none => exact h
  | some word =>
    obtain ⟨w, v, f⟩ := word
    have hlines : ∀ x ∈ wordEntries w v, s.staleLine (x.loc / 64) = false := by
      intro x hx
      rw [wordEntries_line (hplace (w, v, f) rfl) hx]
      exact hline (w, v, f) rfl
    have hcommit := h.engCommit ht hseal 2 (fills := if f then [w.loc / 8] else []) hlines (.inr hwait)
    rw [wordEntries_put] at hcommit
    cases f with
    | false => exact hcommit
    | true => exact hcommit

theorem EngState.done_counted {op : EngOp} (h : ∀ k, op ≠ .cget k) (q : EngState) (n : Nat) : (q.counted op n).done = BitVec.ofNat 64 n := by
  unfold EngState.counted
  split
  · exact absurd rfl (h _)
  · rfl
/-- COPY_COMMAND_COMPLETION of a stream: its payload, its completion word as a later event, and the full bits of both (R258). -/
theorem State.Clean.stream (h : s.Clean c .copy cmd rest r t) (hboxes : cmd.boxes = []) (hop : ∀ k, cmd.op ≠ .cget k)
    (hheld : s.engHeld cmd (linesOf (r.writes.map (·.loc)) ++ r.cword.toList.map (fun w => w.1.loc / 64)) = false) (hwait : s.waiters = [])
    (hplace : ∀ x ∈ r.cword, x.1.loc % 8 = 0) (hline : ∀ x ∈ r.cword, s.staleLine (x.1.loc / 64) = false) :
    ∃ s', exec (.copyCommandCompletion c) s = .next s' ∧ (s'.core c).cq = rest ∧ (s'.core c).eng.done = BitVec.ofNat 64 r.done ∧
      s'.mem = wordMem (r.writes.foldl (fun m w => Store.put m w.loc w.val) s.mem) r.cword ∧
      s'.empty = wordFull (r.fills.foldl (fun E w => Store.put E w 0#1) s.empty) r.cword := by
  have hcommit := (State.Standing.refl h.inv c).engCommit h.thread h.plain 2 (fills := r.fills) h.lines (.inr hwait)
  obtain ⟨t', ht', hattr⟩ := State.attr_engCommit h.thread h.plain hwait 2 r.writes r.fills
  have hplain : t'.attr.isSealed = false := hattr ▸ h.plain
  obtain ⟨q, hqueue, heng, hcounted, hthreads⟩ := hcommit.copyCounted ht' hplain r.done r.writes.length
  have hword := hcounted.wordSet ((congrArg (Tab.find? · cmd.uid) hthreads).trans ht') hplain hwait r.cword hplace hline
  have hpop := (hword.gotResult cmd r).popCmd ((hqueue .copy).trans h.queue)
  refine ⟨_, h.copyFinish hboxes hheld, ?_, ?_, hpop.mem, hpop.empty⟩
  · rw [hpop.here]
    rfl
  · rw [hpop.here, Core.eng_setCmds, heng, EngState.done_counted hop]
theorem wordFull_get {E : Store 1} (hE : Tab.wf 0#1 E = true) (word : Option (WEntry × Word × Bool)) (w : Nat) :
    decide (Store.get (wordFull E word) w = 0#1) = (decide (Store.get E w = 0#1) || (match word with
      | some (x, _, f) => f && decide (x.loc / 8 = w)
      | none => false)) := by
  rcases word with _ | ⟨x, v, f⟩
  · exact (Bool.or_false _).symm
  · cases f with
    | false => exact (Bool.or_false _).symm
    | true =>
      have hone := fullFold_get [x.loc / 8] hE w
      rw [List.contains_cons, List.contains_nil, Bool.or_false, Bool.beq_comm] at hone
      exact hone
theorem fullFold_wf (ws : List Nat) {E : Store 1} (hE : Tab.wf 0#1 E = true) :
    Tab.wf 0#1 (ws.foldl (fun E w => Store.put E w 0#1) E) = true :=
  foldl_inv (P := fun E : Store 1 => Tab.wf 0#1 E = true) (fun _ _ h => Store.wf_put h _ _) ws E hE

end ended

/-! ### Ring steps (R222) and tiles that leave (R223) -/

section ring
variable {s : State} {c : Nat} {cmd : Cmd} {rest : List Cmd} {n : BitVec 1}

theorem kstepsFrom_step {zskip : Bool} {rows cols : Nat → Except EngStop (List (List FV))} {as bs : List (List FV)} (len k : Nat) (run : MatRun)
    (hrow : rows k = .ok as) (hcol : cols k = .ok bs) : ∃ steps skips, kstepsFrom n zskip rows cols (len + 1) k run =
      kstepsFrom n zskip rows cols len (k + 1) ⟨run.me.kstep n as bs, steps, skips, run.regs⟩ := by
  refine ⟨if zskip && decide ((run.me.kstep n as bs).acc = run.me.acc) then run.steps else run.steps + 1,
    if zskip && decide ((run.me.kstep n as bs).acc = run.me.acc) then run.skips + 1 else run.skips, ?_⟩
  rw [kstepsFrom.eq_2, hrow, hcol]
/-- k-steps whose operands can all be read (R219). -/
theorem kstepsFrom_ok {zskip : Bool} {rows cols : Nat → Except EngStop (List (List FV))} {as bs : Nat → List (List FV)} (len : Nat) :
    ∀ (k : Nat) (run : MatRun), (∀ j, k ≤ j → j < k + len → rows j = .ok (as j) ∧ cols j = .ok (bs j)) →
      ∃ steps skips, kstepsFrom n zskip rows cols len k run =
        .ok (⟨(List.range' k len).foldl (fun m j => m.kstep n (as j) (bs j)) run.me, steps, skips, run.regs⟩, none) := by
  induction len with
  | zero => exact fun _ run _ => ⟨run.steps, run.skips, rfl⟩
  | succ len ih =>
    intro k run h
    obtain ⟨hrow, hcol⟩ := h k (Nat.le_refl k) (by omega)
    obtain ⟨steps, skips, hstep⟩ := kstepsFrom_step (n := n) (zskip := zskip) len k run hrow hcol
    have hrest := ih (k + 1) ⟨run.me.kstep n (as k) (bs k), steps, skips, run.regs⟩ fun j hkj hj => h j (by omega) (by omega)
    rw [hstep, List.range'_succ, List.foldl_cons]
    generalize run.me.kstep n (as k) (bs k) = me at hrest ⊢
    exact hrest

/-- MRING's step multiplies its part of A with the tile, and sets the tile out or ends the round (R222). -/
theorem State.runMring_ok {rs : Nat → List (List FV)} (t : Nat) (cur : Tile)
    (hfault : tileFault cmd.a 16 cmd.mcfg.astr.toNat (32 * cmd.mcfg.ks *
      ((cmd.mcfg.pos + (cmd.mcfg.ringLen + 1) - t % (cmd.mcfg.ringLen + 1)) % (cmd.mcfg.ringLen + 1))) (32 * cmd.mcfg.ks) = none)
    (hrows : ∀ j, j < cmd.mcfg.ks → s.rowsOf c cmd false cmd.a (32 * cmd.mcfg.ks *
      ((cmd.mcfg.pos + (cmd.mcfg.ringLen + 1) - t % (cmd.mcfg.ringLen + 1)) % (cmd.mcfg.ringLen + 1)) + 32 * j) = .ok (rs j)) :
    let m := (List.range cmd.mcfg.ks).foldl (fun m j => m.kstep n (rs j) (cur.cols (32 * j))) (s.mat c)
    ∃ r, s.runMring c cmd false n t cur = .ok r ∧ r.fault = none ∧ r.writes = [] ∧
      r.me = some (if t < cmd.mcfg.ringLen then { m with tileOut := some cur, rstep := BitVec.ofNat 64 (t + 1) }
        else { m with current := none, rstep := 0#64 }) := by
  intro m
  obtain ⟨steps, skips, hsteps⟩ := kstepsFrom_ok (n := n) (zskip := cmd.mcfg.zskip) (bs := fun j => cur.cols (32 * j)) cmd.mcfg.ks 0
    ⟨s.mat c, 0, 0, []⟩ fun j _ hj => ⟨hrows j (by omega), rfl⟩
  rw [← List.range_eq_range'] at hsteps
  unfold State.runMring
  dsimp only
  rw [hfault]
  dsimp only
  rw [hsteps]
  dsimp only [Except.map]
  by_cases ht : t < cmd.mcfg.ringLen
  · simp only [if_pos ht]
    exact ⟨_, rfl, rfl, rfl, rfl⟩
  · simp only [if_neg ht]
    exact ⟨_, rfl, rfl, rfl, rfl⟩

/-- The state in which a ring step runs: the incoming tile has become the current one, but at the first step (R222). -/
def State.ringTook (s : State) (c : Nat) (cmd : Cmd) : State :=
  if (s.mat c).rstep.toNat = 0 then s.touchSource cmd
  else (s.touchSource cmd).modMat c (fun m => { m with current := m.tileIn, tileIn := none })
theorem State.mat_touchSource (s : State) (c : Nat) (cmd : Cmd) : (s.touchSource cmd).mat c = s.mat c := by
  unfold State.mat
  rw [State.core_touchSource]
theorem State.current_ringTook (h : s.Inv) (c : Nat) (cmd : Cmd) :
    ((s.ringTook c cmd).mat c).current = if (s.mat c).rstep.toNat = 0 then (s.mat c).current else (s.mat c).tileIn := by
  unfold State.ringTook
  split
  · rw [State.mat_touchSource]
  · have hcores : Tab.rising (s.touchSource cmd).cores = true := (congrArg Tab.rising (s.cores_touchPlaces _)).trans h.cores
    unfold State.modMat
    rw [State.mat, State.core_modCore hcores]
    exact congrArg MeState.tileIn (s.mat_touchSource c cmd)
/-- MRING_STEP_START of a step whose tile has come and whose operands can be read (R222). -/
theorem execMringStepStart_of {r : EngResult} {tile : Tile} (h : s.Inv) (hq : (s.core c).mq = cmd :: rest) (hop : cmd.op = .mring n)
    (hnew : cmd.result = none) (hfree : s.engWaits c .matrix cmd = false) (hlost : (s.mat c).lost = false)
    (htile : (if (s.mat c).rstep.toNat = 0 then (s.mat c).current else (s.mat c).tileIn) = some tile)
    (hout : (s.mat c).rstep.toNat < cmd.mcfg.ringLen → (s.mat c).tileOut = none) (hks : tile.ks = cmd.mcfg.ks)
    (hrun : (s.ringTook c cmd).runMring c cmd false n (s.mat c).rstep.toNat tile = .ok r) :
    exec (.mringStepStart c) s = .next ((((s.ringTook c cmd).modHead c .matrix (fun x => { x with result := some r, src := [], vsrc := [] })).push
      (.matrixCommandCompletion c)).wakeOwned) := by
  have hready : (s.mat c).ringReady cmd = true := by
    have hcome : (decide ((s.mat c).rstep.toNat = 0) || (s.mat c).tileIn.isSome) = true := by
      by_cases hk : (s.mat c).rstep.toNat = 0
      · rw [decide_eq_true hk, Bool.true_or]
      · rw [if_neg hk] at htile
        rw [htile, Option.isSome_some, Bool.or_true]
    have hroom : (decide (cmd.mcfg.ringLen ≤ (s.mat c).rstep.toNat) || (s.mat c).tileOut.isNone) = true := by
      by_cases hk : (s.mat c).rstep.toNat < cmd.mcfg.ringLen
      · rw [hout hk, Option.isNone_none, Bool.or_true]
      · rw [decide_eq_true (Nat.le_of_not_lt hk), Bool.true_or]
    unfold MeState.ringReady
    dsimp only
    rw [hcome, hroom, Bool.and_true, Bool.or_true]
  have hcurrent := (s.current_ringTook h c cmd).trans htile
  refine (show exec (.mringStepStart c) s = .next (s.ringStart c false) from rfl).trans (congrArg _ ?_)
  unfold State.ringTook at hcurrent hrun ⊢
  unfold State.ringStart
  rw [(State.Standing.refl h c).headCmd (e := .matrix) hq]
  dsimp only
  rw [hop]
  dsimp only
  rw [hnew, hready, hfree, hlost, hcurrent]
  dsimp only
  rw [hrun, if_neg (c := tile.ks ≠ cmd.mcfg.ks) (not_not_intro hks)]
  rfl

/-- TILE_DELIVERY, once a tile stands ready to leave (R223). -/
theorem execTileDelivery_of {ctx : Nat} {tile : Tile} (htile : (s.mat c).tileOut = some tile) (hctx : (s.core c).etag = some ctx) :
    exec (.tileDelivery c) s = .next (
      if s.coreFenced (s.mat c).cfg.down = true ∨ s.holdsCtx (s.mat c).cfg.down ctx = false then
        (s.modMat c (fun m => { m with tileOut := none, lost := true })).pokeRing c
      else if (s.core (s.mat c).cfg.down).etag = some ctx ∧ (s.mat (s.mat c).cfg.down).tileIn = none ∧ (s.mat (s.mat c).cfg.down).cfg.up = c then
        (((s.modMat c (fun m => { m with tileOut := none })).modMat (s.mat c).cfg.down (fun m => { m with tileIn := some tile })).pokeRing
          c).pokeRing (s.mat c).cfg.down
      else s.push (.tileDelivery c)) := by
  refine (show exec (.tileDelivery c) s = .next (s.deliverTile c) from rfl).trans (congrArg _ ?_)
  unfold State.deliverTile
  dsimp only
  rw [htile, hctx]
  simp only [Bool.or_eq_true, Bool.not_eq_true', Option.isNone_iff_eq_none]
theorem execTileDelivery_cases (s : State) (c ctx : Nat) (tile : Tile) (htile : (s.mat c).tileOut = some tile) (hctx : (s.core c).etag = some ctx) :
    let d := (s.mat c).cfg.down
    let out := s.modMat c (fun m => { m with tileOut := none })
    if s.coreFenced d = true ∨ s.holdsCtx d ctx = false then
      exec (.tileDelivery c) s = .next ((s.modMat c (fun m => { m with tileOut := none, lost := true })).pokeRing c)
    else if (s.core d).etag = some ctx ∧ (s.mat d).tileIn = none ∧ (s.mat d).cfg.up = c then
      exec (.tileDelivery c) s = .next (((out.modMat d (fun m => { m with tileIn := some tile })).pokeRing c).pokeRing d)
    else exec (.tileDelivery c) s = .next (s.push (.tileDelivery c)) := by
  intro d out
  have hexec := execTileDelivery_of htile hctx
  by_cases hgone : s.coreFenced d = true ∨ s.holdsCtx d ctx = false
  · rw [if_pos hgone] at hexec ⊢
    exact hexec
  · rw [if_neg hgone] at hexec ⊢
    by_cases hgoes : (s.core d).etag = some ctx ∧ (s.mat d).tileIn = none ∧ (s.mat d).cfg.up = c
    · rw [if_pos hgoes] at hexec ⊢
      exact hexec
    · rw [if_neg hgoes] at hexec ⊢
      exact hexec

end ring

/-! ### The obligation -/

section completions
variable {s : State} {c : Nat} {e : Engine} {cmd : Cmd} {rest : List Cmd} {r : EngResult} {t : Thread}

/-- The engine as a command leaves it: the parts that it names are the command's, and the rest is as it was (R232). -/
def EngState.Leaves (q q' : EngState) (r : EngResult) : Prop :=
  q'.ve = r.ve.getD q.ve ∧ q'.ce = q.ce ∧ q'.tables = q.tables ∧ q'.me = (match r.me with | some m => q.me.merge m r.regs | none => q.me)
theorem EngState.leaves_install (q : EngState) (h : r.me = none) : q.Leaves (q.install r) r := by
  unfold EngState.install EngState.Leaves
  rw [h]
  cases r.ve with
  | none => exact ⟨rfl, rfl, rfl, rfl⟩
  | some v => exact ⟨rfl, rfl, rfl, rfl⟩
theorem EngState.leaves_merged (q : EngState) (h : r.ve = none) : q.Leaves (q.merged r) r := by
  unfold EngState.merged EngState.Leaves
  rw [h]
  cases r.me with
  | none => exact ⟨rfl, rfl, rfl, rfl⟩
  | some m => exact ⟨rfl, rfl, rfl, rfl⟩
theorem EngState.leaves_counted (q : EngState) (hve : r.ve = none) (hme : r.me = none) (op : EngOp) (n : Nat) : q.Leaves (q.counted op n) r := by
  unfold EngState.counted EngState.Leaves
  rw [hve, hme]
  split
  · exact ⟨rfl, rfl, rfl, rfl⟩
  · exact ⟨rfl, rfl, rfl, rfl⟩

/-- The completion of an engine's commands. -/
def State.completion (s : State) (c : Nat) : Engine → Host.Outcome State Fault Refusal
  | .vector => execVectorCommandCompletion c s
  | .matrix => execMatrixCommandCompletion c s
  | .copy => execCopyCommandCompletion c s
/-- A clean completion, whichever engine's it is. -/
theorem State.Clean.completes (h : s.Clean c e cmd rest r t) (hgoing : cmd.going = false)
    (hheld : s.engHeld cmd (linesOf (r.writes.map (·.loc))) = false) (hword : r.cword = none) (hfills : r.fills = [])
    (hboxes : e = .copy → cmd.boxes = []) (hwait : t.wait = (if e = .matrix then .matrix else .running))
    (hve : e ≠ .vector → r.ve = none) (hme : e ≠ .matrix → r.me = none) :
    ∃ s' eng, s.completion c e = .next s' ∧
      s.Ended s' c e cmd rest r (if e = .matrix then (t.gotResult cmd r).finish else t.gotResult cmd r) eng ∧
      (s.core c).eng.Leaves eng r ∧ (e = .copy → (∀ k, cmd.op ≠ .cget k) → eng.done = BitVec.ofNat 64 r.done) := by
  cases e with
  | vector =>
    obtain ⟨s', hexec, hend⟩ := h.vector hheld hfills hwait
    exact ⟨s', _, hexec, hend, EngState.leaves_install _ (hme Engine.noConfusion), fun he => Engine.noConfusion he⟩
  | matrix =>
    obtain ⟨s', hexec, hend⟩ := h.matrix hgoing hheld hwait
    exact ⟨s', _, hexec, hend, EngState.leaves_merged _ (hve Engine.noConfusion), fun he => Engine.noConfusion he⟩
  | copy =>
    obtain ⟨s', hexec, hend⟩ := h.copy (hboxes rfl) hheld hword hfills hwait
    exact ⟨s', _, hexec, hend, EngState.leaves_counted _ (hve Engine.noConfusion) (hme Engine.noConfusion) .., fun _ hop =>
      EngState.done_counted hop ..⟩

end completions

/-- Settles O42: a command's completion engine by engine, a stream's payload before its completion word, a ring step, and a tile's delivery, each
from its own section above. -/
theorem engineCompletions : Obligations.EngineCompletions := by
  refine ⟨fun s c e cmd rest r t hinv hq hresult hvoid hgoing hheld hfault hword hfills hboxes hlines hthread hplain hwait hve hme => ?_,
    fun s c cmd rest r t hinv hq hresult hvoid hboxes hop hfault _ => ?_,
    fun s c cmd rest n tile rs hinv hq hop hnew hfree => ?_, execTileDelivery_cases⟩
  · have h : s.Clean c e cmd rest r t := ⟨hinv, hq, hresult, hvoid, hfault, hlines, hthread, hplain⟩
    obtain ⟨s', eng, hexec, hend, ⟨hvec, hce, htables, hmat⟩, hdone⟩ :=
      h.completes hgoing hheld hword hfills hboxes hwait hve hme
    have heng := hend.eng
    subst heng
    refine ⟨s', ?_, hend.mem, hend.empty, hend.queue, hend.queues, hend.cores, hvec, hce, htables, hmat, hdone, hend.thread, hend.starts⟩
    cases e <;> exact hexec
  · intro word hheld hlines hplace hquiet hthread hplain
    have hwrites : ∀ w ∈ r.writes, s.staleLine (w.loc / 64) = false :=
      fun w hw => hlines w.loc (List.mem_append_left _ (List.mem_map_of_mem hw))
    have h : s.Clean c .copy cmd rest r t := ⟨hinv, hq, hresult, hvoid, hfault, hwrites, hthread, hplain⟩
    have hword : ∀ x ∈ r.cword, x.1.loc ∈ word := fun x hx => List.mem_map_of_mem (Option.mem_toList.2 hx)
    have hstream : ∀ k, cmd.op ≠ .cget k := by
      intro k hk
      rw [hk] at hop
      simp at hop
    rw [show word.map (· / 64) = r.cword.toList.map (fun w => w.1.loc / 64) from List.map_map ..] at hheld
    obtain ⟨s', hexec, hrest, hdone, hmem, hempty⟩ := h.stream hboxes hstream hheld hquiet (fun x hx => hplace _ (hword x hx))
      fun x hx => hlines _ (List.mem_append_right _ (hword x hx))
    refine ⟨s', hexec, hrest, hdone, ?_, fun w => ?_⟩
    · rw [hmem]
      rcases r.cword with _ | ⟨x, v, f⟩
      · rfl
      · rfl
    · have hget := wordFull_get (fullFold_wf r.fills hinv.empty) r.cword w
      rw [fullFold_get _ hinv.empty] at hget
      refine (congrArg (fun E => decide (Store.get E w = 0#1)) hempty).trans (hget.trans ?_)
      rcases r.cword with _ | ⟨x, v, f⟩
      · rfl
      · rfl
  · intro me k len ks p r₀ s₁ hlost htile hout hks hfault hrows m
    obtain ⟨r, hrun, hclean, hnone, hme⟩ := State.runMring_ok (n := n) k tile hfault hrows
    exact ⟨r, hclean, hnone, hme, execMringStepStart_of hinv hq hop hnew hfree hlost htile hout hks hrun⟩

end Sys2Proof.Machine
